-- ==== Sys2Proof/Word.lean ====
section
/-! DEFINITION. The word types of the LH-7200 and their plainest arithmetic (R3, R92, R114). -/

namespace Sys2Proof

/-- One byte of any storage (R3). -/
abbrev Byte := BitVec 8

/-- A 32-bit lane word, parcel or A-stream word. -/
abbrev Word := BitVec 32

/-- A 64-bit scalar value (R11). -/
abbrev DWord := BitVec 64

/-- An owner label: bit k names owner slot k (R114). -/
abbrev Label := BitVec 16

/-- The union of two labels. -/
def Label.join (a b : Label) : Label := a ||| b

/-- `a` with the owners of `b` removed. -/
def Label.without (a b : Label) : Label := a &&& ~~~b

/-- "a is within b": the union of the two is b. -/
def Label.within (a b : Label) : Bool := a ||| b == b

/-- The union of a list of labels. -/
def Label.joinAll (ls : List Label) : Label := ls.foldl Label.join 0#16

end Sys2Proof
end

