-- ==== Sys2Proof/Syntax.lean ====
section
/-! DEFINITION. The steps of the device: one constructor of `Instr` for each row of spec/opcode_table.json
(A-stream words, C-stream instructions, trailers, and the steps of the other agents), with the data each carries. -/

namespace Sys2Proof

/-- A scalar register number, s0 to s63 (R11). -/
abbrev SRegNo := BitVec 6

/-- The element types of R69. The first sixteen are the DT codes in order. -/
inductive Ty where
  | s8 | s16 | s32 | s64 | z8 | z16 | z32 | z64
  | f32 | f16 | bf16 | e4m3n | e5m2n | e2m1n | ocp8a | ocp8b
  | e8m0 | q4a | q8a
deriving DecidableEq, Repr

/-- Rounding modes (R67, R94). -/
inductive RM where
  | rne | rtz | rdn | rup
deriving DecidableEq, Repr

/-- The immediate of a C-stream instruction (R54, R67): none, IMM20, a literal parcel, or a constant-bank index. -/
inductive Imm where
  | none
  | i20 (v : BitVec 20)
  | lit (w : Word)
  | k (n : BitVec 12)
deriving DecidableEq, Repr

/-- The fields of a three- or four-parcel C-stream instruction after decoding (R67). Fields that the immediate form
takes over (EXT under IMM20, SB and X under a constant-bank index) are held by `imm` and are zero here. -/
structure CFields where
  dt : Ty
  pr : BitVec 3
  pn : Bool
  tk : BitVec 4
  rm : RM
  sat : Bool
  ru : Bool
  imm : Imm
  x : BitVec 2
  dst : BitVec 10
  sa : BitVec 10
  sb : BitVec 10
  sc : BitVec 10
  ext : BitVec 20
deriving DecidableEq, Repr

/-- The nine flight counters of R26, in the code order of R66. -/
inductive FC where
  | ld | gx | st | sp | po | mx | cl | xf | wa
deriving DecidableEq, Repr

/-- The scopes of R344. -/
inductive Scope where
  | group | team | cluster | device | domain | system
deriving DecidableEq, Repr

/-- The kinds of FENCE (R188). -/
inductive FenceKind where
  | acq | rel | full
deriving DecidableEq, Repr

/-- The targets of GLBL (R192). -/
inductive GSpace where
  | global | scratch | acc | barrier
deriving DecidableEq, Repr

/-- The frame types of R408. -/
inductive FrameType where
  | loadRequest | loadReply | store | ack | atomic | atomicReply | notify | rejection | invalidation | invalidationAck
  | fenceNotice | dupUpdate | dupAck | contribution | combined | resultChunk | unlisted
deriving DecidableEq, Repr

/-- A Sywald frame as it is received or sent (R408): the fields of the header flit, the bytes of the payload flits, and in
`rsv` what stands in the bits that R408 says are zero. `authentic` is the outcome of the tag check of R409 (log 10), `nonce` the
GCM nonce under which this device has sealed a frame that it sends (R427). -/
structure Frame where
  typ : FrameType
  vl : Nat
  kgen : BitVec 2
  red : Bool
  opn : BitVec 8
  dst : Nat
  src : Nat
  ctx : Nat
  lbl : Label
  tag : Nat
  addr : DWord
  aux : DWord
  payload : List Byte
  authentic : Bool
  rsv : Nat
  nonce : BitVec 96 := 0#96
deriving DecidableEq, Repr

/-- An endorsement record as it is offered to the trusted firmware: its 768 bytes (R151). -/
structure EndorseRec where
  bytes : List Byte
deriving DecidableEq, Repr

/-- What the firmware finds and sets at device reset (R366, R406, R448): the expander capacities by port in bytes (0 for
a port with no working expander), the device number, the route table (the Sywald ports toward each device), the steward's
context, its
address-space root, what the firmware writes into local storage (its tables, code and launch record, each with its local
address), and the virtual address of the launch record. -/
structure ResetInfo where
  caps : List Nat
  devn : Nat
  routes : List (Nat × List Nat)
  ctx : Nat
  root : Nat
  image : List (Nat × List Byte)
  record : Nat
deriving DecidableEq, Repr

/-- Which resident image a firmware update replaces (R432, R433). -/
inductive FwImage where
  | trusted | untrusted
deriving DecidableEq, Repr

/-- What a debug read names (R446). -/
inductive DebugTarget where
  | vreg (n : Nat)
  | accWord (off : Nat)
deriving DecidableEq, Repr

/-- The rows of the opcode table. A group is named by its key, 32 × team + GIDX. `op` names an operation in flight of
that group, `p` a path-table entry. -/
inductive Instr where
  -- A-stream: ALU group (R65, R159)
  | add (d a b : SRegNo) | sub (d a b : SRegNo) | mul (d a b : SRegNo) | mulhi (d a b : SRegNo)
  | divs (d a b : SRegNo) | divz (d a b : SRegNo) | rems (d a b : SRegNo) | remz (d a b : SRegNo)
  | and (d a b : SRegNo) | or (d a b : SRegNo) | xor (d a b : SRegNo)
  | shl (d a b : SRegNo) | shr (d a b : SRegNo) | sar (d a b : SRegNo)
  | min (d a b : SRegNo) | max (d a b : SRegNo) | minz (d a b : SRegNo) | maxz (d a b : SRegNo)
  | slt (d a b : SRegNo) | sltz (d a b : SRegNo) | seq (d a b : SRegNo)
  -- A-stream: select, immediates, constants (R160-R162)
  | sel (d a b c : SRegNo)
  | addi (d a : SRegNo) (i : BitVec 14) | andi (d a : SRegNo) (i : BitVec 14)
  | ori (d a : SRegNo) (i : BitVec 14) | xori (d a : SRegNo) (i : BitVec 14)
  | shli (d a : SRegNo) (n : BitVec 6) | shri (d a : SRegNo) (n : BitVec 6) | sari (d a : SRegNo) (n : BitVec 6)
  | lih (d : SRegNo) (i : BitVec 20) | li32 (d : SRegNo) (lit : Word) | addpc (d : SRegNo) (i : BitVec 20)
  | ldk (d : SRegNo) (n : BitVec 12)
  -- A-stream: control flow (R163, R164)
  | jmp (i : BitVec 20) | call (d : SRegNo) (i : BitVec 20) | loop (d : SRegNo) (i : BitVec 20)
  | beq (a b : SRegNo) (i : BitVec 14) | bne (a b : SRegNo) (i : BitVec 14) | blt (a b : SRegNo) (i : BitVec 14)
  | bge (a b : SRegNo) (i : BitVec 14) | blo (a b : SRegNo) (i : BitVec 14) | bhs (a b : SRegNo) (i : BitVec 14)
  | jr (a : SRegNo) | ret (a : SRegNo) | halt
  -- A-stream: system group (R66, R189-R193)
  | trap (d a c : SRegNo) | yield (a : SRegNo) | lblrd (d a : SRegNo) | lblup (d a b : SRegNo)
  | glbl (sp : GSpace) (a b : SRegNo) | dcls (d a b : SRegNo) | markJoin | markUser (a : SRegNo)
  | brk (c : SRegNo) | yieldRec (a : SRegNo)
  -- A-stream: scalar memory and queues (R166-R174)
  | lds (d a : SRegNo) (i : BitVec 14) | sts (d a : SRegNo) (i : BitVec 14)
  | amosAdd (d a b : SRegNo) | amosAnd (d a b : SRegNo) | amosOr (d a b : SRegNo) | amosXor (d a b : SRegNo)
  | amosMin (d a b : SRegNo) | amosMax (d a b : SRegNo) | amosMinz (d a b : SRegNo) | amosMaxz (d a b : SRegNo)
  | amosSwap (d a b : SRegNo) | amosCas (d a b : SRegNo)
  | vld (q : BitVec 2) (a : SRegNo) (i : BitVec 14) | vsta (a : SRegNo) (i : BitVec 14)
  | pref (a : SRegNo) (i : BitVec 14) | run (d : SRegNo) (i : BitVec 20) | slipset (i : BitVec 14) | popca (d : SRegNo)
  -- A-stream: engines, waits, signals, launch, barriers, special registers (R175-R188, R194)
  | port (a : SRegNo) | coll (a : SRegNo) | alloc (d a : SRegNo) | free (a : SRegNo) | resv (d a b : SRegNo)
  | unresv (a : SRegNo) | detset (a b : SRegNo) | waitfc (c : FC) (n : BitVec 12) | sigadd (a b : SRegNo)
  | sigdec (a b : SRegNo) | sigwait (a b : SRegNo) | launch (a : SRegNo) | early | barinit (a b : SRegNo)
  | bararv (d a b : SRegNo) | barwait (d a : SRegNo) | fence (sc : Scope) (k : FenceKind)
  | getsr (d : SRegNo) (i : BitVec 14) | setsr (a : SRegNo) (i : BitVec 14)
  -- C-stream class 0x0 (R201-R207)
  | vadd (f : CFields) | vsub (f : CFields) | vmul (f : CFields) | vmulhi (f : CFields) | vmad (f : CFields)
  | vadds (f : CFields) | vsubs (f : CFields) | vand (f : CFields) | vor (f : CFields) | vxor (f : CFields)
  | vnot (f : CFields) | vshl (f : CFields) | vshr (f : CFields) | vsar (f : CFields) | vmin (f : CFields)
  | vmax (f : CFields) | vabs (f : CFields) | vneg (f : CFields) | vcmp (f : CFields) | vsel (f : CFields)
  | vpopc (f : CFields) | vclz (f : CFields) | vbfe (f : CFields) | vbfi (f : CFields) | vpack (f : CFields)
  | vunpk (f : CFields)
  -- class 0x1 (R208-R215)
  | vfadd (f : CFields) | vfsub (f : CFields) | vfmul (f : CFields) | vfma (f : CFields) | vfmin (f : CFields)
  | vfmax (f : CFields) | vfabs (f : CFields) | vfneg (f : CFields) | vfcmp (f : CFields) | vfclass (f : CFields)
  | vcvt (f : CFields) | vqnt (f : CFields) | vdqnt (f : CFields) | vscalb (f : CFields)
  -- class 0x2 (R216)
  | vexp2 (f : CFields) | vlog2 (f : CFields) | vrcp (f : CFields) | vrsq (f : CFields) | vsqrt (f : CFields)
  | vtanh (f : CFields) | vsin (f : CFields) | vcos (f : CFields)
  -- class 0x3 (R217-R225)
  | vshuf (f : CFields) | vshfl (f : CFields) | vvote (f : CFields) | vred (f : CFields) | vscan (f : CFields)
  | vbcast (f : CFields) | settw (f : CFields) | vmov (f : CFields) | vrand (f : CFields)
  -- class 0x4 (R233-R247)
  | vldx (f : CFields) | vstx (f : CFields) | vstxNotify (f : CFields) | vamo (f : CFields) | vamoDet (f : CFields)
  | spld (f : CFields) | spst (f : CFields) | spamo (f : CFields) | std (f : CFields) | senda (f : CFields)
  | acld (f : CFields) | acst (f : CFields)
  -- class 0x5 (R249, R251)
  | cwait (f : CFields) | carv (f : CFields)
  -- class 0x6 (R281-R291)
  | mxloop (f : CFields) | mxgrp (f : CFields) | mxzero (f : CFields) | accvt (f : CFields)
  -- class 0x7 (R303-R308)
  | winit (f : CFields) | wpush (f : CFields) | wqry (f : CFields) | wsetw (f : CFields) | wfree (f : CFields)
  | wstat (f : CFields)
  -- class 0x8 (R253-R255)
  | xunpk (f : CFields) | xdec (f : CFields) | xlut (f : CFields)
  -- class 0x9 (R256-R260)
  | vdcls (f : CFields) | vlblrd (f : CFields) | vlblup (f : CFields) | vsys (f : CFields) | vbrk (f : CFields)
  -- trailers and NOP (R77, R78, R261-R267)
  | trlTake (aw : BitVec 15) | trlFall (aw : BitVec 15) | trlSkip (aw : BitVec 15) (p : BitVec 3) (n : BitVec 7)
  | trlRegang (aw : BitVec 15) (id : BitVec 10) | trlEnd (aw : BitVec 15) | nop
  -- steps of a group's own units
  | fixedLatencyWrite (g p : Nat) | runStart (g p : Nat) | takeEntry (g p : Nat) | quadEnd (g q : Nat)
  | groupFinish (g : Nat) | unpairedDeadlock (g : Nat) | decoupleDeadlockDetect (g : Nat) | popcaDeadlock (g : Nat)
  | ageCounterAged (g : Nat) (cSlice : Bool) | vldEntryPresent (g op : Nat) | vldFail (g op : Nat)
  | vldPoisonIdle (g : Nat) | ldsComplete (g op : Nat) | stsComplete (g op : Nat) | amosComplete (g op : Nat)
  | detsetComplete (g op : Nat) | queueStore (g : Nat) | storeApply (g op k : Nat) | laneAccessComplete (g op : Nat)
  | sliceStop (g skid : Nat) | barwaitSatisfied (g : Nat) | cwaitSatisfied (g op : Nat) | sigwaitReread (g : Nat)
  | fenceComplete (g : Nat) | waitfcSatisfied (g : Nat) | allocGrant (core : Nat) | allocDeadlockDetect (core : Nat)
  | bankFree (g : Nat) | resvRelease (g : Nat)
  -- engines
  | porterComplete (g op : Nat) | transformReply (g op : Nat) | weighhouseAnswer (g op : Nat)
  | syscallSlotPoll (g : Nat) | pitchEntryStart (t p : Nat) | matrixStep (t p : Nat) | pitchEntryComplete (t p : Nat)
  | accvtComplete (t p : Nat) | windowOpPerform (t : Nat) | detContribution (g op k : Nat) | collComplete (g op : Nat)
  -- frames
  | loadRequest (f : Frame) | loadReply (f : Frame) | storeFrame (f : Frame) | acknowledgement (f : Frame)
  | atomicFrame (f : Frame) | atomicReply (f : Frame) | notifyArrival (f : Frame) | rejection (f : Frame)
  | invalidation (f : Frame) | invalidationAcknowledgement (f : Frame) | fenceNotice (f : Frame)
  | dupUpdate (f : Frame) | dupAcknowledgement (f : Frame) | contribution (f : Frame)
  | combinedContribution (f : Frame) | resultChunk (f : Frame)
  -- translation and fabric management
  | shootdownRequest (ctx base npg : Nat) | shootdownTimeout | replyTimeout (tag : Nat) | dupAckTimeout (tag : Nat)
  -- distributor
  | teamFaultSave (t : Nat) | dispPoll (t : Nat) | teamRetire (t : Nat) | gridRetire (gr : Nat) | gridAdmit (gr : Nat)
  | teamPlace (gr : Nat) | preemptMark (gr : Nat) | teamSaveYield (t : Nat) | preemptDeadline (t : Nat)
  | teamResume (t : Nat)
  -- firmware and power
  | deviceReset (r : ResetInfo) | ownerRegister (ctx slot : Nat) (key : BitVec 4096) | endorsementInstall (r : EndorseRec)
  | evidenceRequest (nonce : BitVec 512) (ctx : Nat) | firmwareUpdate (w : FwImage) (image : List Byte)
  | debugUnlock (sigOk : Bool) | protectedContextCreate (ctx root : Nat) | keyRotate (ctx : Nat)
  | frameAllocate (ctx base n : Nat) | powerRedivide (grants : List Nat)
  -- observation
  | trcctlWrite (core : Nat) (v : DWord) | traceSample (core sched : Nat) | traceLeaseBroken (core : Nat) | pmuRotate (core : Nat)
  | bkctlHrel (core n : Nat) | breakpointMatch (g p : Nat) (cSlice : Bool) | dbgstepWrite (core : Nat) (v : DWord)
  | stepStop (g : Nat) | debugRead (g : Nat) (w : DebugTarget) | registerWrite (core off : Nat) (v : DWord)
  | hostBar2Read (a n : Nat) | hostBar2Write (a : Nat) (bytes : List Byte) | lineRelocation (line : Nat)
  | fenceClear (dev : Nat) | savedTeamAged (t : Nat) | resumedResidency10ms (t : Nat)
deriving DecidableEq, Repr

end Sys2Proof
end

