-- ==== Sys2Proof/Config.lean ====
section
/-! DEFINITION. What an implementation of the LH-7200 fixes and the manual leaves open: free values, with no body, so
that no proof can see what they are, and the constants the manual gives for every device. -/

namespace Sys2Proof

/-- An entry of an endpoint table (R136): a range of device numbers, the host, or the syscall runtime. -/
inductive Endpoint where
  | devices (lo hi : Nat)
  | host
  | runtime
deriving DecidableEq, Repr

/-- Where storage loses data so that a read finds it uncorrectable (R157, R230, R272): a 32-byte sector of memory, a word of a
team's scratchpad, accumulator memory or weight buffer, the data of a step in a reuse latch. -/
inductive Upset where
  | memory (sector : Nat)
  | scratch (team word : Nat)
  | acc (team word : Nat)
  | weight (team word : Nat)
  | latch (team pitch step : Nat)
deriving DecidableEq, Repr

/-- What moves in the device beside the steps of the opcode table: one access of an operation in flight, apart from the
others (R348), and what the driver, the firmware and the host write and read. -/
inductive Act where
  | access (g op i : Nat)
  /-- The store unit takes the heads of SAQ and SDQ of a group, and performs the lanes apart (R348). -/
  | pair (g : Nat)
  /-- From now on the records at this device are read sector by sector, or at once (R348). -/
  | apart (b : Bool)
  /-- The device goes on with writes of its own that have waited for acknowledgements (R373, R381, R383). -/
  | ownNext
  /-- The driver writes the address-space root of a context (R396), or says which devices it has (R403). -/
  | contextRoot (ctx root : Nat)
  | contextDevices (ctx : Nat) (devs : List Nat)
  /-- The trusted firmware writes an entry of a context's endpoint table, or takes it out (R136). -/
  | endpoint (ctx slot : Nat) (e : Option (Endpoint × Label))
  /-- The driver writes the duplicate map and the home's list of holders (R359, R421). -/
  | dupEntry (home : Nat) (copy : Option Nat)
  | dupHolders (home : Nat) (devs : List Nat)
  /-- The driver positions the aperture of BAR2 (R422) and writes HWBASE (R423). -/
  | aperture (base : Nat)
  | hostBase (base : DWord)
  /-- The management firmware sets the shoot-down timeout, in cycles (R405), or the ports toward a device (R406). -/
  | shootTimeout (cycles : Nat)
  | route (dev : Nat) (ports : List Nat)
  /-- The host writes its own memory, from a host bus address on (R343, R423), or reads a register of the MMIO window through BAR0
  (R422, R448). -/
  | hostWrite (bus : Nat) (bytes : List Byte)
  | mmioRead (off : Nat)
  /-- Stored data becomes uncorrectable. -/
  | upset (u : Upset)
deriving DecidableEq, Repr

/-- A turn: which agent moves next (R5, R315, R319; log 2). `aWord` issues the next A-stream word of a group, `cIssue`
the next C-stream parcel of one path-table entry, `event` lets another agent take a step, `outside` is one beside the
opcode table. -/
inductive Turn where
  | aWord (g : Nat)
  | cIssue (g p : Nat)
  | event (i : Instr)
  | outside (a : Act)
deriving DecidableEq, Repr, Inhabited

/-- A free turn, for each value of State's free-value counter: the manual fixes no interleaving of the agents. -/
opaque Config.nextTurn : Nat → Turn

/-- Free numbers of cycles that pass before a step (log 4). -/
opaque Config.elapsed : Nat → Nat

/-- Free bytes: parts of a record or an image whose inner layout the manual does not give (log 11), and bytes an engine
leaves unspecified (R133). The arguments are the free-value counter and the position. -/
opaque Config.freeByte : Nat → Nat → Byte

/-- Which of the entries that a translation may use it does use, the one read now or one that some cache holds (R399, R404;
log 9). The arguments are the free-value counter and the virtual page number. -/
opaque Config.tlbPick : Nat → Nat → Nat

/-- A free choice among outcomes that the manual allows (log 12). -/
opaque Config.freeChoice : Nat → Nat

/-- SHA-512 of a byte string, named by a standard outside the manual (R147, R432; log 10). -/
opaque Config.sha512 : List Byte → BitVec 512

/-- An owner's key as the bytes that OKH is the hash of, whose layout the manual does not give (R113; log 10). -/
opaque Config.keyBytes : BitVec 4096 → Nat → List Byte

/-- Whether bytes are an RSASSA-PSS signature of a message under a key and exponent (R151, R152; log 10). -/
opaque Config.verify : BitVec 4096 → Nat → List Byte → List Byte → Bool

/-- The HMAC-SHA-512 over a saved image under a key of its context that only the firmware holds (R389; log 10). -/
opaque Config.imageTag : Nat → List Byte → BitVec 512

/-- The RSASSA-PSS signature of the device identity key over a record (R434, R436; log 10). -/
opaque Config.sign : List Byte → BitVec 4096

/-- SHA-512 of the configuration, whose layout as bytes the manual does not give (R432; log 10). -/
opaque Config.configHash : List Nat → BitVec 512

/-- How much of a record's budget a core gets, before it is bounded by what is left (R152; log 12). The arguments are the
free-value counter and the core. -/
opaque Config.budgetShare : Nat → Nat → Nat

/-- The cycles of a stretch of time that an event of the performance counters takes up (R442; log 4). The arguments are the
free-value counter, the core and the event code. -/
opaque Config.eventCycles : Nat → Nat → Nat → Nat

/-- A correctly rounded special function where the model's interval search does not decide it (log 13). The arguments
are the function's number, the operand and the rounding mode's code. -/
opaque Config.undecided : Nat → Nat → Nat → Word

/-- The stepping letter of the part (R1, R434). -/
def Config.stepping : Byte := 0x41#8

/-- The device serial number (R434), fixed for each device. -/
opaque Config.serial : Nat

/-- The cores of the device (R1): 144, 72 on each die in 8 columns and 9 rows. -/
def Config.cores : Nat := 144

/-- Accumulator banks of a core (R333). -/
def Config.banks : Nat := 64

/-- Bytes of a core's scratchpad (R333). -/
def Config.scratchBytes : Nat := 1048576

/-- 4 KiB units of a core's weight buffer (R333). -/
def Config.weightUnits : Nat := 1024

/-- Vector registers of a core (R13). -/
def Config.coreVregs : Nat := 4096

/-- Populated HBM bytes (R400): 1024 GB in decimal units (R4). -/
def Config.hbmBytes : Nat := 1024000000000

end Sys2Proof
end

