-- ==== Sys2Proof/Machine/Table.lean ====
section
/-! DEFINITION. Sparse tables: the one form in which the model holds memory, register files and lists of units by
number. A table lists key and value pairs, keys strictly rising; `set` never lists the value an unlisted key reads as. -/

namespace Sys2Proof.Machine

/-- A table from numbers to values. -/
abbrev Tab (α : Type) := List (Nat × α)

/-- The value at a key, `d` where the key is not listed. -/
def Tab.get {α : Type} (d : α) : Tab α → Nat → α
  | [], _ => d
  | (k', v) :: t, k => if k' = k then v else Tab.get d t k

/-- The value at a key, when it is listed. -/
def Tab.find {α : Type} : Tab α → Nat → Option α
  | [], _ => none
  | (k', v) :: t, k => if k' = k then some v else Tab.find t k

/-- List a value at its place, replacing what was listed there. -/
def Tab.put {α : Type} : Tab α → Nat → α → Tab α
  | [], k, v => [(k, v)]
  | (k', v') :: t, k, v =>
    if k < k' then (k, v) :: (k', v') :: t
    else if k = k' then (k, v) :: t
    else (k', v') :: Tab.put t k v

/-- Remove a key. -/
def Tab.del {α : Type} (m : Tab α) (k : Nat) : Tab α := m.filter (fun e => e.1 != k)

/-- Write a value: the value an unlisted key reads as is not listed. -/
def Tab.set {α : Type} [DecidableEq α] (d : α) (m : Tab α) (k : Nat) (v : α) : Tab α :=
  if v = d then m.del k else m.put k v

/-- The canonical form: keys strictly rising, and no entry equal to the default. -/
def Tab.wf {α : Type} [DecidableEq α] (d : α) : Tab α → Bool
  | [] => true
  | (k, v) :: t => decide (v ≠ d) && t.all (fun e => decide (k < e.1)) && Tab.wf d t

/-- Write consecutive values from a key on. -/
def Tab.setFrom {α : Type} [DecidableEq α] (d : α) (m : Tab α) (k : Nat) : List α → Tab α
  | [] => m
  | v :: vs => Tab.setFrom d (m.set d k v) (k + 1) vs

/-- Read `n` consecutive values from a key on. -/
def Tab.getFrom {α : Type} (d : α) (m : Tab α) (k n : Nat) : List α := (List.range n).map (fun i => m.get d (k + i))

/-- Change every value of a table. -/
def Tab.mapVals {α β : Type} (f : Nat → α → β) (m : Tab α) : Tab β := m.map (fun e => (e.1, f e.1 e.2))

/-- The bytes of a number, lowest first (R3). -/
def bytesOf (n : Nat) : Nat → List Byte
  | 0 => []
  | k + 1 => BitVec.ofNat 8 n :: bytesOf (n / 256) k

/-- The number whose bytes these are, lowest first (R3). -/
def ofBytes : List Byte → Nat
  | [] => 0
  | b :: bs => b.toNat + 256 * ofBytes bs

/-- Little-endian number at an offset of a record. -/
def fieldAt (bs : List Byte) (off n : Nat) : Nat := ofBytes ((bs.drop off).take n)

/-- `n` bits of a number from bit `lo` on. -/
def bitsOf (w lo n : Nat) : Nat := w / 2 ^ lo % 2 ^ n

/-- Bit `i` of a number. -/
def bitOf (w i : Nat) : Bool := w / 2 ^ i % 2 == 1

/-- Two's-complement reading of the low `w` bits. -/
def signedOf (w n : Nat) : Int := if bitOf n (w - 1) then (n % 2 ^ w : Nat) - (2 ^ w : Nat) else (n % 2 ^ w : Nat)

/-- The low `w` bits of an integer's two's-complement form. -/
def wrapTo (w : Nat) (z : Int) : Nat := (z % (2 ^ w : Nat)).toNat

/-- 32 lane words from a function of the lane. -/
def lanesOf (f : Nat → Word) : List Word := (List.range 32).map f

/-- Lane `l` of a register image. -/
def laneAt (v : List Word) (l : Nat) : Word := v.getD l 0#32

/-- A mask from a predicate on positions below `n`. -/
def maskOf (n : Nat) (p : Nat → Bool) : Nat := (List.range n).foldl (fun a i => if p i then a + 2 ^ i else a) 0

end Sys2Proof.Machine
end

