-- ==== Sys2Proof/Machine/State.lean ====
section
/-! DEFINITION. Everything the manual gives the machine to hold, as plain data, and the device right after reset. Fields
marked "model" are not the manual's: they say which agent moves next and count free values. -/

namespace Sys2Proof.Machine

/-- Why the model stops. The manual's own faults (R375) are not these: they are taken, as next states. -/
inductive Fault
deriving DecidableEq, Repr

/-- Why the model refuses. -/
inductive Refusal where
  /-- Raised by `exec` for an instruction that has no meaning yet. Safe: nothing is proved of it. -/
  | notModelled (mnemonic : String)
deriving DecidableEq, Repr

/-- A scalar register: 64 bits and its label (R11). -/
structure SVal where
  val : DWord := 0#64
  lbl : Label := 0#16
deriving DecidableEq, Repr

/-- A vector register image: 32 lane words and one label (R11). -/
structure VReg where
  lanes : List Word := List.replicate 32 0#32
  lbl : Label := 0#16
deriving DecidableEq, Repr

/-- A run temporary as one quad sees it: four lane words and its label (R14; log 14). -/
structure TReg where
  lanes : List Word := [0#32, 0#32, 0#32, 0#32]
  lbl : Label := 0#16
deriving DecidableEq, Repr

/-- A predicate register: a 32-bit lane mask and its label (R11). -/
structure PReg where
  mask : Word := 0#32
  lbl : Label := 0#16
deriving DecidableEq, Repr

/-- One entry of a path label stack: the label, and the address of the word or parcel that pushed it, if one is kept
(R122, R123). -/
structure PathLbl where
  lbl : Label
  pusher : Option Nat
deriving DecidableEq, Repr

/-- A fault as it is raised (R375, R380): code, sub-cause, the two labels of R145, the CODE, FADDR, PINFO and STPC
fields. -/
structure Flt where
  code : Nat
  sub : Nat := 0
  flbl : Label := 0#16
  clbl : Label := 0#16
  kcode : Nat := 0
  faddr : Nat := 0
  pinfo : Nat := 0
  stpc : Nat := 0
deriving DecidableEq, Repr

/-- A fault as a group holds it (R332, R380): the fault, whether the compute slice raised it, FPOS, FCYCLE, the flags
IDLE, DLK and UNPAIRED, the queue of the poisoned entry, the faulting path, and whether BRK or VBRK raised it (R381). -/
structure FaultRec where
  flt : Flt
  cslice : Bool
  fpos : Nat
  fcycle : Nat
  idle : Bool := false
  dlk : Bool := false
  unpaired : Bool := false
  pq : Nat := 0xFF
  fpath : Option Nat := none
  brk : Bool := false
deriving DecidableEq, Repr

/-- The hint of a yield marker (R190, R385): none when R190 ignores it, the inline bitmap, or a liveness record. -/
inductive Hint where
  | all
  | inline (bits : DWord)
  | record (vmask : Nat) (acc : DWord) (ranges : List (Nat × Nat)) (dropw : Bool)
deriving DecidableEq, Repr

/-- An entry of RQ: a run's start parcel and run label, or a yield marker (R17, R119, R190). -/
inductive RQEntry where
  | run (pos : Nat) (rl : Label)
  | marker (hint : Hint)
deriving DecidableEq, Repr

/-- An entry of a load queue (R17, R321, R329): the VLD's word address, its access address, the data, the label, whether
it is present, the cause when it is poisoned, and the label of the VLD's own operands, which it has again when it is asked
for again (R126, R381). -/
structure LQEntry where
  vld : DWord
  addr : Nat
  data : List Word := List.replicate 32 0#32
  lbl : Label := 0#16
  present : Bool := false
  poison : Option Flt := none
  albl : Label := 0#16
  op : Nat
deriving DecidableEq, Repr

/-- A load queue: the absolute number of its first unreleased entry, and the unreleased entries (R17, R18). -/
structure LQueue where
  base : Nat := 0
  entries : List LQEntry := []
deriving DecidableEq, Repr

/-- An entry of SAQ (R17, R170): address, label, the VSTA's word address, and its operation in flight. -/
structure SAEntry where
  addr : Nat
  lbl : Label
  apc : DWord
  op : Nat
deriving DecidableEq, Repr

/-- An entry of SDQ as it is assembled (R19, R245): the quads that supplied their part, data, lane mask, label, and the
parcel address of the STD. -/
structure SDEntry where
  quads : Nat := 0
  data : List Word := List.replicate 32 0#32
  mask : Word := 0#32
  lbl : Label := 0#16
  pos : Nat := 0
deriving DecidableEq, Repr

/-- An entry of CA (R17, R246). `quad` and `upTo` say which operations of that quad precede it (R340 case 4). -/
structure CAEntry where
  val : DWord
  lbl : Label
  quad : Nat
  upTo : Nat
deriving DecidableEq, Repr

/-- An arrival of CARV being assembled (R251). -/
structure CarvPart where
  off : Nat
  quads : Nat
  lbl : Label
  pos : Nat
deriving DecidableEq, Repr

/-- The states of a quad (R23); NOT-LAUNCHED counts as ended. -/
inductive QState where
  | live | parked | ended
deriving DecidableEq, Repr

/-- A quad (R18, R22, R23, R119): its state, run label, tickets (1 PENDING, 2 DONE), heads of RQ and the load queues as
absolute entry numbers, STDs and CARVs issued, trailers of runs passed, its REGANG id, and the tickets that a CWAIT has
completed and no trailer has awaited yet (R250). -/
structure Quad where
  st : QState := .live
  rl : Label := 0#16
  tickets : Tab Nat := []
  rqHead : Nat := 0
  lqHead : Tab Nat := []
  stdCnt : Nat := 0
  carvCnt : Nat := 0
  passed : Nat := 0
  id : Nat := 0
  acq : List Nat := []
deriving DecidableEq, Repr

/-- Where a path stands (R261, R309, R317, R320): issuing a run; awaiting the tickets of a trailer that has issued; past a FALL
trailer or holding an entry of RQ, before it
begins that run; past a trailer that takes the next RQ entry; waiting at a yield marker; ending; or parked at REGANG. -/
inductive Phase where
  | issuing | awaiting | fall | take | marker | ending | parked
deriving DecidableEq, Repr

/-- A path-table entry (R24), with the number of instructions issued in the run (R76; for a parked entry, the order in
which it parked), the code of the wait it stands at
(0 none; 1 to 4 as in R326; 0x100 and the reason of R441 for any other), the operand codes whose pops it then waits for,
the order in which its last run began (R317), whether its last trailer had no drain (R324), the trailer whose tickets it
awaits (R320), and the breakpoint it is held at or released from (R443). -/
structure Path where
  pos : Nat
  qmask : Nat
  lmask : Word
  skipn : Nat := 0
  skipmask : Word := 0#32
  pls : List PathLbl := []
  phase : Phase := .take
  icount : Nat := 0
  waitc : Nat := 0
  pops : List Nat := []
  began : Nat := 0
  nodrain : Bool := false
  trail : Option Instr := none
  held : Option Nat := none
  pass : Bool := false
deriving DecidableEq, Repr

/-- A destination in the compute slice's registers: an operand code, a predicate, or TILEW. -/
inductive Dst where
  | reg (code : Nat)
  | pred (k : Nat)
  | tilew
deriving DecidableEq, Repr

/-- A fixed-latency write that has issued and not landed (R311): the quads it writes for, the destination, the lanes it
writes and their words (a mask's word for a predicate, the width for TILEW), whether R120 makes it a full write, the
result label and the issue cycles left. -/
structure FxWrite where
  qmask : Nat
  dst : Dst
  mask : Word
  vals : List Word
  full : Bool
  lbl : Label
  left : Nat
deriving DecidableEq, Repr

/-- What one access of an operation does where it is applied. -/
inductive AccKind where
  | load
  | store
  /-- Atomic with an operation code of R167 on elements of a type. -/
  | atomic (f : Nat) (t : Ty)
  /-- Add to the VALUE of a signal object (R182). -/
  | signal
  /-- A deterministic contribution (R238). -/
  | contrib
  /-- DETSET, `val` being the expected count (R180). -/
  | detset
  /-- GLBL, `val` being the owners (R143). -/
  | raise
deriving DecidableEq, Repr

/-- The address space of an access (R333, R335); only the Porter writes the weight buffer. -/
inductive Space where
  | global | scratch | acc | weight
deriving DecidableEq, Repr

/-- One access of an operation in flight: the lane, the address as formed, the physical address (or the offset in a typed
buffer), its size, kind and ordering class (R339), store data or operand with the label it has beside the operation's, comparand, whether it has been applied, and what
came back with which label. `lease` says that translation or the lease check refused it (R230), `chk` that its label check
has been made with those of the other lanes of its instruction (R128). -/
structure Acc where
  lane : Nat := 0
  space : Space := .global
  kind : AccKind := .load
  va : Nat := 0
  pa : Nat := 0
  size : Nat := 4
  ord : Nat := 0
  val : Nat := 0
  lbl : Label := 0#16
  cmp : Nat := 0
  line : Bool := false
  dup : Bool := false
  det : Bool := false
  lease : Bool := false
  chk : Bool := false
  sent : Bool := false
  held : Bool := false
  done : Bool := false
  got : Nat := 0
  glbl : Label := 0#16
deriving DecidableEq, Repr

/-- A tensor record (R412). -/
structure Tensor where
  base : Nat
  fmt : Nat
  rank : Nat
  trans : Bool
  grpl : Nat
  dims : List Nat
  strides : List Int
  zptr : Nat
deriving DecidableEq, Repr

/-- A Porter command as it was read at issue (R175). -/
structure PortCmd where
  opc : Nat
  sspace : Nat
  dspace : Nat
  hnd : Nat
  notify : Bool
  src : Nat
  dst : Nat
  len : Nat
  ntfy : DWord
  pat : Word
  st : Option Tensor
  dt : Option Tensor
deriving DecidableEq, Repr

/-- A collective command as it was read at issue (R414). -/
structure CollCmd where
  op : Nat
  ety : Nat
  rop : Nat
  mode : Nat
  npeer : Nat
  rank : Nat
  cid : Nat
  reddev : Nat
  src : Nat
  dst : Nat
  peers : List Nat
  count : Nat
  gbase : Nat
  glen : Nat
  segl : Nat
  chunk : Nat
  bar : Nat
deriving DecidableEq, Repr

/-- A piece of a result chunk as it was received (R418): chunk, first element in the chunk, words, label. -/
structure Piece where
  chunk : Nat
  start : Nat
  words : List Word
  lbl : Label
deriving DecidableEq, Repr

/-- A result chunk of which no part remains to be written by this device's hand (R418). -/
structure ChunkEnd where
  chunk : Nat
  lbl : Label
  err : Bool
  made : Bool := false
deriving DecidableEq, Repr

/-- A window operation (R298): the instruction's own data, read at issue. -/
inductive WinKind where
  | init (op : Nat) (t : Ty) (rm : RM) (w bank : Nat) (lbl : Label)
  | push (mask : Word) (a c : List Word) (la lc : Label)
  | query (mask : Word) (dst : Nat) (full : Bool)
  | setw (w : Nat) (lbl : Label)
  | free
  | stat (mask : Word) (sel dst : Nat) (full : Bool)
deriving DecidableEq, Repr

/-- What an operation in flight is, beside its accesses. -/
inductive OpData where
  /-- Scalar and lane accesses: nothing more to hold. -/
  | mem
  /-- VLD into its entry of queue `q`, from address `addr` (R169). -/
  | vld (q addr : Nat)
  /-- The store of a VSTA (R170). -/
  | queueStore
  /-- A GLBL (R143). -/
  | glbl
  /-- A SIGADD or SIGDEC whose update cannot be made where it issues (R182). -/
  | signal
  /-- A notify store: barrier reference, arrival count, arrival label, and whether the arrival has been made (R235). -/
  | notify (ref : DWord) (m : Nat) (lbl : Label) (made : Bool)
  /-- A Porter transfer (R175): how far it is (0 to be begun, 1 reading, 2 writing, 3 its arrival made), and the label of
  its arrival. -/
  | port (c : PortCmd) (phase : Nat) (lbl : Label)
  /-- A collective (R414): how far it is (0 to be begun, 1 reading, 2 contributed), the pieces of result chunks received,
  and the chunks that are written or marked with an error, with their arrival label, whether with an error, and whether
  the arrival has been made. -/
  | coll (c : CollCmd) (phase : Nat) (pieces : List Piece) (chunks : List ChunkEnd)
  | matrix
  | window
  /-- A transform-pipe command: the instruction with its operand words A and B, read at issue (R252). -/
  | xform (i : Instr) (a b : List Word)
  /-- DCLS on a scalar register: the flag's and the lowered register, the owner set and its label (R149). -/
  | dcls (d a : SRegNo) (x : Label) (lx : Label)
  /-- VDCLS: flag predicate, value words, value label, owner set and its label (R256). -/
  | vdcls (flag : Nat) (a : List Word) (la x lx : Label)
  /-- A VSYS or TRAP request that stands in the group's syscall slot (R383). -/
  | syscall
  /-- A ticketed CWAIT (R249). -/
  | cwait (off : Nat) (phase : Bool)
  /-- A record that lies, in part, on another device and is being read at issue, `n` bytes at `va`, at its place in A-stream
  program order (R340). -/
  | record (va n : Nat)
  /-- Code or a constant-bank word of another device that is being read; group order does not place it. -/
  | fetch (va n : Nat)
  /-- The order a FENCE, or an instruction that acts as one, keeps between what stands before and after it (R188, R345,
  R346); `sole` says that its scope held no agent beside the group (R344). -/
  | fence (k : FenceKind) (explicit sole : Bool)
deriving DecidableEq, Repr

/-- An operation in flight (R26, R226, R231, R340): its number in issue order; the counter it raised; whether it came from
the compute slice, from which quads, at which word or parcel address; the run it belongs to (runs dispatched before it,
for an address-slice word); the operations of each quad it follows through POPCA (R340 case 4); ticket; destination
registers held; lanes written; full write; sign and size of loaded elements; its label W or K; accesses; the failure found
so far; and whether it has completed. `stdPos` is the position of the STD that supplied a queue store (R391). -/
structure Op where
  id : Nat
  fc : Option FC
  cslice : Bool := false
  quads : Nat := 0
  pc : Nat := 0
  run : Nat := 0
  after : Tab Nat := []
  tk : Nat := 0
  adst : Option SRegNo := none
  dsts : List Dst := []
  mask : Word := 0#32
  full : Bool := false
  ety : Ty := .s32
  lbl : Label := 0#16
  accs : List Acc := []
  data : OpData := .mem
  fail : Option Flt := none
  doneq : Bool := false
  stdPos : Nat := 0
deriving DecidableEq, Repr

/-- A group (R5-R33, R154-R194, R310-R332). -/
structure Group where
  gidx : Nat
  lanes : Nat
  nvregs : Nat
  role : Nat
  sched : Nat
  slot : Nat
  -- address slice
  apc : DWord
  halted : Bool := false
  astopped : Bool := false
  ra : Option DWord := none
  await : Option Instr := none
  sregs : Tab SVal := []
  apath : List PathLbl := []
  slip : Nat := 32
  early : Bool := false
  -- queues
  lqs : Tab LQueue := []
  saq : List SAEntry := []
  sdqBase : Nat := 0
  sdq : List SDEntry := []
  ca : List CAEntry := []
  caOrd : Tab Nat := []
  rqBase : Nat := 0
  rq : List RQEntry := []
  runs : Nat := 0
  -- compute slice
  cstopped : Bool := false
  vregs : Tab VReg := []
  temps : Tab TReg := []
  preds : Tab PReg := []
  tilew : Nat := 32
  quads : List Quad
  paths : Tab Path
  fx : List FxWrite := []
  carv : List CarvPart := []
  carvBase : Nat := 0
  -- operations in flight and flight counters
  ops : List Op := []
  nextOp : Nat := 0
  fcs : Tab Nat := []
  -- scheduling, yield, faults, counts
  ageA : Nat := 0
  ageC : Nat := 0
  runSeq : Nat := 0
  hint : Option Hint := none
  atYield : Bool := false
  aret : Nat := 0
  cret : Nat := 0
  skid : Nat := 0
  lastIssue : Nat := 0
  fault : Option FaultRec := none
  lostFault : Bool := false
  storeFail : Bool := false
  finished : Bool := false
  -- debug (R443, R445): the armed step; whether it has been made, the group issuing nothing more until it is stopped;
  -- whether it is stopped; the breakpoint that holds the address slice; whether it has been released from it
  stepArmed : Option DWord := none
  stepDrain : Bool := false
  stepStopped : Bool := false
  aheld : Option Nat := none
  apass : Bool := false
deriving DecidableEq, Repr

/-- The group that stands where no group has been placed: every lane not launched, both slices stopped (log 15). -/
def Group.empty : Group :=
  { gidx := 0, lanes := 0, nvregs := 0, role := 0, sched := 0, slot := 0, apc := 0#64, halted := true,
    astopped := true, cstopped := true, finished := true, quads := [], paths := [] }

/-- One lane position of a window handle (R296): front stack (top first) and back stack (newest first) of element pairs
with labels, the running aggregate of the back stack, and the flips counted since WINIT (R308). A single element is the
first of its pair. -/
structure WLane where
  front : List (Word × Word × Label) := []
  back : List (Word × Word × Label) := []
  agg : Option (Word × Word × Label) := none
  flips : Nat := 0
deriving DecidableEq, Repr

/-- A bound window handle (R29, R295, R134): operator, element type, rounding mode, W, first bank and number of banks,
control label, lanes, and the flip cycles charged (R308). -/
structure WHandle where
  op : Nat
  ty : Ty
  rm : RM
  w : Nat
  bank : Nat
  nb : Nat
  hc : Label
  lanes : Tab WLane := []
  stall : Nat := 0
deriving DecidableEq, Repr

/-- A window operation that has its sequence number and waits to be performed (R298). -/
structure WinOp where
  seq : Nat
  g : Nat
  op : Nat
  handle : Nat
  k : Label
  kind : WinKind
deriving DecidableEq, Repr

/-- A weight-buffer reservation (R178): its record, byte offset in the team's span, and label. -/
structure Resv where
  fmt : Ty
  grp : Nat
  sfmt : Nat
  size : Nat
  scoff : Nat
  zpoff : Nat
  off : Nat
  lbl : Label
deriving DecidableEq, Repr

/-- The B tiles of a run of rows of a matrix entry (R281, R286): rows from `row0`, reservation handle, offset at step 0. -/
structure MxRows where
  row0 : Nat
  nrows : Nat
  hnd : Nat
  boff : Nat
deriving DecidableEq, Repr

/-- What a pitch queue entry does (R281-R291). -/
inductive MxWork where
  /-- MXLOOP or MXGRP: A format, A base, increment, steps, step length, RA, reuse, rows, B increment, ACC, block-scale. -/
  | steps (t : Ty) (abase inc n ks ra : Nat) (ru : Bool) (rows : List MxRows) (binc : Int) (acc : Bool)
  | zero
  /-- ACCVT: destination type, rounding, saturation, first row, rows, mode, CINT, scale type and word, lanes, label. -/
  | cvt (t : Ty) (rm : RM) (sat : Bool) (row0 nrows mode : Nat) (cint : Bool) (st : Ty) (s : Word)
deriving DecidableEq, Repr

/-- An entry of a pitch queue (R270): the group and operation that commanded it, whether it names both pitches, the C
offset on this pitch, the work, the label of its A data, the steps begun, whether it has started, and whether its A data
comes from the latch (R277). -/
structure MxEntry where
  g : Nat
  op : Nat
  both : Bool
  caddr : Nat
  work : MxWork
  albl : Label := 0#16
  step : Nat := 0
  started : Bool := false
  latched : Bool := false
deriving DecidableEq, Repr

/-- A reuse latch that is HELD (R277): format, base, increment, K-steps, the A data it holds (step by step, the words of
RA registers each), the register labels, and the steps whose data is uncorrectable (R272). -/
structure Latch where
  t : Ty
  abase : Nat
  inc : Nat
  n : Nat
  data : List (List Word)
  lbl : Label
  bad : List Nat := []
deriving DecidableEq, Repr

/-- A pitch (R268-R291): its queue, latch, the A data of the running entry so far, SATURATED, the status label SL, and
whether a PITCH fault has stopped it. -/
structure Pitch where
  queue : List MxEntry := []
  latch : Option Latch := none
  fill : List (List Word) := []
  saturated : Bool := false
  slbl : Label := 0#16
  stopped : Bool := false
deriving DecidableEq, Repr

/-- Where a team stands (R379): waiting for its first placement, or the STATE of its header. -/
inductive TState where
  | unstarted | resident | saved | faulted | retired | ended
deriving DecidableEq, Repr

/-- A team (R29, R368, R376-R390). -/
structure Team where
  grid : Nat
  teamix : Nat
  state : TState := .unstarted
  core : Nat := 0
  admitted : Nat := 0
  block : Option Nat := none
  spBase : Nat := 0
  wBase : Nat := 0
  pitch0 : Nat := 0
  -- scratchpad region
  sp : Tab Byte := []
  spLbl : Tab Label := []
  spMark : Tab Bool := []
  spBad : Tab Bool := []
  -- windows
  whand : Tab WHandle := []
  wq : List WinOp := []
  wseq : Nat := 0
  -- accumulator memory, weight buffer, pitches
  banks : DWord := 0#64
  bankLbl : Tab Label := []
  acc : Tab Word := []
  accBad : Tab Bool := []
  resv : Tab Resv := []
  wmem : Tab Byte := []
  wBad : Tab Bool := []
  pitches : Tab Pitch := []
  -- stopping, saving, resuming
  bell : Option Nat := none
  first : Option (Nat × Nat × Nat) := none
  pending : Bool := false
  marked : Nat := 0
  holdFor : Option Nat := none
  aged : Bool := false
  resumed : Bool := false
  resumedAt : Nat := 0
  savedAt : Nat := 0
  nsave : Nat := 0
  image : List Byte := []
  restart : Bool := false
deriving DecidableEq, Repr

/-- A lease entry (R364). -/
structure Lease where
  base : Nat
  npg : Nat
  w : Bool
deriving DecidableEq, Repr

/-- A launch record as LAUNCH read it (R362). -/
structure Launch where
  decomp : Bool
  prio : Nat
  n : Nat
  acode : Nat
  ccode : Nat
  asize : Nat
  csize : Nat
  kbank : Nat
  xyz : DWord
  gcount : Nat
  lanes : Nat
  vregs : Nat
  pitches : Nat
  accpeak : Nat
  cw : Nat
  ch : Nat
  roles : DWord
  spsize : Nat
  wres : Nat
  ctxsz : Nat
  clr : Label
  pceil : Label
  deadline : Nat
  donesig : Nat
  earlysig : Nat
  fltsig : Nat
  syssig : Nat
  status : Nat
  ctxarea : Nat
  ctxn : Nat
  leases : List Lease
deriving DecidableEq, Repr

/-- A grid (R362-R374): its record, the record's address, context, kernel hash (R147), the order of its LAUNCH, teams
placed so far, the context blocks in use, the STATUS fields (R374), and what has been done for it. -/
structure Grid where
  rec_ : Launch
  lrec : Nat
  ctx : Nat
  hash : BitVec 512 := 0#512
  order : Nat
  admitted : Bool := false
  admittedAt : Nat := 0
  nextTeam : Nat := 0
  blocks : List Nat := []
  code : Nat := 0
  gend : Bool := false
  nfail : Nat := 0
  earlyDone : Bool := false
  retired : Bool := false
deriving DecidableEq, Repr

/-- A filled slot of an owner table (R113): the RSA-4096 public key, its exponent, and OKH, the hash of its encoding. -/
structure Owner where
  key : BitVec 4096
  exponent : Nat
  okh : BitVec 512
deriving DecidableEq, Repr

/-- A security context as the device holds it (R113, R136, R396, R427, R429, R437): `serials` holds the highest serial
accepted of each owner and `endorsed` the owners and kernel hashes of the records accepted (R152, R153); `cur` and `prev`
are the key generations, `sendGen` the one the device sends under, `nonces` the frames sent under it on each lane; `epl` is
the endpoint table by slot. -/
structure Ctx where
  root : Nat
  prot : Bool := false
  owners : Tab Owner := []
  epl : Tab (Endpoint × Label) := []
  devices : List Nat := []
  serials : Tab Nat := []
  cur : Nat := 0
  prev : Option Nat := none
  endorsed : List (Nat × BitVec 512) := []
  sendGen : Nat := 0
  nonces : Tab Nat := []
deriving DecidableEq, Repr

/-- An entry of an endorsement table (R146), with the serial of the record it came from (R153). -/
structure Endorse where
  owner : Nat
  codeh : BitVec 512
  rlbl : Label
  budget : Nat
  serial : Nat
deriving DecidableEq, Repr

/-- What each core holds for all its teams: the ALLOC waiters in order (R372), the endorsement tables by context (R146),
the debug block's registers by offset (R439-R446), the declassify requests in the order they reached its Weighhouse, as group
and operation (R150), and of each scheduler the current path, as group and path (R315). -/
structure Core where
  allocq : List Nat := []
  weighq : List (Nat × Nat) := []
  current : Tab (Option (Nat × Nat)) := []
  endorse : Tab (List Endorse) := []
  regs : Tab DWord := []
  pmset : Nat := 0
  sampleAt : Tab Nat := []
deriving DecidableEq, Repr

/-- An entry that a translation cache holds (R402): the cache (0 and 1 the tensor walkers of the dies, n + 2 that of core n), context, the virtual
page it was read for (of a non-leaf entry the first that it serves), the entry, and its level, 0 being the leaf. -/
structure Tlb where
  cache : Nat
  ctx : Nat
  page : Nat
  leaf : Nat
  level : Nat := 0
deriving DecidableEq, Repr

/-- A deterministic set (R349): its expected count, the device and the grid that opened it, and the contributions received,
each with its key (TEAMIX, rank), the word it goes to and its value. -/
structure DetSet where
  n : Nat
  dev : Nat
  grid : Nat
  got : List (Nat × Nat × Nat × Word) := []
deriving DecidableEq, Repr

/-- How a base die stores a compressed line (R355-R357): form tag, slot, whether it stands in the overflow buffer. -/
structure Line where
  tag : Nat
  slot : Nat
  overflow : Bool
deriving DecidableEq, Repr

/-- An arrival, and when it is held for a team that is not resident or a cell that is not marked (R411) who waits for it
to be applied: the operation of a group of this device, or with `reply` another device, `reply` being the
acknowledgement. -/
structure Held where
  grid : Nat
  teamix : Nat
  off : Nat
  count : Nat
  lbl : Label
  err : Bool
  g : Nat := 0
  op : Nat := 0
  reply : Option Frame := none
deriving DecidableEq, Repr

/-- A write of the device's own that waits on the base die, for room in the overflow buffer (R357) or for the holders of the
page (R360): context, address as translated, bytes (or what is added to the VALUE of the signal object there), whether the
page is compressed and whether it is read-duplicated, and the virtual page. -/
structure DieWrite where
  ctx : Nat
  pa : Nat
  bytes : List Byte
  delta : Option DWord := none
  line : Bool := false
  dup : Bool := false
  page : Nat
deriving DecidableEq, Repr

/-- A request tag in use (R408): the group and operation that sent it, which access, the device asked, and when; for the
device's own request, the context and the page it was translated from (R404). -/
structure TagRef where
  g : Nat
  op : Nat
  k : Nat
  dev : Nat
  ctx : Nat := 0
  page : Nat := 0
  sentAt : Nat := 0
deriving DecidableEq, Repr

/-- A write to a read-duplicated page that waits for its holders (R360, R421): the tag of its DUP updates, the access it
belongs to at this device or the reply it owes another, the holders that have not acknowledged, and the bytes written. -/
structure DupWait where
  tag : Nat
  g : Nat
  op : Nat
  k : Nat
  reply : Option Frame
  waiting : List Nat
  pa : Nat
  n : Nat
deriving DecidableEq, Repr

/-- What a peer's first frame tells the reducer (R417). -/
structure CollParams where
  op : Nat
  ety : Nat
  rop : Nat
  mode : Nat
  npeer : Nat
  rank : Nat
  count : Nat
  gbase : Nat
  glen : Nat
  segl : Nat
  chunk : Nat
deriving DecidableEq, Repr

/-- A part of a contribution that a reducer has received (R417, R420): the sending device, chunk, first element in the
chunk, number of device contributions folded in, words, label, and whether a switch folded it. -/
structure Contrib where
  src : Nat
  chunk : Nat
  start : Nat
  count : Nat
  words : List Word
  lbl : Label
  folded : Bool
deriving DecidableEq, Repr

/-- A collective at this device as reducer (R417, R430), keyed by context and CID: the peers' first frames, the parameters that
parts of theirs have carried, contributions in arrival order, those of a wrong generation (without words), the devices whose first frame was of a wrong generation, the
chunks sent to each device, and whether it is rejected. -/
structure Reducer where
  ctx : Nat
  cid : Nat
  firsts : List (Nat × CollParams) := []
  briefs : List (Nat × CollParams) := []
  got : List Contrib := []
  bad : List Contrib := []
  late : List Nat := []
  sent : List (Nat × Nat) := []
  rejected : Bool := false
deriving DecidableEq, Repr

/-- A shoot-down in progress at this device (R403): context, first page, pages, whom to acknowledge (none at the
initiator), the initiator, children asked and not answered, the count so far, and when they were asked. -/
structure Shoot where
  ctx : Nat
  base : Nat
  npg : Nat
  sentAt : Nat
  parent : Option Nat
  root : Nat
  waiting : List Nat
  count : Nat
deriving DecidableEq, Repr

/-- What a team takes of a core (R368): group slots, vector registers, its span of scratchpad and of the weight buffer (base
and length), and pitches. -/
structure Room where
  slots : List (Nat × Nat)
  vregs : Nat
  sp : Nat × Nat
  wb : Nat × Nat
  pitches : List Nat
deriving DecidableEq, Repr

/-- Room on a core that marked teams have freed and that is held for a waiting team (twice its key) or the next team or
cluster of a grid (twice its number and one; R371). -/
structure Hold where
  w : Nat
  core : Nat
  room : Room
deriving DecidableEq, Repr

/-- One of the device's own actions that follow each other in order: a write, or the decrement of a signal object. -/
inductive OwnAct where
  | write (va : Nat) (bs : List Byte)
  | signal (va : Nat)
deriving DecidableEq, Repr

/-- The device's own actions that wait until other devices have acknowledged the writes before them (R373, R381, R383): those
writes' tags, and what is to follow. -/
structure Ordered where
  ctx : Nat
  tags : List Nat
  todo : List OwnAct
deriving DecidableEq, Repr

/-- The device. -/
structure State where
  -- model: which agent moves next, which group and path it moves, whether records are read sector by sector, and the
  -- free-value counter
  agenda : List Turn
  apart : Bool
  cur : Nat
  curPath : Nat
  freeCtr : Nat
  -- time
  cycle : Nat
  -- work
  groups : Tab Group
  teams : Tab Team
  grids : Tab Grid
  cores : Tab Core
  launches : Nat
  admissions : Nat
  holds : List Hold
  steward : Option Nat
  -- storage
  mem : List Host.Cell
  hostMem : List Host.Cell
  glbl : Tab Label
  bad : Tab Bool
  lines : Tab Line
  dieQ : List DieWrite
  detsets : Tab DetSet
  extents : Tab Nat
  owners : Tab Nat
  dupMap : Tab Nat
  dupHolders : Tab (List Nat)
  dupWaits : List DupWait
  -- translation, domain
  ctxs : Tab Ctx
  tlb : List Tlb
  devn : Nat
  routes : Tab (List Nat)
  hwbase : DWord
  bar2 : Nat
  fenced : List Nat
  shoots : List Shoot
  shootTimeout : Nat
  tags : Tab TagRef
  nextTag : Nat
  ownReads : Tab (List Byte × Label)
  ordered : List Ordered
  held : List Held
  reducers : List Reducer
  discards : Nat
  out : List Frame
  stalled : List Frame
  -- host, firmware, power, observation
  msix : List Nat
  hostData : List Byte
  log : List (Nat × Nat)
  reports : List (List Byte)
  tfw : List Byte
  ufw : List Byte
  dbgu : Bool
  grants : List Nat
  debugReply : Option (List Word × Bool)
deriving DecidableEq, Repr

/-- The device at reset: no grid, memory with nothing listed, every counter zero; DEVICE_RESET (R366) then gives it its
numbers, extents and steward (log 3). Values for which the manual states none are zero or empty (log 16). -/
def State.reset : State :=
  { agenda := [], apart := false, cur := 0, curPath := 0, freeCtr := 0, cycle := 0, groups := [], teams := [], grids := [],
    cores := [], launches := 0, admissions := 0, holds := [], steward := none, mem := [], hostMem := [], glbl := [], bad := [], lines := [], dieQ := [],
    detsets := [], extents := [], owners := [], dupMap := [], dupHolders := [], dupWaits := [], ctxs := [], tlb := [],
    devn := 0, routes := [], hwbase := 0#64, bar2 := 0, fenced := [], shoots := [], shootTimeout := 540000, tags := [],
    nextTag := 0, ownReads := [], ordered := [], held := [], reducers := [], discards := 0, out := [], stalled := [], msix := [], hostData := [], log := [],
    reports := [], tfw := [], ufw := [], dbgu := false, grants := [], debugReply := none }

/-- What a byte of memory that is not listed reads as: zero (log 5; R435 scrubs every frame to zero before it is used). -/
def Memory.blank : Byte := 0#8

/-- The canonical form of memory: addresses strictly rising, no listed byte equal to what an unlisted one reads as. -/
def Memory.wf (m : List Host.Cell) : Bool := Tab.wf Memory.blank m

end Sys2Proof.Machine
end

