-- ==== Sys2Proof/Machine/Flags.lean ====
section
/-! DEFINITION. Everything the machine computes beside values: labels and path label stacks, tickets, flight counters,
flags of the decoupling section and the status words made of them. (The device keeps no floating-point flags, R16.) -/

namespace Sys2Proof

/-- The code of a flight counter (R66). -/
def FC.num : FC → Nat
  | .ld => 0 | .gx => 1 | .st => 2 | .sp => 3 | .po => 4 | .mx => 5 | .cl => 6 | .xf => 7 | .wa => 8

end Sys2Proof

namespace Sys2Proof.Machine

/-- The current path label of a stack: its top, or empty (R32). -/
def topLabel : List PathLbl → Label
  | [] => 0#16
  | p :: _ => p.lbl

/-- P_A, the current A-slice path label, which is the context label K of an A-stream instruction (R117). -/
def Group.pA (g : Group) : Label := topLabel g.apath

/-- LABEL_BRANCH (R145). -/
def fltBranch (sub : Nat) (l c : Label) : Flt := { code := 0x07, sub := sub, flbl := l, clbl := c }

/-- Push a label on a path stack (R121, R122): check the ceiling; a repeated push by the same word or parcel replaces the
top with the union; a push onto a full stack is refused. -/
def pushLabel (depth : Nat) (ceil : Label) (stack : List PathLbl) (l : Label) (pusher : Nat) : Except Flt (List PathLbl) :=
  if !l.within ceil then .error (fltBranch 0 l ceil)
  else
    match stack with
    | top :: rest =>
      if top.pusher = some pusher then .ok ({ top with lbl := top.lbl.join l } :: rest)
      else if depth ≤ stack.length then .error (fltBranch 1 l ceil)
      else .ok ({ lbl := l, pusher := some pusher } :: stack)
    | [] => .ok [{ lbl := l, pusher := some pusher }]

/-- The replacement of JR and RET (R121): top ∪ L, or a push of L on an empty stack. -/
def replaceLabel (ceil : Label) (stack : List PathLbl) (l : Label) (pusher : Nat) : Except Flt (List PathLbl) :=
  match stack with
  | top :: rest =>
    let n := top.lbl.join l
    if n.within ceil then .ok ({ top with lbl := n } :: rest) else .error (fltBranch 0 n ceil)
  | [] => if l.within ceil then .ok [{ lbl := l, pusher := some pusher }] else .error (fltBranch 0 l ceil)

/-- Merge the stacks of arriving entries after their pops (R123), depth by depth counted from the bottom. The argument
lists hold the bottom first. -/
def mergeStacks : List (List PathLbl) → Nat → List PathLbl
  | _, 0 => []
  | ss, n + 1 =>
    let here := ss.filterMap List.head?
    match here with
    | [] => []
    | e :: es =>
      let l := Label.joinAll (here.map (·.lbl))
      let same := es.all (fun x => x.pusher == e.pusher)
      { lbl := l, pusher := if same then e.pusher else none } :: mergeStacks (ss.map List.tail) n

/-- The result label of an instruction: K with the labels of its sources (R118). -/
def resultLabel (k : Label) (ls : List Label) : Label := k.join (Label.joinAll ls)

/-- The new label of a register after a write (R120). -/
def writtenLabel (full : Bool) (old new : Label) : Label := if full then new else old.join new

/-- The state of a ticket of a quad: 0 FREE, 1 PENDING, 2 DONE (R22). -/
def Quad.ticket (q : Quad) (k : Nat) : Nat := q.tickets.get 0 k

/-- Change a ticket. -/
def Quad.setTicket (q : Quad) (k v : Nat) : Quad := { q with tickets := q.tickets.set 0 k v }

/-- The value of a flight counter (R26). -/
def Group.fcv (g : Group) (c : FC) : Nat := g.fcs.get 0 c.num

/-- Raise a flight counter by one (R26). -/
def Group.raiseFc (g : Group) (c : FC) : Group := { g with fcs := g.fcs.set 0 c.num (g.fcv c + 1) }

/-- Lower a flight counter by one (R26). -/
def Group.lowerFc (g : Group) (c : FC) : Group := { g with fcs := g.fcs.set 0 c.num (g.fcv c - 1) }

/-- A load queue of the group. -/
def Group.lq (g : Group) (k : Nat) : LQueue := g.lqs.get {} k

/-- The quads that have not ended, as a list of numbers. -/
def Group.unended (g : Group) : List Nat := (List.range 8).filter (fun q => match g.quads[q]? with
  | some x => x.st != .ended
  | none => false)

/-- Quad `q` of the group; one that is not there counts as ended (R6). -/
def Group.quad (g : Group) (q : Nat) : Quad := g.quads.getD q { st := .ended }

/-- The outstanding runs (R21): dispatched and not passed by every quad that has not ended. -/
def Group.outstanding (g : Group) : Nat :=
  match (g.unended.map (fun q => (g.quad q).passed)).min? with
  | some m => g.runs - m
  | none => 0

/-- SR_QOCC (R38). -/
def Group.qocc (g : Group) : DWord :=
  let n := g.rq.length + 64 * (g.lq 0).entries.length + 2048 * (g.lq 1).entries.length + 65536 * (g.lq 2).entries.length
    + 2097152 * (g.lq 3).entries.length + 67108864 * g.saq.length + 2147483648 * g.sdq.length + 68719476736 * g.ca.length
  BitVec.ofNat 64 n

/-- SR_FCA (R38). -/
def Group.fca (g : Group) : DWord :=
  BitVec.ofNat 64 (g.fcv .ld + 2 ^ 12 * g.fcv .gx + 2 ^ 24 * g.fcv .st + 2 ^ 36 * g.fcv .sp + 2 ^ 48 * g.fcv .po)

/-- SR_FCB (R38). -/
def Group.fcb (g : Group) : DWord :=
  BitVec.ofNat 64 (g.fcv .mx + 2 ^ 12 * g.fcv .cl + 2 ^ 24 * g.fcv .xf + 2 ^ 36 * g.fcv .wa)

/-- SR_WHND (R38): the handles that are bound. -/
def Team.whnd (t : Team) : DWord := BitVec.ofNat 64 (maskOf 8 (fun k => (t.whand.find k).isSome))

/-- The scalar registers that a word with a wait of its own names (R154, R158). -/
def waitNames : Instr → List SRegNo
  | .popca d | .run d _ => [d]
  | .vld _ a _ | .vsta a _ | .yield a | .yieldRec a | .launch a | .free a | .unresv a => [a]
  | .barwait d a | .alloc d a => [d, a]
  | .bararv d a b | .resv d a b => [d, a, b]
  | .sigwait a b | .sigadd a b | .sigdec a b => [a, b]
  | .trap _ a _ => [a, a + 1#6, a + 2#6, a + 3#6]
  | _ => []

/-- The stall reason of an address-slice word that waits (R441); one that waits for a held register waits for the result of
an LDS or AMOS. -/
def awaitReason (held : SRegNo → Bool) (w : Option Instr) : Nat :=
  if w.any (fun i => (waitNames i).any held) then 0x16
  else match w with
  | none => 0x01
  | some (.popca _) => 0x12
  | some (.vld ..) => 0x13
  | some (.vsta ..) => 0x14
  | some (.run ..) | some (.yield _) | some (.yieldRec _) => 0x15
  | some (.barwait ..) | some (.bararv ..) | some (.sigwait ..) | some (.sigadd ..) | some (.sigdec ..)
  | some (.waitfc ..) | some (.fence ..) | some (.launch _) | some .early => 0x17
  | some (.alloc ..) | some (.resv ..) | some (.unresv _) | some (.free _) => 0x18
  | some (.trap ..) => 0x19
  | some _ => 0x16

/-- Barrier objects (R337): the words of a cell. -/
structure Barrier where
  lbl : Label
  err : Bool
  phase : Bool
  arr : Nat
  exp : Nat
deriving DecidableEq, Repr

/-- Read a barrier object from the 16 bytes of its cell (R337). -/
def Barrier.ofNat (n : Nat) : Barrier :=
  { lbl := BitVec.ofNat 16 (bitsOf n 48 16), err := bitOf n 33, phase := bitOf n 32, arr := bitsOf n 16 16,
    exp := bitsOf n 0 16 }

/-- The 16 bytes of a barrier object's cell, as a number (R337). -/
def Barrier.toNat (b : Barrier) : Nat :=
  b.exp + 2 ^ 16 * b.arr + (if b.phase then 2 ^ 32 else 0) + (if b.err then 2 ^ 33 else 0) + 2 ^ 48 * b.lbl.toNat

/-- An arrival of `n` (R186): ARR reaches EXP and the phase flips; past EXP, ERR is set and the phase completes; an
arrival made for a failed transfer sets ERR. -/
def Barrier.arrive (b : Barrier) (n : Nat) (err : Bool) : Barrier :=
  let a := b.arr + n
  if b.exp ≤ a then { b with arr := 0, phase := !b.phase, err := b.err || err || decide (b.exp < a) }
  else { b with arr := a, err := b.err || err }

end Sys2Proof.Machine
end

