-- ==== Sys2Proof/Machine/Float.lean ====
section
/-! DEFINITION. Number formats, the one rounding function and the conversions (spec/04_number_formats.md, R82 to R102).
Values between decoding and rounding are exact: a NaN, an infinity, or a signed fraction. -/

namespace Sys2Proof

namespace Machine

/-- An exact value: `fin neg n d` is n/d with its sign, zero included (R82, R94). -/
inductive FV where
  | nan
  | inf (neg : Bool)
  | fin (neg : Bool) (num den : Nat)
deriving DecidableEq, Repr

/-- How a format treats its top exponent field (R82, R86, R88). -/
inductive FKind where
  | ieee | narrow | ocpA | ocpB
deriving DecidableEq, Repr

/-- The layout of a floating format: exponent bits, fraction bits, bias, kind, largest finite code, canonical NaN. -/
structure Fmt where
  eb : Nat
  fb : Nat
  bias : Nat
  kind : FKind
  maxFin : Nat
  cnan : Nat
deriving DecidableEq, Repr

/-- The tables of R82, R86 and R88; integer types and the block types have no floating format. -/
def Fmt.ofTy : Ty → Option Fmt
  | .f32 => some ⟨8, 23, 127, .ieee, 0x7F7FFFFF, 0x7FC00000⟩
  | .f16 => some ⟨5, 10, 15, .ieee, 0x7BFF, 0x7E00⟩
  | .bf16 => some ⟨8, 7, 127, .ieee, 0x7F7F, 0x7FC0⟩
  | .e4m3n => some ⟨4, 3, 8, .narrow, 0x7F, 0x80⟩
  | .e5m2n => some ⟨5, 2, 16, .narrow, 0x7F, 0x80⟩
  | .e2m1n => some ⟨2, 1, 2, .narrow, 0x7, 0x8⟩
  | .ocp8a => some ⟨4, 3, 7, .ocpA, 0x7E, 0x7F⟩
  | .ocp8b => some ⟨5, 2, 15, .ocpB, 0x7B, 0x7E⟩
  | _ => none

end Machine

/-- The width in bits of one element (R69, R86, R197). -/
def Ty.width : Ty → Nat
  | .s8 | .z8 | .e4m3n | .e5m2n | .ocp8a | .ocp8b | .e8m0 | .q8a => 8
  | .s16 | .z16 | .f16 | .bf16 => 16
  | .s32 | .z32 | .f32 => 32
  | .s64 | .z64 => 64
  | .e2m1n | .q4a => 4

/-- The signed integer types (R92). -/
def Ty.isSigned : Ty → Bool
  | .s8 | .s16 | .s32 | .s64 => true
  | _ => false

/-- The integer types (R92). -/
def Ty.isInt : Ty → Bool
  | .s8 | .s16 | .s32 | .s64 | .z8 | .z16 | .z32 | .z64 => true
  | _ => false

namespace Machine

/-- m × 2^x as a fraction. -/
def FV.dyadic (neg : Bool) (m : Nat) (x : Int) : FV :=
  if 0 ≤ x then .fin neg (m * 2 ^ x.toNat) 1 else .fin neg m (2 ^ (-x).toNat)

/-- The value of a code of a floating format (R82, R86, R88). -/
def decodeFmt (F : Fmt) (bits : Nat) : FV :=
  let c := bits % 2 ^ (F.eb + F.fb)
  let neg := bitOf bits (F.eb + F.fb)
  let e := c / 2 ^ F.fb
  let m := c % 2 ^ F.fb
  let num : FV :=
    if e = 0 then FV.dyadic neg m (1 - (F.bias : Int) - F.fb)
    else FV.dyadic neg (2 ^ F.fb + m) ((e : Int) - F.bias - F.fb)
  let top := e = 2 ^ F.eb - 1
  match F.kind with
  | .ieee | .ocpB => if top then (if m = 0 then .inf neg else .nan) else num
  | .narrow => if neg ∧ c = 0 then .nan else num
  | .ocpA => if c = 0x7F then .nan else num

/-- The value of an E8M0 scale (R89). -/
def decodeE8M0 (bits : Nat) : FV :=
  if bits % 256 = 255 then .nan else FV.dyadic false 1 ((bits % 256 : Nat) - (127 : Int))

/-- The value of an integer. -/
def FV.ofInt (z : Int) : FV := .fin (decide (z < 0)) z.natAbs 1

/-- The exact value of an element of any type; an .q4a or .q8a code is read as its unsigned code (R91). -/
def decodeTy (t : Ty) (bits : Nat) : FV :=
  match Fmt.ofTy t with
  | some F => decodeFmt F bits
  | none =>
    match t with
    | .e8m0 => decodeE8M0 bits
    | _ => if t.isSigned then .ofInt (signedOf t.width bits) else .ofInt (bits % 2 ^ t.width : Nat)

/-- The sign bit of a format set or clear. -/
def Fmt.sign (F : Fmt) (neg : Bool) : Nat := if neg then 2 ^ (F.eb + F.fb) else 0

/-- A zero in a format: the narrow formats have one zero (R87, R97). -/
def Fmt.zero (F : Fmt) (neg : Bool) : Nat := if F.kind = .narrow then 0 else F.sign neg

/-- The infinity of an IEEE-like format. -/
def Fmt.infCode (F : Fmt) (neg : Bool) : Nat := F.sign neg + (2 ^ F.eb - 1) * 2 ^ F.fb

/-- The row of R97 for an infinity: never rounded, under any rounding mode. -/
def Fmt.infinite (F : Fmt) (sat neg : Bool) : Nat :=
  match F.kind with
  | .ieee => F.infCode neg
  | .ocpB => if sat then F.sign neg + F.maxFin else F.infCode neg
  | .ocpA => if sat then F.sign neg + F.maxFin else F.cnan
  | .narrow => if sat then F.sign neg + F.maxFin else F.cnan

/-- The overflow table of R95. -/
def Fmt.overflow (F : Fmt) (rm : RM) (sat neg : Bool) : Nat :=
  let ieee := match rm with
    | .rne => F.infCode neg
    | .rtz => F.sign neg + F.maxFin
    | .rdn => if neg then F.infCode neg else F.sign neg + F.maxFin
    | .rup => if neg then F.sign neg + F.maxFin else F.infCode neg
  match F.kind with
  | .ieee => ieee
  | .ocpB => if sat then F.sign neg + F.maxFin else ieee
  | .ocpA => if sat then F.sign neg + F.maxFin else F.cnan
  | .narrow => if sat then F.sign neg + F.maxFin else F.cnan

/-- Whether the magnitude q + r/d rounds up to q + 1 (R94). -/
def roundsUp (rm : RM) (neg : Bool) (q r d : Nat) : Bool :=
  match rm with
  | .rne => decide (d < 2 * r) || (decide (2 * r = d) && decide (q % 2 = 1))
  | .rtz => false
  | .rdn => neg && decide (r ≠ 0)
  | .rup => !neg && decide (r ≠ 0)

/-- n/d rounded to an integer magnitude. -/
def roundDiv (rm : RM) (neg : Bool) (n d : Nat) : Nat :=
  n / d + (if roundsUp rm neg (n / d) (n % d) d then 1 else 0)

/-- The integer part of log2 (n/d), for n, d > 0. -/
def floorLog2 (n d : Nat) : Int :=
  let e0 : Int := (n.log2 : Int) - d.log2
  let ge := if 0 ≤ e0 then decide (d * 2 ^ e0.toNat ≤ n) else decide (d ≤ n * 2 ^ (-e0).toNat)
  if ge then e0 else e0 - 1

/-- round(x, F, RM) of R94, with the SAT choice of R95 and R97. The magnitude code is formed with the exponent range
unbounded above, so a code past the largest finite one is an overflow; a tie there overflows (R96), since the largest finite
significand is odd. OCP8A's 480, the place of its NaN code, counts as the element next to its largest finite value 448, whose
significand is even, so 464 gives 448 (DEDUCED, log 30). -/
def roundFmt (F : Fmt) (rm : RM) (sat : Bool) : FV → Nat
  | .nan => F.cnan
  | .inf neg => F.infinite sat neg
  | .fin neg n d =>
    if n = 0 then F.zero neg
    else
      let emin : Int := 1 - (F.bias : Int)
      let x : Int := max (floorLog2 n d) emin - F.fb
      let n1 := if 0 ≤ x then n else n * 2 ^ (-x).toNat
      let d1 := if 0 ≤ x then d * 2 ^ x.toNat else d
      let code (q : Nat) : Nat := if q < 2 ^ F.fb then q else (x + F.fb + F.bias).toNat * 2 ^ F.fb + (q - 2 ^ F.fb)
      let c := code (roundDiv rm neg n1 d1)
      if F.maxFin < c then F.overflow rm sat neg
      else if c = 0 then F.zero neg
      else F.sign neg + c

end Machine

/-- The least and greatest value of an integer type (R92). -/
def Ty.minInt (t : Ty) : Int := if t.isSigned then -((2 ^ (t.width - 1) : Nat) : Int) else 0

/-- The greatest value of an integer type (R92). -/
def Ty.maxInt (t : Ty) : Int := if t.isSigned then (2 ^ (t.width - 1) : Nat) - 1 else (2 ^ t.width : Nat) - 1

/-- The indefinite value of R98. -/
def Ty.indefinite (t : Ty) : Int := if t.isSigned then t.minInt else t.maxInt

/-- Nearest value of the type's range. -/
def Ty.clamp (t : Ty) (z : Int) : Int := max t.minInt (min t.maxInt z)

namespace Machine

/-- The conversion of an exact value to an integer type (R98), as the bits of the type. -/
def toIntTy (t : Ty) (rm : RM) (sat : Bool) (v : FV) : Nat :=
  let z : Int := match v with
    | .nan => if sat then 0 else t.indefinite
    | .inf neg => if sat then (if neg then t.minInt else t.maxInt) else t.indefinite
    | .fin neg n d =>
      let m := roundDiv rm neg n d
      let z : Int := if neg then -(m : Int) else m
      if t.minInt ≤ z ∧ z ≤ t.maxInt then z else if sat then t.clamp z else t.indefinite
  wrapTo t.width z

/-- An exact value in a destination type: rounded for a floating one (R94, R97), R98 for an integer one. -/
def encodeTy (t : Ty) (rm : RM) (sat : Bool) (v : FV) : Nat :=
  match Fmt.ofTy t with
  | some F => roundFmt F rm sat v
  | none => toIntTy t rm sat v

/-- The conversions between integer types (R99): one that widens extends the source, and SAT clamps in the others. -/
def intToInt (src dst : Ty) (sat : Bool) (bits : Nat) : Nat :=
  let z : Int := if src.isSigned then signedOf src.width bits else (bits % 2 ^ src.width : Nat)
  wrapTo dst.width (if sat && decide (dst.width ≤ src.width) then dst.clamp z else z)

/-- convert() of R212: the conversion of R97, R98 and R99 of one element. -/
def convertTy (src dst : Ty) (rm : RM) (sat : Bool) (bits : Nat) : Nat :=
  if src.isInt && dst.isInt then intToInt src dst sat bits else encodeTy dst rm sat (decodeTy src bits)

/-- The sign of a value. -/
def FV.isNeg : FV → Bool
  | .nan => false
  | .inf neg => neg
  | .fin neg _ _ => neg

/-- The value with its sign complemented. -/
def FV.negate : FV → FV
  | .nan => .nan
  | .inf neg => .inf (!neg)
  | .fin neg n d => .fin (!neg) n d

/-- Exact product (IEEE 754-2019 special operands; R82, R90, R105). -/
def FV.mul : FV → FV → FV
  | .nan, _ => .nan
  | _, .nan => .nan
  | .inf a, .inf b => .inf (a != b)
  | .inf a, .fin b n _ => if n = 0 then .nan else .inf (a != b)
  | .fin a n _, .inf b => if n = 0 then .nan else .inf (a != b)
  | .fin a n d, .fin b m e => .fin (a != b) (n * m) (d * e)

/-- Exact sum; an exact zero sum takes the sign IEEE 754-2019 gives for the rounding mode (R208). -/
def FV.add (rm : RM) : FV → FV → FV
  | .nan, _ => .nan
  | _, .nan => .nan
  | .inf a, .inf b => if a = b then .inf a else .nan
  | .inf a, .fin _ _ _ => .inf a
  | .fin _ _ _, .inf b => .inf b
  | .fin a n d, .fin b m e =>
    let x : Int := (if a then -((n * e : Nat) : Int) else (n * e : Nat)) + (if b then -((m * d : Nat) : Int) else (m * d : Nat))
    if x = 0 then .fin (if n = 0 ∧ m = 0 ∧ a = b then a else decide (rm = .rdn)) 0 1
    else .fin (decide (x < 0)) x.natAbs (d * e)

/-- The exact quotient of R100. -/
def FV.div : FV → FV → FV
  | .nan, _ => .nan
  | _, .nan => .nan
  | .inf _, .inf _ => .nan
  | .inf a, .fin b _ _ => .inf (a != b)
  | .fin a _ _, .inf b => .fin (a != b) 0 1
  | .fin a n d, .fin b m e =>
    if m = 0 then (if n = 0 then .nan else .inf (a != b)) else .fin (a != b) (n * e) (d * m)

/-- Strict order of two values that are not NaN, zeros equal. -/
def FV.lt : FV → FV → Bool
  | .nan, _ => false
  | _, .nan => false
  | .inf a, .inf b => a && !b
  | .inf a, .fin _ _ _ => a
  | .fin _ _ _, .inf b => !b
  | .fin a n d, .fin b m e =>
    let x : Int := if a then -((n * e : Nat) : Int) else (n * e : Nat)
    let y : Int := if b then -((m * d : Nat) : Int) else (m * d : Nat)
    decide (x < y)

/-- Equality of two values that are not NaN, zeros equal. -/
def FV.eq (a b : FV) : Bool :=
  match a, b with
  | .nan, _ => false
  | _, .nan => false
  | a, b => !a.lt b && !b.lt a

/-- Whether a code of an IEEE format is below another, −0 below +0 (R85). -/
def FV.below (a b : FV) : Bool := a.lt b || (a.eq b && a.isNeg && !b.isNeg)

/-- minimumNumber and maximumNumber of R85 on codes of one format: `mx` picks the maximum. -/
def minMaxNum (t : Ty) (mx : Bool) (a b : Nat) : Nat :=
  let cn := match Fmt.ofTy t with | some F => F.cnan | none => 0
  match decodeTy t a, decodeTy t b with
  | .nan, .nan => cn
  | .nan, _ => b
  | _, .nan => a
  | va, vb => if mx then (if va.below vb then b else a) else (if vb.below va then b else a)

/-- a + b rounded (R208). -/
def fAdd (t : Ty) (rm : RM) (a b : Nat) : Nat := encodeTy t rm false ((decodeTy t a).add rm (decodeTy t b))

/-- a − b rounded (R208). -/
def fSub (t : Ty) (rm : RM) (a b : Nat) : Nat := encodeTy t rm false ((decodeTy t a).add rm (decodeTy t b).negate)

/-- a × b rounded (R208). -/
def fMul (t : Ty) (rm : RM) (a b : Nat) : Nat := encodeTy t rm false ((decodeTy t a).mul (decodeTy t b))

/-- a × b + c with one rounding (R208). -/
def fFma (t : Ty) (rm : RM) (a b c : Nat) : Nat :=
  encodeTy t rm false (((decodeTy t a).mul (decodeTy t b)).add rm (decodeTy t c))

/-- a × 2^n with one rounding (R215). Past ±1000 the power changes no result of the three formats: the product is
beyond the largest finite value, or below half the smallest subnormal, of each of them (DEDUCED from R82). -/
def fScalb (t : Ty) (rm : RM) (a : Nat) (n : Int) : Nat :=
  encodeTy t rm false ((decodeTy t a).mul (FV.dyadic false 1 (max (-1000) (min 1000 n))))

/-- The class masks of R211, read from the operand's bits as they are. -/
def fClass (F : Fmt) (bits : Nat) : Nat :=
  let c := bits % 2 ^ (F.eb + F.fb)
  let neg := bitOf bits (F.eb + F.fb)
  let e := c / 2 ^ F.fb
  let m := c % 2 ^ F.fb
  let i : Nat :=
    if e = 2 ^ F.eb - 1 then
      (if m = 0 then (if neg then 0 else 7) else if m < 2 ^ (F.fb - 1) then 8 else 9)
    else if e = 0 then (if m = 0 then (if neg then 3 else 4) else if neg then 2 else 5)
    else if neg then 1 else 6
  2 ^ i

end Machine

end Sys2Proof
end

