-- ==== Sys2Proof/Machine/Ops.lean ====
section
/-! DEFINITION. The named operations over the state: access to groups, teams, grids and cores, scalar registers, local
memory and its labels, translation and leases, taking a fault and ringing the bell, and the retirement of operations in
flight. -/

namespace Sys2Proof.Machine

abbrev Out := Host.Outcome State Fault Refusal

/-- The record that stands where no grid has been launched: nothing is permitted (log 15). -/
def Launch.empty : Launch :=
  { decomp := false, prio := 0, n := 0, acode := 0, ccode := 0, asize := 0, csize := 0, kbank := 0, xyz := 0#64,
    gcount := 0, lanes := 0, vregs := 0, pitches := 0, accpeak := 0, cw := 1, ch := 1, roles := 0#64, spsize := 0,
    wres := 0, ctxsz := 0, clr := 0#16, pceil := 0#16, deadline := 0, donesig := 0, earlysig := 0, fltsig := 0,
    syssig := 0, status := 0, ctxarea := 0, ctxn := 0, leases := [] }

def Grid.empty : Grid := { rec_ := Launch.empty, lrec := 0, ctx := 0, order := 0, retired := true }

def Team.empty : Team := { grid := 0, teamix := 0 }

/-- The team of a group key (32 × team + GIDX). -/
def teamOf (k : Nat) : Nat := k / 32

/-- The group with a key. -/
def State.group (s : State) (k : Nat) : Group := s.groups.get Group.empty k

def State.setGroup (s : State) (k : Nat) (g : Group) : State := { s with groups := s.groups.put k g }

/-- The group that moves in this step. -/
def State.grp (s : State) : Group := s.group s.cur

def State.setGrp (s : State) (g : Group) : State := s.setGroup s.cur g

def State.team (s : State) (t : Nat) : Team := s.teams.get Team.empty t

def State.setTeam (s : State) (t : Nat) (x : Team) : State := { s with teams := s.teams.put t x }

/-- The team of the group that moves. -/
def State.tm (s : State) : Team := s.team (teamOf s.cur)

def State.setTm (s : State) (x : Team) : State := s.setTeam (teamOf s.cur) x

def State.grid (s : State) (n : Nat) : Grid := s.grids.get Grid.empty n

def State.setGrid (s : State) (n : Nat) (x : Grid) : State := { s with grids := s.grids.put n x }

def State.core (s : State) (n : Nat) : Core := s.cores.get {} n

def State.setCore (s : State) (n : Nat) (x : Core) : State := { s with cores := s.cores.put n x }

/-- The grid of a group. -/
def State.gridOf (s : State) (k : Nat) : Grid := s.grid (s.team (teamOf k)).grid

/-- The launch record of a group's grid. -/
def State.recOf (s : State) (k : Nat) : Launch := (s.gridOf k).rec_

/-- CLR (R31). -/
def State.clr (s : State) (k : Nat) : Label := (s.recOf k).clr

/-- The effective ceiling PCEIL ∩ CLR (R31). -/
def State.ceil (s : State) (k : Nat) : Label := (s.recOf k).pceil &&& (s.recOf k).clr

/-- The security context of a group. -/
def State.ctxOf (s : State) (k : Nat) : Nat := (s.gridOf k).ctx

/-- A context that does not exist has no page table: its root names no table of this device. -/
def State.ctx (s : State) (n : Nat) : Ctx := s.ctxs.get { root := 2 ^ 52 } n

/-- Read a scalar register; s0 is zero with the empty label (R12). -/
def Group.sreg (g : Group) (r : SRegNo) : SVal := if r = 0#6 then {} else g.sregs.get {} r.toNat

/-- Write a scalar register; a write to s0 is discarded (R12). -/
def Group.setSreg (g : Group) (r : SRegNo) (v : SVal) : Group :=
  if r = 0#6 then g else { g with sregs := g.sregs.set {} r.toNat v }

/-- Whether a scalar register is held: an older LDS, AMOS or DCLS has still to write it, or to change its label (R154). -/
def Group.sHeld (g : Group) (r : SRegNo) : Bool :=
  r != 0#6 && g.ops.any (fun o => !o.doneq && (o.adst == some r || (match o.data with
    | .dcls d a _ _ => r == d || r == a
    | _ => false)))

/-- The address-slice word at APC has completed: APC moves past it, it counts in ARET, nothing waits, and its age
starts anew (R60, R318, R376). -/
def Group.advance (g : Group) (n : Nat) : Group :=
  { g with apc := g.apc + BitVec.ofNat 64 n, aret := g.aret + 1, await := none, apass := false, ageA := 0 }

/-- Control is transferred: APC is the target (R62). -/
def Group.jump (g : Group) (target : DWord) : Group :=
  { g with apc := target, aret := g.aret + 1, await := none, apass := false, ageA := 0 }

/-- The address slice waits at its word (R158). -/
def State.waits (s : State) (i : Instr) : Out := .next (s.setGrp { s.grp with await := some i })

/-- Issue a word once every register it reads or writes is free (R154); until then it waits. -/
def State.whenFree (s : State) (i : Instr) (rs : List SRegNo) (k : Out) : Out := if rs.any s.grp.sHeld then s.waits i else k

/-- Issue a word that needs a request of a counter's path once the path grants one (R27); until then it waits. -/
def State.whenRoom (s : State) (i : Instr) (full : Bool) (k : Out) : Out := if full then s.waits i else k

/-- The word's only effect is to write a scalar register: APC moves past it. -/
def State.aWrite (s : State) (d : SRegNo) (v : DWord) (l : Label) (n : Nat) : Out :=
  .next (s.setGrp ((s.grp.setSreg d { val := v, lbl := l }).advance n))

/-- The word's only effect is to let APC move past it. -/
def State.aPass (s : State) : Out := .next (s.setGrp (s.grp.advance 4))

/-- A step of another agent that cannot happen now leaves the state as it is (log 2). -/
def State.idle (s : State) : Out := .next s

/-! ## Local memory and its metadata -/

/-- The device that a physical address names (R335). -/
def devOf (pa : Nat) : Nat := pa / 2 ^ 42

/-- The local part of a physical address. -/
def localOf (pa : Nat) : Nat := pa % 2 ^ 42

/-- The host window (R400). -/
def isHost (la : Nat) : Bool := decide (0x3D000000000 ≤ la) && decide (la < 0x3F000000000)

/-- Populated HBM (R400). -/
def isHbm (la : Nat) : Bool := decide (la < Config.hbmBytes)

/-- Within the populated extent of a second-tier window (R400, R448). -/
def State.isTier2 (s : State) (la : Nat) : Bool :=
  decide (2 ^ 40 ≤ la) && decide (la < 0x3D000000000)
    && decide ((la - 2 ^ 40) % 0x7800000000 < s.extents.get 0 ((la - 2 ^ 40) / 0x7800000000))

/-- `n` bytes from a local address. -/
def State.readMem (s : State) (la n : Nat) : List Byte := Tab.getFrom Memory.blank s.mem la n

/-- The little-endian number in `n` bytes from a local address (R3). -/
def State.readNat (s : State) (la n : Nat) : Nat := ofBytes (s.readMem la n)

/-- Write bytes from a local address on. -/
def State.writeMem (s : State) (la : Nat) (bs : List Byte) : State := { s with mem := Tab.setFrom Memory.blank s.mem la bs }

/-- The first local address of the host window (R400). -/
def hostWindow : Nat := 0x3D000000000

/-- The offset in the host window, if it is below 2^37, at which a host bus address stands (R423). -/
def State.hostOff (s : State) (bus : Nat) : Nat := (bus + (2 ^ 64 - s.hwbase.toNat)) % 2 ^ 64

/-- The host writes a byte of its memory at a bus address: `mem` holds what the window shows, `hostMem` the rest. -/
def State.hostPut (s : State) (bus : Nat) (b : Byte) : State :=
  let o := s.hostOff bus
  if o < 2 ^ 37 then { s with mem := Tab.set Memory.blank s.mem (hostWindow + o) b }
  else { s with hostMem := Tab.set Memory.blank s.hostMem (bus % 2 ^ 64) b }

/-- The driver writes HWBASE (R423): every host byte stays at its bus address, and the window shows those from HWBASE on. -/
def State.rebase (s : State) (base : DWord) : State :=
  let shown : List Host.Cell := (s.mem.filter (fun e => isHost e.1)).map (fun e => ((s.hwbase.toNat + (e.1 - hostWindow)) % 2 ^ 64, e.2))
  let s1 : State := { s with hwbase := base, mem := s.mem.filter (fun e => !isHost e.1), hostMem := [] }
  (s.hostMem ++ shown).foldl (fun (a : State) (e : Host.Cell) => a.hostPut e.1 e.2) s1

/-- The granule label at a local address; host memory keeps none (R116). -/
def State.labelAt (s : State) (la : Nat) : Label := if isHost la then 0#16 else s.glbl.get 0#16 (la / 256)

/-- The union of the labels of every granule that `n` bytes touch (R126). -/
def State.labelOf (s : State) (la n : Nat) : Label :=
  Label.joinAll ((List.range ((la + n - 1) / 256 - la / 256 + 1)).map (fun i => s.labelAt ((la / 256 + i) * 256)))

/-- Raise a granule's label (R143). -/
def State.raiseLabel (s : State) (la : Nat) (l : Label) : State :=
  { s with glbl := s.glbl.set 0#16 (la / 256) (Label.join (s.glbl.get 0#16 (la / 256)) l) }

/-- Whether a read of `n` bytes finds uncorrectable data, a reserved line tag among the causes (R157, R358). -/
def State.poisoned (s : State) (la n : Nat) : Bool :=
  (List.range ((la + n - 1) / 32 - la / 32 + 1)).any (fun i =>
    s.bad.get false (la / 32 + i) || decide (11 ≤ (s.lines.get { tag := 0, slot := 0, overflow := false } ((la / 32 + i) / 4)).tag))

/-- Whether elements of `b` bytes each lie within the first element and a signed delta of `d` bytes of it, modulo
2^(8b) (R355). -/
def lineFits (b d : Nat) (bs : List Byte) : Bool :=
  let base := ofBytes (bs.take b)
  (List.range (128 / b)).all (fun i =>
    let x := (ofBytes ((bs.drop (b * i)).take b) + 2 ^ (8 * b) - base) % 2 ^ (8 * b)
    if d = 0 then x == 0 else decide (x < 2 ^ (8 * d - 1)) || decide (2 ^ (8 * b) - 2 ^ (8 * d - 1) ≤ x))

/-- The forms of R355 with their stored bytes, fewest first. -/
def lineForms : List (Nat × Nat × Nat × Nat) :=
  [(9, 2, 0, 2), (6, 4, 0, 4), (2, 8, 0, 8), (3, 8, 1, 24), (7, 4, 1, 36), (4, 8, 2, 40), (10, 2, 1, 66), (8, 4, 2, 68),
   (5, 8, 4, 72)]

/-- The form a base die chooses for a line: tag and stored bytes (R355). -/
def lineForm (bs : List Byte) : Nat × Nat :=
  if bs.all (· == 0#8) then (1, 0)
  else
    match lineForms.find? (fun f => lineFits f.2.1 f.2.2.1 bs) with
    | some f => (f.1, f.2.2.2)
    | none => (0, 128)

/-- The lines that stand in the overflow buffer of the base die of an address (R357, R400). -/
def State.overflowed (s : State) (la : Nat) : Nat :=
  (s.lines.filter (fun e => e.2.overflow && e.1 * 128 / 4096 % 8 == la / 4096 % 8)).length

/-- Write bytes that lie in one 128-byte line of a page, and compress the line when the page has CMP set (R355-R357). A
write that outgrows its slot enters the overflow buffer and GROW is reported to the driver; `none` when the buffer is
full, and the write waits on the base die. -/
def State.writeLine (s : State) (la : Nat) (bs : List Byte) (cmp : Bool) : Option State :=
  let s1 := s.writeMem la bs
  if !cmp then some s1
  else
    let n := la / 128
    let f := lineForm (s1.readMem (n * 128) 128)
    match s.lines.find n with
    | none => some { s1 with lines := s1.lines.put n { tag := f.1, slot := (f.2 + 31) / 32 * 32, overflow := false } }
    | some l =>
      if l.overflow || decide (f.2 ≤ l.slot) then some { s1 with lines := s1.lines.put n { l with tag := f.1 } }
      else if s.overflowed la < 64 then
        some { s1 with lines := s1.lines.put n { l with tag := f.1, overflow := true }, log := s1.log ++ [(0x15, n * 128)] }
      else none

/-! ## Translation and leases -/

/-- A table that a walk may read lies in the walking device's own populated HBM (R396). -/
def State.tableOk (s : State) (pa : Nat) : Bool := devOf pa == s.devn && isHbm (localOf pa)

/-- A level-2 or level-1 entry that is valid and not malformed (R397, R398). -/
def State.nonLeafOk (s : State) (e : Nat) : Bool :=
  bitOf e 0 && bitsOf e 1 15 == 0 && bitsOf e 52 12 == 0 && s.tableOk (bitsOf e 16 36 * 65536)

/-- A leaf that is valid and not malformed (R397, R398). -/
def leafFormOk (e : Nat) : Bool := bitOf e 0 && bitsOf e 7 9 == 0 && bitsOf e 52 8 == 0 && bitsOf e 60 4 != 15

/-- Whether a cached entry serves a page: a leaf its group of pages, a level-1 or level-2 entry what the table below it
maps (R396, R399). -/
def Tlb.covers (e : Tlb) (page : Nat) : Bool :=
  let n := match e.level with | 0 => 2 ^ bitsOf e.leaf 60 4 | 1 => 2 ^ 13 | _ => 2 ^ 26
  e.page / n == page / n

/-- The cache of the tensor walker of a group's die, which translates Porter and collective transfers (R402); a die has 72 of the
cores (R2). -/
def State.walkerCache (s : State) (k : Nat) : Nat := (s.team (teamOf k)).core / 72

/-- The cache of a group's core, which translates the accesses of its words and parcels (R402). -/
def State.coreCache (s : State) (k : Nat) : Nat := (s.team (teamOf k)).core + 2

/-- The entries of a level that a cache holds and that serve a page, each with the page it was read for (R399, R402); those of
any cache for an access of the device's own (log 9). -/
def State.seen (s : State) (c : Option Nat) (ctx level page : Nat) : List (Nat × Nat) :=
  (s.tlb.filter (fun e => c.all (· == e.cache) && e.ctx == ctx && e.level == level && e.covers page)).map (fun e => (e.page, e.leaf))

/-- The entry that a translation uses at a level: the one read now, or one that its cache holds and a shoot-down has not
yet removed, which of them being free where they differ (R399, R404; log 9). -/
def State.pick (s : State) (page : Nat) (same : Nat × Nat → Nat × Nat → Bool) (now : Option (Nat × Nat))
    (seen : List (Nat × Nat)) : Option (Nat × Nat) :=
  if seen.all (fun c => now.any (same c)) then now
  else ((now :: seen.map some)[Config.tlbPick s.freeCtr page % (seen.length + 1)]?).getD now

/-- Where a level-2 or level-1 entry that is read at `at_` leads for a page: the table below, or nothing when the entry
refuses the access (R398). -/
def State.below (s : State) (c : Option Nat) (ctx level page at_ : Nat) : Option (Nat × Nat) :=
  let e := s.readNat at_ 8
  s.pick page (fun c d => c.2 == d.2) (if s.nonLeafOk e then some (page, e) else none) (s.seen c ctx level page)

/-- The table that an entry names (R397). -/
def tableOf (e : Nat) : Nat := localOf (bitsOf e 16 36 * 65536)

/-- Walk the three levels from a root (R396): the level-2, level-1 and leaf entries, or nothing when an entry refuses the
access (R398). -/
def State.walk (s : State) (c : Option Nat) (ctx root va : Nat) : Option (Nat × Nat × Nat) :=
  let page := va / 65536
  if !(s.tableOk root && root % 65536 == 0) then none
  else
    match s.below c ctx 2 page (localOf root + 8 * bitsOf va 42 13) with
    | none => none
    | some (_, e2) =>
      match s.below c ctx 1 page (tableOf e2 + 8 * bitsOf va 29 13) with
      | none => none
      | some (_, e1) =>
        let e0 := s.readNat (tableOf e1 + 8 * bitsOf va 16 13) 8
        if leafFormOk e0 then some (e2, e1, e0) else none

/-- What a translation gives: the physical address, the ordering class, and the W, CMP, DET and DUP flags as the frame
kind applies them (R401). -/
structure Xlat where
  pa : Nat
  ord : Nat
  w : Bool
  line : Bool
  det : Bool
  dup : Bool
deriving DecidableEq, Repr

/-- Translate through a leaf read for virtual page `page`; with RUN = n it serves the whole group of 2^n pages (R399).
A frame below zero is taken as frame 0 (log 105). -/
def leafXlat (leaf page va : Nat) : Xlat :=
  let n := 2 ^ bitsOf leaf 60 4
  let frame := bitsOf leaf 16 36 + va / 65536 % n - page % n
  let pa := frame * 65536 + va % 65536
  let la := localOf pa
  let hbm := isHbm la
  let host := isHost la
  { pa := pa, ord := if host then 3 else bitsOf leaf 2 2, w := bitOf leaf 1, line := hbm && bitOf leaf 4,
    det := hbm && bitOf leaf 5, dup := !host && bitOf leaf 6 }

/-- The route table reaches a device: it names a port toward it (R406). -/
def State.routed (s : State) (dev : Nat) : Bool := !(s.routes.get [] dev).isEmpty

/-- Whether a kernel may reach a physical address: populated local storage, the host window on the device's own link, or
HBM and second tier of a device that the route table reaches (R398, R400, R424). -/
def State.reachable (s : State) (pa : Nat) : Bool :=
  let la := localOf pa
  if devOf pa = s.devn then isHbm la || s.isTier2 la || isHost la
  else s.routed (devOf pa) && decide (la < 0x3D000000000)

/-- The leaf that a translation uses, with the page it was read for (R399). -/
def State.leafFor (s : State) (c : Option Nat) (ctx va : Nat) : Option (Nat × Nat) :=
  let page := va / 65536
  s.pick page (fun x y => leafXlat x.2 x.1 va == leafXlat y.2 y.1 va) ((s.walk c ctx (s.ctx ctx).root va).map (fun e => (page, e.2.2)))
    (s.seen c ctx 0 page)

/-- Translate a virtual address through a cache for a load or, with `store`, for a store or atomic (R396-R402). -/
def State.translateBy (s : State) (c : Option Nat) (ctx va : Nat) (store : Bool) : Option Xlat :=
  match s.leafFor c ctx va with
  | none => none
  | some (page, e) =>
    let x := leafXlat e page va
    if s.reachable x.pa && (!store || x.w) then some x else none

/-- Translate an address of an access of the device's own. -/
def State.translate (s : State) (ctx va : Nat) (store : Bool) : Option Xlat := s.translateBy none ctx va store

/-- A translation cache keeps the entries that a walk read (R402). -/
def State.keepLeaf (s : State) (c ctx va : Nat) : State :=
  let page := va / 65536
  match s.walk (some c) ctx (s.ctx ctx).root va with
  | none => s
  | some (e2, e1, e0) =>
    let new := [{ cache := c, ctx := ctx, page := page / 2 ^ 26 * 2 ^ 26, leaf := e2, level := 2 },
                { cache := c, ctx := ctx, page := page / 2 ^ 13 * 2 ^ 13, leaf := e1, level := 1 }, { cache := c, ctx := ctx, page := page, leaf := e0 }]
    { s with tlb := (new.filter (fun e => !s.tlb.contains e)) ++ s.tlb }

/-- A range of bytes within another. -/
def inRange (a n base len : Nat) : Bool := decide (base ≤ a) && decide (a + n ≤ base + len)

/-- Inside an automatic read-only lease: the code sections and the constant-bank image (R364). -/
def Launch.autoLease (r : Launch) (va n : Nat) : Bool :=
  inRange va n r.acode r.asize || inRange va n r.ccode r.csize || inRange va n r.kbank 16384

/-- A range that overlaps an automatic read-only lease. -/
def Launch.overAuto (r : Launch) (va n : Nat) : Bool :=
  let ov (b len : Nat) : Bool := decide (va < b + len) && decide (b < va + n)
  ov r.acode r.asize || ov r.ccode r.csize || ov r.kbank 16384

/-- Whether some declared entry covers an access and permits it (R364). -/
def Launch.declared (r : Launch) (va n : Nat) (store : Bool) : Bool :=
  r.leases.any (fun l => l.npg != 0 && inRange va n (l.base * 65536) (l.npg * 65536) && (l.w || !store))

/-- The lease rule of R364 for an access. -/
def Launch.leaseOk (r : Launch) (va n : Nat) (store : Bool) : Bool :=
  if store then r.declared va n true && !r.overAuto va n else r.declared va n false || r.autoLease va n

/-- Bits [63:55] of an address are zero (R157). -/
def addrOk (a : DWord) : Bool := decide (a.toNat < 2 ^ 55)

/-- The lease check and the translation of a group's access: nothing when the access ends the grid (R157, R364, R398). -/
def State.reach (s : State) (c k va n : Nat) (store : Bool) : Option Xlat :=
  if (s.recOf k).leaseOk va n store then s.translateBy (some c) (s.ctxOf k) va store else none

/-! ## Operations in flight -/

/-- Add an operation at the end of the issue order and raise its counter (R26). -/
def Group.issueOp (g : Group) (o : Op) : Group :=
  let g1 := { g with ops := g.ops ++ [{ o with id := g.nextOp }], nextOp := g.nextOp + 1 }
  match o.fc with
  | some c => g1.raiseFc c
  | none => g1

/-- The counters of the memory paths, those of SR_FCA, whose requests the groups of a core share (R27, R39; log 29). -/
def memoryPaths : List FC := [.ld, .gx, .st, .sp, .po]

/-- A request on a memory path that no counter counts: an LDS, an AMOS, a signal update, a record (R166, R167; log 29). -/
def Op.uncounted (o : Op) : Bool := o.fc.isNone && !o.doneq && o.accs.any (fun a => a.space == .global && !a.done)

/-- The requests that the resident groups of a core have outstanding on its memory paths (R27). -/
def State.requests (s : State) (core : Nat) : Nat :=
  ((s.groups.filter (fun e => let t := s.team (teamOf e.1); t.state == .resident && t.core == core)).map (fun e =>
    (memoryPaths.map e.2.fcv).sum + e.2.ops.countP Op.uncounted)).sum

/-- The memory paths of a group's core can grant no further request: 2048 are outstanding (R27). -/
def State.memoryFull (s : State) (k : Nat) : Bool := decide (2048 ≤ s.requests (s.team (teamOf k)).core)

/-- Whether the path of a counter can grant a group no further request: the counter is at its highest value, or the core's
memory paths are full (R26, R27; log 29). -/
def State.pathFull (s : State) (k : Nat) (c : FC) : Bool :=
  decide (4095 ≤ (s.group k).fcv c) || (memoryPaths.contains c && s.memoryFull k)

/-- Operation `id` of the group. -/
def Group.op (g : Group) (id : Nat) : Option Op := g.ops.find? (fun o => o.id == id)

/-- Change an operation in flight. -/
def Group.setOp (g : Group) (o : Op) : Group := { g with ops := g.ops.map (fun x => if x.id == o.id then o else x) }

/-! ## The faults -/

/-- ILLEGAL (R375). -/
def fltIllegal : Flt := { code := 0x01 }

/-- LEASE at an address. -/
def fltLease (a : Nat) : Flt := { code := 0x04, faddr := a }

/-- LABEL_LOAD, LABEL_STORE and LABEL_MSG (R145): the label that failed and the one it was checked against. -/
def fltLoad (sub : Nat) (l c : Label) (a : Nat) : Flt := { code := 0x05, sub := sub, flbl := l, clbl := c, faddr := a }

def fltStore (sub : Nat) (l c : Label) (a : Nat) : Flt := { code := 0x06, sub := sub, flbl := l, clbl := c, faddr := a }

def fltMsg (sub : Nat) (l c : Label) (a : Nat) : Flt := { code := 0x08, sub := sub, flbl := l, clbl := c, faddr := a }

/-! ## Messages -/

/-- The endpoint label of a destination; one that no entry names has it empty (R136). -/
def Ctx.eplOf (c : Ctx) (p : Endpoint → Bool) : Label :=
  match c.epl.find? (fun e => p e.2.1) with
  | some e => e.2.2
  | none => 0#16

/-- EPL of a device of the domain. -/
def Ctx.eplDev (c : Ctx) (dev : Nat) : Label :=
  c.eplOf (fun e => match e with | .devices lo hi => decide (lo ≤ dev) && decide (dev ≤ hi) | _ => false)

/-- EPL of the host. -/
def Ctx.eplHost (c : Ctx) : Label := c.eplOf (· == .host)

/-- EPL of the syscall runtime. -/
def Ctx.eplRuntime (c : Ctx) : Label := c.eplOf (· == .runtime)

/-- The GCM nonce of a Sywald frame (R427): the sending DEVN, the lane and KGEN as the link identifier, then the counter. -/
def nonceOf (devn vl : Nat) (kgen : BitVec 2) (n : Nat) : BitVec 96 :=
  BitVec.ofNat 10 devn ++ BitVec.ofNat 4 vl ++ kgen ++ 0#16 ++ BitVec.ofNat 64 n

/-- Send a frame under the generation the context sends under (R407, R408, R427, R429): a lane whose counter has reached
2^63 sends nothing until a new generation is in use. -/
def State.send (s : State) (f : Frame) : State :=
  match s.ctxs.find f.ctx with
  | none => { s with out := s.out ++ [f] }
  | some c =>
    let n := c.nonces.get 0 f.vl
    if 2 ^ 63 ≤ n then { s with stalled := s.stalled ++ [f] }
    else { s with out := s.out ++ [{ f with kgen := BitVec.ofNat 2 c.sendGen, nonce := nonceOf s.devn f.vl (BitVec.ofNat 2 c.sendGen) n }],
                  ctxs := s.ctxs.put f.ctx { c with nonces := c.nonces.set 0 f.vl (n + 1) } }

/-- A frame of this device, with every field that its type does not use zero (R408). -/
def State.frame (s : State) (t : FrameType) (vl dst ctx : Nat) (lbl : Label) (tag : Nat) (addr aux : Nat) : Frame :=
  { typ := t, vl := vl, kgen := BitVec.ofNat 2 (s.ctx ctx).sendGen, red := false, opn := 0#8, dst := dst, src := s.devn,
    ctx := ctx, lbl := lbl, tag := tag, addr := BitVec.ofNat 64 addr, aux := BitVec.ofNat 64 aux, payload := [],
    authentic := true, rsv := 0 }

/-- AUX of a store frame: the byte count, and a bit that says that the page has CMP set (R408; log 20). -/
def storeAux (n : Nat) (line : Bool) : Nat := n + (if line then 512 else 0)

/-- A new request tag (R408). -/
def State.newTag (s : State) (r : TagRef) : State × Nat :=
  ({ s with tags := s.tags.put s.nextTag { r with sentAt := s.cycle }, nextTag := (s.nextTag + 1) % 2 ^ 32 }, s.nextTag)

/-! ## The device's own accesses -/

/-- Cut bytes that begin at an address at the boundaries of 128-byte lines. -/
def lineCuts (la : Nat) (bs : List Byte) : List (List Byte) :=
  let n := 128 - la % 128
  bs.take n :: (List.range ((bs.length - n + 127) / 128)).map (fun i => (bs.drop (n + 128 * i)).take 128)

/-- The group that no group is: the sender of the device's own requests, which no operation waits for. -/
def noGroup : Nat := 2 ^ 40

/-- Add to a signal object's VALUE as one write of its line (R182, R356), and raise its MSI-X vector when VALUE goes from
above THRESH to at or below it with IE set. The object lies in local or host memory; nothing happens while the base die
holds the write back (R357). -/
def State.signal (s : State) (la : Nat) (delta : DWord) (line : Bool) : Option State :=
  let old : DWord := BitVec.ofNat 64 (s.readNat la 8)
  let new := old + delta
  let th : DWord := BitVec.ofNat 64 (s.readNat (la + 8) 8)
  let ctl := s.readNat (la + 16) 4
  (s.writeLine la (bytesOf new.toNat 8) line).map (fun (s1 : State) =>
    if bitOf ctl 0 && BitVec.slt th old && !(BitVec.slt th new) then { s1 with msix := s1.msix ++ [bitsOf ctl 16 16] } else s1)

/-- The device's own request to another device that is not fenced, under a tag of its own, translated from a page of a
context. -/
def State.deviceSend (s : State) (dev ctx page : Nat) (f : Nat → Frame) : State :=
  if s.fenced.contains dev then s
  else
    let x := s.newTag { g := noGroup, op := 0, k := 0, dev := dev, ctx := ctx, page := page }
    x.1.send (f x.2)

/-- Send the pieces of the device's own write to another device, one store frame for each line (log 17). -/
def State.deviceStores (s : State) (ctx page dev la : Nat) (line : Bool) : List (List Byte) → State
  | [] => s
  | c :: cs =>
    State.deviceStores (s.deviceSend dev ctx page (fun tag =>
      { s.frame .store 1 dev ctx 0#16 tag la (storeAux c.length line) with payload := c })) ctx page dev (la + c.length) line cs

/-- Raise the label of a granule of another device (R143, R378; log 17). -/
def State.deviceRaise (s : State) (ctx page dev la : Nat) (l : Label) : State :=
  s.deviceSend dev ctx page (fun tag =>
    { s.frame .atomic 0 dev ctx l tag la l.toNat with opn := 0x0D#8, payload := bytesOf 0xFFFF 8 })

/-- The holders that the home of a read-duplicated frame sends its updates to (R360, R421): a fenced one gets none, and no write
waits for it. -/
def State.holders (s : State) (pa : Nat) : List Nat := (s.dupHolders.get [] (pa / 65536)).filter (fun d => !s.fenced.contains d)

/-- After a write to a read-duplicated page at its home: send every holder an update with the written bytes and their
granule's label (R130), and hold the access (or the reply owed to another device) until each has acknowledged (R360,
R421). -/
def State.dupNotify (s : State) (r : TagRef) (ctx : Nat) (reply : Option Frame) (pa n : Nat) (line : Bool) : State :=
  let hs := s.holders pa
  let x := s.newTag { r with dev := s.devn }
  let la := localOf pa
  let s1 := hs.foldl (fun a h =>
    a.send { a.frame .dupUpdate 4 h ctx (s.labelOf la n) x.2 la (storeAux n line) with payload := s.readMem la n }) x.1
  { s1 with dupWaits := s1.dupWaits ++ [{ tag := x.2, g := r.g, op := r.op, k := r.k, reply := reply, waiting := hs, pa := pa, n := n }] }

/-- Whether an update of bytes that `n` bytes at an address overlap is still on its way to a holder: the home applies the
next write to them only once it has been acknowledged, so that holders see them in coherence order (R360, R361). -/
def State.dupBusy (s : State) (pa n : Nat) : Bool :=
  !(s.holders pa).isEmpty && s.dupWaits.any (fun w => decide (w.pa < pa + n) && decide (pa < w.pa + w.n))

/-- Make the device's own write or signal update in one line of a page of this device; nothing while the base die holds it
back (R357) or an update of those bytes is under way (R361). -/
def State.dieWrite (s : State) (w : DieWrite) : Option State :=
  let la := localOf w.pa
  let n := if w.delta.isSome then 8 else w.bytes.length
  if w.dup && s.dupBusy w.pa n then none
  else
    (match w.delta with
     | some d => s.signal la d w.line
     | none => s.writeLine la w.bytes w.line).map (fun (s1 : State) =>
      if w.dup && !(s1.holders w.pa).isEmpty then
        s1.dupNotify { g := noGroup, op := 0, k := 0, dev := s.devn, ctx := w.ctx, page := w.page } w.ctx none w.pa n w.line
      else s1)

/-- Make the device's own write, or let it wait behind those that wait already, so that they are made in order. -/
def State.deviceApply (s : State) (w : DieWrite) : State :=
  match (if s.dieQ.isEmpty then s.dieWrite w else none) with
  | some s1 => s1
  | none => { s with dieQ := s.dieQ ++ [w] }

/-- Make again, in order, the device's own writes that wait. -/
def State.retryDie (s : State) : State := s.dieQ.foldl State.deviceApply { s with dieQ := [] }

/-- Cut bytes that begin at a virtual address at the boundaries of pages. -/
def pageCuts (va : Nat) (bs : List Byte) : List (Nat × List Byte) :=
  let n := 65536 - va % 65536
  (va, bs.take n) :: (List.range ((bs.length - n + 65535) / 65536)).map (fun i => (va + n + 65536 * i, (bs.drop (n + 65536 * i)).take 65536))

/-- The place in `ownReads` of a sector of another device: its physical number and the context it is read for. -/
def ownKey (ctx sec : Nat) : Nat := sec * 2 ^ 16 + ctx

/-- What the device has read of another device follows its own writes there. -/
def State.ownCopy (s : State) (ctx pa : Nat) (bs : List Byte) : State :=
  { s with ownReads := bs.zipIdx.foldl (fun t e =>
      let key := ownKey ctx ((pa + e.2) / 32)
      match t.find key with
      | some v => t.put key (v.1.set ((pa + e.2) % 32) e.1, v.2)
      | none => t) s.ownReads }

/-- The device's own write within one page (R373, R378-R383): translated without a lease, sent as store frames when the
address is of another device, dropped when it does not translate (log 17). -/
def State.devicePiece (s : State) (ctx va : Nat) (bs : List Byte) : State :=
  match s.translate ctx va true with
  | none => s
  | some x =>
    let la := localOf x.pa
    if devOf x.pa ≠ s.devn then (s.deviceStores ctx (va / 65536) (devOf x.pa) la x.line (lineCuts la bs)).ownCopy ctx x.pa bs
    else if !x.line && !x.dup && s.dieQ.isEmpty then s.writeMem la bs
    else
      ((lineCuts la bs).foldl (fun (a : State × Nat) c =>
        (a.1.deviceApply { ctx := ctx, pa := a.2, bytes := c, line := x.line, dup := x.dup, page := va / 65536 }, a.2 + c.length)) (s, x.pa)).1

/-- The device's own write to an address of a grid's context, page by page. -/
def State.deviceWrite (s : State) (ctx va : Nat) (bs : List Byte) : State :=
  (pageCuts va bs).foldl (fun a p => a.devicePiece ctx p.1 p.2) s

/-- The address that a load through a translation goes to: a holder of a read-duplicated page reads its own copy, which the
duplicate map binds (R359, R421). -/
def State.loadPa (s : State) (x : Xlat) : Nat :=
  match (if x.dup then s.dupMap.find (x.pa / 65536) else none) with
  | some f => s.devn * 2 ^ 42 + f * 65536 + x.pa % 65536
  | none => x.pa

/-- The device's own read within one page, sectors of another device as it has them. What it has not, and what does not
translate, is free (log 17). -/
def State.deviceReadPiece (s : State) (ctx va n : Nat) : List Byte :=
  let free (i : Nat) : Byte := Config.freeByte s.freeCtr (va + i)
  match s.translate ctx va false with
  | some x =>
    let pa := s.loadPa x
    if devOf pa = s.devn then s.readMem (localOf pa) n
    else (List.range n).map (fun i => match s.ownReads.find (ownKey ctx ((pa + i) / 32)) with
      | some e => e.1.getD ((pa + i) % 32) 0#8
      | none => free i)
  | none => (List.range n).map free

/-- The device's own read, page by page. -/
def State.deviceRead (s : State) (ctx va n : Nat) : List Byte :=
  (pageCuts va (List.replicate n 0#8)).flatMap (fun p => s.deviceReadPiece ctx p.1 p.2.length)

/-- The sectors of `n` bytes that devices which are not fenced hold, each with its virtual page. -/
def State.sectorsAway (s : State) (ctx va n : Nat) : List (Nat × Nat) :=
  ((pageCuts va (List.replicate n 0#8)).filter (fun p => !p.2.isEmpty)).flatMap (fun p =>
    match s.translate ctx p.1 false with
    | some x =>
      let pa := s.loadPa x
      if devOf pa = s.devn || s.fenced.contains (devOf pa) then []
      else (List.range ((pa + p.2.length - 1) / 32 - pa / 32 + 1)).map (fun i => (pa / 32 + i, p.1 / 65536))
    | none => [])

/-- Ask another device for a sector of the device's own read, unless it has been asked. -/
def State.askOwn (s : State) (ctx sec page : Nat) : State :=
  if s.tags.any (fun e => e.2.g == noGroup && e.2.op == 1 && e.2.k == sec && e.2.ctx == ctx) then s
  else
    let d := devOf (32 * sec)
    let x := s.newTag { g := noGroup, op := 1, k := sec, dev := d, ctx := ctx, page := page }
    x.1.send (s.frame .loadRequest 0 d ctx 0#16 x.2 (localOf (32 * sec)) 0)

/-- The sectors of spans of a context that other devices hold. -/
def State.spansAway (s : State) (ctx : Nat) (spans : List (Nat × Nat)) : List (Nat × Nat) :=
  (spans.flatMap (fun p => s.sectorsAway ctx p.1 p.2)).eraseDups

/-- Those of them that the device has not read yet. -/
def State.missing (s : State) (ctx : Nat) (spans : List (Nat × Nat)) : List (Nat × Nat) :=
  (s.spansAway ctx spans).filter (fun e => (s.ownReads.find (ownKey ctx e.1)).isNone)

/-- Ask for what is missing of spans, once no write of the device's own to those devices is under way. -/
def State.askSpans (s : State) (ctx : Nat) (spans : List (Nat × Nat)) : State :=
  let m := s.missing ctx spans
  let under (e : Nat × TagRef) : Bool := e.2.g == noGroup && e.2.op == 0 && m.any (fun x => devOf (32 * x.1) == e.2.dev)
  if s.tags.any under then s else m.foldl (fun a e => a.askOwn ctx e.1 e.2) s

/-- Forget what has been read of spans. -/
def State.forget (s : State) (ctx : Nat) (away : List (Nat × Nat)) : State :=
  if away.isEmpty then s else { s with ownReads := s.ownReads.filter (fun e => !away.any (fun x => ownKey ctx x.1 == e.1)) }

/-- Read spans of a context for the device itself: what other devices hold is asked for first, and is forgotten once it has been
used. -/
def State.withOwn (s : State) (ctx : Nat) (spans : List (Nat × Nat)) (k : State → Out) : Out :=
  if (s.missing ctx spans).isEmpty then
    match k s with
    | .next u => .next (u.forget ctx (s.spansAway ctx spans))
    | o => o
  else .next (s.askSpans ctx spans)

/-- The answer to the device's own read: a sector and its granule's label, free where the other device gives none (log 17). -/
def State.ownReply (s : State) (tag : Nat) (r : TagRef) (bs : List Byte) (lbl : Label) : State :=
  let e : List Byte × Label :=
    if bs.isEmpty then ((List.range 32).map (fun i => Config.freeByte s.freeCtr (32 * r.k + i)), BitVec.ofNat 16 (ofBytes
      [Config.freeByte s.freeCtr (2 * r.k), Config.freeByte s.freeCtr (2 * r.k + 1)])) else (bs, lbl)
  { s with tags := s.tags.del tag, ownReads := s.ownReads.put (ownKey r.ctx r.k) e }

/-! ## The end of a team -/

/-- An arrival that waited has been applied or discarded, or has failed against label `bad` (R131, R140, R411): another
device is answered; the operation of this device that waits goes on, with its failure. -/
def State.heldDone (s : State) (h : Held) (bad : Option Label) : State :=
  match h.reply, bad with
  | some f, none => s.send f
  | some f, some c => s.send { f with typ := .rejection, aux := 1#64, lbl := c }
  | none, none => s
  | none, some c =>
    let g := s.group h.g
    match g.op h.op with
    | some o => s.setGroup h.g (g.setOp { o with fail := o.fail.or (some (fltStore 3 h.lbl c h.off)) })
    | none => s

/-- Whether a held arrival is for a team. -/
def Held.isFor (h : Held) (x : Team) : Bool := h.grid == x.grid && h.teamix == x.teamix

/-- Discard the arrivals held for a team that retires or is ended (R411). -/
def State.dropHeld (s : State) (t : Nat) : State :=
  let mine (h : Held) : Bool := h.isFor (s.team t)
  { (s.held.filter mine).foldl (fun a h => a.heldDone h none) s with held := s.held.filter (fun h => !mine h) }

/-- The address of a team's context block (R378). -/
def State.blockAddr (s : State) (t : Nat) : Nat :=
  let x := s.team t
  let r := (s.grid x.grid).rec_
  r.ctxarea + x.block.getD 0 * (r.ctxsz * 65536)

/-- Write bytes at an offset of a team's context block, when it has one. -/
def State.blockWrite (s : State) (t off : Nat) (bs : List Byte) : State :=
  if (s.team t).block.isSome then s.deviceWrite (s.grid (s.team t).grid).ctx (s.blockAddr t + off) bs else s

/-- STATE of a team header (R379). -/
def TState.code : TState → Nat
  | .unstarted => 0 | .resident => 1 | .saved => 2 | .faulted => 3 | .retired => 4 | .ended => 5

/-- The room that a resident team takes (R368). -/
def State.roomOf (s : State) (t : Nat) : Room :=
  let x := s.team t
  let r := (s.grid x.grid).rec_
  { slots := (s.groups.filter (fun e => teamOf e.1 == t)).map (fun e => (e.2.sched, e.2.slot)), vregs := r.gcount * r.vregs,
    sp := (x.spBase, r.spsize), wb := (x.wBase, r.wres * 4096),
    pitches := if r.pitches = 0 then [] else if r.pitches = 1 then [x.pitch0] else [0, 1] }

/-- A team's groups leave the queues of its core: an abandoned ALLOC waits no more (R158, R372). -/
def State.leaveQueues (s : State) (t : Nat) : State :=
  let n := (s.team t).core
  let c := s.core n
  if c.allocq.any (fun k => teamOf k == t) || c.weighq.any (fun e => teamOf e.1 == t) then
    s.setCore n { c with allocq := c.allocq.filter (fun k => teamOf k != t), weighq := c.weighq.filter (fun e => teamOf e.1 != t) }
  else s

/-- A team leaves its core: the room it frees is held for the unit it was marked for (R371). -/
def State.leaveCore (s : State) (t : Nat) : State :=
  let x := s.team t
  let s1 := s.leaveQueues t
  match x.state, x.holdFor with
  | .resident, some w =>
    State.setTeam { s1 with holds := s.holds ++ [{ w := w, core := x.core, room := s.roomOf t }] } t { x with holdFor := none }
  | _, _ => s1

/-- The room held for a waiting team or cluster lapses (R371). -/
def State.dropHolds (s : State) (w : Nat) : State :=
  { s with holds := s.holds.filter (fun h => h.w != w),
           teams := s.teams.mapVals (fun _ x => if x.holdFor = some w then { x with holdFor := none } else x) }

/-- A team retires or is ended (R371, R373, R379, R393, R411): its header says so, its block is free, handles are unbound,
banks and reservations are released, held arrivals are discarded, and room held for it is held no more. -/
def State.endTeam (s : State) (t : Nat) (st : TState) : State :=
  let s1 := ((s.leaveCore t).blockWrite t 0 (bytesOf st.code 1)).dropHeld t
  let x := s1.team t
  let gr := s1.grid x.grid
  let s2 := (s1.setGrid x.grid { gr with blocks := gr.blocks.filter (fun b => x.block != some b) }).dropHolds (2 * t)
  s2.setTeam t { s2.team t with state := st, block := none, whand := [], wq := [], banks := 0#64, resv := [], pitches := [],
                                bell := none, pending := false, image := [] }

/-! ## Taking a fault -/

/-- Ring the bell of a team (R376): the first ring stands. -/
def Team.ring (t : Team) (cycle : Nat) : Team := { t with bell := some (t.bell.getD cycle) }

/-- End a grid (R371, R374, R381, R382): GEND is set, CODE is the first code that ended anything, the bell of every resident
team rings, and saved teams, and faulted ones that wait for a disposition, become ended; the latter had a fault of their
own. Room held for its next team is held no more. -/
def State.endGrid (s : State) (gr code : Nat) : State :=
  let x := s.grid gr
  let mine := s.teams.filter (fun e => e.2.grid == gr)
  let s1 := s.setGrid gr { x with gend := true, code := if x.code = 0 then code else x.code,
                                  nfail := x.nfail + mine.countP (fun e => e.2.state == .faulted) }
  let s2 : State := { s1 with teams := s1.teams.mapVals (fun _ t => if t.grid = gr && t.state == .resident then t.ring s.cycle else t) }
  ((mine.filter (fun e => e.2.state == .saved || e.2.state == .faulted)).foldl (fun a e => a.endTeam e.1 .ended) s2).dropHolds (2 * gr + 1)

/-- The order of R377 between the team's fault so far and a new one: earliest cycle, then lowest GIDX. -/
def earlierFault (old : Option (Nat × Nat × Nat)) (cycle gidx code : Nat) : Option (Nat × Nat × Nat) :=
  match old with
  | none => some (cycle, gidx, code)
  | some (c, g, x) => if cycle < c ∨ (cycle = c ∧ gidx < g) then some (cycle, gidx, code) else some (c, g, x)

/-- TAKE A FAULT in a group (R155, R375-R377, R382): the record is written unless the group has one (then LOST is set),
the faulting slice stops, the team's bell rings, and LEASE ends the grid, as a second fault too. A deadlock stops both
slices. -/
def State.raiseRec (s : State) (k : Nat) (r : FaultRec) : State :=
  let g := s.group k
  match g.fault with
  | some _ =>
    let s1 := s.setGroup k { g with lostFault := true, astopped := g.astopped || !r.cslice, cstopped := g.cstopped || r.cslice }
    if r.flt.code = 0x04 then s1.endGrid (s.team (teamOf k)).grid 0x04 else s1
  | none =>
    let both := r.dlk || r.unpaired
    let s1 := s.setGroup k { g with fault := some r, astopped := g.astopped || both || !r.cslice,
                                    cstopped := g.cstopped || both || r.cslice }
    let t := s1.team (teamOf k)
    let s2 := s1.setTeam (teamOf k) { t.ring s.cycle with first := earlierFault t.first s.cycle g.gidx r.flt.code }
    if r.flt.code = 0x04 then s2.endGrid t.grid 0x04 else s2

/-- A fault of the address slice at its word (R155): nothing else happens, APC stays. -/
def State.raiseA (s : State) (f : Flt) : State :=
  s.raiseRec s.cur { flt := f, cslice := false, fpos := 0, fcycle := s.cycle }

/-- A fault of the compute slice at the position of the path that moves (R80). -/
def State.raiseC (s : State) (f : Flt) : State :=
  s.raiseRec s.cur { flt := f, cslice := true, fpos := (s.grp.paths.get { pos := 0, qmask := 0, lmask := 0#32 } s.curPath).pos,
                     fcycle := s.cycle, fpath := some s.curPath }

/-- STPC of a fault at completion: the word of an LDS, STS, AMOS, DETSET or VSTA, 0 for every other operation (R380, field
0x0E0). -/
def Op.stpc (o : Op) : Nat := if !o.cslice && (o.data == .mem || o.data == .queueStore) then o.pc else 0

/-- FADDR of a fault at completion: for a queue store the address its VSTA gave (R391). -/
def Op.faddr (o : Op) (f : Flt) : Nat :=
  match o.data, o.accs with
  | .queueStore, a :: _ => a.va - 4 * a.lane
  | _, _ => f.faddr

/-- A fault that an operation reports as it completes (R155, R230). A queue store that another device has refused names its
STD, and the group's younger ones are not performed (R128, R380, R391). No path counts as the faulting one (log 97). -/
def State.raiseOp (s : State) (k : Nat) (o : Op) (f : Flt) : State :=
  let s1 := if o.data == .queueStore then s.setGroup k { s.group k with storeFail := true } else s
  s1.raiseRec k { flt := { f with stpc := o.stpc, faddr := o.faddr f }, cslice := o.cslice,
                  fpos := if o.cslice then o.pc else o.stdPos, fcycle := s.cycle }

/-- The outcome of an A-stream instruction that faults. -/
def State.faultA (s : State) (f : Flt) : Out := .next (s.raiseA f)

/-- The outcome of a C-stream instruction that faults. -/
def State.faultC (s : State) (f : Flt) : Out := .next (s.raiseC f)

/-- The position `n` parcels after one: past parcel 31 comes parcel 1 of the next block (R75). -/
def nextPos (pos n : Nat) : Nat := if (pos + n) % 32 = 0 then pos + n + 1 else pos + n

/-- RETURN FROM A FAULT (R381): the record is cleared and every stopped slice may issue again at its recorded position,
what it waited at being abandoned (R158, R198); a slice stopped by BRK or VBRK stands after that instruction (one word, three parcels). -/
def Group.resumeSlices (g : Group) : Group :=
  let g1 := { g with fault := none, lostFault := false, storeFail := false, skid := 0, await := none, astopped := false,
                     cstopped := false, paths := g.paths.mapVals (fun _ x => { x with waitc := 0 }) }
  match g.fault with
  | none => g1
  | some r =>
    if !r.brk then g1
    else if !r.cslice then { g1 with apc := g.apc + 4#64 }
    else { g1 with paths := g1.paths.mapVals (fun p x => if r.fpath = some p then { x with pos := nextPos x.pos 3 } else x) }

/-- Retire the operations that have completed (R26): a counter falls in issue order only, an operation without a counter
leaves as it completes, a fence when nothing older stands before it, and a record read when the word that reads it takes
it. The answer gives what stays, the counters
and the operations that left with a failure. -/
def retireOps (blocked : List Nat) (first : Bool) (fcs : Tab Nat) : List Op → List Op × Tab Nat × List Op
  | [] => ([], fcs, [])
  | o :: os =>
    let keep (b : List Nat) := let r := retireOps b false fcs os; (o :: r.1, r.2.1, r.2.2)
    let leave (f : Tab Nat) :=
      let r := retireOps blocked first f os
      (r.1, r.2.1, if o.fail.isSome then o :: r.2.2 else r.2.2)
    match o.data with
    | .fence .. => if first then leave fcs else keep blocked
    | .record .. | .fetch .. => keep blocked
    | _ =>
      match o.fc with
      | none => if o.doneq then leave fcs else keep blocked
      | some c =>
        if o.doneq && !blocked.contains c.num then leave (fcs.set 0 c.num (fcs.get 0 c.num - 1))
        else keep (c.num :: blocked)

/-- Let a group's completed operations leave, and take the faults they report (R26, R155, R230). -/
def State.settle (s : State) (k : Nat) : State :=
  let g := s.group k
  let r := retireOps [] true g.fcs g.ops
  r.2.2.foldl (fun a o => match o.fail with | some f => a.raiseOp k o f | none => a)
    (s.setGroup k { g with ops := r.1, fcs := r.2.1 })

/-! ## Scratchpad, barriers and signals -/

/-- `n` bytes of a team's scratchpad region from an offset. -/
def Team.readSp (t : Team) (off n : Nat) : List Byte := Tab.getFrom 0#8 t.sp off n

/-- Write bytes of the region. -/
def Team.writeSp (t : Team) (off : Nat) (bs : List Byte) : Team := { t with sp := Tab.setFrom 0#8 t.sp off bs }

/-- The label of a scratchpad granule (R116). -/
def Team.spLabel (t : Team) (off : Nat) : Label := t.spLbl.get 0#16 (off / 256)

/-- The label of a range of the region (R126). -/
def Team.spLabelOf (t : Team) (off n : Nat) : Label :=
  Label.joinAll ((List.range ((off + n - 1) / 256 - off / 256 + 1)).map (fun i => t.spLabel ((off / 256 + i) * 256)))

/-- Whether the 16-byte cell at an offset is marked (R338). -/
def Team.marked? (t : Team) (off : Nat) : Bool := t.spMark.get false (off / 16)

/-- The barrier object at an offset (R337). -/
def Team.barrier (t : Team) (off : Nat) : Barrier := Barrier.ofNat (ofBytes (t.readSp off 16))

/-- Write a barrier object into its cell. -/
def Team.setBarrier (t : Team) (off : Nat) (b : Barrier) : Team := t.writeSp off (bytesOf b.toNat 16)

/-- Make an arrival at a marked cell (R186, R131): nothing when its label does not contain the arrival's. -/
def Team.arrive (t : Team) (off n : Nat) (l : Label) (err : Bool) : Option Team :=
  let b := t.barrier off
  if l.within b.lbl then some (t.setBarrier off (b.arrive n err)) else none

/-- The device's own decrement of a signal object (R182, R185, R373, R381, R383): a request where the object is of another
device; an address of zero names none. -/
def State.deviceSignal (s : State) (ctx va : Nat) : State :=
  if va = 0 then s
  else
    match s.translate ctx va true with
    | some x =>
      if devOf x.pa = s.devn then
        s.deviceApply { ctx := ctx, pa := x.pa, bytes := [], delta := some (BitVec.ofInt 64 (-1)), line := x.line, dup := x.dup,
                        page := va / 65536 }
      else s.deviceSend (devOf x.pa) ctx (va / 65536) (fun tag =>
        { s.frame .atomic 0 (devOf x.pa) ctx 0#16 tag (localOf x.pa) (2 ^ 64 - 1) with
          opn := BitVec.ofNat 8 (0x20 + (if x.line then 128 else 0)), payload := bytesOf 0xFFFF 8 })
    | none => s

/-- One of the device's own actions. -/
def State.ownAct (s : State) (ctx : Nat) : OwnAct → State
  | .write va bs => s.deviceWrite ctx va bs
  | .signal va => s.deviceSignal ctx va

/-- Whether an action of the device's own goes to this device, behind its writes that wait at a base die, or nowhere. -/
def State.actsHere (s : State) (ctx : Nat) (a : OwnAct) : Bool :=
  match s.translate ctx (match a with | .write va _ => va | .signal va => va) true with
  | some x => devOf x.pa == s.devn
  | none => true

/-- The tags of the device's own requests that have been sent since a state. -/
def State.tagsSince (s t : State) : List Nat :=
  (t.tags.filter (fun e => e.2.g == noGroup && (s.tags.find e.1).isNone)).map (·.1)

/-- Make actions of the device's own in order, from state `s` on, each once those since `s0` have been acknowledged by other
devices and made at this one (R373, R381, R383): what must wait is kept in `ordered`. -/
def State.inOrder (ctx : Nat) : List OwnAct → State → State → State
  | [], _, s => s
  | a :: as, s0, s =>
    if (s0.tagsSince s).isEmpty && (s.dieQ.isEmpty || s.actsHere ctx a) then State.inOrder ctx as s (s.ownAct ctx a)
    else { s with ordered := s.ordered ++ [{ ctx := ctx, tags := s0.tagsSince s, todo := a :: as }] }

/-- Go on with the first of the device's own actions whose turn has come. -/
def State.ownNext (s : State) : State :=
  let ready (o : Ordered) : Bool := o.tags.all (fun n => (s.tags.find n).isNone) && (s.dieQ.isEmpty || (o.todo.head?).any (s.actsHere o.ctx))
  match s.ordered.find? ready with
  | none => s
  | some o => let s1 : State := { s with ordered := s.ordered.erase o }; State.inOrder o.ctx o.todo s1 s1

end Sys2Proof.Machine
end

