-- ==== Sys2Proof/Machine/Access.lean ====
section
/-! DEFINITION. Accesses to memory and to the typed buffers: how one is formed at issue, sent, checked and applied, and
which older accesses of its group it waits for (R126-R132, R166-R168, R339-R348). -/

namespace Sys2Proof.Machine

/-- The new value of an atomic (R167, R236): operation code, element type, old value, operand, comparand. -/
def atomicNew (f : Nat) (t : Ty) (old b c : Nat) : Nat :=
  let w := t.width
  let sg (x y : Nat) : Bool := decide (signedOf w x ≤ signedOf w y)
  let le (x y : Nat) : Bool := if t.isSigned then sg x y else decide (x ≤ y)
  match f with
  | 0 => if t == .f32 then fAdd .f32 .rne old b else (old + b) % 2 ^ w
  | 1 => old &&& b
  | 2 => old ||| b
  | 3 => old ^^^ b
  | 4 => if t == .f32 then minMaxNum .f32 false old b else if le old b then old else b
  | 5 => if t == .f32 then minMaxNum .f32 true old b else if le old b then b else old
  | 6 => if old ≤ b then old else b
  | 7 => if old ≤ b then b else old
  | 8 => b
  | _ => if old = c then b else old

/-- The outcome of applying an access where its bytes are. -/
inductive Applied where
  /-- The base die's overflow buffer is full: the access waits there (R357). -/
  | blocked
  | bad (f : Flt)
  | ok (s : State) (a : Acc)
deriving DecidableEq, Repr

/-- The check of an access to a granule (R126, R127, R129, R143): `gl` is the label of the bytes' granules, `w` the label
W of a store or atomic, `sub` the sub-cause of a failing store. -/
def labelCheck (kind : AccKind) (clr w gl : Label) (sub addr : Nat) : Option Flt :=
  match kind with
  | .load => if gl.within clr then none else some (fltLoad 0 gl clr addr)
  | .store | .detset => if w.within gl then none else some (fltStore sub w gl addr)
  | .atomic _ _ | .signal | .contrib =>
    if !gl.within clr then some (fltLoad 0 gl clr addr)
    else if !w.within gl then some (fltStore sub w gl addr) else none
  | .raise => none

/-- Apply an access to a local physical address (R130, R157, R343, R423); `setOf` names the device and the grid that a DETSET
opens its set for. An ADD on F32 is no FetchAdd, and host memory refuses it (log 89). -/
def State.applyGlobal (s : State) (clr w : Label) (setOf : Nat × Nat) (a : Acc) : Applied :=
  let la := localOf a.pa
  let host := isHost la
  let gl := s.labelOf la a.size
  let chk := if a.chk || (host && a.kind != .load) then none else labelCheck a.kind clr w gl 0 a.va
  match chk with
  | some f => .bad f
  | none =>
    let old := s.readNat la a.size
    let done (x : State) (v : Nat) : Applied := .ok x { a with done := true, got := v, glbl := gl }
    let put (v : Nat) : Applied :=
      match s.writeLine la (bytesOf v a.size) a.line with
      | some x => done x old
      | none => .blocked
    match a.kind with
    | .load => if s.poisoned la a.size then .bad { code := 0x0E, faddr := a.va } else done s old
    | .store => put a.val
    | .atomic f t =>
      if host && (!([0, 8, 9].contains f) || (f == 0 && t == .f32)) then .bad { fltIllegal with faddr := a.va }
      else if s.poisoned la a.size then .bad { code := 0x0E, faddr := a.va }
      else put (atomicNew f t old a.val a.cmp)
    | .signal =>
      if s.poisoned la 24 then .bad { code := 0x0E, faddr := a.va }
      else
        match s.signal la (BitVec.ofNat 64 a.val) a.line with
        | some x => done x old
        | none => .blocked
    | .raise => done (s.raiseLabel la (BitVec.ofNat 16 a.val)) 0
    | .detset =>
      if (s.detsets.find (la / 32)).isSome then .bad { code := 0x14, faddr := a.va }
      else done { s with detsets := s.detsets.put (la / 32) { n := a.val, dev := setOf.1, grid := setOf.2 } } 0
    | .contrib => .blocked

/-- The label of a range of the scratchpad as a load reads it: its granules and the objects in its marked cells (R126,
R241). -/
def Team.rangeLabel (t : Team) (off n : Nat) : Label :=
  (t.spLabelOf off n).join (Label.joinAll ((List.range ((off + n - 1) / 16 - off / 16 + 1)).map (fun i =>
    let c := (off / 16 + i) * 16
    if t.marked? c then (t.barrier c).lbl else 0#16)))

/-- Uncorrectable data in a range of the scratchpad. -/
def Team.rangeBad (t : Team) (off n : Nat) : Bool :=
  (List.range ((off + n - 1) / 4 - off / 4 + 1)).any (fun i => t.spBad.get false (off / 4 + i))

/-- Apply an access to a team's scratchpad (R239-R244). A write to a marked cell is refused as the access is performed, after
its label check (log 31). -/
def State.applyScratch (s : State) (tn : Nat) (clr w : Label) (a : Acc) : Applied :=
  let t := s.team tn
  let gl := t.rangeLabel a.pa a.size
  match (if a.chk then none else labelCheck a.kind clr w gl 0 a.va) with
  | some f => .bad f
  | none =>
    let old := ofBytes (t.readSp a.pa a.size)
    let bad := t.rangeBad a.pa a.size
    let done (x : Team) (v : Nat) : Applied := .ok (s.setTeam tn x) { a with done := true, got := v, glbl := gl }
    match a.kind with
    | .load => if bad then .bad { code := 0x0E, faddr := a.va } else done t old
    | .raise =>
      if t.marked? a.pa && a.cmp == 1 then
        let b := t.barrier a.pa
        done (t.setBarrier a.pa { b with lbl := Label.join b.lbl (BitVec.ofNat 16 a.val) }) 0
      else done { t with spLbl := t.spLbl.set 0#16 (a.pa / 256) (Label.join (t.spLabel a.pa) (BitVec.ofNat 16 a.val)) } 0
    | .store => if t.marked? a.pa then .bad { code := 0x09, faddr := a.va } else done (t.writeSp a.pa (bytesOf a.val a.size)) old
    | .atomic f ty =>
      if t.marked? a.pa then .bad { code := 0x09, faddr := a.va }
      else if bad then .bad { code := 0x0E, faddr := a.va }
      else done (t.writeSp a.pa (bytesOf (atomicNew f ty old a.val a.cmp) a.size)) old
    | _ => .blocked

/-- Write bytes that lie in one word of accumulator memory. -/
def Team.accPut (t : Team) (off : Nat) (bs : List Byte) : Team :=
  let old := bytesOf (t.acc.get 0#32 (off / 4)).toNat 4
  let new := old.take (off % 4) ++ bs ++ old.drop (off % 4 + bs.length)
  { t with acc := t.acc.set 0#32 (off / 4) (BitVec.ofNat 32 (ofBytes new)) }

/-- Apply an access to a word of accumulator memory (R247), or raise a bank's label (R192). -/
def State.applyAccum (s : State) (tn : Nat) (clr w : Label) (a : Acc) : Applied :=
  let t := s.team tn
  let bank := a.pa / 131072
  let gl := t.bankLbl.get 0#16 bank
  match labelCheck a.kind clr w gl 2 a.va with
  | some f => .bad f
  | none =>
    let old := (t.acc.get 0#32 (a.pa / 4)).toNat
    let done (x : Team) (v : Nat) : Applied := .ok (s.setTeam tn x) { a with done := true, got := v, glbl := gl }
    match a.kind with
    | .load => if t.accBad.get false (a.pa / 4) then .bad { code := 0x0E, faddr := a.va } else done t old
    | .store => done (t.accPut a.pa (bytesOf a.val a.size)) old
    | .raise => done { t with bankLbl := t.bankLbl.set 0#16 bank (Label.join gl (BitVec.ofNat 16 a.val)) } 0
    | _ => .blocked

/-- Write a word that the Porter moves into the weight buffer, `pa` being its place in the team's span (R127, R178). -/
def State.applyWeight (s : State) (tn : Nat) (clr w : Label) (a : Acc) : Applied :=
  let t := s.team tn
  match t.resv.find? (fun e => decide (e.2.off ≤ a.pa) && decide (a.pa < e.2.off + e.2.size)) with
  | none => .bad { code := 0x0C }
  | some r =>
    match labelCheck a.kind clr w r.2.lbl 4 a.va with
    | some f => .bad f
    | none =>
      .ok (s.setTeam tn { t with wmem := Tab.setFrom 0#8 t.wmem a.pa (bytesOf a.val a.size) }) { a with done := true, glbl := r.2.lbl }

/-- Whether a physical granule belongs to the constant-bank image of an admitted grid of a context (R144). -/
def State.inConstBank (s : State) (ctx pa : Nat) : Bool :=
  s.grids.any (fun e => e.2.admitted && !e.2.retired && e.2.ctx == ctx &&
    ([e.2.rec_.kbank, (e.2.rec_.kbank + 16383) / 65536 * 65536].filter (e.2.rec_.kbank ≤ ·)).any (fun b =>
      match s.translate ctx b false with
      | some x =>
        let lo := x.pa / 256
        let hi := (x.pa + min (16384 - (b - e.2.rec_.kbank)) (65536 - b % 65536) - 1) / 256
        decide (lo ≤ pa / 256) && decide (pa / 256 ≤ hi)
      | none => false))

/-- Apply an access of a group where its bytes are; a raise of a granule of the constant-bank image of a grid admitted by then
fails (R144). -/
def State.applyAcc (s : State) (k : Nat) (w0 : Label) (a : Acc) : Applied :=
  let w := w0.join a.lbl
  match a.space with
  | .global =>
    if a.kind == .raise && s.inConstBank (s.ctxOf k) a.pa then .bad (fltStore 6 (BitVec.ofNat 16 a.val) 0#16 a.va)
    else s.applyGlobal (s.clr k) w (s.devn, (s.team (teamOf k)).grid) a
  | .scratch => s.applyScratch (teamOf k) (s.clr k) w a
  | .acc => s.applyAccum (teamOf k) (s.clr k) w a
  | .weight => s.applyWeight (teamOf k) (s.clr k) w a

/-- Whether an operation is counted on a counter whose operations a FENCE takes as earlier only once they have completed
(R347). -/
def Op.counted (o : Op) : Bool :=
  match o.fc with
  | some .gx | some .sp | some .po | some .mx | some .cl | some .xf | some .wa => true
  | _ => false

/-- An operation of the Porter or of the collective engine, whose accesses group order does not place (R347). -/
def Op.engine (o : Op) : Bool := match o.data with | .port .. | .coll .. => true | _ => false

/-- A read of code or of the constant bank, which group order does not place. -/
def Op.unordered (o : Op) : Bool := match o.data with | .fetch .. => true | _ => false

/-- Whether an access stays within this device (typed buffers always do). -/
def State.isLocal (s : State) (a : Acc) : Bool := a.space != .global || devOf a.pa == s.devn

/-! ## Order within a group -/

def AccKind.isLoad : AccKind → Bool
  | .load | .atomic _ _ | .signal => true
  | _ => false

def AccKind.isStore : AccKind → Bool
  | .load => false
  | _ => true

/-- Group order between two accesses (R340): `b`, `x` the older operation and its access, `o`, `a` the younger. -/
def groupBefore (b : Op) (x : Acc) (o : Op) (a : Acc) : Bool :=
  match b.cslice, o.cslice with
  | false, false => true
  | false, true => decide (b.run < o.run)
  | true, true => x.lane / 4 == a.lane / 4
  | true, false => decide (b.id < o.after.get 0 (x.lane / 4))

/-- The two accesses overlap: in the place they go to, or as addresses, since a holder's load of a read-duplicated page
goes to its copy and a store to the home (R359). -/
def Acc.overlaps (x a : Acc) : Bool :=
  x.space == a.space && ((decide (x.pa < a.pa + a.size) && decide (a.pa < x.pa + x.size))
    || (decide (x.va < a.va + a.size) && decide (a.va < x.va + x.size)))

/-- Whether the same bytes keep the younger access after the older (R341). A load of the address slice is not kept behind a queue
store, that of the record of YIELD.REC among them (log 102). -/
def keptSame (b : Op) (x : Acc) (o : Op) (a : Acc) : Bool :=
  if b.data == .queueStore && a.kind == .load then false
  else if x.ord == 2 && a.ord == 2 then (!b.cslice && !o.cslice) || (b.cslice && o.cslice && x.lane == a.lane)
  else true

/-- Whether the page class keeps two accesses to different addresses (R339). -/
def keptClass (x a : Acc) : Bool :=
  let atomic (y : Acc) : Bool := (y.kind.isLoad && y.kind.isStore) || y.kind == .contrib
  if x.ord == 1 && a.ord == 1 then true
  else if x.ord == 3 && a.ord == 3 then atomic x || atomic a || !(x.kind.isStore && !a.kind.isStore)
  else false

/-- Whether a fence of a kind between them keeps the younger after the older (R188). -/
def keptFence (k : FenceKind) (x a : Acc) : Bool :=
  match k with
  | .acq => x.kind.isLoad
  | .rel => a.kind.isStore
  | .full => true

/-- A queue store that still stands in SAQ is in neither set of a FENCE that has issued: the run that supplies its data is
dispatched after the FENCE (R188). -/
def Group.unpaired (g : Group) (b : Op) : Bool := b.data == .queueStore && g.saq.any (fun e => e.op == b.id)

/-- Whether a fence stands between two operations (R188, R250, R340 case 5). One of the address slice has older words and the
runs dispatched before it in its earlier set, younger words and later runs in its later set. One that quads of the compute
slice made orders what those quads have read, or the address slice before their run, before what they issue after it. -/
def Op.between (f b : Op) (x : Acc) (o : Op) (a : Acc) : Bool :=
  decide (b.id < f.id) && decide (f.id < o.id)
    && (if f.cslice then
          o.cslice && bitOf f.quads (a.lane / 4) && (if b.cslice then bitOf f.quads (x.lane / 4) else decide (b.run < f.run))
        else (!b.cslice || decide (b.run ≤ f.run)) && (!o.cslice || decide (f.run < o.run)))

/-- Whether nobody in the scope of a fence can see two accesses out of order (R344, R345): the scope holds no agent beside
the group, both go to global memory of a class under which the group itself cannot tell, and no lane access of an earlier
run is still to be performed. -/
def Group.unseen (g : Group) (f : Op) (sole : Bool) (x a : Acc) : Bool :=
  sole && x.space == .global && a.space == .global && x.ord != 2 && a.ord != 2
    && !g.ops.any (fun c => c.cslice && decide (c.id < f.id) && c.accs.any (fun y => !y.done))

/-- Whether some fence of the group stands between two operations and keeps them, whichever quad or slice made them (R340
case 5); implicit fences do not order UO pages (R346). -/
def Group.fenced (g : Group) (b : Op) (x : Acc) (o : Op) (a : Acc) : Bool :=
  !b.counted && !g.unpaired b && g.ops.any (fun f => f.between b x o a
    && (match f.data with
    | .fence k expl sole => keptFence k x a && (expl || (x.ord != 2 && a.ord != 2)) && !g.unseen f sole x a
    | _ => false))

/-- Whether an engine operation may access memory (R347): the earlier set of every FENCE before its command has been
performed, that of a BARWAIT or SIGWAIT among them, which do not order UO pages (R346); before a command of the compute stream,
of every FENCE before the RUN of its run. -/
def Group.engineReady (g : Group) (o : Op) : Bool :=
  g.ops.all (fun b => b.counted || b.unordered || g.unpaired b || b.accs.all (fun x => x.done || !g.ops.any (fun f =>
    decide (b.id < f.id) && !f.cslice && (if o.cslice then decide (f.run < o.run) else decide (f.id < o.id)) && (match f.data with
      | .fence .acq expl _ => x.kind.isLoad && (expl || x.ord != 2)
      | .fence _ expl _ => expl
      | _ => false))))

/-- Whether access `a` of operation `o` may be performed now: no older access of the group that it is kept after is still
to be performed (R340-R348). -/
def Group.mayPerform (g : Group) (o : Op) (a : Acc) : Bool :=
  if o.unordered then true
  else if o.engine then g.engineReady o
  else
    g.ops.all (fun b => decide (o.id ≤ b.id) || b.engine || b.unordered || b.accs.all (fun x => x.done ||
      !((groupBefore b x o a && ((x.overlaps a && keptSame b x o a) || (!x.overlaps a && keptClass x a))) || g.fenced b x o a)))

/-- An SPST or SPAMO: no lane of it acts when one touches a marked cell, so its lanes act at one point (R244). -/
def Op.together (o : Op) : Bool := o.cslice && o.accs.any (fun a => a.space == .scratch && a.kind.isStore)

/-- Whether the lanes below lane access `n` of a compute-slice operation that write bytes it writes have written them, or do
so before it in the same step as `ok` says (R234, R237, R242). -/
def Op.laneClear (o : Op) (n : Nat) (a : Acc) (ok : Nat → Bool) : Bool :=
  let writes (x : Acc) : Bool := match x.kind with | .store | .atomic _ _ => true | _ => false
  !o.cslice || !writes a || ((o.accs.take n).zipIdx).all (fun e => e.1.done || e.1.held || ok e.2 || !writes e.1 || !e.1.overlaps a)

/-- Whether a FENCE that stands after an operation keeps one of its accesses before a later arrival, signal update or
message (R188). -/
def Group.keptBefore (g : Group) (o : Op) (x : Acc) : Bool :=
  g.ops.any (fun f => decide (o.id < f.id) && !f.cslice && (match f.data with
    | .fence .acq true _ => x.kind.isLoad
    | .fence _ true _ => true
    | _ => false))

/-- Whether every access of the group's older operations that a release of this kind waits for has been performed
(R188, R346): every dispatched run has been passed, no paired queue store stands, and no performed-to-be access is
left, but that implicit fences do not wait for UO pages, which a FENCE before them may have ordered. -/
def Group.released (g : Group) (explicit : Bool) : Bool :=
  let paired := !g.saq.isEmpty && (match g.sdq with
    | e :: _ => g.unended.all (fun q => e.quads / 2 ^ q % 2 == 1)
    | [] => false)
  g.outstanding == 0 && !paired
    && g.ops.all (fun o => o.counted || o.unordered || g.unpaired o
        || o.accs.all (fun x => x.done || (!explicit && x.ord == 2 && !g.keptBefore o x)))

/-! ## Forming and sending accesses -/

/-- A watched range that an access of a group overlaps, of a watched kind (R444), when debug acts on it (R437, R439). -/
def State.watched (s : State) (k : Nat) (a : Acc) : Bool :=
  let regs := (s.core (s.team (teamOf k)).core).regs
  let on := s.dbgu && !(s.ctx (s.ctxOf k)).prot && (regs.get 0#64 0).toNat / 2 ^ 48 == s.ctxOf k
  on && a.space == .global && [0, 1].any (fun n =>
    let ctl := (regs.get 0#64 (0x280 + 16 * n)).toNat
    let base := (regs.get 0#64 (0x288 + 16 * n)).toNat
    decide (a.va < base + ctl / 2 ^ 32) && decide (base < a.va + a.size)
      && ((bitOf ctl 0 && (a.kind.isLoad || a.kind == .contrib)) || (bitOf ctl 1 && a.kind.isStore)))

/-- Form an access of a group to global, host or remote memory: translate it through a cache, and give a load through a DUP leaf
the local copy that the duplicate map binds (R359, R421). `lease` is set when the lease check or the translation refuses it. -/
def State.formBy (s : State) (c k : Nat) (a : Acc) : Acc :=
  match s.reach c k a.va a.size (a.kind.isStore) with
  | none => { a with lease := true }
  | some x =>
    { a with pa := if a.kind == .load then s.loadPa x else x.pa, ord := x.ord, line := x.line, dup := x.dup, det := x.det }

/-- Form an access of a group's own word or parcel (R402). -/
def State.formAcc (s : State) (k : Nat) (a : Acc) : Acc := s.formBy (s.coreCache k) k a

/-- The failure of an access that is known once its target is: the grid's end, a watched range, a fenced peer, a message
outside its endpoint's label (R137, R405, R444). -/
def State.sendCheck (s : State) (k : Nat) (w0 : Label) (a : Acc) : Option Flt :=
  let w := w0.join a.lbl
  let c := s.ctx (s.ctxOf k)
  let dev := devOf a.pa
  if a.lease then some (fltLease a.va)
  else if a.space != .global then none
  else if s.watched k a then some { code := 0x13, faddr := a.va }
  else if dev = s.devn then
    if isHost (localOf a.pa) && a.kind.isStore && !w.within c.eplHost then some (fltMsg 0 w c.eplHost a.va) else none
  else if s.fenced.contains dev then some { code := 0x16, faddr := a.va }
  else if a.kind.isStore && a.kind != .raise && !w.within (c.eplDev dev) then some (fltMsg 0 w (c.eplDev dev) a.va)
  else none

/-- The OPN of an atomic frame (R408): the operation code and size. Codes that R167 and R408 leave free name what they do
not: the F32 operations 0xA to 0xC, GLBL 0xD, a deterministic contribution 0xE, DETSET 0xF, and with size 10 a signal
update (log 20). -/
def atomicOpn (f : Nat) (t : Ty) : Nat :=
  let op := if t = .f32 then (if f = 0 then 0xA else if f = 4 then 0xB else if f = 5 then 0xC else f)
    else if t.isSigned then f else if f = 4 then 6 else if f = 5 then 7 else f
  op + (if t.width = 64 then 16 else 0)

/-- The operation code and element type of an OPN. -/
def opnAtomic (n : Nat) : Nat × Ty :=
  if bitsOf n 4 2 = 1 then (n % 16, .s64)
  else if n % 16 = 0xA then (0, .f32) else if n % 16 = 0xB then (4, .f32) else if n % 16 = 0xC then (5, .f32) else (n % 16, .s32)

/-- The frame of an access to another device (R408). An atomic frame carries the sender's CLR, which the target checks the
granule against (R129, R140), and a comparand or a contribution's key (log 20). -/
def State.accFrame (s : State) (k : Nat) (w0 : Label) (tag : Nat) (a : Acc) : Frame :=
  let w := w0.join a.lbl
  let ctx := s.ctxOf k
  let dev := devOf a.pa
  let la := localOf a.pa
  let atomic (opn aux : Nat) (bs : List Byte) : Frame :=
    { s.frame .atomic 0 dev ctx w tag la aux with
      opn := BitVec.ofNat 8 (opn + (if a.line then 128 else 0)), payload := bytesOf (s.clr k).toNat 8 ++ bs }
  match a.kind with
  | .load => s.frame .loadRequest 0 dev ctx w tag la 0
  | .atomic f t => atomic (atomicOpn f t) a.val (bytesOf a.cmp 8)
  | .signal => atomic 0x20 a.val []
  | .detset => atomic 0x0F a.val (bytesOf (s.team (teamOf k)).grid 8)
  | .contrib =>
    atomic 0x0E a.val (bytesOf (s.team (teamOf k)).teamix 4 ++ bytesOf ((s.group k).gidx * 32 + a.lane) 4)
  | .raise => atomic 0x0D a.val []
  | .store => { s.frame .store 1 dev ctx w tag la (storeAux a.size a.line) with payload := bytesOf a.val a.size }

/-- Send the accesses of an operation that go to other devices and may be performed now, each under a tag of its own
(R407, R408). `n` is the number of the first access of the list. -/
def State.sendAccs (s : State) (k : Nat) (o : Op) (n : Nat) : List Acc → State × List Acc
  | [] => (s, [])
  | a :: as =>
    if a.done || a.sent || s.isLocal a || !(s.group k).mayPerform o a || !o.laneClear n a (fun _ => false) then
      let r := s.sendAccs k o (n + 1) as
      (r.1, a :: r.2)
    else
      let x := s.newTag { g := k, op := o.id, k := n, dev := devOf a.pa }
      let r := (x.1.send (s.accFrame k o.lbl x.2 a)).sendAccs k o (n + 1) as
      (r.1, { a with sent := true } :: r.2)

/-- Issue an operation of a group whose accesses have been formed (R26, R230): a failure known now is recorded with it
and it has no access; otherwise the accesses to other devices are sent as far as order allows, but that stores with lanes
at this device too send nothing before those lanes have been checked (R128, R234). -/
def State.issueAccs (s : State) (k : Nat) (o : Op) : State :=
  let g := s.group k
  let fail := o.fail.or (o.accs.findSome? (s.sendCheck k o.lbl))
  let o1 := { o with id := g.nextOp, fail := fail, accs := if fail.isSome then [] else o.accs }
  let s1 := (o.accs.foldl (fun a x => if x.space == .global && !x.lease then a.keepLeaf (s.coreCache k) (s.ctxOf k) x.va else a) s).setGroup k
    (g.issueOp o1)
  let early := o1.accs.all (·.kind == .load) || !o1.accs.any s.isLocal
  let r := if early then s1.sendAccs k o1 0 o1.accs else (s1, o1.accs)
  r.1.setGroup k ((r.1.group k).setOp { o1 with accs := r.2 })

/-! ## Performing accesses -/

/-- The outcome of performing accesses of an operation: the accesses after, in `ok`. -/
inductive Performed where
  | blocked
  | bad (f : Flt)
  | ok (s : State) (accs : List Acc)
deriving DecidableEq, Repr

/-- The first failing check among accesses that are still to be performed here. -/
def State.checkAccs (s : State) (k : Nat) (w : Label) (accs : List Acc) : Option Flt :=
  (accs.filter (fun a => !a.done && !a.held && s.isLocal a)).findSome? (fun a => match s.applyAcc k w a with
    | .bad f => some f
    | _ => none)

/-- Apply, in order, the accesses of a list that `pick` names by their number from `n` on; one that goes to another device
is sent. A write to a page with holders stays open until they have acknowledged, and one to bytes of which an update is under
way waits (R360, R361). -/
def State.applyAccs (s : State) (k : Nat) (o : Op) (pick : Nat → Bool) (n : Nat) : List Acc → Performed
  | [] => .ok s []
  | a :: as =>
    let rest (s1 : State) (a1 : Acc) : Performed :=
      match s1.applyAccs k o pick (n + 1) as with
      | .ok s2 l => .ok s2 (a1 :: l)
      | r => r
    if a.done || a.held || a.sent || !pick n then rest s a
    else if !s.isLocal a then
      if !o.laneClear n a (fun _ => false) then rest s a
      else
        let x := s.newTag { g := k, op := o.id, k := n, dev := devOf a.pa }
        rest (x.1.send (s.accFrame k o.lbl x.2 a)) { a with sent := true }
    else if a.space == .global && a.dup && a.kind.isStore && s.dupBusy a.pa a.size then rest s a
    else
      match s.applyAcc k o.lbl a with
      | .blocked => .blocked
      | .bad f => .bad f
      | .ok s1 a1 =>
        if a.space == .global && a.dup && a.kind.isStore && !(s.holders a.pa).isEmpty then
          rest (s1.dupNotify { g := k, op := o.id, k := n, dev := s.devn } (s.ctxOf k) none a.pa a.size a.line) { a1 with done := false, held := true }
        else rest s1 a1

/-- Perform the accesses of operation `o` that `pick` names: nothing happens while an older access that they are kept
after stands, or while the base die holds one back; a failing check of an access of `part` leaves every access unperformed and
gives the fault the operation will report. -/
def State.performPart (s : State) (k : Nat) (o : Op) (part : Acc → Bool) (pick : Nat → Bool) : Performed :=
  let g := s.group k
  let idx := (List.range o.accs.length).zip o.accs
  if !idx.all (fun e => !pick e.1 || e.2.done || e.2.held || e.2.sent
      || (g.mayPerform o e.2 && (!s.isLocal e.2 || o.laneClear e.1 e.2 pick))) then .blocked
  else
    match s.checkAccs k o.lbl (o.accs.filter part) with
    | some f => .bad f
    | none => s.applyAccs k o pick 0 o.accs

/-- Perform the accesses of an operation that `pick` names, a failing check of any leaving all unperformed (R128). -/
def State.perform (s : State) (k : Nat) (o : Op) (pick : Nat → Bool) : Performed := s.performPart k o (fun _ => true) pick

/-! ## Records, constants and code read at issue -/

/-- The outcome of reading bytes at issue. -/
inductive RecRead where
  /-- The bytes and the union of their granules' labels. -/
  | ok (s : State) (bs : List Byte) (l : Label)
  | bad (f : Flt)
  /-- The bytes lie on another device and have not all arrived. -/
  | wait (s : State)
deriving DecidableEq, Repr

/-- The accesses that read `n` bytes at `va`: aligned, at most 8 bytes each. -/
def recAccs (va n : Nat) : List Acc :=
  let c := if va % 8 = 0 && n % 8 = 0 then 8 else if va % 4 = 0 && n % 4 = 0 then 4 else if va % 2 = 0 && n % 2 = 0 then 2 else 1
  (List.range (n / c)).map (fun i => { va := va + c * i, size := c })

/-- The failure of one access of a read at issue: a watched range, for a record, or a fenced peer (R157, R405, R444). -/
def State.readCheck (s : State) (k : Nat) (o : Op) (a : Acc) : Option Flt :=
  if o.unordered then (if s.fenced.contains (devOf a.pa) then some { code := 0x16, faddr := a.va } else none)
  else s.sendCheck k 0#16 a

/-- A read at issue that has all its bytes: it leaves the group's operations. -/
def State.readDone (s : State) (k : Nat) (x : Op) : RecRead :=
  .ok (s.setGroup k { s.group k with ops := (s.group k).ops.filter (fun y => y.id != x.id) })
    (x.accs.flatMap (fun a => bytesOf a.got a.size)) (Label.joinAll (x.accs.map (·.glbl)))

/-- A read at issue that stands: what is left of it at this device is read now. -/
def State.readMore (s : State) (k : Nat) (x : Op) : RecRead :=
  match s.perform k x (fun _ => true) with
  | .blocked => .wait s
  | .bad f => .bad f
  | .ok s1 accs => if accs.all (·.done) then s1.readDone k { x with accs := accs } else .wait (s1.setGroup k ((s1.group k).setOp { x with accs := accs }))

/-- Read `n` bytes at a virtual address as the instruction issues: the lease check and the translation first (LEASE), then
uncorrectable data and fenced peers; bytes of another device are asked for once and awaited (log 18). A record, unlike
code and constants, is read as an access of the address slice at its place in program order (R335, R340); at this device its
sectors are read together or, while `apart` stands, one by one (R348). -/
def State.readBytes (s : State) (k va n : Nat) (d : OpData) : RecRead :=
  let accs := (recAccs va n).map (s.formAcc k)
  let g := s.group k
  let o : Op := { id := g.nextOp, fc := none, pc := va, run := g.runs, after := g.caOrd, data := d }
  match accs.find? (fun a => a.lease), g.ops.find? (fun x => x.data == d) with
  | some a, _ => .bad (fltLease a.va)
  | none, some x =>
    match x.fail with
    | some f => .bad f
    | none =>
      if x.accs.all (·.done) then s.readDone k x else s.readMore k x
  | none, none =>
    let apart := s.apart && !o.unordered && decide (va / 32 < (va + n - 1) / 32)
    let away := !accs.all s.isLocal || apart
    if !accs.all (g.mayPerform o) || (away && !o.unordered && s.memoryFull k) then .wait s
    else
      match accs.findSome? (s.readCheck k o) with
      | some f => .bad f
      | none =>
        if accs.any (fun a => s.isLocal a && s.poisoned (localOf a.pa) a.size) then .bad { code := 0x0E, faddr := va }
        else if !away then
          .ok (accs.foldl (fun x a => x.keepLeaf (s.coreCache k) (s.ctxOf k) a.va) s)
            (accs.flatMap (fun a => s.readMem (localOf a.pa) a.size))
            (Label.joinAll (accs.map (fun a => s.labelOf (localOf a.pa) a.size)))
        else
          let here := accs.map (fun a => if s.isLocal a && !apart then
            { a with done := true, got := s.readNat (localOf a.pa) a.size, glbl := s.labelOf (localOf a.pa) a.size } else a)
          .wait (s.issueAccs k { o with accs := here })

/-- Read a record, or the VALUE of a signal object (R175, R178, R183, R184, R190). -/
def State.readRec (s : State) (k va n : Nat) : RecRead := s.readBytes k va n (.record va n)

/-- Read code or a word of the constant bank (R72, R156, R162). -/
def State.readCode (s : State) (k va n : Nat) : RecRead := s.readBytes k va n (.fetch va n)

end Sys2Proof.Machine
end

