-- ==== Sys2Proof/Machine/OpcodeMap.lean ====
section
/-! DEFINITION. The field rules of the compute-stream opcode map (R67-R81): for each class and OP value the row that
says which fields the instruction defines and what they may hold, and the checks of those rows. -/

namespace Sys2Proof

/-- Why a bit pattern is not an instruction (R61, R64-R70, R77, R81). Every one of them is taken as ILLEGAL. -/
inductive Reject where
  /-- The A-stream major opcode is not assigned (R64). -/
  | unassignedOp
  /-- The func value is not assigned (R65, R66). -/
  | unassignedFunc
  /-- A field that must hold zero does not (R61). -/
  | fixedField
  /-- FENCE scope 6 or 7, or kind 11 (R66). -/
  | fenceField
  /-- MARK kind above 1 (R66). -/
  | markKind
  /-- WAITFC counter code 9 to 15 (R66). -/
  | counterCode
  /-- Class 0xA to 0xD (R68). -/
  | unassignedClass
  /-- OP value not listed for its class (R79). -/
  | unassignedCOp
  /-- DT not accepted by the instruction, or not defined by it and not zero (R69, R81). -/
  | typeField
  /-- RM, SAT, RU, TK, PR or PN set where the instruction does not define it (R81). -/
  | undefinedField
  /-- IMF code not listed (R81). -/
  | immediateForm
  /-- X outside its listed values (R81). -/
  | xField
  /-- EXT outside its listed values (R81). -/
  | extField
  /-- A source operand code 783 to 1023, or outside what the field takes (R70). -/
  | sourceCode
  /-- A destination operand code that the instruction cannot write (R14, R70). -/
  | destCode
  /-- Trailer CTRL 101 to 111, ARG not zero, or SKIP count zero (R77). -/
  | trailerField
deriving DecidableEq, Repr

/-- What a source slot holds (R70, R81). -/
inductive Slot where
  /-- The instruction does not name the slot: ignored. -/
  | unused
  /-- An operand code. -/
  | operand
  /-- A vector register only: a base of consecutive registers. -/
  | vector
  /-- A vector register or a run temporary: the parameter register of a matrix instruction (R281, R289). -/
  | parameter
  /-- A predicate number in bits [2:0], the others zero. -/
  | predicate
  /-- A number 0 to 767 (the A increment of the matrix loops). -/
  | increment
deriving DecidableEq, Repr

/-- What the DST slot holds (R14, R70, R81). -/
inductive DSlot where
  | unused
  /-- A vector register or a run temporary: an instruction of fixed latency. -/
  | fixedLatency
  /-- A vector register only: an instruction that may carry a ticket, or a base of consecutive registers. -/
  | vectorOnly
  /-- A register that is read (the notify addresses of VSTX.NOTIFY): DST takes no queue and no constant. -/
  | source
  /-- A condition in bits [5:3] and a predicate in bits [2:0]; the flag says that UN is accepted. -/
  | compare (un : Bool)
deriving DecidableEq, Repr

/-- One row of the class tables of R81. -/
structure CRow where
  build : CFields → Instr
  d : DSlot := .unused
  a : Slot := .unused
  b : Slot := .unused
  c : Slot := .unused
  dts : List Ty := [.s8]
  rm : Bool := false
  sat : Bool := false
  ru : Bool := false
  tk : Bool := false
  np : Bool := false
  imf : List Nat := [0]
  x : List Nat := [0]
  ext : Nat → Bool := (· == 0)

/-- The types a row's DT column abbreviates (R81). A row that does not define DT takes code 0x0 only. -/
def dtIpk : List Ty := [.s8, .s16, .s32, .z8, .z16, .z32]
def dtS : List Ty := [.s8, .s16, .s32]
def dtF : List Ty := [.f32, .f16, .bf16]
def dtNarrow : List Ty := [.e4m3n, .e5m2n, .e2m1n]
def dtMatrix : List Ty := [.s8, .z8, .f16, .bf16, .e4m3n, .e5m2n, .e2m1n]
def imfAll : List Nat := [0, 1, 2, 3]
def imfNoBank : List Nat := [0, 1, 2]

/-- The DT code of a type (R69). -/
def Ty.code : Ty → Nat
  | .s8 => 0 | .s16 => 1 | .s32 => 2 | .s64 => 3 | .z8 => 4 | .z16 => 5 | .z32 => 6 | .z64 => 7
  | .f32 => 8 | .f16 => 9 | .bf16 => 10 | .e4m3n => 11 | .e5m2n => 12 | .e2m1n => 13 | .ocp8a => 14 | .ocp8b => 15
  | .e8m0 => 16 | .q4a => 17 | .q8a => 18

/-- The type of an ETY code (R69). -/
def Ty.ofCode : Nat → Option Ty
  | 0 => some .s8 | 1 => some .s16 | 2 => some .s32 | 3 => some .s64 | 4 => some .z8 | 5 => some .z16
  | 6 => some .z32 | 7 => some .z64 | 8 => some .f32 | 9 => some .f16 | 10 => some .bf16 | 11 => some .e4m3n
  | 12 => some .e5m2n | 13 => some .e2m1n | 14 => some .ocp8a | 15 => some .ocp8b | 16 => some .e8m0
  | 17 => some .q4a | 18 => some .q8a | _ => none

/-- The 16-bit integer types. -/
def Ty.isHalf (t : Ty) : Bool := t == .s16 || t == .z16

/-- Class 0x0, vector integer. -/
def cRow0 : Nat → Option CRow
  | 0x00 => some { build := .vadd, d := .fixedLatency, a := .operand, b := .operand, dts := dtIpk, imf := imfAll }
  | 0x01 => some { build := .vsub, d := .fixedLatency, a := .operand, b := .operand, dts := dtIpk, imf := imfAll }
  | 0x02 => some { build := .vmul, d := .fixedLatency, a := .operand, b := .operand, dts := dtIpk, imf := imfAll }
  | 0x03 => some { build := .vmulhi, d := .fixedLatency, a := .operand, b := .operand, dts := dtIpk, imf := imfAll }
  | 0x04 => some { build := .vmad, d := .fixedLatency, a := .operand, b := .operand, c := .operand, dts := dtIpk, imf := imfAll }
  | 0x05 => some { build := .vadds, d := .fixedLatency, a := .operand, b := .operand, dts := dtIpk, imf := imfAll }
  | 0x06 => some { build := .vsubs, d := .fixedLatency, a := .operand, b := .operand, dts := dtIpk, imf := imfAll }
  | 0x07 => some { build := .vand, d := .fixedLatency, a := .operand, b := .operand, imf := imfAll }
  | 0x08 => some { build := .vor, d := .fixedLatency, a := .operand, b := .operand, imf := imfAll }
  | 0x09 => some { build := .vxor, d := .fixedLatency, a := .operand, b := .operand, imf := imfAll }
  | 0x0A => some { build := .vnot, d := .fixedLatency, a := .operand }
  | 0x0B => some { build := .vshl, d := .fixedLatency, a := .operand, b := .operand, dts := dtIpk, imf := imfAll }
  | 0x0C => some { build := .vshr, d := .fixedLatency, a := .operand, b := .operand, dts := dtIpk, imf := imfAll }
  | 0x0D => some { build := .vsar, d := .fixedLatency, a := .operand, b := .operand, dts := dtIpk, imf := imfAll }
  | 0x0E => some { build := .vmin, d := .fixedLatency, a := .operand, b := .operand, dts := dtIpk, imf := imfAll }
  | 0x0F => some { build := .vmax, d := .fixedLatency, a := .operand, b := .operand, dts := dtIpk, imf := imfAll }
  | 0x10 => some { build := .vabs, d := .fixedLatency, a := .operand, dts := dtS }
  | 0x11 => some { build := .vneg, d := .fixedLatency, a := .operand, dts := dtS }
  | 0x12 => some { build := .vcmp, d := .compare false, a := .operand, b := .operand, dts := dtIpk, imf := imfAll }
  | 0x13 => some { build := .vsel, d := .fixedLatency, a := .operand, b := .operand, c := .predicate, imf := imfAll }
  | 0x14 => some { build := .vpopc, d := .fixedLatency, a := .operand }
  | 0x15 => some { build := .vclz, d := .fixedLatency, a := .operand }
  | 0x16 => some { build := .vbfe, d := .fixedLatency, a := .operand, b := .operand, dts := [.s32, .z32], imf := imfAll }
  | 0x17 => some { build := .vbfi, d := .fixedLatency, a := .operand, b := .operand, c := .operand, imf := imfAll }
  | 0x18 => some { build := .vpack, d := .fixedLatency, a := .operand, b := .operand, dts := [.s8, .s16, .z8, .z16], sat := true }
  | 0x19 => some { build := .vunpk, d := .fixedLatency, a := .operand, dts := [.s16, .s32, .z16, .z32], x := [0, 1, 2, 3] }
  | _ => none

/-- The source types VCVT's EXT names (R81). -/
def extCvt (e : Nat) : Bool := e ≤ 0x10 && e != 3 && e != 7

/-- Class 0x1, vector float. -/
def cRow1 : Nat → Option CRow
  | 0x00 => some { build := .vfadd, d := .fixedLatency, a := .operand, b := .operand, dts := dtF, rm := true, imf := imfAll }
  | 0x01 => some { build := .vfsub, d := .fixedLatency, a := .operand, b := .operand, dts := dtF, rm := true, imf := imfAll }
  | 0x02 => some { build := .vfmul, d := .fixedLatency, a := .operand, b := .operand, dts := dtF, rm := true, imf := imfAll }
  | 0x03 => some { build := .vfma, d := .fixedLatency, a := .operand, b := .operand, c := .operand, dts := dtF, rm := true, imf := imfAll }
  | 0x04 => some { build := .vfmin, d := .fixedLatency, a := .operand, b := .operand, dts := dtF, imf := imfAll }
  | 0x05 => some { build := .vfmax, d := .fixedLatency, a := .operand, b := .operand, dts := dtF, imf := imfAll }
  | 0x06 => some { build := .vfabs, d := .fixedLatency, a := .operand, dts := dtF }
  | 0x07 => some { build := .vfneg, d := .fixedLatency, a := .operand, dts := dtF }
  | 0x08 => some { build := .vfcmp, d := .compare true, a := .operand, b := .operand, dts := dtF, imf := imfAll }
  | 0x09 => some { build := .vfclass, d := .fixedLatency, a := .operand, dts := dtF }
  | 0x0A => some { build := .vcvt, d := .fixedLatency, a := .operand, dts := dtIpk ++ dtF ++ dtNarrow ++ [.ocp8a, .ocp8b],
                   rm := true, sat := true, ext := extCvt }
  | 0x0B => some { build := .vqnt, d := .fixedLatency, a := .operand, b := .operand,
                   dts := [.s8, .s16, .z8, .z16, .f16, .bf16] ++ dtNarrow, rm := true, sat := true, imf := imfAll }
  | 0x0C => some { build := .vdqnt, d := .fixedLatency, a := .operand, b := .operand,
                   dts := [.s8, .s16, .z8, .z16] ++ dtNarrow, rm := true, imf := imfNoBank, x := [0, 1, 2] }
  | 0x0D => some { build := .vscalb, d := .fixedLatency, a := .operand, b := .operand, dts := dtF, rm := true, sat := true, imf := imfAll }
  | _ => none

/-- Class 0x2, special functions. -/
def cRow2 : Nat → Option CRow
  | 0x00 => some { build := .vexp2, d := .fixedLatency, a := .operand, dts := [.f32], rm := true }
  | 0x01 => some { build := .vlog2, d := .fixedLatency, a := .operand, dts := [.f32], rm := true }
  | 0x02 => some { build := .vrcp, d := .fixedLatency, a := .operand, dts := [.f32], rm := true }
  | 0x03 => some { build := .vrsq, d := .fixedLatency, a := .operand, dts := [.f32], rm := true }
  | 0x04 => some { build := .vsqrt, d := .fixedLatency, a := .operand, dts := [.f32], rm := true }
  | 0x05 => some { build := .vtanh, d := .fixedLatency, a := .operand, dts := [.f32], rm := true }
  | 0x06 => some { build := .vsin, d := .fixedLatency, a := .operand, dts := [.f32], rm := true }
  | 0x07 => some { build := .vcos, d := .fixedLatency, a := .operand, dts := [.f32], rm := true }
  | _ => none

/-- Class 0x3, cross-lane and moves. -/
def cRow3 : Nat → Option CRow
  | 0x00 => some { build := .vshuf, d := .fixedLatency, a := .operand, b := .operand, imf := imfAll }
  | 0x01 => some { build := .vshfl, d := .fixedLatency, a := .operand, b := .operand, imf := imfNoBank, x := [0, 1, 2] }
  | 0x02 => some { build := .vvote, d := .fixedLatency, a := .predicate, x := [0, 1, 2, 3] }
  | 0x03 => some { build := .vred, d := .fixedLatency, a := .operand, dts := [.s32, .z32, .f32], rm := true, ext := (· ≤ 5) }
  | 0x04 => some { build := .vscan, d := .fixedLatency, a := .operand, dts := [.s32, .z32, .f32], rm := true,
                   x := [0, 1], ext := (· ≤ 5) }
  | 0x05 => some { build := .vbcast, d := .fixedLatency, a := .operand, b := .operand, imf := imfAll }
  | 0x06 => some { build := .settw, b := .operand, np := true, imf := imfAll }
  | 0x07 => some { build := .vmov, d := .fixedLatency, b := .operand, imf := imfAll }
  | 0x08 => some { build := .vrand, d := .vectorOnly, a := .operand, c := .operand, imf := [2] }
  | _ => none

/-- Class 0x4, lane memory. -/
def cRow4 : Nat → Option CRow
  | 0x00 => some { build := .vldx, d := .vectorOnly, a := .operand, b := .operand, dts := dtIpk, tk := true, imf := imfNoBank }
  | 0x01 => some { build := .vstx, d := .source, a := .operand, b := .operand, c := .operand, dts := dtIpk, imf := imfNoBank,
                   x := [0, 1] }
  | 0x02 => some { build := .vamo, d := .vectorOnly, a := .operand, b := .operand, c := .operand, dts := [.s32, .z32, .f32],
                   tk := true, ext := (fun e => e ≤ 9 || e == 16) }
  | 0x03 => some { build := .spld, d := .vectorOnly, a := .operand, b := .operand, dts := dtIpk, tk := true, imf := imfNoBank }
  | 0x04 => some { build := .spst, a := .operand, b := .operand, c := .operand, dts := dtIpk, imf := imfNoBank }
  | 0x05 => some { build := .spamo, d := .vectorOnly, a := .operand, b := .operand, c := .operand, dts := [.s32, .z32],
                   tk := true, ext := (· ≤ 9) }
  | 0x06 => some { build := .std, a := .operand }
  | 0x07 => some { build := .senda, a := .operand, x := [0, 1, 2, 3] }
  | 0x08 => some { build := .acld, d := .vectorOnly, a := .operand, b := .operand, tk := true, imf := imfNoBank }
  | 0x09 => some { build := .acst, a := .operand, b := .operand, c := .operand, imf := imfNoBank }
  | _ => none

/-- Class 0x5, synchronisation. -/
def cRow5 : Nat → Option CRow
  | 0x00 => some { build := .cwait, b := .operand, tk := true, np := true, imf := imfNoBank, x := [0, 1] }
  | 0x01 => some { build := .carv, b := .operand, np := true, imf := imfAll }
  | _ => none

/-- Class 0x6, matrix. -/
def cRow6 : Nat → Option CRow
  | 0x00 => some { build := .mxloop, a := .vector, b := .parameter, c := .increment, dts := dtMatrix, ru := true, np := true,
                   x := [0, 1, 2], ext := (fun e => e % 16 == 0) }
  | 0x01 => some { build := .mxgrp, a := .vector, b := .parameter, c := .increment, dts := dtMatrix, ru := true, np := true,
                   x := [0, 1, 2], ext := (fun e => e % 256 == 0) }
  | 0x02 => some { build := .mxzero, b := .operand, np := true, imf := imfNoBank, x := [0, 1, 2] }
  | 0x03 => some { build := .accvt, d := .vectorOnly, a := .operand, b := .parameter, dts := dtIpk ++ dtF ++ dtNarrow,
                   rm := true, sat := true, tk := true, x := [0, 1, 2], ext := (fun e => e == 8 || e == 9 || e == 16) }
  | _ => none

/-- The operator and element type pairs of the window operator table (R294): operators 0 ADD, 1 MUL, 2 MAX, 3 MIN,
4 AND, 5 OR, 6 XOR, 7 ARGMAX, 8 ARGMIN, 9 AFFINE. -/
def windowPair (op : Nat) (t : Ty) : Bool :=
  match op with
  | 0 | 2 | 3 => [Ty.s32, .f32].contains t
  | 4 | 5 | 6 => [Ty.s32, .z32].contains t
  | 1 | 7 | 8 | 9 => t == .f32
  | _ => false

/-- Class 0x7, window. -/
def cRow7 : Nat → Option CRow
  | 0x00 => some { build := .winit, b := .operand, dts := [.f32, .s32, .z32], rm := true, np := true, imf := [0, 2, 3],
                   ext := (fun e => e < 2 ^ 17) }
  | 0x01 => some { build := .wpush, a := .operand, c := .operand, ext := (· < 8) }
  | 0x02 => some { build := .wqry, d := .vectorOnly, tk := true, ext := (· < 8) }
  | 0x03 => some { build := .wsetw, b := .operand, np := true, imf := [0, 2, 3], ext := (· < 8) }
  | 0x04 => some { build := .wfree, np := true, ext := (· < 8) }
  | 0x05 => some { build := .wstat, d := .vectorOnly, tk := true, ext := (· < 32) }
  | _ => none

/-- XUNPK's EXT: a width of 1 to 16 and a first bit that keep within 32 bits (R81). -/
def extUnpack (e : Nat) : Bool :=
  let w := e % 32
  let first := e / 32 % 32
  e < 1024 && 1 ≤ w && w ≤ 16 && w + first ≤ 32

/-- Class 0x8, transform pipe. -/
def cRow8 : Nat → Option CRow
  | 0x00 => some { build := .xunpk, d := .vectorOnly, a := .operand, b := .operand, dts := dtIpk ++ [.f16, .bf16], tk := true,
                   ext := extUnpack }
  | 0x01 => some { build := .xdec, d := .vectorOnly, b := .operand, dts := dtIpk, tk := true, imf := [0, 2], ext := (· ≤ 1) }
  | 0x02 => some { build := .xlut, d := .vectorOnly, a := .operand, b := .operand, dts := dtIpk ++ dtF, tk := true,
                   imf := [0, 2], ext := (· < 8) }
  | _ => none

/-- Class 0x9, system. -/
def cRow9 : Nat → Option CRow
  | 0x00 => some { build := .vdcls, d := .vectorOnly, a := .operand, b := .operand, c := .predicate, tk := true, imf := imfNoBank }
  | 0x01 => some { build := .vlblrd, d := .fixedLatency, a := .operand }
  | 0x02 => some { build := .vlblup, d := .fixedLatency, a := .operand, b := .operand, imf := imfAll }
  | 0x03 => some { build := .vsys, d := .vectorOnly, a := .vector, tk := true, x := [0, 1, 2, 3] }
  | 0x04 => some { build := .vbrk, np := true, ext := (· < 2 ^ 16) }
  | _ => none

/-- The row of a class and OP value (R79, R81). VSTX.NOTIFY and VAMO.DET are the forms of VSTX and VAMO that X and EXT
select; they have constructors of their own. -/
def cRow (cls op : Nat) : Option CRow :=
  match cls with
  | 0 => cRow0 op | 1 => cRow1 op | 2 => cRow2 op | 3 => cRow3 op | 4 => cRow4 op
  | 5 => cRow5 op | 6 => cRow6 op | 7 => cRow7 op | 8 => cRow8 op | 9 => cRow9 op
  | _ => none

/-- The IMF code of an immediate (R67). -/
def Imm.code : Imm → Nat
  | .none => 0 | .i20 _ => 1 | .lit _ => 2 | .k _ => 3

/-- A source slot's field is acceptable (R70). -/
def Slot.ok (s : Slot) (v : BitVec 10) : Bool :=
  match s with
  | .unused => true
  | .operand => v.toNat ≤ 782
  | .vector | .increment => v.toNat ≤ 767
  | .parameter => v.toNat ≤ 775
  | .predicate => v.toNat < 8

/-- The DST field is acceptable (R14, R70, R81). -/
def DSlot.ok (s : DSlot) (v : BitVec 10) : Bool :=
  match s with
  | .unused => true
  | .fixedLatency => v.toNat ≤ 775
  | .vectorOnly => v.toNat ≤ 767
  | .source => v.toNat ≤ 775
  | .compare un => v.toNat < 64 && (v.toNat / 8 < 6 || (un && v.toNat / 8 == 6))

/-- The SC slot of an instruction: only CAS of VAMO and SPAMO has a comparand (R236, R243). -/
def CRow.slotC (r : CRow) (f : CFields) : Slot :=
  match r.build f with
  | .vamo _ | .spamo _ => if f.ext.toNat % 16 = 9 then r.c else .unused
  | _ => r.c

/-- The DST slot of an instruction: VSTX reads it only with X = 01 (R235), VAMO.DET does not write it (R238). -/
def CRow.slotD (r : CRow) (f : CFields) : DSlot :=
  match r.build f with
  | .vstx _ => if f.x == 0#2 then .unused else r.d
  | .vamo _ => if f.ext.toNat == 16 then .unused else r.d
  | _ => r.d

/-- The SB slot: an immediate takes its place. -/
def CRow.slotB (r : CRow) (f : CFields) : Slot := if f.imm.code == 0 then r.b else .unused

/-- What a row further asks of fields taken together: the DET bit of VAMO only with F32 and ADD, no bitwise or unsigned
operation of VAMO on F32 (R236), the operators of VRED and VSCAN with F32, RM only with F32 there, the pairs of WINIT, and
the parts of VUNPK (R207). -/
def CRow.joint (i : Instr) (f : CFields) : Option Reject :=
  match i with
  | .vunpk _ => if f.dt.isHalf && 2 ≤ f.x.toNat then some .xField else none
  | .vred _ | .vscan _ =>
    if f.dt == .f32 then (if f.ext.toNat < 3 then none else some .extField)
    else if f.rm == .rne then none else some .undefinedField
  | .vamo _ =>
    if f.ext.toNat == 16 then (if f.dt != .f32 then some .extField else none)
    else if f.dt == .f32 && [1, 2, 3, 6, 7].contains f.ext.toNat then some .extField else none
  | .winit _ =>
    if !windowPair (f.ext.toNat / 8 % 16) f.dt then some .typeField
    else if f.dt != .f32 && f.rm != .rne then some .undefinedField else none
  | _ => none

/-- The first rule of R81 that the fields break against a row, if any. -/
def CRow.check (r : CRow) (f : CFields) : Option Reject :=
  if !r.dts.contains f.dt then some .typeField
  else if (!r.rm && f.rm != .rne) || (!r.sat && f.sat) || (!r.ru && f.ru) || (!r.tk && f.tk != 0#4)
      || (r.np && (f.pr != 0#3 || f.pn)) then some .undefinedField
  else if !r.imf.contains f.imm.code then some .immediateForm
  else if !r.x.contains f.x.toNat then some .xField
  else if f.imm.code != 1 && !r.ext f.ext.toNat then some .extField
  else if !r.a.ok f.sa || !(r.slotB f).ok f.sb || !(r.slotC f).ok f.sc then some .sourceCode
  else if !(r.slotD f).ok f.dst then some .destCode
  else CRow.joint (r.build f) f

/-- The fields that the immediate form takes over are zero: EXT under IMM20, SB and X under a constant-bank index. -/
def CFields.canonical (f : CFields) : Bool :=
  match f.imm with
  | .i20 _ => f.ext == 0#20
  | .k _ => f.sb == 0#10 && f.x == 0#2
  | _ => true

/-- The class and OP value of a compute-stream instruction of three or four parcels, with its fields. -/
def Instr.cForm : Instr → Option (Nat × Nat × CFields)
  | .vadd f => some (0, 0x00, f) | .vsub f => some (0, 0x01, f) | .vmul f => some (0, 0x02, f)
  | .vmulhi f => some (0, 0x03, f) | .vmad f => some (0, 0x04, f) | .vadds f => some (0, 0x05, f)
  | .vsubs f => some (0, 0x06, f) | .vand f => some (0, 0x07, f) | .vor f => some (0, 0x08, f)
  | .vxor f => some (0, 0x09, f) | .vnot f => some (0, 0x0A, f) | .vshl f => some (0, 0x0B, f)
  | .vshr f => some (0, 0x0C, f) | .vsar f => some (0, 0x0D, f) | .vmin f => some (0, 0x0E, f)
  | .vmax f => some (0, 0x0F, f) | .vabs f => some (0, 0x10, f) | .vneg f => some (0, 0x11, f)
  | .vcmp f => some (0, 0x12, f) | .vsel f => some (0, 0x13, f) | .vpopc f => some (0, 0x14, f)
  | .vclz f => some (0, 0x15, f) | .vbfe f => some (0, 0x16, f) | .vbfi f => some (0, 0x17, f)
  | .vpack f => some (0, 0x18, f) | .vunpk f => some (0, 0x19, f)
  | .vfadd f => some (1, 0x00, f) | .vfsub f => some (1, 0x01, f) | .vfmul f => some (1, 0x02, f)
  | .vfma f => some (1, 0x03, f) | .vfmin f => some (1, 0x04, f) | .vfmax f => some (1, 0x05, f)
  | .vfabs f => some (1, 0x06, f) | .vfneg f => some (1, 0x07, f) | .vfcmp f => some (1, 0x08, f)
  | .vfclass f => some (1, 0x09, f) | .vcvt f => some (1, 0x0A, f) | .vqnt f => some (1, 0x0B, f)
  | .vdqnt f => some (1, 0x0C, f) | .vscalb f => some (1, 0x0D, f)
  | .vexp2 f => some (2, 0x00, f) | .vlog2 f => some (2, 0x01, f) | .vrcp f => some (2, 0x02, f)
  | .vrsq f => some (2, 0x03, f) | .vsqrt f => some (2, 0x04, f) | .vtanh f => some (2, 0x05, f)
  | .vsin f => some (2, 0x06, f) | .vcos f => some (2, 0x07, f)
  | .vshuf f => some (3, 0x00, f) | .vshfl f => some (3, 0x01, f) | .vvote f => some (3, 0x02, f)
  | .vred f => some (3, 0x03, f) | .vscan f => some (3, 0x04, f) | .vbcast f => some (3, 0x05, f)
  | .settw f => some (3, 0x06, f) | .vmov f => some (3, 0x07, f) | .vrand f => some (3, 0x08, f)
  | .vldx f => some (4, 0x00, f) | .vstx f => some (4, 0x01, f) | .vstxNotify f => some (4, 0x01, f)
  | .vamo f => some (4, 0x02, f) | .vamoDet f => some (4, 0x02, f) | .spld f => some (4, 0x03, f)
  | .spst f => some (4, 0x04, f) | .spamo f => some (4, 0x05, f) | .std f => some (4, 0x06, f)
  | .senda f => some (4, 0x07, f) | .acld f => some (4, 0x08, f) | .acst f => some (4, 0x09, f)
  | .cwait f => some (5, 0x00, f) | .carv f => some (5, 0x01, f)
  | .mxloop f => some (6, 0x00, f) | .mxgrp f => some (6, 0x01, f) | .mxzero f => some (6, 0x02, f)
  | .accvt f => some (6, 0x03, f)
  | .winit f => some (7, 0x00, f) | .wpush f => some (7, 0x01, f) | .wqry f => some (7, 0x02, f)
  | .wsetw f => some (7, 0x03, f) | .wfree f => some (7, 0x04, f) | .wstat f => some (7, 0x05, f)
  | .xunpk f => some (8, 0x00, f) | .xdec f => some (8, 0x01, f) | .xlut f => some (8, 0x02, f)
  | .vdcls f => some (9, 0x00, f) | .vlblrd f => some (9, 0x01, f) | .vlblup f => some (9, 0x02, f)
  | .vsys f => some (9, 0x03, f) | .vbrk f => some (9, 0x04, f)
  | _ => none

/-- The constructor that X and EXT select where one class and OP value serves two rows of the opcode table. -/
def CRow.select (i : Instr) : Instr :=
  match i with
  | .vstx f => if f.x == 1#2 then .vstxNotify f else i
  | .vamo f => if f.ext.toNat == 16 then .vamoDet f else i
  | _ => i

end Sys2Proof
end

