-- ==== Sys2Proof/Machine/Operands.lean ====
section
/-! DEFINITION. The operands of compute-stream instructions: which lanes an issue writes and under which label, every
source form (registers, run temporaries, queue heads, constants, immediates), and the writes of fixed latency (R14-R25,
R70-R72, R117-R120, R195-R198, R226, R311). -/

namespace Sys2Proof

/-- The operand code of a slot that holds one. -/
def Slot.code (s : Slot) (v : BitVec 10) : List Nat :=
  match s with
  | .operand | .vector | .parameter => [v.toNat]
  | _ => []

/-- The operand codes an instruction names, in the order SA, SB, SC (R71). -/
def CRow.sources (r : CRow) (f : CFields) : List Nat :=
  r.a.code f.sa ++ (r.slotB f).code f.sb ++ (r.slotC f).code f.sc

/-- The operand codes are below VREGS where they name vector registers (R13, R70). -/
def CRow.codesOk (r : CRow) (f : CFields) (vregs : Nat) : Bool :=
  let ok (c : Nat) : Bool := decide (c < vregs) || decide (768 ≤ c)
  (r.sources f).all ok && (match r.slotD f with
    | .fixedLatency | .vectorOnly | .source => ok f.dst.toNat
    | _ => true)

end Sys2Proof

namespace Sys2Proof.Machine

/-- The path entry that stands where there is none. -/
def Path.none : Path := { pos := 0, qmask := 0, lmask := 0#32 }

/-- The path that moves. -/
def State.path (s : State) : Path := s.grp.paths.get Path.none s.curPath

def State.setPath (s : State) (p : Path) : State := s.setGrp { s.grp with paths := s.grp.paths.put s.curPath p }

/-- The quads of a mask. -/
def quadSet (m : Nat) : List Nat := (List.range 8).filter (bitOf m)

/-- The lanes of a mask of quads. -/
def quadLanes (m : Nat) : Word := BitVec.ofNat 32 (maskOf 32 (fun l => bitOf m (l / 4)))

/-- The launched lanes of a group (R6). -/
def Group.launched (g : Group) : Word := BitVec.ofNat 32 (2 ^ g.lanes - 1)

/-- The quads that hold a launched lane. -/
def Group.launchedQuads (g : Group) : Nat := maskOf 8 (fun q => decide (4 * q < g.lanes))

/-- Read a predicate register: p0 is all ones with the empty label (R12). -/
def Group.pred (g : Group) (k : Nat) : PReg := if k = 0 then { mask := BitVec.allOnes 32 } else g.preds.get {} k

/-- The lanes of an entry that are active: its quads' launched lanes in LMASK (R25). -/
def Group.active (g : Group) (p : Path) : Word := p.lmask &&& g.launched &&& quadLanes p.qmask

/-- The lanes that an issue writes (R25). -/
def Group.writtenLanes (g : Group) (p : Path) (f : CFields) : Word :=
  let m := (g.pred f.pr.toNat).mask
  g.active p &&& (if f.pn then ~~~ m else m)

/-- Whether one issue writes every launched lane: the condition of a full write (R120). -/
def Group.fullIssue (g : Group) (p : Path) (f : CFields) : Bool :=
  f.pr == 0#3 && !f.pn && g.active p == g.launched
    && (List.range 8).all (fun q => !bitOf g.launchedQuads q || (bitOf p.qmask q && (g.quad q).st == .live))

/-- The run labels of the quads of a mask (R119). -/
def Group.runLabel (g : Group) (m : Nat) : Label := Label.joinAll ((quadSet m).map (fun q => (g.quad q).rl))

/-- The context label K of an issue of the path (R117). -/
def Group.kLabel (g : Group) (p : Path) (f : CFields) : Label :=
  ((topLabel p.pls).join (g.runLabel p.qmask)).join (g.pred f.pr.toNat).lbl

/-- A free word: what the manual leaves open at this step (log 12). -/
def freeWord (fr i : Nat) : Word := BitVec.ofNat 32 (ofBytes ((List.range 4).map (fun j => Config.freeByte fr (4 * i + j))))

/-- The key of a quad's part of a run temporary. -/
def tempKey (t q : Nat) : Nat := 8 * t + q

/-- A value as an instruction reads it: 32 lane words and their label. -/
structure Operand where
  lanes : List Word
  lbl : Label
deriving DecidableEq, Repr

/-- The entry of load queue `k` that is `n` pops past the head of quad `q` (R18, R71). -/
def Group.headEntry (g : Group) (k q n : Nat) : Option LQEntry :=
  let l := g.lq k
  let i := (g.quad q).lqHead.get 0 k + n
  if i < l.base then none else l.entries[i - l.base]?

/-- Read an operand code for the quads of `qmask` (R70). `pops` entries of the queue are popped before this one; a run
temporary carries the labels of the quads of `tmask`. A queue gives each popping quad its own four lanes; what a lane of
no popping quad reads there is free (R18 gives no word; log 12). -/
def Group.readCode (g : Group) (fr qmask tmask pops code : Nat) : Operand :=
  if code < 768 then
    let v := g.vregs.get {} code
    { lanes := v.lanes, lbl := v.lbl }
  else if code < 776 then
    { lanes := lanesOf (fun l => (g.temps.get {} (tempKey (code - 768) (l / 4))).lanes.getD (l % 4) 0#32),
      lbl := Label.joinAll ((quadSet tmask).map (fun q => (g.temps.get {} (tempKey (code - 768) q)).lbl)) }
  else if code < 780 then
    let e (q : Nat) : Option LQEntry := g.headEntry (code - 776) q pops
    { lanes := lanesOf (fun l =>
        if bitOf qmask (l / 4) then (match e (l / 4) with | some x => laneAt x.data l | none => 0#32) else freeWord fr l),
      lbl := Label.joinAll ((quadSet qmask).map (fun q => match e q with | some x => x.lbl | none => 0#16)) }
  else
    { lanes := lanesOf (fun l => if code = 781 then BitVec.ofNat 32 l else if code = 782 then BitVec.ofNat 32 (l / 4) else 0#32),
      lbl := 0#16 }

/-- An IMM20 as the operand word W of R72; the type is that of the operand it replaces (R196). -/
def immWord (t : Option Ty) (rm : RM) (v : BitVec 20) : Word :=
  let fp : Nat := v.toNat * 4096
  let s : Nat := (v.signExtend 32).toNat
  let copies (w x : Nat) : Word := BitVec.ofNat 32 ((List.range (32 / w)).foldl (fun a i => a + x % 2 ^ w * 2 ^ (w * i)) 0)
  match t with
  | some .f32 => BitVec.ofNat 32 fp
  | some .f16 => copies 16 (convertTy .f32 .f16 rm false fp)
  | some .bf16 => copies 16 (convertTy .f32 .bf16 rm false fp)
  | some .s8 | some .z8 => copies 8 s
  | some .s16 | some .z16 => copies 16 s
  | _ => BitVec.ofNat 32 s

/-! ## Source slots and pops -/

/-- Whether a code names a load queue. -/
def isQueue (c : Nat) : Bool := decide (776 ≤ c) && decide (c < 780)

/-- What stands at the heads that an instruction pops. -/
inductive Pops where
  | ready
  | wait (code : Nat)
  | poison (q : Nat) (e : LQEntry)
deriving DecidableEq, Repr

/-- The pop of one naming of queue `k`, `n` entries past each head: it waits while an entry is not allocated (code 2 of
R326) or not present, and faults on a poisoned one (R321, R330). -/
def Group.popAt (g : Group) (qmask k n : Nat) : Pops :=
  (quadSet qmask).foldl (fun a q => match a with
    | .ready =>
      match g.headEntry k q n with
      | none => .wait 2
      | some e => if e.poison.isSome then .poison k e else if e.present then .ready else .wait 0x102
    | x => x) .ready

/-- The pops of an instruction, in the order of its slots (R71). -/
def Group.popsOf (g : Group) (qmask : Nat) (codes : List Nat) : Pops :=
  (codes.zipIdx).foldl (fun a c => match a with
    | .ready => if isQueue c.1 then g.popAt qmask (c.1 - 776) ((codes.take c.2).count c.1) else .ready
    | x => x) .ready

/-- Entries of RQ and the load queues that every quad that has not ended has consumed are released (R18). With no quad left
that is every entry, before and behind the poisoned ones, which stay in their queues (R331). -/
def Group.trim (g : Group) : Group :=
  let gone (f : Quad → Nat) (base len : Nat) : Nat :=
    match (g.unended.map (fun q => f (g.quad q))).min? with
    | some m => min (m - base) len
    | none => len
  let n := gone (·.rqHead) g.rqBase g.rq.length
  let trimQ (q : Nat) (l : LQueue) : LQueue :=
    let left := if g.unended.isEmpty then l.entries.filter (fun e => e.poison.isSome)
      else l.entries.drop (gone (fun x => x.lqHead.get 0 q) l.base l.entries.length)
    { base := l.base + (l.entries.length - left.length), entries := left }
  { g with rqBase := g.rqBase + n, rq := g.rq.drop n,
           lqs := [0, 1, 2, 3].foldl (fun t q => t.set {} q (trimQ q (t.get {} q))) g.lqs }

/-- A yield marker in RQ when every quad has ended: the group is at its yield point (R190), with the hint of the last. -/
def Group.endYield (g : Group) (pending : Bool) : Group :=
  match g.unended, g.rq.reverse.findSome? (fun e => match e with | .marker h => some h | _ => none) with
  | [], some h => { g with hint := some h, atYield := pending || g.atYield }
  | _, _ => g

/-- Change the quads of a mask. -/
def Group.mapQuads (g : Group) (qmask : Nat) (f : Nat → Quad → Quad) : Group :=
  { g with quads := g.quads.zipIdx.map (fun e => if bitOf qmask e.2 then f e.2 e.1 else e.1) }

/-- Make the pops of an instruction for every quad of a mask (R20, R71). -/
def Group.pop (g : Group) (qmask : Nat) (codes : List Nat) : Group :=
  if codes.any isQueue then
    (g.mapQuads qmask (fun _ x =>
      { x with lqHead := [0, 1, 2, 3].foldl (fun t k => t.set 0 k (t.get 0 k + codes.count (776 + k))) x.lqHead })).trim
  else g

/-! ## Writes -/

/-- A register image with the lanes of a mask replaced. -/
def mergeLanes (mask : Word) (old new : List Word) : List Word :=
  lanesOf (fun l => if mask.getLsbD l then laneAt new l else laneAt old l)

/-- Write lanes of a vector register, with its new label (R120). -/
def Group.writeVreg (g : Group) (n : Nat) (mask : Word) (vals : List Word) (full : Bool) (lbl : Label) : Group :=
  let v := g.vregs.get {} n
  { g with vregs := g.vregs.set {} n { lanes := mergeLanes mask v.lanes vals, lbl := writtenLabel full v.lbl lbl } }

/-- Write lanes of a run temporary (R14, R120): a write that is not full raises the label of the register, which every quad
then reads until its next run begins (log 14). -/
def Group.writeTemp (g : Group) (n qmask : Nat) (mask : Word) (vals : List Word) (full : Bool) (lbl : Label) : Group :=
  { g with temps := (List.range 8).foldl (fun t q =>
      let v := t.get {} (tempKey n q)
      t.set {} (tempKey n q)
        { lanes := (List.range 4).map (fun i => if bitOf qmask q && mask.getLsbD (4 * q + i) then laneAt vals (4 * q + i) else v.lanes.getD i 0#32),
          lbl := writtenLabel full v.lbl lbl }) g.temps }

/-- Write bits of a predicate register; p0 discards them (R12, R203). -/
def Group.writePred (g : Group) (k : Nat) (mask bits : Word) (full : Bool) (lbl : Label) : Group :=
  if k = 0 then g
  else
    let v := g.pred k
    { g with preds := g.preds.set {} k { mask := (v.mask &&& ~~~ mask) ||| (bits &&& mask), lbl := writtenLabel full v.lbl lbl } }

/-- Land a write of fixed latency (R311): value and label in one step. -/
def Group.land (g : Group) (w : FxWrite) : Group :=
  match w.dst with
  | .reg c =>
    if c < 768 then g.writeVreg c w.mask w.vals w.full w.lbl else g.writeTemp (c - 768) w.qmask w.mask w.vals w.full w.lbl
  | .pred k => g.writePred k w.mask (w.vals.getD 0 0#32) w.full w.lbl
  | .tilew => { g with tilew := (w.vals.getD 0 0#32).toNat }

/-- Whether a write belongs to the path of a mask of quads. -/
def FxWrite.ofPath (w : FxWrite) (qmask : Nat) : Bool := w.qmask &&& qmask != 0

/-- Add a write of fixed latency; one that would land before an older write of the same register lands with it (R311). -/
def Group.schedule (g : Group) (w : FxWrite) : Group :=
  let older := g.fx.filter (fun x => x.dst == w.dst && x.ofPath w.qmask)
  { g with fx := g.fx ++ [{ w with left := older.foldl (fun m x => max m x.left) w.left }] }

/-- `n` issue cycles of a path pass: its writes that are due land, oldest first (R310, R311). -/
def Group.tick (g : Group) (qmask n : Nat) : Group :=
  let aged := g.fx.map (fun w => if w.ofPath qmask then { w with left := w.left - n } else w)
  let due (w : FxWrite) : Bool := w.ofPath qmask && w.left == 0
  (aged.filter due).foldl Group.land { g with fx := aged.filter (fun w => !due w) }

end Sys2Proof.Machine
end

