-- ==== Sys2Proof/Machine/Trace.lean ====
section
/-! DEFINITION. The trace unit of a core: when it writes, and how a record enters the ring; its performance counters; when
breakpoints, steps and the bell let a slice issue (R376, R439-R445). -/

namespace Sys2Proof.Machine

/-- A register of a core's debug block, by its offset (R439). -/
def Core.reg (c : Core) (off : Nat) : Nat := (c.regs.get 0#64 off).toNat

/-- Set a register of the debug block. -/
def Core.setReg (c : Core) (off : Nat) (v : Nat) : Core := { c with regs := c.regs.set 0#64 off (BitVec.ofNat 64 v) }

/-- Whether the unit of a core makes records of a context, of the kind that enable bit `bit` of TRCCTL turns on. -/
def State.tracing (s : State) (core ctx bit : Nat) : Bool :=
  let c := s.core core
  bitOf (c.reg 0) 0 && bitOf (c.reg 0) bit && c.reg 0 / 2 ^ 48 == ctx

/-- The 64 bytes of a record (R441). -/
def traceBytes (kind core who pidx sfl teamix lmask ppos apc cycle value : Nat) : List Byte :=
  bytesOf kind 1 ++ bytesOf core 1 ++ bytesOf who 1 ++ bytesOf pidx 1 ++ bytesOf sfl 1 ++ bytesOf 0 3 ++ bytesOf teamix 4
    ++ bytesOf lmask 4 ++ bytesOf ppos 8 ++ bytesOf apc 8 ++ bytesOf cycle 8 ++ bytesOf value 8 ++ bytesOf 0 16

/-- Raise LOSTN of TRCSTA by one, saturating. -/
def Core.lostRecord (c : Core) : Core :=
  let v := c.reg 8
  c.setReg 8 (if v / 2 ^ 32 = 2 ^ 32 - 1 then v else v + 2 ^ 32)

/-- Write a record at TRCWP, or drop it with FULL set when TRCWP would reach TRCRP; a unit that does not run only counts
the record as lost (R440). -/
def State.traceWrite (s : State) (core : Nat) (bs : List Byte) : State :=
  let c := s.core core
  let wp := c.reg 0x20
  let next := (wp + 64) % (c.reg 0x18 * 65536)
  if !bitOf (c.reg 8) 0 then s.setCore core c.lostRecord
  else if next = c.reg 0x28 then
    s.setCore core (let c1 := c.lostRecord; c1.setReg 8 (c1.reg 8 ||| 4))
  else
    (s.deviceWrite (c.reg 0 / 2 ^ 48) (c.reg 0x10 + wp) bs).setCore core (c.setReg 0x20 next)

/-- The record of a RET (R164, R441) or of MARK.USER (R193) made by the group that moves; `l` is the label of the
value of a user record, whose value is masked when it or P_A is not empty. The address slice has no path: PIDX, LMASK, PPOS,
ISSUED and the stall reason of its records are zero (log 37). -/
def State.traceA (s : State) (kind : Nat) (value : DWord) (l : Label) : State :=
  let t := s.tm
  let g := s.grp
  if s.tracing t.core (s.ctxOf s.cur) (if kind = 2 then 1 else 2) then
    let path := g.pA != 0#16
    let masked := path || l != 0#16
    s.traceWrite t.core (traceBytes kind t.core (g.sched + 4 * g.gidx) 0 (if masked then 64 else 0) t.teamix 0 0
      (if path then 0 else g.apc.toNat) s.cycle (if masked && kind == 2 then 0 else value.toNat))
  else s

/-! ## Performance counters -/

/-- The counters of the active event set that count an event code rise by `n` (R442). -/
def Core.pmAdd (c : Core) (code n : Nat) : Core :=
  (List.range 8).foldl (fun d i =>
    if fieldAt (bytesOf (c.reg (0x108 + 8 * c.pmset)) 8) i 1 = code then
      let r := 0x400 + 24 * (8 * c.pmset + i)
      d.setReg r (d.reg r + n)
    else d) c

/-- An event of a group is counted when its core counts its context (R442). -/
def State.pmGroup (s : State) (k code n : Nat) : State :=
  let core := (s.team (teamOf k)).core
  let c := s.core core
  if bitOf (c.reg 0x100) 0 && c.reg 0x100 / 2 ^ 48 == s.ctxOf k then s.setCore core (c.pmAdd code n) else s

/-- The event codes that count cycles lost, the length of which the manual does not give (R442; log 4). The cycles of codes
0x09 and 0x0A it gives (R240, R297), and they are counted where they are lost. -/
def stallCodes : List Nat := [0x05, 0x07, 0x0C, 0x0D]

/-- `n` cycles pass at a core's counters (R442): all of them are enabled, the active set runs. `lost` gives the cycles of
the codes that count lost cycles. -/
def Core.pmTick (c : Core) (n : Nat) (lost : Nat → Nat) : Core :=
  if !bitOf (c.reg 0x100) 0 then c
  else
    let up (d : Core) (r : Nat) : Core := d.setReg r (d.reg r + n)
    let c1 := (List.range 32).foldl (fun d k => up d (0x408 + 24 * k)) c
    let c2 := (List.range 8).foldl (fun d i => up d (0x410 + 24 * (8 * c.pmset + i))) c1
    stallCodes.foldl (fun d e => d.pmAdd e (lost e)) (c2.pmAdd 0x01 n)

/-! ## Whether a slice may issue, and what its issue counts -/

/-- Whether debug acts on a group: unlocked, its context traced on its core and not protected (R437, R439). -/
def State.debugOn (s : State) (k : Nat) : Bool :=
  s.dbgu && !(s.ctx (s.ctxOf k)).prot && (s.core (s.team (teamOf k)).core).reg 0 / 2 ^ 48 == s.ctxOf k

/-- The breakpoint that a slice of a group reaches at a byte address, with its action (1 BREAK, 2 HOLD; R443): `qmask` is
the path's, for the compute slice. -/
def State.breakAt (s : State) (k addr : Nat) (cSlice : Bool) (qmask : Nat) : Option (Nat × Nat) :=
  let t := s.team (teamOf k)
  let c := s.core t.core
  if !s.debugOn k then none
  else
    (List.range 4).findSome? (fun n =>
      let ctl := c.reg (0x200 + 16 * n)
      let act := bitsOf ctl 5 2
      let who := (bitOf ctl 7 || (bitsOf ctl 32 32 == t.teamix && bitsOf ctl 27 5 == (s.group k).gidx))
        && (!cSlice || bitsOf ctl 19 8 &&& qmask != 0)
      if (act == 1 || act == 2) && bitOf ctl 4 != cSlice && who && c.reg (0x208 + 16 * n) == addr then some (n, act) else none)

/-- Whether a slice of a group may issue: its team resident, and after the bell only within the skid and not when it
waits, or from the moment the group is stopped by a debug step (R376, R445). -/
def State.mayIssue (s : State) (k : Nat) (waiting : Bool) : Bool :=
  let t := s.team (teamOf k)
  let g := s.group k
  t.state == .resident && !g.stepStopped && !g.stepDrain
    && (match t.bell with | none => true | some c => !waiting && decide (s.cycle ≤ c + 48))

/-- Whether the address slice of a group may issue its next word. -/
def State.aReady (s : State) (k : Nat) : Bool :=
  let g := s.group k
  s.mayIssue k g.await.isSome && !g.halted && !g.astopped && g.ra.isNone && g.aheld.isNone
    && (g.apass || (s.breakAt k g.apc.toNat false 0).isNone)

/-- An armed step has acted once the instruction it waits for has issued (R445): the group then issues nothing until it
stops. -/
def State.stepped (s : State) (k : Nat) (qmask before after : Nat) : State :=
  let g := s.group k
  match g.stepArmed with
  | none => s
  | some v =>
    let m := bitsOf v.toNat 19 8
    if before != after && (m &&& qmask != 0 || (m == 0 && qmask == 0)) then s.setGroup k { g with stepDrain := true } else s

/-- What follows the turn of a slice of group `k`: when it has issued, its event of the performance counters is counted
(`code`), the cycle is its last issue, and an armed debug step may have been made. -/
def afterIssue (k qmask code before : Nat) (count : Group → Nat) :
    Host.Outcome State Fault Refusal → Host.Outcome State Fault Refusal
  | .next s =>
    let g := s.group k
    .next (if count g = before then s
           else ((s.setGroup k { g with lastIssue := s.cycle }).pmGroup k code 1).stepped k qmask before (count g))
  | r => r

end Sys2Proof.Machine
end

