-- ==== Sys2Proof/Machine/AMemory.lean ====
section
/-! DEFINITION. Scalar memory and the queues that the address slice feeds: the instructions, and the steps in which their
accesses are applied and complete (R128, R155, R166-R172, R180, R192, R321-R331, R391). -/

namespace Sys2Proof.Machine

/-! ## Completion of operations in flight -/

/-- The label check of a load whose bytes came from another device (R126), and the operation's failure so far. -/
def Op.failure (o : Op) (clr : Label) : Option Flt :=
  o.fail.or (o.accs.findSome? (fun a =>
    if a.kind.isLoad && a.done && !a.glbl.within clr then some (fltLoad 0 a.glbl clr a.va) else none))

/-- An operation all of whose accesses are settled completes: its result is written unless it failed, its counter falls
in issue order, and a failure is then reported (R26, R155, R230). -/
def State.finishOp (s : State) (k : Nat) (o : Op) (write : Group → Op → Group) : State :=
  let g := s.group k
  match o.failure (s.clr k) with
  | some f => (s.setGroup k (g.setOp { o with fail := some f, doneq := true })).settle k
  | none => (s.setGroup k ((write g o).setOp { o with doneq := true })).settle k

/-- Perform what is left of an operation at this device; once nothing is outstanding, complete it by `finish`. `want`
says which operations the event is about. -/
def State.completeWith (s : State) (k id : Nat) (want : Op → Bool) (finish : State → Op → State) : Out :=
  match (s.group k).op id with
  | none => s.idle
  | some o =>
    if !want o || o.doneq then s.idle
    else
      match s.perform k o (fun _ => true) with
      | .blocked => s.idle
      | .bad f =>
        let left := o.accs.map (fun a => if a.sent then a else { a with done := true })
        let o1 := { o with fail := o.fail.or (some f), accs := left }
        if left.all (·.done) then .next (finish s o1) else .next (s.setGroup k ((s.group k).setOp o1))
      | .ok s1 accs =>
        let o1 := { o with accs := accs }
        if accs.all (·.done) then .next (finish s1 o1) else .next (s1.setGroup k ((s1.group k).setOp o1))

/-- Complete an operation of the address slice. -/
def State.completeOp (s : State) (k id : Nat) (want : Op → Bool) (write : Group → Op → Group) : Out :=
  s.completeWith k id want (fun s1 o => s1.finishOp k o write)

/-- A scalar load or atomic writes sd as it completes (R154): the value, with the granule's label and, for a load, the
address label and K (R126, R129). -/
def writeScalar (g : Group) (o : Op) : Group :=
  match o.adst, o.accs with
  | some d, [a] =>
    g.setSreg d { val := BitVec.ofNat 64 a.got, lbl := if a.kind == .load then a.glbl.join o.lbl else a.glbl }
  | _, _ => g

/-- Issue a scalar access whose address and alignment are good: a lease violation faults at the word (R157); what else is
wrong, a fenced peer among it, is reported as the access completes (R155, R166, R167). -/
def State.scalarAccess (s : State) (a : Acc) (w : Label) (fc : Option FC) (d : Option SRegNo) : Out :=
  let acc := s.formAcc s.cur a
  let g := s.grp
  if acc.lease then s.faultA (fltLease a.va)
  else
    let s1 := s.issueAccs s.cur { id := 0, fc := fc, pc := g.apc.toNat, run := g.runs, after := g.caOrd, adst := d, lbl := w,
                                  accs := [acc] }
    .next (s1.setGrp (s1.grp.advance 4))

/-- ILLEGAL at an address. -/
def fltIllegalAt (a : Nat) : Flt := { fltIllegal with faddr := a }

/-- LDS (R166): 8 bytes at S[sa] + sext(imm14). -/
def execLds (d a : SRegNo) (i : BitVec 14) (s : State) : Out :=
  let g := s.grp
  let x := (g.sreg a).val + i.signExtend 64
  s.whenFree (.lds d a i) [a, d]
    (if !addrOk x || x.toNat % 8 ≠ 0 then s.faultA (fltIllegalAt x.toNat)
     else s.whenRoom (.lds d a i) (s.memoryFull s.cur)
       (s.scalarAccess { va := x.toNat, size := 8 } (resultLabel g.pA [(g.sreg a).lbl]) none (some d)))

/-- STS (R166): S[sd] to the 8 bytes at S[sa] + sext(imm14); `d` is the data source. -/
def execSts (d a : SRegNo) (i : BitVec 14) (s : State) : Out :=
  let g := s.grp
  let x := (g.sreg a).val + i.signExtend 64
  s.whenFree (.sts d a i) [a, d]
    (if !addrOk x || x.toNat % 8 ≠ 0 then s.faultA (fltIllegalAt x.toNat)
     else s.whenRoom (.sts d a i) (s.pathFull s.cur .st)
       (s.scalarAccess { va := x.toNat, size := 8, kind := .store, val := (g.sreg d).val.toNat }
         (resultLabel g.pA [(g.sreg a).lbl, (g.sreg d).lbl]) (some .st) none))

/-- AMOS (R167): operation `f` on the 8-byte word at S[sa]; CAS also reads sd, its comparand. -/
def amos (i : Instr) (f : Nat) (t : Ty) (d a b : SRegNo) (s : State) : Out :=
  let g := s.grp
  let x := (g.sreg a).val
  let ls := [(g.sreg a).lbl, (g.sreg b).lbl] ++ (if f = 9 then [(g.sreg d).lbl] else [])
  s.whenFree i [a, b, d]
    (if !addrOk x || x.toNat % 8 ≠ 0 then s.faultA (fltIllegalAt x.toNat)
     else s.whenRoom i (s.memoryFull s.cur)
       (s.scalarAccess { va := x.toNat, size := 8, kind := .atomic f t, val := (g.sreg b).val.toNat,
                         cmp := if f = 9 then (g.sreg d).val.toNat else 0 } (resultLabel g.pA ls) none (some d)))

def execAmosAdd (d a b : SRegNo) (s : State) : Out := amos (.amosAdd d a b) 0 .z64 d a b s
def execAmosAnd (d a b : SRegNo) (s : State) : Out := amos (.amosAnd d a b) 1 .z64 d a b s
def execAmosOr (d a b : SRegNo) (s : State) : Out := amos (.amosOr d a b) 2 .z64 d a b s
def execAmosXor (d a b : SRegNo) (s : State) : Out := amos (.amosXor d a b) 3 .z64 d a b s
def execAmosMin (d a b : SRegNo) (s : State) : Out := amos (.amosMin d a b) 4 .s64 d a b s
def execAmosMax (d a b : SRegNo) (s : State) : Out := amos (.amosMax d a b) 5 .s64 d a b s
def execAmosMinz (d a b : SRegNo) (s : State) : Out := amos (.amosMinz d a b) 6 .z64 d a b s
def execAmosMaxz (d a b : SRegNo) (s : State) : Out := amos (.amosMaxz d a b) 7 .z64 d a b s
def execAmosSwap (d a b : SRegNo) (s : State) : Out := amos (.amosSwap d a b) 8 .z64 d a b s
def execAmosCas (d a b : SRegNo) (s : State) : Out := amos (.amosCas d a b) 9 .z64 d a b s

/-- A scalar access of the address slice: no compute-slice operation, nothing but its accesses to hold. -/
def Op.scalar (o : Op) : Bool := !o.cslice && o.data == .mem

/-- LDS_COMPLETE (R166): the data arrives, is checked, and sd is written or the group faults. -/
def execLdsComplete (k op : Nat) (s : State) : Out :=
  s.completeOp k op (fun o => o.scalar && o.adst.isSome && o.accs.all (·.kind == .load)) writeScalar

/-- The update of a SIGADD or SIGDEC that waits for it at its word is over: the word has completed, even when its slice has
been stopped meanwhile, or faults (R155, R158, R182); it counts as issued (R442, R445). -/
def State.signalEnd (s : State) (k : Nat) (o : Op) : State :=
  let g := s.group k
  let g1 := { g with ops := g.ops.filter (fun x => x.id != o.id) }
  match o.failure (s.clr k) with
  | some f => (s.setGroup k g1).raiseRec k { flt := f, cslice := false, fpos := 0, fcycle := s.cycle }
  | none => (((s.setGroup k { g1.advance 4 with lastIssue := s.cycle }).pmGroup k 0x03 1).stepped k 0 g.aret (g.aret + 1))

/-- AMOS_COMPLETE (R129, R167, R182, R237): an AMOS, or a signal update that could not be made where it issued. -/
def execAmosComplete (k op : Nat) (s : State) : Out :=
  if ((s.group k).op op).any (·.data == .signal) then s.completeWith k op (fun _ => true) (fun s1 o => s1.signalEnd k o)
  else s.completeOp k op (fun o => o.scalar && o.adst.isSome && o.accs.all (·.kind.isStore)) writeScalar

/-- STS_COMPLETE (R166, R26): an STS, a GLBL or a queue store whose bytes are visible completes on fc.st. -/
def execStsComplete (k op : Nat) (s : State) : Out :=
  s.completeOp k op (fun o => !o.cslice && o.fc == some .st && (o.data == .mem || o.data == .queueStore || o.data == .glbl)
    && !((s.group k).saq.any (fun e => e.op == o.id)) && o.accs.all (·.kind != .detset)) (fun g _ => g)

/-- DETSET_COMPLETE (R180): the ordered queue opens the set, or SECTOR is reported. -/
def execDetsetComplete (k op : Nat) (s : State) : Out :=
  s.completeOp k op (fun o => o.scalar && o.fc == some .st && o.accs.all (·.kind == .detset)) (fun g _ => g)

/-- STORE_APPLY (R127, R128, R130): one access of a store that stands at this device is checked and applied; the lanes of an
SPST act together (R244). -/
def execStoreApply (k op i : Nat) (s : State) : Out :=
  match (s.group k).op op with
  | none => s.idle
  | some o =>
    if o.doneq || o.together || !(o.accs.all (fun a => a.kind == .store || a.kind == .raise))
        || (s.group k).saq.any (fun e => e.op == o.id) then s.idle
    else
      match s.perform k o (· == i) with
      | .blocked => s.idle
      | .bad f =>
        .next (s.setGroup k ((s.group k).setOp { o with fail := o.fail.or (some f),
                                                        accs := o.accs.map (fun a => if a.sent then a else { a with done := true }) }))
      | .ok s1 accs => .next (s1.setGroup k ((s1.group k).setOp { o with accs := accs }))

/-! ## VLD and VSTA -/

/-- VLD (R169, R321): allocate an entry of load queue `q` and ask for its 32 words. With every quad ended the entry is
released at once (R18). -/
def execVld (q : BitVec 2) (a : SRegNo) (i : BitVec 14) (s : State) : Out :=
  let g := s.grp
  let x := (g.sreg a).val + i.signExtend 64
  let k := q.toNat
  s.whenFree (.vld q a i) [a]
    (if !addrOk x || x.toNat % 4 ≠ 0 then s.faultA (fltIllegalAt x.toNat)
     else if 16 ≤ (g.lq k).entries.length || s.pathFull s.cur .ld then s.waits (.vld q a i)
     else
       let l := g.lq k
       let e : LQEntry := { vld := g.apc, addr := x.toNat, albl := resultLabel g.pA [(g.sreg a).lbl], op := g.nextOp }
       let accs := (List.range 32).map (fun n => s.formAcc s.cur { lane := n, va := x.toNat + 4 * n, size := 4 })
       let g1 := { g with lqs := g.lqs.set {} k { l with entries := l.entries ++ [e] } }
       let s1 := s.setGrp (if g.unended.isEmpty then g1.trim else g1)
       let s2 := s1.issueAccs s.cur { id := 0, fc := some .ld, pc := g.apc.toNat, run := g.runs, after := g.caOrd,
                                      lbl := resultLabel g.pA [(g.sreg a).lbl], accs := accs,
                                      data := .vld k x.toNat }
       .next (s2.setGrp (s2.grp.advance 4)))

/-- Change the entry of a load queue that an operation fills. -/
def Group.setEntry (g : Group) (q op : Nat) (f : LQEntry → LQEntry) : Group :=
  let l := g.lq q
  { g with lqs := g.lqs.set {} q { l with entries := l.entries.map (fun e => if e.op = op then f e else e) } }

/-- How a VLD ends (R169, R329): not yet, with data, or with a cause. -/
inductive VldEnd where
  | notYet
  | data (s : State) (o : Op)
  | cause (f : Flt) (o : Op)

/-- The checks and the accesses of a VLD in flight. -/
def State.vldEnd (s : State) (k op : Nat) : VldEnd :=
  match (s.group k).op op with
  | none => .notYet
  | some o =>
    match o.data with
    | .vld _ _ =>
      if o.doneq then .notYet
      else
        match o.fail with
        | some f => .cause f o
        | none =>
          match s.perform k o (fun _ => true) with
          | .blocked => .notYet
          | .bad f => .cause f o
          | .ok s1 accs =>
            let o1 := { o with accs := accs }
            if !accs.all (·.done) then .notYet
            else
              match o1.failure (s.clr k) with
              | some f => .cause f o1
              | none => .data s1 o1
    | _ => .notYet

/-- The load queue and the address of a VLD. -/
def Op.entry (o : Op) : Nat × Nat := match o.data with | .vld q x => (q, x) | _ => (0, 0)

/-- VLD_ENTRY_PRESENT (R169, R321): all 128 bytes and their label have arrived. -/
def execVldEntryPresent (k op : Nat) (s : State) : Out :=
  match s.vldEnd k op with
  | .data s1 o =>
    let g := (s1.group k).setEntry o.entry.1 o.id (fun e =>
      { e with data := o.accs.map (fun a => BitVec.ofNat 32 a.got), present := true,
               lbl := o.lbl.join (Label.joinAll (o.accs.map (·.glbl))) })
    .next (((s1.pmGroup k 0x08 1).setGroup k (g.setOp { o with doneq := true })).settle k)
  | _ => s.idle

/-- Take the idle case of R331: cause and APC are those of a poisoned entry. It is recorded as a fault of the compute slice,
with no position (log 96). -/
def State.raiseIdle (s : State) (k q : Nat) (vld : DWord) (f : Flt) : State :=
  (s.setGroup k { s.group k with ra := some vld }).raiseRec k
    { flt := f, cslice := true, fpos := 0, fcycle := s.cycle, idle := true, pq := q }

/-- Poison the entry of a VLD; one that has been released comes back, in VLD order, and of more than 16 the oldest stay
(R17; log 96). -/
def Group.poisonEntry (g : Group) (o : Op) (f : Flt) : Group :=
  let q := o.entry.1
  let l := g.lq q
  if l.entries.any (fun e => e.op == o.id) then g.setEntry q o.id (fun e => { e with poison := some f })
  else
    let e : LQEntry := { vld := BitVec.ofNat 64 o.pc, addr := o.entry.2, poison := some f, albl := o.lbl, op := o.id }
    let older := l.entries.filter (fun x => decide (x.op < o.id))
    let younger := l.entries.filter (fun x => !decide (x.op < o.id))
    { g with lqs := g.lqs.set {} q { l with entries := (older ++ [e] ++ younger).take 16 } }

/-- VLD_FAIL (R329, R331): the entry is poisoned with its cause, and the address slice issues no further word; APC of the
record is that of the failure found first, unless another fault says otherwise (log 96). An entry that has been released, since
every quad has ended (R18), stands in its queue again, poisoned, for the idle case. -/
def execVldFail (k op : Nat) (s : State) : Out :=
  match s.vldEnd k op with
  | .cause f o =>
    let g := (s.group k).poisonEntry o f
    let g1 := { g with ra := some (g.ra.getD (BitVec.ofNat 64 o.pc)) }
    .next ((s.setGroup k (g1.setOp { o with fail := none, doneq := true })).settle k)
  | _ => s.idle

/-- The address-slice wait of R326 on which a group now stands, by its code there; 0 for none. A word that waits for a held
register waits for no more (R154). -/
def Group.aDeadCode (g : Group) : Nat :=
  match g.await with
  | some (.popca d) => if !g.sHeld d && g.ca.isEmpty then 0x10 else 0
  | some (.vld q a _) => if !g.sHeld a && decide (16 ≤ (g.lq q.toNat).entries.length) then 0x11 else 0
  | some (.vsta a _) => if !g.sHeld a && decide (16 ≤ g.saq.length) then 0x12 else 0
  | some (.run d _) => if !g.sHeld d && (decide (g.slip ≤ g.outstanding) || decide (32 ≤ g.rq.length)) then 0x13 else 0
  | some (.yield a) => if !g.sHeld a && decide (32 ≤ g.rq.length) then 0x14 else 0
  | some (.yieldRec a) => if !g.sHeld a && decide (32 ≤ g.rq.length) then 0x14 else 0
  | _ => 0

/-- The poisoned entries of a group: queue, and entry. -/
def Group.poisons (g : Group) : List (Nat × LQEntry) :=
  (List.range 4).flatMap (fun q => ((g.lq q).entries.filter (fun e => e.poison.isSome)).map (fun e => (q, e)))

/-- A path waits at TAKE with no RQ entry left for its quads (R174). -/
def Group.starved (g : Group) (p : Path) : Bool :=
  p.phase == .take && (List.range 8).all (fun q => p.qmask / 2 ^ q % 2 == 0 || decide (g.rqBase + g.rq.length ≤ (g.quad q).rqHead))

/-- The compute-slice wait of R326 on which a path now stands: 1 at TAKE with no entry, 2 at a pop whose entry is not
allocated, 3 at STD with SDQ full and SAQ empty, 4 at SENDA with CA full; 0 for none. -/
def Group.cDeadCode (g : Group) (p : Path) : Nat :=
  if g.starved p then 1
  else if !(p.phase == .issuing) then 0
  else if p.waitc = 2 && g.popsOf p.qmask p.pops == .wait 2 then 2
  else if p.waitc = 3 && g.saq.isEmpty && (List.range 8).any (fun q => bitOf p.qmask q && decide (g.sdqBase + 16 ≤ (g.quad q).stdCnt)) then 3
  else if p.waitc = 4 && decide (8 ≤ g.ca.length) then 4
  else 0

/-- VLD_POISON_IDLE (R331): every LIVE quad waits on the other slice, or has ended; the cause is that of the oldest
poisoned entry in VLD order. A group at its yield point waits for a save, and after the bell another fault has come first.
The record has CSLICE 1 and FPOS 0 (log 96). -/
def execVldPoisonIdle (k : Nat) (s : State) : Out :=
  let g := s.group k
  let oldest := g.poisons.foldl (fun (a : Option (Nat × LQEntry)) e =>
    match a with | none => some e | some x => if e.2.op < x.2.op then some e else some x) none
  match oldest with
  | none => s.idle
  | some (q, e) =>
    if g.fault.isSome || g.atYield || !((s.team (teamOf k)).state == .resident) || (s.team (teamOf k)).bell.isSome
        || !(g.paths.all (fun p => p.2.phase == .parked || p.2.phase == .marker || g.cDeadCode p.2 != 0)) then s.idle
    else .next (s.raiseIdle k q e.vld (e.poison.getD fltIllegal))

/-- VSTA (R170, R17): push an address into SAQ and raise fc.st. -/
def execVsta (a : SRegNo) (i : BitVec 14) (s : State) : Out :=
  let g := s.grp
  let x := (g.sreg a).val + i.signExtend 64
  s.whenFree (.vsta a i) [a]
    (if !addrOk x || x.toNat % 4 ≠ 0 then s.faultA (fltIllegalAt x.toNat)
     else if 16 ≤ g.saq.length || s.pathFull s.cur .st then s.waits (.vsta a i)
     else
       let l := resultLabel g.pA [(g.sreg a).lbl]
       let accs := (List.range 32).map (fun n =>
         let y := s.formAcc s.cur { lane := n, va := x.toNat + 4 * n, size := 4, kind := .store }
         if y.lease then { y with pa := 2 ^ 60 } else y)
       let o : Op := { id := 0, fc := some .st, pc := g.apc.toNat, run := g.runs, after := g.caOrd, lbl := l, accs := accs,
                       data := .queueStore }
       let g1 : Group := { g with saq := g.saq ++ [{ addr := x.toNat, lbl := l, apc := g.apc, op := g.nextOp }] }
       .next (s.setGrp ((g1.issueOp o).advance 4)))

/-- Every quad that has not ended has supplied its part of an SDQ entry (R19). -/
def Group.supplied (g : Group) (e : SDEntry) : Bool := g.unended.all (fun q => e.quads / 2 ^ q % 2 == 1)

/-- A failing queue store (R128, R391): the record names the VSTA and the STD; this store and every younger one of the
group stay in their queues, not performed. -/
def State.raiseQueue (s : State) (k : Nat) (a : SAEntry) (d : SDEntry) (f : Flt) : State :=
  (s.setGroup k { s.group k with storeFail := true }).raiseRec k
    { flt := { f with faddr := a.addr, stpc := a.apc.toNat }, cslice := false, fpos := d.pos, fcycle := s.cycle }

/-- A queue store that has left SAQ still has lanes to perform here, so that the next in SAQ order waits (R323). -/
def State.storing (s : State) (k : Nat) : Bool :=
  let g := s.group k
  g.ops.any (fun o => o.data == .queueStore && !g.unpaired o && !o.doneq && o.accs.any (fun a => s.isLocal a && !a.done && !a.held))

/-- The store unit takes the two heads (R19, R128, R170, R323, R391) and performs their lanes; with `apart`, it checks them all
now and performs them one by one (R348). -/
def State.queueStore (s : State) (k : Nat) (apart : Bool) : Out :=
  let g := s.group k
  match g.saq, g.sdq with
  | a :: as, d :: ds =>
    match g.op a.op with
    | none => s.idle
    | some o =>
      if !g.supplied d || g.storeFail || (s.team (teamOf k)).state != .resident || s.storing k then s.idle
      else
        let w := Label.join a.lbl d.lbl
        let accs := ((List.range 32).filter (fun l => d.mask.getLsbD l)).map (fun l =>
          s.formAcc k { lane := l, va := a.addr + 4 * l, size := 4, kind := .store, val := (laneAt d.data l).toNat })
        let o1 := { o with lbl := w, accs := accs, stdPos := d.pos }
        let fail := (accs.findSome? (fun x => if x.lease then some (fltLease a.addr) else none)).or
          (accs.findSome? (s.sendCheck k w))
        match fail with
        | some f => .next (s.raiseQueue k a d f)
        | none =>
          match s.perform k o1 (fun _ => !apart) with
          | .blocked => s.idle
          | .bad f => .next (s.raiseQueue k a d f)
          | .ok s1 done =>
            let o2 := { o1 with accs := if apart then done.map (fun x => if s.isLocal x then { x with chk := true } else x) else done,
                                doneq := done.all (·.done) }
            let g1 := { (s1.group k).setOp o2 with saq := as, sdq := ds, sdqBase := g.sdqBase + 1 }
            .next ((s1.setGroup k g1).settle k)
  | _, _ => s.idle

/-- QUEUE_STORE (R19, R170): the store unit performs the store of the two heads. -/
def execQueueStore (k : Nat) (s : State) : Out := s.queueStore k false

/-! ## DETSET and GLBL -/

/-- DETSET (R180): open a deterministic set on the 32-byte sector at S[sa], expecting S[sb] contributions. -/
def execDetset (a b : SRegNo) (s : State) : Out :=
  let g := s.grp
  let x := (g.sreg a).val
  let n := (g.sreg b).val.toNat
  let acc := s.formAcc s.cur { va := x.toNat, size := 32, kind := .detset, val := n }
  s.whenFree (.detset a b) [a, b]
    (if !addrOk x || x.toNat % 32 ≠ 0 then s.faultA (fltIllegalAt x.toNat)
     else if n = 0 ∨ 2 ^ 32 ≤ n then s.faultA (fltIllegalAt x.toNat)
     else if acc.lease then s.faultA (fltLease x.toNat)
     else if !acc.det then s.faultA (fltIllegalAt x.toNat)
     else if s.pathFull s.cur .st then s.waits (.detset a b)
     else s.scalarAccess { va := x.toNat, size := 32, kind := .detset, val := n }
       (resultLabel g.pA [(g.sreg a).lbl, (g.sreg b).lbl]) (some .st) none)

/-- The owners that GLBL adds (R143). -/
def glblOwners (g : Group) (b : SRegNo) : Label := resultLabel g.pA [(g.sreg b).val.truncate 16, (g.sreg b).lbl]

/-- Issue a GLBL whose target has been checked: the owners within CLR, no fenced peer (R157), then the store path, ordered as
a store to the first byte of the granule (R143). -/
def State.raiseAccess (s : State) (i : Instr) (a : Acc) (own : Label) : Out :=
  let g := s.grp
  if !own.within (s.clr s.cur) then s.faultA (fltStore 5 own (s.clr s.cur) a.va)
  else if a.space == .global && s.fenced.contains (devOf a.pa) then s.faultA { code := 0x16, faddr := a.va }
  else if s.pathFull s.cur .st then s.waits i
  else
    let s1 := s.issueAccs s.cur { id := 0, fc := some .st, pc := g.apc.toNat, run := g.runs, after := g.caOrd, lbl := own,
                                  data := .glbl, accs := [{ a with kind := .raise, val := own.toNat, size := 1 }] }
    .next (s1.setGrp (s1.grp.advance 4))

/-- GLBL (R143, R144, R192): raise the label of a global or scratchpad granule, an accumulator bank or a barrier. -/
def execGlbl (sp : GSpace) (a b : SRegNo) (s : State) : Out :=
  let g := s.grp
  let t := s.tm
  let r := s.recOf s.cur
  let x := (g.sreg a).val
  let n := x.toNat
  let own := glblOwners g b
  s.whenFree (.glbl sp a b) [a, b]
    (match sp with
     | .global =>
       if !addrOk x || n % 256 ≠ 0 then s.faultA (fltIllegalAt n)
       else
         match s.translateBy (some (s.coreCache s.cur)) (s.ctxOf s.cur) n false with
         | none => s.faultA (fltLease n)
         | some y =>
           if isHost (localOf y.pa) && devOf y.pa == s.devn then s.faultA (fltIllegalAt n)
           else
             let acc := s.formAcc s.cur { va := n, size := 256, kind := .raise }
             if acc.lease then s.faultA (fltLease n)
             else if own.within (s.clr s.cur) && s.inConstBank (s.ctxOf s.cur) acc.pa then s.faultA (fltStore 6 own 0#16 n)
             else s.raiseAccess (.glbl sp a b) acc own
     | .scratch =>
       if n % 256 ≠ 0 ∨ r.spsize < n + 256 then s.faultA (fltIllegalAt n)
       else s.raiseAccess (.glbl sp a b) { va := n, pa := n, space := .scratch } own
     | .acc =>
       if 64 ≤ n ∨ !t.banks.getLsbD n then s.faultA (fltIllegalAt n)
       else if t.whand.any (fun h => decide (h.2.bank ≤ n) && decide (n < h.2.bank + h.2.nb)) then s.faultA { code := 0x18, faddr := n }
       else s.raiseAccess (.glbl sp a b) { va := n, pa := n * 131072, space := .acc } own
     | .barrier =>
       if n % 16 ≠ 0 ∨ r.spsize < n + 16 ∨ !t.marked? n then s.faultA (fltIllegalAt n)
       else s.raiseAccess (.glbl sp a b) { va := n, pa := n, space := .scratch, cmp := 1 } own)

end Sys2Proof.Machine
end

