-- ==== Sys2Proof/Machine/AScalar.lean ====
section
/-! DEFINITION. The address-stream instructions that act on scalar registers, APC and the A-slice path stack alone:
arithmetic, immediates, constants, control flow, label reads and raises, special registers (R159-R165, R173, R191,
R193, R194). -/

namespace Sys2Proof.Machine

/-- A word of the ALU group (R159): a function of two registers, with the result label of R118. -/
def alu2 (i : Instr) (f : DWord → DWord → DWord) (d a b : SRegNo) (s : State) : Out :=
  let g := s.grp
  s.whenFree i [a, b, d]
    (s.aWrite d (f (g.sreg a).val (g.sreg b).val) (resultLabel g.pA [(g.sreg a).lbl, (g.sreg b).lbl]) 4)

/-- An immediate form (R160): the label is L(sa) ∪ K. -/
def aluImm (i : Instr) (f : DWord → DWord) (d a : SRegNo) (s : State) : Out :=
  let g := s.grp
  s.whenFree i [a, d] (s.aWrite d (f (g.sreg a).val) (resultLabel g.pA [(g.sreg a).lbl]) 4)

/-- A truth value as a scalar. -/
def flag64 (b : Bool) : DWord := if b then 1#64 else 0#64

/-- MULHI: bits [127:64] of the signed product. -/
def mulhi64 (a b : DWord) : DWord := BitVec.ofInt 64 (a.toInt * b.toInt / 2 ^ 64)

/-- DIVS with the cases of R93. -/
def divs64 (a b : DWord) : DWord :=
  if b = 0#64 then (if BitVec.slt a 0#64 then BitVec.intMin 64 else BitVec.intMax 64) else BitVec.sdiv a b

/-- DIVZ with the cases of R93. -/
def divz64 (a b : DWord) : DWord := if b = 0#64 then BitVec.allOnes 64 else a / b

/-- REMS with the cases of R93. -/
def rems64 (a b : DWord) : DWord := if b = 0#64 then a else BitVec.srem a b

/-- REMZ with the cases of R93. -/
def remz64 (a b : DWord) : DWord := if b = 0#64 then a else a % b

/-- The shift distance b[5:0]. -/
def shamt (b : DWord) : Nat := b.toNat % 64

def execAdd (d a b : SRegNo) (s : State) : Out := alu2 (.add d a b) (· + ·) d a b s
def execSub (d a b : SRegNo) (s : State) : Out := alu2 (.sub d a b) (· - ·) d a b s
def execMul (d a b : SRegNo) (s : State) : Out := alu2 (.mul d a b) (· * ·) d a b s
def execMulhi (d a b : SRegNo) (s : State) : Out := alu2 (.mulhi d a b) mulhi64 d a b s
def execDivs (d a b : SRegNo) (s : State) : Out := alu2 (.divs d a b) divs64 d a b s
def execDivz (d a b : SRegNo) (s : State) : Out := alu2 (.divz d a b) divz64 d a b s
def execRems (d a b : SRegNo) (s : State) : Out := alu2 (.rems d a b) rems64 d a b s
def execRemz (d a b : SRegNo) (s : State) : Out := alu2 (.remz d a b) remz64 d a b s
def execAnd (d a b : SRegNo) (s : State) : Out := alu2 (.and d a b) (· &&& ·) d a b s
def execOr (d a b : SRegNo) (s : State) : Out := alu2 (.or d a b) (· ||| ·) d a b s
def execXor (d a b : SRegNo) (s : State) : Out := alu2 (.xor d a b) (· ^^^ ·) d a b s
def execShl (d a b : SRegNo) (s : State) : Out := alu2 (.shl d a b) (fun x y => x <<< shamt y) d a b s
def execShr (d a b : SRegNo) (s : State) : Out := alu2 (.shr d a b) (fun x y => x >>> shamt y) d a b s
def execSar (d a b : SRegNo) (s : State) : Out := alu2 (.sar d a b) (fun x y => x.sshiftRight (shamt y)) d a b s
def execMin (d a b : SRegNo) (s : State) : Out := alu2 (.min d a b) (fun x y => if BitVec.slt x y then x else y) d a b s
def execMax (d a b : SRegNo) (s : State) : Out := alu2 (.max d a b) (fun x y => if BitVec.slt x y then y else x) d a b s
def execMinz (d a b : SRegNo) (s : State) : Out := alu2 (.minz d a b) (fun x y => if BitVec.ult x y then x else y) d a b s
def execMaxz (d a b : SRegNo) (s : State) : Out := alu2 (.maxz d a b) (fun x y => if BitVec.ult x y then y else x) d a b s
def execSlt (d a b : SRegNo) (s : State) : Out := alu2 (.slt d a b) (fun x y => flag64 (BitVec.slt x y)) d a b s
def execSltz (d a b : SRegNo) (s : State) : Out := alu2 (.sltz d a b) (fun x y => flag64 (BitVec.ult x y)) d a b s
def execSeq (d a b : SRegNo) (s : State) : Out := alu2 (.seq d a b) (fun x y => flag64 (x == y)) d a b s

/-- SEL (R161): the label joins all three sources, whichever is selected. -/
def execSel (d a b c : SRegNo) (s : State) : Out :=
  let g := s.grp
  s.whenFree (.sel d a b c) [a, b, c, d]
    (s.aWrite d (if (g.sreg c).val = 0#64 then (g.sreg b).val else (g.sreg a).val)
      (resultLabel g.pA [(g.sreg a).lbl, (g.sreg b).lbl, (g.sreg c).lbl]) 4)

def execAddi (d a : SRegNo) (i : BitVec 14) (s : State) : Out := aluImm (.addi d a i) (· + i.signExtend 64) d a s
def execAndi (d a : SRegNo) (i : BitVec 14) (s : State) : Out := aluImm (.andi d a i) (· &&& i.signExtend 64) d a s
def execOri (d a : SRegNo) (i : BitVec 14) (s : State) : Out := aluImm (.ori d a i) (· ||| i.signExtend 64) d a s
def execXori (d a : SRegNo) (i : BitVec 14) (s : State) : Out := aluImm (.xori d a i) (· ^^^ i.signExtend 64) d a s
def execShli (d a : SRegNo) (n : BitVec 6) (s : State) : Out := aluImm (.shli d a n) (· <<< n.toNat) d a s
def execShri (d a : SRegNo) (n : BitVec 6) (s : State) : Out := aluImm (.shri d a n) (· >>> n.toNat) d a s
def execSari (d a : SRegNo) (n : BitVec 6) (s : State) : Out := aluImm (.sari d a n) (·.sshiftRight n.toNat) d a s

/-- LIH (R162): the low 32 bits stay, imm20 goes to bits [51:32]; the old value is a source. -/
def execLih (d : SRegNo) (i : BitVec 20) (s : State) : Out :=
  let g := s.grp
  s.whenFree (.lih d i) [d]
    (s.aWrite d ((g.sreg d).val &&& 0xFFFFFFFF#64 ||| (i.zeroExtend 64 <<< 32)) (resultLabel g.pA [(g.sreg d).lbl]) 4)

/-- LI32 (R162, R63): the literal word, sign-extended, labelled K; APC moves past both words. -/
def execLi32 (d : SRegNo) (w : Word) (s : State) : Out :=
  s.whenFree (.li32 d w) [d] (s.aWrite d (w.signExtend 64) s.grp.pA 8)

/-- The target of a word offset (R62). -/
def branchTarget (apc : DWord) {n : Nat} (i : BitVec n) : DWord := apc + (i.signExtend 64 <<< 2)

/-- ADDPC (R162). -/
def execAddpc (d : SRegNo) (i : BitVec 20) (s : State) : Out :=
  s.whenFree (.addpc d i) [d] (s.aWrite d (branchTarget s.grp.apc i) s.grp.pA 4)

/-- LDK (R162, R72, R144): a constant-bank word, labelled K. -/
def execLdk (d : SRegNo) (n : BitVec 12) (s : State) : Out :=
  s.whenFree (.ldk d n) [d]
    (match s.readCode s.cur ((s.recOf s.cur).kbank + 4 * n.toNat) 4 with
     | .ok s1 bs _ => s1.aWrite d (BitVec.ofNat 64 (ofBytes bs)) s1.grp.pA 4
     | .bad f => s.faultA f
     | .wait s1 => s1.waits (.ldk d n))

/-- JMP (R164). -/
def execJmp (i : BitVec 20) (s : State) : Out := .next (s.setGrp (s.grp.jump (branchTarget s.grp.apc i)))

/-- CALL (R164): the link is labelled K. -/
def execCall (d : SRegNo) (i : BitVec 20) (s : State) : Out :=
  let g := s.grp
  s.whenFree (.call d i) [d]
    (.next (s.setGrp ((g.setSreg d { val := g.apc + 4#64, lbl := g.pA }).jump (branchTarget g.apc i))))

/-- A conditional branch (R163): the labels are pushed whether or not it is taken; a refused push leaves APC on it. -/
def branch (i : Instr) (c : DWord → DWord → Bool) (a b : SRegNo) (off : BitVec 14) (s : State) : Out :=
  let g := s.grp
  s.whenFree i [a, b]
    (match pushLabel 16 (s.ceil s.cur) g.apath (resultLabel g.pA [(g.sreg a).lbl, (g.sreg b).lbl]) g.apc.toNat with
     | .error f => s.faultA f
     | .ok st =>
       let g1 := { g with apath := st }
       .next (s.setGrp (if c (g.sreg a).val (g.sreg b).val then g1.jump (branchTarget g.apc off) else g1.advance 4)))

def execBeq (a b : SRegNo) (i : BitVec 14) (s : State) : Out := branch (.beq a b i) (· == ·) a b i s
def execBne (a b : SRegNo) (i : BitVec 14) (s : State) : Out := branch (.bne a b i) (· != ·) a b i s
def execBlt (a b : SRegNo) (i : BitVec 14) (s : State) : Out := branch (.blt a b i) BitVec.slt a b i s
def execBge (a b : SRegNo) (i : BitVec 14) (s : State) : Out := branch (.bge a b i) (fun x y => !BitVec.slt x y) a b i s
def execBlo (a b : SRegNo) (i : BitVec 14) (s : State) : Out := branch (.blo a b i) BitVec.ult a b i s
def execBhs (a b : SRegNo) (i : BitVec 14) (s : State) : Out := branch (.bhs a b i) (fun x y => !BitVec.ult x y) a b i s

/-- LOOP (R164): decrement, push the counter's label, branch while the counter is not zero. -/
def execLoop (d : SRegNo) (i : BitVec 20) (s : State) : Out :=
  let g := s.grp
  s.whenFree (.loop d i) [d]
    (match pushLabel 16 (s.ceil s.cur) g.apath (resultLabel g.pA [(g.sreg d).lbl]) g.apc.toNat with
     | .error f => s.faultA f
     | .ok st =>
       let n := (g.sreg d).val - 1#64
       let g1 := { g.setSreg d { val := n, lbl := resultLabel g.pA [(g.sreg d).lbl] } with apath := st }
       .next (s.setGrp (if n = 0#64 then g1.advance 4 else g1.jump (branchTarget g.apc i))))

/-- JR and RET (R62, R164): a misaligned target faults, then the top of the path stack is replaced. -/
def jumpReg (i : Instr) (a : SRegNo) (s : State) : Out :=
  let g := s.grp
  let t := (g.sreg a).val
  s.whenFree i [a]
    (if t.toNat % 4 ≠ 0 then s.faultA fltIllegal
     else
       match replaceLabel (s.ceil s.cur) g.apath (g.sreg a).lbl g.apc.toNat with
       | .error f => s.faultA f
       | .ok st => .next (s.setGrp ({ g with apath := st }.jump t)))

def execJr (a : SRegNo) (s : State) : Out := jumpReg (.jr a) a s

/-- RET: as JR; the trace unit records it as a return (R164, R441), when it is taken. -/
def execRet (a : SRegNo) (s : State) : Out :=
  let g := s.grp
  let t := (g.sreg a).val
  let taken := !([a].any g.sHeld) && t.toNat % 4 == 0 && (replaceLabel (s.ceil s.cur) g.apath (g.sreg a).lbl 0).isOk
  jumpReg (.ret a) a (if taken then s.traceA 3 t 0#16 else s)

/-- HALT (R8, R164, R165): the address slice stops; APC stays on the HALT. -/
def execHalt (s : State) : Out := .next (s.setGrp { s.grp with halted := true, aret := s.grp.aret + 1, await := none })

/-- LBLRD (R142, R191): the register's label as a value, carrying that same label. -/
def execLblrd (d a : SRegNo) (s : State) : Out :=
  let g := s.grp
  s.whenFree (.lblrd d a) [a, d] (s.aWrite d ((g.sreg a).lbl.zeroExtend 64) (resultLabel g.pA [(g.sreg a).lbl]) 4)

/-- LBLUP (R141, R191): the value of sa, its label raised by the owners in S[sb][15:0] and by that operand's label. -/
def execLblup (d a b : SRegNo) (s : State) : Out :=
  let g := s.grp
  s.whenFree (.lblup d a b) [a, b, d]
    (s.aWrite d (g.sreg a).val (resultLabel g.pA [(g.sreg a).lbl, (g.sreg b).val.truncate 16, (g.sreg b).lbl]) 4)

/-- MARK.JOIN (R121, R193): pop the A-slice path stack; with an empty stack, no effect. -/
def execMarkJoin (s : State) : Out := .next (s.setGrp ({ s.grp with apath := s.grp.apath.tail }.advance 4))

/-- MARK.USER (R193): a user record when tracing is enabled. -/
def execMarkUser (a : SRegNo) (s : State) : Out :=
  s.whenFree (.markUser a) [a] ((s.traceA 2 (s.grp.sreg a).val (s.grp.sreg a).lbl).aPass)

/-- BRK (R193, R381): BREAK with its code; a resumption continues after it. -/
def execBrk (c : SRegNo) (s : State) : Out :=
  .next (s.raiseRec s.cur
    { flt := { code := 0x11, kcode := c.toNat }, cslice := false, fpos := 0, fcycle := s.cycle, brk := true })

/-- The 21-bit coordinates of a team in its grid's decomposition (R38, R39). -/
def teamXyz (r : Launch) (ix : Nat) : DWord :=
  if !r.decomp then 0#64
  else
    let dx := bitsOf r.xyz.toNat 0 21
    let dy := bitsOf r.xyz.toNat 21 21
    BitVec.ofNat 64 (ix % dx + 2 ^ 21 * (ix / dx % dy) + 2 ^ 42 * (ix / (dx * dy)))

/-- The value of a special register (R37-R40); nothing for a number that names none (R35). -/
def State.special (s : State) (n : Nat) : Option DWord :=
  let g := s.grp
  let t := s.tm
  let r := s.recOf s.cur
  let nat (v : Nat) : Option DWord := some (BitVec.ofNat 64 v)
  match n with
  | 0x000 => nat (t.core % 8 + 2 ^ 4 * (t.core % 72 / 8) + 2 ^ 8 * (t.core / 72) + 2 ^ 16 * t.core)
  | 0x001 => nat (g.gidx + 2 ^ 5 * r.gcount + 2 ^ 11 * g.slot + 2 ^ 14 * g.sched + 2 ^ 16 * g.role + 2 ^ 18 * g.nvregs
      + 2 ^ 32 * g.lanes)
  | 0x002 => nat t.teamix
  | 0x003 => nat r.n
  | 0x004 => some (teamXyz r t.teamix)
  | 0x005 => some (if r.decomp then r.xyz else 0#64)
  | 0x006 =>
    let i := t.teamix % (r.cw * r.ch)
    nat (i / r.cw + 2 ^ 4 * (i % r.cw) + 2 ^ 8 * r.ch + 2 ^ 12 * r.cw + 2 ^ 32 * (t.teamix / (r.cw * r.ch)))
  | 0x007 => nat (r.clr.toNat + 2 ^ 16 * (s.ceil s.cur).toNat)
  | 0x008 => nat (g.pA.toNat + 2 ^ 16 * g.apath.length)
  | 0x009 => nat g.slip
  | 0x00A => some g.fca
  | 0x00B => some g.fcb
  | 0x00C => some g.qocc
  | 0x00D => nat s.cycle
  | 0x00E => some t.whnd
  | 0x00F => nat (s.gridOf s.cur).lrec
  | 0x010 => nat r.kbank
  | _ => none

/-- GETSR (R34-R36): SR_FCA, SR_FCB, SR_QOCC and SR_WHND also carry the effective ceiling. -/
def execGetsr (d : SRegNo) (i : BitVec 14) (s : State) : Out :=
  s.whenFree (.getsr d i) [d]
    (match s.special i.toNat with
     | none => s.faultA fltIllegal
     | some v =>
       let l := if [0x00A, 0x00B, 0x00C, 0x00E].contains i.toNat then s.grp.pA.join (s.ceil s.cur) else s.grp.pA
       s.aWrite d v l 4)

/-- Write SLIP under its limits and its label check (R21, R37, R38, R173). -/
def setSlip (v : Nat) (l : Label) (s : State) : Out :=
  if v = 0 ∨ 32 < v then s.faultA fltIllegal
  else if l ≠ 0#16 then s.faultA (fltStore 1 l 0#16 0)
  else .next (s.setGrp ({ s.grp with slip := v }.advance 4))

/-- SETSR (R34, R35, R37): SR_SLIP alone is writable, in its bits [5:0]. -/
def execSetsr (a : SRegNo) (i : BitVec 14) (s : State) : Out :=
  let g := s.grp
  s.whenFree (.setsr a i) [a]
    (if i.toNat ≠ 0x009 then s.faultA fltIllegal
     else setSlip ((g.sreg a).val.toNat % 64) (resultLabel g.pA [(g.sreg a).lbl]) s)

/-- SLIPSET (R173). -/
def execSlipset (i : BitVec 14) (s : State) : Out := setSlip i.toNat s.grp.pA s

/-- PREF (R171): no effect on any program-visible state; it never faults. -/
def execPref (a : SRegNo) (i : BitVec 14) (s : State) : Out := s.whenFree (.pref a i) [a] s.aPass

end Sys2Proof.Machine
end

