-- ==== Sys2Proof/Machine/ASync.lean ====
section
/-! DEFINITION. Runs, waits, fences, barriers, signals, buffers, launch, system requests: the address-stream
instructions that can wait, and the steps in which their waits end (R172-R194, R337-R338, R372, R383). An instruction
that waits issues again when its wait may have ended; nothing of it has taken effect before (R158). -/

namespace Sys2Proof.Machine

/-- Let the group `k` move: the steps that follow act on it. -/
def State.on (s : State) (k : Nat) : State := { s with cur := k }

/-- Issue again the word at which a group waits, when `i` says it is such a word (R158): a slice that may not issue does
not, and what it issues is counted like any other word (R442, R443, R445). -/
def State.retry (s : State) (k : Nat) (f : Instr → Option (State → Out)) : Out :=
  match (s.group k).await with
  | none => s.idle
  | some i =>
    if !s.aReady k then s.idle
    else match f i with
      | some go => afterIssue k 0 0x03 (s.group k).aret Group.aret (go (s.on k))
      | none => s.idle

/-! ## Runs and values from the compute slice -/

/-- RUN (R9, R119, R172): dispatch a run from `imm20` parcels past the base. -/
def execRun (d : SRegNo) (i : BitVec 20) (s : State) : Out :=
  let g := s.grp
  let base := if d = 0#6 then (s.recOf s.cur).ccode / 4 else bitsOf (g.sreg d).val.toNat 2 53
  let rl := resultLabel g.pA [(g.sreg d).lbl]
  s.whenFree (.run d i) [d]
    (if g.unended.isEmpty then s.faultA fltIllegal
     else if !rl.within (s.ceil s.cur) then s.faultA (fltBranch 2 rl (s.ceil s.cur))
     else if g.slip ≤ g.outstanding ∨ 32 ≤ g.rq.length then s.waits (.run d i)
     else .next (s.setGrp ({ g with rq := g.rq ++ [RQEntry.run ((base + i.toNat) % 2 ^ 53) rl], runs := g.runs + 1 }.advance 4)))

/-- DECOUPLE_DEADLOCK (R9, R10, R174, R327). -/
def fltDeadlock : Flt := { code := 0x0D }

/-- POPCA (R9, R174): pop the head of CA; what the sending quad did before its SENDA then precedes later words (R340). -/
def execPopca (d : SRegNo) (s : State) : Out :=
  let g := s.grp
  s.whenFree (.popca d) [d]
    (match g.ca with
     | e :: es =>
       .next (s.setGrp ((({ g with ca := es, caOrd := g.caOrd.set 0 e.quad (max e.upTo (g.caOrd.get 0 e.quad)) }).setSreg d
         { val := e.val, lbl := e.lbl.join g.pA }).advance 4))
     | [] => if g.unended.isEmpty then s.faultA fltDeadlock else s.waits (.popca d))

/-- Whether the address slice stands at a word that may wait: its team resident, the slice not stopped, and no bell that has
abandoned the wait (R158). -/
def State.standsA (s : State) (k : Nat) : Bool :=
  let g := s.group k
  (s.team (teamOf k)).state == .resident && (s.team (teamOf k)).bell.isNone && !g.astopped && g.ra.isNone && g.fault.isNone

/-- POPCA_DEADLOCK (R174): POPCA waits on an empty CA and no quad can push to it any more. With a LIVE quad that is a
decoupling deadlock, which R326 and R327 find, and at a yield point the quads go on after it (R384); this is the case in
which every quad has ended, or is parked or counts as parked. -/
def execPopcaDeadlock (k : Nat) (s : State) : Out :=
  let g := s.group k
  match g.await with
  | some (.popca d) =>
    if g.ca.isEmpty && !g.sHeld d && s.standsA k && !g.atYield
        && g.paths.all (fun p => p.2.phase == .parked || p.2.phase == .marker) then
      .next ((s.on k).raiseA fltDeadlock)
    else s.idle
  | _ => s.idle

/-- UNPAIRED_DEADLOCK (R10): the address slice has halted, or waits in VSTA on a full SAQ (R326), every quad has ended, and a
store entry has no partner. -/
def execUnpairedDeadlock (k : Nat) (s : State) : Out :=
  let g := s.group k
  let stuck := g.halted || g.aDeadCode == 0x12
  if stuck && g.unended.isEmpty && s.standsA k && !g.finished && (g.saq.isEmpty != g.sdq.isEmpty) then
    .next (s.raiseRec k { flt := fltDeadlock, cslice := false, fpos := 0, fcycle := s.cycle, unpaired := true })
  else s.idle

/-- DECOUPLE_DEADLOCK_DETECT (R326, R327). A quad that waits at a yield marker counts as PARKED. The record names no slice
and no position beside the wait codes (log 96). -/
def execDecoupleDeadlockDetect (k : Nat) (s : State) : Out :=
  let g := s.group k
  let live := g.paths.filter (fun p => p.2.phase != .parked && p.2.phase != .marker)
  if !g.halted && g.aDeadCode != 0 && !live.isEmpty && live.all (fun p => g.cDeadCode p.2 != 0) && s.standsA k && !g.cstopped then
    .next (s.raiseRec k { flt := fltDeadlock, cslice := false, fpos := 0, fcycle := s.cycle, dlk := true })
  else s.idle

/-- Push a yield marker once RQ has room (R190). With every quad ended it is released at once (R18), and the group stands at
its yield point. -/
def State.pushMarker (s : State) (h : Hint) : Out :=
  let g : Group := { s.grp with rq := s.grp.rq ++ [RQEntry.marker h] }
  if g.unended.isEmpty then .next ((s.setGrp ((g.endYield s.tm.pending).trim.advance 4)).pmGroup s.cur 0x0E 1)
  else .next (s.setGrp (g.advance 4))

/-- YIELD (R190): the inline bitmap names v0 to v63; labelled, it is ignored. -/
def execYield (a : SRegNo) (s : State) : Out :=
  let g := s.grp
  s.whenFree (.yield a) [a]
    (if 32 ≤ g.rq.length then s.waits (.yield a)
     else s.pushMarker (if resultLabel g.pA [(g.sreg a).lbl] = 0#16 then .inline (g.sreg a).val else .all))

/-- A liveness record (R385) of a team with `spsize` bytes of scratchpad; nothing when it breaks the layout. -/
def parseLiveness (bs : List Byte) (spsize : Nat) : Option Hint :=
  let nsp := fieldAt bs 2 1
  let fl := fieldAt bs 3 1
  let spr (i : Nat) : Nat × Nat := (fieldAt bs (0x80 + 8 * i) 4, fieldAt bs (0x84 + 8 * i) 4)
  let ranges := (List.range 16).map spr
  if fieldAt bs 0 2 = 1 && nsp ≤ 16 && fl ≤ 1 && fieldAt bs 4 4 == 0 && fieldAt bs 0x70 16 == 0
      && (ranges.take nsp).all (fun r => r.1 % 256 == 0 && r.2 % 256 == 0 && decide (r.1 + r.2 ≤ spsize))
      && (ranges.drop nsp).all (fun r => r.1 == 0 && r.2 == 0) then
    some (.record (fieldAt bs 0x10 96) (BitVec.ofNat 64 (fieldAt bs 8 8)) (ranges.take nsp) (fl == 1))
  else none

/-- YIELD.REC (R190, R385, R395): the record is read once, as it issues. -/
def execYieldRec (a : SRegNo) (s : State) : Out :=
  let g := s.grp
  let x := (g.sreg a).val
  s.whenFree (.yieldRec a) [a]
    (if !addrOk x || x.toNat % 64 ≠ 0 then s.faultA (fltIllegalAt x.toNat)
     else if 32 ≤ g.rq.length then s.waits (.yieldRec a)
     else
       match s.readRec s.cur x.toNat 256 with
       | .bad f => s.faultA f
       | .wait s1 => s1.waits (.yieldRec a)
       | .ok s1 bs l =>
         if !l.within (s.clr s.cur) then s.faultA (fltLoad 0 l (s.clr s.cur) x.toNat)
         else
           match parseLiveness bs (s.recOf s.cur).spsize with
           | none => s.faultA (fltIllegalAt x.toNat)
           | some h => s1.pushMarker (if resultLabel g.pA [(g.sreg a).lbl, l] = 0#16 then h else .all))

/-! ## Flight counters and fences -/

/-- WAITFC (R187). -/
def execWaitfc (c : FC) (n : BitVec 12) (s : State) : Out :=
  if s.grp.fcv c ≤ n.toNat then s.aPass else s.waits (.waitfc c n)

def execWaitfcSatisfied (k : Nat) (s : State) : Out :=
  s.retry k (fun i => match i with | .waitfc c n => some (execWaitfc c n) | _ => none)

/-- Keep the order of a fence between what stands before and what comes after (R188, R345). `sole` says that its scope holds
no agent beside the group (R344). -/
def Group.fence (g : Group) (k : FenceKind) (explicit sole : Bool) : Group :=
  g.issueOp { id := 0, fc := none, run := g.runs, data := .fence k explicit sole }

/-- Whether two groups are agents of one scope (R344): the group itself, its team, its cluster (R367); device and wider
scopes hold every group of the device. -/
def State.inScope (s : State) (sc : Scope) (k j : Nat) : Bool :=
  let t := s.team (teamOf k)
  let u := s.team (teamOf j)
  let n := (s.recOf k).cw * (s.recOf k).ch
  match sc with
  | .group => k == j
  | .team => teamOf k == teamOf j
  | .cluster => t.grid == u.grid && t.teamix / n == u.teamix / n
  | _ => true

/-- Whether a scope holds no agent beside a group: no other unfinished group, and no engine operation that its team has
commanded (R344). Device and wider scopes hold the base dies, and other devices. -/
def State.soleIn (s : State) (sc : Scope) (k : Nat) : Bool :=
  [Scope.group, .team, .cluster].contains sc
    && s.groups.all (fun e => e.1 == k || e.2.finished || !s.inScope sc k e.1)
    && (sc == .group || s.groups.all (fun e => !s.inScope sc k e.1 || e.2.ops.all (fun o => o.doneq || !o.counted)))
    && (sc != .cluster || (s.recOf k).cw * (s.recOf k).ch == 1 || (s.gridOf k).nextTeam == (s.recOf k).n)

/-- What FENCE waits for (R188): every dispatched run passed, and the queue stores of the earlier set performed. -/
def Group.fenceReady (g : Group) : Bool :=
  let paired := !g.saq.isEmpty && (match g.sdq with | e :: _ => g.supplied e | [] => false)
  g.outstanding == 0 && !paired
    && g.ops.all (fun o => o.data != .queueStore || g.saq.any (fun e => e.op == o.id) || o.accs.all (·.done))

/-- FENCE (R188, R344, R345; log 8). -/
def execFence (sc : Scope) (k : FenceKind) (s : State) : Out :=
  if s.grp.fenceReady then .next ((s.setGrp ((s.grp.fence k true (s.soleIn sc s.cur)).advance 4)).settle s.cur)
  else s.waits (.fence sc k)

def execFenceComplete (k : Nat) (s : State) : Out :=
  s.retry k (fun i => match i with | .fence sc f => some (execFence sc f) | _ => none)

/-! ## Barriers -/

/-- A barrier offset: a multiple of 16 in the team's region (R186). -/
def barOk (r : Launch) (n : Nat) : Bool := n % 16 == 0 && decide (n + 16 ≤ r.spsize)

/-- Apply the arrivals held for marked cells of a team that `pick` names, oldest first (R411); one whose label fails
leaves the cell unchanged. -/
def State.applyHeld (s : State) (t : Nat) (pick : Held → Bool) : State :=
  let mine (h : Held) : Bool := h.isFor (s.team t) && (s.team t).marked? h.off && pick h
  let s1 := (s.held.filter mine).foldl (fun a h =>
    match (a.team t).arrive h.off h.count h.lbl h.err with
    | some y => (a.setTeam t y).heldDone h none
    | none => a.heldDone h (some ((a.team t).barrier h.off).lbl)) s
  { s1 with held := s.held.filter (fun h => !mine h) }

/-- BARINIT (R186, R131, R338, R411). -/
def execBarinit (a b : SRegNo) (s : State) : Out :=
  let g := s.grp
  let t := s.tm
  let n := (g.sreg a).val.toNat
  let e := (g.sreg b).val.toNat
  let l := resultLabel g.pA [(g.sreg a).lbl, (g.sreg b).lbl]
  s.whenFree (.barinit a b) [a, b]
    (if !barOk (s.recOf s.cur) n || e = 0 || 65535 < e then s.faultA (fltIllegalAt n)
     else if t.marked? n && (t.barrier n).arr ≠ 0 then s.faultA { code := 0x09, faddr := n }
     else
       let old := if t.marked? n then (t.barrier n).lbl else 0#16
       let t1 := { t.setBarrier n { lbl := old.join l, err := false, phase := false, arr := 0, exp := e } with
                   spMark := t.spMark.set false (n / 16) true }
       let s1 := (s.setTm t1).applyHeld (teamOf s.cur) (fun h => h.off == n)
       .next (s1.setGrp (s1.grp.advance 4)))

/-- BARARV (R186, R131, R346): release at team scope, then arrive S[sb] times at one point. -/
def execBararv (d a b : SRegNo) (s : State) : Out :=
  let g := s.grp
  let t := s.tm
  let n := (g.sreg a).val.toNat
  let e := (g.sreg b).val.toNat
  let l := resultLabel g.pA [(g.sreg a).lbl, (g.sreg b).lbl]
  s.whenFree (.bararv d a b) [a, b, d]
    (if !barOk (s.recOf s.cur) n || e = 0 || 65535 < e || !t.marked? n then s.faultA (fltIllegalAt n)
     else if !g.released false then s.waits (.bararv d a b)
     else
       let o := t.barrier n
       match t.arrive n e l false with
       | none => s.faultA (fltStore 3 l o.lbl n)
       | some t1 => (s.setTm t1).aWrite d (if o.phase then 0#64 else 1#64) (o.lbl.join l) 4)

/-- BARWAIT (R186, R131, R346): wait for the phase in bit 0 of S[sd], then acquire at team scope. -/
def execBarwait (d a : SRegNo) (s : State) : Out :=
  let g := s.grp
  let t := s.tm
  let n := (g.sreg a).val.toNat
  let o := t.barrier n
  s.whenFree (.barwait d a) [a, d]
    (if !barOk (s.recOf s.cur) n || !t.marked? n then s.faultA (fltIllegalAt n)
     else if !o.lbl.within (s.clr s.cur) then s.faultA (fltLoad 2 o.lbl (s.clr s.cur) n)
     else if o.phase != (g.sreg d).val.getLsbD 0 then s.waits (.barwait d a)
     else if o.err then s.faultA { code := 0x09, faddr := n }
     else .next ((s.setGrp ((g.fence .acq false (s.soleIn .team s.cur)).advance 4)).settle s.cur))

def execBarwaitSatisfied (k : Nat) (s : State) : Out :=
  s.retry k (fun i => match i with | .barwait d a => some (execBarwait d a) | _ => none)

/-! ## Accumulator banks and reservations -/

/-- The banks that the resident teams of a core hold (R29, R372). -/
def State.banksTaken (s : State) (core : Nat) : DWord :=
  s.teams.foldl (fun m e => if e.2.state == .resident && e.2.core == core then m ||| e.2.banks else m) 0#64

/-- The numbers of the set bits of a bank mask. -/
def bankList (m : DWord) : List Nat := (List.range 64).filter (fun b => m.getLsbD b)

/-- The mask of a list of banks. -/
def bankMask (bs : List Nat) : DWord := BitVec.ofNat 64 (maskOf 64 (fun b => bs.contains b))

/-- Banks given to a team read zero with the empty label (R116, R176). -/
def Team.grantBanks (t : Team) (bs : List Nat) : Team :=
  { t with banks := t.banks ||| bankMask bs, acc := t.acc.filter (fun e => !bs.contains (e.1 / 32768)),
           bankLbl := t.bankLbl.filter (fun e => !bs.contains e.1), accBad := t.accBad.filter (fun e => !bs.contains (e.1 / 32768)) }

/-- The waiters of a core's ALLOC queue that still wait there, in order (R372): an ALLOC that a stop has abandoned no longer
waits (R158). -/
def State.allocWaiters (s : State) (core : Nat) : List Nat :=
  (s.core core).allocq.filter (fun k => s.standsA k && (s.team (teamOf k)).core == core
    && (match (s.group k).await with | some (.alloc ..) => true | _ => false))

/-- ALLOC (R176, R372): whole banks, granted in arrival order. -/
def execAlloc (d a : SRegNo) (s : State) : Out :=
  let g := s.grp
  let t := s.tm
  let n := (g.sreg a).val.toNat
  let q := s.allocWaiters t.core
  let free := bankList (~~~ s.banksTaken t.core)
  s.whenFree (.alloc d a) [a, d]
    (if n = 0 then s.faultA fltIllegal
     else if (s.recOf s.cur).accpeak < (bankList t.banks).length + n then s.faultA { code := 0x0B }
     else if (q.isEmpty || q.head? == some s.cur) && n ≤ free.length then
       let c := s.core t.core
       let s1 := (s.setTm (t.grantBanks (free.take n))).setCore t.core { c with allocq := c.allocq.filter (· != s.cur) }
       s1.aWrite d (bankMask (free.take n)) (resultLabel g.pA [(g.sreg a).lbl]) 4
     else
       let c := s.core t.core
       (s.setCore t.core { c with allocq := if q.contains s.cur then q else q ++ [s.cur] }).waits (.alloc d a))

/-- ALLOC_GRANT (R176, R372): the head waiter of a core is tried again. -/
def execAllocGrant (core : Nat) (s : State) : Out :=
  match s.allocWaiters core with
  | [] => s.idle
  | k :: _ => s.retry k (fun i => match i with | .alloc d a => some (execAlloc d a) | _ => none)

/-- ALLOC_DEADLOCK_DETECT (R372): the youngest-admitted team that holds banks and has a waiter faults. -/
def execAllocDeadlockDetect (core : Nat) (s : State) : Out :=
  let q := s.allocWaiters core
  let want (k : Nat) : Nat := match (s.group k).await with | some (.alloc _ a) => ((s.group k).sreg a).val.toNat | _ => 0
  let free := (bankList (~~~ s.banksTaken core)).length
  let holders := s.teams.filter (fun e => e.2.state == .resident && e.2.core == core && e.2.banks != 0#64)
  let waits (k : Nat) : Bool := s.standsA k && (match (s.group k).await with | some (.alloc ..) => true | _ => false)
  let stuck := holders.all (fun e => s.groups.all (fun x => teamOf x.1 != e.1 || x.2.finished || waits x.1))
  match q with
  | [] => s.idle
  | h :: _ =>
    if !(decide (free < want h) && stuck) then s.idle
    else
      let cand := q.filter (fun k => holders.any (fun e => e.1 == teamOf k))
      let pick := cand.foldl (fun (a : Option Nat) k => match a with
        | none => some k
        | some b => if (s.team (teamOf b)).admitted < (s.team (teamOf k)).admitted then some k else some b) none
      match pick with
      | none => s.idle
      | some k => .next ((s.on k).raiseA { code := 0x0A })

/-- The bank of a pitch entry's C tile, none for a read of the status (R280, R291). -/
def MxEntry.banks (e : MxEntry) : List Nat :=
  match e.work with
  | .cvt _ _ _ _ _ mode _ _ _ => if mode = 0 then [e.caddr / 131072] else []
  | _ => [e.caddr / 131072]

/-- The operations in flight of a team. -/
def State.teamOps (s : State) (t : Nat) : List Op :=
  (s.groups.filter (fun e => teamOf e.1 == t)).flatMap (fun e => e.2.ops.filter (fun o => !o.doneq))

/-- The bits of an element of a tensor (R412). -/
def tensorWidth (fmt : Nat) : Nat :=
  if fmt = 0x0D ∨ fmt = 0x11 then 4
  else if [0x01, 0x05, 0x09, 0x0A].contains fmt then 16
  else if [0x02, 0x06, 0x08].contains fmt then 32
  else if [0x03, 0x07].contains fmt then 64 else 8

/-- Extent of a dimension. -/
def Tensor.dim (t : Tensor) (i : Nat) : Nat := t.dims.getD i 1

/-- The address of the row of dimension 0 at indices of dimensions 1 to 3, modulo 2^64. -/
def Tensor.row (t : Tensor) (i1 i2 i3 : Nat) : Nat :=
  wrapTo 64 (t.base + i1 * t.strides.getD 0 0 + i2 * t.strides.getD 1 0 + i3 * t.strides.getD 2 0)

/-- Bytes of a row. -/
def Tensor.rowBytes (t : Tensor) : Nat := t.dim 0 * tensorWidth t.fmt / 8

/-- The indices of dimensions 1 to 3, in order. -/
def Tensor.rows (t : Tensor) : List (Nat × Nat × Nat) :=
  (List.range (t.dim 3)).flatMap (fun i3 => (List.range (t.dim 2)).flatMap (fun i2 => (List.range (t.dim 1)).map (fun i1 => (i1, i2, i3))))

/-- The runs of consecutive bytes of one side of a command: address or offset, and length. -/
def spansOf (t : Option Tensor) (addr len : Nat) : List (Nat × Nat) :=
  match t with
  | some x => x.rows.map (fun r => (x.row r.1 r.2.1 r.2.2, x.rowBytes))
  | none => [(addr, len)]

/-- Whether a Porter transfer touches a bank (R177). -/
def PortCmd.touches (c : PortCmd) (b : Nat) : Bool :=
  let hit (p : Nat × Nat) : Bool := decide (p.1 / 131072 ≤ b) && decide (b ≤ (p.1 + p.2 - 1) / 131072)
  (c.sspace == 3 && c.opc != 2 && (spansOf c.st c.src c.len).any hit) || (c.dspace == 3 && (spansOf c.dt c.dst c.len).any hit)

/-- Whether some matrix work, lane access or transfer of the team still touches a bank of a mask (R177). -/
def State.banksBusy (s : State) (t : Nat) (m : DWord) : Bool :=
  (s.team t).pitches.any (fun p => p.2.queue.any (fun e => e.banks.any (fun b => m.getLsbD b)))
    || (s.teamOps t).any (fun o => o.accs.any (fun a => a.space == .acc && m.getLsbD (a.pa / 131072))
        || (match o.data with | .port c _ _ => (bankList m).any c.touches | _ => false))

/-- Whether a bank of a mask is bound to a window handle (R295). -/
def Team.boundIn (t : Team) (m : DWord) : Bool :=
  t.whand.any (fun h => (bankList m).any (fun b => decide (h.2.bank ≤ b) && decide (b < h.2.bank + h.2.nb)))

/-- FREE (R177). -/
def execFree (a : SRegNo) (s : State) : Out :=
  let g := s.grp
  let t := s.tm
  let m := (g.sreg a).val
  s.whenFree (.free a) [a]
    (if m &&& ~~~ t.banks ≠ 0#64 then s.faultA fltIllegal
     else if m = 0#64 then s.aPass
     else if t.boundIn m then s.faultA { code := 0x18 }
     else if s.banksBusy (teamOf s.cur) m then s.waits (.free a)
     else (s.setTm { t with banks := t.banks &&& ~~~ m }).aPass)

def execBankFree (k : Nat) (s : State) : Out :=
  s.retry k (fun i => match i with | .free a => some (execFree a) | _ => none)

/-- The formats a reservation record may name (R178). -/
def resvFormats : List Ty := [.s8, .z8, .f16, .bf16, .e4m3n, .e5m2n, .e2m1n, .q4a, .q8a]

/-- A reservation record of 64 bytes (R178); nothing when it breaks a limit. -/
def parseResv (bs : List Byte) (off : Nat) (l : Label) : Option Resv :=
  match Ty.ofCode (fieldAt bs 0 1) with
  | none => none
  | some t =>
    let grp := fieldAt bs 1 1
    let sf := fieldAt bs 2 1
    let size := fieldAt bs 4 4
    let q := t == .q4a || t == .q8a
    if resvFormats.contains t && grp ≤ 3 && [0x1F, 0x09, 0x10].contains sf && (!q || (1 ≤ grp && sf == 9)) && (sf != 0x1F || grp == 0)
        && fieldAt bs 3 1 == 0 && size % 4096 == 0 && decide (4096 ≤ size) && decide (size ≤ 4194304)
        && fieldAt bs 8 4 % 2 == 0 && (q || fieldAt bs 12 4 == 0) && fieldAt bs 16 48 == 0 then
      some { fmt := t, grp := grp, sfmt := sf, size := size, scoff := fieldAt bs 8 4, zpoff := fieldAt bs 12 4, off := off, lbl := l }
    else none

/-- The lowest free region of a size in a span of `span` bytes (R178). -/
def Team.freeRegion (t : Team) (size span : Nat) : Option Nat :=
  let used := t.resv.map (fun e => (e.2.off, e.2.size))
  let ends := (0 :: used.map (fun u => u.1 + u.2)).filter (fun o =>
    decide (o + size ≤ span) && used.all (fun u => decide (o + size ≤ u.1) || decide (u.1 + u.2 ≤ o)))
  ends.min?

/-- RESV (R178): bind handle S[sb] to a region; a region reads zero until it is written (R116). -/
def execResv (d a b : SRegNo) (s : State) : Out :=
  let g := s.grp
  let t := s.tm
  let x := (g.sreg a).val
  let h := (g.sreg b).val.toNat
  let flt : Flt := { code := 0x0C, faddr := x.toNat }
  s.whenFree (.resv d a b) [a, b, d]
    (if !addrOk x || x.toNat % 64 ≠ 0 then s.faultA (fltIllegalAt x.toNat)
     else if 15 < h || (t.resv.find h).isSome then s.faultA flt
     else
       match s.readRec s.cur x.toNat 64 with
       | .bad f => s.faultA f
       | .wait s1 => s1.waits (.resv d a b)
       | .ok s1 bs l =>
         let lb := resultLabel g.pA [(g.sreg a).lbl, (g.sreg b).lbl, l]
         if !l.within (s.clr s.cur) then s.faultA (fltLoad 0 l (s.clr s.cur) x.toNat)
         else
           match parseResv bs 0 lb with
           | none => s.faultA flt
           | some r =>
             match t.freeRegion r.size ((s.recOf s.cur).wres * 4096) with
             | none => s.faultA flt
             | some off =>
               let t1 := { t with resv := t.resv.put h { r with off := off },
                                  wmem := t.wmem.filter (fun e => decide (e.1 < off) || decide (off + r.size ≤ e.1)),
                                  wBad := t.wBad.filter (fun e => decide (e.1 * 4 < off) || decide (off + r.size ≤ e.1 * 4)) }
               (s1.setTm t1).aWrite d (BitVec.ofNat 64 (t.wBase + off)) lb 4)

/-- Whether matrix work or a Porter transfer of the team still names a handle (R179). -/
def State.handleBusy (s : State) (t h : Nat) : Bool :=
  (s.team t).pitches.any (fun p => p.2.queue.any (fun e => match e.work with
    | .steps _ _ _ _ _ _ _ rows _ _ => rows.any (fun r => r.hnd == h)
    | _ => false))
    || (s.teamOps t).any (fun o => match o.data with | .port c _ _ => c.dspace == 2 && c.hnd == h | _ => false)

/-- UNRESV (R179). -/
def execUnresv (a : SRegNo) (s : State) : Out :=
  let g := s.grp
  let t := s.tm
  let h := (g.sreg a).val.toNat
  s.whenFree (.unresv a) [a]
    (if 15 < h || (t.resv.find h).isNone then s.faultA { code := 0x0C }
     else if s.handleBusy (teamOf s.cur) h then s.waits (.unresv a)
     else (s.setTm { t with resv := t.resv.del h }).aPass)

def execResvRelease (k : Nat) (s : State) : Out :=
  s.retry k (fun i => match i with | .unresv a => some (execUnresv a) | _ => none)

/-! ## Signals -/

/-- SIGADD and SIGDEC (R182): release at system scope, then one atomic update of VALUE by `delta`, at its place among the
group's accesses (R340, R341). An update that the object's device or holders have still to answer is awaited at the word,
so that its failure is found there (R155, R157). -/
def signalUpdate (i : Instr) (delta : DWord) (a b : SRegNo) (s : State) : Out :=
  let g := s.grp
  let x := (g.sreg a).val
  let w := resultLabel g.pA [(g.sreg a).lbl, (g.sreg b).lbl]
  s.whenFree i [a, b]
    (if !addrOk x || x.toNat % 32 ≠ 0 then s.faultA (fltIllegalAt x.toNat)
     else if g.ops.any (fun o => o.data == .signal) || !g.released false || s.memoryFull s.cur then s.waits i
     else
       let acc := s.formAcc s.cur { va := x.toNat, size := 8, kind := .signal, val := delta.toNat }
       if acc.lease then s.faultA (fltLease x.toNat)
       else
         match s.sendCheck s.cur w acc with
         | some f => s.faultA f
         | none =>
           let o : Op := { id := g.nextOp, fc := none, pc := g.apc.toNat, run := g.runs, after := g.caOrd, lbl := w, accs := [acc],
                           data := .signal }
           let s1 := s.issueAccs s.cur o
           match s1.perform s.cur ((s1.grp.op g.nextOp).getD o) (fun _ => true) with
           | .blocked => s.waits i
           | .bad f => s.faultA f
           | .ok s2 accs =>
             if accs.all (·.done) then (s2.setGrp { s2.grp with ops := s2.grp.ops.filter (fun y => y.id != g.nextOp) }).aPass
             else (s2.setGrp ({ s2.grp with ageA := 0 }.setOp { o with accs := accs })).waits i)

def execSigadd (a b : SRegNo) (s : State) : Out := signalUpdate (.sigadd a b) (s.grp.sreg b).val a b s
def execSigdec (a b : SRegNo) (s : State) : Out := signalUpdate (.sigdec a b) (- (s.grp.sreg b).val) a b s

/-- SIGWAIT (R183): wait until VALUE is at or below S[sb], signed; then acquire at system scope. -/
def execSigwait (a b : SRegNo) (s : State) : Out :=
  let g := s.grp
  let x := (g.sreg a).val
  s.whenFree (.sigwait a b) [a, b]
    (if !addrOk x || x.toNat % 32 ≠ 0 then s.faultA (fltIllegalAt x.toNat)
     else
       match s.readRec s.cur x.toNat 8 with
       | .bad f => s.faultA f
       | .wait s1 => s1.waits (.sigwait a b)
       | .ok s1 bs l =>
         if !l.within (s.clr s.cur) then s.faultA (fltLoad 0 l (s.clr s.cur) x.toNat)
         else if BitVec.slt (g.sreg b).val (BitVec.ofNat 64 (ofBytes bs)) then s1.waits (.sigwait a b)
         else .next ((s1.setGrp ((s1.grp.fence .acq false false).advance 4)).settle s.cur))

def execSigwaitReread (k : Nat) (s : State) : Out :=
  s.retry k (fun i => match i with | .sigwait a b => some (execSigwait a b) | _ => none)

/-! ## LAUNCH and EARLY -/

/-- One lease entry (R364). -/
def parseLease (n : Nat) : Lease := { base := bitsOf n 0 39, npg := bitsOf n 39 24, w := bitOf n 63 }

/-- SAVESZ (R363). -/
def Launch.savesz (r : Launch) : Nat :=
  (65536 + r.wres * 4096 + r.gcount * (24576 + r.vregs * 128) + r.spsize + r.accpeak * 196608 + 65535) / 65536 * 65536

/-- The role code of group `g` (R28, R362). -/
def Launch.role (r : Launch) (g : Nat) : Nat := bitsOf r.roles.toNat (2 * g) 2

/-- The fields of a launch record of 256 bytes, as they stand (R362). -/
def readLaunch (bs : List Byte) : Launch :=
  { decomp := bitOf (fieldAt bs 2 1) 0, prio := bitsOf (fieldAt bs 3 1) 0 2, n := fieldAt bs 4 4 + 1, acode := fieldAt bs 8 8,
    ccode := fieldAt bs 0x10 8, asize := fieldAt bs 0x18 4, csize := fieldAt bs 0x1C 4, kbank := fieldAt bs 0x20 8,
    xyz := BitVec.ofNat 64 (fieldAt bs 0x28 8), gcount := fieldAt bs 0x30 1, lanes := fieldAt bs 0x31 1,
    vregs := fieldAt bs 0x32 2, pitches := fieldAt bs 0x34 1, accpeak := fieldAt bs 0x35 1, cw := bitsOf (fieldAt bs 0x36 1) 0 4,
    ch := bitsOf (fieldAt bs 0x36 1) 4 4, roles := BitVec.ofNat 64 (fieldAt bs 0x38 8), spsize := fieldAt bs 0x40 4,
    wres := fieldAt bs 0x44 2, ctxsz := fieldAt bs 0x46 2, clr := BitVec.ofNat 16 (fieldAt bs 0x48 2),
    pceil := BitVec.ofNat 16 (fieldAt bs 0x4A 2), deadline := fieldAt bs 0x4C 4, donesig := fieldAt bs 0x50 8,
    earlysig := fieldAt bs 0x58 8, fltsig := fieldAt bs 0x60 8, syssig := fieldAt bs 0x68 8, status := fieldAt bs 0x70 8,
    ctxarea := bitsOf (fieldAt bs 0x78 8) 16 39 * 65536, ctxn := bitsOf (fieldAt bs 0x78 8) 0 16 + 1,
    leases := (List.range 16).map (fun i => parseLease (fieldAt bs (0x80 + 8 * i) 8)) }

/-- The limits of R362 and R363: what LAUNCH refuses with ILLEGAL. An address above bit 54 is among it (log 101). -/
def launchOk (bs : List Byte) : Bool :=
  let r := readLaunch bs
  let xyz := r.xyz.toNat
  fieldAt bs 0 2 == 1 && fieldAt bs 2 1 ≤ 1 && fieldAt bs 3 1 ≤ 3 && r.acode % 4 == 0 && decide (r.acode < 2 ^ 55)
    && r.ccode % 128 == 0 && decide (r.ccode < 2 ^ 55) && r.asize % 4 == 0 && decide (4 ≤ r.asize) && decide (r.asize ≤ 2 ^ 24)
    && r.csize % 128 == 0 && decide (128 ≤ r.csize) && decide (r.csize ≤ 4194304) && r.kbank % 64 == 0 && decide (r.kbank < 2 ^ 55)
    && (if r.decomp then bitsOf xyz 63 1 == 0 && bitsOf xyz 0 21 * bitsOf xyz 21 21 * bitsOf xyz 42 21 == r.n else xyz == 0)
    && decide (1 ≤ r.gcount) && decide (r.gcount ≤ 32) && decide (1 ≤ r.lanes) && decide (r.lanes ≤ 32)
    && decide (32 ≤ r.vregs) && decide (r.vregs ≤ 768) && r.vregs % 32 == 0 && decide (r.pitches ≤ 2) && decide (r.accpeak ≤ 64)
    && decide (1 ≤ r.cw) && decide (r.cw ≤ 8) && decide (1 ≤ r.ch) && decide (r.ch ≤ 9) && decide (r.cw * r.ch ≤ 12)
    && r.n % (r.cw * r.ch) == 0 && fieldAt bs 0x37 1 == 0
    && (List.range 32).all (fun g => if g < r.gcount then r.role g != 3 else r.role g == 0)
    && r.spsize % 256 == 0 && decide (r.spsize ≤ 1048576) && decide (r.wres ≤ 1024) && decide (1 ≤ r.ctxsz)
    && decide (r.deadline ≤ 1000000) && r.status % 8 == 0 && bitsOf (fieldAt bs 0x78 8) 55 9 == 0
    && decide (r.gcount * r.vregs ≤ 4096) && decide (65536 + r.savesz ≤ r.ctxsz * 65536)

/-- A grid from an accepted record. -/
def State.newGrid (s : State) (r : Launch) (lrec ctx : Nat) : State :=
  { s.setGrid s.launches { rec_ := r, lrec := lrec, ctx := ctx, order := s.launches } with launches := s.launches + 1 }

/-- LAUNCH (R139, R184, R362, R363). -/
def execLaunch (a : SRegNo) (s : State) : Out :=
  let g := s.grp
  let x := (g.sreg a).val
  let l0 := resultLabel g.pA [(g.sreg a).lbl]
  s.whenFree (.launch a) [a]
    (if !addrOk x || x.toNat % 256 ≠ 0 then s.faultA (fltIllegalAt x.toNat)
     else if l0 ≠ 0#16 then s.faultA (fltMsg 2 l0 0#16 x.toNat)
     else if !g.released false then s.waits (.launch a)
     else
       match s.readRec s.cur x.toNat 256 with
       | .bad f => s.faultA f
       | .wait s1 => s1.waits (.launch a)
       | .ok s1 bs l =>
         if l ≠ 0#16 then s.faultA (fltMsg 2 l 0#16 x.toNat)
         else if !launchOk bs then s.faultA (fltIllegalAt x.toNat)
         else (s1.newGrid (readLaunch bs) x.toNat (s.ctxOf s.cur)).aPass)

/-- The early release of a grid (R185): EARLYSIG is decremented once every group of every team has executed EARLY or
finished. -/
def State.earlyRelease (s : State) (gr : Nat) : State :=
  let x := s.grid gr
  let mine (t : Nat) : Bool := (s.team t).grid == gr
  let all := (x.nextTeam == x.rec_.n || x.gend)
    && s.groups.all (fun e => !mine (teamOf e.1) || e.2.early || e.2.finished || (s.team (teamOf e.1)).state == .ended)
  if all && !x.earlyDone then (s.setGrid gr { x with earlyDone := true }).deviceSignal x.ctx x.rec_.earlysig else s

/-- EARLY (R139, R185): release at system scope, then this group counts; a second EARLY has no effect. -/
def execEarly (s : State) : Out :=
  let g := s.grp
  if g.pA ≠ 0#16 then s.faultA (fltMsg 2 g.pA 0#16 0)
  else if !g.released false then s.waits .early
  else .next ((s.setGrp ({ g with early := true }.advance 4)).earlyRelease s.tm.grid)

/-! ## Requests to the runtime and the Weighhouse -/

/-- The address of a group's syscall slot (R378, R383). -/
def State.slotAddr (s : State) (k : Nat) : Nat := s.blockAddr (teamOf k) + 0x400 + 1024 * (s.group k).gidx

/-- SSTATE of a group's slot (R383). -/
def State.sstate (s : State) (k : Nat) : Nat := ofBytes (s.deviceRead (s.ctxOf k) (s.slotAddr k) 1)

/-- The place of SSTATE of a group's slot. -/
def State.slotSpan (s : State) (k : Nat) : List (Nat × Nat) := [(s.slotAddr k, 1)]

/-- SSTATE has been read, where another device holds the slot. -/
def State.slotRead (s : State) (k : Nat) : Bool := (s.missing (s.ctxOf k) (s.slotSpan k)).isEmpty

/-- Ask for SSTATE of a slot that another device holds, afresh where it has been read. -/
def State.askSlot (s : State) (k : Nat) : State :=
  if s.slotRead k then s.forget (s.ctxOf k) (s.spansAway (s.ctxOf k) (s.slotSpan k)) else s.askSpans (s.ctxOf k) (s.slotSpan k)

/-- Post a request in the slot (R383): REQ, KIND and TCODE, then SSTATE := 1, then SYSSIG falls by one. -/
def State.postRequest (s : State) (k kind tcode : Nat) (req : List Byte) : State :=
  let c := s.ctxOf k
  let x := s.slotAddr k
  let s1 := (s.deviceWrite c (x + 0x40) req).deviceWrite c (x + 1) (bytesOf kind 1 ++ bytesOf tcode 1)
  (State.inOrder c [.write x [1#8], .signal (s.recOf k).syssig] s s1).forget c (s.spansAway c (s.slotSpan k))

/-- TRAP (R137, R189, R383): release, post the code and four registers, then wait for the reply; the release is waited for at
issue (log 40). A fault of TRAP records its code (R380). -/
def execTrap (d a c : SRegNo) (s : State) : Out :=
  let g := s.grp
  let reg (i : Nat) : SVal := g.sreg (a + BitVec.ofNat 6 i)
  let l := resultLabel g.pA [(reg 0).lbl, (reg 1).lbl, (reg 2).lbl, (reg 3).lbl]
  let epl := (s.ctx (s.ctxOf s.cur)).eplRuntime
  let bad (f : Flt) : Out := s.faultA { f with kcode := c.toNat }
  s.whenFree (.trap d a c) [a, a + 1#6, a + 2#6, a + 3#6]
    (if 60 < a.toNat then bad fltIllegal
     else if (s.recOf s.cur).syssig = 0 then bad fltIllegal
     else if !l.within epl then bad (fltMsg 3 l epl 0)
     else if g.ops.any (fun o => o.data == .syscall && !o.cslice) then s.waits (.trap d a c)
     else if g.sHeld d then s.waits (.trap d a c)
     else if !s.slotRead s.cur || s.sstate s.cur ≠ 0 then (s.askSlot s.cur).waits (.trap d a c)
     else if !g.released false then s.waits (.trap d a c)
     else
       let req := [0, 1, 2, 3].flatMap (fun i => bytesOf (reg i).val.toNat 8) ++ bytesOf l.toNat 2
       let s1 := s.postRequest s.cur 1 c.toNat req
       (s1.setGrp ({ s1.grp with ageA := 0 }.issueOp
         { id := 0, fc := none, pc := g.apc.toNat, adst := some d, lbl := l, data := .syscall })).waits (.trap d a c))

/-- The declassify function of R148 on one core's entries: the flag, the label, and the entries with budgets paid. -/
def declassify (es : List Endorse) (hash : BitVec 512) (l x lx k : Label) : Bool × Label × List Endorse :=
  let need := l &&& x
  let n := (l.without x).join (lx.join k)
  let owners := (List.range 16).filter (fun o => need.getLsbD o)
  let entry (o : Nat) : Option Nat :=
    es.findIdx? (fun e => e.owner == o && e.codeh == hash && decide (0 < e.budget) && n.within e.rlbl)
  let used := owners.map entry
  if used.any (·.isNone) then (false, l, es)
  else
    let paid := es.zipIdx.map (fun e =>
      if used.contains (some e.2) && e.1.budget != 0xFFFFFFFF then { e.1 with budget := e.1.budget - 1 } else e.1)
    (true, n, paid.filter (fun e => e.budget != 0))

/-- The Weighhouse of a group's core answers a declassify request (R148, R150). -/
def State.weigh (s : State) (k : Nat) (l x lx kl : Label) : Bool × Label × State :=
  let core := (s.team (teamOf k)).core
  let c := s.core core
  let r := declassify (c.endorse.get [] (s.ctxOf k)) (s.gridOf k).hash l x lx kl
  (r.1, r.2.1, s.setCore core { c with endorse := c.endorse.put (s.ctxOf k) r.2.2 })

/-- A request of a group reaches the Weighhouse of its core (R150). -/
def State.askWeigh (s : State) (k op : Nat) : State :=
  let n := (s.team (teamOf k)).core
  let c := s.core n
  s.setCore n { c with weighq := c.weighq ++ [(k, op)] }

/-- DCLS (R148, R149, R154, R191): a request to the Weighhouse; sd and sa are held until the answer. -/
def execDcls (d a b : SRegNo) (s : State) : Out :=
  let g := s.grp
  s.whenFree (.dcls d a b) [a, b, d]
    (let o : Op := { id := 0, fc := none, pc := g.apc.toNat, lbl := g.pA,
                     data := .dcls d a ((g.sreg b).val.truncate 16) (g.sreg b).lbl }
     .next ((s.askWeigh s.cur g.nextOp).setGrp ((g.issueOp o).advance 4)))

end Sys2Proof.Machine
end

