-- ==== Sys2Proof/Machine/CSlice.lean ====
section
/-! DEFINITION. What every compute-stream instruction of three or four parcels does at issue (R80, R195, R198, R226-R228,
R276, R310-R311, R324): the checks in their order, the waits, the operands and pops, the tickets, and the advance of the
path. -/

namespace Sys2Proof.Machine

/-- What an issue has read: the fields, the gang's quads, the lanes in `written`, whether the write is full (R120), the
context label K, and the operands of the slots SA, SB (or the immediate) and SC. -/
structure CIn where
  f : CFields
  qmask : Nat
  written : Word
  full : Bool
  k : Label
  a : Operand
  b : Operand
  c : Operand

/-- How the own part of an instruction ends at issue. -/
inductive CRes where
  | fault (f : Flt) (brk : Bool)
  /-- The instruction waits; nothing of it has taken effect (R198). -/
  | wait (code : Nat)
  /-- It waits, and the device has asked for what it waits for. -/
  | asks (s : State) (code : Nat)
  /-- It has issued, at a cost in issue cycles. -/
  | done (s : State) (cost : Nat)

/-- What differs between instructions before their operands are read: the type of an immediate (R196), field rules that
need VREGS, the role (R28), further registers read or written (R226), whether it has zero cost on a path without lanes
(R324), the quads whose part of a run temporary the slots A, B and C read beside the gang's own (R14, R118), and the counter
it raises (R27). -/
structure CSpec where
  imm : Option Ty := none
  static : Nat → Bool := fun _ => true
  role : Option Nat := none
  reads : List Dst := []
  writes : List Dst := []
  free : Bool := false
  qa : Nat := 0
  qb : Nat := 0
  qc : Nat := 0
  fc : Option FC := none

end Sys2Proof.Machine

namespace Sys2Proof

/-- The registers and predicates a row's slots name as read. -/
def CRow.readSet (r : CRow) (f : CFields) : List Machine.Dst :=
  (r.sources f).map Machine.Dst.reg ++ (if f.pr = 0#3 then [] else [Machine.Dst.pred f.pr.toNat])
    ++ (match r.slotD f with | .source => [Machine.Dst.reg f.dst.toNat] | _ => [])
    ++ (if r.a == .predicate then [Machine.Dst.pred f.sa.toNat] else [])
    ++ (if r.c == .predicate then [Machine.Dst.pred f.sc.toNat] else [])

/-- The register or predicate a row's DST slot names as written. -/
def CRow.writeSet (r : CRow) (f : CFields) : List Machine.Dst :=
  match r.slotD f with
  | .fixedLatency | .vectorOnly => [Machine.Dst.reg f.dst.toNat]
  | .compare _ => [Machine.Dst.pred (f.dst.toNat % 8)]
  | _ => []

end Sys2Proof

namespace Sys2Proof.Machine

/-- A register or predicate is held for a quad of the mask (R226): an operation of variable latency has still to write
it. -/
def Group.held (g : Group) (qmask : Nat) (ds : List Dst) : Bool :=
  g.ops.any (fun o => o.cslice && !o.doneq && o.quads &&& qmask != 0 && ds.any (fun d => o.dsts.contains d))

/-- Whether an entry of the queue of pitch `p` has still to read register `r` of A: one of a step not begun, unless its A
data comes from the latch (R275-R277). -/
def MxEntry.willRead (e : MxEntry) (p r : Nat) : Bool :=
  match e.work with
  | .steps _ abase inc n _ ra _ _ _ _ =>
    let base := abase + (if e.both then p * ra else 0)
    !e.latched && (List.range (n - e.step)).any (fun j =>
      decide (base + (e.step + j) * inc ≤ r) && decide (r < base + (e.step + j) * inc + ra))
  | _ => false

/-- A register carries the read hold of a matrix instruction of the group (R276). -/
def State.readHeld (s : State) (k : Nat) (ds : List Dst) : Bool :=
  (s.team (teamOf k)).pitches.any (fun p => p.2.queue.any (fun e => e.g == k && ds.any (fun d => match d with
    | .reg r => e.willRead p.1 r
    | _ => false)))

/-- The current path of a group's scheduler (R315). -/
def State.current (s : State) (k : Nat) : Option (Nat × Nat) := (s.core (s.team (teamOf k)).core).current.get none (s.group k).sched

/-- A path becomes the current path of its scheduler (R315). -/
def State.setCurrent (s : State) (k p : Nat) : State :=
  let n := (s.team (teamOf k)).core
  let c := s.core n
  s.setCore n { c with current := c.current.set none (s.group k).sched (some (k, p)) }

/-- A group's scheduler has no current path (R315). -/
def State.clearCurrent (s : State) (k : Nat) : State :=
  let n := (s.team (teamOf k)).core
  let c := s.core n
  s.setCore n { c with current := c.current.set none (s.group k).sched none }

/-- The path waits at its instruction (R198, R315). -/
def State.cWait (s : State) (code : Nat) : Out := .next (s.setPath { s.path with waitc := code })

/-- The instruction of `n` parcels has issued: the path moves past it, it counts in CRET, and its issue cycles pass
(R75, R76, R310, R376). -/
def State.cDone (s : State) (n cost : Nat) : Out :=
  let p := s.path
  let s1 := s.setPath { p with pos := nextPos p.pos n, icount := p.icount + 1, waitc := 0, pass := false }
  .next (s1.setGrp ({ s1.grp with cret := s1.grp.cret + 1, ageC := 0 }.tick p.qmask cost))

/-- BREAK or another fault of the path that moves, at its position (R80, R260). -/
def State.faultBrk (s : State) (f : Flt) (brk : Bool) : Out :=
  .next (s.raiseRec s.cur { flt := f, cslice := true, fpos := s.path.pos, fcycle := s.cycle, fpath := some s.curPath, brk := brk })

/-- The fault of a pop of a poisoned entry (R330): the entry's cause, and its VLD's address as APC. -/
def State.faultPoison (s : State) (q : Nat) (e : LQEntry) : Out :=
  .next ((s.setGrp { s.grp with ra := some e.vld }).raiseRec s.cur
    { flt := e.poison.getD fltIllegal, cslice := true, fpos := s.path.pos, fcycle := s.cycle, pq := q, fpath := some s.curPath })

/-- The operand of the SB slot: the register or queue, or 32 copies of the immediate (R72). -/
inductive BRead where
  | ok (s : State) (b : Operand)
  | bad (f : Flt)
  | wait (s : State)

/-- Read the SB operand. -/
def State.readB (s : State) (f : CFields) (imm : Option Ty) (slot : Slot) (tmask pops : Nat) : BRead :=
  let all (w : Word) : Operand := { lanes := List.replicate 32 w, lbl := 0#16 }
  match f.imm with
  | .none =>
    .ok s (if slot == .unused then all 0#32 else s.grp.readCode s.freeCtr s.path.qmask tmask pops f.sb.toNat)
  | .i20 v => .ok s (all (immWord imm f.rm v))
  | .lit w => .ok s (all w)
  | .k n =>
    match s.readCode s.cur ((s.recOf s.cur).kbank + 4 * n.toNat) 4 with
    | .ok s1 bs _ => .ok s1 (all (BitVec.ofNat 32 (ofBytes bs)))
    | .bad e => .bad e
    | .wait s1 => .wait s1

/-- The issue of an instruction (R80): field rules, role, tickets; then the holds and pops it waits for; then its
operands are read, its pops made, and `body` acts. -/
def cIssue (i : Instr) (x : CSpec) (body : CIn → State → CRes) (s : State) : Out :=
  match i.cForm with
  | none => s.idle
  | some (cls, op, f) =>
    match cRow cls op with
    | none => s.faultC fltIllegal
    | some r =>
      let g := s.grp
      let p := s.path
      let codes := r.sources f
      let qs := quadSet p.qmask
      let tk := f.tk.toNat
      if !(r.codesOk f g.nvregs && x.static g.nvregs) then s.faultC fltIllegal
      else if x.role.any (· != g.role) then s.faultC { code := 0x02 }
      else if tk != 0 && qs.any (fun q => (g.quad q).ticket tk != 0) then s.faultC { code := 0x19, kcode := tk }
      else if g.held p.qmask (r.readSet f ++ r.writeSet f ++ x.reads ++ x.writes) then s.cWait 0x106
      else if s.readHeld s.cur (r.writeSet f ++ x.writes) then s.cWait 0x10D
      else if x.fc.any (s.pathFull s.cur) then s.cWait 0x106
      else
        match g.popsOf p.qmask codes with
        | .wait c => .next (s.setPath { p with waitc := c, pops := codes })
        | .poison q e => s.faultPoison q e
        | .ready =>
          let na := (r.a.code f.sa).length
          let nb := ((r.slotB f).code f.sb).length
          let rd (slot : Slot) (v : BitVec 10) (quads n : Nat) : Operand :=
            if (slot.code v).isEmpty then { lanes := List.replicate 32 0#32, lbl := 0#16 }
            else g.readCode s.freeCtr p.qmask (p.qmask ||| quads) ((codes.take n).count v.toNat) v.toNat
          match s.readB f x.imm (r.slotB f) (p.qmask ||| x.qb) ((codes.take na).count f.sb.toNat) with
          | .bad e => s.faultC e
          | .wait s1 => s1.cWait 0x102
          | .ok s1 b =>
            let inp : CIn :=
              { f := f, qmask := p.qmask, written := g.writtenLanes p f, full := g.fullIssue p f, k := g.kLabel p f,
                a := rd r.a f.sa x.qa 0, b := b, c := rd (r.slotC f) f.sc x.qc (na + nb) }
            match body inp (s1.setGrp (s1.grp.pop p.qmask codes)) with
            | .fault e brk => s.faultBrk e brk
            | .wait c => s.cWait c
            | .asks s1 c => s1.cWait c
            | .done s2 cost =>
              let none := x.free && g.active p == 0#32 && !codes.any isQueue
              let s3 := if inp.written = 0#32 then s2.pmGroup s.cur 0x06 (4 * qs.length) else s2
              s3.cDone (if f.imm.code == 2 then 4 else 3) (if none then 0 else cost)

/-! ## What bodies use -/

/-- The result label of R118 over the operands of the slots. -/
def CIn.label (x : CIn) : Label := resultLabel x.k [x.a.lbl, x.b.lbl, x.c.lbl]

/-- Lane `l` of an operand. -/
def Operand.at (o : Operand) (l : Nat) : Word := laneAt o.lanes l

/-- Schedule a write of fixed latency. On a path without lanes only the label is written, which takes no cycle (R324). -/
def State.fxWrite (s : State) (x : CIn) (lat : Nat) (d : Dst) (vals : List Word) (lbl : Label) : State :=
  s.setGrp (s.grp.schedule { qmask := x.qmask, dst := d, mask := x.written, vals := vals, full := x.full, lbl := lbl,
                             left := if s.grp.active s.path = 0#32 then 0 else lat })

/-- What an issue without a lane in `written` leaves of its writes: K joins the labels of its destinations, after any older
write that has still to land (R117, R124, R228). -/
def Group.labelOnly (g : Group) (qmask : Nat) (k : Label) (ds : List Dst) : Group :=
  ds.foldl (fun h d => h.schedule { qmask := qmask, dst := d, mask := 0#32, vals := [], full := false, lbl := k, left := 0 }) g

/-- An instruction of fixed latency that writes one register lane by lane (R195). -/
def cLanes (i : Instr) (imm : Option Ty) (lat : Nat) (v : CIn → State → Nat → Word) (s : State) : Out :=
  cIssue i { imm := imm, free := true } (fun x s1 =>
    .done (s1.fxWrite x lat (.reg x.f.dst.toNat) (lanesOf (v x s1)) x.label) 1) s

/-- Set a ticket of every quad of a mask; TK = 0 is no ticket (R22, R227). -/
def Group.setTickets (g : Group) (qmask tk v : Nat) : Group :=
  if tk = 0 then g else g.mapQuads qmask (fun _ q => q.setTicket tk v)

/-- Complete a ticket that is PENDING (R22). -/
def Group.doneTickets (g : Group) (qmask tk : Nat) : Group :=
  if tk = 0 then g else g.mapQuads qmask (fun _ q => if q.ticket tk = 1 then q.setTicket tk 2 else q)

/-- The run that a quad mask executes, counted as runs passed so far and this one (R340). -/
def Group.runOf (g : Group) (qmask : Nat) : Nat :=
  match quadSet qmask with
  | q :: _ => (g.quad q).passed + 1
  | [] => 1

/-- Issue an operation of variable latency or a counted operation of the path that moves (R226-R228, R231): its counter
rises, its ticket is PENDING and its destinations are held; a gang without a lane in `written` has nothing done, but that K
joins the labels of its destinations (R124), and its ticket is DONE at once. -/
def State.issueLanes (s : State) (x : CIn) (o : Op) : State :=
  let g := s.grp
  let o1 := { o with cslice := true, quads := x.qmask, pc := s.path.pos, run := g.runOf x.qmask, tk := x.f.tk.toNat,
                     mask := x.written, full := x.full }
  if x.written = 0#32 then
    (s.setGrp (((g.labelOnly x.qmask x.k o.dsts).issueOp { o1 with doneq := true, accs := [], dsts := [] }).setTickets x.qmask
      o1.tk 2)).settle s.cur
  else (s.setGrp (g.setTickets x.qmask o1.tk 1)).issueAccs s.cur o1

/-- The lanes in `written`. -/
def CIn.laneList (x : CIn) : List Nat := (List.range 32).filter (fun l => x.written.getLsbD l)

end Sys2Proof.Machine
end

