-- ==== Sys2Proof/Machine/CMemory.lean ====
section
/-! DEFINITION. Lane accesses to global memory, scratchpad and accumulator memory, the queue operations STD and SENDA, and
the steps in which lane accesses and contributions are performed (R226-R248, R349-R353, R410, R411). -/

namespace Sys2Proof.Machine

/-! ## Addresses -/

/-- ILLEGAL at the first lane of `written` whose address or offset is not acceptable. -/
def CIn.badLane (x : CIn) (addr : Nat → Nat) (ok : Nat → Bool) : Option Flt :=
  (x.laneList.find? (fun l => !ok (addr l))).map (fun l => fltIllegalAt (addr l))

/-- The register after the one named by SA, the high half of an address pair (R229). -/
def CFields.hi (f : CFields) : Nat := f.sa.toNat + 1

/-- The lane address of R229 from the pair A and `h`, with an offset. -/
def CIn.pairAddr (x : CIn) (h : Operand) (off : Nat → Int) (l : Nat) : Nat :=
  wrapTo 64 ((h.at l).toNat * 2 ^ 32 + (x.a.at l).toNat + off l)

/-- The offset of R229: B read as S32. -/
def CIn.offS32 (x : CIn) (l : Nat) : Int := signedOf 32 (x.b.at l).toNat

/-- An address of R229 is acceptable for elements of `n` bytes. -/
def laneOk (n a : Nat) : Bool := decide (a < 2 ^ 55) && a % n == 0

/-- What an instruction with an address pair tells `cIssue`: both registers lie within VREGS, and both are read (R226,
R229). -/
def pairSpec (f : CFields) (fc : FC) : CSpec :=
  { imm := some .s32, static := fun v => decide (CFields.hi f < v), reads := [.reg (CFields.hi f)],
    fc := some fc }

/-- The high half of the address pair as it is read. -/
def State.pairHi (s : State) (f : CFields) : Operand := s.grp.readCode 0 0 0 0 (CFields.hi f)

/-- A byte offset of R239 and R247, modulo 2^32. -/
def CIn.bufOff (x : CIn) (useB : Bool) (l : Nat) : Nat :=
  ((x.a.at l).toNat + (if useB then (x.b.at l).toNat else 0)) % 2 ^ 32

/-- The passes of a scratchpad access (R240): the most distinct words that its lanes name in one bank. -/
def bankPasses (offs : List Nat) : Nat :=
  let words := (offs.map (· / 4)).eraseDups
  ((List.range 32).map (fun b => words.countP (fun w => w % 32 == b))).foldl max 1

/-! ## Completion -/

/-- An element as a lane word: sign-extended for S types, zero-extended for the others (R233). -/
def extendTy (t : Ty) (v : Nat) : Word :=
  if t.isSigned then BitVec.ofInt 32 (signedOf t.width v) else BitVec.ofNat 32 (v % 2 ^ t.width)

/-- Write the destination of a lane access (R233, R236): the lanes it wrote, with the labels of every granule read and,
unless it is an atomic (R129), its own label. -/
def Group.writeLanes (g : Group) (o : Op) : Group :=
  match o.dsts with
  | [d] =>
    let gl := Label.joinAll (o.accs.map (·.glbl))
    let val (l : Nat) : Word := match o.accs.find? (fun a => a.lane == l) with
      | some a => extendTy o.ety a.got
      | none => 0#32
    g.land { qmask := o.quads, dst := d, mask := o.mask, vals := lanesOf val, full := o.full,
             lbl := if o.accs.any (·.kind.isStore) then gl else gl.join o.lbl, left := 0 }
  | _ => g

/-- A lane access completes (R128, R230, R231): its destination is written unless a lane failed, its ticket is DONE, its
counter falls in issue order, and a failure is then reported. -/
def State.finishLanes (s : State) (k : Nat) (o : Op) : State :=
  let g := s.group k
  let f := o.failure (s.clr k)
  let g1 := if f.isSome then g else g.writeLanes o
  (s.setGroup k ((g1.doneTickets o.quads o.tk).setOp { o with fail := f, doneq := true })).settle k

/-! ## Notify arrivals -/

/-- How an arrival through a barrier reference ends at a device (R411): it waits for room, the reference is rejected, the
object's label does not contain the arrival's, or it is applied, held or discarded. -/
inductive Arrival where
  | wait
  | rejected
  | badLabel (l : Label)
  | ok (s : State)

/-- Resolve and make an arrival at a team of a grid of this device (R186, R131, R411). One that is held is answered when
it has been applied. -/
def State.arriveAt (s : State) (h : Held) : Arrival :=
  let r := (s.grid h.grid).rec_
  let hold : Arrival := if 4096 ≤ s.held.length then .wait else .ok { s with held := s.held ++ [h] }
  if r.n ≤ h.teamix || !barOk r h.off then .rejected
  else
    match s.teams.find? (fun e => h.isFor e.2) with
    | none => hold
    | some (t, x) =>
      match x.state with
      | .retired | .ended => .ok (s.heldDone h none)
      | .resident =>
        if x.marked? h.off then
          (match x.arrive h.off h.count h.lbl h.err with
           | some y => .ok ((s.setTeam t y).heldDone h none)
           | none => .badLabel (x.barrier h.off).lbl)
        else hold
      | _ => hold

/-- The device, team index and offset of a barrier reference (R410). -/
def refDev (r : DWord) : Nat := bitsOf r.toNat 54 10
def refTeam (r : DWord) : Nat := bitsOf r.toNat 20 32
def refOff (r : DWord) : Nat := bitsOf r.toNat 0 20

/-- What a notify frame carries beside its reference: the arrival's count, its ERR and the sender's kernel hash (R411;
log 22). -/
def notifyPayload (n : Nat) (err : Bool) (hash : BitVec 512) : List Byte :=
  bytesOf n 4 ++ bytesOf (if err then 1 else 0) 4 ++ bytesOf hash.toNat 64

/-- Whether some request of an operation is still without an answer, or its arrival is held here. -/
def State.asked (s : State) (k id : Nat) : Bool :=
  s.tags.any (fun e => e.2.g == k && e.2.op == id) || s.held.any (fun h => h.reply.isNone && h.g == k && h.op == id)

/-- The outcome of making the arrival of a transfer that a group commanded: it waits, the transfer fails, or it has been
made or held here, or sent (R410, R411). -/
inductive Notified where
  | wait
  | bad (f : Flt)
  | ok (s : State)

/-- Make the arrival of a transfer: at this device in the sender's grid, or by a notify frame. -/
def State.notifyRef (s : State) (k : Nat) (o : Op) (ref : DWord) (n : Nat) (l : Label) (err : Bool) : Notified :=
  let ill : Notified := .bad (fltIllegalAt ref.toNat)
  let ctx := s.ctx (s.ctxOf k)
  if bitsOf ref.toNat 52 2 ≠ 0 then ill
  else if refDev ref = s.devn then
    match s.arriveAt { grid := (s.team (teamOf k)).grid, teamix := refTeam ref, off := refOff ref, count := n, lbl := l, err := err,
                       g := k, op := o.id } with
    | .wait => .wait
    | .rejected => ill
    | .badLabel c => .bad (fltStore 3 l c (refOff ref))
    | .ok s1 => .ok s1
  else if !s.routed (refDev ref) then ill
  else if s.fenced.contains (refDev ref) then .bad { code := 0x16, faddr := ref.toNat }
  else if !l.within (ctx.eplDev (refDev ref)) then .bad (fltMsg 0 l (ctx.eplDev (refDev ref)) ref.toNat)
  else
    let x := s.newTag { g := k, op := o.id, k := o.accs.length, dev := refDev ref }
    .ok (x.1.send { x.1.frame .notify 1 (refDev ref) (s.ctxOf k) l x.2 0 ref.toNat with
                    payload := notifyPayload n err (s.gridOf k).hash })

/-- A lane operation all of whose lanes have been performed ends (R235): a notify store first makes its arrival, with ERR
when a lane failed after issue, and ends once an arrival at another device has been answered. -/
def State.endLanes (s : State) (k : Nat) (o : Op) : State :=
  match o.data with
  | .notify ref n l made =>
    if made then (if s.asked k o.id then s.setGroup k ((s.group k).setOp o) else s.finishLanes k o)
    else
      (match s.notifyRef k o ref n l (o.failure (s.clr k)).isSome with
       | .wait => s.setGroup k ((s.group k).setOp o)
       | .bad f => s.finishLanes k { o with fail := (o.failure (s.clr k)).or (some f), data := .notify ref n l true }
       | .ok s1 =>
         let o1 := { o with data := .notify ref n l true }
         if s1.asked k o.id then s1.setGroup k ((s1.group k).setOp o1) else s1.finishLanes k o1)
  | _ => s.finishLanes k o

/-- An operation of lane accesses, a notify store among them. -/
def Op.lanes? (o : Op) : Bool := o.cslice && (match o.data with | .mem | .notify .. => true | _ => false)

/-- LANE_ACCESS_COMPLETE (R128, R230, R231, R233-R247): what is left of the lanes is performed at one point (log 19), and
the operation ends. -/
def execLaneAccessComplete (k op : Nat) (s : State) : Out := s.completeWith k op Op.lanes? (fun s1 o => s1.endLanes k o)

/-! ## Global lane accesses -/

/-- The access of lane `l` at a virtual address, formed. -/
def State.laneAcc (s : State) (l va n : Nat) (kind : AccKind) (val cmp : Nat) : Acc :=
  s.formAcc s.cur { lane := l, va := va, size := n, kind := kind, val := val, cmp := cmp }

/-- VLDX (R229, R233). -/
def execVldx (f : CFields) (s : State) : Out :=
  cIssue (.vldx f) (pairSpec f .gx) (fun x s1 =>
    let h := s1.pairHi f
    let addr := x.pairAddr h x.offS32
    let n := f.dt.width / 8
    match x.badLane addr (laneOk n) with
    | some e => .fault e false
    | none =>
      .done (s1.issueLanes x { id := 0, fc := some .gx, dsts := [.reg f.dst.toNat], ety := f.dt,
                               lbl := resultLabel x.k [x.a.lbl, h.lbl, x.b.lbl],
                               accs := x.laneList.map (fun l => s1.laneAcc l (addr l) n .load 0 0) }) 1) s

/-- The store of VSTX and VSTX.NOTIFY (R234): `data` and the further label of a notify store. -/
def vstxBody (f : CFields) (x : CIn) (s : State) (data : OpData) (more : Label) : CRes :=
  let h := s.pairHi f
  let addr := x.pairAddr h x.offS32
  let n := f.dt.width / 8
  match x.badLane addr (laneOk n) with
  | some e => .fault e false
  | none =>
    .done (s.issueLanes x { id := 0, fc := some .st, data := data, lbl := resultLabel x.k [x.a.lbl, h.lbl, x.b.lbl, x.c.lbl, more],
                            accs := x.laneList.map (fun l => s.laneAcc l (addr l) n .store ((x.c.at l).toNat % 2 ^ (8 * n)) 0) }) 1

/-- VSTX (R229, R234). -/
def execVstx (f : CFields) (s : State) : Out := cIssue (.vstx f) (pairSpec f .st) (fun x s1 => vstxBody f x s1 .mem 0#16) s

/-- VSTX.NOTIFY (R235): the reference is lanes 0 and 1 of DST, and the arrival counts the lanes written. -/
def execVstxNotify (f : CFields) (s : State) : Out :=
  cIssue (.vstxNotify f) (pairSpec f .st) (fun x s1 =>
    let d := s1.grp.readCode s1.freeCtr x.qmask (x.qmask ||| 1) 0 f.dst.toNat
    let ref : DWord := (d.at 1) ++ (d.at 0)
    let w := resultLabel x.k [x.a.lbl, (s1.pairHi f).lbl, x.b.lbl, x.c.lbl, d.lbl]
    vstxBody f x s1 (.notify ref x.laneList.length w false) d.lbl) s

/-- The accesses of VAMO and VAMO.DET, at the addresses of the pair alone (R229, R236). -/
def vamoBody (f : CFields) (x : CIn) (s : State) (dsts : List Dst) (det : Bool) : CRes :=
  let h := s.pairHi f
  let addr := x.pairAddr h (fun _ => 0)
  let acc (l : Nat) : Acc :=
    let a := s.laneAcc l (addr l) 4 (.atomic (f.ext.toNat % 16) f.dt) (x.b.at l).toNat (x.c.at l).toNat
    if det && a.det then { a with kind := .contrib } else a
  match x.badLane addr (laneOk 4) with
  | some e => .fault e false
  | none =>
    .done (s.issueLanes x { id := 0, fc := some .gx, dsts := dsts, ety := f.dt, accs := x.laneList.map acc,
                            lbl := resultLabel x.k [x.a.lbl, h.lbl, x.b.lbl, x.c.lbl] }) 1

/-- VAMO (R236, R237). -/
def execVamo (f : CFields) (s : State) : Out :=
  cIssue (.vamo f) (pairSpec f .gx) (fun x s1 => vamoBody f x s1 [.reg f.dst.toNat] false) s

/-- VAMO.DET (R238): a contribution on pages with DET, elsewhere an addition; D is not written. -/
def execVamoDet (f : CFields) (s : State) : Out := cIssue (.vamoDet f) (pairSpec f .gx) (fun x s1 => vamoBody f x s1 [] true) s

/-! ## Deterministic contributions -/

/-- SECTOR (R238). -/
def fltSector (a : Nat) : Flt := { code := 0x14, faddr := a }

/-- The contributions that the ordered queue of the base die of an address holds (R353, R400). -/
def State.queued (s : State) (la : Nat) : Nat :=
  (s.detsets.filter (fun e => e.1 * 32 / 4096 % 8 == la / 4096 % 8)).foldl (fun n e => n + e.2.got.length) 0

/-- The order of keys (R349). -/
def keyLe (a b : Nat × Nat × Nat × Word) : Bool := decide (a.1 < b.1) || (a.1 == b.1 && decide (a.2.1 ≤ b.2.1))

/-- Put a contribution at its place in key order. -/
def insertKey (c : Nat × Nat × Nat × Word) : List (Nat × Nat × Nat × Word) → List (Nat × Nat × Nat × Word)
  | [] => [c]
  | d :: ds => if keyLe c d then c :: d :: ds else d :: insertKey c ds

/-- The bytes of a sector once a set has been applied (R350). -/
def applySet (old : List Byte) (sector : Nat) (got : List (Nat × Nat × Nat × Word)) : List Byte :=
  let sorted := got.foldr insertKey []
  (List.range 8).flatMap (fun w =>
    let start := ofBytes ((old.drop (4 * w)).take 4)
    bytesOf ((sorted.filter (fun c => c.2.2.1 == sector * 32 + 4 * w)).foldl (fun v c => fAdd .f32 .rne v c.2.2.2.toNat) start) 4)

/-- A contribution enters the set of its sector, and the n-th applies the set and closes it (R238, R349-R353). `line`
says that the page has CMP set. -/
def State.contribute (s : State) (key : Nat × Nat) (la : Nat) (v : Word) (line : Bool) (va : Nat) : Applied :=
  let sec := la / 32
  match s.detsets.find sec with
  | none => .bad (fltSector va)
  | some d =>
    if d.got.any (fun c => c.1 == key.1 && c.2.1 == key.2) then .bad (fltSector va)
    else if 2 ^ 20 ≤ s.queued la then .blocked
    else
      let got := d.got ++ [(key.1, key.2, la, v)]
      if got.length < d.n then .ok { s with detsets := s.detsets.put sec { d with got := got } } {}
      else if s.poisoned (sec * 32) 32 then .bad { code := 0x0E, faddr := va }
      else
        match s.writeLine (sec * 32) (applySet (s.readMem (sec * 32) 32) sec got) line with
        | some s1 => .ok { s1 with detsets := s1.detsets.del sec } {}
        | none => .blocked

/-- The label check of a contribution (R129). -/
def State.contribCheck (s : State) (clr w : Label) (a : Acc) : Option Flt :=
  labelCheck (.atomic 0 .f32) clr w (s.labelOf (localOf a.pa) a.size) 0 a.va

/-- The label checks of the lanes of an operation that are still to have an effect here (R128, R129). -/
def State.contribChecks (s : State) (k : Nat) (o : Op) : Option Flt :=
  (o.accs.filter (fun y => !y.done && !y.held && !y.sent && !y.chk && s.isLocal y)).findSome? (s.contribCheck (s.clr k) o.lbl)

/-- A contribution that closes a set on a read-duplicated page at its home is complete once the holders have the sector
(R360, R421). -/
def State.contributed (s s1 : State) (k i : Nat) (o : Op) (a : Acc) : State :=
  let pa := a.pa / 32 * 32
  if a.dup && !(s.holders pa).isEmpty && (s1.detsets.find (localOf a.pa / 32)).isNone then
    let s2 := s1.dupNotify { g := k, op := o.id, k := i, dev := s.devn } (s.ctxOf k) none pa 32 a.line
    s2.setGroup k ((s2.group k).setOp { o with accs := o.accs.set i { a with held := true } })
  else s1.setGroup k ((s1.group k).setOp { o with accs := o.accs.set i { a with done := true } })

/-- DET_CONTRIBUTION (R128, R238, R349): one lane's contribution enters its set; a failing label of any lane, an addition
on a page without DET among them, discards them all. -/
def execDetContribution (k op i : Nat) (s : State) : Out :=
  match (s.group k).op op with
  | none => s.idle
  | some o =>
    match o.accs[i]? with
    | none => s.idle
    | some a =>
      if a.kind != .contrib || a.done || a.held || a.sent || !s.isLocal a || !(s.group k).mayPerform o a
          || (a.dup && s.dupBusy (a.pa / 32 * 32) 32) then s.idle
      else
        let set (s1 : State) (o1 : Op) : Out := .next (s1.setGroup k ((s1.group k).setOp o1))
        match s.contribChecks k o with
        | some f =>
          set s { o with fail := o.fail.or (some f), accs := o.accs.map (fun y => if y.sent then y else { y with done := true }) }
        | none =>
          let o1 := { o with accs := o.accs.map (fun y => if s.isLocal y then { y with chk := true } else y) }
          match s.contribute ((s.team (teamOf k)).teamix, (s.group k).gidx * 32 + a.lane) (localOf a.pa) (BitVec.ofNat 32 a.val)
              a.line a.va with
          | .blocked => s.idle
          | .bad f => set s { o1 with fail := o.fail.or (some f), accs := o1.accs.set i { a with chk := true, done := true } }
          | .ok s1 _ => .next (s.contributed s1 k i o1 { a with chk := true })

/-! ## Scratchpad -/

/-- Issue lane accesses to the team's scratchpad region (R239, R240); the passes after the first are replay cycles (R442). -/
def spBody (f : CFields) (x : CIn) (s : State) (kind : AccKind) (useB : Bool) (dsts : List Dst) (val : Nat → Nat) : CRes :=
  let off := x.bufOff useB
  let n := f.dt.width / 8
  match x.badLane off (fun o => decide (o + n ≤ (s.recOf s.cur).spsize) && o % n == 0) with
  | some e => .fault e false
  | none =>
    let passes := bankPasses (x.laneList.map off)
    .done ((s.issueLanes x { id := 0, fc := some .sp, dsts := dsts, ety := f.dt, lbl := x.label,
                             accs := x.laneList.map (fun l =>
                               { lane := l, space := .scratch, kind := kind, va := off l, pa := off l, size := n, val := val l,
                                 cmp := (x.c.at l).toNat }) }).pmGroup s.cur 0x09 (passes - 1)) passes

/-- SPLD (R241). -/
def execSpld (f : CFields) (s : State) : Out :=
  cIssue (.spld f) { imm := some .z32, fc := some .sp } (fun x s1 => spBody f x s1 .load true [.reg f.dst.toNat] (fun _ => 0)) s

/-- SPST (R242, R244). -/
def execSpst (f : CFields) (s : State) : Out :=
  cIssue (.spst f) { imm := some .z32, fc := some .sp } (fun x s1 =>
    spBody f x s1 .store true [] (fun l => (x.c.at l).toNat % 2 ^ f.dt.width)) s

/-- SPAMO (R243, R244). -/
def execSpamo (f : CFields) (s : State) : Out :=
  cIssue (.spamo f) { fc := some .sp } (fun x s1 =>
    spBody f x s1 (.atomic (f.ext.toNat % 16) f.dt) false [.reg f.dst.toNat] (fun l => (x.b.at l).toNat)) s

/-! ## Accumulator memory -/

/-- Issue lane accesses to accumulator memory (R247, R295). -/
def acBody (x : CIn) (s : State) (kind : AccKind) (dsts : List Dst) (val : Nat → Nat) : CRes :=
  let t := s.tm
  let off := x.bufOff true
  let bound (o : Nat) : Bool := t.whand.any (fun h => decide (h.2.bank ≤ o / 131072) && decide (o / 131072 < h.2.bank + h.2.nb))
  match x.badLane off (fun o => decide (o < 8388608) && o % 4 == 0 && t.banks.getLsbD (o / 131072)) with
  | some e => .fault e false
  | none =>
    match x.laneList.find? (fun l => bound (off l)) with
    | some l => .fault { code := 0x18, faddr := off l } false
    | none =>
      .done (s.issueLanes x { id := 0, fc := some .sp, dsts := dsts, ety := .z32, lbl := x.label,
                              accs := x.laneList.map (fun l =>
                                { lane := l, space := .acc, kind := kind, va := off l, pa := off l, val := val l }) }) 1

/-- ACLD (R247). -/
def execAcld (f : CFields) (s : State) : Out :=
  cIssue (.acld f) { imm := some .z32, fc := some .sp } (fun x s1 => acBody x s1 .load [.reg f.dst.toNat] (fun _ => 0)) s

/-- ACST (R247). -/
def execAcst (f : CFields) (s : State) : Out :=
  cIssue (.acst f) { imm := some .z32, fc := some .sp } (fun x s1 => acBody x s1 .store [] (fun l => (x.c.at l).toNat)) s

/-! ## Queue operations -/

/-- A quad's part of an SDQ entry (R245); one of a path without lanes carries K alone (R124). -/
def SDEntry.add (e : SDEntry) (q : Nat) (x : CIn) (active : Bool) (pos : Nat) : SDEntry :=
  let mine (l : Nat) : Bool := l / 4 == q
  { quads := e.quads + 2 ^ q, data := lanesOf (fun l => if mine l then x.a.at l else laneAt e.data l),
    mask := e.mask ||| (x.written &&& quadLanes (2 ^ q)), lbl := e.lbl.join (if active then x.a.lbl.join x.k else x.k), pos := pos }

/-- Supply the parts of a quad's next entry. -/
def Group.supply (g : Group) (x : CIn) (active : Bool) (pos q : Nat) : Group :=
  let i := (g.quad q).stdCnt - g.sdqBase
  let sdq := if i < g.sdq.length then g.sdq else g.sdq ++ [({} : SDEntry)]
  { g.mapQuads (2 ^ q) (fun _ y => { y with stdCnt := y.stdCnt + 1 }) with
    sdq := sdq.zipIdx.map (fun e => if e.2 = i then e.1.add q x active pos else e.1) }

/-- STD (R17, R20, R245). -/
def execStd (f : CFields) (s : State) : Out :=
  cIssue (.std f) {} (fun x s1 =>
    let g := s1.grp
    if (quadSet x.qmask).any (fun q => decide (g.sdqBase + 16 ≤ (g.quad q).stdCnt)) then .wait 3
    else
      let active := g.active s1.path != 0#32
      .done (s1.setGrp ((quadSet x.qmask).foldl (fun h q => h.supply x active s1.path.pos q) g)) 1) s

/-- SENDA (R17, R246, R340). -/
def execSenda (f : CFields) (s : State) : Out :=
  cIssue (.senda f) {} (fun x s1 =>
    let g := s1.grp
    let p := f.x.toNat
    let part (l : Nat) : Word := if x.written.getLsbD l then x.a.at l else 0#32
    let e : CAEntry := { val := part (2 * p + 1) ++ part (2 * p), lbl := x.a.lbl.join x.k, quad := p / 2, upTo := g.nextOp }
    if 8 ≤ g.ca.length then .wait 4
    else if x.written.getLsbD (2 * p) || x.written.getLsbD (2 * p + 1) then .done (s1.setGrp { g with ca := g.ca ++ [e] }) 1
    else .done s1 1) s

end Sys2Proof.Machine
end

