-- ==== Sys2Proof/Machine/CSync.lean ====
section
/-! DEFINITION. Barrier waits and arrivals of the compute slice (R249-R251, R131, R346). -/

namespace Sys2Proof.Machine

/-- BARRIER_CLOBBER at an offset. -/
def fltClobber (off : Nat) : Flt := { code := 0x09, faddr := off }

/-- The barrier offset in an operand word whose `n` bits from bit `lo` must be zero (R249, R251). -/
def State.barrierRef (s : State) (w lo n : Nat) : Except Flt Nat :=
  let off := w % 2 ^ 20
  if bitsOf w lo n ≠ 0 || !barOk (s.recOf s.cur) off || !s.tm.marked? off then .error (fltIllegalAt off) else .ok off

/-- CWAIT (R249, R250): without a ticket the gang waits at issue, and what its quads issue later is ordered after what
they read before; with one it issues at once. -/
def execCwait (f : CFields) (s : State) : Out :=
  cIssue (.cwait f) { imm := some .z32, qb := 1 } (fun x s1 =>
    let w := (x.b.at 0).toNat
    match s.barrierRef w 20 11 with
    | .error e => .fault e false
    | .ok off =>
      let o := s.tm.barrier off
      let want := bitOf f.x.toNat 0 != bitOf w 31
      let g := s1.grp
      let op (d : OpData) : Op :=
        { id := 0, fc := none, cslice := true, quads := x.qmask, pc := s.path.pos, run := g.runOf x.qmask, tk := f.tk.toNat, data := d }
      if !o.lbl.within (s.clr s.cur) then .fault (fltLoad 2 o.lbl (s.clr s.cur) off) false
      else if f.tk = 0#4 then
        if o.phase != want then .wait 0x109
        else if o.err then .fault (fltClobber off) false
        else .done ((s1.setGrp (g.issueOp (op (.fence .acq false (s1.soleIn .team s.cur))))).settle s.cur) 1
      else .done (s1.setGrp ((g.setTickets x.qmask f.tk.toNat 1).issueOp (op (.cwait off want)))) 1) s

/-- CWAIT_SATISFIED (R249, R131): the phase a ticketed CWAIT awaits is reached; the ticket is DONE, and an object with
ERR, or with a label outside CLR, faults the group. -/
def execCwaitSatisfied (k op : Nat) (s : State) : Out :=
  match (s.group k).op op with
  | none => s.idle
  | some o =>
    match o.data with
    | .cwait off ph =>
      let t := s.team (teamOf k)
      let b := t.barrier off
      if o.doneq || t.state != .resident || b.phase != ph then s.idle
      else
        let f := if !b.lbl.within (s.clr k) then some (fltLoad 2 b.lbl (s.clr k) off)
          else if b.err then some (fltClobber off) else none
        let g := ((s.group k).doneTickets o.quads o.tk).mapQuads o.quads (fun _ q => { q with acq := o.tk :: q.acq })
        .next ((s.setGroup k (g.setOp { o with doneq := true, fail := f })).settle k)
    | _ => s.idle

/-- Make, in order, the CARV arrivals that every quad that has not ended has issued, at most `n` (R251). One whose label
fails faults the group and changes nothing (R131). -/
def State.carvFlush (k : Nat) : Nat → State → State
  | 0, s => s
  | n + 1, s =>
    let g := s.group k
    match g.carv with
    | [] => s
    | c :: rest =>
      if !g.unended.all (bitOf c.quads) then s
      else
        let s1 := s.setGroup k { g with carv := rest, carvBase := g.carvBase + 1 }
        let t := s1.team (teamOf k)
        State.carvFlush k n (match t.arrive c.off 1 c.lbl false with
          | some t1 => s1.setTeam (teamOf k) t1
          | none =>
            s1.raiseRec k { flt := fltStore 3 c.lbl (t.barrier c.off).lbl c.off, cslice := true, fpos := c.pos, fcycle := s.cycle })

/-- Every access that the quads of a mask have issued has been performed, but for those to UO pages that no FENCE has
ordered (R188, R251, R346). -/
def Group.quadsReleased (g : Group) (qmask : Nat) : Bool :=
  g.ops.all (fun o => !o.cslice || o.quads &&& qmask == 0 || o.accs.all (fun a => a.done || (a.ord == 2 && !g.keptBefore o a) || !bitOf qmask (a.lane / 4)))

/-- A quad's next CARV joins the arrival it belongs to. -/
def Group.carvAdd (g : Group) (off pos : Nat) (l : Label) (q : Nat) : Group :=
  let i := (g.quad q).carvCnt - g.carvBase
  let cs := if i < g.carv.length then g.carv else g.carv ++ [{ off := off, quads := 0, lbl := 0#16, pos := pos }]
  { g.mapQuads (2 ^ q) (fun _ y => { y with carvCnt := y.carvCnt + 1 }) with
    carv := cs.zipIdx.map (fun e => if e.2 = i then { e.1 with quads := e.1.quads + 2 ^ q, lbl := e.1.lbl.join l, pos := pos } else e.1) }

/-- CARV (R251): waits at issue for the release over its quads' accesses (log 39), then their parts are supplied. A part whose offset
differs faults as it issues, before the arrival is complete (log 99). -/
def execCarv (f : CFields) (s : State) : Out :=
  cIssue (.carv f) { imm := some .z32, qb := 1 } (fun x s1 =>
    match s.barrierRef (x.b.at 0).toNat 20 12 with
    | .error e => .fault e false
    | .ok off =>
      let g := s1.grp
      let other (q : Nat) : Bool := match g.carv[(g.quad q).carvCnt - g.carvBase]? with
        | some c => c.off != off
        | none => false
      if (quadSet x.qmask).any other then .fault (fltIllegalAt off) false
      else if !g.quadsReleased x.qmask then .wait 0x109
      else
        let g1 := (quadSet x.qmask).foldl (fun h q => h.carvAdd off s.path.pos (x.b.lbl.join x.k) q) g
        .done (State.carvFlush s.cur g1.carv.length (s1.setGrp g1)) 1) s

end Sys2Proof.Machine
end

