-- ==== Sys2Proof/Machine/Porter.lean ====
section
/-! DEFINITION. The Porter: PORT, tensor records, and the step in which a transfer goes on and completes (R103, R133, R175,
R235, R244, R411-R413). -/

namespace Sys2Proof.Machine

/-! ## Records -/

/-- The bytes of a Porter record with every field within its limits (R175). -/
def portFieldsOk (bs : List Byte) : Bool :=
  let opc := fieldAt bs 0 1
  let ss := fieldAt bs 1 1 % 16
  let ds := fieldAt bs 1 1 / 16
  let n := fieldAt bs 0x18 8
  decide (opc ≤ 2) && [0, 1, 3].contains ss && decide (ds ≤ 3) && decide (fieldAt bs 2 1 ≤ 15) && (ds == 2 || fieldAt bs 2 1 == 0)
    && decide (fieldAt bs 3 1 ≤ 1) && fieldAt bs 4 4 == 0 && fieldAt bs 0x2C 20 == 0
    && (opc == 1 || (decide (4 ≤ n) && decide (n ≤ 2 ^ 32) && n % 4 == 0))

/-- The command of a record (R175). -/
def readPort (bs : List Byte) : PortCmd :=
  { opc := fieldAt bs 0 1, sspace := fieldAt bs 1 1 % 16, dspace := fieldAt bs 1 1 / 16, hnd := fieldAt bs 2 1,
    notify := bitOf (fieldAt bs 3 1) 0, src := fieldAt bs 8 8, dst := fieldAt bs 0x10 8, len := fieldAt bs 0x18 8,
    ntfy := BitVec.ofNat 64 (fieldAt bs 0x20 8), pat := BitVec.ofNat 32 (fieldAt bs 0x28 4), st := none, dt := none }

/-- A quantised format of a tensor record. -/
def tensorQuant (fmt : Nat) : Bool := fmt == 0x11 || fmt == 0x12

/-- A tensor record of 64 bytes, for the source or, with `dst`, the destination (R412); nothing when a field is out of
range. -/
def parseTensor (dst : Bool) (bs : List Byte) : Option Tensor :=
  let fmt := fieldAt bs 8 1
  let rank := fieldAt bs 9 1
  let dims := (List.range 4).map (fun i => fieldAt bs (0x10 + 4 * i) 4)
  let q := tensorQuant fmt
  if fmt ≤ 0x12 && decide (1 ≤ rank) && decide (rank ≤ 4) && fieldAt bs 10 1 ≤ (if dst then 1 else 0)
      && (if q then decide (1 ≤ fieldAt bs 11 1) && decide (fieldAt bs 11 1 ≤ 3) else fieldAt bs 11 1 == 0)
      && fieldAt bs 12 4 == 0 && dims.all (fun d => decide (1 ≤ d) && decide (d ≤ 2 ^ 31))
      && (dims.drop rank).all (· == 1) && (tensorWidth fmt != 4 || dims.headD 0 % 2 == 0)
      && ((q && dst) || fieldAt bs 0x38 8 == 0) then
    some { base := fieldAt bs 0 8, fmt := fmt, rank := rank, trans := bitOf (fieldAt bs 10 1) 0, grpl := fieldAt bs 11 1,
           dims := dims, strides := (List.range 3).map (fun i => signedOf 64 (fieldAt bs (0x20 + 8 * i) 8)),
           zptr := fieldAt bs 0x38 8 }
  else none

/-- The rules that a pair of tensor records obeys (R413). -/
def tensorsOk (a b : Tensor) : Bool :=
  let fits (i j : Nat) : Bool := decide (a.dim i ≤ b.dim j)
  a.fmt == b.fmt && a.rank == b.rank && fits 2 2 && fits 3 3
    && (if b.trans then fits 0 1 && fits 1 0 && b.dim 0 % 32 == 0 && b.dim 1 % 32 == 0 else fits 0 0 && fits 1 1)

/-! ## What moves where -/

/-- What half a destination byte receives: half a source byte (its number counted in halves), a constant, or the half of
the zero-point byte at an address. -/
inductive HalfSrc where
  | src (n : Nat)
  | lit (v : Nat)
  | zp (addr : Nat) (hi : Bool)
deriving DecidableEq, Repr

/-- One destination byte: its address or offset, and its low and high halves. -/
structure Move where
  dst : Nat
  lo : HalfSrc
  hi : HalfSrc
deriving DecidableEq, Repr

/-- Half `h` of the element of the destination at (i0, i1, i2, i3) (R413, R103): in a group made wholly of padding too, a
padding zero point is the byte at ZPTR (log 33). -/
def elemHalf (a b : Tensor) (i0 i1 i2 i3 h : Nat) : HalfSrc :=
  let w := tensorWidth a.fmt / 4
  let s0 := if b.trans then i1 else i0
  let s1 := if b.trans then i0 else i1
  if s0 < a.dim 0 ∧ s1 < a.dim 1 ∧ i2 < a.dim 2 ∧ i3 < a.dim 3 then .src (2 * a.row s1 i2 i3 + s0 * w + h)
  else if tensorQuant a.fmt then .zp (b.zptr + i0 / (16 * 2 ^ b.grpl) * b.dim 1 + i1) (w == 2 && h == 1)
  else .lit 0

/-- Every destination byte of a command (R175, R412, R413). -/
def PortCmd.moves (c : PortCmd) : List Move :=
  match c.st, c.dt with
  | some a, some b =>
    let w := tensorWidth b.fmt / 4
    b.rows.flatMap (fun r => (List.range b.rowBytes).map (fun j =>
      let half (n : Nat) : HalfSrc := elemHalf a b (n / w) r.1 r.2.1 r.2.2 (n % w)
      { dst := b.row r.1 r.2.1 r.2.2 + j, lo := half (2 * j), hi := half (2 * j + 1) }))
  | _, _ =>
    (List.range c.len).map (fun i =>
      if c.opc = 2 then
        { dst := c.dst + i, lo := .lit (bitsOf c.pat.toNat (8 * (i % 4)) 4), hi := .lit (bitsOf c.pat.toNat (8 * (i % 4) + 4) 4) }
      else { dst := c.dst + i, lo := .src (2 * (c.src + i)), hi := .src (2 * (c.src + i) + 1) })

/-- The first check that a typed buffer's side of a command fails at issue (R175, R179, R247, R295). `base` is the offset
that must be a multiple of 4 in accumulator memory. -/
def State.portSide (s : State) (space hnd base : Nat) (spans : List (Nat × Nat)) : Option Flt :=
  let t := s.tm
  let spBytes := (s.recOf s.cur).spsize
  match space with
  | 1 => (spans.find? (fun p => decide (spBytes < p.1 + p.2))).map (fun p => fltIllegalAt p.1)
  | 2 =>
    (match t.resv.find hnd with
     | none => some { code := 0x0C }
     | some r => (spans.find? (fun p => decide (r.size < p.1 + p.2))).map (fun p => fltIllegalAt p.1))
  | 3 =>
    let banksOf (p : Nat × Nat) : List Nat := (List.range ((p.1 + p.2 - 1) / 131072 - p.1 / 131072 + 1)).map (p.1 / 131072 + ·)
    if base % 4 ≠ 0 then some (fltIllegalAt base)
    else
      match spans.find? (fun p => decide (8388608 < p.1 + p.2) || (banksOf p).any (fun b => !t.banks.getLsbD b)) with
      | some p => some (fltIllegalAt p.1)
      | none =>
        (spans.find? (fun p => t.whand.any (fun h => (banksOf p).any (fun b => decide (h.2.bank ≤ b) && decide (b < h.2.bank + h.2.nb))))).map
          (fun p => { code := 0x18, faddr := p.1 })
  | _ => none

/-- A range of the scratchpad covers a marked cell (R244). -/
def Team.covers (t : Team) (off n : Nat) : Bool :=
  (List.range ((off + n - 1) / 16 - off / 16 + 1)).any (fun i => t.marked? ((off / 16 + i) * 16))

/-- The label check of a destination reservation, whose label is known at issue (R133). -/
def Team.portResv (t : Team) (c : PortCmd) (w : Label) (base : Nat) : Option Flt :=
  match (if c.dspace = 2 then t.resv.find c.hnd else none) with
  | some r => if w.within r.lbl then none else some (fltStore 4 w r.lbl base)
  | none => none

/-- The checks of a command at issue, once its records have been read (R133, R175, R244); `w` is the label of its operands, its
records and K. -/
def State.portCheck (s : State) (c : PortCmd) (w : Label) : Option Flt :=
  let ss := spansOf c.st c.src c.len
  let ds := spansOf c.dt c.dst c.len
  let base (t : Option Tensor) (a : Nat) : Nat := (t.map (·.base)).getD a
  let far (space a : Nat) : Option Flt := if space = 0 ∧ 2 ^ 55 ≤ a then some (fltIllegalAt a) else none
  let z := (c.dt.map (·.zptr)).getD 0
  ((((if c.opc = 2 then none else far c.sspace (base c.st c.src)).or (far c.dspace (base c.dt c.dst))).or (far 0 z)).or
      (if c.opc = 2 then none else s.portSide c.sspace 0 (base c.st c.src) ss)).or
    (((s.portSide c.dspace c.hnd (base c.dt c.dst) ds).or
      (if c.dspace = 1 then (ds.find? (fun p => s.tm.covers p.1 p.2)).map (fun p => { code := 0x09, faddr := p.1 }) else none)).or
      (s.tm.portResv c w (base c.dt c.dst)))

/-- The outcome of reading a command's records. -/
inductive PortRead where
  | ok (s : State) (c : PortCmd) (l : Label)
  | bad (f : Flt)
  | wait (s : State)
deriving DecidableEq, Repr

/-- An engine's record read at issue: its granules lie within CLR (R133). -/
def State.engineRec (s : State) (va n : Nat) : RecRead :=
  if 2 ^ 55 ≤ va ∨ va % 64 ≠ 0 then .bad (fltIllegalAt va)
  else
    match s.readRec s.cur va n with
    | .ok s1 bs l => if l.within (s.clr s.cur) then .ok s1 bs l else .bad (fltLoad 1 l (s.clr s.cur) va)
    | r => r

/-- Read the tensor records of a tensor copy (R412, R413). -/
def State.portTensors (s : State) (c : PortCmd) (l : Label) : PortRead :=
  match s.engineRec c.src 64 with
  | .bad f => .bad f
  | .wait s1 => .wait s1
  | .ok s1 bs la =>
    match s1.engineRec c.dst 64 with
    | .bad f => .bad f
    | .wait s2 => .wait s2
    | .ok s2 bs' lb =>
      match parseTensor false bs, parseTensor true bs' with
      | some a, some b =>
        if tensorsOk a b then .ok s2 { c with st := some a, dt := some b } (Label.joinAll [l, la, lb]) else .bad fltIllegal
      | _, _ => .bad fltIllegal

/-- Read a Porter command (R175). -/
def State.portRead (s : State) (va : Nat) : PortRead :=
  match s.engineRec va 64 with
  | .bad f => .bad f
  | .wait s1 => .wait s1
  | .ok s1 bs l =>
    if !portFieldsOk bs then .bad fltIllegal
    else if fieldAt bs 0 1 = 1 then s1.portTensors (readPort bs) l
    else .ok s1 (readPort bs) l

/-- PORT (R28, R133, R175, R447). -/
def execPort (a : SRegNo) (s : State) : Out :=
  let g := s.grp
  let x := (g.sreg a).val.toNat
  s.whenFree (.port a) [a]
    (if g.role ≠ 0 then s.faultA { code := 0x02 }
     else
       match s.portRead x with
       | .bad f => s.faultA f
       | .wait s1 => s1.waits (.port a)
       | .ok s1 c l =>
         let w := resultLabel g.pA [(g.sreg a).lbl, l]
         match s1.portCheck c w with
         | some f => s.faultA f
         | none =>
           if s1.pathFull s.cur .po then s1.waits (.port a)
           else
             let o : Op := { id := 0, fc := some .po, pc := g.apc.toNat, run := g.runs, after := g.caOrd, lbl := w,
                             data := .port c 0 0#16 }
             .next (s1.setGrp ((s1.grp.issueOp o).advance 4)))

/-! ## The transfer -/

/-- A failing load of an engine names an engine source (R145). -/
def engineFlt (f : Flt) : Flt := if f.code = 0x05 then { f with sub := 1 } else f

/-- The byte that half a destination byte comes from, where it is read from. -/
def HalfSrc.byte : HalfSrc → Option Nat
  | .src n => some (n / 2)
  | _ => none

/-- The aligned words of global memory that a transfer reads: its source in space 0, and zero points (R413). -/
def PortCmd.globalWords (c : PortCmd) : List Nat :=
  let of (h : HalfSrc) : List Nat := match h with
    | .src n => if c.sspace = 0 then [n / 8 * 4] else []
    | .zp a _ => [a / 4 * 4]
    | .lit _ => []
  (c.moves.flatMap (fun m => of m.lo ++ of m.hi)).eraseDups

/-- A byte of a global word that has been read, with its label. -/
def Op.readByte (o : Op) (a : Nat) : Byte × Label :=
  match o.accs.find? (fun x => x.va == a / 4 * 4) with
  | some x => (BitVec.ofNat 8 (x.got / 2 ^ (8 * (a % 4))), x.glbl)
  | none => (0#8, 0#16)

/-- A byte of a source location, with its label. -/
def Team.srcByte (t : Team) (c : PortCmd) (o : Op) (a : Nat) : Byte × Label :=
  match c.sspace with
  | 1 => (t.sp.get 0#8 a, t.rangeLabel a 1)
  | 3 => (BitVec.ofNat 8 ((t.acc.get 0#32 (a / 4)).toNat / 2 ^ (8 * (a % 4))), t.bankLbl.get 0#16 (a / 131072))
  | _ => o.readByte a

/-- The value and label of half a destination byte. -/
def Team.half (t : Team) (c : PortCmd) (o : Op) : HalfSrc → Nat × Label
  | .src n => let b := t.srcByte c o (n / 2); (bitsOf b.1.toNat (4 * (n % 2)) 4, b.2)
  | .lit v => (v, 0#16)
  | .zp a hi => let b := o.readByte a; (bitsOf b.1.toNat (if hi then 4 else 0) 4, b.2)

/-- The bytes that moves of a transfer write, with the labels of what they come from. -/
def Team.portData (t : Team) (ms : List Move) (c : PortCmd) (o : Op) : List (Nat × Byte × Label) :=
  ms.map (fun m =>
    let l := t.half c o m.lo
    let h := t.half c o m.hi
    (m.dst, BitVec.ofNat 8 (l.1 + 16 * h.1), l.2.join h.2))

/-- The first check that the source in a typed buffer fails (R126, R230): uncorrectable data, then the label. -/
def Team.portSource (t : Team) (c : PortCmd) (clr : Label) : Option Flt :=
  let bytes := c.moves.flatMap (fun m => m.lo.byte.toList ++ m.hi.byte.toList)
  let bad (a : Nat) : Bool := if c.sspace = 1 then t.spBad.get false (a / 4) else t.accBad.get false (a / 4)
  let lbl (a : Nat) : Label := if c.sspace = 1 then t.rangeLabel a 1 else t.bankLbl.get 0#16 (a / 131072)
  if c.sspace = 0 then none
  else
    ((bytes.find? bad).map (fun a => { code := 0x0E, faddr := a })).or
      ((bytes.find? (fun a => !(lbl a).within clr)).map (fun a => fltLoad 1 (lbl a) clr a))

/-- The stores that write bytes: whole aligned words where the bytes fill them (R348). -/
def portStores : List (Nat × Byte × Label) → List Acc
  | x :: y :: z :: u :: r =>
    if x.1 % 4 = 0 ∧ y.1 = x.1 + 1 ∧ z.1 = x.1 + 2 ∧ u.1 = x.1 + 3 then
      { va := x.1, size := 4, kind := .store, val := ofBytes [x.2.1, y.2.1, z.2.1, u.2.1],
        lbl := Label.joinAll [x.2.2, y.2.2, z.2.2, u.2.2] } :: portStores r
    else { va := x.1, size := 1, kind := .store, val := x.2.1.toNat, lbl := x.2.2 } :: portStores (y :: z :: u :: r)
  | x :: r => { va := x.1, size := 1, kind := .store, val := x.2.1.toNat, lbl := x.2.2 } :: portStores r
  | [] => []

/-- Put an operation back. -/
def State.putOp (s : State) (k : Nat) (o : Op) : State := s.setGroup k ((s.group k).setOp o)

/-- An engine operation ends: its counter falls in issue order and its failure is reported (R133). -/
def State.endEngine (s : State) (k : Nat) (o : Op) : State := (s.putOp k { o with doneq := true, accs := [] }).settle k

/-- A transfer that has written all it will: its notify arrival, with ERR when it failed (R175, R235), and its end. -/
def State.portEnd (s : State) (k : Nat) (o : Op) (c : PortCmd) (ph : Nat) (l : Label) : State :=
  let o1 := { o with data := .port c 3 l }
  if !c.notify then s.endEngine k o1
  else if ph = 3 then (if s.asked k o.id then s.putOp k o1 else s.endEngine k o1)
  else
    match s.notifyRef k o c.ntfy 1 l o.fail.isSome with
    | .wait => s.putOp k { o with data := .port c 2 l }
    | .bad f => s.endEngine k { o1 with fail := o.fail.or (some f) }
    | .ok s1 => if s1.asked k o.id then s1.putOp k o1 else s1.endEngine k o1

/-- Whether a part of a transfer that fails has been written all the same: which part is unspecified (R133), and free. -/
def State.partWritten (s : State) (i : Nat) : Bool := (Config.freeByte s.freeCtr i).getLsbD 0

/-- An access that a failing transfer leaves undone (R133). -/
def Acc.leave (a : Acc) : Acc := if a.sent || a.held || a.done then a else { a with done := true, lease := true }

/-- What a failing transfer does of its accesses at this device: loads whose own checks pass, and of the stores of whole aligned
words whose own checks pass a free part (R133, R348). -/
def State.performAlone (s : State) (k : Nat) (o : Op) : List Nat → State × Op
  | [] => (s, { o with accs := o.accs.map Acc.leave })
  | i :: is =>
    match o.accs[i]? with
    | none => s.performAlone k o is
    | some a =>
      if a.done || a.held || a.sent || !s.isLocal a || (a.kind.isStore && (a.dup || a.size != 4 || !s.partWritten i)) then
        s.performAlone k o is
      else
        match s.applyAcc k o.lbl a with
        | .ok s1 a1 => s1.performAlone k { o with accs := o.accs.set i a1 } is
        | _ => s.performAlone k o is

/-- A store of a transfer that is no whole aligned word, an edge of its destination, while a whole word is still to be
performed: no such part is written of a transfer that fails (R133, R348). -/
def Op.edge (o : Op) (a : Acc) : Bool := a.kind.isStore && a.size != 4 && o.accs.any (fun x => x.kind.isStore && x.size == 4 && !x.done)

/-- The state after performing what is left of an engine operation's accesses, its edges last, with the operation; nothing while
they are blocked. Of a transfer with a failing check a part may have been performed. -/
def State.enginePerform (s : State) (k : Nat) (o : Op) : Option (State × Op) :=
  match s.perform k o (fun i => !(o.accs[i]?).any o.edge) with
  | .blocked => none
  | .bad f =>
    let x := s.performAlone k o (List.range o.accs.length)
    some (x.1, { x.2 with fail := o.fail.or (some (engineFlt f)) })
  | .ok s1 accs => some (s1, { o with accs := accs })

/-- Give an engine operation the accesses that read: one that is known to fail now is recorded and left undone (R133). -/
def State.engineAccs (s : State) (k : Nat) (o : Op) (accs : List Acc) : State × Op :=
  let as := accs.map (fun a => if a.space == .global then s.formBy (s.walkerCache k) k a else a)
  (as.foldl (fun x a => if a.lease || a.space != .global then x else x.keepLeaf (s.walkerCache k) (s.ctxOf k) a.va) s,
   { o with fail := o.fail.or (as.findSome? (s.sendCheck k o.lbl)),
            accs := as.map (fun a => if (s.sendCheck k o.lbl a).isSome then { a with done := true, lease := true } else a) })

/-- Whether a byte of the source could be read (R126, R133). -/
def Team.couldRead (t : Team) (c : PortCmd) (o : Op) (clr : Label) (zp : Bool) (a : Nat) : Bool :=
  if zp || c.sspace = 0 then o.accs.any (fun x => x.va == a / 4 * 4 && x.done && !x.lease && x.glbl.within clr)
  else if c.sspace = 1 then !t.spBad.get false (a / 4) && (t.rangeLabel a 1).within clr
  else !t.accBad.get false (a / 4) && Label.within (t.bankLbl.get 0#16 (a / 131072)) clr

/-- Whether the source of half a destination byte could be read. -/
def Team.couldHalf (t : Team) (c : PortCmd) (o : Op) (clr : Label) : HalfSrc → Bool
  | .src n => t.couldRead c o clr false (n / 2)
  | .zp a _ => t.couldRead c o clr true a
  | .lit _ => true

/-- The place that a store of a transfer goes to: `va` is its address, or its offset in the buffer (R175). -/
def Team.portAcc (t : Team) (c : PortCmd) (a : Acc) : Acc :=
  match c.dspace with
  | 0 => a
  | 1 => { a with space := .scratch, pa := a.va }
  | 2 => { a with space := .weight, pa := ((t.resv.find c.hnd).map (·.off)).getD 0 + a.va }
  | _ => { a with space := .acc, pa := a.va }

/-- What a failing transfer has written: whole aligned words whose source could be read and whose own checks pass, which of
them being free (R133, R348). -/
def State.portPart (s : State) (k : Nat) (o : Op) (c : PortCmd) : State :=
  let t := s.team (teamOf k)
  let able := c.moves.filter (fun m => t.couldHalf c o (s.clr k) m.lo && t.couldHalf c o (s.clr k) m.hi)
  let words := ((portStores (t.portData able c o)).filter (fun a => a.size == 4)).map (t.portAcc c)
  let as := ((s.engineAccs k { o with accs := [] } words).2.accs).filter (fun a => !a.lease && !a.dup && s.isLocal a
    && (s.group k).mayPerform o a)
  (s.performAlone k { o with accs := as } (List.range as.length)).1

/-- The label of a transfer's arrival: its operands, its records and K, and every source location it has read (R131). -/
def State.portLabel (s : State) (k : Nat) (o : Op) (c : PortCmd) : Label :=
  let t := s.team (teamOf k)
  let halves := c.moves.flatMap (fun m => [m.lo, m.hi])
  Label.joinAll (o.lbl :: o.accs.map (·.glbl) ++ (halves.filter (t.couldHalf c o (s.clr k))).map (fun h => (t.half c o h).2))

/-- A transfer starts: it reads its source and zero points in global memory, and the tensor walker has the translations of
what it will write (R402). -/
def State.portStart (s : State) (k : Nat) (o : Op) (c : PortCmd) (l : Label) : State × Op :=
  let pages := if c.dspace = 0 then (c.moves.map (fun m => m.dst / 65536)).eraseDups else []
  let s1 := pages.foldl (fun (a : State) p => a.keepLeaf (s.walkerCache k) (s.ctxOf k) (p * 65536)) s
  let x := s1.engineAccs k o (c.globalWords.map (fun a => { va := a, size := 4 }))
  (x.1, { x.2 with data := .port c 1 l })

/-- The source of a transfer has been read: it goes on to its stores, or ends with a part of them (R127, R133, R175). -/
def State.portTurn (s : State) (k : Nat) (o : Op) (c : PortCmd) : State :=
  let t := s.team (teamOf k)
  let l := s.portLabel k o c
  match (o.fail.or ((o.failure (s.clr k)).map engineFlt)).or (t.portSource c (s.clr k)) with
  | some f => (s.portPart k o c).portEnd k { o with fail := some f, accs := [] } c 2 l
  | none =>
    let x := s.engineAccs k o ((portStores (t.portData c.moves c o)).map (t.portAcc c))
    match x.2.fail with
    | some f => (s.portPart k o c).portEnd k { o with fail := some f, accs := [] } c 2 l
    | none => x.1.putOp k { x.2 with data := .port c 2 l }

/-- A transfer reads what it can of its source, and turns to its stores once it has all of it. -/
def State.portReads (s : State) (k : Nat) (o : Op) (c : PortCmd) : State :=
  match s.enginePerform k o with
  | none => s
  | some (s1, o1) => if o1.accs.all (·.done) then s1.portTurn k o1 c else s1.putOp k o1

/-- A transfer makes what it can of its stores, and ends once all are visible. -/
def State.portWrites (s : State) (k : Nat) (o : Op) (c : PortCmd) (l : Label) : State :=
  match s.enginePerform k o with
  | none => s
  | some (s1, o1) => if o1.accs.all (·.done) then s1.portEnd k o1 c 2 l else s1.putOp k o1

/-- PORTER_COMPLETE (R133, R175): a transfer goes on as far as it can, and completes once every byte is visible at its
destination and its notify arrival has been applied. -/
def execPorterComplete (k op : Nat) (s : State) : Out :=
  let ready := (s.group k).engineReady
  let read (o : Op) : State :=
    match o.data with
    | .port c 0 l => let x := s.portStart k o c l; (x.1.putOp k x.2).portReads k x.2 c
    | .port c 1 _ => s.portReads k o c
    | _ => s
  match (s.group k).op op with
  | none => s.idle
  | some o =>
    match o.data with
    | .port .. =>
      if o.doneq || !ready o then s.idle
      else
        let s1 := read o
        let o1 := ((s1.group k).op op).getD { o with doneq := true }
        match o1.doneq, o1.data with
        | false, .port c 2 l => .next (s1.portWrites k o1 c l)
        | false, .port c 3 l => .next (s1.portEnd k o1 c 3 l)
        | _, _ => .next s1
    | _ => s.idle

end Sys2Proof.Machine
end

