-- ==== Sys2Proof/Machine/Special.lean ====
section
/-! DEFINITION. The special functions of R111, correctly rounded: exact values where they are rational, and otherwise
bounds in fixed point, narrow enough that both ends round alike (log 13). -/

namespace Sys2Proof.Machine

/-- The integer square root, bit by bit: the greatest r with r² ≤ n among those built from `k` bits on top of `r`. -/
def isqrtGo (n : Nat) : Nat → Nat → Nat
  | 0, r => r
  | k + 1, r => let t := r + 2 ^ k; isqrtGo n k (if t * t ≤ n then t else r)

/-- The integer square root. -/
def isqrt (n : Nat) : Nat := isqrtGo n (n.log2 / 2 + 1) 0

/-- A positive value known to lie in the open interval from lo/d to hi/d, rounded when both ends round alike. -/
def roundBetween (rm : RM) (neg : Bool) (lo hi d : Nat) : Option Nat :=
  let a := encodeTy .f32 rm false (.fin neg lo d)
  if a = encodeTy .f32 rm false (.fin neg hi d) then some a else none

/-- The square root of n/d: exact, or as a value between two neighbours 2^-300 apart. -/
def sqrtVal (n d : Nat) : FV :=
  let m := n * 2 ^ 600 / d
  let s := isqrt m
  if n * 2 ^ 600 = s * s * d then .fin false s (2 ^ 300) else .fin false (2 * s + 1) (2 ^ 301)

/-- Σ_{i<k} of (1/q)^(2i+1)/(2i+1), with alternating signs when `alt`, scaled by 2^p: artanh or arctan of 1/q. -/
def atanSeries (alt : Bool) (p q k : Nat) : Int :=
  ((List.range k).foldl (fun (a : Int × Nat) i =>
    let t : Int := (a.2 / (2 * i + 1) : Nat)
    (a.1 + (if alt && i % 2 == 1 then -t else t), a.2 / (q * q))) (0, 2 ^ p / q)).1

/-- π scaled by 2^p (Machin's formula); the error is below `p` units. -/
def piFix (p : Nat) : Int := 16 * atanSeries true p 5 p - 4 * atanSeries true p 239 p

/-- ln 2 scaled by 2^p: 2 artanh(1/3); the error is below 2p units. -/
def ln2Fix (p : Nat) : Int := 2 * atanSeries false p 3 p

/-- e^(y/2^p) for 0 ≤ y/2^p < 1, scaled by 2^p; the error is below 8p units. -/
def expFix (p : Nat) (y : Nat) : Nat :=
  ((List.range p).foldl (fun (a : Nat × Nat) i =>
    let t := a.2 * y / 2 ^ p / (i + 1)
    (a.1 + t, t)) (2 ^ p, 2 ^ p)).1

/-- 2 artanh(z/2^p) for 0 ≤ z/2^p ≤ 1/3, scaled by 2^p; the error is below 4p units. -/
def lnSeries (p : Nat) (z : Nat) : Nat :=
  2 * ((List.range p).foldl (fun (a : Nat × Nat) i =>
    (a.1 + a.2 / (2 * i + 1), a.2 * z / 2 ^ p * z / 2 ^ p)) (0, z)).1

/-- sin and cos of y/2^p for 0 ≤ y/2^p < 2, scaled by 2^p; the error of each is below 8p units. -/
def sinCosFix (p : Nat) (y : Nat) : Int × Int :=
  let r := (List.range p).foldl (fun (a : (Int × Int) × Nat) i =>
    let t := a.2
    let v : Int := if i / 2 % 2 == 0 then (t : Int) else -(t : Int)
    ((if i % 2 == 0 then (a.1.1, a.1.2 + v) else (a.1.1 + v, a.1.2)), t * y / 2 ^ p / (i + 1))) ((0, 0), 2 ^ p)
  r.1

/-- The working precision of the bounds. -/
def fixP : Nat := 320

/-- A margin that exceeds every error bound above. -/
def fixE : Nat := 2 ^ 20

/-- 2^x for x = ±n/d that is not an integer and has magnitude at least 2^-30 and below 2^9. -/
def exp2Bounds (neg : Bool) (n d : Nat) : Nat × Nat × Int :=
  let x : Int := if neg then -(n : Int) else n
  let k := x / (d : Int)
  let f := (x % (d : Int)).toNat
  let m := expFix fixP (f * (ln2Fix fixP).toNat / d)
  (m - fixE, m + fixE, k)

/-- log2 of the positive value n/d: bounds of its magnitude scaled by 2^fixP, and its sign. -/
def log2Bounds (n d : Nat) : Bool × Nat × Nat :=
  let e := floorLog2 n d
  let mn := if 0 ≤ e then n else n * 2 ^ (-e).toNat
  let md := if 0 ≤ e then d * 2 ^ e.toNat else d
  let l := lnSeries fixP ((mn - md) * 2 ^ fixP / (mn + md))
  let v : Int := e * 2 ^ fixP + ((l * 2 ^ fixP / (ln2Fix fixP).toNat : Nat) : Int)
  (decide (v < 0), v.natAbs - fixE, v.natAbs + fixE)

/-- tanh of the positive value n/d, at least 2^-30 and below 32: bounds scaled by 2^fixP. -/
def tanhBounds (n d : Nat) : Nat × Nat :=
  let y := 2 * n * 2 ^ fixP / d
  let l := (ln2Fix fixP).toNat
  let k := y / l
  let e := expFix fixP (y % l) * 2 ^ k
  let m := (e - 2 ^ fixP) * 2 ^ fixP / (e + 2 ^ fixP)
  (m - fixE, m + fixE)

/-- sin and cos of n/d scaled by 2^fixP, with exact reduction of the argument (R111). -/
def sinCosVal (n d : Nat) : Int × Int :=
  let P := 768
  let h := piFix P / 2
  let x : Int := (n * 2 ^ P / d : Nat)
  let q := x / h
  let r := ((x % h) / 2 ^ (P - fixP)).toNat
  let sc := sinCosFix fixP r
  match (q % 4).toNat with
  | 0 => (sc.1, sc.2)
  | 1 => (sc.2, -sc.1)
  | 2 => (-sc.1, -sc.2)
  | _ => (-sc.2, sc.1)

/-- Whether n/d is below 2^-30. -/
def isTiny (n d : Nat) : Bool := decide (n * 2 ^ 30 < d)

/-- The special functions by their OP (R216). -/
inductive SFun where
  | exp2 | log2 | rcp | rsq | sqrt | tanh | sin | cos
deriving DecidableEq, Repr

/-- The code of a function, for the free value of log 13. -/
def SFun.code : SFun → Nat
  | .exp2 => 0 | .log2 => 1 | .rcp => 2 | .rsq => 3 | .sqrt => 4 | .tanh => 5 | .sin => 6 | .cos => 7

/-- The code of a rounding mode (R67). -/
def rmCode : RM → Nat
  | .rne => 0 | .rtz => 1 | .rdn => 2 | .rup => 3

/-- A result as an exact value, or as bounds n/d. For a tiny operand the exact result lies between an FP32 value and
its neighbour, nearer the value, and any point there rounds as it does (DEDUCED from R94). -/
inductive SFVal where
  | exact (v : FV)
  | between (neg : Bool) (lo hi den : Nat)

/-- f(x) by the table of R111. -/
def sfunVal (f : SFun) (v : FV) : SFVal :=
  match f, v with
  | _, .nan => .exact .nan
  | .exp2, .inf neg => .exact (if neg then .fin false 0 1 else .inf false)
  | .exp2, .fin neg n d =>
    if n % d = 0 then
      .exact (FV.dyadic false 1 (if neg then -((min (n / d) 1000 : Nat) : Int) else (min (n / d) 1000 : Nat)))
    else if isTiny n d then .exact (if neg then .fin false (2 ^ 60 - 1) (2 ^ 60) else .fin false (2 ^ 60 + 1) (2 ^ 60))
    else if 512 * d ≤ n then .exact (FV.dyadic false 1 (if neg then -1000 else 1000))
    else
      let b := exp2Bounds neg n d
      if 0 ≤ b.2.2 then .between false (b.1 * 2 ^ b.2.2.toNat) (b.2.1 * 2 ^ b.2.2.toNat) (2 ^ fixP)
      else .between false b.1 b.2.1 (2 ^ (fixP + (-b.2.2).toNat))
  | .log2, .inf neg => .exact (if neg then .nan else .inf false)
  | .log2, .fin neg n d =>
    if n = 0 then .exact (.inf true)
    else if neg then .exact .nan
    else
      let e := floorLog2 n d
      if (if 0 ≤ e then decide (n = d * 2 ^ e.toNat) else decide (n * 2 ^ (-e).toNat = d)) then
        .exact (.fin (decide (e < 0)) e.natAbs 1)
      else let b := log2Bounds n d; .between b.1 b.2.1 b.2.2 (2 ^ fixP)
  | .rcp, .inf neg => .exact (.fin neg 0 1)
  | .rcp, .fin neg n d => .exact (if n = 0 then .inf neg else .fin neg d n)
  | .rsq, .inf neg => .exact (if neg then .nan else .fin false 0 1)
  | .rsq, .fin neg n d => .exact (if n = 0 then .inf neg else if neg then .nan else sqrtVal d n)
  | .sqrt, .inf neg => .exact (if neg then .nan else .inf false)
  | .sqrt, .fin neg n d => .exact (if n = 0 then .fin neg 0 1 else if neg then .nan else sqrtVal n d)
  | .tanh, .inf neg => .exact (.fin neg 1 1)
  | .tanh, .fin neg n d =>
    if n = 0 then .exact (.fin neg 0 1)
    else if isTiny n d then .exact (.fin neg (n * (2 ^ 60 - 1)) (d * 2 ^ 60))
    else if 32 * d ≤ n then .exact (.fin neg (2 ^ 60 - 1) (2 ^ 60))
    else let b := tanhBounds n d; .between neg b.1 b.2 (2 ^ fixP)
  | .sin, .inf _ => .exact .nan
  | .sin, .fin neg n d =>
    if n = 0 then .exact (.fin neg 0 1)
    else if isTiny n d then .exact (.fin neg (n * (2 ^ 60 - 1)) (d * 2 ^ 60))
    else
      let s := (sinCosVal n d).1
      .between (neg != decide (s < 0)) (s.natAbs - fixE) (s.natAbs + fixE) (2 ^ fixP)
  | .cos, .inf _ => .exact .nan
  | .cos, .fin _ n d =>
    if n = 0 then .exact (.fin false 1 1)
    else if isTiny n d then .exact (.fin false (2 ^ 60 - 1) (2 ^ 60))
    else
      let c := (sinCosVal n d).2
      .between (decide (c < 0)) (c.natAbs - fixE) (c.natAbs + fixE) (2 ^ fixP)

/-- round(f(x), F32, RM) of R111. -/
def specialF32 (f : SFun) (rm : RM) (x : Word) : Word :=
  match sfunVal f (decodeTy .f32 x.toNat) with
  | .exact v => BitVec.ofNat 32 (encodeTy .f32 rm false v)
  | .between neg lo hi d =>
    match roundBetween rm neg lo hi d with
    | some r => BitVec.ofNat 32 r
    | none => Config.undecided f.code x.toNat (rmCode rm)

end Sys2Proof.Machine
end

