-- ==== Sys2Proof/Machine/VInteger.lean ====
section
/-! DEFINITION. Vector integer instructions, class 0x0 (R201-R207). -/

namespace Sys2Proof.Machine

/-- A lane word from its elements of `w` bits (R197). -/
def elems (w : Nat) (f : Nat → Nat) : Word :=
  BitVec.ofNat 32 ((List.range (32 / w)).foldl (fun a i => a + f i % 2 ^ w * 2 ^ (w * i)) 0)

/-- Element `i` of `w` bits of a lane word (R197). -/
def elemAt (w : Nat) (x : Word) (i : Nat) : Nat := bitsOf x.toNat (w * i) w

/-- Apply a function to each element of one lane. -/
def map1 (w : Nat) (f : Nat → Nat) (a : Word) : Word := elems w (fun i => f (elemAt w a i))

/-- Apply a function to each pair of elements. -/
def map2 (w : Nat) (f : Nat → Nat → Nat) (a b : Word) : Word := elems w (fun i => f (elemAt w a i) (elemAt w b i))

/-- Apply a function to each triple of elements. -/
def map3 (w : Nat) (f : Nat → Nat → Nat → Nat) (a b c : Word) : Word :=
  elems w (fun i => f (elemAt w a i) (elemAt w b i) (elemAt w c i))

/-- The value of an element of an integer type (R92). -/
def intVal (t : Ty) (n : Nat) : Int := if t.isSigned then signedOf t.width n else (n % 2 ^ t.width : Nat)

/-- Element-wise with wrapping of the exact result (R201). -/
def wrap2 (t : Ty) (f : Int → Int → Int) (a b : Word) : Word :=
  map2 t.width (fun x y => wrapTo t.width (f (intVal t x) (intVal t y))) a b

/-- Element-wise with clamping of the exact result (R201). -/
def clamp2 (t : Ty) (f : Int → Int → Int) (a b : Word) : Word :=
  map2 t.width (fun x y => wrapTo t.width (t.clamp (f (intVal t x) (intVal t y)))) a b

/-- Bits [2w−1:w] of the exact product. -/
def mulHigh (t : Ty) (x y : Nat) : Nat := wrapTo t.width (intVal t x * intVal t y / (2 ^ t.width : Nat))

/-- A binary element-wise instruction. -/
def vbin (i : Instr) (f : CFields) (lat : Nat) (g : Word → Word → Word) (s : State) : Out :=
  cLanes i (some f.dt) lat (fun x _ l => g (x.a.at l) (x.b.at l)) s

/-- An untyped binary instruction on whole lanes. -/
def vbin32 (i : Instr) (g : Word → Word → Word) (s : State) : Out :=
  cLanes i none 2 (fun x _ l => g (x.a.at l) (x.b.at l)) s

/-- A unary instruction. -/
def vun (i : Instr) (lat : Nat) (g : Word → Word) (s : State) : Out := cLanes i none lat (fun x _ l => g (x.a.at l)) s

def execVadd (f : CFields) (s : State) : Out := vbin (.vadd f) f 2 (wrap2 f.dt (· + ·)) s
def execVsub (f : CFields) (s : State) : Out := vbin (.vsub f) f 2 (wrap2 f.dt (· - ·)) s
def execVmul (f : CFields) (s : State) : Out := vbin (.vmul f) f 4 (wrap2 f.dt (· * ·)) s
def execVmulhi (f : CFields) (s : State) : Out := vbin (.vmulhi f) f 4 (map2 f.dt.width (mulHigh f.dt)) s

/-- VMAD (R201): a × b + c, wrapping. -/
def execVmad (f : CFields) (s : State) : Out :=
  cLanes (.vmad f) (some f.dt) 4 (fun x _ l =>
    map3 f.dt.width (fun a b c => (a * b + c) % 2 ^ f.dt.width) (x.a.at l) (x.b.at l) (x.c.at l)) s

def execVadds (f : CFields) (s : State) : Out := vbin (.vadds f) f 2 (clamp2 f.dt (· + ·)) s
def execVsubs (f : CFields) (s : State) : Out := vbin (.vsubs f) f 2 (clamp2 f.dt (· - ·)) s
def execVand (f : CFields) (s : State) : Out := vbin32 (.vand f) (· &&& ·) s
def execVor (f : CFields) (s : State) : Out := vbin32 (.vor f) (· ||| ·) s
def execVxor (f : CFields) (s : State) : Out := vbin32 (.vxor f) (· ^^^ ·) s
def execVnot (f : CFields) (s : State) : Out := vun (.vnot f) 2 (~~~ ·) s

/-- VSHL, VSHR and VSAR (R202) shift an element by the low log2(w) bits of the other element. -/
def execVshl (f : CFields) (s : State) : Out :=
  vbin (.vshl f) f 2 (map2 f.dt.width (fun a b => a * 2 ^ (b % f.dt.width))) s

def execVshr (f : CFields) (s : State) : Out :=
  vbin (.vshr f) f 2 (map2 f.dt.width (fun a b => a / 2 ^ (b % f.dt.width))) s

def execVsar (f : CFields) (s : State) : Out :=
  vbin (.vsar f) f 2 (map2 f.dt.width (fun a b =>
    wrapTo f.dt.width (signedOf f.dt.width a / (2 ^ (b % f.dt.width) : Nat)))) s

def execVmin (f : CFields) (s : State) : Out :=
  vbin (.vmin f) f 2 (map2 f.dt.width (fun a b => if intVal f.dt a ≤ intVal f.dt b then a else b)) s

def execVmax (f : CFields) (s : State) : Out :=
  vbin (.vmax f) f 2 (map2 f.dt.width (fun a b => if intVal f.dt a ≤ intVal f.dt b then b else a)) s

def execVabs (f : CFields) (s : State) : Out :=
  vun (.vabs f) 2 (map1 f.dt.width (fun a => wrapTo f.dt.width (signedOf f.dt.width a).natAbs)) s

def execVneg (f : CFields) (s : State) : Out :=
  vun (.vneg f) 2 (map1 f.dt.width (fun a => wrapTo f.dt.width (-(signedOf f.dt.width a)))) s

/-- A condition of VCMP (R81, R203) on two values. -/
def intCond (c : Nat) (x y : Int) : Bool :=
  match c with
  | 0 => x == y
  | 1 => x != y
  | 2 => decide (x < y)
  | 3 => decide (x ≤ y)
  | 4 => decide (y < x)
  | _ => decide (y ≤ x)

/-- A compare: bit `l` of the predicate is set when the condition holds for every element of lane `l` (R203, R210). -/
def vcompare (i : Instr) (f : CFields) (c : Nat → Nat → Nat → Bool) (s : State) : Out :=
  let w := f.dt.width
  cIssue i { imm := some f.dt, free := true } (fun x s1 =>
    let bits := maskOf 32 (fun l => (List.range (32 / w)).all (fun j =>
      c (f.dst.toNat / 8) (elemAt w (x.a.at l) j) (elemAt w (x.b.at l) j)))
    .done (s1.fxWrite x 2 (.pred (f.dst.toNat % 8)) [BitVec.ofNat 32 bits] x.label) 1) s

def execVcmp (f : CFields) (s : State) : Out :=
  vcompare (.vcmp f) f (fun c a b => intCond c (intVal f.dt a) (intVal f.dt b)) s

/-- VSEL (R204): the label joins both values and the selecting predicate. -/
def execVsel (f : CFields) (s : State) : Out :=
  cIssue (.vsel f) { free := true } (fun x s1 =>
    let p := s1.grp.pred f.sc.toNat
    .done (s1.fxWrite x 2 (.reg f.dst.toNat) (lanesOf (fun l => if p.mask.getLsbD l then x.a.at l else x.b.at l))
      (x.label.join p.lbl)) 1) s

/-- VPOPC (R201). -/
def execVpopc (f : CFields) (s : State) : Out :=
  vun (.vpopc f) 2 (fun a => BitVec.ofNat 32 ((List.range 32).countP (fun i => a.getLsbD i))) s

/-- VCLZ (R201): 32 for zero. -/
def execVclz (f : CFields) (s : State) : Out :=
  vun (.vclz f) 2 (fun a => BitVec.ofNat 32 (if a = 0#32 then 32 else 31 - a.toNat.log2)) s

/-- The first bit and the width of a bit field (R205). -/
def fieldOf (b : Word) : Nat × Nat :=
  let f := bitsOf b.toNat 0 5
  (f, min (bitsOf b.toNat 8 6) (32 - f))

/-- VBFE (R205): sign-extended for S32. -/
def execVbfe (f : CFields) (s : State) : Out :=
  cLanes (.vbfe f) none 2 (fun x _ l =>
    let q := fieldOf (x.b.at l)
    let v := bitsOf (x.a.at l).toNat q.1 q.2
    if q.2 = 0 then 0#32 else if f.dt = .s32 then BitVec.ofInt 32 (signedOf q.2 v) else BitVec.ofNat 32 v) s

/-- VBFI (R205): the base comes from SC. -/
def execVbfi (f : CFields) (s : State) : Out :=
  cLanes (.vbfi f) none 2 (fun x _ l =>
    let q := fieldOf (x.b.at l)
    let c := (x.c.at l).toNat
    BitVec.ofNat 32 (c - bitsOf c q.1 q.2 * 2 ^ q.1 + bitsOf (x.a.at l).toNat 0 q.2 * 2 ^ q.1)) s

/-- The type of twice the width that VPACK reads. -/
def widerTy : Ty → Ty
  | .s8 => .s16 | .z8 => .z16 | .s16 => .s32 | _ => .z32

/-- VPACK (R206, R99): the elements of A, then those of B, narrowed. -/
def execVpack (f : CFields) (s : State) : Out :=
  let w := f.dt.width
  let half := 16 / w
  cLanes (.vpack f) none 2 (fun x _ l => elems w (fun i =>
    intToInt (widerTy f.dt) f.dt f.sat
      (if i < half then elemAt (2 * w) (x.a.at l) i else elemAt (2 * w) (x.b.at l) (i - half)))) s

/-- VUNPK (R207): byte elements of A widened. -/
def execVunpk (f : CFields) (s : State) : Out :=
  let w := f.dt.width
  let n := 32 / w
  vun (.vunpk f) 2 (fun a => elems w (fun i =>
    let b := elemAt 8 a (f.x.toNat * n + i)
    if f.dt.isSigned then wrapTo w (signedOf 8 b) else b)) s

end Sys2Proof.Machine
end

