-- ==== Sys2Proof/Machine/VFloat.lean ====
section
/-! DEFINITION. Vector floating-point instructions and special functions, classes 0x1 and 0x2 (R208-R216). -/

namespace Sys2Proof.Machine

def execVfadd (f : CFields) (s : State) : Out := vbin (.vfadd f) f 4 (map2 f.dt.width (fAdd f.dt f.rm)) s
def execVfsub (f : CFields) (s : State) : Out := vbin (.vfsub f) f 4 (map2 f.dt.width (fSub f.dt f.rm)) s
def execVfmul (f : CFields) (s : State) : Out := vbin (.vfmul f) f 4 (map2 f.dt.width (fMul f.dt f.rm)) s

/-- VFMA (R208): one rounding of the exact a × b + c. -/
def execVfma (f : CFields) (s : State) : Out :=
  cLanes (.vfma f) (some f.dt) 4 (fun x _ l =>
    map3 f.dt.width (fFma f.dt f.rm) (x.a.at l) (x.b.at l) (x.c.at l)) s

def execVfmin (f : CFields) (s : State) : Out := vbin (.vfmin f) f 2 (map2 f.dt.width (minMaxNum f.dt false)) s
def execVfmax (f : CFields) (s : State) : Out := vbin (.vfmax f) f 2 (map2 f.dt.width (minMaxNum f.dt true)) s

/-- VFABS and VFNEG (R209) act on the sign bit alone. -/
def execVfabs (f : CFields) (s : State) : Out :=
  vun (.vfabs f) 2 (map1 f.dt.width (fun a => a % 2 ^ (f.dt.width - 1))) s

def execVfneg (f : CFields) (s : State) : Out :=
  vun (.vfneg f) 2 (map1 f.dt.width (fun a => (a + 2 ^ (f.dt.width - 1)) % 2 ^ f.dt.width)) s

/-- A condition of VFCMP (R210). -/
def floatCond (c : Nat) (x y : FV) : Bool :=
  match c with
  | 0 => x.eq y
  | 1 => !(x.eq y)
  | 2 => x.lt y
  | 3 => x.lt y || x.eq y
  | 4 => y.lt x
  | 5 => y.lt x || x.eq y
  | _ => x == .nan || y == .nan

def execVfcmp (f : CFields) (s : State) : Out :=
  vcompare (.vfcmp f) f (fun c a b => floatCond c (decodeTy f.dt a) (decodeTy f.dt b)) s

/-- VFCLASS (R211). -/
def execVfclass (f : CFields) (s : State) : Out :=
  vun (.vfclass f) 2 (map1 f.dt.width (fun a => match Fmt.ofTy f.dt with | some F => fClass F a | none => 0)) s

/-- VCVT (R212): the source type stands in EXT; E elements are converted, the bits above them are zero. -/
def execVcvt (f : CFields) (s : State) : Out :=
  let src := (Ty.ofCode (f.ext.toNat % 32)).getD .f32
  let n := 32 / max src.width f.dt.width
  vun (.vcvt f) 4 (fun a => elems f.dt.width (fun i =>
    if i < n then convertTy src f.dt f.rm f.sat (elemAt src.width a i) else 0)) s

/-- VQNT (R213, R100): the exact quotient of two F32 values, rounded once into element 0. -/
def execVqnt (f : CFields) (s : State) : Out :=
  cLanes (.vqnt f) (some .f32) 12 (fun x _ l =>
    BitVec.ofNat 32 (encodeTy f.dt f.rm f.sat
      ((decodeTy .f32 (x.a.at l).toNat).div (decodeTy .f32 (x.b.at l).toNat)))) s

/-- VDQNT (R214, R101): the exact product of a code and its F32 scale, rounded once to the type X names. -/
def execVdqnt (f : CFields) (s : State) : Out :=
  let dst : Ty := if f.x = 0#2 then .f32 else if f.x = 1#2 then .f16 else .bf16
  cLanes (.vdqnt f) (some .f32) 4 (fun x _ l =>
    BitVec.ofNat 32 (encodeTy dst f.rm false
      ((decodeTy f.dt (elemAt f.dt.width (x.a.at l) 0)).mul (decodeTy .f32 (x.b.at l).toNat)))) s

/-- VSCALB (R215): a × 2^n with one rounding; an immediate takes S32 for F32, S16 for the others. -/
def execVscalb (f : CFields) (s : State) : Out :=
  let w := f.dt.width
  cLanes (.vscalb f) (some (if f.dt = .f32 then .s32 else .s16)) 4 (fun x _ l =>
    map2 w (fun a n => fScalb f.dt f.rm a (signedOf w n)) (x.a.at l) (x.b.at l)) s

/-- A special function (R216). -/
def sfun (i : Instr) (f : CFields) (lat : Nat) (g : SFun) (s : State) : Out := vun i lat (specialF32 g f.rm) s

def execVexp2 (f : CFields) (s : State) : Out := sfun (.vexp2 f) f 14 .exp2 s
def execVlog2 (f : CFields) (s : State) : Out := sfun (.vlog2 f) f 14 .log2 s
def execVrcp (f : CFields) (s : State) : Out := sfun (.vrcp f) f 14 .rcp s
def execVrsq (f : CFields) (s : State) : Out := sfun (.vrsq f) f 14 .rsq s
def execVsqrt (f : CFields) (s : State) : Out := sfun (.vsqrt f) f 14 .sqrt s
def execVtanh (f : CFields) (s : State) : Out := sfun (.vtanh f) f 20 .tanh s
def execVsin (f : CFields) (s : State) : Out := sfun (.vsin f) f 20 .sin s
def execVcos (f : CFields) (s : State) : Out := sfun (.vcos f) f 20 .cos s

end Sys2Proof.Machine
end

