-- ==== Sys2Proof/Machine/VLane.lean ====
section
/-! DEFINITION. Cross-lane instructions, tile width, moves and random numbers, class 0x3 (R108-R112, R217-R225). -/

namespace Sys2Proof.Machine

/-- The word a cross-lane read of lane `l` finds (R218): zero for a lane not launched or in an ENDED quad. -/
def Group.laneWord (g : Group) (o : Operand) (l : Nat) : Word :=
  if g.launched.getLsbD l && (g.quad (l / 4)).st != .ended then o.at l else 0#32

/-- A shuffle: each lane reads the lane that `src` names within its tile (R220). The arguments of `src` are TILEW, the
position in the tile and B of the lane. -/
def shuffle (i : Instr) (src : Nat → Nat → Word → Nat) (s : State) : Out :=
  cIssue i { free := true, qa := 255 } (fun x s1 =>
    let g := s1.grp
    let t := g.tilew
    .done (s1.fxWrite x 4 (.reg x.f.dst.toNat) (lanesOf (fun l =>
      g.laneWord x.a (l - l % t + src t (l % t) (x.b.at l) % t))) x.label) 1) s

def execVshuf (f : CFields) (s : State) : Out := shuffle (.vshuf f) (fun _ _ b => b.toNat) s

/-- VSHFL (R220): X is 00 UP, 01 DOWN, 10 XOR; the offset is reduced modulo TILEW first, which changes nothing. -/
def execVshfl (f : CFields) (s : State) : Out :=
  shuffle (.vshfl f) (fun t i b =>
    if f.x = 0#2 then i + t - b.toNat % t else if f.x = 1#2 then i + b.toNat else Nat.xor i b.toNat) s

/-- VBCAST (R220): the index is that of the lowest participating lane of the tile. -/
def execVbcast (f : CFields) (s : State) : Out :=
  cIssue (.vbcast f) { free := true, qa := 255 } (fun x s1 =>
    let g := s1.grp
    let t := g.tilew
    let first (base : Nat) : Nat := ((List.range t).find? (fun j => x.written.getLsbD (base + j))).getD 0
    .done (s1.fxWrite x 4 (.reg f.dst.toNat) (lanesOf (fun l =>
      let base := l - l % t
      g.laneWord x.a (base + (x.b.at (base + first base)).toNat % t))) x.label) 1) s

/-- VVOTE (R221) over the participating lanes of the tile: X is 00 all, 01 any, 10 ballot, 11 eq. -/
def execVvote (f : CFields) (s : State) : Out :=
  cIssue (.vvote f) { free := true } (fun x s1 =>
    let g := s1.grp
    let t := g.tilew
    let p := g.pred f.sa.toNat
    .done (s1.fxWrite x 4 (.reg f.dst.toNat) (lanesOf (fun l =>
      let ls := ((List.range t).map (fun j => l - l % t + j)).filter (fun m => x.written.getLsbD m)
      let all := ls.all (fun m => p.mask.getLsbD m)
      let any := ls.any (fun m => p.mask.getLsbD m)
      match f.x.toNat with
      | 0 => if all then 1#32 else 0#32
      | 1 => if any then 1#32 else 0#32
      | 2 => BitVec.ofNat 32 (maskOf 32 (fun m => ls.contains m && p.mask.getLsbD m))
      | _ => if all || !any then 1#32 else 0#32)) (x.k.join p.lbl)) 1) s

/-- The operators of VRED and VSCAN (R81, R222): 0 ADD, 1 MIN, 2 MAX, 3 AND, 4 OR, 5 XOR. -/
def redOp (t : Ty) (rm : RM) (op : Nat) (a b : Word) : Word :=
  let x := a.toNat
  let y := b.toNat
  match op with
  | 0 => if t = .f32 then BitVec.ofNat 32 (fAdd .f32 rm x y) else a + b
  | 1 => if t = .f32 then BitVec.ofNat 32 (minMaxNum .f32 false x y) else if intVal t x ≤ intVal t y then a else b
  | 2 => if t = .f32 then BitVec.ofNat 32 (minMaxNum .f32 true x y) else if intVal t x ≤ intVal t y then b else a
  | 3 => a &&& b
  | 4 => a ||| b
  | _ => a ^^^ b

/-- The identities of R110. -/
def redIdentity (t : Ty) (op : Nat) : Word :=
  match op with
  | 0 => if t = .f32 then 0x80000000#32 else 0#32
  | 1 => if t = .f32 then 0x7F800000#32 else if t = .s32 then 0x7FFFFFFF#32 else 0xFFFFFFFF#32
  | 2 => if t = .f32 then 0xFF800000#32 else if t = .s32 then 0x80000000#32 else 0#32
  | 3 => 0xFFFFFFFF#32
  | _ => 0#32

/-- One level of the tree of R108: neighbours are combined, the lower index on the left. -/
def pairUp (f : Word → Word → Word) : List Word → List Word
  | a :: b :: r => f a b :: pairUp f r
  | l => l

/-- The node of R108 that covers all of a list of 2^n values. -/
def treeNode (f : Word → Word → Word) : Nat → List Word → Word
  | 0, l => l.headD 0#32
  | n + 1, l => treeNode f n (pairUp f l)

/-- The inclusive scan of R109 at position `i`: the nodes of the binary expansion of i + 1, largest first. -/
def scanAt (f : Word → Word → Word) (xs : List Word) (i : Nat) : Word :=
  let r := [5, 4, 3, 2, 1, 0].foldl (fun (a : Option Word × Nat) j =>
    if bitOf (i + 1) j then
      let n := treeNode f j ((xs.drop a.2).take (2 ^ j))
      (some (match a.1 with | none => n | some v => f v n), a.2 + 2 ^ j)
    else a) (none, 0)
  r.1.getD 0#32

/-- The values of a tile as a reduction takes them (R218, R222): the identity for a lane that does not participate. -/
def tileValues (x : CIn) (t base : Nat) (e : Word) : List Word :=
  (List.range t).map (fun j => if x.written.getLsbD (base + j) then x.a.at (base + j) else e)

/-- The latency of a reduction or scan (R312). -/
def redLatency (t : Ty) : Nat := if t = .f32 then 12 else 8

/-- VRED (R222): the root of the tree, in every written lane of the tile. -/
def execVred (f : CFields) (s : State) : Out :=
  let op := f.ext.toNat % 8
  cIssue (.vred f) { free := true, qa := 255 } (fun x s1 =>
    let t := s1.grp.tilew
    .done (s1.fxWrite x (redLatency f.dt) (.reg f.dst.toNat) (lanesOf (fun l =>
      treeNode (redOp f.dt f.rm op) t.log2 (tileValues x t (l - l % t) (redIdentity f.dt op)))) x.label) 1) s

/-- VSCAN (R222): X = 00 inclusive, X = 01 exclusive. -/
def execVscan (f : CFields) (s : State) : Out :=
  let op := f.ext.toNat % 8
  let e := redIdentity f.dt op
  cIssue (.vscan f) { free := true, qa := 255 } (fun x s1 =>
    let t := s1.grp.tilew
    .done (s1.fxWrite x (redLatency f.dt) (.reg f.dst.toNat) (lanesOf (fun l =>
      let xs := tileValues x t (l - l % t) e
      let i := l % t
      if f.x = 0#2 then scanAt (redOp f.dt f.rm op) xs i
      else if i = 0 then e else scanAt (redOp f.dt f.rm op) xs (i - 1))) x.label) 1) s

/-- SETTW (R223): one path entry, a width of 2 to 32, and an empty-labelled width. -/
def execSettw (f : CFields) (s : State) : Out :=
  cIssue (.settw f) { free := true, qb := 1 } (fun x s1 =>
    let w := (x.b.at 0).toNat
    let l := x.label
    if 1 < s.grp.paths.length || !([2, 4, 8, 16, 32].contains w) then .fault fltIllegal false
    else if l ≠ 0#16 then .fault (fltStore 1 l 0#16 0) false
    else .done (s1.fxWrite x 2 .tilew [BitVec.ofNat 32 w] 0#16) 1) s

/-- VMOV (R224). -/
def execVmov (f : CFields) (s : State) : Out := cLanes (.vmov f) none 2 (fun x _ l => x.b.at l) s

/-- One round of Philox on the counter words. -/
def philoxRound (c : Word × Word × Word × Word) (k0 k1 : Word) : Word × Word × Word × Word :=
  let m0 := 0xD2511F53 * c.1.toNat
  let m1 := 0xCD9E8D57 * c.2.2.1.toNat
  (BitVec.ofNat 32 (m1 / 2 ^ 32) ^^^ c.2.1 ^^^ k0, BitVec.ofNat 32 m1,
   BitVec.ofNat 32 (m0 / 2 ^ 32) ^^^ c.2.2.2 ^^^ k1, BitVec.ofNat 32 m0)

/-- `n` rounds of Philox-4×32, the key words raised after each round. -/
def philox : Nat → Word × Word × Word × Word → Word → Word → Word × Word × Word × Word
  | 0, c, _, _ => c
  | n + 1, c, k0, k1 => philox n (philoxRound c k0 k1) (k0 + 0x9E3779B9#32) (k1 + 0xBB67AE85#32)

/-- VRAND (R112, R225): four registers from D on. -/
def execVrand (f : CFields) (s : State) : Out :=
  let d := f.dst.toNat
  cIssue (.vrand f) { static := fun v => decide (d + 3 < v), free := true, qa := 1, qc := 1,
                      writes := [.reg (d + 1), .reg (d + 2), .reg (d + 3)] } (fun x s1 =>
    let g := s1.grp
    let key (o : Operand) (l : Nat) : Word := if g.launched.getLsbD l then o.at l else 0#32
    let lit : Word := match f.imm with | .lit w => w | _ => 0#32
    let out (l : Nat) : Word × Word × Word × Word :=
      philox 10 (key x.c 0, key x.c 1, BitVec.ofNat 32 l, lit) (key x.a 0) (key x.a 1)
    let lb := resultLabel x.k [x.a.lbl, x.c.lbl]
    let s2 := s1.fxWrite x 10 (.reg d) (lanesOf (fun l => (out l).1)) lb
    let s3 := s2.fxWrite x 10 (.reg (d + 1)) (lanesOf (fun l => (out l).2.1)) lb
    let s4 := s3.fxWrite x 10 (.reg (d + 2)) (lanesOf (fun l => (out l).2.2.1)) lb
    .done (s4.fxWrite x 10 (.reg (d + 3)) (lanesOf (fun l => (out l).2.2.2)) lb) 1) s

end Sys2Proof.Machine
end

