-- ==== Sys2Proof/Machine/Collective.lean ====
section
/-! DEFINITION. Collectives: COLL, the reducer, result chunks, and the steps in which they go on (R133, R414-R420, R430). -/

namespace Sys2Proof.Machine

/-! ## The command -/

/-- RCOUNT (R414). -/
def CollParams.rcount (p : CollParams) : Nat :=
  match p.op with
  | 0 => p.count
  | 1 => p.glen / 2 ^ p.segl
  | _ => p.npeer * p.count

/-- The number of chunks nc (R414). -/
def CollParams.chunks (p : CollParams) : Nat := (p.rcount + p.chunk - 1) / p.chunk

/-- The result elements of a chunk: the first, and how many (R418). -/
def CollParams.range (p : CollParams) (c : Nat) : Nat × Nat := (c * p.chunk, min ((c + 1) * p.chunk) p.rcount - c * p.chunk)

/-- FAST (R414). -/
def CollParams.fast (p : CollParams) : Bool := bitOf p.mode 0

/-- What the first frame of a command says. -/
def CollCmd.params (c : CollCmd) : CollParams :=
  { op := c.op, ety := c.ety, rop := c.rop, mode := c.mode, npeer := c.npeer, rank := c.rank, count := c.count, gbase := c.gbase,
    glen := c.glen, segl := c.segl, chunk := c.chunk }

/-- The command of a collective record without its peers (R414). -/
def readColl (bs : List Byte) : CollCmd :=
  { op := fieldAt bs 0 1, ety := fieldAt bs 1 1, rop := fieldAt bs 2 1, mode := fieldAt bs 3 1, npeer := fieldAt bs 4 2,
    rank := fieldAt bs 6 2, cid := fieldAt bs 8 4, reddev := fieldAt bs 0xC 2, src := fieldAt bs 0x10 8, dst := fieldAt bs 0x18 8,
    peers := [], count := fieldAt bs 0x28 4, gbase := fieldAt bs 0x2C 4, glen := fieldAt bs 0x30 4, segl := fieldAt bs 0x34 1,
    chunk := fieldAt bs 0x38 4, bar := fieldAt bs 0x3C 4 }

/-- The limits of R414 on a record's fields. -/
def collFieldsOk (bs : List Byte) : Bool :=
  let c := readColl bs
  decide (c.op ≤ 2) && [2, 6, 8].contains c.ety && decide (c.rop ≤ 2) && (c.op != 2 || c.rop == 0) && [0, 1, 3].contains c.mode
    && decide (1 ≤ c.npeer) && decide (c.npeer ≤ 1024) && decide (c.rank < c.npeer) && decide (c.reddev < 1024)
    && fieldAt bs 0xE 2 == 0 && c.src % 4 == 0 && c.dst % 4 == 0 && decide (c.src < 2 ^ 55) && decide (c.dst < 2 ^ 55)
    && decide (fieldAt bs 0x20 8 < 2 ^ 55) && decide (1 ≤ c.count) && decide (c.count ≤ 2 ^ 28)
    && (if c.op = 1 then decide (c.segl ≤ 20) && c.glen % 2 ^ c.segl == 0 else c.gbase == 0 && c.glen == 0 && c.segl == 0)
    && fieldAt bs 0x35 3 == 0 && decide (1 ≤ c.chunk) && decide (c.chunk ≤ 2 ^ 20) && decide (c.params.chunks ≤ 4096)

/-- Every chunk barrier of a command lies in the team's region and is marked (R414). -/
def State.collBars (s : State) (c : CollCmd) : Bool :=
  (List.range c.params.chunks).all (fun i => barOk (s.recOf s.cur) (c.bar + 16 * i) && s.tm.marked? (c.bar + 16 * i))

/-- The message check of a contribution against the reducing device and every peer (R137, R419). -/
def State.collMsg (s : State) (k : Nat) (c : CollCmd) (l : Label) : Option Flt :=
  let x := s.ctx (s.ctxOf k)
  ((c.reddev :: c.peers).find? (fun d => !l.within (x.eplDev d))).map (fun d => fltMsg 0 l (x.eplDev d) 0)

/-- The outcome of reading a collective command. -/
inductive CollRead where
  | ok (s : State) (c : CollCmd) (l : Label)
  | bad (f : Flt)
  | wait (s : State)
deriving DecidableEq, Repr

/-- Read a collective record and its list of peers (R414, R133). -/
def State.collRead (s : State) (va : Nat) : CollRead :=
  match s.engineRec va 64 with
  | .bad f => .bad f
  | .wait s1 => .wait s1
  | .ok s1 bs l =>
    if !collFieldsOk bs || !s1.collBars (readColl bs) then .bad fltIllegal
    else
      let c := readColl bs
      let pa := fieldAt bs 0x20 8
      match s1.readRec s.cur pa (2 * c.npeer) with
      | .bad f => .bad f
      | .wait s2 => .wait s2
      | .ok s2 ps lp =>
        let peers := (List.range c.npeer).map (fun i => fieldAt ps (2 * i) 2)
        if !lp.within (s.clr s.cur) then .bad (fltLoad 1 lp (s.clr s.cur) pa)
        else if peers.any (fun d => decide (1024 ≤ d)) || peers.getD c.rank 1024 != s.devn then .bad fltIllegal
        else .ok s2 { c with peers := peers } l

/-- COLL (R28, R175, R414, R447). -/
def execColl (a : SRegNo) (s : State) : Out :=
  let g := s.grp
  s.whenFree (.coll a) [a]
    (if g.role ≠ 0 then s.faultA { code := 0x02 }
     else
       match s.collRead (g.sreg a).val.toNat with
       | .bad f => s.faultA f
       | .wait s1 => s1.waits (.coll a)
       | .ok s1 c l =>
         let w := resultLabel g.pA [(g.sreg a).lbl, l]
         match s1.collMsg s1.cur c w with
         | some f => s.faultA f
         | none =>
           if s1.pathFull s.cur .cl then s1.waits (.coll a)
           else
             let o : Op := { id := 0, fc := some .cl, pc := g.apc.toNat, run := g.runs, after := g.caOrd, lbl := w,
                             data := .coll c 0 [] [] }
             .next (s1.setGrp ((s1.grp.issueOp o).advance 4)))

/-! ## Frames of a collective -/

/-- A frame of a collective (R408): CID and chunk in ADDR, ROP and ETY in OPN. -/
def State.collFrame (s : State) (t : FrameType) (dst ctx cid chunk rop ety : Nat) (lbl : Label) (aux : Nat) (pay : List Byte) : Frame :=
  { s.frame t 3 dst ctx lbl 0 (cid + 2 ^ 32 * chunk) aux with opn := BitVec.ofNat 8 (rop + 4 * ety), payload := pay }

/-- The payload of a first frame (log 23). -/
def CollParams.bytes (p : CollParams) : List Byte :=
  bytesOf p.op 1 ++ bytesOf p.ety 1 ++ bytesOf p.rop 1 ++ bytesOf p.mode 1 ++ bytesOf p.npeer 2 ++ bytesOf p.rank 2
    ++ bytesOf p.count 4 ++ bytesOf p.gbase 4 ++ bytesOf p.glen 4 ++ bytesOf p.segl 4 ++ bytesOf p.chunk 4 ++ bytesOf 0 4

/-- The parameters that a first frame carries. -/
def readParams (bs : List Byte) : CollParams :=
  { op := fieldAt bs 0 1, ety := fieldAt bs 1 1, rop := fieldAt bs 2 1, mode := fieldAt bs 3 1, npeer := fieldAt bs 4 2,
    rank := fieldAt bs 6 2, count := fieldAt bs 8 4, gbase := fieldAt bs 12 4, glen := fieldAt bs 16 4, segl := fieldAt bs 20 4,
    chunk := fieldAt bs 24 4 }

/-- The parameters as every part of a contribution carries them in 20 bytes, ETY and ROP standing in the header (log 23). -/
def CollParams.brief (p : CollParams) : List Byte :=
  bytesOf (p.npeer + 2 ^ 11 * p.rank + 2 ^ 21 * p.op + 2 ^ 23 * p.mode + 2 ^ 25 * p.segl) 4 ++ bytesOf p.count 4 ++ bytesOf p.gbase 4
    ++ bytesOf p.glen 4 ++ bytesOf p.chunk 4

/-- The parameters that a part of a contribution carries. -/
def readBrief (f : Frame) : CollParams :=
  let n := fieldAt f.payload 12 4
  { op := bitsOf n 21 2, ety := f.opn.toNat / 4, rop := f.opn.toNat % 4, mode := bitsOf n 23 2, npeer := bitsOf n 0 11, rank := bitsOf n 11 10,
    count := fieldAt f.payload 16 4, gbase := fieldAt f.payload 20 4, glen := fieldAt f.payload 24 4, segl := bitsOf n 25 5,
    chunk := fieldAt f.payload 28 4 }

/-- The payload of a part of a chunk: first element, number of words, an error mark (1 an error, 2 an error by this
device's contribution), 20 bytes that a contribution has its parameters in, and the words (log 23). -/
def partBytes (start mark : Nat) (brief : List Byte) (ws : List Word) : List Byte :=
  bytesOf start 4 ++ bytesOf ws.length 4 ++ bytesOf mark 4 ++ brief ++ ws.flatMap (fun w => bytesOf w.toNat 4)

/-- The words of a part. -/
def partWords (bs : List Byte) : List Word := (List.range (min (fieldAt bs 4 4) 56)).map (fun i => BitVec.ofNat 32 (fieldAt bs (32 + 4 * i) 4))

/-- Parts of at most 56 words, as many as a frame carries. -/
def partsOf (start : Nat) (ws : List Word) : List (Nat × List Word) :=
  (List.range ((ws.length + 55) / 56)).map (fun i => (start + 56 * i, (ws.drop (56 * i)).take 56))

/-- The element type of a collective. -/
def collTy (ety : Nat) : Ty := (Ty.ofCode ety).getD .z32

/-- The combination of R415: F32 rounds under RNE. -/
def CollParams.comb (p : CollParams) : Word → Word → Word := redOp (collTy p.ety) .rne p.rop

/-- Fold a list from left to right. -/
def foldWords (f : Word → Word → Word) : List Word → Word
  | [] => 0#32
  | x :: xs => xs.foldl f x

/-- What a device contributes to a chunk: the first element in the chunk, and the words (R415, R416). In DET mode a
SEGREDUCE counts positions of the global vector, otherwise results. -/
def CollParams.own (p : CollParams) (xs : List Word) (c : Nat) : Nat × List Word :=
  let r := p.range c
  let slice (base lo n : Nat) : Nat × List Word :=
    let a := max base lo
    let b := min (base + p.count) (lo + n)
    (a - lo, (xs.drop (a - base)).take (b - a))
  match p.op with
  | 0 => slice 0 r.1 r.2
  | 1 =>
    let sg := 2 ^ p.segl
    if !p.fast then slice p.gbase (r.1 * sg) (r.2 * sg)
    else
      let js := ((List.range r.2).map (r.1 + ·)).filter (fun j => decide (p.gbase < (j + 1) * sg) && decide (j * sg < p.gbase + p.count))
      (js.headD r.1 - r.1, js.map (fun j =>
        let a := max p.gbase (j * sg)
        foldWords p.comb ((xs.drop (a - p.gbase)).take (min (p.gbase + p.count) ((j + 1) * sg) - a))))
  | _ => slice (p.rank * p.count) r.1 r.2

/-- The elements that contributions to a chunk count: positions of the global vector for a SEGREDUCE in DET mode. -/
def CollParams.elems (p : CollParams) (c : Nat) : Nat := (p.range c).2 * (if p.op = 1 && !p.fast then 2 ^ p.segl else 1)

/-- The parts of a chunk, of 56 elements each, as many as a frame carries: every device contributes one frame to each part,
without words where it has none, so that the counts of a part sum to NPEER (R420; log 23). -/
def CollParams.parts (p : CollParams) (c : Nat) : Nat := (p.elems c + 55) / 56

/-- What of a device's words falls into part `j`. -/
def partOf (w : Nat × List Word) (j : Nat) : Nat × List Word :=
  let lo := max w.1 (56 * j)
  if lo < 56 * j + 56 then (lo, (w.2.drop (lo - w.1)).take (56 * j + 56 - lo)) else (56 * j, [])

/-- The frames that a device sends to its reducer: the first frame, and its parts of every chunk (R417, R420). -/
def State.contribFrames (s : State) (k : Nat) (c : CollCmd) (xs : List Word) (l : Label) : List Frame :=
  let p := c.params
  let fr (chunk aux : Nat) (pay : List Byte) : Frame := s.collFrame .contribution c.reddev (s.ctxOf k) c.cid chunk c.rop c.ety l aux pay
  fr 0 0 p.bytes :: (List.range p.chunks).flatMap (fun i =>
    let w := p.own xs i
    (List.range (p.parts i)).map (fun j =>
      let q := partOf w j
      { fr i 1 (partBytes q.1 0 p.brief q.2) with red := p.mode == 3 }))

/-! ## Result chunks at a peer -/

/-- The operation of a collective of a context by CID that has contributed; of several the first (log 103). -/
def State.collOp (s : State) (ctx cid : Nat) : Option (Nat × Op) :=
  s.groups.findSome? (fun e =>
    if s.ctxOf e.1 = ctx then
      (e.2.ops.find? (fun o => !o.doneq && (match o.data with | .coll c 2 _ _ => c.cid == cid | _ => false))).map (fun o => (e.1, o))
    else none)

/-- The pieces of a chunk cover its `n` elements. -/
def chunkWhole (ps : List Piece) (chunk n : Nat) : Bool :=
  (List.range n).all (fun e => ps.any (fun p => p.chunk == chunk && decide (p.start ≤ e) && decide (e < p.start + p.words.length)))

/-- An element of a chunk. -/
def chunkWord (ps : List Piece) (chunk e : Nat) : Word :=
  match ps.find? (fun p => p.chunk == chunk && decide (p.start ≤ e) && decide (e < p.start + p.words.length)) with
  | some p => p.words.getD (e - p.start) 0#32
  | none => 0#32

/-- The words of a whole chunk are to be written into DST (R127, R348, R419); a chunk that fails a check of its messages is not
written and ends with an error. -/
def State.writeChunk (s : State) (k : Nat) (o : Op) (c : CollCmd) (ps : List Piece) (es : List ChunkEnd) (i : Nat) (l : Label) : State :=
  let r := c.params.range i
  let as := (List.range r.2).map (fun e => s.formBy (s.walkerCache k) k
    { lane := i, va := c.dst + 4 * (r.1 + e), size := 4, kind := .store, val := (chunkWord ps i e).toNat, lbl := l })
  let ended (err : Bool) : OpData := .coll c 2 (ps.filter (fun p => p.chunk != i)) (es ++ [{ chunk := i, lbl := l, err := err }])
  match as.findSome? (s.sendCheck k o.lbl) with
  | some f => s.putOp k { o with fail := o.fail.or (some f), data := ended true }
  | none => s.putOp k { o with accs := o.accs ++ as, data := ended false }

/-- Perform what is left of the words of a chunk; a failing label leaves the chunk unwritten and ends it with an error
(R419). -/
def State.chunkStores (s : State) (k id i : Nat) : State :=
  match (s.group k).op id with
  | none => s
  | some o =>
    match o.data with
    | .coll c ph ps es =>
      let mine (a : Acc) : Bool := a.lane == i
      (match s.performPart k o mine (fun n => (o.accs[n]?).any mine) with
       | .blocked => s
       | .bad f =>
         s.putOp k { o with fail := o.fail.or (some f), accs := o.accs.map (fun a => if mine a then a.leave else a),
                            data := .coll c ph ps (es.map (fun e => if e.chunk = i then { e with err := true } else e)) }
       | .ok s1 accs => s1.putOp k { o with accs := accs })
    | _ => s

/-- A result chunk's frame reaches a peer (R417-R419, R430); one that no collective awaits is dropped. -/
def State.resultIn (s : State) (f : Frame) : State :=
  let chunk := f.addr.toNat / 2 ^ 32
  match s.collOp f.ctx (f.addr.toNat % 2 ^ 32) with
  | none => s
  | some (k, o) =>
    match o.data with
    | .coll c ph ps es =>
      if es.any (fun e => e.chunk == chunk) || c.params.chunks ≤ chunk then s
      else
        let mark := fieldAt f.payload 8 4
        if mark ≠ 0 then
          s.putOp k { o with fail := if mark = 2 then o.fail.or (some { code := 0x17 }) else o.fail,
                             data := .coll c ph ps (es ++ [{ chunk := chunk, lbl := f.lbl, err := true }]) }
        else
          let ps1 := ps ++ [{ chunk := chunk, start := fieldAt f.payload 0 4, words := partWords f.payload, lbl := f.lbl }]
          if chunkWhole ps1 chunk (c.params.range chunk).2 then
            s.writeChunk k o c ps1 es chunk (Label.joinAll ((ps1.filter (fun p => p.chunk == chunk)).map (·.lbl)))
          else s.putOp k { o with data := .coll c ph ps1 es }
    | _ => s

/-- The arrival of a chunk of which no part remains to be written (R131, R235, R418). -/
def State.chunkArrive (s : State) (k id : Nat) (e : ChunkEnd) : State :=
  match (s.group k).op id with
  | none => s
  | some o =>
    match o.data with
    | .coll c ph ps es =>
      let mine := o.accs.filter (fun a => a.lane == e.chunk)
      let made : OpData := .coll c ph ps (es.map (fun x => if x.chunk = e.chunk then { x with made := true } else x))
      let l := e.lbl.join o.lbl
      let off := c.bar + 16 * e.chunk
      if e.made || !mine.all (·.done) then s
      else
        let t := s.team (teamOf k)
        match s.arriveAt { grid := t.grid, teamix := t.teamix, off := off, count := 1, lbl := l,
                           err := es.any (fun x => x.chunk == e.chunk && x.err) || mine.any (·.lease),
                           g := k, op := id } with
        | .wait => s
        | .rejected => s.putOp k { o with data := made, fail := o.fail.or (some (fltIllegalAt off)) }
        | .badLabel b => s.putOp k { o with data := made, fail := o.fail.or (some (fltStore 3 l b off)) }
        | .ok s1 => s1.putOp k { o with data := made }
    | _ => s

/-- Write what is left of the chunks of an operation, and make every chunk arrival that is due. -/
def State.chunkArrivals (s : State) (k id : Nat) : State :=
  match (s.group k).op id with
  | some { data := .coll _ _ _ es, .. } => es.foldl (fun a e => (a.chunkStores k id e.chunk).chunkArrive k id e) s
  | _ => s

/-! ## The reducer -/

/-- The parameters that a reducer has of devices: by their first frames and, of a device whose first frame was of a wrong generation,
by its parts (R430). -/
def Reducer.known (r : Reducer) : List (Nat × CollParams) :=
  r.firsts ++ r.briefs.filter (fun b => r.late.contains b.1 && !r.firsts.any (fun x => x.1 == b.1))

/-- The rank of a device. -/
def Reducer.rankOf (r : Reducer) (src : Nat) : Nat := ((r.known.find? (fun f => f.1 == src)).map (·.2.rank)).getD 0

/-- Two peers' first frames agree (R417). -/
def CollParams.agree (a b : CollParams) : Bool :=
  a.op == b.op && a.ety == b.ety && a.rop == b.rop && a.mode == b.mode && a.npeer == b.npeer && (a.op == 1 || a.count == b.count)
    && a.glen == b.glen && a.segl == b.segl && a.chunk == b.chunk

/-- A contribution covers an element of its chunk. -/
def Contrib.covers (x : Contrib) (e : Nat) : Bool := decide (x.start ≤ e) && decide (e < x.start + x.words.length)

/-- The contributions to an element of a chunk, in arrival order. -/
def Reducer.at_ (r : Reducer) (c e : Nat) : List Contrib := r.got.filter (fun x => x.chunk == c && x.covers e)

/-- The part of its chunk that a contribution belongs to. -/
def Contrib.part (x : Contrib) : Nat := x.start / 56

/-- The counts that part `j` of a chunk has received (R420). -/
def Reducer.counts (r : Reducer) (c j : Nat) : Nat :=
  (r.got.filter (fun x => x.chunk == c && x.part == j)).foldl (fun n x => n + x.count) 0

/-- The devices that a reducer has heard of by their first frames, those of a wrong generation among them. -/
def Reducer.peers (r : Reducer) : List Nat := (r.firsts.map (·.1) ++ r.late).eraseDups

/-- The chunks with a rejected contribution, and its device (R430); a first frame names chunk 0. -/
def Reducer.errs (r : Reducer) : List (Nat × Nat) := r.bad.map (fun x => (x.chunk, x.src)) ++ r.late.map (fun d => (0, d))

/-- The parameters of a device, and of one that has not said them those of the first that has. -/
def Reducer.paramsOf (r : Reducer) (d : Nat) : CollParams :=
  ((r.known.find? (fun f => f.1 == d)).map (·.2)).getD (r.known.headD (0, readParams [])).2

/-- The ranges of a SEGREDUCE partition its global vector (R415, R417): they cover every position once. -/
def Reducer.partition (r : Reducer) (p : CollParams) : Bool :=
  r.known.foldl (fun n f => n + f.2.count) 0 == p.glen && r.known.all (fun f => decide (f.2.gbase + f.2.count ≤ p.glen))
    && r.known.all (fun f => r.known.all (fun g => f.1 == g.1 || decide (f.2.gbase + f.2.count ≤ g.2.gbase) || decide (g.2.gbase + g.2.count ≤ f.2.gbase)))

/-- Two contributions come from one device for one part of a chunk. -/
def Reducer.twice (r : Reducer) : Bool :=
  r.got.zipIdx.any (fun x => r.got.zipIdx.any (fun y => decide (x.2 < y.2) && !x.1.folded && !y.1.folded && x.1.src == y.1.src
    && x.1.chunk == y.1.chunk && x.1.part == y.1.part))

/-- Whether the reducer rejects a collective (R417, R420). A device has one rank: two first frames of one device are two
contributions from one rank (log 103). -/
def Reducer.faulty (r : Reducer) : Bool :=
  match r.known with
  | [] => false
  | (_, p) :: _ =>
    !r.known.all (fun f => p.agree f.2) || (r.known.map (·.2.rank)).eraseDups.length != r.known.length
      || (r.firsts.map (·.1)).eraseDups.length != r.firsts.length || (r.known.length == p.npeer && p.op == 1 && !r.partition p) || r.twice
      || r.got.any (fun x => x.folded && p.mode != 3) || r.got.any (fun x => decide (p.npeer < r.counts x.chunk x.part))

/-- Every contribution of a chunk is here: NPEER devices have been heard of, one whose first frame was refused among them (R430), and
the counts of each of its parts sum to NPEER (R420). -/
def Reducer.complete (r : Reducer) (p : CollParams) (c : Nat) : Bool :=
  r.peers.length == p.npeer && (List.range (p.parts c)).all (fun j => r.counts c j == p.npeer)

/-- The word of a contribution at an element. -/
def Contrib.word (x : Contrib) (e : Nat) : Word := x.words.getD (e - x.start) 0#32

/-- The smallest n with 2^n not below a number. -/
def ceilLog2 (n : Nat) : Nat := if n ≤ 1 then 0 else Nat.log2 (n - 1) + 1

/-- Result element `e` of a chunk (R415, R416). -/
def Reducer.result (r : Reducer) (p : CollParams) (c e : Nat) : Word :=
  match p.op with
  | 0 =>
    if p.fast then foldWords p.comb ((r.at_ c e).map (fun x => x.word e))
    else
      let leaf (i : Nat) : Word := match (r.at_ c e).find? (fun x => r.rankOf x.src == i) with
        | some x => x.word e
        | none => redIdentity (collTy p.ety) p.rop
      let n := ceilLog2 p.npeer
      treeNode p.comb n ((List.range (2 ^ n)).map leaf)
  | 1 =>
    if p.fast then foldWords p.comb ((r.at_ c e).map (fun x => x.word e))
    else
      let leaf (i : Nat) : Word := match (r.at_ c (e * 2 ^ p.segl + i)).head? with
        | some x => x.word (e * 2 ^ p.segl + i)
        | none => 0#32
      treeNode p.comb p.segl ((List.range (2 ^ p.segl)).map leaf)
  | _ => match (r.at_ c e).head? with | some x => x.word e | none => 0#32

/-- The label of a chunk: that of every contribution in it (R419). -/
def Reducer.chunkLbl (r : Reducer) (c : Nat) : Label := Label.joinAll ((r.got.filter (fun x => x.chunk == c)).map (·.lbl))

/-- The devices that a reducer answers: the peers it has heard of. -/
def Reducer.devs (r : Reducer) : List Nat := (r.firsts.map (·.1) ++ r.errs.map (·.2)).eraseDups

/-- What the reducer can send now: device, chunk, and the payloads of its frames. Before it knows the parameters it can send the
chunks with a rejected contribution only. -/
def Reducer.ready (r : Reducer) : List (Nat × Nat × List (List Byte)) :=
  let p := (r.known.headD (0, readParams [])).2
  r.devs.flatMap (fun d =>
    (if r.known.isEmpty then (r.errs.map (·.1)).eraseDups else List.range (r.paramsOf d).chunks).filterMap (fun c =>
      if r.sent.contains (c, d) then none
      else if r.errs.contains (c, d) then some (d, c, [partBytes 0 2 (bytesOf 0 20) []])
      else if r.rejected || r.errs.any (fun b => b.1 == c) then some (d, c, [partBytes 0 1 (bytesOf 0 20) []])
      else if r.complete p c then
        some (d, c, (partsOf 0 ((List.range (p.range c).2).map (r.result p c))).map (fun q => partBytes q.1 0 (bytesOf 0 20) q.2))
      else none))

/-- Every contribution frame of a device to a chunk has come in, those under a wrong generation among them. Where a switch has
folded frames of the chunk, that is when the counts say so of all devices together (R420). -/
def Reducer.heard (r : Reducer) (dev c : Nat) : Bool :=
  let all := (r.got ++ r.bad).filter (fun x => x.chunk == c)
  let parts (d : Nat) : Nat := let p := r.paramsOf d; if c < p.chunks then p.parts c else 0
  if all.any (·.folded) then decide ((r.peers.map parts).sum ≤ (all.map (·.count)).sum) else decide (parts dev ≤ all.countP (fun x => x.src == dev))

/-- Every device that takes part has sent all its frames and been sent every chunk of its own, so that nothing more belongs to
the collective. Where the devices differ in NPEER, as many take part as the largest says. -/
def Reducer.over_ (r : Reducer) : Bool :=
  !r.known.isEmpty && decide ((r.known.map (·.2.npeer)).foldl max 1 ≤ r.peers.length)
    && r.peers.all (fun d => (List.range (r.paramsOf d).chunks).all (fun c => r.heard d c && r.sent.contains (c, d)))

/-- The reducer goes on after a frame has come in (R417-R420, R430): it rejects or combines, sends what is ready, and
frees its state once everything has been sent. -/
def State.reduce (s : State) (r0 : Reducer) : State :=
  let r : Reducer := { r0 with rejected := r0.rejected || r0.faulty }
  let p := (r.known.headD (0, readParams [])).2
  let rs := r.ready
  let frames : List Frame := rs.flatMap (fun x => x.2.2.map (fun b => s.collFrame .resultChunk x.1 r.ctx r.cid x.2.1 p.rop p.ety (r.chunkLbl x.2.1) 0 b))
  let r1 : Reducer := { r with sent := r.sent ++ rs.map (fun x => (x.2.1, x.1)) }
  let rest := s.reducers.filter (fun x => !(x.ctx == r.ctx && x.cid == r.cid))
  let s1 := (frames.filter (fun (f : Frame) => f.dst != s.devn)).foldl State.send
    { s with reducers := if r1.over_ then rest else rest ++ [r1] }
  (frames.filter (fun (f : Frame) => f.dst == s.devn)).foldl State.resultIn s1

/-- The reducer's state of a collective, when it has room for it (R417). -/
def State.reducer (s : State) (ctx cid : Nat) : Option Reducer :=
  match s.reducers.find? (fun x => x.ctx == ctx && x.cid == cid) with
  | some r => some r
  | none => if 64 ≤ s.reducers.length then none else some { ctx := ctx, cid := cid }

/-- What a contribution frame other than a first frame brings. -/
def contribOf (f : Frame) (folded : Bool) : Contrib :=
  { src := f.src, chunk := f.addr.toNat / 2 ^ 32, start := fieldAt f.payload 0 4, count := f.aux.toNat % 65536,
    words := partWords f.payload, lbl := f.lbl, folded := folded }

/-- Whether a contribution frame is its device's first, which counts no contribution (log 23). -/
def firstFrame (f : Frame) (folded : Bool) : Bool := f.aux.toNat % 65536 == 0 && !folded

/-- A contribution frame enters the reducer (R417, R420). The parameters that a part carries are kept for a device whose first
frame was or will be refused, so that its other chunks go on (R430). -/
def State.contribIn (s : State) (f : Frame) (folded : Bool) : Option State :=
  (s.reducer f.ctx (f.addr.toNat % 2 ^ 32)).map (fun r =>
    s.reduce (if firstFrame f folded then { r with firsts := r.firsts ++ [(f.src, readParams f.payload)] }
      else
        { r with got := r.got ++ [contribOf f folded],
                 briefs := if folded || r.briefs.any (fun x => x.1 == f.src) then r.briefs else r.briefs ++ [(f.src, readBrief f)] }))

/-- Deliver a list of contribution frames to the reducer of this device. -/
def State.contribsIn (s : State) : List Frame → Option State
  | [] => some s
  | f :: fs =>
    match s.contribIn f false with
    | some s1 => s1.contribsIn fs
    | none => none

/-- The generations that a device accepts (R429). -/
def Ctx.accepts (c : Ctx) (kgen : BitVec 2) : Bool :=
  kgen == BitVec.ofNat 2 c.cur || c.prev.any (fun p => kgen == BitVec.ofNat 2 p)

/-- A contribution under a generation that is not accepted (R430): its chunk is sent to every peer with an error. -/
def State.contribBad (s : State) (f : Frame) (folded : Bool) : Option State :=
  (s.reducer f.ctx (f.addr.toNat % 2 ^ 32)).map (fun r =>
    s.reduce (if firstFrame f folded then { r with late := r.late ++ [f.src] } else { r with bad := r.bad ++ [{ contribOf f folded with words := [] }] }))

/-! ## A collective goes on -/

/-- A collective that cannot contribute fails, and every chunk's arrival is made with ERR (R235, R418, R419). Its device sends the
reducer nothing, and the reducer waits on (log 104). -/
def State.collFail (s : State) (k : Nat) (o : Op) (c : CollCmd) (f : Flt) : State :=
  (s.putOp k { o with fail := some (engineFlt f), accs := [],
                      data := .coll c 2 [] ((List.range c.params.chunks).map (fun i => { chunk := i, lbl := 0#16, err := true })) }).chunkArrivals k o.id

/-- A collective starts: it reads SRC (R417). -/
def State.collStart (s : State) (k : Nat) (o : Op) (c : CollCmd) : State × Op :=
  let x := s.engineAccs k o ((List.range c.count).map (fun i => { lane := 4096, va := c.src + 4 * i, size := 4 }))
  (x.1, { x.2 with data := .coll c 1 [] [] })

/-- Send the contributions of a collective whose SRC has been read (R417, R419); nothing while the reducer of this device
has no room. -/
def State.collSend (s : State) (k : Nat) (o : Op) (c : CollCmd) : Option State :=
  let l := Label.joinAll (o.lbl :: o.accs.map (·.glbl))
  let fenced : Option Flt := if s.fenced.contains c.reddev then some { code := 0x16 } else none
  match ((o.fail.or (o.failure (s.clr k))).or (s.collMsg k c l)).or fenced with
  | some f => some (s.collFail k o c f)
  | none =>
    let fs := s.contribFrames k c (o.accs.map (fun a => BitVec.ofNat 32 a.got)) l
    let s1 := s.putOp k { o with accs := [], data := .coll c 2 [] [] }
    if c.reddev = s.devn then s1.contribsIn fs else some (fs.foldl State.send s1)

/-- COLL_COMPLETE (R133, R418): a collective reads SRC and contributes, makes the arrivals that are due, and completes once
every chunk's arrival has been applied. -/
def execCollComplete (k op : Nat) (s : State) : Out :=
  match (s.group k).op op with
  | none => s.idle
  | some o =>
    match o.data with
    | .coll c 2 _ _ =>
      if o.doneq then s.idle
      else
        let s1 := s.chunkArrivals k op
        (match (s1.group k).op op with
         | some o1 =>
           (match o1.data with
            | .coll _ _ _ es =>
              if es.length == c.params.chunks && es.all (·.made) && !s1.asked k op then .next (s1.endEngine k o1) else .next s1
            | _ => .next s1)
         | none => .next s1)
    | .coll c ph _ _ =>
      if o.doneq || !(s.group k).engineReady o then s.idle
      else
        let x := if ph = 0 then s.collStart k o c else (s, o)
        (match x.1.enginePerform k x.2 with
         | none => s.idle
         | some (s1, o2) =>
           if !o2.accs.all (·.done) then .next (s1.putOp k o2)
           else
             match s1.collSend k o2 c with
             | some s2 => .next s2
             | none => .next (s1.putOp k o2))
    | _ => s.idle

end Sys2Proof.Machine
end

