-- ==== Sys2Proof/Machine/Firmware.lean ====
section
/-! DEFINITION. What the firmware does: device reset and the steward, owners and endorsements, attestation, updates, debug
unlock and protected contexts, key generations, allocation and scrubbing, and the power budget (R113, R151-R153, R366,
R392, R425, R427, R429-R438, R448). -/

namespace Sys2Proof

open Sys2Proof.Machine

/-! ## The record of an endorsement (R151) -/

/-- CTXID. -/
def EndorseRec.ctx (r : EndorseRec) : Nat := fieldAt r.bytes 0x08 8
/-- OWNER. -/
def EndorseRec.owner (r : EndorseRec) : Nat := fieldAt r.bytes 0x10 1
/-- RLBL. -/
def EndorseRec.rlbl (r : EndorseRec) : Label := BitVec.ofNat 16 (fieldAt r.bytes 0x12 2)
/-- BUDGET. -/
def EndorseRec.budget (r : EndorseRec) : Nat := fieldAt r.bytes 0x14 4
/-- SERIAL. -/
def EndorseRec.serial (r : EndorseRec) : Nat := fieldAt r.bytes 0x18 8
/-- OKH. -/
def EndorseRec.okh (r : EndorseRec) : BitVec 512 := BitVec.ofNat 512 (fieldAt r.bytes 0x20 64)
/-- CODEH. -/
def EndorseRec.codeh (r : EndorseRec) : BitVec 512 := BitVec.ofNat 512 (fieldAt r.bytes 0x60 64)
/-- The bytes that SIG signs. -/
def EndorseRec.covered (r : EndorseRec) : List Byte := r.bytes.take 0x100
/-- SIG. -/
def EndorseRec.sig (r : EndorseRec) : List Byte := (r.bytes.drop 0x100).take 512

/-- The record has its length, MAGIC and VERSION are as R151 shows, and every reserved byte is zero. -/
def EndorseRec.form (r : EndorseRec) : Bool :=
  r.bytes.length == 768 && fieldAt r.bytes 0 4 == 0x52444E45 && fieldAt r.bytes 4 2 == 1 && fieldAt r.bytes 6 2 == 0
    && fieldAt r.bytes 0x11 1 == 0 && fieldAt r.bytes 0xA0 96 == 0

end Sys2Proof

namespace Sys2Proof.Machine

/-! ## Reset -/

/-- The populated extent of a port: what its expander holds of its first 512 GB, less 1/128 (R448). -/
def extentOf (cap : Nat) : Nat := min cap 512000000000 * 127 / 128 / 65536 * 65536

/-- What the firmware writes into local storage at reset. -/
def State.load (s : State) (image : List (Nat × List Byte)) : State := image.foldl (fun a p => a.writeMem p.1 p.2) s

/-- DEVICE_RESET (R366, R406, R448): the device is as after reset, with its number, from 0 to 1023, routes and extents; the
firmware writes its image and launches the steward, a grid of one team, from the record it built; the steward of the evidence
record stays that grid (log 106). What has left the device, the host's
memory, the resident images of the firmware and the free-value counter are no state that reset clears (log 3). -/
def execDeviceReset (r : ResetInfo) (s : State) : Out :=
  if 1024 ≤ r.devn then s.idle
  else
    let h := s.rebase 0#64
    let s0 : State :=
      { State.reset with
        mem := h.mem.filter (fun e => isHost e.1), hostMem := h.hostMem, agenda := s.agenda, freeCtr := s.freeCtr, out := s.out,
        msix := s.msix, hostData := s.hostData, log := s.log, reports := s.reports, tfw := s.tfw, ufw := s.ufw, devn := r.devn,
        routes := r.routes, extents := (r.caps.take 6).zipIdx.foldl (fun t c => t.set 0 c.2 (extentOf c.1)) [],
        ctxs := [(r.ctx, { root := r.root })] }
    let s1 := s0.load r.image
    match s1.translate r.ctx r.record false with
    | none => .next s1
    | some x =>
      let bs := s1.readMem (localOf x.pa) 256
      if launchOk bs && (readLaunch bs).n == 1 && devOf x.pa == r.devn then
        .next (State.newGrid { s1 with steward := some s1.launches } (readLaunch bs) r.record r.ctx)
      else .next s1

/-! ## Owners and endorsements -/

/-- What a slot holds of an owner (R113): the public key, the exponent 65537, and the hash of the key's encoding. -/
def ownerOf (key : BitVec 4096) : Owner :=
  { key := key, exponent := 65537, okh := Config.sha512 (Config.keyBytes key 65537) }

/-- OWNER_REGISTER (R113): an empty slot of a context is bound to an owner for the life of the context. -/
def execOwnerRegister (ctx slot : Nat) (key : BitVec 4096) (s : State) : Out :=
  match s.ctxs.find ctx with
  | none => s.idle
  | some c =>
    if decide (16 ≤ slot) || (c.owners.find slot).isSome then s.idle
    else .next { s with ctxs := s.ctxs.put ctx { c with owners := c.owners.put slot (ownerOf key) } }

/-- An entry that a record replaces: of the same owner and kernel hash (R153). -/
def replaces (r : EndorseRec) (e : Endorse) : Bool := e.owner == r.owner && e.codeh == r.codeh

/-- The table of a core without the entries that a record replaces. -/
def State.endorseLeft (s : State) (core : Nat) (r : EndorseRec) : List Endorse :=
  ((s.core core).endorse.get [] r.ctx).filter (fun e => !replaces r e)

/-- The first check of R152 that a record fails, by its place in the list there; 7 stands for a core's table with no entry
free. -/
def State.recordFails (s : State) (r : EndorseRec) : Option Nat :=
  let c := s.ctx r.ctx
  let o := r.owner
  if !r.form then some 1
  else if (s.ctxs.find r.ctx).isNone then some 2
  else if (c.owners.find o).map (·.okh) != some r.okh then some 3
  else if !(c.owners.find o).any (fun x => Config.verify x.key x.exponent r.covered r.sig) then some 4
  else if (c.serials.find o).any (fun x => decide (r.serial ≤ x)) then some 5
  else if r.budget == 0 && !c.endorsed.contains (o, r.codeh) then some 6
  else if r.budget != 0 && s.cores.any (fun e => decide (64 ≤ (s.endorseLeft e.1 r).length)) then some 7
  else none

/-- The cores on which a context runs. -/
def State.coresOf (s : State) (ctx : Nat) : List Nat :=
  ((s.teams.filter (fun e => e.2.state == .resident && (s.grid e.2.grid).ctx == ctx)).map (·.2.core)).eraseDups

/-- A free division of a budget over cores: each of `must`, as far as it lasts, gets one use at least, and the sum over all
is at most the budget (R152; log 12). -/
def shareBudget (ctr : Nat) (left : Nat) : List Nat → List Nat → List (Nat × Nat)
  | [], [] => []
  | [], c :: cs =>
    let n := Config.budgetShare ctr c % (left + 1)
    (c, n) :: shareBudget ctr (left - n) [] cs
  | c :: cs, rest =>
    let n := if left ≤ cs.length then min left 1 else 1 + Config.budgetShare ctr c % (left - cs.length)
    (c, n) :: shareBudget ctr (left - n) cs rest

/-- ENDORSEMENT_INSTALL (R152, R153, R392): a record that passes every check replaces the older entries of its owner and
kernel hash at every core, and its entries are installed; one that fails is reported with the check that failed. A new entry
takes the slot after the last one in use, so the lowest-numbered match of R148 is the oldest (log 35, DESIGN CHOICE). -/
def execEndorsementInstall (r : EndorseRec) (s : State) : Out :=
  match s.recordFails r with
  | some k => .next { s with log := s.log ++ [(0x500 + k, r.serial)] }
  | none =>
    let c := s.ctx r.ctx
    let o := r.owner
    let runs := s.coresOf r.ctx
    let others := (List.range Config.cores).filter (fun x => !runs.contains x)
    let all := 2 ^ 32 - 1
    let shares := if r.budget = all then (List.range Config.cores).map (fun x => (x, all)) else shareBudget s.freeCtr r.budget runs others
    let one (a : State) (x : Nat × Nat) : State :=
      let left := a.endorseLeft x.1 r
      let e : Endorse := { owner := o, codeh := r.codeh, rlbl := r.rlbl, budget := x.2, serial := r.serial }
      let k := a.core x.1
      a.setCore x.1 { k with endorse := k.endorse.put r.ctx (if x.2 = 0 then left else left ++ [e]) }
    let s1 := shares.foldl one s
    .next { s1 with ctxs := s1.ctxs.put r.ctx { c with serials := c.serials.put o r.serial, endorsed := (o, r.codeh) :: c.endorsed },
                    log := s1.log ++ [(0x500, r.serial)] }

/-! ## Attestation and debug -/

/-- The configuration (R432): routes, shoot-down timeout, stepping, key generations in use, DEVN. -/
def State.configuration (s : State) : List Nat :=
  s.routes.flatMap (fun r => r.1 :: r.2) ++ [s.shootTimeout, Config.stepping.toNat, s.devn] ++ s.ctxs.flatMap (fun c => [c.1, c.2.cur, c.2.prev.getD c.2.cur])

/-- The kernel hash of the steward's code as it stands, zero when none is admitted (R147, R432-R434). -/
def State.stewardHash (s : State) : BitVec 512 :=
  match s.steward.bind s.grids.find with
  | none => 0#512
  | some x =>
    if !x.admitted || x.retired then 0#512
    else Config.sha512 (s.deviceRead x.ctx x.rec_.acode x.rec_.asize ++ s.deviceRead x.ctx x.rec_.ccode x.rec_.csize)

/-- HOWN (R434): the hash of the sixteen OKH fields of a context, empty slots as zero. -/
def State.ownersHash (s : State) (ctx : Nat) : BitVec 512 :=
  if ctx = 0 then 0#512
  else Config.sha512 ((List.range 16).flatMap (fun i => bytesOf ((((s.ctx ctx).owners.find i).map (·.okh)).getD 0#512).toNat 64))

/-- Append the signature of the device identity key to the part of a record that it covers (R434). -/
def signed (bs : List Byte) : List Byte := bs ++ bytesOf (Config.sign bs).toNat 512

/-- The code of the steward: its context, and its sections. -/
def State.stewardSpans (s : State) : Nat × List (Nat × Nat) :=
  match s.steward.bind s.grids.find with
  | none => (0, [])
  | some x => if !x.admitted || x.retired then (0, []) else (x.ctx, [(x.rec_.acode, x.rec_.asize), (x.rec_.ccode, x.rec_.csize)])

/-- EVIDENCE_REQUEST (R432-R434): the evidence record of 1024 bytes, once what other devices hold of the steward's code has been
read (log 17). -/
def execEvidenceRequest (nonce : BitVec 512) (ctx : Nat) (s : State) : Out :=
  s.withOwn s.stewardSpans.1 s.stewardSpans.2 (fun s =>
    let h (x : BitVec 512) : List Byte := bytesOf x.toNat 64
    let flags := (if s.dbgu then 1 else 0) + (if (s.ctx ctx).prot then 2 else 0)
    let body := bytesOf 0x44564E45 4 ++ bytesOf 1 2 ++ bytesOf flags 2 ++ bytesOf Config.serial 8 ++ bytesOf s.devn 2 ++ [Config.stepping]
      ++ bytesOf 0 5 ++ bytesOf ctx 8 ++ h nonce ++ h (Config.sha512 s.tfw) ++ h (Config.sha512 s.ufw) ++ h s.stewardHash
      ++ h (Config.configHash s.configuration) ++ h (s.ownersHash ctx) ++ bytesOf s.cycle 8 ++ bytesOf 0 88
    .next { s with reports := s.reports ++ [signed body] })

/-- FIRMWARE_UPDATE (R433): a resident image is replaced as a whole. -/
def execFirmwareUpdate (w : FwImage) (image : List Byte) (s : State) : Out :=
  match w with
  | .trusted => .next { s with tfw := image }
  | .untrusted => .next { s with ufw := image }

/-- DEBUG_UNLOCK (R437): an unlock commits once its request verifies. -/
def execDebugUnlock (sigOk : Bool) (s : State) : Out := if sigOk then .next { s with dbgu := true } else s.idle

/-- PROTECTED_CONTEXT_CREATE (R437): refused once an unlock has committed, until device reset. -/
def execProtectedContextCreate (ctx root : Nat) (s : State) : Out :=
  if s.dbgu || (s.ctxs.find ctx).isSome then s.idle else .next { s with ctxs := s.ctxs.put ctx { root := root, prot := true } }

/-! ## Keys -/

/-- KEY_ROTATE (R429): the next of the three parts of a rotation. The new generation is installed; the senders switch to it,
and lanes that had used up their counters send again (R427); the old one is discarded. -/
def execKeyRotate (ctx : Nat) (s : State) : Out :=
  match s.ctxs.find ctx with
  | none => s.idle
  | some c =>
    if c.prev.isNone then .next { s with ctxs := s.ctxs.put ctx { c with cur := c.cur + 1, prev := some c.cur } }
    else if c.sendGen ≠ c.cur then
      let mine := s.stalled.filter (fun f => f.ctx == ctx)
      let s1 : State := { s with ctxs := s.ctxs.put ctx { c with sendGen := c.cur, nonces := [] },
                                 stalled := s.stalled.filter (fun f => f.ctx != ctx) }
      .next (mine.foldl State.send s1)
    else .next { s with ctxs := s.ctxs.put ctx { c with prev := none } }

/-! ## Frames and power -/

/-- A frame of populated HBM or of a second-tier window (R400, R435). -/
def State.frameExists (s : State) (fr : Nat) : Bool :=
  let la := fr * 65536
  (isHbm la && isHbm (la + 65535)) || s.isTier2 la

/-- Write a frame with zero contents and the empty label (R435); its lines have their first size still to come (R356). -/
def State.scrub (s : State) (fr : Nat) : State :=
  let keep (n per : Nat) : Bool := n / per != fr
  { s with mem := s.mem.filter (fun e => keep e.1 65536), glbl := s.glbl.filter (fun e => keep e.1 256),
           bad := s.bad.filter (fun e => keep e.1 2048), lines := s.lines.filter (fun e => keep e.1 512) }

/-- Record a frame for a context, scrubbed before when another owned it or none. -/
def State.takeFrame (s : State) (ctx fr : Nat) : State :=
  if s.owners.find fr = some ctx then s
  else let s1 := s.scrub fr; { s1 with owners := s1.owners.put fr ctx }

/-- FRAME_ALLOCATE (R435, R436): frames of a range that the context does not own are scrubbed and recorded for it, and the
allocation report is made. SCRUBBED is free when the context owned some of the frames only (log 11). -/
def execFrameAllocate (ctx base n : Nat) (s : State) : Out :=
  let frs := (List.range n).map (base + ·)
  if n = 0 || !frs.all s.frameExists then s.idle
  else
    let owned := frs.countP (fun f => s.owners.find f == some ctx)
    let scrubbed := if owned = 0 then bytesOf 1 2 else if owned = n then bytesOf 0 2 else [Config.freeByte s.freeCtr 0, Config.freeByte s.freeCtr 1]
    let s1 := frs.foldl (fun a f => a.takeFrame ctx f) s
    let body := bytesOf 0x42524353 4 ++ bytesOf 1 2 ++ scrubbed ++ bytesOf ctx 8 ++ bytesOf base 8 ++ bytesOf n 8 ++ bytesOf s.cycle 8 ++ bytesOf 0 88
    .next { s1 with reports := s1.reports ++ [signed body] }

/-- POWER_REDIVIDE (R438): the grants, in milliwatts, of cores, pitches and engines; the package is capped at 3.4 kW. -/
def execPowerRedivide (grants : List Nat) (s : State) : Out :=
  if grants.sum ≤ 3400000 then .next { s with grants := grants } else s.idle

end Sys2Proof.Machine
end

