-- ==== Sys2Proof/Machine/Wire.lean ====
section
/-! DEFINITION. The flits of a Sywald frame (R408, R409). -/

namespace Sys2Proof

open Machine

/-- TYPE of a frame. -/
def FrameType.code : FrameType → Nat
  | .loadRequest => 0x01 | .loadReply => 0x02 | .store => 0x03 | .ack => 0x04 | .atomic => 0x05 | .atomicReply => 0x06
  | .notify => 0x07 | .rejection => 0x08 | .invalidation => 0x09 | .invalidationAck => 0x0A | .fenceNotice => 0x0B
  | .dupUpdate => 0x0C | .dupAck => 0x0D | .contribution => 0x10 | .combined => 0x11 | .resultChunk => 0x12
  | .unlisted => 0x00

/-- The types that R408 lists. -/
def FrameType.listed : List FrameType :=
  [.loadRequest, .loadReply, .store, .ack, .atomic, .atomicReply, .notify, .rejection, .invalidation, .invalidationAck,
   .fenceNotice, .dupUpdate, .dupAck, .contribution, .combined, .resultChunk]

/-- The type that a TYPE byte names. -/
def FrameType.ofCode (n : Nat) : FrameType := (FrameType.listed.find? (fun t => t.code == n)).getD .unlisted

/-- The frames whose ADDR is a local address. -/
def FrameType.memory (t : FrameType) : Bool := [.loadRequest, .store, .atomic, .dupUpdate].contains t

/-- The frames of a collective. -/
def FrameType.collective (t : FrameType) : Bool := [.contribution, .combined, .resultChunk].contains t

/-- The payload flits of a frame (NPF). -/
def Frame.npf (f : Frame) : Nat := (f.payload.length + 31) / 32

/-- The fields of a frame fit the header. -/
def Frame.fits (f : Frame) : Bool :=
  decide (f.vl < 16) && decide (f.dst < 1024) && decide (f.src < 1024) && decide (f.ctx < 65536) && decide (f.tag < 2 ^ 32)

/-- Every reserved bit of a frame is zero: those of VLK, DST, SRC and the tag flit, OPN where the type does not use it, and
the high bits of a local address. -/
def Frame.clean (f : Frame) : Bool :=
  f.rsv == 0 && f.fits && (f.opn == 0#8 || f.typ == .atomic || f.typ.collective) && (!f.typ.memory || decide (f.addr.toNat < 2 ^ 42))

/-- The header flit. The bits of `rsv` are, from the least on, VLK [7], DST [15:10], SRC [15:10] and bytes 16 to 31 of the tag
flit. -/
def Frame.header (f : Frame) : List Byte :=
  bytesOf f.typ.code 1 ++ bytesOf (f.vl + 16 * f.kgen.toNat + 64 * f.red.toNat + 128 * bitsOf f.rsv 0 1) 1 ++ bytesOf f.npf 1
    ++ [f.opn] ++ bytesOf (f.dst + 1024 * bitsOf f.rsv 1 6) 2 ++ bytesOf (f.src + 1024 * bitsOf f.rsv 7 6) 2 ++ bytesOf f.ctx 2
    ++ bytesOf f.lbl.toNat 2 ++ bytesOf f.tag 4 ++ bytesOf f.addr.toNat 8 ++ bytesOf f.aux.toNat 8

/-- The flits of a frame under a tag: header, payload and tag flit. -/
def Frame.flits (f : Frame) (mac : BitVec 128) : List Byte :=
  f.header ++ f.payload ++ List.replicate (32 * f.npf - f.payload.length) 0#8 ++ bytesOf mac.toNat 16 ++ bytesOf (bitsOf f.rsv 13 128) 16

/-- The frame that flits hold; `authentic` is the outcome of the check of its tag. -/
def Frame.ofFlits (bs : List Byte) (authentic : Bool) : Frame :=
  let n (at_ w : Nat) : Nat := fieldAt bs at_ w
  let npf := n 2 1
  { typ := FrameType.ofCode (n 0 1), vl := bitsOf (n 1 1) 0 4, kgen := BitVec.ofNat 2 (bitsOf (n 1 1) 4 2), red := bitOf (n 1 1) 6,
    opn := BitVec.ofNat 8 (n 3 1), dst := bitsOf (n 4 2) 0 10, src := bitsOf (n 6 2) 0 10, ctx := n 8 2,
    lbl := BitVec.ofNat 16 (n 10 2), tag := n 12 4, addr := BitVec.ofNat 64 (n 16 8), aux := BitVec.ofNat 64 (n 24 8),
    payload := (bs.drop 32).take (32 * npf), authentic := authentic,
    rsv := bitsOf (n 1 1) 7 1 + 2 * bitsOf (n 4 2) 10 6 + 128 * bitsOf (n 6 2) 10 6 + 8192 * n (32 * npf + 48) 16 }

end Sys2Proof
end

