-- ==== Sys2Proof/Machine/Frames.lean ====
section
/-! DEFINITION. What the device does with the frames it receives, and with the silence of other devices: remote accesses,
replies, notify arrivals, read duplication, shoot-downs and fences (R140, R357, R359-R361, R403-R411, R417-R421, R429,
R430). -/

namespace Sys2Proof

open Machine

/-- The local address of a memory frame (R408). -/
def Frame.la (f : Frame) : Nat := localOf f.addr.toNat

/-- What an atomic frame does (log 20). -/
def Frame.kind (f : Frame) : AccKind :=
  let n := f.opn.toNat % 128
  if bitsOf n 4 2 = 2 then .signal
  else if n = 0x0D then .raise
  else if n = 0x0E then .contrib
  else if n = 0x0F then .detset
  else .atomic (opnAtomic n).1 (opnAtomic n).2

/-- An atomic frame by which the device of a grid that retires has the sets that the grid opened discarded (R354; log 20). -/
def Frame.dropSets (f : Frame) : Bool := f.opn.toNat == 0x1F

/-- Whether the page that a write goes to has CMP set (R401; log 20). -/
def Frame.line (f : Frame) : Bool := if f.typ == .atomic then bitOf f.opn.toNat 7 else bitOf f.aux.toNat 9

/-- The bytes that an atomic frame acts on. -/
def Frame.size (f : Frame) : Nat :=
  match f.kind with
  | .raise => 1
  | .detset => 32
  | .contrib => 4
  | .signal => 8
  | _ => if bitsOf f.opn.toNat 4 2 = 1 then 8 else 4

end Sys2Proof

namespace Sys2Proof.Machine

/-! ## Acceptance -/

/-- Whether the device accepts a frame (R409, R429): a listed type, a lane of 0 to 5, at most 8 payload flits, reserved
bits zero, and a tag that holds under a generation of the frame's context that the device accepts. -/
def State.accepts (s : State) (f : Frame) : Bool :=
  f.typ != .unlisted && decide (f.vl ≤ 5) && decide (f.npf ≤ 8) && f.clean && f.authentic
    && (s.ctxs.find f.ctx).any (fun c => c.accepts f.kgen)

/-- Discard and count a frame (R409). -/
def State.discard (s : State) : State := { s with discards := s.discards + 1 }

/-- Receive a frame of type `t`: one addressed to another device or of another listed type is no event of this kind. -/
def State.receive (s : State) (t : FrameType) (f : Frame) (k : State → Out) : Out :=
  if f.dst ≠ s.devn || (f.typ != t && f.typ != .unlisted) then s.idle
  else if s.accepts f then k s
  else .next s.discard

/-- The answer to a frame: on VL2, with the request's tag (R407, R408). -/
def State.answer (s : State) (f : Frame) (t : FrameType) (lbl : Label) (aux : Nat) (pay : List Byte) : Frame :=
  { s.frame t 2 f.src f.ctx lbl f.tag 0 aux with payload := pay }

/-- A rejection (R140, R406, R411): reason 1 label, 2 ownership, 3 no target. LBL holds the label checked against. -/
def State.refuse (s : State) (f : Frame) (reason : Nat) (lbl : Label) : State := s.send (s.answer f .rejection lbl reason [])

/-- Whether the frame's context owns every 64 KiB frame that `n` bytes at a local address touch (R406). -/
def State.owned (s : State) (ctx la n : Nat) : Bool :=
  (List.range ((la + n - 1) / 65536 - la / 65536 + 1)).all (fun i => s.owners.find (la / 65536 + i) == some ctx)

/-! ## Remote accesses at the target -/

/-- LOAD_REQUEST (R406, R343): the 32-byte sector and its label; an empty payload for uncorrectable data (log 24). -/
def execLoadRequest (f : Frame) (s : State) : Out :=
  s.receive .loadRequest f (fun s =>
    let sec := f.la / 32 * 32
    if !s.owned f.ctx f.la 1 then .next (s.refuse f 2 0#16)
    else .next (s.send (s.answer f .loadReply (s.labelAt f.la) 0 (if s.poisoned sec 32 then [] else s.readMem sec 32))))

/-- Write bytes that may cross lines (R355, R356); a line that is compressed stays so. -/
def State.writeBytes (s : State) (line : Bool) (la : Nat) : List (List Byte) → Option State
  | [] => some s
  | c :: cs =>
    match s.writeLine la c (line || (s.lines.find (la / 128)).isSome) with
    | some s1 => s1.writeBytes line (la + c.length) cs
    | none => none

/-- The first granule that `n` bytes touch whose label does not contain W (R127). -/
def State.denies (s : State) (w : Label) (la n : Nat) : Option Label :=
  ((List.range ((la + n - 1) / 256 - la / 256 + 1)).map (fun i => s.labelAt ((la / 256 + i) * 256))).find? (fun l => !w.within l)

/-- The end of a write of `n` bytes at its home (R360, R421): answer at once, or once every holder of the frame has
acknowledged. -/
def State.homeWrite (s : State) (f : Frame) (la n : Nat) (reply : Frame) : State :=
  let pa := s.devn * 2 ^ 42 + la
  if (s.holders pa).isEmpty then s.send reply
  else s.dupNotify { g := noGroup, op := 0, k := 0, dev := s.devn, ctx := f.ctx, page := 2 ^ 60 } f.ctx (some reply) pa n f.line

/-- STORE_FRAME (R127, R140, R406). -/
def execStoreFrame (f : Frame) (s : State) : Out :=
  s.receive .store f (fun s =>
    let bs := f.payload.take (f.aux.toNat % 512)
    let n := max bs.length 1
    if !s.owned f.ctx f.la n then .next (s.refuse f 2 0#16)
    else
      match s.denies f.lbl f.la n with
      | some l => .next (s.refuse f 1 l)
      | none =>
        if s.dupBusy (s.devn * 2 ^ 42 + f.la) n then s.idle
        else
          match s.writeBytes f.line f.la (lineCuts f.la bs) with
          | none => s.idle
          | some s1 => .next (s1.homeWrite f f.la bs.length (s.answer f .ack 0#16 0 [])))

/-- The reply to an atomic: the old value, or with an empty payload the cause of its failure in AUX (log 24). -/
def State.atomicAnswer (s : State) (f : Frame) (l : Label) (v : Nat) : Frame := s.answer f .atomicReply l 0 (bytesOf v 8)

/-- The bytes that an atomic frame changes, first and number: of a contribution, its sector when it has closed the set. -/
def State.atomicSpan (s1 : State) (f : Frame) : Nat × Nat :=
  if f.kind == .contrib then (f.la / 32 * 32, if (s1.detsets.find (f.la / 32)).isNone then 32 else 0)
  else (f.la, if f.kind == .detset then 0 else f.size)

/-- ATOMIC_FRAME (R129, R140, R167, R349, R406): checked, applied and answered. -/
def execAtomicFrame (f : Frame) (s : State) : Out :=
  s.receive .atomic f (fun s =>
    let clr : Label := BitVec.ofNat 16 (fieldAt f.payload 0 2)
    let n := f.size
    let gl := s.labelOf f.la n
    let a : Acc := { va := f.la, pa := s.devn * 2 ^ 42 + f.la, size := n, kind := f.kind, val := f.aux.toNat % (if n = 4 then 2 ^ 32 else 2 ^ 64),
                     cmp := fieldAt f.payload 8 8, line := f.line || (s.lines.find (f.la / 128)).isSome }
    if f.dropSets then
      .next (State.send { s with detsets := s.detsets.filter (fun e => !(e.2.dev == f.src && e.2.grid == f.aux.toNat)) } (s.atomicAnswer f 0#16 0))
    else if !s.owned f.ctx f.la n then .next (s.refuse f 2 0#16)
    else if f.kind == .raise && s.inConstBank f.ctx a.pa then .next (s.refuse f 1 0#16)
    else
      match (if f.kind == .contrib then s.contribCheck clr f.lbl a else labelCheck f.kind clr f.lbl gl 0 f.la) with
      | some _ => .next (s.refuse f 1 gl)
      | none =>
        let r := if f.kind == .contrib then
            s.contribute (fieldAt f.payload 8 4, fieldAt f.payload 12 4) f.la (BitVec.ofNat 32 a.val) a.line f.la
          else s.applyGlobal clr f.lbl (f.src, fieldAt f.payload 8 8) a
        if s.dupBusy (s.devn * 2 ^ 42 + f.la / 32 * 32) 32 then s.idle
        else
          match r with
          | .blocked => s.idle
          | .bad x => .next (s.send (s.answer f .atomicReply gl x.code []))
          | .ok s1 b =>
            let span := s1.atomicSpan f
            if span.2 = 0 then .next (s1.send (s.atomicAnswer f gl b.got))
            else .next (s1.homeWrite f span.1 span.2 (s.atomicAnswer f gl b.got)))

/-- NOTIFY_ARRIVAL (R411, R131, R140): the target grid is the admitted grid of the sender's context with the sender's
kernel hash, the earliest admitted of several. -/
def execNotifyArrival (f : Frame) (s : State) : Out :=
  s.receive .notify f (fun s =>
    let hash : BitVec 512 := BitVec.ofNat 512 (fieldAt f.payload 8 64)
    let cands := s.grids.filter (fun e => e.2.admitted && !e.2.retired && e.2.ctx == f.ctx && e.2.hash == hash)
    let pick := cands.foldl (fun (a : Option (Nat × Grid)) e => match a with
      | none => some e
      | some b => if e.2.admittedAt < b.2.admittedAt then some e else some b) none
    match pick with
    | none => .next (s.refuse f 3 0#16)
    | some (n, _) =>
      if bitsOf f.aux.toNat 52 2 ≠ 0 then .next (s.refuse f 3 0#16)
      else
        match s.arriveAt { grid := n, teamix := refTeam f.aux, off := refOff f.aux, count := fieldAt f.payload 0 4, lbl := f.lbl,
                           err := fieldAt f.payload 4 4 != 0, reply := some (s.answer f .ack 0#16 0 []) } with
        | .wait => s.idle
        | .rejected => .next (s.refuse f 3 0#16)
        | .badLabel l => .next (s.refuse f 1 l)
        | .ok s1 => .next s1)

/-! ## Replies at the sender -/

/-- The request that a reply answers: its tag is in use and names the device that replies. -/
def State.request (s : State) (f : Frame) : Option TagRef :=
  match s.tags.find f.tag with
  | some r => if r.dev = f.src then some r else none
  | none => none

/-- Free a tag. -/
def State.freeTag (s : State) (tag : Nat) : State := { s with tags := s.tags.del tag }

/-- Change the access of an operation that a tag names, and the operation. -/
def State.answered (s : State) (tag : Nat) (r : TagRef) (fail : Option Flt) (upd : Acc → Acc) : State :=
  let g := s.group r.g
  let s1 := s.freeTag tag
  match g.op r.op with
  | none => s1
  | some o =>
    let accs := match o.accs[r.k]? with
      | some a => o.accs.set r.k (upd a)
      | none => o.accs
    s1.putOp r.g { o with accs := accs, fail := o.fail.or fail }

/-- The address of the access that a tag names. -/
def State.tagAddr (s : State) (r : TagRef) : Nat :=
  match (s.group r.g).op r.op with
  | some o =>
    (match o.accs[r.k]?, o.data with
     | some a, _ => a.va
     | none, .notify ref _ _ _ => ref.toNat
     | none, .port c _ _ => c.ntfy.toNat
     | none, _ => 0)
  | none => 0

/-- The label of the message that a tag stands for. -/
def State.tagLabel (s : State) (r : TagRef) : Label :=
  match (s.group r.g).op r.op with
  | some o => (match o.accs[r.k]?, o.data with
    | some a, _ => o.lbl.join a.lbl
    | none, .notify _ _ l _ => l
    | none, .port _ _ l => l
    | none, _ => o.lbl)
  | none => 0#16

/-- LOAD_REPLY (R126, R157, R408): the access takes its bytes from the sector, with the granule's label. -/
def execLoadReply (f : Frame) (s : State) : Out :=
  s.receive .loadReply f (fun s =>
    match s.request f with
    | none => s.idle
    | some r =>
      if r.g = noGroup then .next (s.ownReply f.tag r f.payload f.lbl)
      else if f.payload.isEmpty then
        .next (s.answered f.tag r (some { code := 0x0E, faddr := s.tagAddr r }) (fun a => { a with done := true, glbl := f.lbl }))
      else
        .next (s.answered f.tag r none (fun a => { a with done := true, glbl := f.lbl, got := fieldAt f.payload (a.pa % 32) a.size })))

/-- ACKNOWLEDGEMENT (R407): a store is visible, or an arrival applied, at its destination. -/
def execAcknowledgement (f : Frame) (s : State) : Out :=
  s.receive .ack f (fun s =>
    match s.request f with
    | none => s.idle
    | some r => .next (s.answered f.tag r none (fun a => { a with done := true })))

/-- The cause that an empty atomic reply names in AUX: ILLEGAL, POISON or SECTOR, the faults that a granule of another device
can give; POISON for anything else (R375; log 24). -/
def atomicCause (aux : DWord) : Nat := let c := aux.toNat % 256; if c = 0x01 || c = 0x14 then c else 0x0E

/-- ATOMIC_REPLY (R129, R408): the old value and the granule's label, or a cause. -/
def execAtomicReply (f : Frame) (s : State) : Out :=
  s.receive .atomicReply f (fun s =>
    match s.request f with
    | none => s.idle
    | some r =>
      let fail : Option Flt := if f.payload.isEmpty then some { code := atomicCause f.aux, faddr := s.tagAddr r } else none
      .next (s.answered f.tag r fail (fun a => { a with done := true, glbl := f.lbl, got := fieldAt f.payload 0 a.size })))

/-- Whether a tag stands for an access that is checked as an atomic (R129). -/
def State.tagAtomic (s : State) (r : TagRef) : Bool :=
  match (s.group r.g).op r.op with
  | some o => (match o.accs[r.k]? with | some a => a.kind.isLoad && a.kind.isStore | none => false)
  | none => false

/-- LABEL_MSG of a message that the other device rejected against label `l` (R129, R140, R145): an atomic on a granule outside
CLR fails with the granule's label, anything else with its own. -/
def State.fltRejected (s : State) (r : TagRef) (l : Label) : Flt :=
  if s.tagAtomic r && !l.within (s.clr r.g) then fltMsg 1 l (s.clr r.g) (s.tagAddr r) else fltMsg 1 (s.tagLabel r) l (s.tagAddr r)

/-- REJECTION (R140, R406, R411): LABEL_MSG, LEASE or ILLEGAL by its reason. -/
def execRejection (f : Frame) (s : State) : Out :=
  s.receive .rejection f (fun s =>
    match s.request f with
    | none => s.idle
    | some r =>
      let a := s.tagAddr r
      if r.g = noGroup && r.op == 1 then .next (s.ownReply f.tag r [] 0#16)
      else
        let flt : Flt := match f.aux.toNat % 256 with
          | 1 => s.fltRejected r f.lbl
          | 2 => fltLease a
          | _ => fltIllegalAt a
        .next (s.answered f.tag r (some flt) (fun x => { x with done := true, lease := true })))

/-! ## Read duplication -/

/-- A write to a read-duplicated page whose holders have all answered completes (R360). -/
def State.dupDone (s : State) (w : DupWait) : State :=
  let s1 := { s with dupWaits := s.dupWaits.filter (fun x => x.tag != w.tag) }
  (match w.reply with
   | some f => (s1.freeTag w.tag).send f
   | none => s1.answered w.tag { g := w.g, op := w.op, k := w.k, dev := s.devn } none (fun a => { a with done := true, held := false })).retryDie

/-- A holder no longer counts among those that a write waits for. -/
def State.dupHeard (s : State) (w : DupWait) (dev : Nat) : State :=
  let left := w.waiting.filter (· != dev)
  if left.isEmpty then s.dupDone w
  else { s with dupWaits := s.dupWaits.map (fun x => if x.tag = w.tag then { x with waiting := left } else x) }

/-- DUP_UPDATE (R130, R361, R421): write the carried bytes into this device's copy, whose granules take the label that the
update carries, then acknowledge. -/
def execDupUpdate (f : Frame) (s : State) : Out :=
  s.receive .dupUpdate f (fun s =>
    let bs := f.payload.take (f.aux.toNat % 512)
    let ack := { s.frame .dupAck 2 f.src f.ctx 0#16 f.tag 0 0 with payload := [] }
    match s.dupMap.find (f.src * 2 ^ 26 + f.la / 65536) with
    | none => .next (s.send ack)
    | some fr =>
      let la := fr * 65536 + f.la % 65536
      match s.writeBytes f.line la (lineCuts la bs) with
      | some s1 =>
        let granules := (List.range ((la + bs.length - 1) / 256 - la / 256 + 1)).map (fun i => (la / 256 + i) * 256)
        .next ((granules.foldl (fun (a : State) g => a.raiseLabel g f.lbl) s1).send ack)
      | none => s.idle)

/-- DUP_ACKNOWLEDGEMENT (R360). -/
def execDupAcknowledgement (f : Frame) (s : State) : Out :=
  s.receive .dupAck f (fun s =>
    match s.dupWaits.find? (fun w => w.tag == f.tag && w.waiting.contains f.src) with
    | none => s.idle
    | some w => .next (s.dupHeard w f.src))

/-! ## Shoot-downs -/

/-- The children of a device in the tree over a context's devices (R403; log 25): a heap whose root is the initiator. -/
def treeChildren (devs : List Nat) (root self : Nat) : List Nat :=
  let l := root :: devs.filter (· != root)
  match l.idxOf? self with
  | none => []
  | some i => ([2 * i + 1, 2 * i + 2].filterMap (fun j => l[j]?))

/-- The devices that a device asks: its children, a fenced one being passed over for its own (R405; log 25). -/
def treeAsks (devs fenced : List Nat) (root : Nat) : Nat → Nat → List Nat
  | 0, _ => []
  | n + 1, self => (treeChildren devs root self).flatMap (fun d => if fenced.contains d then treeAsks devs fenced root n d else [d])

/-- The number of pages that a cached entry serves (R396, R399). -/
def Tlb.pages (e : Tlb) : Nat := match e.level with | 0 => 2 ^ bitsOf e.leaf 60 4 | 1 => 2 ^ 13 | _ => 2 ^ 26

/-- Remove the cached entries that serve a page of a range (R402, R403). -/
def State.invalidate (s : State) (ctx base npg : Nat) : State :=
  { s with tlb := s.tlb.filter (fun e =>
      let first := e.page / e.pages * e.pages
      e.ctx != ctx || decide (first + e.pages ≤ base) || decide (base + npg ≤ first)) }

/-- Every access of this device to a range of pages that has been translated has been performed, the device's own among them
(R404). A queue store is translated when it is performed. -/
def State.drained (s : State) (ctx base npg : Nat) : Bool :=
  let out (p : Nat) : Bool := decide (p < base) || decide (base + npg ≤ p)
  s.groups.all (fun e => s.ctxOf e.1 != ctx || e.2.ops.all (fun o =>
    e.2.saq.any (fun q => q.op == o.id)
      || o.accs.all (fun a => a.done || a.space != .global || out (a.va / 65536))))
    && s.tags.all (fun e => e.2.g != noGroup || e.2.ctx != ctx || out e.2.page)
    && s.dieQ.all (fun w => w.ctx != ctx || out w.page)

/-- Acknowledge a shoot-down to the parent, or report it complete to the driver (R403). -/
def State.shootDone (s : State) (x : Shoot) : State :=
  match x.parent with
  | some p => s.send { s.frame .invalidationAck 2 p x.ctx 0#16 0 x.base x.count with payload := bytesOf x.npg 8 }
  | none => { s with log := s.log ++ [(0x403, x.ctx)] }

/-- A shoot-down is complete at this device: every device asked has answered, and at the initiator the counts sum to the
devices of the context that are not fenced (R403, R405). -/
def State.shootOver (s : State) (x : Shoot) : Bool :=
  x.waiting.isEmpty && (x.parent.isSome || decide (((s.ctx x.ctx).devices.filter (fun d => !s.fenced.contains d)).length ≤ x.count))

/-- Ask devices to carry out a shoot-down. -/
def State.shootAsk (s : State) (x : Shoot) (devs : List Nat) : State :=
  devs.foldl (fun a d => a.send { a.frame .invalidation 4 d x.ctx 0#16 0 x.base x.npg with payload := bytesOf x.root 2 }) s

/-- Start a shoot-down at this device: invalidate, forward along the tree, and wait for the answers. -/
def State.shoot (s : State) (ctx base npg root : Nat) (parent : Option Nat) : State :=
  let devs := (s.ctx ctx).devices
  let x : Shoot := { ctx := ctx, base := base, npg := npg, sentAt := s.cycle, parent := parent, root := root,
                     waiting := treeAsks devs s.fenced root devs.length s.devn, count := 1 }
  let s1 := (s.invalidate ctx base npg).shootAsk x x.waiting
  if s1.shootOver x then s1.shootDone x else { s1 with shoots := s1.shoots ++ [x] }

/-- SHOOTDOWN_REQUEST (R403): the driver asks for a range of `npg` pages from page `base` on. -/
def execShootdownRequest (ctx base npg : Nat) (s : State) : Out :=
  if s.drained ctx base npg then .next (s.shoot ctx base npg s.devn none) else s.idle

/-- INVALIDATION (R403, R404): forwarded, and carried out once every access translated under the old entries is
performed. ADDR is the first page, AUX the number of pages, the payload names the initiator (log 25). -/
def execInvalidation (f : Frame) (s : State) : Out :=
  s.receive .invalidation f (fun s =>
    if s.drained f.ctx f.addr.toNat f.aux.toNat then .next (s.shoot f.ctx f.addr.toNat f.aux.toNat (fieldAt f.payload 0 2) (some f.src))
    else s.idle)

/-- A shoot-down at this device has changed: it is complete, or waits on. -/
def State.shootPut (s : State) (i : Nat) (x : Shoot) : State :=
  if s.shootOver x then State.shootDone { s with shoots := s.shoots.eraseIdx i } x else { s with shoots := s.shoots.set i x }

/-- A device that a shoot-down waits for has answered with a count (R403). -/
def State.shootHeard (s : State) (i : Nat) (dev n : Nat) : State :=
  match s.shoots[i]? with
  | none => s
  | some x => s.shootPut i { x with waiting := x.waiting.filter (· != dev), count := x.count + n }

/-- A device has been fenced: a shoot-down that waits for it goes on without its count, and asks the devices below it itself
(R405; log 25). -/
def State.shootFenced (s : State) (i : Nat) (dev : Nat) : State :=
  match s.shoots[i]? with
  | none => s
  | some x =>
    let devs := (s.ctx x.ctx).devices
    let more := if x.waiting.contains dev then treeAsks devs s.fenced x.root devs.length dev else []
    (s.shootAsk x more).shootPut i { x with waiting := x.waiting.filter (· != dev) ++ more, sentAt := if more.isEmpty then x.sentAt else s.cycle }

/-- INVALIDATION_ACKNOWLEDGEMENT (R403): a child's subtree count. -/
def execInvalidationAcknowledgement (f : Frame) (s : State) : Out :=
  s.receive .invalidationAck f (fun s =>
    match s.shoots.findIdx? (fun x => x.ctx == f.ctx && x.base == f.addr.toNat && x.npg == fieldAt f.payload 0 8 && x.waiting.contains f.src) with
    | none => s.idle
    | some i => .next (s.shootHeard i f.src f.aux.toNat))

/-! ## Fences -/

/-- Every request outstanding to a device fails with PEER_FENCED (R405). -/
def State.failTags (s : State) (dev : Nat) : State :=
  (s.tags.filter (fun e => e.2.dev == dev)).foldl (fun a e =>
    a.answered e.1 e.2 (some { code := 0x16, faddr := a.tagAddr e.2 }) (fun x => { x with done := true, lease := true })) s

/-- A collective whose reducing device is fenced can get no more result chunks: it fails, and the chunks that are left
end with an error (R405, R418). -/
def failColl (dev : Nat) (o : Op) : Op :=
  match o.data with
  | .coll c 2 ps es =>
    if c.reddev = dev && !o.doneq && es.length < c.params.chunks then
      { o with fail := o.fail.or (some { code := 0x16 }),
               data := .coll c 2 ps (es ++ ((List.range c.params.chunks).filter (fun i => !es.any (fun e => e.chunk == i))).map
                 (fun i => { chunk := i, lbl := 0#16, err := true })) }
    else o
  | _ => o

/-- An operation's accesses to a fenced device that order has delayed fail as well (R405). -/
def Group.failUnsent (g : Group) (dev self : Nat) (o : Op) : Op :=
  let lost (a : Acc) : Bool := !a.done && !a.sent && a.space == .global && devOf a.pa == dev && dev != self
  if o.doneq || g.saq.any (fun e => e.op == o.id) then o
  else
    match o.accs.find? lost with
    | none => o
    | some a =>
      { o with fail := o.fail.or (some { code := 0x16, faddr := a.va }),
               accs := o.accs.map (fun x => if lost x then { x with done := true, lease := true } else x) }

/-- Record a device as fenced (R405). What this device reduces, and what another device is reducer of, waits on for a fenced peer
(log 104). -/
def State.fenceLocal (s : State) (dev : Nat) : State :=
  if s.fenced.contains dev || dev = s.devn then s
  else
    let s0 : State := { s with fenced := s.fenced ++ [dev] }
    let s1 := s0.failTags dev
    let s2 : State := { s1 with groups := s1.groups.mapVals (fun _ g =>
      { g with ops := g.ops.map (fun o => g.failUnsent dev s.devn (failColl dev o)) }) }
    let s3 := (s2.dupWaits.filter (fun w => w.waiting.contains dev)).foldl (fun a w => a.dupHeard w dev) s2
    (List.range s3.shoots.length).reverse.foldl (fun a i => a.shootFenced i dev) s3

/-- This device has detected that another is silent: every device of the context is told, and it is recorded here (R405). -/
def State.fenceDev (s : State) (ctx dev : Nat) : State :=
  (((s.ctx ctx).devices.filter (fun d => d != s.devn && d != dev)).foldl (fun a d => a.send (a.frame .fenceNotice 4 d ctx 0#16 0 dev 0)) s).fenceLocal dev

/-- FENCE_NOTICE (R405). -/
def execFenceNotice (f : Frame) (s : State) : Out := s.receive .fenceNotice f (fun s => .next (s.fenceLocal f.addr.toNat))

/-- 2 ms in cycles of the 2.7 GHz clock (R1, R405). -/
def twoMs : Nat := 5400000

/-- SHOOTDOWN_TIMEOUT (R405): the children that have not answered within the shoot-down timeout are fenced. -/
def execShootdownTimeout (s : State) : Out :=
  match s.shoots.find? (fun x => !x.waiting.isEmpty && decide (x.sentAt + s.shootTimeout ≤ s.cycle)) with
  | none => s.idle
  | some x => .next (x.waiting.foldl (fun a d => a.fenceDev x.ctx d) s)

/-- The context of the request that a tag stands for. -/
def State.tagCtx (s : State) (r : TagRef) : Nat := if r.g = noGroup then r.ctx else s.ctxOf r.g

/-- REPLY_TIMEOUT (R405): a request without a reply for 2 ms fences its target. -/
def execReplyTimeout (tag : Nat) (s : State) : Out :=
  match s.tags.find tag with
  | none => s.idle
  | some r => if r.dev = s.devn || s.cycle < r.sentAt + twoMs then s.idle else .next (s.fenceDev (s.tagCtx r) r.dev)

/-- DUP_ACK_TIMEOUT (R405, R421): the holders that have not acknowledged within 2 ms are fenced. -/
def execDupAckTimeout (tag : Nat) (s : State) : Out :=
  match s.dupWaits.find? (fun w => w.tag == tag), s.tags.find tag with
  | some w, some r =>
    if s.cycle < r.sentAt + twoMs then s.idle
    else
      let ctx := match w.reply with | some f => f.ctx | none => s.tagCtx r
      .next (w.waiting.foldl (fun a d => a.fenceDev ctx d) s)
  | _, _ => s.idle

/-- FENCE_CLEAR (R405): the management firmware has reset the device. -/
def execFenceClear (dev : Nat) (s : State) : Out := .next { s with fenced := s.fenced.filter (· != dev) }

/-! ## Collectives -/

/-- Receive a contribution frame (R409, R417, R420, R430): a wrong generation rejects its chunk. -/
def State.receiveContribution (s : State) (t : FrameType) (f : Frame) (folded : Bool) : Out :=
  if f.dst ≠ s.devn || (f.typ != t && f.typ != .unlisted) then s.idle
  else
    let put (x : Option State) : Out := match x with | some s1 => .next s1 | none => s.idle
    match s.ctxs.find f.ctx with
    | none => .next s.discard
    | some c =>
      if f.typ == .unlisted || 5 < f.vl || 8 < f.npf || !f.clean then .next s.discard
      else if !c.accepts f.kgen then put (s.contribBad f folded)
      else if !f.authentic then .next s.discard
      else put (s.contribIn f folded)

def execContribution (f : Frame) (s : State) : Out := s.receiveContribution .contribution f false

/-- COMBINED_CONTRIBUTION (R420): a switch has folded the contributions of several devices. -/
def execCombinedContribution (f : Frame) (s : State) : Out := s.receiveContribution .combined f true

/-- RESULT_CHUNK (R418, R419): a piece of a chunk; once the chunk is whole it is written, and its barrier gets its arrival. -/
def execResultChunk (f : Frame) (s : State) : Out :=
  s.receive .resultChunk f (fun s =>
    let s1 := s.resultIn f
    match s1.collOp f.ctx (f.addr.toNat % 2 ^ 32) with
    | some (k, o) => .next (s1.chunkArrivals k o.id)
    | none => .next s1)

/-! ## Compressed lines -/

/-- LINE_RELOCATION (R357): the driver gives a line of the overflow buffer a slot of its present size. -/
def execLineRelocation (n : Nat) (s : State) : Out :=
  match s.lines.find n with
  | some l =>
    if l.overflow then
      .next (State.retryDie
        { s with lines := s.lines.put n { l with slot := ((lineForm (s.readMem (n * 128) 128)).2 + 31) / 32 * 32, overflow := false } })
    else s.idle
  | none => s.idle

end Sys2Proof.Machine
end

