-- ==== Sys2Proof/Machine/Matrix.lean ====
section
/-! DEFINITION. The matrix array: the instructions that enter the pitch queues, and the steps of the pitches (R89-R91,
R104-R107, R133, R268-R293). -/

namespace Sys2Proof.Machine

/-! ## Formats -/

/-- PITCH (R268, R272). -/
def fltPitch (sub p step : Nat) : Flt := { code := 0x0F, sub := sub, pinfo := p + 2 ^ 32 * step }

/-- The step length Ks (R104, R274). -/
def stepLen (a b : Ty) : Nat := if a == .e2m1n && (b == .e2m1n || b == .q4a) then 64 else 32

/-- The bits of an element in a reservation (R278). -/
def Ty.bWidth (t : Ty) : Nat := match t with | .q4a => 4 | .q8a => 8 | _ => t.width

/-- The pairs of R274 that are not ILLEGAL. -/
def pairOk (a b : Ty) : Bool :=
  if a.isInt then b.isInt || b == .q4a || b == .q8a else !b.isInt

/-- C words are S32 (R106): both formats plain integers, without a block scale. A plain integer reservation with an SFMT and no
groups (R178) has FP32 C words and elements without a scale, as the manual gives a scale no place there (log 34). -/
def intStep (a : Ty) (r : Resv) : Bool := a.isInt && r.fmt.isInt && r.sfmt == 0x1F

/-- RA, the registers that a pitch reads per step (R275). -/
def regsPerStep (a : Ty) (ks : Nat) : Nat := ks * a.width / 16

/-- The bytes T of a B tile (R278). -/
def Resv.tile (r : Resv) (ks : Nat) : Nat := 32 * ks * Ty.bWidth r.fmt

/-- The group length G of a record (R91, R178): code 1 to 3. -/
def Resv.glen (r : Resv) : Nat := 16 * 2 ^ r.grp

/-- The bytes of a scale (R279). -/
def Resv.scaleSize (r : Resv) : Nat := if r.sfmt = 0x10 then 1 else 2

/-- Quantised codes (R91). -/
def Resv.quant (r : Resv) : Bool := r.fmt == .q4a || r.fmt == .q8a

/-- The tile at offset `o` of a reservation, its scales and its zero points lie where R278 and R279 want them. -/
def Resv.tileOk (r : Resv) (ks : Nat) (o : Int) : Bool :=
  let t := r.tile ks
  let n := o.toNat
  let g := (n / t * ks + ks - 1) / r.glen
  decide (0 ≤ o) && n % t == 0 && decide (n + t ≤ r.size)
    && (r.grp == 0 || (decide (r.scoff + (256 * g + 256) * r.scaleSize ≤ r.size)
      && (!r.quant || decide (r.zpoff + 256 * g + 256 ≤ r.size))))

/-! ## One step -/

/-- Element (m, k) of A from the words of a step's registers (R275). -/
def aElem (t : Ty) (ks : Nat) (ws : List Word) (m k : Nat) : Nat :=
  let q := (m * ks + k) * t.width
  bitsOf (ws.getD (q / 32) 0#32).toNat (q % 32) t.width

/-- Element (k, n) of the B tile at offset `o`: its exact value under its scale and zero point (R90, R91, R278, R279). -/
def Team.bElem (t : Team) (r : Resv) (ks o k n : Nat) : FV :=
  let w := Ty.bWidth r.fmt
  let at_ (a : Nat) : Nat := (t.wmem.get 0#8 (r.off + a)).toNat
  let e := bitsOf (at_ (o + n * ks * w / 8 + k * w / 8) + 256 * at_ (o + n * ks * w / 8 + k * w / 8 + 1)) (k * w % 8) w
  let g := (o / r.tile ks * ks + k) / r.glen
  let sa := r.scoff + (256 * g + n) * r.scaleSize
  let scale : FV := if r.sfmt = 0x10 then decodeTy .e8m0 (at_ sa) else decodeTy .f16 (at_ sa + 256 * at_ (sa + 1))
  if r.grp = 0 then decodeTy r.fmt e
  else if r.quant then
    let z := at_ (r.zpoff + 256 * g + n) % 2 ^ w
    scale.mul (.ofInt ((e : Int) - z))
  else (decodeTy r.fmt e).mul scale

/-- The exact sum of a list of products (R104, R105); the empty sum is +0. -/
def exactSum : List FV → FV
  | [] => .fin false 0 1
  | x :: xs => xs.foldl (FV.add .rne) x

/-- The step sum of an element of C (R104-R107). -/
def Team.stepSum (t : Team) (ty : Ty) (r : Resv) (ks o : Nat) (ws : List Word) (m n : Nat) : FV :=
  exactSum ((List.range ks).map (fun k => (decodeTy ty (aElem ty ks ws m k)).mul (t.bElem r ks o k n)))

/-- The integer of an exact value. -/
def FV.int : FV → Int
  | .fin neg n d => if neg then -((n / d : Nat) : Int) else (n / d : Nat)
  | _ => 0

/-- accumulate(c, s) of R282: the new word of C, and whether it saturated. -/
def accumulate (int : Bool) (c : Word) (s : FV) : Word × Bool :=
  if int then
    let x := c.toInt + s.int
    (BitVec.ofInt 32 (Ty.clamp .s32 x), decide (Ty.clamp .s32 x ≠ x))
  else (BitVec.ofNat 32 (encodeTy .f32 .rne false ((decodeTy .f32 c.toNat).add .rne s)), false)

/-- The identity that a loop starts C from (R282). -/
def cIdentity (int : Bool) : Word := if int then 0#32 else 0x80000000#32

/-- Uncorrectable data in a range of bytes, marked by word. -/
def sectorsBad (bad : Tab Bool) (a n : Nat) : Bool :=
  !bad.isEmpty && decide (0 < n) && (List.range ((a + n - 1) / 4 - a / 4 + 1)).any (fun i => bad.get false (a / 4 + i))

/-- The offset of a step's tile (R282, R286). -/
def MxRows.tileAt (rs : MxRows) (binc : Int) (j : Nat) : Int := rs.boff + j * binc

/-- Uncorrectable data that a step would read for a run of rows (R272): its tile, scales and zero points, and C unless the
step starts it afresh. -/
def Team.rowsBad (t : Team) (ks : Nat) (binc : Int) (caddr j : Nat) (fresh : Bool) (rs : MxRows) : Bool :=
  match t.resv.find rs.hnd with
  | none => false
  | some r =>
    let o := (rs.tileAt binc j).toNat
    let tl := r.tile ks
    let g := o / tl * ks / r.glen
    let g1 := (o / tl * ks + ks - 1) / r.glen
    sectorsBad t.wBad (r.off + o) tl
      || (r.grp != 0 && sectorsBad t.wBad (r.off + r.scoff + 256 * g * r.scaleSize) ((g1 - g + 1) * 256 * r.scaleSize))
      || (r.quant && sectorsBad t.wBad (r.off + r.zpoff + 256 * g) ((g1 - g + 1) * 256))
      || (!fresh && sectorsBad t.accBad (caddr + 1024 * rs.row0) (1024 * rs.nrows))

/-- Apply a step to one row of C: the new words, and whether one saturated. -/
def Team.stepRow (t : Team) (ty : Ty) (r : Resv) (ks o : Nat) (ws : List Word) (caddr : Nat) (fresh : Bool) (m : Nat) : List Word × Bool :=
  let int := intStep ty r
  let new := (List.range 256).map (fun n =>
    let c := if fresh then cIdentity int else t.acc.get 0#32 (caddr / 4 + 256 * m + n)
    accumulate int c (t.stepSum ty r ks o ws m n))
  (new.map (·.1), new.any (·.2))

/-- Apply a step to the rows of one table entry (R282, R286). -/
def Team.stepRows (t : Team) (ty : Ty) (ks : Nat) (binc : Int) (ws : List Word) (caddr j : Nat) (fresh : Bool) (rs : MxRows) : Team × Bool :=
  match t.resv.find rs.hnd with
  | none => (t, false)
  | some r =>
    let o := (rs.tileAt binc j).toNat
    (List.range rs.nrows).foldl (fun a i =>
      let x := t.stepRow ty r ks o ws caddr fresh (rs.row0 + i)
      ({ a.1 with acc := Tab.setFrom 0#32 a.1.acc (caddr / 4 + 256 * (rs.row0 + i)) x.1 }, a.2 || x.2)) (t, false)

/-! ## Entering the queues -/

/-- The pitches that X names (R281). -/
def pitchesOf (x : BitVec 2) : List Nat := if x = 0#2 then [0] else if x = 1#2 then [1] else [0, 1]

def Team.pitch (t : Team) (p : Nat) : Pitch := t.pitches.get {} p

def Team.setPitch (t : Team) (p : Nat) (x : Pitch) : Team := { t with pitches := t.pitches.put p x }

/-- The state of a latch after an entry (R277). -/
def MxEntry.latchAfter (l : Option Latch) (e : MxEntry) : Option Latch :=
  match e.work with
  | .steps t abase inc n _ _ ru _ _ _ =>
    if ru then l.or (some { t := t, abase := abase, inc := inc, n := n, data := [], lbl := e.albl }) else none
  | _ => l

/-- The latch as an entry that enters now will find it (R277). -/
def Pitch.latchNext (p : Pitch) : Option Latch := p.queue.foldl MxEntry.latchAfter p.latch

/-- The offset of the C tile that an entry uses on pitch `p` (R280). -/
def tileOn (x : BitVec 2) (caddr p : Nat) : Nat := if x = 2#2 then caddr + 65536 * p else caddr

/-- The check of a C tile (R280): ILLEGAL unless it is aligned in a bank held, WINDOW in a bound bank. -/
def Team.tileFault (t : Team) (c : Nat) : Option Flt :=
  if c % 65536 ≠ 0 || 8388608 ≤ c || !t.banks.getLsbD (c / 131072) then some (fltIllegalAt c)
  else if t.whand.any (fun h => decide (h.2.bank ≤ c / 131072) && decide (c / 131072 < h.2.bank + h.2.nb)) then
    some { code := 0x18, faddr := c }
  else none

def Team.tileLabel (t : Team) (c : Nat) : Label := t.bankLbl.get 0#16 (c / 131072)

/-- Operations of matrix work have completed: their tickets are DONE and they leave their counters. -/
def State.mxDone (s : State) (ids : List (Nat × Nat)) : State :=
  ids.foldl (fun a i =>
    let g := a.group i.1
    match g.op i.2 with
    | some o => (a.setGroup i.1 ((g.doneTickets o.quads o.tk).setOp { o with doneq := true })).settle i.1
    | none => a) s

/-- Put an entry into each queue that X names and raise fc.mx (R270); what comes to a pitch that a PITCH fault has stopped is
discarded (R272). -/
def State.enterPitches (s : State) (o : Op) (ps : List Nat) (entry : Nat → MxEntry) : State :=
  let g := s.grp
  let s1 := s.setGrp (g.issueOp o)
  if ps.any (fun p => (s1.tm.pitch p).stopped) then s1.mxDone [(s.cur, g.nextOp)]
  else
    s1.setTm (ps.foldl (fun t p =>
      let x := t.pitch p
      t.setPitch p { x with queue := x.queue ++ [{ entry p with g := s.cur, op := g.nextOp }] }) s1.tm)

/-- A named queue has no free entry (R270). -/
def Team.queuesFull (t : Team) (ps : List Nat) : Bool := ps.any (fun p => decide (8 ≤ (t.pitch p).queue.length))

/-- What MXLOOP and MXGRP ask of a pitch, once the parameters are known. -/
structure MxAsk where
  ps : List Nat
  x : BitVec 2
  t : Ty
  ru : Bool
  abase : Nat
  inc : Nat
  n : Nat
  ks : Nat
  rows : Nat → List MxRows
  binc : Int
  acc : Bool
  caddr : Nat
  /-- The labels of the parameter register, the table and K. -/
  lbl : Label
  /-- The label of the table granules, a source (R133). -/
  src : Label

def MxAsk.ra (a : MxAsk) : Nat := regsPerStep a.t a.ks

/-- Every run of rows that an instruction covers. -/
def MxAsk.all (a : MxAsk) : List MxRows := a.ps.flatMap a.rows

/-- The registers of A that pitch `p` reads (R275). -/
def MxAsk.aRegs (a : MxAsk) (p : Nat) : List Nat :=
  let base := a.abase + (if a.x = 2#2 then p * a.ra else 0)
  ((List.range a.n).flatMap (fun j => (List.range a.ra).map (fun i => base + j * a.inc + i))).eraseDups

/-- The latch that the instruction will find on a pitch contradicts it, or would hold too much (R277). -/
def MxAsk.latchBad (a : MxAsk) (t : Team) : Bool :=
  (a.ru && decide (16384 < a.n * a.ra * 128))
    || a.ps.any (fun p => match (t.pitch p).latchNext with
      | some l => !(l.t == a.t && l.abase == a.abase && l.inc == a.inc && l.n == a.n)
      | none => false)

/-- The label of the A data on a pitch: the latch's, or that of the registers as its steps will read them (R133, R276,
R277). -/
def MxAsk.aLabel (a : MxAsk) (t : Team) (g : Group) (p : Nat) : Label :=
  match (t.pitch p).latchNext with
  | some l => l.lbl
  | none => Label.joinAll ((a.aRegs p).map (fun r => (((g.tick 255 64).vregs.get {} r).lbl)))

/-- The labels of the B reservations. -/
def MxAsk.resvs (a : MxAsk) (t : Team) : List Label := (a.all.filterMap (fun r => t.resv.find r.hnd)).map (·.lbl)

/-- The label that every C bank must contain (R133): with both pitches named, the A range is that of both (log 36). -/
def MxAsk.need (a : MxAsk) (t : Team) (g : Group) : Label :=
  ((Label.joinAll (a.ps.map (a.aLabel t g))).join (Label.joinAll (a.resvs t))).join a.lbl

/-- The check 11 of R283, once no write to the A registers is held (R276). -/
def MxAsk.denied (a : MxAsk) (t : Team) (g : Group) : Option Flt :=
  a.ps.findSome? (fun p =>
    let c := t.tileLabel (tileOn a.x a.caddr p)
    if (a.need t g).within c then none else some (fltStore 2 (a.need t g) c a.caddr))

/-- The checks 6 to 10 of R283. -/
def MxAsk.fault (a : MxAsk) (t : Team) (g : Group) (clr : Label) : Option Flt :=
  let tiles := a.ps.map (tileOn a.x a.caddr)
  let steps := List.range a.n
  let badTile := a.all.any (fun rs => match t.resv.find rs.hnd with
    | some r => !steps.all (fun j => r.tileOk a.ks (rs.tileAt a.binc j))
    | none => false)
  let load (l : Label) : Option Flt := if l.within clr then none else some (fltLoad 1 l clr a.caddr)
  if g.nvregs < a.abase + (a.n - 1) * a.inc + a.ps.length * a.ra then some fltIllegal
  else if a.latchBad t then some fltIllegal
  else if badTile then some fltIllegal
  else
    (tiles.findSome? t.tileFault).or ((a.resvs t ++ [a.src] ++ tiles.map t.tileLabel).findSome? load)

/-- Enter an MXLOOP or MXGRP that has passed its other checks (R270, R276, R283). -/
def MxAsk.enter (a : MxAsk) (x : CIn) (s s1 : State) : CRes :=
  let g := s1.grp
  let t := s1.tm
  match a.fault t g (s.clr s.cur) with
  | some f => .fault f false
  | none =>
    let latched (p : Nat) : Bool := (t.pitch p).latchNext.isSome
    if g.held 255 ((a.ps.filter (fun p => !latched p)).flatMap (fun p => (a.aRegs p).map Dst.reg)) then .wait 0x106
    else
      match a.denied t g with
      | some f => .fault f false
      | none =>
        if t.queuesFull a.ps then .wait 0x10C
        else
          .done (s1.enterPitches { id := 0, fc := some .mx, cslice := true, quads := x.qmask, pc := s.path.pos, run := g.runOf x.qmask,
                                   lbl := x.k, data := .matrix } a.ps (fun p =>
            { g := s.cur, op := 0, both := a.x = 2#2, caddr := tileOn a.x a.caddr p, albl := a.aLabel t g p,
              latched := latched p,
              work := .steps a.t a.abase a.inc a.n a.ks a.ra a.ru (a.rows p) a.binc a.acc })) 1

/-- The team does not hold a pitch that X names (R268). -/
def State.pitchMissing (s : State) (x : BitVec 2) : Option Flt :=
  match (pitchesOf x).find? (fun p => decide ((s.recOf s.cur).pitches ≤ p)) with
  | some p => some (fltPitch 0 p 0)
  | none => none

/-- RESV (R179): the team does not hold a handle. -/
def fltResv : Flt := { code := 0x0C }

/-- A parameter word read as signed. -/
def CIn.paramInt (x : CIn) (l : Nat) : Int := (x.b.at l).toInt

/-- MXLOOP (R281-R283). It acts in full on a single path without lanes too (log 95). -/
def execMxloop (f : CFields) (s : State) : Out :=
  cIssue (.mxloop f) { role := some 1, qb := 1, fc := some .mx } (fun x s1 =>
    let t := s1.tm
    let h := f.ext.toNat / 16 % 16
    let flags := (x.b.at 3).toNat
    if 1 < s.grp.paths.length then .fault fltIllegal false
    else
      match s.pitchMissing f.x with
      | some e => .fault e false
      | none =>
        if 1 < flags then .fault fltIllegal false
        else
          match t.resv.find h with
          | none => .fault fltResv false
          | some r =>
            if !pairOk f.dt r.fmt then .fault fltIllegal false
            else
              MxAsk.enter
                { ps := pitchesOf f.x, x := f.x, t := f.dt, ru := f.ru, abase := f.sa.toNat, inc := f.sc.toNat,
                  n := f.ext.toNat / 256 % 4096 + 1, ks := stepLen f.dt r.fmt,
                  rows := fun _ => [{ row0 := 0, nrows := 64, hnd := h, boff := (x.b.at 0).toNat }],
                  binc := x.paramInt 1, acc := flags == 1, caddr := (x.b.at 2).toNat, lbl := x.b.lbl.join x.k, src := 0#16 }
                x s s1) s

/-- An entry of a row table (R285): ROWS, HND, BOFF; nothing when it breaks a limit. -/
def tableRow (bs : List Byte) : Option (Nat × Nat × Nat) :=
  let rows := fieldAt bs 0 1
  let h := fieldAt bs 1 1
  if rows ≤ 64 && (rows = 0 || h ≤ 15) && fieldAt bs 2 2 == 0 && fieldAt bs 8 8 == 0 then some (rows, h, fieldAt bs 4 4) else none

/-- The rows of a pitch from a row table (R286): `r` rows stand before this list, and pitch `p` takes rows 64 p on. -/
def rowsOn (p : Nat) (r : Nat) : List (Nat × Nat × Nat) → List MxRows
  | [] => []
  | (n, h, o) :: es =>
    let lo := max r (64 * p)
    let hi := min (r + n) (64 * p + 64)
    (if lo < hi then [{ row0 := lo - 64 * p, nrows := hi - lo, hnd := h, boff := o }] else []) ++ rowsOn p (r + n) es

/-- MXGRP (R283, R285-R287). Formats are compared with those of the first reservation that a non-empty entry names and the
team holds (log 93). It acts in full on a single path without lanes too (log 95). -/
def execMxgrp (f : CFields) (s : State) : Out :=
  cIssue (.mxgrp f) { role := some 1, qb := 3, fc := some .mx } (fun x s1 =>
    let t := s1.tm
    let toff := (x.b.at 0).toNat
    let nent := (x.b.at 1).toNat
    let flags := (x.b.at 3).toNat
    let ps := pitchesOf f.x
    if 1 < s.grp.paths.length then .fault fltIllegal false
    else
      match s.pitchMissing f.x with
      | some e => .fault e false
      | none =>
        if 1 < flags || toff % 16 ≠ 0 || nent = 0 || 64 < nent || (s.recOf s.cur).spsize < toff + 16 * nent then .fault fltIllegal false
        else if t.rangeBad toff (16 * nent) then .fault { code := 0x0E, faddr := toff } false
        else
          let table := (List.range nent).map (fun i => tableRow (t.readSp (toff + 16 * i) 16))
          let es := (table.filterMap id).filter (fun e => e.1 != 0)
          let rs := es.filterMap (fun e => t.resv.find e.2.1)
          let mixed := match rs with
            | [] => false
            | r :: more => more.any (fun y => !(y.fmt == r.fmt && y.grp == r.grp && y.sfmt == r.sfmt))
          if table.any (·.isNone) || 64 * ps.length < (es.map (·.1)).foldl (· + ·) 0 || mixed then .fault fltIllegal false
          else if es.any (fun e => (t.resv.find e.2.1).isNone) then .fault fltResv false
          else if rs.any (fun r => !pairOk f.dt r.fmt) then .fault fltIllegal false
          else
            let tl := t.rangeLabel toff (16 * nent)
            MxAsk.enter
              { ps := ps, x := f.x, t := f.dt, ru := f.ru, abase := f.sa.toNat, inc := f.sc.toNat, n := f.ext.toNat / 256 % 4096 + 1,
                ks := match rs with | [] => 32 | r :: _ => stepLen f.dt r.fmt,
                rows := fun p => rowsOn (if f.x = 2#2 then p else 0) 0 es,
                binc := x.paramInt 4, acc := flags == 1, caddr := (x.b.at 2).toNat,
                lbl := (x.b.lbl.join x.k).join tl, src := tl } x s s1) s

/-- MXZERO (R288). It acts in full on a single path without lanes too (log 95). -/
def execMxzero (f : CFields) (s : State) : Out :=
  cIssue (.mxzero f) { role := some 1, imm := some .z32, qb := 1, fc := some .mx } (fun x s1 =>
    let t := s1.tm
    let ps := pitchesOf f.x
    let c := (x.b.at 0).toNat
    let w := x.b.lbl.join x.k
    if 1 < s.grp.paths.length then .fault fltIllegal false
    else
      match (s.pitchMissing f.x).or ((ps.map (tileOn f.x c)).findSome? t.tileFault) with
      | some e => .fault e false
      | none =>
        match ps.find? (fun p => !w.within (t.tileLabel (tileOn f.x c p))) with
        | some p => .fault (fltStore 2 w (t.tileLabel (tileOn f.x c p)) c) false
        | none =>
          if t.queuesFull ps then .wait 0x10C
          else
            .done (s1.enterPitches { id := 0, fc := some .mx, cslice := true, quads := x.qmask, pc := s.path.pos,
                                     run := s.grp.runOf x.qmask, lbl := x.k, data := .matrix } ps (fun p =>
              { g := s.cur, op := 0, both := f.x = 2#2, caddr := tileOn f.x c p, work := .zero })) 1) s

/-- ACCVT (R226, R270, R283, R289-R291). A path without lanes has no conversion made (R22; log 95). -/
def execAccvt (f : CFields) (s : State) : Out :=
  cIssue (.accvt f) { role := some 1, qa := 1, qb := 1, fc := some .mx } (fun x s1 =>
    let t := s1.tm
    let g := s1.grp
    let ps := pitchesOf f.x
    let c := (x.b.at 0).toNat
    let row0 := (x.b.at 1).toNat
    let nrows := (x.b.at 2).toNat
    let mw := (x.b.at 3).toNat
    let mode := mw % 4
    let d := f.dst.toNat
    let regs := if mode = 0 then ps.length * nrows * f.dt.width / 4 else 1
    let dsts := (List.range regs).map (fun i => Dst.reg (d + i))
    let st : Ty := if f.ext.toNat = 8 then .f32 else if f.ext.toNat = 9 then .f16 else .e8m0
    let tiles := if mode = 0 then ps.map (tileOn f.x c) else []
    match s.pitchMissing f.x with
    | some e => .fault e false
    | none =>
      if 63 < row0 || nrows = 0 || 64 - row0 < nrows || mode = 3 || mw / 512 ≠ 0 || bitsOf mw 2 6 ≠ 0 || g.nvregs < d + regs then
        .fault fltIllegal false
      else
        match (tiles.findSome? t.tileFault).or ((tiles.map t.tileLabel).findSome? (fun l =>
            if l.within (s.clr s.cur) then none else some (fltLoad 1 l (s.clr s.cur) c))) with
        | some e => .fault e false
        | none =>
          let o : Op := { id := 0, fc := some .mx, dsts := dsts, ety := f.dt, data := .matrix,
                          lbl := if mode = 0 then x.label else x.k.join x.b.lbl }
          if g.held x.qmask dsts then .wait 0x106
          else if g.active s.path = 0#32 then .done (s1.issueLanes x o) 1
          else if t.queuesFull ps then .wait 0x10C
          else if s1.readHeld s.cur dsts then .wait 0x10D
          else
            let o1 := { o with cslice := true, quads := x.qmask, pc := s.path.pos, run := g.runOf x.qmask, tk := f.tk.toNat,
                               mask := x.written, full := x.full }
            .done ((s1.setGrp (g.setTickets x.qmask f.tk.toNat 1)).enterPitches o1 ps (fun p =>
              { g := s.cur, op := 0, both := f.x = 2#2, caddr := tileOn f.x c p,
                work := .cvt f.dt f.rm f.sat row0 nrows mode (bitOf mw 8) st (x.a.at 0) })) 1) s

/-! ## The pitches -/

/-- The pitches whose queues the entry at the head of pitch `p` stands in, when it heads them all (R270). -/
def Team.heads (t : Team) (p : Nat) : Option (List Nat × MxEntry) :=
  match (t.pitch p).queue with
  | [] => none
  | e :: _ =>
    if !e.both then some ([p], e)
    else if [0, 1].all (fun q => match (t.pitch q).queue with | y :: _ => y.g == e.g && y.op == e.op | [] => false) then some ([0, 1], e)
    else none

/-- Change the head entry of a pitch's queue. -/
def Pitch.onHead (x : Pitch) (f : MxEntry → MxEntry) : Pitch :=
  match x.queue with
  | [] => x
  | e :: es => { x with queue := f e :: es }

/-- A pitch may act: its team is resident and no PITCH fault has stopped it (R271, R272). -/
def Team.pitchRuns (t : Team) (p : Nat) : Bool := t.state == .resident && !(t.pitch p).stopped

/-- PITCH_ENTRY_START (R270, R284, R288): the head entry starts; MXZERO writes its tiles. -/
def execPitchEntryStart (tn p : Nat) (s : State) : Out :=
  let t := s.team tn
  match t.heads p with
  | none => s.idle
  | some (ps, e) =>
    let ready := match (s.group e.g).op e.op with | some o => (s.group e.g).engineReady o | none => true
    if e.started || !ps.all t.pitchRuns || !ready then s.idle
    else
      let start (x : Team) (q : Nat) : Team :=
        let c := (((x.pitch q).queue.map (·.caddr)).headD 0) / 4
        let y := match e.work with
          | .zero => { x with acc := x.acc.filter (fun w => decide (w.1 < c) || decide (c + 16384 ≤ w.1)) }
          | _ => x
        y.setPitch q ((y.pitch q).onHead (fun z => { z with started := true }))
      .next (s.setTeam tn (ps.foldl start t))

/-- The words of A that a step of an entry reads on pitch `p` (R275, R277). From a latch they are those of the step of the same
number, whatever the length of its steps (log 94). -/
def stepWords (g : Group) (x : Pitch) (e : MxEntry) (p j abase inc ra : Nat) : List Word :=
  if e.latched then (match x.latch with | some l => l.data.getD j [] | none => [])
  else
    let base := abase + j * inc + (if e.both then p * ra else 0)
    (List.range ra).flatMap (fun i => (g.vregs.get {} (base + i)).lanes)

/-- The labels of the banks of an entry's tile (R291). -/
def Team.bankLabel (t : Team) (e : MxEntry) : Label := Label.joinAll (e.banks.map (fun b => t.bankLbl.get 0#16 b))

/-- A pitch stops at a step that reads uncorrectable data (R272): its queue is discarded, and so are the other entries of
the operations that stood in it; the entry that has run steps joins the status label (R291), and what it has copied for the
latch is gone. -/
def Team.stopPitches (t : Team) (ps : List Nat) : Team × List (Nat × Nat) :=
  let gone := ps.flatMap (fun p => (t.pitch p).queue.map (fun e => (e.g, e.op)))
  ({ t with pitches := t.pitches.mapVals (fun p x =>
      if ps.contains p then
        { x with queue := [], stopped := true, fill := [],
                 slbl := Label.join x.slbl (Label.joinAll ((x.queue.filter (fun e => e.step != 0)).map t.bankLabel)) }
      else { x with queue := x.queue.filter (fun e => !gone.contains (e.g, e.op)) }) }, gone)

/-- MATRIX_STEP (R272, R276, R282, R286): one K-step of the running entry, on each pitch it names. -/
def execMatrixStep (tn p : Nat) (s : State) : Out :=
  let t := s.team tn
  match t.heads p with
  | none => s.idle
  | some (ps, e) =>
    match e.work with
    | .steps ty abase inc n ks ra ru _ binc acc =>
      let g := s.group e.g
      let j := e.step
      let head (q : Nat) : MxEntry := (t.pitch q).queue.headD e
      let rows (q : Nat) : List MxRows := match (head q).work with | .steps _ _ _ _ _ _ _ rs _ _ => rs | _ => []
      let reads (q r : Nat) : Bool :=
        let base := abase + j * inc + (if e.both then q * ra else 0)
        !(head q).latched && decide (base ≤ r) && decide (r < base + ra)
      let pending := g.fx.any (fun w => match w.dst with | .reg r => ps.any (fun q => reads q r) | _ => false)
      if !e.started || n ≤ j || !ps.all t.pitchRuns || pending then s.idle
      else
      let latchBad (q : Nat) : Bool := (head q).latched && (match (t.pitch q).latch with | some l => l.bad.contains j | none => false)
      match ps.find? (fun q => latchBad q || (rows q).any (t.rowsBad ks binc (head q).caddr j (j == 0 && !acc))), g.op e.op with
      | some q, some o =>
        let r := t.stopPitches ps
        .next (((s.setTeam tn r.1).raiseOp e.g o (fltPitch 1 q j)).mxDone r.2)
      | _, _ =>
        let one (x : Team) (q : Nat) : Team :=
          let ws := stepWords g (x.pitch q) (head q) q j abase inc ra
          let r := (rows q).foldl (fun (a : Team × Bool) rs =>
            let y := a.1.stepRows ty ks binc ws (head q).caddr j (j == 0 && !acc) rs
            (y.1, a.2 || y.2)) (x, false)
          let z := (r.1.pitch q).onHead (fun y => { y with step := j + 1 })
          r.1.setPitch q { z with fill := if ru then z.fill ++ [ws] else [], saturated := z.saturated || r.2 }
        .next ((s.setTeam tn (ps.foldl one t)).pmGroup e.g 0x0B 1)
    | _ => s.idle

/-- An entry leaves its queue: the latch is as R277 says, and the bank of its tile joins the status label (R291). -/
def Team.leaveQueue (t : Team) (p : Nat) : Team :=
  let x := t.pitch p
  match x.queue with
  | [] => t
  | e :: es =>
    let l := match MxEntry.latchAfter x.latch e, x.latch with
      | some l, none => some { l with data := x.fill }
      | l, _ => l
    t.setPitch p { x with queue := es, latch := l, fill := [], slbl := Label.join x.slbl (t.bankLabel e) }

/-- PITCH_ENTRY_COMPLETE (R270, R277, R284): an entry all of whose steps have been applied is complete. -/
def execPitchEntryComplete (tn p : Nat) (s : State) : Out :=
  let t := s.team tn
  match t.heads p with
  | none => s.idle
  | some (ps, e) =>
    let all := match e.work with
      | .steps _ _ _ n _ _ _ _ _ _ => decide (n ≤ e.step)
      | .zero => true
      | .cvt .. => false
    if !e.started || !all || !ps.all t.pitchRuns then s.idle
    else .next ((s.setTeam tn (ps.foldl Team.leaveQueue t)).mxDone [(e.g, e.op)])

/-- The value that ACCVT forms from a word of C (R290). -/
def cvtElem (t : Ty) (rm : RM) (sat cint : Bool) (st : Ty) (scale c : Word) : Nat :=
  encodeTy t rm sat ((decodeTy (if cint then .s32 else .f32) c.toNat).mul (decodeTy st (scale.toNat % 2 ^ st.width)))

/-- Register `i` of ACCVT's destination (R290): rows of the tiles in turn, `wd / 4` registers each. -/
def Team.cvtReg (t : Team) (ty : Ty) (tiles : List Nat) (row0 nrows i : Nat) (elem : Word → Nat) : List Word :=
  let per := ty.width / 4
  let e := 32 / ty.width
  let row := i / per
  let base := tiles.getD (row / nrows) 0 / 4 + 256 * (row0 + row % nrows) + i % per * 32 * e
  lanesOf (fun l => BitVec.ofNat 32 ((List.range e).foldl (fun a q => a + elem (t.acc.get 0#32 (base + l * e + q)) * 2 ^ (ty.width * q)) 0))

/-- ACCVT_COMPLETE (R230, R270, R289-R291): the conversion or the status word is written and the entry is complete. -/
def execAccvtComplete (tn p : Nat) (s : State) : Out :=
  let t := s.team tn
  match t.heads p with
  | none => s.idle
  | some (ps, e) =>
    match e.work with
    | .cvt ty rm sat row0 nrows mode cint st scale =>
      let g := s.group e.g
      match g.op e.op with
      | none => s.idle
      | some o =>
        if !e.started || !ps.all t.pitchRuns then s.idle
        else
          let d := match o.dsts with | .reg c :: _ => c | _ => 0
          let tiles := ps.map (fun q => ((t.pitch q).queue.map (·.caddr)).headD 0)
          let bad := mode == 0 && tiles.any (fun c => sectorsBad t.accBad (c + 1024 * row0) (1024 * nrows))
          let t1 := ps.foldl Team.leaveQueue t
          let t2 := if mode = 2 then ps.foldl (fun x q => x.setPitch q { x.pitch q with saturated := false, slbl := 0#16 }) t1 else t1
          let g1 :=
            if bad then g
            else if mode = 0 then
              let l := o.lbl.join (Label.joinAll (tiles.map t.tileLabel))
              (List.range (tiles.length * nrows * ty.width / 4)).foldl (fun h i =>
                h.writeVreg (d + i) o.mask (t.cvtReg ty tiles row0 nrows i (cvtElem ty rm sat cint st scale)) o.full l) g
            else
              let sat := ps.any (fun q => (t.pitch q).saturated)
              let l := o.lbl.join (Label.joinAll (ps.map (fun q => (t.pitch q).slbl)))
              g.writeVreg d o.mask (List.replicate 32 (if sat then 1#32 else 0#32)) o.full l
          let o1 := { o with fail := if bad then some { code := 0x0E, faddr := e.caddr } else o.fail, doneq := true }
          .next (((s.setTeam tn t2).setGroup e.g ((g1.doneTickets o.quads o.tk).setOp o1)).settle e.g)
    | _ => s.idle

end Sys2Proof.Machine
end

