-- ==== Sys2Proof/WellFormed.lean ====
section
/-! DEFINITION. Which instructions are well formed: those whose row of the opcode map finds nothing wrong. -/

namespace Sys2Proof

/-- An instruction is well formed when its row of the opcode map finds nothing wrong with its fields; a SKIP count is
not zero (R77). Words of the address stream and the steps of other agents are well formed by their types. -/
def Instr.wf (i : Instr) : Bool :=
  match i with
  | .trlSkip _ _ n => n != 0#7
  | _ =>
    match i.cForm with
    | none => true
    | some (cls, op, f) =>
      match cRow cls op with
      | none => false
      | some r => f.canonical && r.check f == none && CRow.select (r.build f) == i

end Sys2Proof
end

