-- ==== Sys2Proof/Decode.lean ====
section
/-! DEFINITION. Decoding of both streams, total on any bits and rejecting by name, and after it the encoder written
from the same tables (R60-R81). -/

namespace Sys2Proof

/-- The fields of an A-stream word that every format of R60 is cut from. -/
structure AWord where
  op : BitVec 6
  f25 : BitVec 6
  f19 : BitVec 6
  f13 : BitVec 6
  func : BitVec 8
deriving DecidableEq, Repr

/-- Cut a word into the fields of R60. -/
def AWord.ofWord (w : Word) : AWord :=
  { op := w.extractLsb' 26 6, f25 := w.extractLsb' 20 6, f19 := w.extractLsb' 14 6, f13 := w.extractLsb' 8 6,
    func := w.extractLsb' 0 8 }

/-- Put the fields together. -/
def AWord.toWord (x : AWord) : Word := x.op ++ x.f25 ++ x.f19 ++ x.f13 ++ x.func

/-- imm14 of the I and B formats. -/
def AWord.imm14 (x : AWord) : BitVec 14 := x.f13 ++ x.func

/-- imm20 of the J format. -/
def AWord.imm20 (x : AWord) : BitVec 20 := x.f19 ++ x.f13 ++ x.func

/-- The operation of an ALU word (R65). -/
def decodeAlu (x : AWord) : Except Reject Instr :=
  match x.func.toNat with
  | 0x00 => .ok (.add x.f25 x.f19 x.f13) | 0x01 => .ok (.sub x.f25 x.f19 x.f13)
  | 0x02 => .ok (.mul x.f25 x.f19 x.f13) | 0x03 => .ok (.mulhi x.f25 x.f19 x.f13)
  | 0x04 => .ok (.divs x.f25 x.f19 x.f13) | 0x05 => .ok (.divz x.f25 x.f19 x.f13)
  | 0x06 => .ok (.rems x.f25 x.f19 x.f13) | 0x07 => .ok (.remz x.f25 x.f19 x.f13)
  | 0x08 => .ok (.and x.f25 x.f19 x.f13) | 0x09 => .ok (.or x.f25 x.f19 x.f13)
  | 0x0A => .ok (.xor x.f25 x.f19 x.f13) | 0x0B => .ok (.shl x.f25 x.f19 x.f13)
  | 0x0C => .ok (.shr x.f25 x.f19 x.f13) | 0x0D => .ok (.sar x.f25 x.f19 x.f13)
  | 0x0E => .ok (.min x.f25 x.f19 x.f13) | 0x0F => .ok (.max x.f25 x.f19 x.f13)
  | 0x10 => .ok (.minz x.f25 x.f19 x.f13) | 0x11 => .ok (.maxz x.f25 x.f19 x.f13)
  | 0x12 => .ok (.slt x.f25 x.f19 x.f13) | 0x13 => .ok (.sltz x.f25 x.f19 x.f13)
  | 0x14 => .ok (.seq x.f25 x.f19 x.f13)
  | _ => .error .unassignedFunc

/-- The operation of a scalar atomic (R65). -/
def decodeAmos (x : AWord) : Except Reject Instr :=
  match x.func.toNat with
  | 0 => .ok (.amosAdd x.f25 x.f19 x.f13) | 1 => .ok (.amosAnd x.f25 x.f19 x.f13)
  | 2 => .ok (.amosOr x.f25 x.f19 x.f13) | 3 => .ok (.amosXor x.f25 x.f19 x.f13)
  | 4 => .ok (.amosMin x.f25 x.f19 x.f13) | 5 => .ok (.amosMax x.f25 x.f19 x.f13)
  | 6 => .ok (.amosMinz x.f25 x.f19 x.f13) | 7 => .ok (.amosMaxz x.f25 x.f19 x.f13)
  | 8 => .ok (.amosSwap x.f25 x.f19 x.f13) | 9 => .ok (.amosCas x.f25 x.f19 x.f13)
  | _ => .error .unassignedFunc

/-- Answer the instruction when the fields that must be zero are zero (R61). -/
def whenZero (z : Bool) (i : Instr) : Except Reject Instr := if z then .ok i else .error .fixedField

/-- The system group, major opcode 0x1B (R66). -/
def decodeSystem (x : AWord) : Except Reject Instr :=
  match x.func.toNat with
  | 0x00 => .ok (.trap x.f25 x.f19 x.f13)
  | 0x01 => whenZero (x.f25 == 0#6 && x.f13 == 0#6) (.yield x.f19)
  | 0x02 => whenZero (x.f13 == 0#6) (.lblrd x.f25 x.f19)
  | 0x03 => .ok (.lblup x.f25 x.f19 x.f13)
  | 0x04 =>
    match x.f25.toNat with
    | 0 => .ok (.glbl .global x.f19 x.f13) | 1 => .ok (.glbl .scratch x.f19 x.f13)
    | 2 => .ok (.glbl .acc x.f19 x.f13) | 3 => .ok (.glbl .barrier x.f19 x.f13)
    | _ => .error .fixedField
  | 0x05 => .ok (.dcls x.f25 x.f19 x.f13)
  | 0x06 =>
    match x.f13.toNat with
    | 0 => whenZero (x.f25 == 0#6 && x.f19 == 0#6) .markJoin
    | 1 => whenZero (x.f25 == 0#6) (.markUser x.f19)
    | _ => .error .markKind
  | 0x07 => whenZero (x.f25 == 0#6 && x.f19 == 0#6) (.brk x.f13)
  | 0x08 => whenZero (x.f25 == 0#6 && x.f13 == 0#6) (.yieldRec x.f19)
  | _ => .error .unassignedFunc

/-- The scope of a FENCE word (R66). -/
def Scope.ofCode : Nat → Option Scope
  | 0 => some .group | 1 => some .team | 2 => some .cluster | 3 => some .device | 4 => some .domain | 5 => some .system
  | _ => none

/-- The code of a scope (R66). -/
def Scope.code : Scope → BitVec 3
  | .group => 0#3 | .team => 1#3 | .cluster => 2#3 | .device => 3#3 | .domain => 4#3 | .system => 5#3

/-- The kind of a FENCE word (R66). -/
def FenceKind.ofCode : Nat → Option FenceKind
  | 0 => some .acq | 1 => some .rel | 2 => some .full
  | _ => none

/-- The code of a kind (R66). -/
def FenceKind.code : FenceKind → BitVec 2
  | .acq => 0#2 | .rel => 1#2 | .full => 2#2

/-- The synchronisation group, major opcode 0x3D (R66). -/
def decodeSync (x : AWord) : Except Reject Instr :=
  match x.func.toNat with
  | 0x00 => whenZero (x.f25 == 0#6) (.barinit x.f19 x.f13)
  | 0x01 => .ok (.bararv x.f25 x.f19 x.f13)
  | 0x02 => whenZero (x.f13 == 0#6) (.barwait x.f25 x.f19)
  | 0x04 =>
    match Scope.ofCode (x.f13.extractLsb' 3 3).toNat, FenceKind.ofCode (x.f13.extractLsb' 1 2).toNat with
    | some sc, some k => whenZero (x.f25 == 0#6 && x.f19 == 0#6 && x.f13.extractLsb' 0 1 == 0#1) (.fence sc k)
    | _, _ => .error .fenceField
  | _ => .error .unassignedFunc

/-- The counter of a WAITFC word (R66). -/
def FC.ofCode : Nat → Option FC
  | 0 => some .ld | 1 => some .gx | 2 => some .st | 3 => some .sp | 4 => some .po | 5 => some .mx | 6 => some .cl
  | 7 => some .xf | 8 => some .wa
  | _ => none

/-- The code of a counter (R66). -/
def FC.code : FC → BitVec 4
  | .ld => 0#4 | .gx => 1#4 | .st => 2#4 | .sp => 3#4 | .po => 4#4 | .mx => 5#4 | .cl => 6#4 | .xf => 7#4 | .wa => 8#4

/-- The A-stream instruction of a word (R60-R66). `lit` is the word after it, which only LI32 takes (R63). -/
def decodeA (w lit : Word) : Except Reject Instr :=
  let x := AWord.ofWord w
  match x.op.toNat with
  | 0x01 => decodeAlu x
  | 0x02 => whenZero (x.func.extractLsb' 0 2 == 0#2) (.sel x.f25 x.f19 x.f13 (x.func.extractLsb' 2 6))
  | 0x03 => .ok (.addi x.f25 x.f19 x.imm14)
  | 0x04 => .ok (.andi x.f25 x.f19 x.imm14)
  | 0x05 => .ok (.ori x.f25 x.f19 x.imm14)
  | 0x06 => .ok (.xori x.f25 x.f19 x.imm14)
  | 0x07 => whenZero (x.imm14.extractLsb' 6 8 == 0#8) (.shli x.f25 x.f19 (x.imm14.extractLsb' 0 6))
  | 0x08 => whenZero (x.imm14.extractLsb' 6 8 == 0#8) (.shri x.f25 x.f19 (x.imm14.extractLsb' 0 6))
  | 0x09 => whenZero (x.imm14.extractLsb' 6 8 == 0#8) (.sari x.f25 x.f19 (x.imm14.extractLsb' 0 6))
  | 0x0A => .ok (.lih x.f25 x.imm20)
  | 0x0B => whenZero (x.imm20 == 0#20) (.li32 x.f25 lit)
  | 0x0C => .ok (.addpc x.f25 x.imm20)
  | 0x10 => whenZero (x.f25 == 0#6) (.jmp x.imm20)
  | 0x11 => .ok (.call x.f25 x.imm20)
  | 0x12 => .ok (.loop x.f25 x.imm20)
  | 0x13 => .ok (.beq x.f25 x.f19 x.imm14)
  | 0x14 => .ok (.bne x.f25 x.f19 x.imm14)
  | 0x15 => .ok (.blt x.f25 x.f19 x.imm14)
  | 0x16 => .ok (.bge x.f25 x.f19 x.imm14)
  | 0x17 => .ok (.blo x.f25 x.f19 x.imm14)
  | 0x18 => .ok (.bhs x.f25 x.f19 x.imm14)
  | 0x19 =>
    match x.func.toNat with
    | 0 => whenZero (x.f25 == 0#6 && x.f13 == 0#6) (.jr x.f19)
    | 1 => whenZero (x.f25 == 0#6 && x.f13 == 0#6) (.ret x.f19)
    | _ => .error .unassignedFunc
  | 0x1A => whenZero (x.f25 == 0#6 && x.imm20 == 0#20) .halt
  | 0x1B => decodeSystem x
  | 0x20 => .ok (.lds x.f25 x.f19 x.imm14)
  | 0x21 => .ok (.sts x.f25 x.f19 x.imm14)
  | 0x22 => decodeAmos x
  | 0x23 => whenZero (x.f19 == 0#6 && x.imm14.extractLsb' 12 2 == 0#2) (.ldk x.f25 (x.imm14.extractLsb' 0 12))
  | 0x28 => whenZero (x.f25.extractLsb' 2 4 == 0#4) (.vld (x.f25.extractLsb' 0 2) x.f19 x.imm14)
  | 0x29 => whenZero (x.f25 == 0#6) (.vsta x.f19 x.imm14)
  | 0x2A => whenZero (x.f25 == 0#6) (.pref x.f19 x.imm14)
  | 0x2B => .ok (.run x.f25 x.imm20)
  | 0x2C => whenZero (x.f25 == 0#6 && x.f19 == 0#6) (.slipset x.imm14)
  | 0x2D => whenZero (x.f19 == 0#6 && x.imm14 == 0#14) (.popca x.f25)
  | 0x30 => whenZero (x.f25 == 0#6 && x.f13 == 0#6 && x.func == 0#8) (.port x.f19)
  | 0x31 => whenZero (x.f25 == 0#6 && x.f13 == 0#6 && x.func == 0#8) (.coll x.f19)
  | 0x32 => whenZero (x.f13 == 0#6 && x.func == 0#8) (.alloc x.f25 x.f19)
  | 0x33 => whenZero (x.f25 == 0#6 && x.f13 == 0#6 && x.func == 0#8) (.free x.f19)
  | 0x34 => whenZero (x.func == 0#8) (.resv x.f25 x.f19 x.f13)
  | 0x35 => whenZero (x.f25 == 0#6 && x.f13 == 0#6 && x.func == 0#8) (.unresv x.f19)
  | 0x36 => whenZero (x.f25 == 0#6 && x.func == 0#8) (.detset x.f19 x.f13)
  | 0x37 =>
    match FC.ofCode (x.f25.extractLsb' 2 4).toNat with
    | some c => whenZero (x.f25.extractLsb' 0 2 == 0#2 && x.imm20.extractLsb' 12 8 == 0#8) (.waitfc c (x.imm20.extractLsb' 0 12))
    | none => .error .counterCode
  | 0x38 => whenZero (x.f25 == 0#6 && x.func == 0#8) (.sigadd x.f19 x.f13)
  | 0x39 => whenZero (x.f25 == 0#6 && x.func == 0#8) (.sigdec x.f19 x.f13)
  | 0x3A => whenZero (x.f25 == 0#6 && x.func == 0#8) (.sigwait x.f19 x.f13)
  | 0x3B => whenZero (x.f25 == 0#6 && x.f13 == 0#6 && x.func == 0#8) (.launch x.f19)
  | 0x3C => whenZero (x.f25 == 0#6 && x.f19 == 0#6 && x.f13 == 0#6 && x.func == 0#8) .early
  | 0x3D => decodeSync x
  | 0x3E => whenZero (x.f19 == 0#6) (.getsr x.f25 x.imm14)
  | 0x3F => whenZero (x.f25 == 0#6) (.setsr x.f19 x.imm14)
  | _ => .error .unassignedOp

/-- The rounding mode of an RM code (R67). -/
def RM.ofCode (c : BitVec 2) : RM :=
  match c.toNat with
  | 0 => .rne | 1 => .rtz | 2 => .rdn | _ => .rup

/-- The RM code of a rounding mode (R67). -/
def RM.code : RM → BitVec 2
  | .rne => 0#2 | .rtz => 1#2 | .rdn => 2#2 | .rup => 3#2

/-- The fields of parcels 0 to 3 (R67), as they stand. -/
structure CRaw where
  cls : BitVec 4
  op : BitVec 8
  dt : BitVec 4
  pr : BitVec 3
  pn : BitVec 1
  tk : BitVec 4
  rm : BitVec 2
  sat : BitVec 1
  ru : BitVec 1
  imf : BitVec 2
  x : BitVec 2
  dst : BitVec 10
  sa : BitVec 10
  sb : BitVec 10
  sc : BitVec 10
  ext : BitVec 20
  lit : Word
deriving DecidableEq, Repr

/-- Cut the parcels into the fields of R67. -/
def CRaw.ofParcels (p0 p1 p2 p3 : Word) : CRaw :=
  { cls := p0.extractLsb' 28 4, op := p0.extractLsb' 20 8, dt := p0.extractLsb' 16 4, pr := p0.extractLsb' 13 3,
    pn := p0.extractLsb' 12 1, tk := p0.extractLsb' 8 4, rm := p0.extractLsb' 6 2, sat := p0.extractLsb' 5 1,
    ru := p0.extractLsb' 4 1, imf := p0.extractLsb' 2 2, x := p0.extractLsb' 0 2,
    dst := p1.extractLsb' 22 10, sa := p1.extractLsb' 12 10, sb := p1.extractLsb' 2 10,
    sc := p2.extractLsb' 22 10, ext := p2.extractLsb' 0 20, lit := p3 }

/-- Parcel 0. -/
def CRaw.parcel0 (r : CRaw) : Word :=
  r.cls ++ r.op ++ r.dt ++ r.pr ++ r.pn ++ r.tk ++ r.rm ++ r.sat ++ r.ru ++ r.imf ++ r.x

/-- Parcel 1; bits [1:0] are ignored (R67) and written as zero. -/
def CRaw.parcel1 (r : CRaw) : Word := r.dst ++ r.sa ++ r.sb ++ 0#2

/-- Parcel 2; bits [21:20] are ignored (R67) and written as zero. -/
def CRaw.parcel2 (r : CRaw) : Word := r.sc ++ 0#2 ++ r.ext

/-- The decoded fields, with the immediate form's own fields moved into `imm` (R67, R72). -/
def CRaw.fields (r : CRaw) (dt : Ty) : CFields :=
  let imm : Imm :=
    match r.imf.toNat with
    | 0 => .none | 1 => .i20 r.ext | 2 => .lit r.lit | _ => .k (r.x ++ r.sb)
  { dt := dt, pr := r.pr, pn := r.pn == 1#1, tk := r.tk, rm := RM.ofCode r.rm, sat := r.sat == 1#1, ru := r.ru == 1#1,
    imm := imm, x := if r.imf == 3#2 then 0#2 else r.x, dst := r.dst, sa := r.sa,
    sb := if r.imf == 3#2 then 0#10 else r.sb, sc := r.sc, ext := if r.imf == 1#2 then 0#20 else r.ext }

/-- The fields that parcels hold for a decoded instruction. -/
def CRaw.ofFields (cls op : Nat) (f : CFields) : CRaw :=
  let sb := match f.imm with | .k n => n.extractLsb' 0 10 | _ => f.sb
  let x := match f.imm with | .k n => n.extractLsb' 10 2 | _ => f.x
  let ext := match f.imm with | .i20 v => v | _ => f.ext
  let lit := match f.imm with | .lit w => w | _ => 0#32
  { cls := BitVec.ofNat 4 cls, op := BitVec.ofNat 8 op, dt := BitVec.ofNat 4 f.dt.code, pr := f.pr,
    pn := if f.pn then 1#1 else 0#1, tk := f.tk, rm := f.rm.code, sat := if f.sat then 1#1 else 0#1,
    ru := if f.ru then 1#1 else 0#1, imf := BitVec.ofNat 2 f.imm.code, x := x, dst := f.dst, sa := f.sa, sb := sb,
    sc := f.sc, ext := ext, lit := lit }

/-- The length in parcels that parcel 0 alone fixes (R68). -/
def parcelLength (p0 : Word) : Nat :=
  if (p0.extractLsb' 28 4).toNat ≤ 9 then (if p0.extractLsb' 2 2 == 2#2 then 4 else 3) else 1

/-- A trailer (R77). -/
def decodeTrailer (w : Word) : Except Reject Instr :=
  let aw := w.extractLsb' 10 15
  let arg := w.extractLsb' 0 10
  match (w.extractLsb' 25 3).toNat with
  | 0 => if arg == 0#10 then .ok (.trlTake aw) else .error .trailerField
  | 1 => if arg == 0#10 then .ok (.trlFall aw) else .error .trailerField
  | 2 => if arg.extractLsb' 0 7 == 0#7 then .error .trailerField
         else .ok (.trlSkip aw (arg.extractLsb' 7 3) (arg.extractLsb' 0 7))
  | 3 => .ok (.trlRegang aw arg)
  | 4 => if arg == 0#10 then .ok (.trlEnd aw) else .error .trailerField
  | _ => .error .trailerField

/-- An instruction of three or four parcels (R67-R81). -/
def decodeC34 (r : CRaw) : Except Reject Instr :=
  match Ty.ofCode r.dt.toNat with
  | none => .error .typeField
  | some dt =>
    match cRow r.cls.toNat r.op.toNat with
    | none => .error .unassignedCOp
    | some row =>
      let f := r.fields dt
      match row.check f with
      | some e => .error e
      | none => .ok (CRow.select (row.build f))

/-- The compute-stream instruction that starts at parcel 0 (R67-R81); parcels past its length are not looked at. -/
def decodeC (p0 p1 p2 p3 : Word) : Except Reject Instr :=
  match (p0.extractLsb' 28 4).toNat with
  | 0xE => decodeTrailer p0
  | 0xF => .ok .nop
  | c => if c ≤ 9 then decodeC34 (CRaw.ofParcels p0 p1 p2 p3) else .error .unassignedClass

/-- The A-stream fields of an instruction, when it is an A-stream instruction. -/
def Instr.aForm : Instr → Option AWord
  | .add d a b => some ⟨0x01#6, d, a, b, 0x00#8⟩ | .sub d a b => some ⟨0x01#6, d, a, b, 0x01#8⟩
  | .mul d a b => some ⟨0x01#6, d, a, b, 0x02#8⟩ | .mulhi d a b => some ⟨0x01#6, d, a, b, 0x03#8⟩
  | .divs d a b => some ⟨0x01#6, d, a, b, 0x04#8⟩ | .divz d a b => some ⟨0x01#6, d, a, b, 0x05#8⟩
  | .rems d a b => some ⟨0x01#6, d, a, b, 0x06#8⟩ | .remz d a b => some ⟨0x01#6, d, a, b, 0x07#8⟩
  | .and d a b => some ⟨0x01#6, d, a, b, 0x08#8⟩ | .or d a b => some ⟨0x01#6, d, a, b, 0x09#8⟩
  | .xor d a b => some ⟨0x01#6, d, a, b, 0x0A#8⟩ | .shl d a b => some ⟨0x01#6, d, a, b, 0x0B#8⟩
  | .shr d a b => some ⟨0x01#6, d, a, b, 0x0C#8⟩ | .sar d a b => some ⟨0x01#6, d, a, b, 0x0D#8⟩
  | .min d a b => some ⟨0x01#6, d, a, b, 0x0E#8⟩ | .max d a b => some ⟨0x01#6, d, a, b, 0x0F#8⟩
  | .minz d a b => some ⟨0x01#6, d, a, b, 0x10#8⟩ | .maxz d a b => some ⟨0x01#6, d, a, b, 0x11#8⟩
  | .slt d a b => some ⟨0x01#6, d, a, b, 0x12#8⟩ | .sltz d a b => some ⟨0x01#6, d, a, b, 0x13#8⟩
  | .seq d a b => some ⟨0x01#6, d, a, b, 0x14#8⟩
  | .sel d a b c => some ⟨0x02#6, d, a, b, c ++ 0#2⟩
  | .addi d a i => some (ofImm14 0x03#6 d a i) | .andi d a i => some (ofImm14 0x04#6 d a i)
  | .ori d a i => some (ofImm14 0x05#6 d a i) | .xori d a i => some (ofImm14 0x06#6 d a i)
  | .shli d a n => some (ofImm14 0x07#6 d a (0#8 ++ n)) | .shri d a n => some (ofImm14 0x08#6 d a (0#8 ++ n))
  | .sari d a n => some (ofImm14 0x09#6 d a (0#8 ++ n))
  | .lih d i => some (ofImm20 0x0A#6 d i) | .li32 d _ => some (ofImm20 0x0B#6 d 0#20)
  | .addpc d i => some (ofImm20 0x0C#6 d i) | .ldk d n => some (ofImm14 0x23#6 d 0#6 (0#2 ++ n))
  | .jmp i => some (ofImm20 0x10#6 0#6 i) | .call d i => some (ofImm20 0x11#6 d i) | .loop d i => some (ofImm20 0x12#6 d i)
  | .beq a b i => some (ofImm14 0x13#6 a b i) | .bne a b i => some (ofImm14 0x14#6 a b i)
  | .blt a b i => some (ofImm14 0x15#6 a b i) | .bge a b i => some (ofImm14 0x16#6 a b i)
  | .blo a b i => some (ofImm14 0x17#6 a b i) | .bhs a b i => some (ofImm14 0x18#6 a b i)
  | .jr a => some ⟨0x19#6, 0#6, a, 0#6, 0#8⟩ | .ret a => some ⟨0x19#6, 0#6, a, 0#6, 1#8⟩
  | .halt => some ⟨0x1A#6, 0#6, 0#6, 0#6, 0#8⟩
  | .trap d a c => some ⟨0x1B#6, d, a, c, 0x00#8⟩ | .yield a => some ⟨0x1B#6, 0#6, a, 0#6, 0x01#8⟩
  | .lblrd d a => some ⟨0x1B#6, d, a, 0#6, 0x02#8⟩ | .lblup d a b => some ⟨0x1B#6, d, a, b, 0x03#8⟩
  | .glbl .global a b => some ⟨0x1B#6, 0#6, a, b, 0x04#8⟩ | .glbl .scratch a b => some ⟨0x1B#6, 1#6, a, b, 0x04#8⟩
  | .glbl .acc a b => some ⟨0x1B#6, 2#6, a, b, 0x04#8⟩ | .glbl .barrier a b => some ⟨0x1B#6, 3#6, a, b, 0x04#8⟩
  | .dcls d a b => some ⟨0x1B#6, d, a, b, 0x05#8⟩ | .markJoin => some ⟨0x1B#6, 0#6, 0#6, 0#6, 0x06#8⟩
  | .markUser a => some ⟨0x1B#6, 0#6, a, 1#6, 0x06#8⟩ | .brk c => some ⟨0x1B#6, 0#6, 0#6, c, 0x07#8⟩
  | .yieldRec a => some ⟨0x1B#6, 0#6, a, 0#6, 0x08#8⟩
  | .lds d a i => some (ofImm14 0x20#6 d a i) | .sts d a i => some (ofImm14 0x21#6 d a i)
  | .amosAdd d a b => some ⟨0x22#6, d, a, b, 0#8⟩ | .amosAnd d a b => some ⟨0x22#6, d, a, b, 1#8⟩
  | .amosOr d a b => some ⟨0x22#6, d, a, b, 2#8⟩ | .amosXor d a b => some ⟨0x22#6, d, a, b, 3#8⟩
  | .amosMin d a b => some ⟨0x22#6, d, a, b, 4#8⟩ | .amosMax d a b => some ⟨0x22#6, d, a, b, 5#8⟩
  | .amosMinz d a b => some ⟨0x22#6, d, a, b, 6#8⟩ | .amosMaxz d a b => some ⟨0x22#6, d, a, b, 7#8⟩
  | .amosSwap d a b => some ⟨0x22#6, d, a, b, 8#8⟩ | .amosCas d a b => some ⟨0x22#6, d, a, b, 9#8⟩
  | .vld q a i => some (ofImm14 0x28#6 (0#4 ++ q) a i) | .vsta a i => some (ofImm14 0x29#6 0#6 a i)
  | .pref a i => some (ofImm14 0x2A#6 0#6 a i) | .run d i => some (ofImm20 0x2B#6 d i)
  | .slipset i => some (ofImm14 0x2C#6 0#6 0#6 i) | .popca d => some (ofImm14 0x2D#6 d 0#6 0#14)
  | .port a => some ⟨0x30#6, 0#6, a, 0#6, 0#8⟩ | .coll a => some ⟨0x31#6, 0#6, a, 0#6, 0#8⟩
  | .alloc d a => some ⟨0x32#6, d, a, 0#6, 0#8⟩ | .free a => some ⟨0x33#6, 0#6, a, 0#6, 0#8⟩
  | .resv d a b => some ⟨0x34#6, d, a, b, 0#8⟩ | .unresv a => some ⟨0x35#6, 0#6, a, 0#6, 0#8⟩
  | .detset a b => some ⟨0x36#6, 0#6, a, b, 0#8⟩
  | .waitfc c n => some (ofImm20 0x37#6 (c.code ++ 0#2) (0#8 ++ n))
  | .sigadd a b => some ⟨0x38#6, 0#6, a, b, 0#8⟩ | .sigdec a b => some ⟨0x39#6, 0#6, a, b, 0#8⟩
  | .sigwait a b => some ⟨0x3A#6, 0#6, a, b, 0#8⟩ | .launch a => some ⟨0x3B#6, 0#6, a, 0#6, 0#8⟩
  | .early => some ⟨0x3C#6, 0#6, 0#6, 0#6, 0#8⟩
  | .barinit a b => some ⟨0x3D#6, 0#6, a, b, 0x00#8⟩ | .bararv d a b => some ⟨0x3D#6, d, a, b, 0x01#8⟩
  | .barwait d a => some ⟨0x3D#6, d, a, 0#6, 0x02#8⟩
  | .fence sc k => some ⟨0x3D#6, 0#6, 0#6, sc.code ++ k.code ++ 0#1, 0x04#8⟩
  | .getsr d i => some (ofImm14 0x3E#6 d 0#6 i) | .setsr a i => some (ofImm14 0x3F#6 0#6 a i)
  | _ => none
where
  /-- The I and B formats. -/
  ofImm14 (op d a : BitVec 6) (i : BitVec 14) : AWord := ⟨op, d, a, i.extractLsb' 8 6, i.extractLsb' 0 8⟩
  /-- The J format. -/
  ofImm20 (op d : BitVec 6) (i : BitVec 20) : AWord := ⟨op, d, i.extractLsb' 14 6, i.extractLsb' 8 6, i.extractLsb' 0 8⟩

/-- The literal word that follows an A-stream word: LI32 alone has one (R63). -/
def Instr.aLiteral : Instr → Option Word
  | .li32 _ w => some w
  | _ => none

/-- The parcel of a trailer or of NOP (R77, R78). -/
def Instr.oneParcel : Instr → Option Word
  | .trlTake aw => some (0xE#4 ++ 0#3 ++ aw ++ 0#10)
  | .trlFall aw => some (0xE#4 ++ 1#3 ++ aw ++ 0#10)
  | .trlSkip aw p n => some (0xE#4 ++ 2#3 ++ aw ++ p ++ n)
  | .trlRegang aw id => some (0xE#4 ++ 3#3 ++ aw ++ id)
  | .trlEnd aw => some (0xE#4 ++ 4#3 ++ aw ++ 0#10)
  | .nop => some 0xF0000000#32
  | _ => none

/-- The words of an instruction, the first at the lowest address: one word or parcel each. A step of another agent has
no words. -/
def encode (i : Instr) : List Word :=
  match i.aForm with
  | some x => x.toWord :: i.aLiteral.toList
  | none =>
    match i.oneParcel with
    | some p => [p]
    | none =>
      match i.cForm with
      | none => []
      | some (cls, op, f) =>
        let r := CRaw.ofFields cls op f
        [r.parcel0, r.parcel1, r.parcel2] ++ (if f.imm.code == 2 then [r.lit] else [])

/-- Decode the words of one stream: what `encode` gives back. `true` reads them as address-stream words. -/
def decodeWords (address : Bool) : List Word → Except Reject Instr
  | [] => .error .unassignedOp
  | w :: ws =>
    if address then decodeA w (ws.getD 0 0#32) else decodeC w (ws.getD 0 0#32) (ws.getD 1 0#32) (ws.getD 2 0#32)

/-- The instruction read from an instruction whose bits are `w`, bit 0 the least significant of the first word. A row of
at most 32 bits is read as an address-stream word if it is one, and otherwise as a compute-stream parcel (log 6); 64 bits
are an LI32 with its literal, 96 and more the parcels of a compute-stream instruction. -/
def decodeTableWord (nbits w : Nat) : Option Instr :=
  let word (k : Nat) : Word := BitVec.ofNat 32 (w / 2 ^ (32 * k))
  if nbits ≤ 64 then
    match decodeA (word 0) (word 1) with
    | .ok i => some i
    | .error _ => (decodeC (word 0) (word 1) 0#32 0#32).toOption
  else (decodeC (word 0) (word 1) (word 2) (word 3)).toOption

end Sys2Proof
end

