-- ==== Sys2Proof/Machine/Fetch.lean ====
section
/-! DEFINITION. Fetching an instruction of either stream and the conditions under which a slice may issue (R74-R76, R80,
R156, R376, R439, R443, R445). -/

namespace Sys2Proof

/-- Whether a group issues the instruction from one of its streams; the other rows are steps of other agents. -/
def Instr.isIssued (i : Instr) : Bool := i.aForm.isSome || i.cForm.isSome || i.oneParcel.isSome

end Sys2Proof

namespace Sys2Proof.Machine

/-- Whether a path of a group may issue its next parcel, or go on with a trailer that has issued (R320). -/
def State.cReady (s : State) (k p : Nat) : Bool :=
  let g := s.group k
  match g.paths.find p with
  | none => false
  | some x =>
    !g.cstopped && (if x.phase == .awaiting then s.mayIssue k true
      else s.mayIssue k (x.waitc != 0) && x.phase == .issuing && x.held.isNone
        && (x.pass || (s.breakAt k (4 * x.pos) true x.qmask).isNone))

/-- The outcome of a fetch. -/
inductive Fetched where
  | ok (s : State) (i : Instr)
  | bad (f : Flt)
  | wait (s : State)

/-- Read one 32-bit word or parcel of code. -/
def State.codeWord (s : State) (k va : Nat) : RecRead := s.readCode k va 4

/-- Fetch and decode the word at APC, with the literal word of LI32 (R63, R156): both lie in the A-code section. -/
def State.fetchA (s : State) (k : Nat) : Fetched :=
  let r := s.recOf k
  let va := (s.group k).apc.toNat
  if !inRange va 4 r.acode r.asize then .bad fltIllegal
  else
    match s.codeWord k va with
    | .bad f => .bad f
    | .wait s1 => .wait s1
    | .ok s1 bs _ =>
      let w : Word := BitVec.ofNat 32 (ofBytes bs)
      match decodeA w 0#32 with
      | .error _ => .bad fltIllegal
      | .ok (.li32 d _) =>
        if !inRange (va + 4) 4 r.acode r.asize then .bad fltIllegal
        else
          match s1.codeWord k (va + 4) with
          | .bad f => .bad f
          | .wait s2 => .wait s2
          | .ok s2 lit _ => .ok s2 (.li32 d (BitVec.ofNat 32 (ofBytes lit)))
      | .ok i => .ok s1 i

/-- The outcome of reading parcels. -/
inductive Parcels where
  | ok (s : State) (ws : List Word)
  | bad (f : Flt)
  | wait (s : State)

/-- Read `n` consecutive parcels from a byte address. -/
def State.parcels (s : State) (k va : Nat) : Nat → Parcels
  | 0 => .ok s []
  | n + 1 =>
    match s.codeWord k va with
    | .bad f => .bad f
    | .wait s1 => .wait s1
    | .ok s1 bs _ =>
      match s1.parcels k (va + 4) n with
      | .ok s2 ws => .ok s2 (BitVec.ofNat 32 (ofBytes bs) :: ws)
      | r => r

/-- RUN_ENTRY (R74). -/
def fltRunEntry : Flt := { code := 0x03 }

/-- The entry checks of R74 on parcel `j` of a block, the instruction there being `n` parcels long. -/
def entryOk (head : Word) (j n : Nat) : Bool :=
  j != 0 && head.getLsbD (j - 1) && decide (j + n ≤ 32) && (List.range (n - 1)).all (fun i => !head.getLsbD (j + i))

/-- Whether an instruction counts toward the limit of R76: neither a trailer nor NOP. -/
def countsInRun (w : Word) : Bool := decide ((w.extractLsb' 28 4).toNat < 14)

/-- Fetch and decode the instruction at a path's position (R74-R76, R80): the head parcel first, then the entry checks,
then the decoding and the limit of 24. -/
def State.fetchC (s : State) (k : Nat) (p : Path) : Fetched :=
  let r := s.recOf k
  let j := p.pos % 32
  let block := p.pos / 32 * 128
  if !inRange block 128 r.ccode r.csize then .bad fltRunEntry
  else
    match s.parcels k block 1 with
    | .bad f => .bad f
    | .wait s1 => .wait s1
    | .ok s1 hd =>
      let head := hd.headD 0#32
      if head.getLsbD 31 then .bad fltIllegal
      else if j = 0 || !head.getLsbD (j - 1) then .bad fltRunEntry
      else
        match s1.parcels k (4 * p.pos) 1 with
        | .bad f => .bad f
        | .wait s2 => .wait s2
        | .ok s2 ws =>
          let w := ws.headD 0#32
          let n := parcelLength w
          if !entryOk head j n then .bad fltRunEntry
          else
            match s2.parcels k (4 * p.pos + 4) (n - 1) with
            | .bad f => .bad f
            | .wait s3 => .wait s3
            | .ok s3 rest =>
              match decodeC w (rest.getD 0 0#32) (rest.getD 1 0#32) (rest.getD 2 0#32) with
              | .error _ => .bad fltIllegal
              | .ok i => if countsInRun w && 24 ≤ p.icount then .bad fltIllegal else .ok s3 i

end Sys2Proof.Machine
end

