-- ==== Sys2Proof/Machine/Trailer.lean ====
section
/-! DEFINITION. The trailers, NOP, and the steps of a group's own units: taking runs and yield markers, beginning a run,
writes of fixed latency, the end of quads and groups, ageing, and the stop of the slices at the bell (R8, R18, R21-R24,
R77, R78, R121-R123, R190, R261-R267, R309-R318, R325, R376). -/

namespace Sys2Proof.Machine

/-! ## Trailers -/

/-- The tickets that a trailer awaits (R77). -/
def awaited (aw : BitVec 15) : List Nat := ((List.range 15).filter (fun i => aw.getLsbD i)).map (· + 1)

/-- A ticket of a list is PENDING in some quad of a mask. -/
def Group.ticketPending (g : Group) (qmask : Nat) (ks : List Nat) : Bool :=
  (quadSet qmask).any (fun q => ks.any (fun k => (g.quad q).ticket k == 1))

/-- Free tickets (R22). -/
def Group.freeTickets (g : Group) (qmask : Nat) (ks : List Nat) : Group :=
  g.mapQuads qmask (fun _ q => ks.foldl (fun x k => x.setTicket k 0) q)

/-- After a trailer that awaits a ticket of a CWAIT, what the quads issue is ordered after what they have read, and the
address slice before their run (R250, R346). -/
def Group.acquire (g : Group) (qmask : Nat) (ks : List Nat) (pos : Nat) (sole : Bool) : Group :=
  let qs := maskOf 8 (fun q => bitOf qmask q && (g.quad q).acq.any ks.contains)
  if qs = 0 then g
  else
    (g.mapQuads qs (fun _ q => { q with acq := q.acq.filter (fun k => !ks.contains k) })).issueOp
      { id := 0, fc := none, cslice := true, quads := qs, pc := pos, run := g.runOf qs, data := .fence .acq false sole }

/-- A write to a predicate is still to land for the path (R314). -/
def Group.predPending (g : Group) (qmask : Nat) : Bool :=
  g.fx.any (fun w => w.ofPath qmask && (match w.dst with | .pred _ => true | _ => false))

/-- A trailer issues: it counts in CRET, and its issue cycle passes (R310, R376). -/
def Group.passTrl (g : Group) (qmask : Nat) : Group := { g.tick qmask 1 with cret := (g.tick qmask 1).cret + 1, ageC := 0 }

/-- A trailer (R261, R314, R320): it waits at issue for the predicate writes of its run; once it has issued, the path awaits its
tickets, off the scheduler; then they are freed, and `act` says what becomes of the path. One that faults leaves nothing of its
steps, but that it has issued when it had tickets to await (log 98). -/
def trailer (i : Instr) (aw : BitVec 15) (act : Path → State → Except Flt State) (s : State) : Out :=
  let g := s.grp
  let p := s.path
  let pending := g.ticketPending p.qmask (awaited aw)
  let p1 := { p with waitc := 0, pass := false, nodrain := g.active p == 0#32 }
  let issued := !(p.phase == .awaiting)
  if issued && g.predPending p.qmask then s.cWait 0x108
  else if issued && pending then
    .next ((s.setPath { p1 with phase := .awaiting, trail := some i }).setGrp ((s.setPath { p1 with phase := .awaiting, trail := some i }).grp.passTrl p.qmask))
  else if pending then s.idle
  else
    let g1 := (g.freeTickets p.qmask (awaited aw)).acquire p.qmask (awaited aw) p.pos (s.soleIn .team s.cur)
    match act { p1 with trail := none } ((s.setGrp (if issued then g1.passTrl p.qmask else g1)).settle s.cur) with
    | .error f => s.faultC f
    | .ok s1 => .next s1

/-- The quads of a mask pass a trailer other than FALL (R21), until which they have held the label of their run (R119). -/
def Group.passTrailer (g : Group) (qmask : Nat) : Group :=
  g.mapQuads qmask (fun _ q => { q with passed := q.passed + 1, rl := 0#16 })

/-- A path has passed one of the runs that a SKIP counts (R261). -/
def Path.passRun (p : Path) : Path :=
  if p.skipn = 0 then p
  else if p.skipn = 1 then { p with skipn := 0, lmask := p.skipmask }
  else { p with skipn := p.skipn - 1 }

/-- TAKE (R261, R265): the path waits for the next entry of RQ. -/
def execTrlTake (aw : BitVec 15) (s : State) : Out :=
  trailer (.trlTake aw) aw (fun p s1 => .ok ((s1.setGrp (s1.grp.passTrailer p.qmask)).setPath { p.passRun with phase := .take })) s

/-- FALL (R266): the path goes on at the next parcel; its run stays outstanding. -/
def execTrlFall (aw : BitVec 15) (s : State) : Out :=
  trailer (.trlFall aw) aw (fun p s1 => .ok (s1.setPath { p with pos := nextPos p.pos 1, phase := .fall })) s

/-- END (R119, R264): the quads end once no ticket of theirs is PENDING; until then the run stays outstanding (R21, R172). -/
def execTrlEnd (aw : BitVec 15) (s : State) : Out :=
  trailer (.trlEnd aw) aw (fun p s1 =>
    .ok ((s1.setGrp (s1.grp.mapQuads p.qmask (fun _ q => { q with rl := 0#16 }))).setPath { p with phase := .ending })) s

/-- The lowest number that no path-table entry uses. -/
def Group.freePath (g : Group) : Nat := ((List.range 8).find? (fun n => (g.paths.find n).isNone)).getD 8

/-- The split of SKIP (R121, R122, R262). -/
def skipSplit (k : BitVec 3) (n : BitVec 7) (p : Path) (s : State) : Except Flt State :=
  let g := s.grp
  let p1 := p.passRun
  let pk := g.pred k.toNat
  if p1.skipn ≠ 0 then .error fltIllegal
  else
    match pushLabel 8 (s.ceil s.cur) p1.pls ((topLabel p1.pls).join (pk.lbl.join (g.runLabel p.qmask))) p.pos with
    | .error f => .error f
    | .ok st =>
      let act := p1.lmask &&& g.launched &&& pk.mask
      let q1 := maskOf 8 (fun q => bitOf p.qmask q && act &&& quadLanes (2 ^ q) != 0#32)
      let q0 := maskOf 8 (fun q => bitOf p.qmask q && !bitOf q1 q)
      let e : Path := { p1 with phase := .take, skipmask := p1.lmask, skipn := n.toNat, pls := st }
      let on : Path := { e with qmask := q1, lmask := p1.lmask &&& pk.mask }
      let off : Path := { e with qmask := q0, lmask := 0#32 }
      let s1 := s.setGrp (g.passTrailer p.qmask)
      if q1 = 0 then .ok (s1.setPath off)
      else if q0 = 0 then .ok (s1.setPath on)
      else
        let s2 := s1.setPath on
        .ok (s2.setGrp { s2.grp with paths := s2.grp.paths.put g.freePath off })

/-- SKIP (R262). It reads its predicate after its tickets, so it waits at issue while a VDCLS holds it whose ticket it does not
await (R226). -/
def execTrlSkip (aw : BitVec 15) (p : BitVec 3) (n : BitVec 7) (s : State) : Out :=
  let g := s.grp
  let kept := { g with ops := g.ops.filter (fun o => !(awaited aw).contains o.tk) }
  if !(s.path.phase == .awaiting) && kept.held s.path.qmask [.pred p.toNat] then s.cWait 0x106
  else trailer (.trlSkip aw p n) aw (skipSplit p n) s

/-- The merge of REGANG (R123, R263): nothing while a quad is LIVE or none is parked; a fault when the parked quads hold
different ids or different heads of RQ; else one entry with all of them. `key` is the entry's number. -/
def Group.merge (g : Group) (key : Nat) : Except Flt Group :=
  let parked := g.paths.filter (fun e => e.2.phase == .parked)
  let qs := (g.unended).map g.quad
  if parked.isEmpty || g.paths.length ≠ parked.length then .ok g
  else if qs.any (fun q => qs.any (fun r => q.id != r.id || q.rqHead != r.rqHead)) then .error fltIllegal
  else
    let m := parked.foldl (fun a e => a ||| e.2.qmask) 0
    let p : Path :=
      { pos := (g.paths.get Path.none key).pos, qmask := m, lmask := g.launched &&& quadLanes m,
        pls := (mergeStacks (parked.map (fun e => e.2.pls.reverse)) 8).reverse, phase := .take,
        began := (parked.map (fun e => e.2.began)).foldl max 0 }
    .ok { g.mapQuads m (fun _ q => { q with st := .live }) with paths := [(key, p)] }

/-- REGANG (R123, R263): the path pops a label and parks; the last LIVE path to park merges them all. A quad that parks has
passed its run (log 41). -/
def execTrlRegang (aw : BitVec 15) (id : BitVec 10) (s : State) : Out :=
  trailer (.trlRegang aw id) aw (fun p s1 =>
    let p1 := p.passRun
    if p1.skipn ≠ 0 then .error fltIllegal
    else
      let order := (s1.grp.paths.filter (fun e => e.2.phase == .parked)).length
      let s2 := (s1.setGrp ((s1.grp.passTrailer p.qmask).mapQuads p.qmask (fun _ q => { q with st := .parked, id := id.toNat }))).setPath
        { p1 with pls := p1.pls.tail, phase := .parked, icount := order }
      match s2.grp.merge s2.curPath with
      | .error f => .error f
      | .ok g => .ok (s2.setGrp g)) s

/-- NOP (R78, R267, R324): the path moves on; on a path without lanes it takes no issue cycle. -/
def execNop (s : State) : Out :=
  let p := s.path
  let s1 := s.setPath { p with pos := nextPos p.pos 1, waitc := 0, pass := false }
  .next (s1.setGrp ({ s1.grp with cret := s1.grp.cret + 1, ageC := 0 }.tick p.qmask (if s.grp.active p = 0#32 then 0 else 1)))

/-! ## Runs -/

/-- Change the path entry `p` of a group. -/
def Group.setPath (g : Group) (p : Nat) (x : Path) : Group := { g with paths := g.paths.put p x }

/-- The quads of a mask have consumed the entry at their heads of RQ (R18). -/
def Group.takeHead (g : Group) (qmask : Nat) : Group := (g.mapQuads qmask (fun _ q => { q with rqHead := q.rqHead + 1 })).trim

/-- The entry of RQ at the head of the quads of a mask (R18). -/
def Group.rqEntry (g : Group) (qmask : Nat) : Option RQEntry :=
  match quadSet qmask with
  | [] => none
  | q :: _ => g.rq[(g.quad q).rqHead - g.rqBase]?

/-- Every quad that has not ended has taken a yield marker: the group is at its yield point (R190, R265). -/
def Group.allAtMarker (g : Group) : Bool := !g.paths.isEmpty && g.paths.all (fun e => e.2.phase == .marker)

/-- The yield points that a group has reached by the markers its quads stand at or, with every quad ended, those in RQ (R18,
R442). -/
def Group.yields (g : Group) : Nat :=
  if g.unended.isEmpty then g.rq.countP (fun e => match e with | .marker _ => true | _ => false)
  else if g.allAtMarker then 1 else 0

/-- The group's yield point (R190, R384): a team marked pending stops there, otherwise the quads go on to the next
entry. -/
def Group.yieldPoint (g : Group) (pending : Bool) : Group :=
  if !g.allAtMarker then g
  else if pending then { g with atYield := true }
  else { g with paths := g.paths.mapVals (fun _ p => { p with phase := .take }) }

/-- TAKE_ENTRY (R119, R190, R265): the quads of a path take the entry at their head of RQ; a marker has the empty label. -/
def execTakeEntry (k p : Nat) (s : State) : Out :=
  let g := s.group k
  match g.paths.find p with
  | none => s.idle
  | some x =>
    if !(x.phase == .take) || !s.mayIssue k true || g.cstopped then s.idle
    else
      match g.rqEntry x.qmask with
      | none => s.idle
      | some (.run pos rl) =>
        .next ((s.setGroup k (((g.takeHead x.qmask).mapQuads x.qmask (fun _ q => { q with rl := rl })).setPath p
          { x with pos := pos, phase := .fall })).pmGroup k 0x04 1)
      | some (.marker h) =>
        let g1 := ((g.takeHead x.qmask).mapQuads x.qmask (fun _ q => { q with rl := 0#16 })).setPath p { x with phase := .marker }
        let s1 := s.setGroup k ({ g1 with hint := some h }.yieldPoint (s.team (teamOf k)).pending)
        .next (if g1.allAtMarker then s1.pmGroup k 0x0E 1 else s1)

/-- The drain before a path's next run has ended (R309); a trailer that a path without lanes issued has none (R324). -/
def Group.drained (g : Group) (x : Path) : Bool := x.nodrain || !g.fx.any (fun w => w.ofPath x.qmask)

/-- A path waits for its trailer (R442): at issue for predicate writes, for tickets, or, unless it waits at TAKE for an entry, in the
drain (R309). -/
def Group.trailerWait (g : Group) (x : Path) : Bool :=
  match x.phase with
  | .issuing => x.waitc == 0x108
  | .awaiting => true
  | .ending => g.ticketPending x.qmask (List.range 16)
  | .fall => !g.drained x
  | .take => !g.starved x && !g.drained x
  | .marker | .parked => false

/-- The quads of a mask begin a run with run temporaries of zero: what they hold, and what an earlier run has still to write
into them, is gone (R14). Between the trailer and this step they hold what they held (log 91). -/
def Group.freshTemps (g : Group) (qmask : Nat) : Group :=
  let left (w : FxWrite) : Nat := maskOf 8 (fun q => bitOf w.qmask q && !bitOf qmask q)
  let isTemp (w : FxWrite) : Bool := match w.dst with | .reg c => decide (768 ≤ c) | _ => false
  { g with temps := g.temps.filter (fun e => !bitOf qmask (e.1 % 8)),
           fx := (g.fx.map (fun w => if isTemp w then { w with qmask := left w } else w)).filter (fun w => !isTemp w || w.qmask != 0) }

/-- RUN_START (R14, R76, R309, R315, R317, R324): once the writes of earlier runs have landed, the path begins its run and is
its scheduler's current path. Until this step its run temporaries hold what they held (log 91). -/
def execRunStart (k p : Nat) (s : State) : Out :=
  let g := s.group k
  match g.paths.find p with
  | none => s.idle
  | some x =>
    if !(x.phase == .fall) || !g.drained x || !s.mayIssue k false || g.cstopped then s.idle
    else
      .next ((s.setCurrent k p).setGroup k ({ g.freshTemps x.qmask with runSeq := g.runSeq + 1 }.setPath p
        { x with phase := .issuing, icount := 0, waitc := 0, began := g.runSeq + 1 }))

/-- FIXED_LATENCY_WRITE (R311): a cycle passes in which the path issues nothing, and its writes that are due land. A
number that no entry has stands for the quads of no path. -/
def execFixedLatencyWrite (k p : Nat) (s : State) : Out :=
  let g := s.group k
  match g.paths.find p with
  | some x =>
    let stands := !(x.phase == .issuing) || x.waitc != 0 || g.cstopped || (s.team (teamOf k)).bell.isSome || x.held.isSome
      || g.stepStopped || g.stepDrain
    if stands then .next (s.setGroup k (g.tick x.qmask 1)) else s.idle
  | none => .next (s.setGroup k (g.tick (maskOf 8 (fun q => !g.paths.any (fun e => bitOf e.2.qmask q))) 1))

/-! ## Ends -/

/-- The number of the parked path that parked last (R263). -/
def Group.lastParked (g : Group) : Nat :=
  (g.paths.foldl (fun (a : Nat × Nat) e => if e.2.phase == .parked && a.2 ≤ e.2.icount then (e.1, e.2.icount) else a) (0, 0)).1

/-- QUAD_END (R18, R251, R263, R264): a quad past END whose tickets are all complete ends; arrivals and merges that waited
for it alone follow. -/
def execQuadEnd (k q : Nat) (s : State) : Out :=
  let g := s.group k
  match g.paths.find? (fun e => e.2.phase == .ending && bitOf e.2.qmask q) with
  | none => s.idle
  | some (p, x) =>
    if (List.range 16).any (fun t => (g.quad q).ticket t == 1) then s.idle
    else
      let left := maskOf 8 (fun r => bitOf x.qmask r && r != q)
      let g1 := g.mapQuads (2 ^ q) (fun _ y => { y with st := .ended, tickets := [] })
      let g2 := ({ g1 with paths := if left = 0 then g1.paths.del p else g1.paths.put p { x with qmask := left } }.endYield
        (s.team (teamOf k)).pending).trim
      let n := { g2 with rq := g1.rq }.yields
      let s0 := s.setGroup k (g2.yieldPoint (s.team (teamOf k)).pending)
      let s1 := State.carvFlush k g2.carv.length (if n = 0 then s0 else s0.pmGroup k 0x0E n)
      let g3 := s1.group k
      match g3.merge g3.lastParked with
      | .ok g4 => .next (s1.setGroup k g4)
      | .error f =>
        .next (s1.raiseRec k { flt := f, cslice := true, fpos := (g3.paths.get Path.none g3.lastParked).pos, fcycle := s.cycle,
                               fpath := some g3.lastParked })

/-- GROUP_FINISH (R8, R185): the group has finished. -/
def execGroupFinish (k : Nat) (s : State) : Out :=
  let g := s.group k
  if g.halted && g.unended.isEmpty && g.saq.isEmpty && g.sdq.isEmpty && g.fault.isNone && !g.finished
      && (s.team (teamOf k)).state == .resident then
    .next ((s.setGroup k { g with finished := true }).earlyRelease (s.team (teamOf k)).grid)
  else s.idle

/-! ## Ageing and stopping -/

/-- AGE_COUNTER_AGED (R318): an age counter that has reached 512 stands there until its group is chosen. -/
def execAgeCounterAged (k : Nat) (cSlice : Bool) (s : State) : Out :=
  let g := s.group k
  if cSlice then (if 512 ≤ g.ageC then .next (s.setGroup k { g with ageC := 512 }) else s.idle)
  else if 512 ≤ g.ageA then .next (s.setGroup k { g with ageA := 512 })
  else s.idle

/-- Both slices of a group wait at issue, or issue no more. -/
def Group.waiting (g : Group) : Bool :=
  (g.await.isSome || g.halted || g.astopped || g.ra.isSome)
    && (g.cstopped || g.paths.all (fun e => !(e.2.phase == .issuing) || e.2.waitc != 0))

/-- SLICE_STOP (R158, R198, R376): within 48 cycles of the bell both slices of a group stop at an instruction boundary, and
at once when they wait; what waits is abandoned, its wait kept for the record (R332). `skid` counts the cycles from the bell
to the stop, which is not before the last issue; the group of the fault records none. -/
def execSliceStop (k skid : Nat) (s : State) : Out :=
  let g := s.group k
  let t := s.team (teamOf k)
  match t.bell with
  | none => s.idle
  | some c =>
    let least := g.lastIssue - c
    if 48 < skid || s.cycle < c + skid || skid < least || (g.waiting && skid != least) || (g.astopped && g.cstopped)
        || t.state != .resident then s.idle
    else
      let core := s.core t.core
      let g1 := { g with astopped := true, cstopped := true, skid := if g.fault.isSome then 0 else skid }
      .next ((s.setGroup k g1).setCore t.core { core with allocq := core.allocq.filter (· != k) })

end Sys2Proof.Machine
end

