-- ==== Sys2Proof/Machine/Observation.lean ====
section
/-! DEFINITION. The debug block of a core and the host's aperture: trace, counters, breakpoints, steps, debug reads, plain
register writes, and reads and writes through BAR2 (R422, R423, R437, R439-R446). -/

namespace Sys2Proof.Machine

/-! ## The trace unit -/

/-- The writable bits of TRCCTL: CTX, SPER, RETEN, MKEN and EN (R440). -/
def trcctlBits (v : DWord) : DWord := v &&& 0xFFFF00000000F807#64

/-- The whole ring lies under a writable lease (log 107) of an admitted grid of a context (R364, R440). -/
def State.ringLeased (s : State) (ctx base units : Nat) : Bool :=
  decide (1 ≤ units) && decide (units ≤ 65536) && base % 65536 == 0
    && s.grids.any (fun e => e.2.admitted && !e.2.retired && e.2.ctx == ctx && e.2.rec_.declared base (units * 65536) true)

/-- TRCCTL_WRITE (R440): setting EN succeeds only over a leased ring; it starts the unit with TRCSTA clear but for RUN, and
TRCWP and TRCRP as they stand. A unit that is on for the same context stays as it is (log 73). -/
def execTrcctlWrite (core : Nat) (v : DWord) (s : State) : Out :=
  let c := s.core core
  let w := (trcctlBits v).toNat
  let ctx := w / 2 ^ 48
  if !bitOf w 0 then .next (s.setCore core ((c.setReg 0 w).setReg 8 (c.reg 8 / 2 * 2)))
  else if bitOf (c.reg 0) 0 && c.reg 0 / 2 ^ 48 == ctx then .next (s.setCore core (c.setReg 0 w))
  else if s.ringLeased ctx (c.reg 0x10) (c.reg 0x18) then .next (s.setCore core ((c.setReg 0 w).setReg 8 1))
  else .next (s.setCore core ((c.setReg 0 (w - 1)).setReg 8 (c.reg 8 / 2 * 2)))

/-- TRACE_LEASE_BROKEN (R440): the unit stops at a record's end, with LOST set. -/
def execTraceLeaseBroken (core : Nat) (s : State) : Out :=
  let c := s.core core
  if bitOf (c.reg 8) 0 then .next (s.setCore core (c.setReg 8 (c.reg 8 - 1 ||| 2))) else s.idle

/-- The reason of R441 for the state of a group's address slice. -/
def State.sliceReason (s : State) (k : Nat) : Nat :=
  let g := s.group k
  if g.aheld.isSome then 0x1A
  else if g.astopped || (s.team (teamOf k)).bell.isSome then 0x1C
  else if g.halted then 0x1B
  else awaitReason g.sHeld g.await

/-- What the record says of a path that is ready: it issued in the sampled cycle, unless a debug step has stopped its group (R445),
another path was chosen, or it stands in the cycles that a window flip, a scratchpad replay or the transform pipe takes, when an
operation of that kind is under way (R240, R252, R297, R441). -/
def Group.readyReasons (g : Group) (p : Path) : List Nat :=
  let busy (c : FC) : Bool := g.ops.any (fun o => o.cslice && !o.doneq && o.quads &&& p.qmask != 0 && o.fc == some c)
  (if g.stepStopped || g.stepDrain then [] else [32]) ++ [0x11] ++ (if busy .wa then [0x0E] else []) ++ (if busy .sp then [0x0F] else [])
    ++ (if busy .xf then [0x10] else [])

/-- The ISSUED bit and reason of R441 for a path; which of its reasons a path that is ready has in the sampled cycle is free
(log 12). -/
def State.pathReason (s : State) (k : Nat) (p : Path) : Nat :=
  let g := s.group k
  let rs := g.readyReasons p
  let ready := rs.getD (Config.freeChoice s.freeCtr % rs.length) 32
  if p.held.isSome then 0x1A
  else if g.cstopped || (s.team (teamOf k)).bell.isSome then 0x1C
  else match p.phase with
    | .parked => 0x0A
    | .marker => 0x0B
    | .awaiting => 0x07
    | .ending => if g.ticketPending p.qmask (List.range 16) then 0x07 else 0x08
    | .fall => if g.drained p then 0x11 else 0x08
    | .take => if g.starved p then s.sliceReason k else if g.drained p then ready else 0x08
    | .issuing =>
      if p.waitc = 0 then ready
      else if p.waitc = 1 then 0x01
      else if p.waitc = 2 then 0x03
      else if p.waitc = 3 then 0x04
      else if p.waitc = 4 then 0x05
      else p.waitc % 256

/-- The next number after `last` in rotation among those of a list. -/
def nextAfter (last : Nat) (l : List Nat) : Option Nat :=
  match (l.filter (fun n => decide (last < n))).min? with
  | some n => some n
  | none => l.min?

/-- TRACE_SAMPLE (R437, R441): every 2^SPER cycles the next resident group of the traced context on a scheduler, and in it
the next path, is recorded; a group whose quads have all ended has none to record, and the rotation goes on. A labelled path is
masked, and one of a protected context. `sampleAt` holds, for a scheduler, the
last slot sampled plus one; from 4 on, the last path of each of its slots plus one; from 40 on, the cycle of its last sample. -/
def execTraceSample (core sched : Nat) (s : State) : Out :=
  let c := s.core core
  let ctx := c.reg 0 / 2 ^ 48
  let sper := bitsOf (c.reg 0) 11 5
  let here := s.groups.filter (fun e => (s.team (teamOf e.1)).core == core && (s.team (teamOf e.1)).state == .resident
    && e.2.sched == sched && s.ctxOf e.1 == ctx)
  if !bitOf (c.reg 0) 0 || decide (4 ≤ sched) || sper < 8 || 20 < sper || s.cycle < c.sampleAt.get 0 (40 + sched) + 2 ^ sper then s.idle
  else
    match nextAfter (c.sampleAt.get 0 sched) (here.map (fun e => e.2.slot + 1)) with
    | none => s.idle
    | some n =>
      match here.find? (fun e => e.2.slot + 1 == n) with
      | none => s.idle
      | some (k, g) =>
        let key := 4 + 8 * sched + (n - 1)
        let rotated := { c with sampleAt := (c.sampleAt.put sched n).put (40 + sched) s.cycle }
        match nextAfter (c.sampleAt.get 0 key) (g.paths.map (·.1 + 1)) with
        | none => .next (s.setCore core rotated)
        | some m =>
          let p := g.paths.get Path.none (m - 1)
          let t := s.team (teamOf k)
          let mask := !p.pls.isEmpty || !g.apath.isEmpty || (s.ctx ctx).prot
          let z (v : Nat) : Nat := if mask then 0 else v
          let c1 := { rotated with sampleAt := rotated.sampleAt.put key m }
          .next ((s.setCore core c1).traceWrite core
            (traceBytes 1 core (sched + 4 * g.gidx) (m - 1) (s.pathReason k p + (if mask then 64 else 0)) t.teamix
              (z (g.active p).toNat) (z p.pos) (z g.apc.toNat) s.cycle 0))

/-! ## Performance counters -/

/-- PMU_ROTATE (R442): once the active event set has run for 2^ROT µs the next one becomes active; `sampleAt` holds from 44 on
the cycle at which the active set began. -/
def execPmuRotate (core : Nat) (s : State) : Out :=
  let c := s.core core
  if bitOf (c.reg 0x100) 0 && decide (c.sampleAt.get 0 44 + 2 ^ bitsOf (c.reg 0x100) 8 5 * 2700 ≤ s.cycle) then
    .next (s.setCore core { c with pmset := (c.pmset + 1) % (bitsOf (c.reg 0x100) 1 2 + 1), sampleAt := c.sampleAt.put 44 s.cycle })
  else s.idle

/-! ## Breakpoints and steps -/

/-- Release what breakpoint `n` of a core holds: the instruction there then issues without matching again (R443). -/
def State.releaseHold (s : State) (core n : Nat) : State :=
  let free (g : Group) : Group :=
    let a := g.aheld == some n
    { g with aheld := if a then none else g.aheld, apass := g.apass || a,
             paths := g.paths.mapVals (fun _ p => if p.held = some n then { p with held := none, pass := true, waitc := 0 } else p) }
  { s with groups := s.groups.mapVals (fun k g => if (s.team (teamOf k)).core = core then free g else g) }

/-- BKCTL_HREL (R443). -/
def execBkctlHrel (core n : Nat) (s : State) : Out := if s.dbgu then .next (s.releaseHold core n) else s.idle

/-- BREAKPOINT_MATCH (R443): a slice or a path that reaches a breakpoint faults with BREAK, or is held there, before it
issues the instruction. -/
def execBreakpointMatch (k p : Nat) (cSlice : Bool) (s : State) : Out :=
  let g := s.group k
  if cSlice then
    match g.paths.find p with
    | none => s.idle
    | some x =>
      if !(x.phase == .issuing) || x.pass || x.held.isSome || g.cstopped || !s.mayIssue k (x.waitc != 0) then s.idle
      else
        match s.breakAt k (4 * x.pos) true x.qmask with
        | none => s.idle
        | some (n, act) =>
          if act = 2 then .next (s.setGroup k { g with paths := g.paths.put p { x with held := some n, waitc := 0x11A } })
          else .next (s.raiseRec k { flt := { code := 0x11, kcode := 0x100 + n }, cslice := true, fpos := x.pos, fcycle := s.cycle, fpath := some p })
  else if g.apass || g.aheld.isSome || g.astopped || g.halted || g.ra.isSome || !s.mayIssue k g.await.isSome then s.idle
  else
    match s.breakAt k g.apc.toNat false 0 with
    | none => s.idle
    | some (n, act) =>
      if act = 2 then .next (s.setGroup k { g with aheld := some n, await := none })
      else .next (s.raiseRec k { flt := { code := 0x11, kcode := 0x100 + n }, cslice := false, fpos := 0, fcycle := s.cycle })

/-- DBGSTEP_WRITE (R445): one step is armed for the group that the word names on a core, and a group that a step has stopped
goes on. -/
def execDbgstepWrite (core : Nat) (v : DWord) (s : State) : Out :=
  let w := v.toNat
  let here (k : Nat) (g : Group) : Bool :=
    let t := s.team (teamOf k)
    t.core == core && t.state == .resident && t.teamix == w / 2 ^ 32 && g.gidx == bitsOf w 27 5 && s.debugOn k
  if !s.dbgu then s.idle
  else
    let c := s.core core
    let resumes := s.groups.any (fun e => here e.1 e.2 && e.2.stepStopped)
    let c1 := c.setReg 0x300 (v &&& 0xFFFFFFFFFFF80003#64).toNat
    let s1 := s.setCore core (if resumes then c1.setReg 0x308 0 else c1)
    .next { s1 with groups := s1.groups.mapVals (fun k g => if here k g then { g with stepArmed := some v, stepStopped := false } else g) }

/-- STEP_STOP (R445): once the armed step has been made, and with DRAIN once every flight counter is 0 and no register is
held under R226, the group faults with STEP, or stops. -/
def execStepStop (k : Nat) (s : State) : Out :=
  let g := s.group k
  match g.stepArmed with
  | none => s.idle
  | some v =>
    let w := v.toNat
    let drained := !bitOf w 0 || ([FC.ld, .gx, .st, .sp, .po, .mx, .cl, .xf, .wa].all (fun c => g.fcv c == 0)
      && g.ops.all (fun o => o.doneq || o.dsts.isEmpty))
    if !g.stepDrain || !drained then s.idle
    else
      let g1 := { g with stepArmed := none, stepDrain := false }
      let m := bitsOf w 19 8
      if bitOf w 1 then
        let x := g.paths.find? (fun e => e.2.qmask &&& m != 0)
        .next ((s.setGroup k g1).raiseRec k { flt := { code := 0x12 }, cslice := m != 0, fpos := (x.map (·.2.pos)).getD 0, fcycle := s.cycle,
                                              fpath := if m = 0 then none else x.map (·.1) })
      else
        let core := (s.team (teamOf k)).core
        .next ((s.setGroup k { g1 with stepStopped := true }).setCore core ((s.core core).setReg 0x308 1))

/-! ## Debug reads -/

/-- A write that has issued and has still to reach a vector register (R226, R446). -/
def Group.regInFlight (g : Group) (n : Nat) : Bool := g.ops.any (fun o => !o.doneq && o.dsts.contains (.reg n))

/-- An accepted pitch entry or lane store has still to write an accumulator bank of a team (R446). -/
def State.bankInFlight (s : State) (t b : Nat) : Bool :=
  (s.team t).pitches.any (fun p => p.2.queue.any (fun e =>
      (match e.work with | .cvt .. => false | _ => true) && e.caddr / 131072 == b))
    || s.groups.any (fun e => teamOf e.1 == t && e.2.ops.any (fun o => o.accs.any (fun a =>
      !a.done && a.space == .acc && !(a.kind == .load) && a.pa / 131072 == b)))

/-- DEBUG_READ (R437, R446): the current contents of a register, or of the accumulator word at an offset, and whether a
write to it is under way. -/
def execDebugRead (k : Nat) (w : DebugTarget) (s : State) : Out :=
  let g := s.group k
  let t := teamOf k
  let x := s.team t
  if !s.debugOn k || !(x.state == .resident) then s.idle
  else
    match w with
    | .vreg n => if n < g.nvregs then .next { s with debugReply := some ((g.vregs.get {} n).lanes, g.regInFlight n) } else s.idle
    | .accWord off =>
      if x.banks.getLsbD (off / 131072) then
        .next { s with debugReply := some ([x.acc.get 0#32 (off / 4)], s.bankInFlight t (off / 131072)) }
      else s.idle

/-! ## Plain registers -/

/-- What a write to BKCTLn leaves there: reserved bits and HREL read zero, and ACT = 11 is ignored (R443). -/
def bkctlAfter (old v : DWord) : DWord :=
  let w := v &&& 0xFFFFFFFFFFF800F0#64
  if bitsOf w.toNat 5 2 = 3 then (w &&& 0xFFFFFFFFFFFFFF9F#64) ||| (old &&& 0x60#64) else w

/-- REGISTER_WRITE (R439-R444): registers of the debug block that only hold what is written. The reserved bits of PMCTL and
BKCTLn keep zero; breakpoint and watchpoint registers are written only after an unlock; registers that the device writes,
and TRCCTL and DBGSTEP, which have steps of their own, are not written here. -/
def execRegisterWrite (core off : Nat) (v : DWord) (s : State) : Out :=
  let c := s.core core
  let put (w : DWord) : State := s.setCore core { c with regs := c.regs.set 0#64 off w }
  if off = 0x10 || off = 0x18 || off = 0x28 then .next (put v)
  else if off = 0x100 then
    let w := v &&& 0xFFFF000000001F07#64
    let starts := w.getLsbD 0 && !bitOf (c.reg 0x100) 0
    .next (s.setCore core { c with regs := c.regs.set 0#64 off w, sampleAt := if starts then c.sampleAt.put 44 s.cycle else c.sampleAt })
  else if [0x108, 0x110, 0x118, 0x120].contains off then .next (put v)
  else if !s.dbgu then s.idle
  else if [0x200, 0x210, 0x220, 0x230].contains off then
    let s1 := put (bkctlAfter (c.regs.get 0#64 off) v)
    .next (if v.getLsbD 3 then s1.releaseHold core ((off - 0x200) / 16) else s1)
  else if [0x208, 0x218, 0x228, 0x238].contains off then .next (put (v &&& 0x7FFFFFFFFFFFFF#64))
  else if [0x280, 0x290].contains off then .next (put (v &&& 0xFFFFFFFF00000003#64))
  else if [0x288, 0x298].contains off then .next (put (v &&& 0x7FFFFFFFFFFFFF#64))
  else s.idle

/-! ## The host's aperture -/

/-- Whether a range of the 64 GiB aperture lies in HBM at the position the driver gave it (R422). -/
def State.bar2Ok (s : State) (a n : Nat) : Bool := decide (0 < n) && decide (a + n ≤ 2 ^ 36) && isHbm (s.bar2 + a + n - 1)

/-- HOST_BAR2_READ (R423): the bytes, those of a labelled granule as ones and logged for the driver. -/
def execHostBar2Read (a n : Nat) (s : State) : Out :=
  if !s.bar2Ok a n then s.idle
  else
    let la := s.bar2 + a
    let bs := (List.range n).map (fun i => if s.labelAt (la + i) = 0#16 then Tab.get Memory.blank s.mem (la + i) else 0xFF#8)
    let logged := ((List.range ((la + n - 1) / 256 - la / 256 + 1)).map (fun i => (la / 256 + i) * 256)).filter (fun g => s.labelAt g != 0#16)
    .next { s with hostData := bs, log := s.log ++ logged.map (fun g => (0x423, g)) }

/-- Write bytes line by line, a line that is stored compressed through its base die; `none` when one must wait (R356, R357). -/
def State.writeLines (s : State) (la : Nat) (bs : List Byte) : Option State :=
  (List.range ((la + bs.length - 1) / 128 - la / 128 + 1)).foldl (fun (a : Option State) i =>
    let lo := max la ((la / 128 + i) * 128)
    let hi := min (la + bs.length) ((la / 128 + i + 1) * 128)
    a.bind (fun x => x.writeLine lo ((bs.drop (lo - la)).take (hi - lo)) (x.lines.find (la / 128 + i)).isSome)) (some s)

/-- HOST_BAR2_WRITE (R127, R423): a message with the empty label, which every granule takes. -/
def execHostBar2Write (a : Nat) (bytes : List Byte) (s : State) : Out :=
  if !s.bar2Ok a bytes.length then s.idle
  else
    match s.writeLines (s.bar2 + a) bytes with
    | none => s.idle
    | some s1 => .next s1

end Sys2Proof.Machine
end

