-- ==== Sys2Proof/Machine/Placement.lean ====
section
/-! DEFINITION. The distributor: admission, placement, the order of R367, the choice of teams to pre-empt, and the limits of
R370 (R144, R147, R364-R371, R378). -/

namespace Sys2Proof.Machine

/-! ## Room on a core -/

/-- What a team needs of a core (R368, R390). -/
structure Need where
  gcount : Nat
  vregs : Nat
  sp : Nat
  wb : Nat
  pitches : Nat
  banks : DWord
deriving DecidableEq, Repr

/-- What a team of a grid needs, with the banks it holds. -/
def Launch.need (r : Launch) (banks : DWord) : Need :=
  { gcount := r.gcount, vregs := r.gcount * r.vregs, sp := r.spsize, wb := r.wres * 4096, pitches := r.pitches, banks := banks }

/-- The resident teams of a core, but those of a list. -/
def State.residents (s : State) (core : Nat) (gone : List Nat) : List Nat :=
  (s.teams.filter (fun e => e.2.state == .resident && e.2.core == core && !gone.contains e.1)).map (·.1)

/-- The room of a core that is taken: by resident teams but those of `gone`, and by what is held for another than `w`. -/
def State.roomsTaken (s : State) (core w : Nat) (gone : List Nat) : List Room :=
  (s.residents core gone).map s.roomOf ++ (s.holds.filter (fun h => h.core == core && h.w != w)).map (·.room)

/-- The bases at which a span of `n` bytes fits between taken spans: 0, and the ends of spans. -/
def spanBases (used : List (Nat × Nat)) (n cap : Nat) : List Nat :=
  let live := used.filter (fun u => u.2 != 0)
  ((0 :: live.map (fun u => u.1 + u.2)).eraseDups).filter (fun b =>
    decide (b + n ≤ cap) && (n == 0 || live.all (fun u => decide (b + n ≤ u.1) || decide (u.1 + u.2 ≤ b))))

/-- Slots of a scheduler that are taken. -/
def slotsTaken (rs : List Room) (sched : Nat) : List Nat := (rs.flatMap (·.slots)).filterMap (fun x => if x.1 = sched then some x.2 else none)

/-- Groups of a team that go on a scheduler (R368). -/
def schedNeed (gcount sched : Nat) : Nat := (List.range gcount).countP (fun g => g % 4 == sched)

/-- Whether a team fits on a core (R368, R371, R390). -/
def State.fits (s : State) (core w : Nat) (gone : List Nat) (n : Need) : Bool :=
  let rs := s.roomsTaken core w gone
  let banks := (s.residents core gone).foldl (fun m t => m ||| (s.team t).banks) 0#64
  [0, 1, 2, 3].all (fun d => decide ((slotsTaken rs d).length + schedNeed n.gcount d ≤ 8))
    && decide (rs.foldl (fun a r => a + r.vregs) 0 + n.vregs ≤ Config.coreVregs)
    && !(spanBases (rs.map (·.sp)) n.sp Config.scratchBytes).isEmpty
    && !(spanBases (rs.map (·.wb)) n.wb (Config.weightUnits * 4096)).isEmpty
    && decide ((rs.flatMap (·.pitches)).length + n.pitches ≤ 2) && n.banks &&& banks == 0#64

/-- The rectangles of CW × CH cores within a die, in the order of R369: the smallest row, then column, then die. -/
def rectangles (cw ch : Nat) : List (List Nat) :=
  (List.range (10 - ch)).flatMap (fun row => (List.range (9 - cw)).flatMap (fun col => [0, 1].map (fun die =>
    (List.range (cw * ch)).map (fun i => die * 72 + (row + i / cw) * 8 + col + i % cw))))

/-! ## What waits -/

/-- A unit that waits to be placed: a saved team, or the next team or cluster of a grid; named as in `Hold`. -/
inductive Waiting where
  | saved (t : Nat)
  | next (gr : Nat)
deriving DecidableEq, Repr

/-- The name of a unit in `Hold`. -/
def Waiting.code : Waiting → Nat
  | .saved t => 2 * t
  | .next gr => 2 * gr + 1

/-- A grid has a team that has not started and may be placed (R365, R367). -/
def Grid.hasNext (x : Grid) : Bool := x.admitted && !x.gend && !x.retired && decide (x.nextTeam < x.rec_.n)

/-- Whether a unit waits. -/
def State.isWaiting (s : State) : Waiting → Bool
  | .saved t => (s.team t).state == .saved && !(s.grid (s.team t).grid).gend
  | .next gr => (s.grid gr).hasNext

/-- Every unit that waits. -/
def State.waiting (s : State) : List Waiting :=
  ((s.teams.map (fun e => Waiting.saved e.1)) ++ (s.grids.map (fun e => Waiting.next e.1))).filter s.isWaiting

/-- The effective class of a unit (R367). -/
def State.effClass (s : State) : Waiting → Nat
  | .saved t => if (s.team t).aged then 3 else (s.grid (s.team t).grid).rec_.prio
  | .next gr => (s.grid gr).rec_.prio

/-- What a unit needs of each core. -/
def State.unitNeed (s : State) : Waiting → Need
  | .saved t => (s.grid (s.team t).grid).rec_.need (s.team t).banks
  | .next gr => (s.grid gr).rec_.need 0#64

/-- The shape of the rectangle that a unit takes; a saved team resumes alone (R390). -/
def State.unitShape (s : State) : Waiting → Nat × Nat
  | .saved _ => (1, 1)
  | .next gr => ((s.grid gr).rec_.cw, (s.grid gr).rec_.ch)

/-- Enough context blocks are free (R378). -/
def State.unitBlocks (s : State) : Waiting → Bool
  | .saved _ => true
  | .next gr => let x := s.grid gr; decide (x.blocks.length + x.rec_.cw * x.rec_.ch ≤ x.rec_.ctxn)

/-- The cores on which a unit is placed: the first rectangle on each of whose cores it fits (R369). -/
def State.placeFor (s : State) (u : Waiting) : Option (List Nat) :=
  let sh := s.unitShape u
  if !s.unitBlocks u then none else (rectangles sh.1 sh.2).find? (fun cs => cs.all (fun c => s.fits c u.code [] (s.unitNeed u)))

/-- Whether teams have been marked for a unit (R371). -/
def State.isHeld (s : State) (u : Waiting) : Bool :=
  s.holds.any (fun h => h.w == u.code) || s.teams.any (fun e => e.2.holdFor == some u.code)

/-- The place of a unit in the order of R367, smaller first: room held for it, saved, class, then time. -/
def State.rank (s : State) (u : Waiting) : List Nat :=
  [if s.isHeld u then 0 else 1, match u with | .saved _ => 0 | .next _ => 1, 3 - s.effClass u,
   match u with | .saved t => (s.team t).savedAt | .next gr => (s.grid gr).order]

/-- Comparison of ranks. -/
def rankLt : List Nat → List Nat → Bool
  | a :: as, b :: bs => decide (a < b) || (a == b && rankLt as bs)
  | _, _ => false

/-- No unit that comes first in the order could be placed (R367). -/
def State.isNext (s : State) (u : Waiting) : Bool :=
  s.waiting.all (fun v => !rankLt (s.rank v) (s.rank u) || (s.placeFor v).isNone)

/-! ## Admission -/

/-- Whether `npg` pages from a base on are resident (R365): mapped to populated storage, or to memory shared with the host
(R366). -/
def State.pagesIn (s : State) (ctx base npg : Nat) : Bool :=
  (List.range npg).all (fun i => (s.translate ctx (base + i * 65536) false).isSome)

/-- Every leased page of a grid is resident (R364, R365). -/
def State.leasesIn (s : State) (x : Grid) : Bool :=
  let r := x.rec_
  let span (a n : Nat) : Bool := s.pagesIn x.ctx (a / 65536 * 65536) ((a + n - 1) / 65536 - a / 65536 + 1)
  r.leases.all (fun l => s.pagesIn x.ctx (l.base * 65536) l.npg) && span r.acode r.asize && span r.ccode r.csize && span r.kbank 16384
    && s.pagesIn x.ctx r.ctxarea (r.ctxn * r.ctxsz)

/-- The union of the labels of the granules of a constant-bank image (R144), of another device's as its sectors came with;
those of a fenced device are free (log 17). -/
def State.kbankLabel (s : State) (x : Grid) : Label :=
  Label.joinAll ((List.range 65).map (fun i =>
    match s.translate x.ctx (x.rec_.kbank + min (256 * i) 16383) false with
    | some y =>
      if devOf (s.loadPa y) = s.devn then s.labelAt (localOf (s.loadPa y))
      else
        match s.ownReads.find (ownKey x.ctx (s.loadPa y / 32)) with
        | some e => e.2
        | none => BitVec.ofNat 16 (ofBytes [Config.freeByte s.freeCtr (2 * i), Config.freeByte s.freeCtr (2 * i + 1)])
    | none => 0#16))

/-- What the distributor reads as it admits a grid (R144, R147): code sections and constant-bank image. -/
def Launch.admitSpans (r : Launch) : List (Nat × Nat) := [(r.acode, r.asize), (r.ccode, r.csize), (r.kbank, 16384)]

/-- GRID_ADMIT (R144, R147, R365): once every leased page is resident, and sections that other devices hold have been read, the
kernel hash is computed; a labelled constant bank ends the grid before any team starts. -/
def execGridAdmit (gr : Nat) (s : State) : Out :=
  let x := s.grid gr
  let r := x.rec_
  if x.admitted || x.retired || x.gend || !s.leasesIn x then s.idle
  else
    s.withOwn x.ctx r.admitSpans (fun s =>
      let y := { x with admitted := true, admittedAt := s.admissions,
                        hash := Config.sha512 (s.deviceRead x.ctx r.acode r.asize ++ s.deviceRead x.ctx r.ccode r.csize) }
      let s1 : State := { s with admissions := s.admissions + 1 }
      if s.kbankLabel x = 0#16 then .next (s1.setGrid gr y)
      else .next ((s1.setGrid gr { y with code := 0x05, gend := true }).earlyRelease gr))

/-! ## Placing -/

/-- A free choice from a list (log 12). -/
def State.choose (s : State) (l : List Nat) : Nat :=
  match l with
  | [] => 0
  | [a] => a
  | _ => l.getD (Config.freeChoice s.freeCtr % l.length) 0

/-- The smallest number that a list does not hold. -/
def lowestFree (used : List Nat) : Nat := ((List.range (used.length + 1)).find? (fun i => !used.contains i)).getD 0

/-- The slots of the groups of a team, in order: group g on scheduler g mod 4, in its lowest free slot (R368). -/
def slotsFor (rs : List Room) (gcount : Nat) : List (Nat × Nat) :=
  (List.range gcount).foldl (fun a g =>
    a ++ [(g % 4, lowestFree (slotsTaken rs (g % 4) ++ (a.filter (fun x => x.1 == g % 4)).map (·.2)))]) []

/-- Raise every granule of a context block to CLR (R143, R378). -/
def State.labelBlock (s : State) (ctx base pages : Nat) (clr : Label) : State :=
  if clr = 0#16 then s
  else
    (List.range (pages * 256)).foldl (fun a i =>
      match a.translate ctx (base + 256 * i) true with
      | some y =>
        if devOf y.pa = a.devn then a.raiseLabel (localOf y.pa) clr
        else a.deviceRaise ctx ((base + 256 * i) / 65536) (devOf y.pa) (localOf y.pa) clr
      | none => a) s

/-- The fields of a team header (R379). -/
def Team.header (t : Team) (fmask : Nat) : List Byte :=
  let f := t.first.getD (0, 0, 0)
  bytesOf t.state.code 1 ++ bytesOf 0 1 ++ bytesOf f.2.2 1 ++ bytesOf f.2.1 1 ++ bytesOf t.teamix 4 ++ bytesOf fmask 4
    ++ bytesOf t.core 2 ++ bytesOf (min t.nsave 0xFFFF) 2 ++ bytesOf t.savedAt 8 ++ List.replicate 1000 0#8

/-- A group as it is launched (R6, R8, R11, R23, R24, R33); the position of its first path is zero before its first TAKE
(log 32). -/
def launchGroup (r : Launch) (g : Nat) (slot : Nat × Nat) : Group :=
  let lanes := if g + 1 = r.gcount then r.lanes else 32
  let mask := maskOf 8 (fun q => decide (4 * q < lanes))
  { gidx := g, lanes := lanes, nvregs := r.vregs, role := r.role g, sched := slot.1, slot := slot.2, apc := BitVec.ofNat 64 r.acode,
    quads := (List.range 8).map (fun q => { st := if 4 * q < lanes then .live else .ended }),
    paths := [(0, { pos := 0, qmask := mask, lmask := BitVec.ofNat 32 (2 ^ lanes - 1) })] }

/-- The room that a team gets on a core: slots, spans and first pitch (R368; log 26 for both spans). -/
def State.roomFor (s : State) (core w : Nat) (n : Need) : Room :=
  let rs := s.roomsTaken core w []
  { slots := slotsFor rs n.gcount, vregs := n.vregs, sp := ((spanBases (rs.map (·.sp)) n.sp Config.scratchBytes).headD 0, n.sp),
    wb := (s.choose (spanBases (rs.map (·.wb)) n.wb (Config.weightUnits * 4096)), n.wb),
    pitches := [lowestFree (rs.flatMap (·.pitches))] }

/-- The groups of a team take their slots. -/
def State.placeGroups (s : State) (t : Nat) (slots : List (Nat × Nat)) (f : Nat → Nat × Nat → Group) : State :=
  { s with groups := slots.zipIdx.foldl (fun gs x => gs.put (32 * t + x.2) (f x.2 x.1)) s.groups }

/-- Start the next team of a grid on a core (R11, R29, R33, R116, R368, R378). -/
def State.startTeam (s : State) (gr core : Nat) : State :=
  let x := s.grid gr
  let r := x.rec_
  let t := s.teams.length
  let room := s.roomFor core (2 * gr + 1) (r.need 0#64)
  let block := s.choose ((List.range r.ctxn).filter (fun b => !x.blocks.contains b))
  let tm : Team :=
    { grid := gr, teamix := x.nextTeam, state := .resident, core := core, admitted := s.admissions, block := some block,
      spBase := room.sp.1, wBase := room.wb.1, pitch0 := room.pitches.headD 0,
      pitches := (List.range r.pitches).map (fun p => (p, {})) }
  let s1 := (State.setTeam { s with admissions := s.admissions + 1 } t tm).setGrid gr
    { x with nextTeam := x.nextTeam + 1, blocks := x.blocks ++ [block] }
  let s2 := s1.placeGroups t room.slots (launchGroup r)
  let s3 := s2.labelBlock x.ctx (s2.blockAddr t) r.ctxsz r.clr
  s3.blockWrite t 0 (tm.header 0)

/-- TEAM_PLACE (R367-R369, R371, R378): the next team or cluster of a grid, when it is the first of the order that can be
placed. -/
def execTeamPlace (gr : Nat) (s : State) : Out :=
  let u := Waiting.next gr
  if !s.isWaiting u || !s.isNext u then s.idle
  else
    match s.placeFor u with
    | none => s.idle
    | some cs => .next ((cs.foldl (fun a c => a.startTeam gr c) s).dropHolds u.code)

/-! ## Pre-emption -/

/-- Put a team into a list, lowest class first and youngest admitted first (R371). -/
def State.insertVictim (s : State) (t : Nat) : List Nat → List Nat
  | [] => [t]
  | u :: us =>
    let c (x : Nat) : Nat := (s.grid (s.team x).grid).rec_.prio
    if c t < c u ∨ (c t = c u ∧ (s.team u).admitted < (s.team t).admitted) then t :: u :: us else u :: s.insertVictim t us

/-- The resident teams of a core that may be pre-empted for class `c`, in the order in which they are taken (R370, R371). -/
def State.victims (s : State) (core c : Nat) : List Nat :=
  ((s.residents core []).filter (fun t =>
    let x := s.team t
    decide ((s.grid x.grid).rec_.prio < c) && !x.resumed && !x.pending)).foldr s.insertVictim []

/-- Take teams from a list until the unit fits once they are gone; nothing when the whole list does not suffice. -/
def State.takeVictims (s : State) (core w : Nat) (n : Need) (gone : List Nat) : List Nat → Option (List Nat)
  | [] => if s.fits core w gone n then some [] else none
  | t :: ts => if s.fits core w gone n then some [] else (s.takeVictims core w n (gone ++ [t]) ts).map (t :: ·)

/-- The teams that a rectangle of cores costs (R371). -/
def State.rectVictims (s : State) (u : Waiting) : List Nat → Option (List Nat)
  | [] => some []
  | c :: cs =>
    let pend := (s.residents c []).filter (fun t => (s.team t).pending)
    match s.takeVictims c u.code (s.unitNeed u) pend (s.victims c (s.effClass u)), s.rectVictims u cs with
    | some a, some b => some (a ++ b)
    | _, _ => none

/-- The cheapest candidate: the fewest teams taken, the first of equal ones (R371). -/
def State.cheapest (s : State) (u : Waiting) : Option (List Nat) :=
  let sh := s.unitShape u
  (rectangles sh.1 sh.2).foldl (fun a cs =>
    match a, s.rectVictims u cs with
    | none, v => v
    | some b, some v => if v.length < b.length then some v else some b
    | some b, none => some b) none

/-- The first unit of a grid in the order of R367 that cannot be placed and for which no team has been marked. -/
def State.needsRoom (s : State) (gr : Nat) : Option Waiting :=
  let mine := s.waiting.filter (fun u => match u with | .saved t => (s.team t).grid == gr | .next n => n == gr)
  (mine.filter (fun u => !s.isHeld u && s.unitBlocks u && (s.placeFor u).isNone)).foldl (fun (a : Option Waiting) u =>
    match a with
    | none => some u
    | some b => if rankLt (s.rank u) (s.rank b) then some u else some b) none

/-- PREEMPT_MARK (R370, R371): the teams of the cheapest candidate are marked pending. -/
def execPreemptMark (gr : Nat) (s : State) : Out :=
  match s.needsRoom gr with
  | none => s.idle
  | some u =>
    match s.cheapest u with
    | none => s.idle
    | some vs =>
      .next { s with teams := s.teams.mapVals (fun t x =>
        if vs.contains t then { x with pending := true, marked := s.cycle, holdFor := some u.code } else x) }

/-- 100 ms and 10 ms in cycles (R367, R370). -/
def agedCycles : Nat := 270000000
def residentCycles : Nat := 27000000

/-- SAVED_TEAM_AGED (R367): a saved team that has waited 100 ms counts as class 3. -/
def execSavedTeamAged (t : Nat) (s : State) : Out :=
  let x := s.team t
  if x.state == .saved && decide (x.savedAt + agedCycles ≤ s.cycle) then .next (s.setTeam t { x with aged := true }) else s.idle

/-- RESUMED_RESIDENCY_10MS (R370): a resumed team may be pre-empted again. -/
def execResumedResidency10ms (t : Nat) (s : State) : Out :=
  let x := s.team t
  if x.state == .resident && x.resumed && decide (x.resumedAt + residentCycles ≤ s.cycle) then .next (s.setTeam t { x with resumed := false })
  else s.idle

end Sys2Proof.Machine
end

