-- ==== Sys2Proof/Machine/Image.lean ====
section
/-! DEFINITION. The image of a saved team (R388): the bytes of every part. The manual gives the place and size of each part;
the order of the fields inside a part is the model's (log 11). Bytes that no field takes are left as they stand. -/

namespace Sys2Proof.Machine

/-- The bytes of a list of labels. -/
def labelBytes (ls : List Label) : List Byte := ls.flatMap (fun l => bytesOf l.toNat 2)

/-- The bytes of a list of lane words. -/
def wordBytes (ws : List Word) : List Byte := ws.flatMap (fun w => bytesOf w.toNat 4)

/-- A flag in a field. -/
def flagBit (b : Bool) (n : Nat) : Nat := if b then n else 0

/-- Exactly `n` bytes: cut, or filled up with zeros. -/
def padTo (n : Nat) (bs : List Byte) : List Byte := bs.take n ++ List.replicate (n - bs.length) 0#8

/-! ## Team state -/

/-- A handle descriptor of 256 bytes: bound flag, operator, type, rounding mode, W, first bank, number of banks, control label
and flip cycles, then the counts of both stacks and the flips of every lane (R29, R296, R308). -/
def WHandle.image (h : WHandle) : List Byte :=
  bytesOf 1 1 ++ bytesOf h.op 1 ++ bytesOf h.ty.code 1 ++ bytesOf h.rm.code.toNat 1 ++ bytesOf h.w 2 ++ bytesOf h.bank 1 ++ bytesOf h.nb 1
    ++ bytesOf h.hc.toNat 2 ++ bytesOf 0 2 ++ bytesOf h.stall 4
    ++ (List.range 32).flatMap (fun l => let x := h.lanes.get {} l; bytesOf (x.front.length + 4096 * x.back.length) 3)
    ++ (List.range 32).flatMap (fun l => bytesOf (h.lanes.get {} l).flips 4)

/-- A reservation descriptor of 32 bytes (R178). -/
def Resv.image (r : Resv) : List Byte :=
  bytesOf 1 1 ++ bytesOf r.fmt.code 1 ++ bytesOf r.grp 1 ++ bytesOf r.sfmt 1 ++ bytesOf r.size 4 ++ bytesOf r.scoff 4 ++ bytesOf r.zpoff 4
    ++ bytesOf r.off 4 ++ bytesOf r.lbl.toNat 2

/-- A pitch's status: SATURATED, whether a PITCH fault has stopped it, the status label, and the descriptor of its latch
(R272, R277, R291). -/
def Pitch.image (p : Pitch) : List Byte :=
  bytesOf (flagBit p.saturated 1 + flagBit p.stopped 2 + flagBit p.latch.isSome 4) 1 ++ bytesOf 0 1 ++ bytesOf p.slbl.toNat 2
    ++ (match p.latch with
        | some l => bytesOf l.t.code 1 ++ bytesOf 0 1 ++ bytesOf l.abase 2 ++ bytesOf l.inc 2 ++ bytesOf l.n 2 ++ bytesOf l.lbl.toNat 2
                      ++ bytesOf (maskOf 128 (fun i => l.bad.contains i)) 16
        | none => [])

/-- The data of a pitch's latch: 16 KiB (R277). -/
def Pitch.latchImage (p : Pitch) : List Byte :=
  padTo 16384 (match p.latch with | some l => l.data.flatMap wordBytes | none => [])

/-! ## Banks -/

/-- The elements of a lane of a handle, the next to expire first, and its running aggregate (R296). -/
def WLane.elems (l : WLane) : List (Word × Word × Label) := l.front ++ l.back.reverse

/-- The word and its label that stand at a word of the `j`-th bank bound to a handle: 1024 words for each lane, the lower half
elements, then, in the first bank, the running aggregate. -/
def WHandle.bankWord (h : WHandle) (j i : Nat) : Word × Label :=
  let l := h.lanes.get {} (i / 1024)
  let n := i % 1024
  let per := if 7 ≤ h.op then 2 else 1
  let pick (e : Option (Word × Word × Label)) (k : Nat) : Word × Label :=
    match e with
    | some x => (if k = 0 then x.1 else x.2.1, x.2.2)
    | none => (0#32, 0#16)
  if n < 512 then pick (l.elems[(512 * j + n) / per]?) (n % per)
  else if j = 0 && decide (n < 514) then pick l.agg (n - 512)
  else (0#32, 0#16)

/-- The slot of a held bank: contents, and of a window-bound bank the element labels. -/
def Team.bankImage (t : Team) (b : Nat) : List Byte :=
  match t.whand.find? (fun h => decide (h.2.bank ≤ b) && decide (b < h.2.bank + h.2.nb)) with
  | some h =>
    let ws := (List.range 32768).map (h.2.bankWord (b - h.2.bank))
    wordBytes (ws.map (·.1)) ++ labelBytes (ws.map (·.2))
  | none => wordBytes ((List.range 32768).map (fun i => t.acc.get 0#32 (32768 * b + i)))

/-- The contents of a team's reservations in handle order, each region's bytes one after another (R178, R388). -/
def Team.resvImage (t : Team) : List Byte :=
  (List.range 16).flatMap (fun h => match t.resv.find h with
    | some r => (List.range r.size).map (fun i => t.wmem.get 0#8 (r.off + i))
    | none => [])

/-- The parts of the team state: offset and bytes. `drop` leaves out the reservation contents. -/
def Team.imageParts (t : Team) (spsize wres : Nat) (drop : Bool) : List (Nat × List Byte) :=
  let handle (h : Nat) : List Byte := match t.whand.find h with | some x => padTo 256 x.image | none => List.replicate 256 0#8
  let resv (h : Nat) : List Byte := match t.resv.find h with | some x => padTo 32 x.image | none => List.replicate 32 0#8
  [(0, (List.range 8).flatMap handle ++ (List.range 16).flatMap resv ++ bytesOf t.banks.toNat 8
        ++ labelBytes ((List.range 64).map (fun b => t.bankLbl.get 0#16 b))),
   (0xB00, padTo 32 (t.pitches.get {} 0).image ++ padTo 32 (t.pitches.get {} 1).image ++ bytesOf t.wseq 8),
   (0x1000, (t.pitches.get {} 0).latchImage ++ (t.pitches.get {} 1).latchImage),
   (0x9000, labelBytes ((List.range ((spsize + 255) / 256)).map (fun i => t.spLbl.get 0#16 i))),
   (0xB000, (List.range ((spsize + 127) / 128)).map (fun i => BitVec.ofNat 8 (maskOf 8 (fun j => t.spMark.get false (8 * i + j)))))]
    ++ (if drop then [] else [(0x10000, padTo (wres * 4096) t.resvImage)])

/-! ## Group state -/

/-- A quad's state: state, run label, tickets, REGANG id, and its heads of RQ and the load queues and its counts of STDs, CARVs
and trailers, from the first entry of each that is held. -/
def Group.quadImage (g : Group) (q : Quad) : List Byte :=
  let st : Nat := match q.st with | .live => 0 | .parked => 1 | .ended => 2
  bytesOf st 1 ++ bytesOf q.id 2 ++ bytesOf q.rl.toNat 2
    ++ bytesOf ((List.range 16).foldl (fun a t => a + q.tickets.get 0 t * 4 ^ t) 0) 4
    ++ bytesOf (maskOf 16 (fun t => q.acq.contains t)) 2 ++ bytesOf (q.rqHead - g.rqBase) 1
    ++ (List.range 4).flatMap (fun k => bytesOf (q.lqHead.get 0 k - (g.lqs.get {} k).base) 1)
    ++ bytesOf (q.stdCnt - g.sdqBase) 1 ++ bytesOf (q.carvCnt - g.carvBase) 2 ++ bytesOf (g.runs - q.passed) 1

/-- A path-table entry of 64 bytes: the fields of R24, then what the run under way has done. -/
def Path.image (p : Path) : List Byte :=
  let ph : Nat := match p.phase with
    | .issuing => 0 | .fall => 1 | .take => 2 | .marker => 3 | .ending => 4 | .parked => 5 | .awaiting => 6
  bytesOf p.pos 8 ++ bytesOf p.qmask 1 ++ bytesOf ph 1 ++ bytesOf p.skipn 1 ++ bytesOf p.pls.length 1 ++ bytesOf p.lmask.toNat 4
    ++ bytesOf p.skipmask.toNat 4 ++ padTo 16 (labelBytes (p.pls.map (·.lbl))) ++ bytesOf p.icount 4 ++ bytesOf p.began 4
    ++ bytesOf (flagBit p.nodrain 1) 1

/-- A YIELD.REC hint in full: VMASK, ACCMASK, the SPR ranges in granules, their number and DROPW (R190, R394). -/
def Hint.image : Hint → List Byte
  | .record vmask acc ranges drop =>
    bytesOf vmask 96 ++ bytesOf acc.toNat 8 ++ padTo 64 (ranges.flatMap (fun r => bytesOf (r.1 / 256 + 65536 * (r.2 / 256)) 4))
      ++ bytesOf ranges.length 1 ++ bytesOf (flagBit drop 1) 1
  | _ => []

/-- The pushers of a path stack of at most eight entries (R121). -/
def pushersImage (ls : List PathLbl) : List Byte := padTo 64 (ls.flatMap (fun p => bytesOf (p.pusher.getD 0) 8))

/-- An entry of RQ: 16 bytes; a YIELD.REC hint stands in full in the group state's reserved area. -/
def RQEntry.image : RQEntry → List Byte
  | .run pos rl => bytesOf 1 1 ++ bytesOf 0 1 ++ bytesOf rl.toNat 2 ++ bytesOf 0 4 ++ bytesOf pos 8
  | .marker .all => bytesOf 2 8 ++ bytesOf 0 8
  | .marker (.inline b) => bytesOf 3 8 ++ bytesOf b.toNat 8
  | .marker (.record _ a _ _) => bytesOf 4 8 ++ bytesOf a.toNat 8

/-- An entry of a load queue: 144 bytes. -/
def LQEntry.image (e : LQEntry) : List Byte :=
  wordBytes e.data ++ bytesOf e.lbl.toNat 2 ++ bytesOf (flagBit e.present 1) 1 ++ bytesOf ((e.poison.map (·.code)).getD 0) 1
    ++ bytesOf e.vld.toNat 8 ++ bytesOf e.albl.toNat 4

/-- A group's state as parts of its 24 KiB (R388). -/
def Group.imageParts (g : Group) : List (Nat × List Byte) :=
  let temp (i : Nat) : List Byte := (List.range 8).flatMap (fun q => wordBytes (g.temps.get {} (8 * i + q)).lanes)
  [(0, (List.range 64).flatMap (fun i => bytesOf (g.sreg (BitVec.ofNat 6 i)).val.toNat 8)
        ++ labelBytes ((List.range 64).map (fun i => (g.sreg (BitVec.ofNat 6 i)).lbl))
        ++ (List.range 8).flatMap (fun i => bytesOf (g.pred i).mask.toNat 4)
        ++ labelBytes ((List.range 8).map (fun i => (g.pred i).lbl))
        ++ bytesOf g.apc.toNat 8 ++ bytesOf g.tilew 2 ++ bytesOf g.slip 2 ++ bytesOf (flagBit g.halted 1) 4
        ++ padTo 32 (labelBytes (g.apath.map (·.lbl)))
        ++ (List.range 9).flatMap (fun c => bytesOf (g.fcs.get 0 c) 2) ++ bytesOf g.apath.length 1),
   (0x300, bytesOf g.ageA 2 ++ bytesOf g.ageC 2 ++ bytesOf g.outstanding 1 ++ bytesOf g.carv.length 1 ++ bytesOf 0 2
        ++ padTo 240 (g.carv.flatMap (fun c => bytesOf c.off 4 ++ bytesOf c.quads 1 ++ bytesOf 0 1 ++ bytesOf c.lbl.toNat 2 ++ bytesOf c.pos 8))),
   (0x400, labelBytes ((List.range 768).map (fun v => (g.vregs.get {} v).lbl)) ++ (List.range 8).flatMap temp
        ++ labelBytes ((List.range 8).map (fun i => Label.joinAll ((List.range 8).map (fun q => (g.temps.get {} (8 * i + q)).lbl))))
        ++ padTo 128 (g.apath.flatMap (fun p => bytesOf (p.pusher.getD 0) 8))),
   (0xF00, g.quads.flatMap (fun q => padTo 32 (g.quadImage q))),
   (0x1000, padTo 512 (g.paths.flatMap (fun p => padTo 64 p.2.image))),
   (0x1200, padTo 512 (g.rq.flatMap RQEntry.image)),
   (0x1400, padTo 256 (g.saq.flatMap (fun e => bytesOf e.addr 7 ++ bytesOf e.apc.toNat 7 ++ bytesOf e.lbl.toNat 2))
        ++ padTo 128 (g.ca.flatMap (fun e => bytesOf e.val.toNat 8 ++ bytesOf e.lbl.toNat 2 ++ bytesOf e.quad 6))),
   (0x1600, padTo 2560 (g.sdq.flatMap (fun e => padTo 160 (wordBytes e.data ++ bytesOf e.mask.toNat 4 ++ bytesOf e.lbl.toNat 2
        ++ bytesOf e.quads 1 ++ bytesOf 0 1 ++ bytesOf e.pos 8)))),
   (0x2000, (List.range 4).flatMap (fun k => padTo 2304 ((g.lqs.get {} k).entries.flatMap LQEntry.image))),
   (0x4400, padTo 512 (g.paths.flatMap (fun p => pushersImage p.2.pls))),
   (0x4600, padTo 5440 ((g.rq.map (fun e => match e with | .marker h => padTo 170 h.image | .run _ _ => List.replicate 170 0#8)).flatten))]

end Sys2Proof.Machine
end

