-- ==== Sys2Proof/Machine/Saving.lean ====
section
/-! DEFINITION. Stopping, saving, resuming and ending a team; the records that the device writes into a team's context block;
the retirement of teams and grids (R232, R271, R332, R354, R365, R367, R373-R382, R384-R395). -/

namespace Sys2Proof.Machine

/-! ## When a team can be saved or retired -/

/-- Whether an operation lets a save go on (R232, R385): it has completed, stands for an order, is a request in a syscall
slot or an unsatisfied ticketed CWAIT, or is a queue store without its partner. A read of a record or of code is abandoned
with the word that waits for it. -/
def State.opRests (s : State) (k : Nat) (o : Op) : Bool :=
  o.doneq || (match o.data with
    | .fence _ _ _ | .record _ _ | .fetch _ _ | .syscall | .cwait _ _ => true
    | .queueStore => (s.group k).saq.any (fun e => e.op == o.id)
    | _ => false)

/-- The groups of a team, by key. -/
def State.groupsOf (s : State) (t : Nat) : List (Nat × Group) := s.groups.filter (fun e => teamOf e.1 == t)

/-- The pitches of a team have drained (R271), but one that a PITCH fault has stopped (R272), and every window operation
has been performed. -/
def Team.drained (t : Team) : Bool := t.pitches.all (fun p => p.2.queue.isEmpty || p.2.stopped) && t.wq.isEmpty

/-- What a team has issued has completed, as far as a save waits for it (R232, R376, R384). -/
def State.rests (s : State) (t : Nat) : Bool :=
  (s.team t).drained && (s.groupsOf t).all (fun e => e.2.ops.all (s.opRests e.1))

/-- Both slices of every group of a team have stopped. -/
def State.stopped (s : State) (t : Nat) : Bool := (s.groupsOf t).all (fun e => e.2.astopped && e.2.cstopped)

/-! ## Records -/

/-- The path records' PSTATE (R332): 0 issuing, 1 waits at issue, 2 past its trailer, 3 at TAKE, 4 parked, 5 faulting. A
path that waits at a yield marker has 3 (log 97). -/
def Path.pstate (p : Path) (faulting : Bool) : Nat :=
  if faulting then 5
  else match p.phase with
    | .parked => 4
    | .take | .marker => 3
    | .fall | .ending | .awaiting => 2
    | .issuing => if p.waitc = 0 then 0 else 1

/-- A path record (R332). -/
def Group.pathRecord (g : Group) (n : Nat) (p : Path) : List Byte :=
  let f := (g.fault.bind (·.fpath)) == some n
  bytesOf p.pos 8 ++ bytesOf p.qmask 1 ++ bytesOf (p.pstate f) 1 ++ bytesOf (g.cDeadCode p) 1 ++ bytesOf 0 1 ++ bytesOf p.lmask.toNat 4

/-- The decoupling section (R332). With every quad ended the path table is empty and NPATH is 0 (log 97). -/
def Group.decSection (g : Group) : List Byte :=
  let r := g.fault
  let fl := flagBit g.ra.isSome 1 + flagBit (r.any (·.idle)) 2 + flagBit g.halted 4 + flagBit (r.any (·.dlk)) 8
    + flagBit (r.any (·.unpaired)) 16
  let paths := (g.paths.take 8).flatMap (fun e => g.pathRecord e.1 e.2)
  bytesOf fl 2 ++ bytesOf g.aDeadCode 1 ++ bytesOf ((r.map (·.pq)).getD 0xFF) 1 ++ bytesOf g.paths.length 1 ++ bytesOf g.slip 1
    ++ bytesOf g.outstanding 1 ++ bytesOf 0 1 ++ bytesOf (g.ra.getD g.apc).toNat 8 ++ bytesOf g.apc.toNat 8 ++ bytesOf g.qocc.toNat 8
    ++ paths ++ List.replicate (128 - paths.length) 0#8

/-- A fault record of 512 bytes (R380). -/
def Group.record (g : Group) (teamix : Nat) : List Byte :=
  let none_ : FaultRec := { flt := { code := 0 }, cslice := false, fpos := 0, fcycle := 0 }
  let r := g.fault.getD none_
  bytesOf r.flt.code 1 ++ bytesOf r.flt.sub 1 ++ bytesOf (1 + flagBit g.fault.isSome 2 + flagBit g.lostFault 4 + flagBit r.cslice 8) 1 ++ bytesOf g.gidx 1
    ++ bytesOf teamix 4 ++ bytesOf g.aret 8 ++ bytesOf g.cret 8 ++ bytesOf g.skid 2 ++ bytesOf r.flt.flbl.toNat 2 ++ bytesOf r.flt.clbl.toNat 2
    ++ bytesOf r.flt.kcode 2 ++ bytesOf r.flt.faddr 8 ++ bytesOf r.fpos 8 ++ bytesOf r.flt.pinfo 8 ++ bytesOf r.fcycle 8 ++ g.decSection
    ++ bytesOf r.flt.stpc 8 ++ List.replicate 280 0#8

/-- FLTMASK (R379): the groups that have a fault of their own. -/
def State.faultMask (s : State) (t : Nat) : Nat :=
  (s.groupsOf t).foldl (fun m e => if e.2.fault.isSome then m + 2 ^ e.2.gidx else m) 0

/-- Write the fault record of every group of a team (R380). -/
def State.writeRecords (s : State) (t : Nat) : State :=
  (s.groupsOf t).foldl (fun a e => a.blockWrite t (0x8400 + 512 * e.2.gidx) (e.2.record (s.team t).teamix)) s

/-- Write the team header (R379). -/
def State.writeHeader (s : State) (t : Nat) : State := s.blockWrite t 0 ((s.team t).header (s.faultMask t))

/-! ## What a save keeps -/

/-- Whether the hint of a group's yield point names vector register `v` (R386, R394): a finished group's are not written. -/
def Group.keeps (g : Group) (hints : Bool) (v : Nat) : Bool :=
  if g.finished then false
  else if !hints then true
  else match g.hint with
    | some (.inline bits) => decide (v < 64) && bits.getLsbD v
    | some (.record vmask _ _ _) => bitOf vmask v
    | _ => true

/-- The liveness records of the unfinished groups of a team, when every one of them used YIELD.REC (R386, R394). -/
def State.records (s : State) (t : Nat) : Option (List (DWord × List (Nat × Nat) × Bool)) :=
  let hs := ((s.groupsOf t).filter (fun e => !e.2.finished)).map (fun e => e.2.hint)
  hs.foldr (fun h a => match h, a with
    | some (.record _ acc ranges drop), some l => some ((acc, ranges, drop) :: l)
    | _, _ => none) (some [])

/-- A group as a save leaves it (R158, R198, R232, R311, R386): writes under way have landed, the word that waits is
abandoned, and vector registers that are not written read zero. -/
def Group.saved (g : Group) (hints : Bool) : Group :=
  let g1 := g.fx.foldl Group.land { g with fx := [] }
  { g1 with await := none, aheld := none, apass := false,
            ops := g1.ops.filter (fun o => match o.data with | .record _ _ | .fetch _ _ => false | _ => true),
            paths := g1.paths.mapVals (fun _ p => { p with waitc := 0, held := none, pass := false }),
            vregs := g1.vregs.mapVals (fun v r => if g.keeps hints v then r else { r with lanes := List.replicate 32 0#32 }) }

/-- A byte of the scratchpad that a save with these ranges writes: within a range, or of a marked cell. -/
def Team.spKept (t : Team) (ranges : List (Nat × Nat)) (a : Nat) : Bool :=
  t.marked? a || ranges.any (fun r => decide (r.1 ≤ a) && decide (a < r.1 + r.2))

/-- A team's shared state as a save at yield points with every group's record leaves it (R386, R387). -/
def Team.savedBy (t : Team) (rs : List (DWord × List (Nat × Nat) × Bool)) : Team :=
  let ranges := rs.flatMap (·.2.1)
  let accs := rs.foldl (fun m r => m ||| r.1) 0#64
  let bankKept (b : Nat) : Bool := accs.getLsbD b || t.whand.any (fun h => decide (h.2.bank ≤ b) && decide (b < h.2.bank + h.2.nb))
  let drop := rs.all (·.2.2)
  { t with sp := t.sp.filter (fun e => t.spKept ranges e.1), spBad := t.spBad.filter (fun e => t.spKept ranges (4 * e.1)),
           acc := t.acc.filter (fun e => bankKept (e.1 / 32768)), accBad := t.accBad.filter (fun e => bankKept (e.1 / 32768)),
           wmem := if drop then [] else t.wmem, wBad := if drop then [] else t.wBad }

/-! ## The image -/

/-- The image of a team, part after part (R388): offset and bytes. `hints` says that it is a save at yield points, `rs` the
liveness records of its groups when all have one. -/
def State.imageParts (s : State) (t : Nat) (hints : Bool) (rs : Option (List (DWord × List (Nat × Nat) × Bool))) : List (Nat × List Byte) :=
  let x := s.team t
  let r := (s.grid x.grid).rec_
  let gs := s.groupsOf t
  let oG := 0x10000 + r.wres * 4096
  let oV := oG + r.gcount * 24576
  let oS := oV + r.gcount * r.vregs * 128
  let oA := oS + r.spsize
  let ranges := match rs with | some l => l.flatMap (·.2.1) | none => [(0, r.spsize)]
  let accs : DWord := match rs with | some l => l.foldl (fun m y => m ||| y.1) 0#64 | none => BitVec.allOnes 64
  let drop := match rs with | some l => l.all (·.2.2) | none => false
  let bound (b : Nat) : Bool := x.whand.any (fun h => decide (h.2.bank ≤ b) && decide (b < h.2.bank + h.2.nb))
  x.imageParts r.spsize r.wres drop
    ++ gs.flatMap (fun e => e.2.imageParts.map (fun p => (oG + e.2.gidx * 24576 + p.1, p.2)))
    ++ gs.flatMap (fun e => ((List.range r.vregs).filter (e.2.keeps hints)).map (fun v =>
         (oV + (e.2.gidx * r.vregs + v) * 128, wordBytes (e.2.vregs.get {} v).lanes)))
    ++ ((List.range r.spsize).filter (x.spKept ranges)).map (fun a => (oS + a, [x.sp.get 0#8 a]))
    ++ ((bankList x.banks).zipIdx.filter (fun b => accs.getLsbD b.1 || bound b.1)).map (fun b => (oA + b.2 * 196608, x.bankImage b.1))

/-- The state with the device's own writes that wait on a base die made (R357). -/
def State.landed (s : State) : State :=
  { s with mem := s.dieQ.foldl (fun m w => if w.delta.isNone then Tab.setFrom Memory.blank m (localOf w.pa) w.bytes else m) s.mem }

/-- The image region of a team as its own writes leave it in memory (R388, R389). -/
def State.readImage (s : State) (t : Nat) : List Byte :=
  let x := s.grid (s.team t).grid
  s.landed.deviceRead x.ctx (s.blockAddr t + 0x10000) x.rec_.savesz

/-- Act once the image region of a team has been read, where other devices hold it (R389; log 17). -/
def State.withImage (s : State) (t : Nat) (k : State → Out) : Out :=
  let x := s.grid (s.team t).grid
  s.withOwn x.ctx [(s.blockAddr t + 0x10000, x.rec_.savesz)] k

/-- TAG of an image (R389): taken over all of it, the place of TAG itself counting as zero. -/
def imageSeal (ctx : Nat) (img : List Byte) : List Byte :=
  bytesOf (Config.imageTag ctx (img.take 0xFC0 ++ List.replicate 64 0#8 ++ img.drop 0x1000)).toNat 64

/-- Save a team (R386-R389): what waits is abandoned, what is not written reads zero from now on, the image is written and
sealed, and the count and cycle of the save are kept. `hints` is set by a save at yield points. -/
def State.saveTeam (s : State) (t : Nat) (hints : Bool) (st : TState) : State :=
  let rs := if hints then s.records t else none
  let s1 := s.leaveCore t
  let s2 : State := { s1 with groups := s1.groups.mapVals (fun k g => if teamOf k = t then g.saved hints else g) }
  let x := s2.team t
  let y := match rs with | some l => x.savedBy l | none => x
  let s3 := s2.setTeam t { y with state := st, nsave := x.nsave + 1, savedAt := s.cycle, pending := false, aged := false, bell := none, restart := false }
  let s4 := (s3.imageParts t hints rs).foldl (fun a p => a.blockWrite t (0x10000 + p.1) p.2) s3
  let s5 := s4.blockWrite t 0x10FC0 (imageSeal (s4.grid x.grid).ctx (s4.readImage t))
  s5.setTeam t { s5.team t with image := s5.readImage t }

/-! ## The end of teams and grids -/

/-- A team is ended by a fault of its own (R374, R381): NFAIL rises, and CODE is the first code that ended anything. -/
def State.failTeam (s : State) (t code : Nat) : State :=
  let x := s.grid (s.team t).grid
  ((s.setGrid (s.team t).grid { x with nfail := x.nfail + 1, code := if x.code = 0 then code else x.code }).endTeam t .ended).earlyRelease
    (s.team t).grid

/-- The code of the team's fault (R377). -/
def Team.faultCode (t : Team) : Nat := ((t.first.map (·.2.2))).getD 0

/-- TEAM_FAULT_SAVE (R376, R381, R382): once every slice has stopped and what was issued has completed, the team is saved
whole, its records are written and FLTSIG is decremented; with no FLTSIG the team is ended. When its grid has ended it is
ended without an image. -/
def execTeamFaultSave (t : Nat) (s : State) : Out :=
  let x := s.team t
  let gr := s.grid x.grid
  if !(x.state == .resident) || x.bell.isNone || !s.stopped t || !s.rests t then s.idle
  else if gr.gend then
    let s1 := if x.first.isSome then (s.writeRecords t).writeHeader t else s
    let s2 := s1.setGrid x.grid { gr with nfail := gr.nfail + (if x.first.isSome then 1 else 0) }
    .next ((s2.endTeam t .ended).earlyRelease x.grid)
  else
    s.withImage t (fun s =>
      let s2 := ((s.writeRecords t).saveTeam t false .faulted).writeHeader t
      if gr.rec_.fltsig = 0 then .next (s2.failTeam t x.faultCode) else .next (State.inOrder gr.ctx [.signal gr.rec_.fltsig] s s2))

/-- DISP_POLL (R381): the distributor reads DISP while STATE is 3 and acts on it. -/
def execDispPoll (t : Nat) (s : State) : Out :=
  let x := s.team t
  if !(x.state == .faulted) then s.idle
  else
    s.withOwn (s.grid x.grid).ctx [(s.blockAddr t + 1, 1)] (fun s =>
      match ofBytes (s.deviceRead (s.grid x.grid).ctx (s.blockAddr t + 1) 1) with
      | 1 => .next (s.failTeam t x.faultCode)
      | 2 => .next ((s.setTeam t { x with state := .saved, restart := true }).writeHeader t)
      | 3 => .next ((s.endGrid x.grid x.faultCode).earlyRelease x.grid)
      | _ => s.idle)

/-- TEAM_RETIRE (R373, R391, R393): every group has finished and everything it commanded has completed. -/
def execTeamRetire (t : Nat) (s : State) : Out :=
  let x := s.team t
  let done (e : Nat × Group) : Bool := e.2.finished && e.2.ops.all (fun o => o.doneq || (match o.data with | .fence _ _ _ => true | _ => false))
  if x.state == .resident && x.bell.isNone && x.drained && x.pitches.all (fun p => p.2.queue.isEmpty) && (s.groupsOf t).all done then
    .next (s.endTeam t .retired)
  else s.idle

/-- The word that STATUS takes (R374). -/
def Grid.status (x : Grid) : Nat := x.code + (if x.gend then 256 else 0) + 2 ^ 32 * x.nfail

/-- Discard the sets that a grid opened and that are not complete (R354): those of this device's queues, and, by a frame to
every other device of the context, those of theirs (log 20). -/
def State.dropSets (s : State) (gr : Nat) : State :=
  let x := s.grid gr
  let s1 : State := { s with detsets := s.detsets.filter (fun e => !(e.2.dev == s.devn && e.2.grid == gr)) }
  ((s.ctx x.ctx).devices.filter (fun d => d != s.devn)).foldl (fun a d =>
    a.deviceSend d x.ctx (x.rec_.status / 65536) (fun tag => { a.frame .atomic 0 d x.ctx 0#16 tag 0 gr with opn := 0x1F#8 })) s1

/-- GRID_RETIRE (R354, R365, R373, R374): the last team has retired or has been ended; every store of the grid has been
performed by then. STATUS is written, DONESIG is decremented, and incomplete deterministic sets are discarded. -/
def execGridRetire (gr : Nat) (s : State) : Out :=
  let x := s.grid gr
  let mine := s.teams.filter (fun e => e.2.grid == gr)
  let allOut := mine.all (fun e => e.2.state == .retired || e.2.state == .ended)
  if (s.grids.find gr).isNone || x.retired || !allOut || !(x.gend || (x.admitted && x.nextTeam == x.rec_.n)) then s.idle
  else
    let s1 := s.earlyRelease gr
    let s2 := State.inOrder x.ctx [.write x.rec_.status (bytesOf x.status 8), .signal x.rec_.donesig] s1 s1
    .next (((s2.dropSets gr).setGrid gr { s1.grid gr with retired := true }).dropHolds (2 * gr + 1))

/-! ## Pre-emption -/

/-- TEAM_SAVE_YIELD (R384, R386, R394): every group of a pending team that has not finished is at a yield point. -/
def execTeamSaveYield (t : Nat) (s : State) : Out :=
  let x := s.team t
  if x.state == .resident && x.pending && x.bell.isNone && (s.groupsOf t).all (fun e => e.2.finished || e.2.atYield) && s.rests t then
    s.withImage t (fun s => .next ((s.saveTeam t true .saved).writeHeader t))
  else s.idle

/-- DEADLINE in cycles (R362, R384). -/
def Launch.deadlineCycles (r : Launch) : Nat := (if r.deadline = 0 then 2000 else r.deadline) * 2700

/-- PREEMPT_DEADLINE (R384): the deadline of a pending team has expired. Its slices stop; once what they issued has completed
the team is saved by force. -/
def execPreemptDeadline (t : Nat) (s : State) : Out :=
  let x := s.team t
  if !(x.state == .resident) || !x.pending || x.bell.isSome || s.cycle < x.marked + (s.grid x.grid).rec_.deadlineCycles then s.idle
  else if s.rests t then s.withImage t (fun s => .next ((s.saveTeam t false .saved).writeHeader t))
  else
    .next { s with groups := s.groups.mapVals (fun k g => if teamOf k = t then { g with astopped := true, cstopped := true } else g) }

/-! ## Resumption -/

/-- Ask again for the data of the poisoned entries of a group, whose VLDs stand where the address slice was stopped (R329,
R381; log 27). With every quad ended the entries are released then (R18). -/
def State.retryPoison (s : State) (k : Nat) : State :=
  (s.group k).poisons.foldl (fun a e =>
    let g := a.group k
    let accs := (List.range 32).map (fun n => a.formAcc k { lane := n, va := e.2.addr + 4 * n, size := 4 })
    let g1 := g.setEntry e.1 e.2.op (fun y => { y with poison := none, op := g.nextOp })
    let g2 := if g.unended.isEmpty then g1.trim else g1
    (a.setGroup k { g2 with ra := none }).issueAccs k
      { id := 0, fc := some .ld, pc := e.2.vld.toNat, run := g.runs, after := g.caOrd, lbl := e.2.albl, accs := accs,
        data := .vld e.1 e.2.addr }) s

/-- A group as it issues again (R381, R387, R390): `restart` after a fault. -/
def Group.resumed (g : Group) (restart : Bool) (slot : Nat × Nat) : Group :=
  let g1 := if restart then g.resumeSlices else { g with astopped := false, cstopped := false }
  { g1 with sched := slot.1, slot := slot.2, atYield := false,
            paths := if g.atYield then g1.paths.mapVals (fun _ p => if p.phase == .marker then { p with phase := .take } else p) else g1.paths }

/-- Put a saved team on a core (R387, R390, R411): its groups take slots, arrivals held for it are applied. -/
def State.resumeOn (s : State) (t core : Nat) : State :=
  let x := s.team t
  let room := s.roomFor core (2 * t) ((s.grid x.grid).rec_.need x.banks)
  let s1 := State.setTeam { s with admissions := s.admissions + 1 } t
    { x with state := .resident, core := core, admitted := s.admissions, spBase := room.sp.1, wBase := room.wb.1,
             pitch0 := room.pitches.headD 0, resumed := true, resumedAt := s.cycle, aged := false, first := none, bell := none, restart := false,
             pitches := x.pitches.mapVals (fun _ p => { p with stopped := false }) }
  let s2 := s1.placeGroups t room.slots (fun g slot => (s1.group (32 * t + g)).resumed x.restart slot)
  let s3 := if x.restart then (s2.groupsOf t).foldl (fun a e => a.retryPoison e.1) s2 else s2
  ((s3.writeHeader t).applyHeld t (fun _ => true)).dropHolds (2 * t)

/-- TEAM_RESUME (R367, R387, R389, R390): a saved team whose image is unchanged is restored on the first core that has room
and its banks; a changed image ends it with SEAL. -/
def execTeamResume (t : Nat) (s : State) : Out :=
  let u := Waiting.saved t
  if !s.isWaiting u || !s.isNext u then s.idle
  else
    match s.placeFor u with
    | some (c :: _) =>
      s.withImage t (fun s => if s.readImage t == (s.team t).image then .next (s.resumeOn t c) else .next (s.failTeam t 0x17))
    | _ => s.idle

end Sys2Proof.Machine
end

