-- ==== Sys2Proof/Machine/System.lean ====
section
/-! DEFINITION. The compute-stream system instructions, the Weighhouse's answers and the syscall replies (R138, R141, R142,
R148-R150, R256-R260, R383). -/

namespace Sys2Proof.Machine

/-! ## Labels -/

/-- The label of what a system instruction of fixed latency leaves in its destination: `l`, or K alone when it writes no lane
and so reads nothing (R124, R228; log 42). -/
def CIn.readLabel (x : CIn) (l : Label) : Label := if x.written = 0#32 then x.k else l

/-- VLBLRD (R142, R228, R257): the label of A, zero-extended. -/
def execVlblrd (f : CFields) (s : State) : Out :=
  cIssue (.vlblrd f) { free := true } (fun x s1 =>
    .done (s1.fxWrite x 2 (.reg f.dst.toNat) (lanesOf (fun _ => x.a.lbl.zeroExtend 32)) (x.readLabel x.label)) 1) s

/-- VLBLUP (R141, R228, R257): the value of A under a raised label. -/
def execVlblup (f : CFields) (s : State) : Out :=
  cIssue (.vlblup f) { imm := some .z32, free := true, qb := 1 } (fun x s1 =>
    .done (s1.fxWrite x 2 (.reg f.dst.toNat) x.a.lanes (x.readLabel (x.label.join ((x.b.at 0).truncate 16)))) 1) s

/-- VDCLS (R149, R226, R256): a request to the Weighhouse that holds D and the flag predicate. -/
def execVdcls (f : CFields) (s : State) : Out :=
  let k := f.sc.toNat % 8
  let flag : List Dst := if k = 0 then [] else [.pred k]
  cIssue (.vdcls f) { imm := some .z32, writes := flag, qb := 1 } (fun x s1 =>
    let s2 := if x.written = 0#32 then s1 else s1.askWeigh s.cur s1.grp.nextOp
    .done (s2.issueLanes x { id := 0, fc := none, dsts := Dst.reg f.dst.toNat :: flag, lbl := x.k,
                             data := .vdcls k x.a.lanes x.a.lbl ((x.b.at 0).truncate 16) x.b.lbl }) 1) s

/-- Whether an operation is a declassify request. -/
def Op.asks (o : Op) : Bool := !o.doneq && (match o.data with | .dcls .. | .vdcls .. => true | _ => false)

/-- The requests that wait at a core's Weighhouse, in arrival order (R150). -/
def State.weighWaiters (s : State) (core : Nat) : List (Nat × Nat) :=
  (s.core core).weighq.filter (fun e => (s.team (teamOf e.1)).state == .resident && (s.team (teamOf e.1)).core == core
    && ((s.group e.1).op e.2).any Op.asks)

/-- WEIGHHOUSE_ANSWER (R148-R150): the Weighhouse of a core answers the request that reached it first. -/
def execWeighhouseAnswer (k op : Nat) (s0 : State) : Out :=
  let n := (s0.team (teamOf k)).core
  let c := s0.core n
  let s := s0.setCore n { c with weighq := (s0.weighWaiters n).drop 1 }
  let g := s.group k
  match g.op op with
  | none => s0.idle
  | some o =>
    if (s0.weighWaiters n).head? ≠ some (k, op) then s0.idle
    else
      match o.data with
      | .dcls d a x lx =>
        let r := s.weigh k (g.sreg a).lbl x lx o.lbl
        let g1 := (g.setSreg a { g.sreg a with lbl := r.2.1 }).setSreg d
          { val := if r.1 then 1#64 else 0#64, lbl := lx.join o.lbl }
        .next ((r.2.2.setGroup k (g1.setOp { o with doneq := true })).settle k)
      | .vdcls p a la x lx =>
        let r := s.weigh k la x lx o.lbl
        let dst := match o.dsts with | .reg c :: _ => c | _ => 0
        let g1 := (g.writeVreg dst o.mask a o.full r.2.1).writePred p (BitVec.allOnes 32)
          (if r.1 then BitVec.allOnes 32 else 0#32) true (lx.join o.lbl)
        .next ((r.2.2.setGroup k ((g1.doneTickets o.quads o.tk).setOp { o with doneq := true })).settle k)
      | _ => s0.idle

/-! ## Requests to the runtime -/

/-- The request record of VSYS (R259). -/
def vsysRecord (x : CIn) (gidx teamix pos : Nat) (lbl : Label) (regs : List Operand) : List Byte :=
  bytesOf x.written.toNat 4 ++ bytesOf regs.length 1 ++ bytesOf gidx 1 ++ bytesOf lbl.toNat 2 ++ bytesOf teamix 4 ++ bytesOf 0 4
    ++ bytesOf pos 8 ++ bytesOf 0 40
    ++ regs.flatMap (fun r => (List.range 32).flatMap (fun l => bytesOf (if x.written.getLsbD l then (r.at l).toNat else 0) 4))

/-- VSYS (R137, R228, R258, R259, R383). The release that the request stands for is waited for at issue (log 40). -/
def execVsys (f : CFields) (s : State) : Out :=
  let n := f.x.toNat + 1
  let codes := (List.range n).map (f.sa.toNat + ·)
  cIssue (.vsys f) { static := fun v => decide (f.sa.toNat + n ≤ v), reads := codes.map Dst.reg, fc := some .cl } (fun x s1 =>
    let g := s1.grp
    let regs := codes.map (g.readCode 0 0 0 0)
    let l := resultLabel x.k (regs.map (·.lbl))
    let epl := (s.ctx (s.ctxOf s.cur)).eplRuntime
    let o : Op := { id := 0, fc := some .cl, dsts := [.reg f.dst.toNat], lbl := l, data := .syscall }
    if (s.recOf s.cur).syssig = 0 then .fault fltIllegal false
    else if x.written = 0#32 then .done (s1.issueLanes x o) 1
    else if !l.within epl then .fault (fltMsg 3 l epl 0) false
    else if g.ops.any (fun y => y.data == .syscall && !y.doneq) then .wait 0x119
    else if !s.slotRead s.cur || s.sstate s.cur ≠ 0 then .asks (s.askSlot s.cur) 0x119
    else if !g.quadsReleased x.qmask then .wait 0x119
    else
      let req := vsysRecord x g.gidx s.tm.teamix s.path.pos l regs
      .done ((s1.issueLanes x o).postRequest s.cur 0 0 req) 1) s

/-- The reply of a slot: `n` bytes of REPLY (R383). -/
def State.reply (s : State) (k n : Nat) : List Byte := s.deviceRead (s.ctxOf k) (s.slotAddr k + 0x300) n

/-- Free the slot of a group (R383). -/
def State.freeSlot (s : State) (k : Nat) : State := s.deviceWrite (s.ctxOf k) (s.slotAddr k) [0#8]

/-- SYSCALL_SLOT_POLL (R138, R189, R258, R383): a reply that is ready is written to the destination of the request, with
the request's label, and the slot is free. A TRAP has then issued (R442, R445), which a stopped or held slice does not. -/
def execSyscallSlotPoll (k : Nat) (s : State) : Out :=
  let g := s.group k
  match g.ops.find? (fun o => o.data == .syscall && !o.doneq) with
  | none => s.idle
  | some o =>
    if (s.team (teamOf k)).state != .resident then s.idle
    else
      s.withOwn (s.ctxOf k) (s.slotSpan k) (fun s =>
        if s.sstate k ≠ 2 then s.idle
        else s.withOwn (s.ctxOf k) [(s.slotAddr k + 0x300, if o.cslice then 128 else 8)] (fun s =>
          if o.cslice then
            let dst := match o.dsts with | .reg c :: _ => c | _ => 0
            let bs := s.reply k 128
            let g1 := g.writeVreg dst o.mask (lanesOf (fun l => BitVec.ofNat 32 (fieldAt bs (4 * l) 4))) o.full o.lbl
            .next (((s.setGroup k ((g1.doneTickets o.quads o.tk).setOp { o with doneq := true })).freeSlot k).settle k)
          else if !s.standsA k || g.stepStopped || g.stepDrain || g.aheld.isSome then s.idle
          else
            let v : SVal := { val := BitVec.ofNat 64 (ofBytes (s.reply k 8)), lbl := o.lbl }
            let g1 := (g.setOp { o with doneq := true }).setSreg (o.adst.getD 0#6) v
            afterIssue k 0 0x03 g.aret Group.aret (.next (((s.setGroup k (g1.advance 4)).freeSlot k).settle k))))

/-- VBRK (R260): BREAK when the gang has an active lane. -/
def execVbrk (f : CFields) (s : State) : Out :=
  cIssue (.vbrk f) { free := true } (fun _ s1 =>
    if s.grp.active s.path = 0#32 then .done s1 1
    else .fault { code := 0x11, kcode := f.ext.toNat % 2 ^ 16 } true) s

end Sys2Proof.Machine
end

