-- ==== Sys2Proof/Machine/Transform.lean ====
section
/-! DEFINITION. The transform pipe: its three instructions and its reply (R252-R255, R230). -/

namespace Sys2Proof.Machine

/-- Elements of a type in one lane word. -/
def perLane (t : Ty) : Nat := 32 / t.width

/-- A lane word from its elements, lowest first. -/
def packElems (w n : Nat) (e : Nat → Nat) : Word :=
  BitVec.ofNat 32 ((List.range n).foldl (fun a i => a + e i % 2 ^ w * 2 ^ (w * i)) 0)

/-- XUNPK's element `i` of the 64-bit value `v` (R253). -/
def unpackElem (t : Ty) (v w first i : Nat) : Nat :=
  let field := bitsOf v (first + w * i) w
  match t with
  | .f16 | .bf16 => field * 2 ^ (16 - w)
  | _ => if t.isSigned then wrapTo t.width (signedOf w field) else field

/-- XUNPK's destination lane (R253). -/
def unpackLane (t : Ty) (ext : Nat) (a b : Word) : Word :=
  packElems t.width (perLane t) (unpackElem t (b.toNat * 2 ^ 32 + a.toNat) (ext % 32) (ext / 32 % 32))

/-- The delta size that the header byte DW gives (R254). -/
def deltaSize (dw : Nat) : Nat := if dw = 3 then 4 else dw

/-- The elements of a delta stream of R254 from their signed deltas: each is `step` of the one before. -/
def runningSums (w : Nat) (v : Nat) : List Int → List Nat
  | [] => []
  | d :: ds => let v1 := wrapTo w (v + d); v1 :: runningSums w v1 ds

/-- The elements that a stream decodes to (R254). -/
def decodeStream (t : Ty) (form : Nat) (bs : List Byte) : List Nat :=
  let w := t.width
  let n := 32 * perLane t
  let d := deltaSize (fieldAt bs 4 1)
  let base := fieldAt bs 0 4 % 2 ^ w
  let delta (j : Nat) : Int := if d = 0 then 0 else signedOf (8 * d) (fieldAt bs (8 + d * j) d)
  if form = 0 then (List.range n).map (fun j => wrapTo w (base + delta j))
  else base :: runningSums w base ((List.range (n - 1)).map delta)

/-- The bytes of a stream with a header (R254). -/
def streamSize (t : Ty) (form : Nat) (hd : List Byte) : Nat :=
  8 + (if form = 0 then 32 * perLane t else 32 * perLane t - 1) * deltaSize (fieldAt hd 4 1)

/-- What the pipe answers: a fault, or the lanes with the label of what it read from the scratchpad. -/
inductive XReply where
  | bad (f : Flt)
  | ok (lanes : List Word) (l : Label)
deriving DecidableEq, Repr

/-- Check a read of the scratchpad by the pipe, an engine source (R126, R133, R145, R230). -/
def Team.pipeRead (t : Team) (clr : Label) (off n : Nat) (k : Label → XReply) : XReply :=
  let l := t.rangeLabel off n
  if !l.within clr then .bad (fltLoad 1 l clr off)
  else if t.rangeBad off n then .bad { code := 0x0E, faddr := off }
  else k l

/-- The pipe's answer to an instruction with operands A and B (R253-R255). -/
def Team.xform (t : Team) (r : Launch) (i : Instr) (a b : List Word) : XReply :=
  let off := (laneAt b 0).toNat
  match i with
  | .xunpk f => .ok (lanesOf (fun l => unpackLane f.dt f.ext.toNat (laneAt a l) (laneAt b l))) 0#16
  | .xdec f =>
    t.pipeRead r.clr off 8 (fun _ =>
      let hd := t.readSp off 8
      let n := streamSize f.dt (f.ext.toNat % 4) hd
      if 3 < fieldAt hd 4 1 || fieldAt hd 5 3 ≠ 0 || r.spsize < off + n then .bad (fltIllegalAt off)
      else
        t.pipeRead r.clr off n (fun l =>
          let es := decodeStream f.dt (f.ext.toNat % 4) (t.readSp off n)
          let e := perLane f.dt
          .ok (lanesOf (fun q => packElems f.dt.width e (fun i => es.getD (e * q + i) 0))) l))
  | .xlut f =>
    let iw := f.ext.toNat % 8 + 1
    let w := f.dt.width / 8
    t.pipeRead r.clr off (2 ^ iw * w) (fun l =>
      let entry (x : Nat) : Nat := ofBytes (t.readSp (off + x * w) w)
      .ok (lanesOf (fun q => packElems f.dt.width (perLane f.dt) (fun i => entry (bitsOf (laneAt a q).toNat (iw * i) iw)))) l)
  | _ => .bad fltIllegal

/-- The issue of a transform-pipe instruction (R228, R252): `size` bytes at the offset T must lie in the region. -/
def xIssue (i : Instr) (f : CFields) (size : Option Nat) (s : State) : Out :=
  cIssue i { role := some 2, imm := some .z32, qb := if size.isSome then 1 else 0, fc := some .xf } (fun x s1 =>
    let off := (x.b.at 0).toNat
    let bad := match size with
      | some n => x.written ≠ 0#32 && (off % 4 ≠ 0 || (s.recOf s.cur).spsize < off + n)
      | none => false
    if bad then .fault (fltIllegalAt off) false
    else
      .done (s1.issueLanes x { id := 0, fc := some .xf, dsts := [.reg f.dst.toNat], lbl := x.label,
                               data := .xform i x.a.lanes x.b.lanes }) 1) s

/-- XUNPK (R252, R253). -/
def execXunpk (f : CFields) (s : State) : Out := xIssue (.xunpk f) f none s

/-- XDEC (R252, R254). -/
def execXdec (f : CFields) (s : State) : Out := xIssue (.xdec f) f (some 8) s

/-- XLUT (R252, R255). -/
def execXlut (f : CFields) (s : State) : Out := xIssue (.xlut f) f (some (2 ^ (f.ext.toNat % 8 + 1) * (f.dt.width / 8))) s

/-- TRANSFORM_REPLY (R126, R230, R252): the pipe replies; the destination is written, or the fault is reported. -/
def execTransformReply (k op : Nat) (s : State) : Out :=
  let g := s.group k
  match g.op op with
  | none => s.idle
  | some o =>
    match o.data with
    | .xform i a b =>
      if o.doneq || (s.team (teamOf k)).state != .resident || !g.engineReady o then s.idle
      else
        let dst := match o.dsts with | .reg c :: _ => c | _ => 0
        let g1 := g.doneTickets o.quads o.tk
        match (s.team (teamOf k)).xform (s.recOf k) i a b with
        | .bad f => .next ((s.setGroup k (g1.setOp { o with doneq := true, fail := some f })).settle k)
        | .ok v l =>
          .next ((s.setGroup k ((g1.writeVreg dst o.mask v o.full (o.lbl.join l)).setOp { o with doneq := true })).settle k)
    | _ => s.idle

end Sys2Proof.Machine
end

