-- ==== Sys2Proof/Machine/Window.lean ====
section
/-! DEFINITION. Window accumulators: the instructions, which arrive in sequence, and the step in which the window unit
performs the next operation (R29, R30, R134, R269, R294-R308). -/

namespace Sys2Proof.Machine

/-! ## The two stacks of a lane -/

/-- An element, or an aggregate: the components of a pair (the second is zero for single elements) and the label. -/
abbrev WElem := Word × Word × Label

/-- WINDOW (R301). -/
def fltWindow : Flt := { code := 0x18 }

/-- Operators on pairs (R294). -/
def winPair (op : Nat) : Bool := decide (7 ≤ op)

/-- Bytes of an element in a bound bank (R295). -/
def winSize (op : Nat) : Nat := if winPair op then 8 else 4

/-- Banks that W elements take (R295). -/
def winBanks (op w : Nat) : Nat := (w * winSize op + 2047) / 2048

/-- ARGMAX and ARGMIN (R294): whether y supplies the result. -/
def argPicksY (mx : Bool) (vx vy : Word) : Bool :=
  let nx := decodeTy .f32 vx.toNat == .nan
  let ny := decodeTy .f32 vy.toNat == .nan
  if nx || ny then nx && !ny else vx != vy && minMaxNum .f32 mx vx.toNat vy.toNat == vy.toNat

/-- x ⊕ y of R294 with x older; the label is that of both (R134). -/
def WHandle.combine (h : WHandle) (x y : WElem) : WElem :=
  let l := Label.join x.2.2 y.2.2
  let a := x.1
  let b := y.1
  let one (w : Word) : WElem := (w, 0#32, l)
  let arg (mx : Bool) : WElem :=
    (BitVec.ofNat 32 (minMaxNum .f32 mx a.toNat b.toNat), if argPicksY mx a b then y.2.1 else x.2.1, l)
  match h.op with
  | 0 => one (if h.ty == .f32 then BitVec.ofNat 32 (fAdd .f32 h.rm a.toNat b.toNat) else a + b)
  | 1 => one (BitVec.ofNat 32 (fMul .f32 h.rm a.toNat b.toNat))
  | 2 => one (if h.ty == .f32 then BitVec.ofNat 32 (minMaxNum .f32 true a.toNat b.toNat) else if BitVec.slt a b then b else a)
  | 3 => one (if h.ty == .f32 then BitVec.ofNat 32 (minMaxNum .f32 false a.toNat b.toNat) else if BitVec.slt a b then a else b)
  | 4 => one (a &&& b)
  | 5 => one (a ||| b)
  | 6 => one (a ^^^ b)
  | 7 => arg true
  | 8 => arg false
  | _ => (BitVec.ofNat 32 (fMul .f32 h.rm a.toNat b.toNat), BitVec.ofNat 32 (fFma .f32 h.rm x.2.1.toNat b.toNat y.2.1.toNat), l)

/-- The query of an empty window (R294). -/
def WHandle.identity (h : WHandle) : Word × Word :=
  match h.op with
  | 0 => (if h.ty == .f32 then 0x80000000#32 else 0#32, 0#32)
  | 1 => (0x3F800000#32, 0#32)
  | 2 => (if h.ty == .f32 then 0xFF800000#32 else 0x80000000#32, 0#32)
  | 3 => (if h.ty == .f32 then 0x7F800000#32 else 0x7FFFFFFF#32, 0#32)
  | 4 => (BitVec.allOnes 32, 0#32)
  | 5 | 6 => (0#32, 0#32)
  | 7 => (0xFF800000#32, BitVec.allOnes 32)
  | 8 => (0x7F800000#32, BitVec.allOnes 32)
  | _ => (0x3F800000#32, 0#32)

/-- The count n of a lane position (R296). -/
def WLane.count (l : WLane) : Nat := l.front.length + l.back.length

/-- flip() of R296: the back stack, newest first, becomes suffix aggregates, the oldest on top. -/
def WHandle.flip (h : WHandle) (l : WLane) : WLane :=
  { front := l.back.foldl (fun f e => match f with | [] => [e] | t :: _ => h.combine e t :: f) [],
    back := [], agg := none, flips := if l.flips = 2 ^ 32 - 1 then l.flips else l.flips + 1 }

/-- expire() of R296. -/
def WHandle.expire (h : WHandle) (l : WLane) : WLane :=
  let l1 := if l.front.isEmpty then h.flip l else l
  { l1 with front := l1.front.tail }

/-- The back stack's count that a flip at the next expiry rebuilds (R297). -/
def WLane.flipCost (l : WLane) : Nat := if l.front.isEmpty then l.back.length else 0

/-- push(x) of R296. -/
def WHandle.push (h : WHandle) (l : WLane) (x : WElem) : WLane :=
  let l1 := if l.count = h.w then h.expire l else l
  { l1 with back := x :: l1.back, agg := some (match l1.agg with | none => x | some b => h.combine b x) }

/-- query() of R296, with the label of the live contributions (R134). -/
def WHandle.ask (h : WHandle) (l : WLane) : WElem :=
  match l.front, l.agg with
  | [], none => (h.identity.1, h.identity.2, 0#16)
  | [], some b => b
  | t :: _, none => t
  | t :: _, some b => h.combine t b

/-- Expire elements until at most `w` are left, from `n` of them (R306). -/
def WHandle.shrink (h : WHandle) (w : Nat) : Nat → WLane → WLane
  | 0, l => l
  | n + 1, l => if l.count ≤ w then l else h.shrink w n (h.expire l)

def WHandle.lane (h : WHandle) (l : Nat) : WLane := h.lanes.get {} l

/-- Change lanes of a handle and charge the flips' cycles (R297, R308): the cost is that of the largest back stack. -/
def WHandle.onLanes (h : WHandle) (pick : Nat → Bool) (flips : WLane → Nat) (f : Nat → WLane → WLane) : WHandle × Nat :=
  let ls := (List.range 32).filter pick
  let k := (ls.map (fun l => flips (h.lane l))).foldl max 0
  let c := (k + 3) / 4
  ({ h with lanes := ls.foldl (fun t l => t.set {} l (f l (h.lane l))) h.lanes, stall := min (2 ^ 32 - 1) (h.stall + c) }, c)

/-! ## Issue -/

/-- A window operation arrives: it takes the team's next sequence number and raises fc.wa (R298, R300). A path without active
lanes has no register written, only K joined to its label (R124), and its ticket is DONE at once (R22). -/
def State.issueWindow (s : State) (x : CIn) (h : Nat) (dsts : List Dst) (kind : WinKind) : State :=
  let g := s.grp
  let t := s.tm
  let off := g.active s.path = 0#32
  let tk := x.f.tk.toNat
  let o : Op := { id := 0, fc := some .wa, cslice := true, quads := x.qmask, pc := s.path.pos, run := g.runOf x.qmask,
                  tk := if off then 0 else tk, dsts := if off then [] else dsts, mask := x.written, full := x.full, lbl := x.k,
                  data := .window }
  let w : WinOp := { seq := t.wseq, g := s.cur, op := g.nextOp, handle := h, k := x.k, kind := kind }
  let g1 := if off then g.labelOnly x.qmask x.k dsts else g
  (s.setGrp ((g1.issueOp o).setTickets x.qmask tk (if off then 2 else 1))).setTm { t with wq := t.wq ++ [w], wseq := t.wseq + 1 }

/-- The handle that a window instruction names (R81). -/
def CFields.handle (f : CFields) : Nat := f.ext.toNat % 8

/-- The operator that handle `h` will have once every operation in sequence has been performed. -/
def Team.operatorOf (t : Team) (h : Nat) : Option Nat :=
  (t.wq.filter (fun o => o.handle == h)).foldl (fun a o => match o.kind with
    | .init op _ _ _ _ _ => a.or (some op)
    | .free => none
    | _ => a) ((t.whand.find h).map (·.op))

/-- A window instruction that acts once for the group (R28, R269). -/
def windowOnce (i : Instr) (f : CFields) (kind : CIn → Except Flt WinKind) (s : State) : Out :=
  cIssue i { role := some 2, qb := 1, fc := some .wa } (fun x s1 =>
    if 1 < s.grp.paths.length then .fault fltIllegal false
    else
      match kind x with
      | .error e => .fault e false
      | .ok k => .done (s1.issueWindow x (CFields.handle f) [] k) 1) s

/-- WINIT (R295, R303). -/
def execWinit (f : CFields) (s : State) : Out :=
  let op := f.ext.toNat / 8 % 16
  let w := f.ext.toNat / 128 % 1024 + 1
  windowOnce (.winit f) f (fun x =>
    let b := (x.b.at 0).toNat
    if 63 < b || 63 < b + winBanks op w - 1 then .error fltIllegal
    else .ok (.init op f.dt f.rm w b (x.b.lbl.join x.k))) s

/-- WPUSH (R304). -/
def execWpush (f : CFields) (s : State) : Out :=
  cIssue (.wpush f) { role := some 2, fc := some .wa } (fun x s1 =>
    .done (s1.issueWindow x (CFields.handle f) [] (.push x.written x.a.lanes x.c.lanes x.a.lbl x.c.lbl)) 1) s

/-- WQRY (R226, R305): on a pair handle the register after D is written too. -/
def execWqry (f : CFields) (s : State) : Out :=
  let d := f.dst.toNat
  let pair := match s.tm.operatorOf (CFields.handle f) with | some op => winPair op | none => false
  cIssue (.wqry f) { role := some 2, static := fun v => !pair || decide (d + 1 < v), writes := if pair then [.reg (d + 1)] else [],
                       fc := some .wa }
    (fun x s1 =>
      .done (s1.issueWindow x (CFields.handle f) (Dst.reg d :: (if pair then [.reg (d + 1)] else [])) (.query x.written d x.full)) 1) s

/-- WSETW (R306). -/
def execWsetw (f : CFields) (s : State) : Out :=
  windowOnce (.wsetw f) f (fun x =>
    let w := (x.b.at 0).toNat
    if w = 0 || 1024 < w then .error fltIllegal else .ok (.setw w x.b.lbl)) s

/-- WFREE (R307). -/
def execWfree (f : CFields) (s : State) : Out := windowOnce (.wfree f) f (fun _ => .ok .free) s

/-- WSTAT (R308). -/
def execWstat (f : CFields) (s : State) : Out :=
  cIssue (.wstat f) { role := some 2, fc := some .wa } (fun x s1 =>
    .done (s1.issueWindow x (CFields.handle f) [.reg f.dst.toNat]
      (.stat x.written (f.ext.toNat / 8 % 4) f.dst.toNat x.full)) 1) s

/-! ## The window unit -/

/-- What an operation does at its sequence point: a fault (R301), or the team, the group and the flip cycles after it. -/
inductive WinRes where
  | bad (f : Flt)
  | ok (t : Team) (g : Group) (cost : Nat)

/-- Uncorrectable data in a bank that a handle binds (R230): any word of it (log 92). -/
def Team.windowBad (t : Team) (h : WHandle) : Bool :=
  t.accBad.any (fun e => e.2 && decide (h.bank ≤ e.1 / 32768) && decide (e.1 / 32768 < h.bank + h.nb))

/-- Whether an operation reads words of the bound banks (R230): WPUSH, WQRY and WSETW, any of them; WSTAT reports what the unit
counts, and WFREE reads nothing (R307; log 92). -/
def WinKind.reads : WinKind → Bool
  | .push .. | .query .. | .setw .. => true
  | .init .. | .free | .stat .. => false

/-- Bind a handle (R295, R303, R134). -/
def Team.winInit (t : Team) (g : Group) (n op : Nat) (ty : Ty) (rm : RM) (w bank : Nat) (l : Label) : WinRes :=
  let nb := winBanks op w
  let banks := (List.range nb).map (bank + ·)
  let free (b : Nat) : Bool := t.banks.getLsbD b && !t.whand.any (fun h => decide (h.2.bank ≤ b) && decide (b < h.2.bank + h.2.nb))
  if (t.whand.find n).isSome || !banks.all free then .bad fltWindow
  else .ok { t with whand := t.whand.put n { op := op, ty := ty, rm := rm, w := w, bank := bank, nb := nb, hc := l } } g 0

/-- Perform an operation on a bound handle (R134, R296-R308). -/
def Team.winAct (t : Team) (g : Group) (n : Nat) (h : WHandle) (k : Label) : WinKind → WinRes
  | .init .. => .bad fltWindow
  | .push mask a c la lc =>
    let x (l : Nat) : WElem :=
      if winPair h.op then (laneAt a l, laneAt c l, (la.join lc).join k) else (laneAt a l, 0#32, la.join k)
    let r := h.onLanes mask.getLsbD (fun l => if l.count = h.w then l.flipCost else 0) (fun i l => h.push l (x i))
    .ok { t with whand := t.whand.put n { r.1 with hc := h.hc.join k } } g r.2
  | .query mask d full =>
    let ls := (List.range 32).filter mask.getLsbD
    let lb := (h.hc.join k).join (Label.joinAll (ls.map (fun l => (h.ask (h.lane l)).2.2)))
    let g1 := g.writeVreg d mask (lanesOf (fun l => (h.ask (h.lane l)).1)) full lb
    .ok t (if winPair h.op then g1.writeVreg (d + 1) mask (lanesOf (fun l => (h.ask (h.lane l)).2.1)) full lb else g1) 0
  | .setw w l =>
    if h.nb * 2048 / winSize h.op < w then .bad fltWindow
    else
      let r := h.onLanes (fun _ => true) (fun x => if x.count ≤ w then 0 else if x.count - x.front.length ≤ w then 0 else x.back.length)
        (fun _ x => h.shrink w x.count x)
      .ok { t with whand := t.whand.put n { r.1 with w := w, hc := (h.hc.join k).join l } } g r.2
  | .free =>
    let mine (word : Nat) : Bool := decide (h.bank ≤ word / 32768) && decide (word / 32768 < h.bank + h.nb)
    .ok { t with whand := t.whand.del n, acc := t.acc.filter (fun e => !mine e.1) } g 0
  | .stat mask sel d full =>
    let v (l : Nat) : Nat := match sel with
      | 0 => (h.lane l).count
      | 1 => h.w
      | 2 => (h.lane l).flips
      | _ => h.stall
    .ok t (g.writeVreg d mask (lanesOf (fun l => BitVec.ofNat 32 (v l))) full (h.hc.join k)) 0

/-- WINDOW_OP_PERFORM (R298, R300, R301): the unit performs the next operation in sequence; while its flips take their
cycles, which are counted (R442), the gang issues nothing (R297). Which of the bound words an operation reads the manual does
not say: any marked one fails an operation that reads (R230; log 92). -/
def execWindowOpPerform (tn : Nat) (s : State) : Out :=
  let t := s.team tn
  match t.wq with
  | [] => s.idle
  | w :: rest =>
    let g := s.group w.g
    match g.op w.op with
    | none => s.idle
    | some o =>
      if t.state != .resident then s.idle
      else
        let t0 := { t with wq := rest }
        let r := match w.kind with
          | .init op ty rm n b l => t0.winInit g w.handle op ty rm n b l
          | k =>
            match t.whand.find w.handle with
            | none => .bad fltWindow
            | some h => if k.reads && t.windowBad h then .bad { code := 0x0E } else t0.winAct g w.handle h w.k k
        match r with
        | .bad f =>
          let g1 := (g.doneTickets o.quads o.tk).setOp { o with fail := some f, doneq := true }
          .next (((s.setTeam tn t0).setGroup w.g g1).settle w.g)
        | .ok t1 g1 cost =>
          let g2 := (((if o.dsts.isEmpty then g else g1).doneTickets o.quads o.tk).setOp { o with doneq := true }).tick o.quads cost
          .next ((((s.setTeam tn t1).setGroup w.g g2).pmGroup w.g 0x0A cost).settle w.g)

end Sys2Proof.Machine
end

