-- ==== Sys2Proof/Machine/Dispatch.lean ====
section
/-! DEFINITION. One arm for each row of the opcode table: the meaning that the row's step calls. -/

namespace Sys2Proof.Machine

open Sys2Proof

/-- Execute one instruction or take one step of another agent. The state says which group and path move. -/
def exec (i : Instr) (s : State) : Host.Outcome State Fault Refusal :=
  match i with
  | .add x0 x1 x2 => Sys2Proof.Machine.execAdd x0 x1 x2 s
  | .sub x0 x1 x2 => Sys2Proof.Machine.execSub x0 x1 x2 s
  | .mul x0 x1 x2 => Sys2Proof.Machine.execMul x0 x1 x2 s
  | .mulhi x0 x1 x2 => Sys2Proof.Machine.execMulhi x0 x1 x2 s
  | .divs x0 x1 x2 => Sys2Proof.Machine.execDivs x0 x1 x2 s
  | .divz x0 x1 x2 => Sys2Proof.Machine.execDivz x0 x1 x2 s
  | .rems x0 x1 x2 => Sys2Proof.Machine.execRems x0 x1 x2 s
  | .remz x0 x1 x2 => Sys2Proof.Machine.execRemz x0 x1 x2 s
  | .and x0 x1 x2 => Sys2Proof.Machine.execAnd x0 x1 x2 s
  | .or x0 x1 x2 => Sys2Proof.Machine.execOr x0 x1 x2 s
  | .xor x0 x1 x2 => Sys2Proof.Machine.execXor x0 x1 x2 s
  | .shl x0 x1 x2 => Sys2Proof.Machine.execShl x0 x1 x2 s
  | .shr x0 x1 x2 => Sys2Proof.Machine.execShr x0 x1 x2 s
  | .sar x0 x1 x2 => Sys2Proof.Machine.execSar x0 x1 x2 s
  | .min x0 x1 x2 => Sys2Proof.Machine.execMin x0 x1 x2 s
  | .max x0 x1 x2 => Sys2Proof.Machine.execMax x0 x1 x2 s
  | .minz x0 x1 x2 => Sys2Proof.Machine.execMinz x0 x1 x2 s
  | .maxz x0 x1 x2 => Sys2Proof.Machine.execMaxz x0 x1 x2 s
  | .slt x0 x1 x2 => Sys2Proof.Machine.execSlt x0 x1 x2 s
  | .sltz x0 x1 x2 => Sys2Proof.Machine.execSltz x0 x1 x2 s
  | .seq x0 x1 x2 => Sys2Proof.Machine.execSeq x0 x1 x2 s
  | .sel x0 x1 x2 x3 => Sys2Proof.Machine.execSel x0 x1 x2 x3 s
  | .addi x0 x1 x2 => Sys2Proof.Machine.execAddi x0 x1 x2 s
  | .andi x0 x1 x2 => Sys2Proof.Machine.execAndi x0 x1 x2 s
  | .ori x0 x1 x2 => Sys2Proof.Machine.execOri x0 x1 x2 s
  | .xori x0 x1 x2 => Sys2Proof.Machine.execXori x0 x1 x2 s
  | .shli x0 x1 x2 => Sys2Proof.Machine.execShli x0 x1 x2 s
  | .shri x0 x1 x2 => Sys2Proof.Machine.execShri x0 x1 x2 s
  | .sari x0 x1 x2 => Sys2Proof.Machine.execSari x0 x1 x2 s
  | .lih x0 x1 => Sys2Proof.Machine.execLih x0 x1 s
  | .li32 x0 x1 => Sys2Proof.Machine.execLi32 x0 x1 s
  | .addpc x0 x1 => Sys2Proof.Machine.execAddpc x0 x1 s
  | .ldk x0 x1 => Sys2Proof.Machine.execLdk x0 x1 s
  | .jmp x0 => Sys2Proof.Machine.execJmp x0 s
  | .call x0 x1 => Sys2Proof.Machine.execCall x0 x1 s
  | .loop x0 x1 => Sys2Proof.Machine.execLoop x0 x1 s
  | .beq x0 x1 x2 => Sys2Proof.Machine.execBeq x0 x1 x2 s
  | .bne x0 x1 x2 => Sys2Proof.Machine.execBne x0 x1 x2 s
  | .blt x0 x1 x2 => Sys2Proof.Machine.execBlt x0 x1 x2 s
  | .bge x0 x1 x2 => Sys2Proof.Machine.execBge x0 x1 x2 s
  | .blo x0 x1 x2 => Sys2Proof.Machine.execBlo x0 x1 x2 s
  | .bhs x0 x1 x2 => Sys2Proof.Machine.execBhs x0 x1 x2 s
  | .jr x0 => Sys2Proof.Machine.execJr x0 s
  | .ret x0 => Sys2Proof.Machine.execRet x0 s
  | .halt => Sys2Proof.Machine.execHalt s
  | .trap x0 x1 x2 => Sys2Proof.Machine.execTrap x0 x1 x2 s
  | .yield x0 => Sys2Proof.Machine.execYield x0 s
  | .lblrd x0 x1 => Sys2Proof.Machine.execLblrd x0 x1 s
  | .lblup x0 x1 x2 => Sys2Proof.Machine.execLblup x0 x1 x2 s
  | .glbl x0 x1 x2 => Sys2Proof.Machine.execGlbl x0 x1 x2 s
  | .dcls x0 x1 x2 => Sys2Proof.Machine.execDcls x0 x1 x2 s
  | .markJoin => Sys2Proof.Machine.execMarkJoin s
  | .markUser x0 => Sys2Proof.Machine.execMarkUser x0 s
  | .brk x0 => Sys2Proof.Machine.execBrk x0 s
  | .yieldRec x0 => Sys2Proof.Machine.execYieldRec x0 s
  | .lds x0 x1 x2 => Sys2Proof.Machine.execLds x0 x1 x2 s
  | .sts x0 x1 x2 => Sys2Proof.Machine.execSts x0 x1 x2 s
  | .amosAdd x0 x1 x2 => Sys2Proof.Machine.execAmosAdd x0 x1 x2 s
  | .amosAnd x0 x1 x2 => Sys2Proof.Machine.execAmosAnd x0 x1 x2 s
  | .amosOr x0 x1 x2 => Sys2Proof.Machine.execAmosOr x0 x1 x2 s
  | .amosXor x0 x1 x2 => Sys2Proof.Machine.execAmosXor x0 x1 x2 s
  | .amosMin x0 x1 x2 => Sys2Proof.Machine.execAmosMin x0 x1 x2 s
  | .amosMax x0 x1 x2 => Sys2Proof.Machine.execAmosMax x0 x1 x2 s
  | .amosMinz x0 x1 x2 => Sys2Proof.Machine.execAmosMinz x0 x1 x2 s
  | .amosMaxz x0 x1 x2 => Sys2Proof.Machine.execAmosMaxz x0 x1 x2 s
  | .amosSwap x0 x1 x2 => Sys2Proof.Machine.execAmosSwap x0 x1 x2 s
  | .amosCas x0 x1 x2 => Sys2Proof.Machine.execAmosCas x0 x1 x2 s
  | .vld x0 x1 x2 => Sys2Proof.Machine.execVld x0 x1 x2 s
  | .vsta x0 x1 => Sys2Proof.Machine.execVsta x0 x1 s
  | .pref x0 x1 => Sys2Proof.Machine.execPref x0 x1 s
  | .run x0 x1 => Sys2Proof.Machine.execRun x0 x1 s
  | .slipset x0 => Sys2Proof.Machine.execSlipset x0 s
  | .popca x0 => Sys2Proof.Machine.execPopca x0 s
  | .port x0 => Sys2Proof.Machine.execPort x0 s
  | .coll x0 => Sys2Proof.Machine.execColl x0 s
  | .alloc x0 x1 => Sys2Proof.Machine.execAlloc x0 x1 s
  | .free x0 => Sys2Proof.Machine.execFree x0 s
  | .resv x0 x1 x2 => Sys2Proof.Machine.execResv x0 x1 x2 s
  | .unresv x0 => Sys2Proof.Machine.execUnresv x0 s
  | .detset x0 x1 => Sys2Proof.Machine.execDetset x0 x1 s
  | .waitfc x0 x1 => Sys2Proof.Machine.execWaitfc x0 x1 s
  | .sigadd x0 x1 => Sys2Proof.Machine.execSigadd x0 x1 s
  | .sigdec x0 x1 => Sys2Proof.Machine.execSigdec x0 x1 s
  | .sigwait x0 x1 => Sys2Proof.Machine.execSigwait x0 x1 s
  | .launch x0 => Sys2Proof.Machine.execLaunch x0 s
  | .early => Sys2Proof.Machine.execEarly s
  | .barinit x0 x1 => Sys2Proof.Machine.execBarinit x0 x1 s
  | .bararv x0 x1 x2 => Sys2Proof.Machine.execBararv x0 x1 x2 s
  | .barwait x0 x1 => Sys2Proof.Machine.execBarwait x0 x1 s
  | .fence x0 x1 => Sys2Proof.Machine.execFence x0 x1 s
  | .getsr x0 x1 => Sys2Proof.Machine.execGetsr x0 x1 s
  | .setsr x0 x1 => Sys2Proof.Machine.execSetsr x0 x1 s
  | .vadd x0 => Sys2Proof.Machine.execVadd x0 s
  | .vsub x0 => Sys2Proof.Machine.execVsub x0 s
  | .vmul x0 => Sys2Proof.Machine.execVmul x0 s
  | .vmulhi x0 => Sys2Proof.Machine.execVmulhi x0 s
  | .vmad x0 => Sys2Proof.Machine.execVmad x0 s
  | .vadds x0 => Sys2Proof.Machine.execVadds x0 s
  | .vsubs x0 => Sys2Proof.Machine.execVsubs x0 s
  | .vand x0 => Sys2Proof.Machine.execVand x0 s
  | .vor x0 => Sys2Proof.Machine.execVor x0 s
  | .vxor x0 => Sys2Proof.Machine.execVxor x0 s
  | .vnot x0 => Sys2Proof.Machine.execVnot x0 s
  | .vshl x0 => Sys2Proof.Machine.execVshl x0 s
  | .vshr x0 => Sys2Proof.Machine.execVshr x0 s
  | .vsar x0 => Sys2Proof.Machine.execVsar x0 s
  | .vmin x0 => Sys2Proof.Machine.execVmin x0 s
  | .vmax x0 => Sys2Proof.Machine.execVmax x0 s
  | .vabs x0 => Sys2Proof.Machine.execVabs x0 s
  | .vneg x0 => Sys2Proof.Machine.execVneg x0 s
  | .vcmp x0 => Sys2Proof.Machine.execVcmp x0 s
  | .vsel x0 => Sys2Proof.Machine.execVsel x0 s
  | .vpopc x0 => Sys2Proof.Machine.execVpopc x0 s
  | .vclz x0 => Sys2Proof.Machine.execVclz x0 s
  | .vbfe x0 => Sys2Proof.Machine.execVbfe x0 s
  | .vbfi x0 => Sys2Proof.Machine.execVbfi x0 s
  | .vpack x0 => Sys2Proof.Machine.execVpack x0 s
  | .vunpk x0 => Sys2Proof.Machine.execVunpk x0 s
  | .vfadd x0 => Sys2Proof.Machine.execVfadd x0 s
  | .vfsub x0 => Sys2Proof.Machine.execVfsub x0 s
  | .vfmul x0 => Sys2Proof.Machine.execVfmul x0 s
  | .vfma x0 => Sys2Proof.Machine.execVfma x0 s
  | .vfmin x0 => Sys2Proof.Machine.execVfmin x0 s
  | .vfmax x0 => Sys2Proof.Machine.execVfmax x0 s
  | .vfabs x0 => Sys2Proof.Machine.execVfabs x0 s
  | .vfneg x0 => Sys2Proof.Machine.execVfneg x0 s
  | .vfcmp x0 => Sys2Proof.Machine.execVfcmp x0 s
  | .vfclass x0 => Sys2Proof.Machine.execVfclass x0 s
  | .vcvt x0 => Sys2Proof.Machine.execVcvt x0 s
  | .vqnt x0 => Sys2Proof.Machine.execVqnt x0 s
  | .vdqnt x0 => Sys2Proof.Machine.execVdqnt x0 s
  | .vscalb x0 => Sys2Proof.Machine.execVscalb x0 s
  | .vexp2 x0 => Sys2Proof.Machine.execVexp2 x0 s
  | .vlog2 x0 => Sys2Proof.Machine.execVlog2 x0 s
  | .vrcp x0 => Sys2Proof.Machine.execVrcp x0 s
  | .vrsq x0 => Sys2Proof.Machine.execVrsq x0 s
  | .vsqrt x0 => Sys2Proof.Machine.execVsqrt x0 s
  | .vtanh x0 => Sys2Proof.Machine.execVtanh x0 s
  | .vsin x0 => Sys2Proof.Machine.execVsin x0 s
  | .vcos x0 => Sys2Proof.Machine.execVcos x0 s
  | .vshuf x0 => Sys2Proof.Machine.execVshuf x0 s
  | .vshfl x0 => Sys2Proof.Machine.execVshfl x0 s
  | .vvote x0 => Sys2Proof.Machine.execVvote x0 s
  | .vred x0 => Sys2Proof.Machine.execVred x0 s
  | .vscan x0 => Sys2Proof.Machine.execVscan x0 s
  | .vbcast x0 => Sys2Proof.Machine.execVbcast x0 s
  | .settw x0 => Sys2Proof.Machine.execSettw x0 s
  | .vmov x0 => Sys2Proof.Machine.execVmov x0 s
  | .vrand x0 => Sys2Proof.Machine.execVrand x0 s
  | .vldx x0 => Sys2Proof.Machine.execVldx x0 s
  | .vstx x0 => Sys2Proof.Machine.execVstx x0 s
  | .vstxNotify x0 => Sys2Proof.Machine.execVstxNotify x0 s
  | .vamo x0 => Sys2Proof.Machine.execVamo x0 s
  | .vamoDet x0 => Sys2Proof.Machine.execVamoDet x0 s
  | .spld x0 => Sys2Proof.Machine.execSpld x0 s
  | .spst x0 => Sys2Proof.Machine.execSpst x0 s
  | .spamo x0 => Sys2Proof.Machine.execSpamo x0 s
  | .std x0 => Sys2Proof.Machine.execStd x0 s
  | .senda x0 => Sys2Proof.Machine.execSenda x0 s
  | .acld x0 => Sys2Proof.Machine.execAcld x0 s
  | .acst x0 => Sys2Proof.Machine.execAcst x0 s
  | .cwait x0 => Sys2Proof.Machine.execCwait x0 s
  | .carv x0 => Sys2Proof.Machine.execCarv x0 s
  | .mxloop x0 => Sys2Proof.Machine.execMxloop x0 s
  | .mxgrp x0 => Sys2Proof.Machine.execMxgrp x0 s
  | .mxzero x0 => Sys2Proof.Machine.execMxzero x0 s
  | .accvt x0 => Sys2Proof.Machine.execAccvt x0 s
  | .winit x0 => Sys2Proof.Machine.execWinit x0 s
  | .wpush x0 => Sys2Proof.Machine.execWpush x0 s
  | .wqry x0 => Sys2Proof.Machine.execWqry x0 s
  | .wsetw x0 => Sys2Proof.Machine.execWsetw x0 s
  | .wfree x0 => Sys2Proof.Machine.execWfree x0 s
  | .wstat x0 => Sys2Proof.Machine.execWstat x0 s
  | .xunpk x0 => Sys2Proof.Machine.execXunpk x0 s
  | .xdec x0 => Sys2Proof.Machine.execXdec x0 s
  | .xlut x0 => Sys2Proof.Machine.execXlut x0 s
  | .vdcls x0 => Sys2Proof.Machine.execVdcls x0 s
  | .vlblrd x0 => Sys2Proof.Machine.execVlblrd x0 s
  | .vlblup x0 => Sys2Proof.Machine.execVlblup x0 s
  | .vsys x0 => Sys2Proof.Machine.execVsys x0 s
  | .vbrk x0 => Sys2Proof.Machine.execVbrk x0 s
  | .trlTake x0 => Sys2Proof.Machine.execTrlTake x0 s
  | .trlFall x0 => Sys2Proof.Machine.execTrlFall x0 s
  | .trlSkip x0 x1 x2 => Sys2Proof.Machine.execTrlSkip x0 x1 x2 s
  | .trlRegang x0 x1 => Sys2Proof.Machine.execTrlRegang x0 x1 s
  | .trlEnd x0 => Sys2Proof.Machine.execTrlEnd x0 s
  | .nop => Sys2Proof.Machine.execNop s
  | .fixedLatencyWrite x0 x1 => Sys2Proof.Machine.execFixedLatencyWrite x0 x1 s
  | .runStart x0 x1 => Sys2Proof.Machine.execRunStart x0 x1 s
  | .takeEntry x0 x1 => Sys2Proof.Machine.execTakeEntry x0 x1 s
  | .quadEnd x0 x1 => Sys2Proof.Machine.execQuadEnd x0 x1 s
  | .groupFinish x0 => Sys2Proof.Machine.execGroupFinish x0 s
  | .unpairedDeadlock x0 => Sys2Proof.Machine.execUnpairedDeadlock x0 s
  | .decoupleDeadlockDetect x0 => Sys2Proof.Machine.execDecoupleDeadlockDetect x0 s
  | .popcaDeadlock x0 => Sys2Proof.Machine.execPopcaDeadlock x0 s
  | .ageCounterAged x0 x1 => Sys2Proof.Machine.execAgeCounterAged x0 x1 s
  | .vldEntryPresent x0 x1 => Sys2Proof.Machine.execVldEntryPresent x0 x1 s
  | .vldFail x0 x1 => Sys2Proof.Machine.execVldFail x0 x1 s
  | .vldPoisonIdle x0 => Sys2Proof.Machine.execVldPoisonIdle x0 s
  | .ldsComplete x0 x1 => Sys2Proof.Machine.execLdsComplete x0 x1 s
  | .stsComplete x0 x1 => Sys2Proof.Machine.execStsComplete x0 x1 s
  | .amosComplete x0 x1 => Sys2Proof.Machine.execAmosComplete x0 x1 s
  | .detsetComplete x0 x1 => Sys2Proof.Machine.execDetsetComplete x0 x1 s
  | .queueStore x0 => Sys2Proof.Machine.execQueueStore x0 s
  | .storeApply x0 x1 x2 => Sys2Proof.Machine.execStoreApply x0 x1 x2 s
  | .laneAccessComplete x0 x1 => Sys2Proof.Machine.execLaneAccessComplete x0 x1 s
  | .sliceStop x0 x1 => Sys2Proof.Machine.execSliceStop x0 x1 s
  | .barwaitSatisfied x0 => Sys2Proof.Machine.execBarwaitSatisfied x0 s
  | .cwaitSatisfied x0 x1 => Sys2Proof.Machine.execCwaitSatisfied x0 x1 s
  | .sigwaitReread x0 => Sys2Proof.Machine.execSigwaitReread x0 s
  | .fenceComplete x0 => Sys2Proof.Machine.execFenceComplete x0 s
  | .waitfcSatisfied x0 => Sys2Proof.Machine.execWaitfcSatisfied x0 s
  | .allocGrant x0 => Sys2Proof.Machine.execAllocGrant x0 s
  | .allocDeadlockDetect x0 => Sys2Proof.Machine.execAllocDeadlockDetect x0 s
  | .bankFree x0 => Sys2Proof.Machine.execBankFree x0 s
  | .resvRelease x0 => Sys2Proof.Machine.execResvRelease x0 s
  | .porterComplete x0 x1 => Sys2Proof.Machine.execPorterComplete x0 x1 s
  | .transformReply x0 x1 => Sys2Proof.Machine.execTransformReply x0 x1 s
  | .weighhouseAnswer x0 x1 => Sys2Proof.Machine.execWeighhouseAnswer x0 x1 s
  | .syscallSlotPoll x0 => Sys2Proof.Machine.execSyscallSlotPoll x0 s
  | .pitchEntryStart x0 x1 => Sys2Proof.Machine.execPitchEntryStart x0 x1 s
  | .matrixStep x0 x1 => Sys2Proof.Machine.execMatrixStep x0 x1 s
  | .pitchEntryComplete x0 x1 => Sys2Proof.Machine.execPitchEntryComplete x0 x1 s
  | .accvtComplete x0 x1 => Sys2Proof.Machine.execAccvtComplete x0 x1 s
  | .windowOpPerform x0 => Sys2Proof.Machine.execWindowOpPerform x0 s
  | .detContribution x0 x1 x2 => Sys2Proof.Machine.execDetContribution x0 x1 x2 s
  | .collComplete x0 x1 => Sys2Proof.Machine.execCollComplete x0 x1 s
  | .loadRequest x0 => Sys2Proof.Machine.execLoadRequest x0 s
  | .loadReply x0 => Sys2Proof.Machine.execLoadReply x0 s
  | .storeFrame x0 => Sys2Proof.Machine.execStoreFrame x0 s
  | .acknowledgement x0 => Sys2Proof.Machine.execAcknowledgement x0 s
  | .atomicFrame x0 => Sys2Proof.Machine.execAtomicFrame x0 s
  | .atomicReply x0 => Sys2Proof.Machine.execAtomicReply x0 s
  | .notifyArrival x0 => Sys2Proof.Machine.execNotifyArrival x0 s
  | .rejection x0 => Sys2Proof.Machine.execRejection x0 s
  | .invalidation x0 => Sys2Proof.Machine.execInvalidation x0 s
  | .invalidationAcknowledgement x0 => Sys2Proof.Machine.execInvalidationAcknowledgement x0 s
  | .fenceNotice x0 => Sys2Proof.Machine.execFenceNotice x0 s
  | .dupUpdate x0 => Sys2Proof.Machine.execDupUpdate x0 s
  | .dupAcknowledgement x0 => Sys2Proof.Machine.execDupAcknowledgement x0 s
  | .contribution x0 => Sys2Proof.Machine.execContribution x0 s
  | .combinedContribution x0 => Sys2Proof.Machine.execCombinedContribution x0 s
  | .resultChunk x0 => Sys2Proof.Machine.execResultChunk x0 s
  | .shootdownRequest x0 x1 x2 => Sys2Proof.Machine.execShootdownRequest x0 x1 x2 s
  | .shootdownTimeout => Sys2Proof.Machine.execShootdownTimeout s
  | .replyTimeout x0 => Sys2Proof.Machine.execReplyTimeout x0 s
  | .dupAckTimeout x0 => Sys2Proof.Machine.execDupAckTimeout x0 s
  | .teamFaultSave x0 => Sys2Proof.Machine.execTeamFaultSave x0 s
  | .dispPoll x0 => Sys2Proof.Machine.execDispPoll x0 s
  | .teamRetire x0 => Sys2Proof.Machine.execTeamRetire x0 s
  | .gridRetire x0 => Sys2Proof.Machine.execGridRetire x0 s
  | .gridAdmit x0 => Sys2Proof.Machine.execGridAdmit x0 s
  | .teamPlace x0 => Sys2Proof.Machine.execTeamPlace x0 s
  | .preemptMark x0 => Sys2Proof.Machine.execPreemptMark x0 s
  | .teamSaveYield x0 => Sys2Proof.Machine.execTeamSaveYield x0 s
  | .preemptDeadline x0 => Sys2Proof.Machine.execPreemptDeadline x0 s
  | .teamResume x0 => Sys2Proof.Machine.execTeamResume x0 s
  | .deviceReset x0 => Sys2Proof.Machine.execDeviceReset x0 s
  | .ownerRegister x0 x1 x2 => Sys2Proof.Machine.execOwnerRegister x0 x1 x2 s
  | .endorsementInstall x0 => Sys2Proof.Machine.execEndorsementInstall x0 s
  | .evidenceRequest x0 x1 => Sys2Proof.Machine.execEvidenceRequest x0 x1 s
  | .firmwareUpdate x0 x1 => Sys2Proof.Machine.execFirmwareUpdate x0 x1 s
  | .debugUnlock x0 => Sys2Proof.Machine.execDebugUnlock x0 s
  | .protectedContextCreate x0 x1 => Sys2Proof.Machine.execProtectedContextCreate x0 x1 s
  | .keyRotate x0 => Sys2Proof.Machine.execKeyRotate x0 s
  | .frameAllocate x0 x1 x2 => Sys2Proof.Machine.execFrameAllocate x0 x1 x2 s
  | .powerRedivide x0 => Sys2Proof.Machine.execPowerRedivide x0 s
  | .trcctlWrite x0 x1 => Sys2Proof.Machine.execTrcctlWrite x0 x1 s
  | .traceSample x0 x1 => Sys2Proof.Machine.execTraceSample x0 x1 s
  | .traceLeaseBroken x0 => Sys2Proof.Machine.execTraceLeaseBroken x0 s
  | .pmuRotate x0 => Sys2Proof.Machine.execPmuRotate x0 s
  | .bkctlHrel x0 x1 => Sys2Proof.Machine.execBkctlHrel x0 x1 s
  | .breakpointMatch x0 x1 x2 => Sys2Proof.Machine.execBreakpointMatch x0 x1 x2 s
  | .dbgstepWrite x0 x1 => Sys2Proof.Machine.execDbgstepWrite x0 x1 s
  | .stepStop x0 => Sys2Proof.Machine.execStepStop x0 s
  | .debugRead x0 x1 => Sys2Proof.Machine.execDebugRead x0 x1 s
  | .registerWrite x0 x1 x2 => Sys2Proof.Machine.execRegisterWrite x0 x1 x2 s
  | .hostBar2Read x0 x1 => Sys2Proof.Machine.execHostBar2Read x0 x1 s
  | .hostBar2Write x0 x1 => Sys2Proof.Machine.execHostBar2Write x0 x1 s
  | .lineRelocation x0 => Sys2Proof.Machine.execLineRelocation x0 s
  | .fenceClear x0 => Sys2Proof.Machine.execFenceClear x0 s
  | .savedTeamAged x0 => Sys2Proof.Machine.execSavedTeamAged x0 s
  | .resumedResidency10ms x0 => Sys2Proof.Machine.execResumedResidency10ms x0 s

end Sys2Proof.Machine
end

