-- ==== Sys2Proof/Machine/Outside.lean ====
section
/-! DEFINITION. The steps beside the opcode table: one access of an operation in flight performed apart from its others
(R340-R348), and what the driver, the firmware and the host write and read (R136, R343, R359, R396, R403, R405, R406,
R421-R424). -/

namespace Sys2Proof.Machine

/-! ## One access -/

/-- Whether an operation's accesses are performed one by one here: a queue store that still stands in SAQ is not (R323), nor
are the lanes of an SPST or SPAMO (R244), a transfer's stores that are no whole word (R133), and a deterministic contribution has
a step of its own (R349). -/
def Op.performsAlone (o : Op) (g : Group) (a : Acc) : Bool :=
  !o.doneq && o.fail.isNone && !g.unpaired o && !o.together && !(o.engine && a.kind.isStore && a.size != 4) && a.kind != .contrib
    && !a.done && !a.held && !a.sent

/-- Perform one access of an operation at this device, apart from the others (R348). The label checks of its instruction, or of
its chunk of a collective, have then been made (R128). An access that is kept after an older one, or that fails, is left to the
step that completes its operation. -/
def State.accessAlone (s : State) (k : Nat) (o : Op) (i : Nat) : State :=
  match o.accs[i]? with
  | none => s
  | some a =>
    let mine (x : Acc) : Bool := match o.data with | .coll .. => x.lane == a.lane | _ => true
    if !o.performsAlone (s.group k) a || !s.isLocal a then s
    else
      match s.performPart k o mine (· == i) with
      | .ok s1 accs => s1.putOp k { o with accs := accs.map (fun x => if mine x && s.isLocal x then { x with chk := true } else x) }
      | _ => s

/-- The store unit takes the two heads of SAQ and SDQ, whose lanes are then performed one by one (R19, R348). -/
def State.pairStore (s : State) (k : Nat) : State :=
  match s.queueStore k true with
  | .next t => t
  | _ => s

/-- The next step of an operation that performs its accesses one by one: an engine first starts, and a transfer that has read
its source turns to its stores (R175, R348, R417). -/
def State.access (s : State) (k id i : Nat) : State :=
  match (s.group k).op id with
  | none => s
  | some o =>
    match o.data with
    | .port c 0 l =>
      if o.doneq || !(s.group k).engineReady o then s else let x := s.portStart k o c l; x.1.putOp k x.2
    | .port c 1 _ =>
      if !o.doneq && (s.group k).engineReady o && o.accs.all (·.done) then s.portTurn k o c else s.accessAlone k o i
    | .coll c 0 _ _ =>
      if o.doneq || !(s.group k).engineReady o then s else let x := s.collStart k o c; x.1.putOp k x.2
    | _ => s.accessAlone k o i

/-! ## Tables -/

/-- The driver writes the root of a context's address space, that of a new context too (R396). -/
def State.contextRoot (s : State) (ctx root : Nat) : State :=
  match s.ctxs.find ctx with
  | some c => { s with ctxs := s.ctxs.put ctx { c with root := root } }
  | none => { s with ctxs := s.ctxs.put ctx { root := root } }

/-- Change a context that exists. -/
def State.onCtx (s : State) (ctx : Nat) (f : Ctx → Ctx) : State :=
  match s.ctxs.find ctx with
  | some c => { s with ctxs := s.ctxs.put ctx (f c) }
  | none => s

/-- One of the 32 entries of an endpoint table is written, or taken out (R136). -/
def Ctx.setEndpoint (c : Ctx) (slot : Nat) (e : Option (Endpoint × Label)) : Ctx :=
  if 32 ≤ slot then c
  else match e with
  | some x => { c with epl := c.epl.put slot x }
  | none => { c with epl := c.epl.del slot }

/-- An entry of the duplicate map, which holds 65 536, is written or taken out (R421). -/
def State.dupEntry (s : State) (home : Nat) (copy : Option Nat) : State :=
  match copy with
  | none => { s with dupMap := s.dupMap.del home }
  | some f =>
    if (s.dupMap.find home).isNone && decide (65536 ≤ s.dupMap.length) then s else { s with dupMap := s.dupMap.put home f }

/-- Stored data becomes uncorrectable. -/
def State.upsetAt (s : State) : Upset → State
  | .memory n => { s with bad := s.bad.set false n true }
  | .scratch t n => let x := s.team t; s.setTeam t { x with spBad := x.spBad.set false n true }
  | .acc t n => let x := s.team t; s.setTeam t { x with accBad := x.accBad.set false n true }
  | .weight t n => let x := s.team t; s.setTeam t { x with wBad := x.wBad.set false n true }
  | .latch t p n =>
    let x := s.team t
    s.setTeam t { x with pitches := x.pitches.mapVals (fun q y =>
      if q = p then { y with latch := y.latch.map (fun l => { l with bad := if l.bad.contains n then l.bad else n :: l.bad }) } else y) }

/-- What the register at an offset of the MMIO window reads as: those of the cores' debug blocks (R439), and the extents of the
second tier (R448). No other offset names a register. -/
def State.mmio (s : State) (off : Nat) : Nat :=
  if 0x1000000 ≤ off ∧ off < 0x1000000 + 0x1000 * Config.cores then (s.core ((off - 0x1000000) / 0x1000)).reg (off % 0x1000)
  else if 0x2000000 ≤ off ∧ off < 0x2000030 ∧ off % 8 = 0 then s.extents.get 0 ((off - 0x2000000) / 8)
  else 0

/-! ## The step -/

/-- A step beside the opcode table. One that cannot be made leaves the state as it is. -/
def State.act (s : State) : Act → State
  | .access k id i => s.access k id i
  | .pair k => s.pairStore k
  | .apart b => { s with apart := b }
  | .ownNext => s.ownNext
  | .contextRoot ctx root => s.contextRoot ctx root
  | .contextDevices ctx devs => s.onCtx ctx (fun c => { c with devices := devs })
  | .endpoint ctx slot e => s.onCtx ctx (fun c => c.setEndpoint slot e)
  | .dupEntry home copy => s.dupEntry home copy
  | .dupHolders home devs => { s with dupHolders := s.dupHolders.set [] home devs }
  | .aperture base => { s with bar2 := base }
  | .hostBase base => s.rebase base
  | .shootTimeout c => if 27000 ≤ c ∧ c ≤ 27000000 then { s with shootTimeout := c } else s
  | .route dev ports => if dev ≤ 1023 then { s with routes := s.routes.put dev ports } else s
  | .hostWrite bus bytes => (bytes.zipIdx bus).foldl (fun a e => a.hostPut e.2 e.1) s
  | .mmioRead off => { s with hostData := bytesOf (s.mmio off) 8 }
  | .upset u => s.upsetAt u

end Sys2Proof.Machine
end

