-- ==== Sys2Proof/Machine/Schedule.lean ====
section
/-! DEFINITION. Issue by a group and the schedulers' choice between groups and paths, with its ages (R315-R319, R370). -/

namespace Sys2Proof.Machine

open Sys2Proof

/-! ## Issue -/

/-- The address slice of a group issues: the word at which it waits, or the word at APC. -/
def State.runA (s : State) (k : Nat) : Host.Outcome State Fault Refusal :=
  let s1 := { s with cur := k }
  if !s1.aReady k then .next s1
  else
    match (s1.group k).await with
    | some i => afterIssue k 0 0x03 (s1.group k).aret Group.aret (exec i s1)
    | none =>
      match s1.fetchA k with
      | .bad f => .next (s1.raiseA f)
      | .wait s2 => .next s2
      | .ok s2 i => afterIssue k 0 0x03 (s1.group k).aret Group.aret (exec i s2)

/-- A path of a group issues the parcel at its position, or goes on with the trailer whose tickets it awaits (R320). -/
def State.runC (s : State) (k p : Nat) : Host.Outcome State Fault Refusal :=
  let s1 := { s with cur := k, curPath := p }
  if !s1.cReady k p then .next s1
  else
    match s1.path.trail with
    | some i => exec i s1
    | none =>
      match s1.fetchC k s1.path with
      | .bad f => .next (s1.raiseC f)
      | .wait s2 => .next s2
      | .ok s2 i => afterIssue k s1.path.qmask 0x02 (s1.group k).cret Group.cret (exec i s2)

/-! ## Readiness -/

/-- A turn has made a group issue or fault, rather than wait. -/
def Group.acted (g : Group) (k : Nat) : Host.Outcome State Fault Refusal → Bool
  | .next s =>
    let h := s.group k
    h.aret != g.aret || h.cret != g.cret || h.fault.isSome != g.fault.isSome || h.lostFault != g.lostFault
  | _ => true

/-- The requests that a group's TRAP, SIGADD or SIGDEC awaits at its word. -/
def Group.requests (g : Group) : Nat := g.ops.countP (fun o => !o.cslice && !o.doneq && (o.data == .syscall || o.data == .signal))

/-- The next word of a group can issue: it does not wait, or it sends the request that it then waits for (R154, R319). -/
def State.canA (s : State) (k : Nat) : Bool :=
  (s.group k).acted k (s.runA k) || (match s.runA k with | .next t => decide ((s.group k).requests < (t.group k).requests) | _ => false)

/-- The next instruction of a path can issue (R315, R317); what is left of a trailer needs no scheduler (R320). -/
def State.canC (s : State) (k p : Nat) : Bool :=
  ((s.group k).paths.find p).any (·.phase == .issuing) && (s.group k).acted k (s.runC k p)

/-- A path can begin a run: it has its entry of RQ or has passed a FALL trailer, and its drain has ended (R309, R317). -/
def State.canStart (s : State) (k : Nat) (x : Path) : Bool :=
  let g := s.group k
  x.phase == .fall && g.drained x && s.mayIssue k false && !g.cstopped

/-- A path at TAKE whose head of RQ holds a run, and whose drain has ended (R317). -/
def State.canTake (s : State) (k : Nat) (x : Path) : Bool :=
  let g := s.group k
  x.phase == .take && g.drained x && s.mayIssue k true && !g.cstopped
    && (match g.rqEntry x.qmask with | some (.run _ _) => true | _ => false)

/-- A path is ready for C-stream issue (R317). -/
def State.readyPath (s : State) (k p : Nat) : Bool :=
  match (s.group k).paths.find p with
  | none => false
  | some x => s.canStart k x || s.canTake k x || s.canC k p

/-! ## The choice -/

/-- The rank of a group, the highest being the first (R317): aged groups in the order of admission, then the others by
class and admission; groups of one admission by GIDX. -/
def State.groupRank (s : State) (k age : Nat) : List Nat :=
  let old := decide (512 ≤ age)
  [if old then 0 else 1, if old then 0 else 3 - (s.recOf k).prio, (s.team (teamOf k)).admitted, (s.group k).gidx]

/-- The order of the paths of a group (R317): the one whose last run began longest ago, then the lowest quad. -/
def State.pathRank (s : State) (k p : Nat) : List Nat :=
  let x := (s.group k).paths.get Path.none p
  [x.began, (quadSet x.qmask).headD 8]

/-- The other groups of a group's scheduler (R315). -/
def State.rivals (s : State) (k : Nat) : List Nat :=
  (s.groups.map (·.1)).filter (fun h => h != k && (s.group h).sched == (s.group k).sched
    && (s.team (teamOf h)).core == (s.team (teamOf k)).core)

/-- No other path of the scheduler is ready and comes first (R317). -/
def State.firstPath (s : State) (k p : Nat) : Bool :=
  !(s.rivals k).any (fun h => rankLt (s.groupRank h (s.group h).ageC) (s.groupRank k (s.group k).ageC)
      && ((s.group h).paths.map (·.1)).any (s.readyPath h))
    && !((s.group k).paths.map (·.1)).any (fun q => q != p && rankLt (s.pathRank k q) (s.pathRank k p) && s.readyPath k q)

/-- The current path of a scheduler is another path and can issue: it keeps the scheduler (R315). -/
def State.otherRuns (s : State) (k p : Nat) : Bool :=
  match s.current k with
  | some (h, q) => !(h == k && q == p) && s.canC h q
  | none => false

/-- The scheduler of a group chooses this path (R315, R317): it is current and in a run, or no other path keeps the scheduler
or comes first. -/
def State.chooses (s : State) (k p : Nat) : Bool :=
  (s.current k == some (k, p) && ((s.group k).paths.find p).any (·.phase == .issuing)) || (!s.otherRuns k p && s.firstPath k p)

/-- The scheduler of a group chooses it for A-stream issue (R319). -/
def State.choosesA (s : State) (k : Nat) : Bool :=
  !(s.rivals k).any (fun h => rankLt (s.groupRank h (s.group h).ageA) (s.groupRank k (s.group k).ageA) && s.canA h)

/-! ## Turns -/

/-- A path that has issued is the current path of its scheduler, until its trailer issues (R315, R320). -/
def State.keepCurrent (s : State) (k p : Nat) : Host.Outcome State Fault Refusal → Host.Outcome State Fault Refusal
  | .next t =>
    .next (if (t.group k).cret = (s.group k).cret then t
           else if ((t.group k).paths.find p).any (·.phase == .issuing) then t.setCurrent k p
           else t.clearCurrent k)
  | r => r

/-- The turn of a path: it issues when its scheduler chooses it; a path that only waits may find that out at any time. -/
def State.turnC (s : State) (k p : Nat) : Host.Outcome State Fault Refusal :=
  if s.chooses k p || !s.canC k p then s.keepCurrent k p (s.runC k p) else .next s

/-- Cycles that a core loses under an event code of R442, of `n` that pass, `free` being free (log 4): under 0x05 and 0x07 each
cycle in which a path of the counted context waits, once or for each such path; under 0x0C and 0x0D at most each cycle for each
pitch with a queue, or scheduler with a group, of that context. -/
def State.lostCycles (s : State) (core code n free : Nat) : Nat :=
  let ctx := (s.core core).reg 0x100 / 2 ^ 48
  let gs := (s.groups.filter (fun e => (s.team (teamOf e.1)).core == core && (s.team (teamOf e.1)).state == .resident
    && s.ctxOf e.1 == ctx)).map (·.2)
  let paths := gs.flatMap (fun g => g.paths.map (fun p => (g, p.2)))
  let least (k : Nat) : Nat := if k = 0 then 0 else max n (min free (n * k))
  if code = 0x05 then least (paths.countP (fun x => x.1.trailerWait x.2))
  else if code = 0x07 then least (paths.countP (fun x => x.1.starved x.2))
  else if code = 0x0C then
    min free (n * ((s.teams.filter (fun e => e.2.core == core && e.2.state == .resident && (s.grid e.2.grid).ctx == ctx)).flatMap
      (fun e => e.2.pitches.filter (fun p => !p.2.queue.isEmpty))).length)
  else min free (n * ((List.range 4).filter (fun i => gs.any (fun g => g.sched == i))).length)

/-- The turn of an address slice. -/
def State.turnA (s : State) (k : Nat) : Host.Outcome State Fault Refusal :=
  if s.choosesA k || !s.canA k then s.runA k else .next s

/-- The group whose waiting word an agent's step issues again (R158), if the step is of that kind. -/
def State.retriedGroup (s : State) : Instr → Option Nat
  | .waitfcSatisfied k | .fenceComplete k | .barwaitSatisfied k | .sigwaitReread k | .bankFree k | .resvRelease k => some k
  | .allocGrant core => (s.allocWaiters core).head?
  | _ => none

/-- Take one turn. A turn that names as another agent's step an instruction that only a group issues changes nothing; a run
begins when its path is chosen (R317), and a waiting word issues when its group is (R319). -/
def State.take (s : State) : Turn → Host.Outcome State Fault Refusal
  | .aWord k => s.turnA k
  | .cIssue k p => s.turnC k p
  | .event i =>
    match i with
    | .runStart k p => if s.chooses k p then exec i s else .next s
    | _ => if i.isIssued || (s.retriedGroup i).any (fun k => !s.choosesA k) then .next s else exec i s
  | .outside a => .next (s.act a)

/-! ## Time -/

/-- A group's paths are ready, and its scheduler chooses none of them (R318). -/
def State.unchosenC (s : State) (k : Nat) : Bool :=
  let ready := ((s.group k).paths.map (·.1)).filter (s.readyPath k)
  !ready.isEmpty && !ready.any (s.chooses k)

/-- The ages of a group after `n` cycles in which it was ready and not chosen (R318, R319). -/
def State.agedBy (s : State) (n k : Nat) (g : Group) : Group :=
  { g with ageC := if s.unchosenC k then g.ageC + n else g.ageC,
           ageA := if s.canA k && !s.choosesA k then g.ageA + n else g.ageA }

/-- Time passes before a step by a free number of cycles: the counters of the cores (R442) and the ages of the groups that
are ready (R318) go on with it (log 4). -/
def State.tickTime (s : State) : State :=
  { s with cycle := s.cycle + Config.elapsed s.freeCtr, freeCtr := s.freeCtr + 1,
           groups := s.groups.mapVals (s.agedBy (Config.elapsed s.freeCtr)),
           cores := s.cores.mapVals (fun n c => c.pmTick (Config.elapsed s.freeCtr) (fun e =>
             s.lostCycles n e (Config.elapsed s.freeCtr) (Config.eventCycles s.freeCtr n e))) }

/-- The turn that comes next, and the state once it has been taken: the head of the agenda, or any turn (log 2). -/
def State.nextTurn (s : State) : Turn × State :=
  match s.agenda with
  | t :: r => (t, { s with agenda := r })
  | [] => (Config.nextTurn s.freeCtr, s)

end Sys2Proof.Machine
end

