-- ==== Sys2Proof/Machine/Step.lean ====
section
/-! DEFINITION. One step of the device: time passes, one agent moves (R5, R315, R319; log 2). -/

namespace Sys2Proof.Machine

open Sys2Proof

/-- One step. -/
def step (s : State) : Host.Outcome State Fault Refusal :=
  let r := s.tickTime.nextTurn
  r.2.take r.1

/-! ## Placing one instruction where the next step fetches it -/

/-- A page-table entry that names a frame (R397). -/
def tableEntry (devn frame flags : Nat) : Nat := (devn * 2 ^ 26 + frame) * 65536 + flags

/-- The code page of `withFetchWord`: the words of the instruction in both sections, a head parcel that marks parcel 1, and
page tables that map the page at its own address. -/
def State.withCode (s : State) (nbits w : Nat) : State :=
  let bytes := bytesOf (w % 2 ^ nbits) 16
  ((((s.writeMem 0x10000 (bytesOf (tableEntry s.devn 2 1) 8)).writeMem 0x20000 (bytesOf (tableEntry s.devn 3 1) 8)).writeMem
    0x30020 (bytesOf (tableEntry s.devn 4 3) 8)).writeMem 0x40000 bytes).writeMem 0x41000 (bytesOf 1 4 ++ bytes)

/-- A group of 32 lanes that stands at both pieces of code. -/
def fetchGroup (role : Nat) : Group :=
  { gidx := 0, lanes := 32, nvregs := 768, role := role, sched := 0, slot := 0, apc := 0x40000#64,
    quads := List.replicate 8 {}, paths := [(0, { pos := 0x41004 / 4, qmask := 255, lmask := BitVec.allOnes 32, phase := .issuing })] }

/-- The state with one instruction stored where the next step fetches it: a grid of one team of one group whose role
permits the instruction (R28), its code in the A-code section or, where the decoder reads it as a parcel, in a block of
the C-code section, no other group that its scheduler could choose, and the turn of that slice (log 3). -/
def State.withFetchWord (s : State) (nbits w : Nat) : State :=
  let cls := w / 2 ^ 28 % 16
  let address := decide (nbits ≤ 64) && (decodeWords true [BitVec.ofNat 32 w, BitVec.ofNat 32 (w / 2 ^ 32)]).isOk
  let role := if address then 0 else if cls = 6 then 1 else if cls = 7 || cls = 8 then 2 else 0
  let r := { Launch.empty with n := 1, acode := 0x40000, asize := 64, ccode := 0x41000, csize := 128, kbank := 0x44000,
                               gcount := 1, lanes := 32, vregs := 768, pitches := 2, clr := 0xFFFF#16, pceil := 0xFFFF#16 }
  let s1 := s.withCode nbits w
  { s1 with
    agenda := [if address then .aWord 0 else .cIssue 0 0], dbgu := false, bad := [], lines := [], tlb := [],
    ctxs := s.ctxs.put 0 { s.ctx 0 with root := s.devn * 2 ^ 42 + 0x10000 },
    grids := s.grids.put 0 { rec_ := r, lrec := 0, ctx := 0, order := 0, admitted := true, nextTeam := 1 },
    teams := s.teams.put 0 { grid := 0, teamix := 0, state := .resident, pitches := [(0, {}), (1, {})] },
    groups := [(0, fetchGroup role)], cores := s.cores.put 0 { s.core 0 with current := [] } }

end Sys2Proof.Machine
end

