-- ==== Sys2Proof/Safety.lean ====
section
/-! DEFINITION. The words that the claims are stated in: that a step completes and with what, which parts of the state it
leaves alone, and the canonical form of memory. -/

namespace Sys2Proof.Machine

open Sys2Proof

/-- The memory of a state is in its canonical form. -/
abbrev State.memOk (s : State) : Prop := Memory.wf s.mem = true

/-- The outcome is a next state of which `p` holds. -/
def Completes (o : Out) (p : State → Prop) : Prop := ∃ t, o = .next t ∧ p t

/-- A byte of this device's storage as a load reads it. -/
def State.byteAt (s : State) (la : Nat) : Byte := Tab.get Memory.blank s.mem la

/-- None of the registers is held by an older LDS, AMOS or DCLS (R154). -/
abbrev State.regsFree (s : State) (rs : List SRegNo) : Prop := ∀ r ∈ rs, s.grp.sHeld r = false

/-- Nothing differs but groups, and among them only group `k`. -/
def OnlyGroup (k : Nat) (s t : State) : Prop := t = { s with groups := t.groups } ∧ ∀ j, j ≠ k → t.group j = s.group j

/-- The word has completed and nothing differs but APC, the scalar registers and the A-slice path stack of the group that
moves, and what counts completed words (R60, R154, R376). -/
def OnlyScalar (s t : State) : Prop :=
  OnlyGroup s.cur s t ∧
  t.grp = { s.grp with sregs := t.grp.sregs, apath := t.grp.apath, apc := t.grp.apc, aret := s.grp.aret + 1,
                       await := none, apass := false, ageA := 0 }

/-- Every scalar register reads as before, but `d` reads `v` labelled `l`; s0 reads zero whatever is written (R11, R12). -/
def ScalarWrote (s t : State) (d : SRegNo) (v : DWord) (l : Label) : Prop :=
  ∀ r, t.grp.sreg r = if r = d ∧ d ≠ 0#6 then { val := v, lbl := l } else s.grp.sreg r

/-- The whole effect of a word of `n` bytes that writes one scalar register. -/
def ScalarResult (s t : State) (d : SRegNo) (v : DWord) (l : Label) (n : Nat) : Prop :=
  OnlyScalar s t ∧ t.grp.apc = s.grp.apc + BitVec.ofNat 64 n ∧ t.grp.apath = s.grp.apath ∧ ScalarWrote s t d v l

/-- The whole effect of a word that transfers control or may: APC and the path stack after it; no scalar register but
`d`, when one is named, reads otherwise. -/
def ControlResult (s t : State) (apc : DWord) (stack : List PathLbl) : Prop :=
  OnlyScalar s t ∧ t.grp.apc = apc ∧ t.grp.apath = stack ∧ ∀ r, t.grp.sreg r = s.grp.sreg r

/-- The A-slice path stack after a push by the word at `at` (R122): a repeated push joins the top. -/
def pushedStack (stack : List PathLbl) (l : Label) (at_ : Nat) : List PathLbl :=
  match stack with
  | top :: rest =>
    if top.pusher = some at_ then { top with lbl := top.lbl ||| l } :: rest else { lbl := l, pusher := some at_ } :: stack
  | [] => [{ lbl := l, pusher := some at_ }]

/-- A push finds room (R32, R122): the stack is not full, or its top was pushed by the same word. -/
abbrev roomToPush (stack : List PathLbl) (at_ : Nat) : Prop := stack.length < 16 ∨ (stack.head?.bind (·.pusher)) = some at_

/-- The label `a` is within `b`: every owner of `a` is in `b` (R114). -/
abbrev LabelIn (a b : Label) : Prop := a ||| b = b

/-- Nothing differs but the group that moves and its team. -/
def OnlyTeam (s t : State) : Prop :=
  t = { s with groups := t.groups, teams := t.teams } ∧ (∀ j, j ≠ s.cur → t.group j = s.group j) ∧
    ∀ j, j ≠ teamOf s.cur → t.team j = s.team j

/-- A store to memory of this device that nothing holds back: the page is neither compressed nor read-duplicated, the bytes are
not the host's, and its label is within their granules (R127, R355, R360, R400). -/
abbrev State.PlainStore (s : State) (k : Nat) (w : Label) (a : Acc) : Prop :=
  a.space = .global ∧ a.kind = .store ∧ a.done = false ∧ a.held = false ∧ a.sent = false ∧ a.lease = false ∧ devOf a.pa = s.devn ∧
    isHost (localOf a.pa) = false ∧ a.line = false ∧ a.dup = false ∧ s.watched k a = false ∧
    LabelIn (w ||| a.lbl) (s.labelOf (localOf a.pa) a.size)

/-- Operation `id` of group `k` is in flight as `o`, may be performed whole at this device, and no check of it fails: `s1`
is the state with its accesses performed, `accs` what they are then. -/
abbrev Performs (s : State) (k id : Nat) (o : Op) (s1 : State) (accs : List Acc) : Prop :=
  (s.group k).op id = some o ∧ o.doneq = false ∧ s.perform k o (fun _ => true) = .ok s1 accs ∧
    accs.all (·.done) = true ∧ ({ o with accs := accs } : Op).failure (s1.clr k) = none

/-- The state in which an operation has completed: its group written by `write`, the operation done, and what has completed
in issue order gone (R26). -/
def State.completed (s1 : State) (k : Nat) (o : Op) (accs : List Acc) (write : Group → Group) : State :=
  (s1.setGroup k ((write (s1.group k)).setOp { o with accs := accs, doneq := true })).settle k

/-- An A-stream word of 4 bytes has issued operation `o`: the word is passed, `o` is the youngest operation in flight and
its counter has risen (R26, R60). -/
def IssuedOp (s t : State) (o : Op) : Prop :=
  t = { s with groups := t.groups, tlb := t.tlb, tags := t.tags, nextTag := t.nextTag, out := t.out, ctxs := t.ctxs,
               stalled := t.stalled } ∧
  (∀ j, j ≠ s.cur → t.group j = s.group j) ∧
  t.grp.ops.length = s.grp.ops.length + 1 ∧ (∀ j, j ≠ s.grp.nextOp → t.grp.op j = s.grp.op j) ∧
  (∃ accs, t.grp.ops.getLast? = some { o with id := s.grp.nextOp, accs := accs } ∧
    accs.map (fun a => (a.va, a.pa, a.size, a.kind, a.val, a.cmp)) = o.accs.map (fun a => (a.va, a.pa, a.size, a.kind, a.val, a.cmp))) ∧
  t.grp = { s.grp with ops := t.grp.ops, nextOp := s.grp.nextOp + 1, fcs := t.grp.fcs, apc := s.grp.apc + 4#64,
                       aret := s.grp.aret + 1, await := none, apass := false, ageA := 0 } ∧
  ∀ c, t.grp.fcv c = s.grp.fcv c + (if o.fc = some c then 1 else 0)

/-! ## The compute slice -/

/-- Element `j` of `w` bits of a lane word (R197). -/
def elemOf (w : Nat) (x : Word) (j : Nat) : Nat := x.toNat / 2 ^ (w * j) % 2 ^ w

/-- The integer that the `w` bits of an element of a type stand for (R92). -/
def valueOf (t : Ty) (n : Nat) : Int := if t.isSigned ∧ 2 ^ (t.width - 1) ≤ n then (n : Int) - 2 ^ t.width else n

/-- The parcels of an instruction with these fields: four when a literal follows, else three (R73). -/
def CFields.parcels (f : CFields) : Nat := match f.imm with | .lit _ => 4 | _ => 3

/-- Instruction `i` of row `r` may issue on the path that moves (R80, R195, R198, R226, R227, R276, R321, R329): its operand
codes name registers below VREGS, its role is the group's, its ticket is FREE in every quad, no register or predicate it reads
or writes is held, none that it writes carries a read hold, the path of its counter has room (R26, R27), and every queue it pops
has a present entry at its head. `x` is what it then has read, and `s1` the state once its pops are made. -/
def Issues (i : Instr) (r : CRow) (sp : CSpec) (s : State) (x : CIn) (s1 : State) : Prop :=
  let f := x.f
  let p := s.path
  let g := s.grp
  let codes := r.sources f
  let na := (r.a.code f.sa).length
  let nb := ((r.slotB f).code f.sb).length
  let rd (slot : Slot) (v : BitVec 10) (quads n : Nat) : Operand :=
    if (slot.code v).isEmpty then { lanes := List.replicate 32 0#32, lbl := 0#16 }
    else g.readCode s.freeCtr p.qmask (p.qmask ||| quads) ((codes.take n).count v.toNat) v.toNat
  ∃ cls op s0 b,
    i.cForm = some (cls, op, f) ∧ cRow cls op = some r ∧
    r.codesOk f g.nvregs = true ∧ sp.static g.nvregs = true ∧ (∀ n, sp.role = some n → g.role = n) ∧
    (f.tk = 0#4 ∨ ∀ q ∈ quadSet p.qmask, (g.quad q).ticket f.tk.toNat = 0) ∧
    g.held p.qmask (r.readSet f ++ r.writeSet f ++ sp.reads ++ sp.writes) = false ∧
    s.readHeld s.cur (r.writeSet f ++ sp.writes) = false ∧ (∀ c, sp.fc = some c → s.pathFull s.cur c = false) ∧
    g.popsOf p.qmask codes = .ready ∧
    s.readB f sp.imm (r.slotB f) (p.qmask ||| sp.qb) ((codes.take na).count f.sb.toNat) = .ok s0 b ∧
    x = { f := f, qmask := p.qmask, written := g.writtenLanes p f, full := g.fullIssue p f, k := g.kLabel p f,
          a := rd r.a f.sa sp.qa 0, b := b, c := rd (r.slotC f) f.sc sp.qc (na + nb) } ∧
    s1 = s0.setGrp (s0.grp.pop p.qmask codes)

/-- The instruction has issued: `t` is `s2` with the path past its parcels, one instruction more counted, and its issue
cycles passed (R75, R76, R310, R376). An instruction without a lane in `written` counts as such (R442). -/
def Passed (s s2 t : State) (x : CIn) (cycles : Nat) : Prop :=
  let s3 := if x.written = 0#32 then s2.pmGroup s.cur 0x06 (4 * (quadSet s.path.qmask).length) else s2
  let p := s3.path
  let s4 := s3.setPath { p with pos := nextPos p.pos (CFields.parcels x.f), icount := p.icount + 1, waitc := 0, pass := false }
  t = s4.setGrp ({ s4.grp with cret := s4.grp.cret + 1, ageC := 0 }.tick p.qmask cycles)

/-- One issue cycle, or none on a path without active lanes when no queue is named (R324). -/
def oneCycle (r : CRow) (s : State) (x : CIn) : Nat :=
  if s.grp.active s.path = 0#32 && !(r.sources x.f).any isQueue then 0 else 1

/-- The label of R118: K and the labels of the operands. -/
def CIn.joined (x : CIn) : Label := x.a.lbl ||| x.b.lbl ||| x.c.lbl ||| x.k

/-- A write of fixed latency: the lanes of `written`, under label `l`, to land after `lat` issue cycles (R25, R311). -/
def CIn.later (x : CIn) (lat : Nat) (d : Dst) (l : Label) (v : Nat → Word) : FxWrite :=
  { qmask := x.qmask, dst := d, mask := x.written, vals := (List.range 32).map v, full := x.full, lbl := l, left := lat }

/-- The issue cycles after which a write of fixed latency lands: none on a path without lanes, where only the label is written
(R311, R324). -/
def State.laneLat (s : State) (lat : Nat) : Nat := if s.grp.active s.path = 0#32 then 0 else lat

/-- The whole effect of a lane-by-lane instruction of fixed latency: one write to DST, whose lane `l` is `v l`. -/
def Writes (i : Instr) (r : CRow) (s s1 : State) (x : CIn) (lat : Nat) (v : Nat → Word) : Prop :=
  Completes (exec i s) (fun t =>
    Passed s (s1.setGrp (s1.grp.schedule (x.later (s1.laneLat lat) (.reg x.f.dst.toNat) x.joined v))) t x (oneCycle r s x))

end Sys2Proof.Machine
end

