-- ==== Sys2Proof/Certificates/Slice0/Obligations.lean ====
section
/-! DEFINITION. What this model claims of the device: statements for the provers, from the rules of the manual. -/

open Sys2Proof Sys2Proof.Machine

set_option maxRecDepth 8000

/-- R12: register s0 reads as zero with the empty label and predicate p0 as all ones with the empty label, and writes to either are
discarded. -/
def Obligations.HardwiredRegisters : Prop :=
  ∀ (g : Group) (v : SVal) (w : FxWrite) (mask bits : Word) (full : Bool) (l : Label),
    g.sreg 0#6 = { val := 0#64, lbl := 0#16 } ∧ g.setSreg 0#6 v = g ∧
    g.pred 0 = { mask := 0xFFFFFFFF#32, lbl := 0#16 } ∧ g.writePred 0 mask bits full l = g ∧ (w.dst = .pred 0 → g.land w = g)

/-- R159, R93, R118: each word of the ALU group writes its result to sd, labelled L(sa) ∪ L(sb) ∪ K, and leaves everything else as
it was; it completes whenever its registers are free (R154). -/
def Obligations.ScalarAluResults : Prop :=
  ∀ (s : State) (d a b : SRegNo), s.regsFree [a, b, d] →
    let x := (s.grp.sreg a).val
    let y := (s.grp.sreg b).val
    let l := ((s.grp.sreg a).lbl ||| (s.grp.sreg b).lbl) ||| s.grp.pA
    ∀ e ∈ [
      (Instr.add d a b, x + y), (.sub d a b, x - y), (.mul d a b, x * y),
      (.mulhi d a b, BitVec.ofInt 64 (x.toInt * y.toInt / 2 ^ 64)),
      (.divs d a b, if y = 0#64 then (if x.toInt < 0 then BitVec.intMin 64 else BitVec.intMax 64)
        else BitVec.ofInt 64 (x.toInt.tdiv y.toInt)),
      (.divz d a b, if y = 0#64 then BitVec.allOnes 64 else BitVec.ofNat 64 (x.toNat / y.toNat)),
      (.rems d a b, if y = 0#64 then x else BitVec.ofInt 64 (x.toInt.tmod y.toInt)),
      (.remz d a b, if y = 0#64 then x else BitVec.ofNat 64 (x.toNat % y.toNat)),
      (.and d a b, x &&& y), (.or d a b, x ||| y), (.xor d a b, x ^^^ y),
      (.shl d a b, x <<< (y.toNat % 64)), (.shr d a b, x >>> (y.toNat % 64)), (.sar d a b, x.sshiftRight (y.toNat % 64)),
      (.min d a b, if x.toInt ≤ y.toInt then x else y), (.max d a b, if x.toInt ≤ y.toInt then y else x),
      (.minz d a b, if x.toNat ≤ y.toNat then x else y), (.maxz d a b, if x.toNat ≤ y.toNat then y else x),
      (.slt d a b, if x.toInt < y.toInt then 1#64 else 0#64), (.sltz d a b, if x.toNat < y.toNat then 1#64 else 0#64),
      (.seq d a b, if x = y then 1#64 else 0#64)].zipIdx,
    Completes (exec e.1.1 s) (fun t => ScalarResult s t d e.1.2 l 4) ∧ encode e.1.1 = [0x01#6 ++ d ++ a ++ b ++ BitVec.ofNat 8 e.2]

/-- R160, R161, R162, R191: the immediate forms, SEL, the constants and the two label words write sd alone. -/
def Obligations.ScalarImmediateResults : Prop :=
  ∀ (s : State) (d a b c : SRegNo) (i : BitVec 14) (n : BitVec 6) (j : BitVec 20) (w : Word), s.regsFree [a, b, c, d] →
    let x := (s.grp.sreg a).val
    let k := s.grp.pA
    let la := (s.grp.sreg a).lbl
    (∀ e ∈ [
      (Instr.addi d a i, x + i.signExtend 64, la ||| k), (.andi d a i, x &&& i.signExtend 64, la ||| k),
      (.ori d a i, x ||| i.signExtend 64, la ||| k), (.xori d a i, x ^^^ i.signExtend 64, la ||| k),
      (.shli d a n, x <<< n.toNat, la ||| k), (.shri d a n, x >>> n.toNat, la ||| k),
      (.sari d a n, x.sshiftRight n.toNat, la ||| k),
      (.sel d a b c, if (s.grp.sreg c).val = 0#64 then (s.grp.sreg b).val else x,
        (la ||| (s.grp.sreg b).lbl ||| (s.grp.sreg c).lbl) ||| k),
      (.lih d j, BitVec.ofNat 64 ((s.grp.sreg d).val.toNat % 2 ^ 32 + 2 ^ 32 * j.toNat), (s.grp.sreg d).lbl ||| k),
      (.addpc d j, s.grp.apc + 4#64 * j.signExtend 64, k),
      (.lblrd d a, BitVec.ofNat 64 la.toNat, la ||| k),
      (.lblup d a b, x, (la ||| BitVec.ofNat 16 (s.grp.sreg b).val.toNat ||| (s.grp.sreg b).lbl) ||| k)],
      Completes (exec e.1 s) (fun t => ScalarResult s t d e.2.1 e.2.2 4)) ∧
    Completes (exec (.li32 d w) s) (fun t => ScalarResult s t d (w.signExtend 64) k 8)

/-- R163, R121, R122: a branch pushes P_A ∪ L(sa) ∪ L(sb) whether or not it is taken, and goes to its target or on; it completes
when its registers are free, the label is within the effective ceiling and the stack has room. R122, R163, R145: a branch or
LOOP whose label is not within the effective ceiling takes LABEL_BRANCH, sub-cause 0; one that finds the stack full takes sub-
cause 1; a JR or RET whose replaced top is not within that ceiling takes sub-cause 0 (R121), and one whose target is not a
multiple of 4 takes ILLEGAL (R62). The fault is all that happens, and it leaves APC where it was. -/
def Obligations.BranchResults : Prop :=
  (∀ (s : State) (a b : SRegNo) (i : BitVec 14), s.regsFree [a, b] →
    let x := (s.grp.sreg a).val
    let y := (s.grp.sreg b).val
    let l := ((s.grp.sreg a).lbl ||| (s.grp.sreg b).lbl) ||| s.grp.pA
    (∀ e ∈ [(Instr.beq a b i, 0x13#6), (.bne a b i, 0x14#6), (.blt a b i, 0x15#6), (.bge a b i, 0x16#6), (.blo a b i, 0x17#6),
            (.bhs a b i, 0x18#6)], encode e.1 = [e.2 ++ a ++ b ++ i]) ∧
    (LabelIn l (s.ceil s.cur) → roomToPush s.grp.apath s.grp.apc.toNat →
    ∀ e ∈ [(Instr.beq a b i, decide (x = y)), (.bne a b i, decide (x ≠ y)), (.blt a b i, decide (x.toInt < y.toInt)),
           (.bge a b i, decide (y.toInt ≤ x.toInt)), (.blo a b i, decide (x.toNat < y.toNat)),
           (.bhs a b i, decide (y.toNat ≤ x.toNat))],
      Completes (exec e.1 s) (fun t => ControlResult s t
        (s.grp.apc + (if e.2 then 4#64 * i.signExtend 64 else 4#64)) (pushedStack s.grp.apath l s.grp.apc.toNat)))) ∧
  (∀ (s : State) (a b d : SRegNo) (i : BitVec 14) (j : BitVec 20), s.regsFree [a, b, d] →
    let c := s.ceil s.cur
    let l := ((s.grp.sreg a).lbl ||| (s.grp.sreg b).lbl) ||| s.grp.pA
    let ld := (s.grp.sreg d).lbl ||| s.grp.pA
    let bs := [Instr.beq a b i, .bne a b i, .blt a b i, .bge a b i, .blo a b i, .bhs a b i]
    (¬ LabelIn l c → ∀ e ∈ bs, exec e s = .next (s.raiseA { code := 0x07, sub := 0, flbl := l, clbl := c })) ∧
    (LabelIn l c → ¬ roomToPush s.grp.apath s.grp.apc.toNat →
      ∀ e ∈ bs, exec e s = .next (s.raiseA { code := 0x07, sub := 1, flbl := l, clbl := c })) ∧
    (¬ LabelIn ld c → exec (.loop d j) s = .next (s.raiseA { code := 0x07, sub := 0, flbl := ld, clbl := c })) ∧
    (LabelIn ld c → ¬ roomToPush s.grp.apath s.grp.apc.toNat →
      exec (.loop d j) s = .next (s.raiseA { code := 0x07, sub := 1, flbl := ld, clbl := c })) ∧
    (let top := (s.grp.apath.head?.map (·.lbl)).getD 0#16 ||| (s.grp.sreg a).lbl
     (s.grp.sreg a).val.toNat % 4 = 0 → ¬ LabelIn top c → ∀ e ∈ [Instr.jr a, .ret a],
       exec e s = .next (s.raiseA { code := 0x07, sub := 0, flbl := top, clbl := c })) ∧
    ((s.grp.sreg a).val.toNat % 4 ≠ 0 →
      exec (.jr a) s = .next (s.raiseA { code := 0x01 }) ∧ exec (.ret a) s = .next (s.raiseA { code := 0x01 })) ∧
    (∀ f, f.code = 0x07 ∨ f.code = 0x01 → (s.raiseA f).grp.apc = s.grp.apc))

/-- R164, R121, R122, R8: JMP, CALL, LOOP, JR, RET and HALT. JR and RET replace the top of the path stack by its union with L(sa),
or push L(sa) on an empty one. RET is made after the trace unit's record of it (R441). R193, R171, R121: MARK.JOIN pops the
A-slice path stack, and has no effect on an empty one; PREF changes no program-visible state; MARK.USER changes none but through
the trace unit. R440, R441, R164, R193: a trace record has 64 bytes with its fields where the manual places them. A unit that
runs writes it at TRCWP, which then moves on by 64 within the ring; where TRCWP would reach TRCRP the record is dropped with
FULL set and LOSTN raised, and a unit that does not run raises LOSTN alone, which stays at its greatest value. MARK.USER makes a
user record of its value and RET a return record of its target, of a core that traces the group's context and has that kind
turned on; APC is zero under a path label. That the record's path fields and stall reason are zero, there being no path, and
that a value with a label is not written, are the model's choices (log 37); so is that the unit's writes ask for no lease (log
17). -/
def Obligations.JumpResults : Prop :=
  (∀ (s : State) (a d : SRegNo) (i : BitVec 20), s.regsFree [a, d] →
    let g := s.grp
    let c := s.ceil s.cur
    let la := (g.sreg a).lbl
    let ld := (g.sreg d).lbl ||| g.pA
    let n := (g.sreg d).val - 1#64
    let top := match g.apath with
      | p :: r => { p with lbl := p.lbl ||| la } :: r
      | [] => [{ lbl := la, pusher := some g.apc.toNat }]
    Completes (exec (.jmp i) s) (fun t => ControlResult s t (g.apc + 4#64 * i.signExtend 64) g.apath) ∧
    Completes (exec (.call d i) s) (fun t => OnlyScalar s t ∧ t.grp.apc = g.apc + 4#64 * i.signExtend 64 ∧
      t.grp.apath = g.apath ∧ ScalarWrote s t d (g.apc + 4#64) g.pA) ∧
    (LabelIn ld c → roomToPush g.apath g.apc.toNat →
      Completes (exec (.loop d i) s) (fun t => OnlyScalar s t ∧
        t.grp.apc = g.apc + (if n = 0#64 then 4#64 else 4#64 * i.signExtend 64) ∧
        t.grp.apath = pushedStack g.apath ld g.apc.toNat ∧ ScalarWrote s t d n ld)) ∧
    ((g.sreg a).val.toNat % 4 = 0 → LabelIn ((top.head?.map (·.lbl)).getD 0#16) c →
      Completes (exec (.jr a) s) (fun t => ControlResult s t (g.sreg a).val top) ∧
      Completes (exec (.ret a) s) (fun t => ControlResult (s.traceA 3 (g.sreg a).val 0#16) t (g.sreg a).val top)) ∧
    Completes (exec .halt s) (fun t => OnlyGroup s.cur s t ∧
      t.grp = { g with halted := true, aret := g.aret + 1, await := none })) ∧
  (∀ (s : State) (a : SRegNo) (i : BitVec 14), s.regsFree [a] →
    Completes (exec .markJoin s) (fun t => ControlResult s t (s.grp.apc + 4#64) (s.grp.apath.drop 1)) ∧
    Completes (exec (.pref a i) s) (fun t => ControlResult s t (s.grp.apc + 4#64) s.grp.apath) ∧
    Completes (exec (.markUser a) s) (fun t =>
      ControlResult (s.traceA 2 (s.grp.sreg a).val (s.grp.sreg a).lbl) t (s.grp.apc + 4#64) s.grp.apath)) ∧
  (∀ (s : State) (core kind who pidx sfl ix lmask ppos apc cyc value : Nat) (bs : List Byte) (v : DWord) (l : Label) (a : Xlat),
    let c := s.core core
    let b := traceBytes kind core who pidx sfl ix lmask ppos apc cyc value
    let next := (c.reg 0x20 + 64) % (c.reg 0x18 * 65536)
    let lost := if c.reg 8 / 2 ^ 32 = 2 ^ 32 - 1 then c.reg 8 else c.reg 8 + 2 ^ 32
    let u := s.traceWrite core bs
    let va := c.reg 0x10 + c.reg 0x20
    let g := s.grp
    let d := s.core s.tm.core
    let plain := g.pA = 0#16
    let rec_ (kind : Nat) (masked : Prop) [Decidable masked] (value : Nat) : State := s.traceWrite s.tm.core
      (traceBytes kind s.tm.core (g.sched + 4 * g.gidx) 0 (if masked then 64 else 0) s.tm.teamix 0 0 (if plain then g.apc.toNat else 0) s.cycle value)
    (b.length = 64 ∧ fieldAt b 0 1 = kind % 256 ∧ fieldAt b 1 1 = core % 256 ∧ fieldAt b 2 1 = who % 256 ∧ fieldAt b 3 1 = pidx % 256 ∧
      fieldAt b 4 1 = sfl % 256 ∧ fieldAt b 5 3 = 0 ∧ fieldAt b 8 4 = ix % 2 ^ 32 ∧ fieldAt b 12 4 = lmask % 2 ^ 32 ∧
      fieldAt b 16 8 = ppos % 2 ^ 64 ∧ fieldAt b 24 8 = apc % 2 ^ 64 ∧ fieldAt b 32 8 = cyc % 2 ^ 64 ∧ fieldAt b 40 8 = value % 2 ^ 64 ∧
      fieldAt b 48 8 = 0 ∧ fieldAt b 56 8 = 0) ∧
    (c.reg 8 % 2 = 0 → u.mem = s.mem ∧ (u.core core).reg 8 = lost ∧ ∀ r, r ≠ 8 → (u.core core).reg r = c.reg r) ∧
    (c.reg 8 % 2 = 1 → next = c.reg 0x28 → u.mem = s.mem ∧ (u.core core).reg 8 = lost ||| 4 ∧ ∀ r, r ≠ 8 → (u.core core).reg r = c.reg r) ∧
    (c.reg 8 % 2 = 1 → next ≠ c.reg 0x28 → (u.core core).reg 0x20 = next % 2 ^ 64 ∧ (∀ r, r ≠ 0x20 → (u.core core).reg r = c.reg r) ∧
      (s.translate (c.reg 0 / 2 ^ 48) va true = some a → devOf a.pa = s.devn → a.line = false → a.dup = false → s.dieQ = [] → bs.length = 64 →
        va % 65536 + 64 ≤ 65536 →
        ∀ i, u.byteAt i = if localOf a.pa ≤ i ∧ i < localOf a.pa + 64 then bs.getD (i - localOf a.pa) 0#8 else s.byteAt i)) ∧
    (d.reg 0 % 2 = 1 → d.reg 0 / 2 ^ 48 = s.ctxOf s.cur →
      (d.reg 0 / 2 % 2 = 1 → s.traceA 2 v l = rec_ 2 (¬ (plain ∧ l = 0#16)) (if plain ∧ l = 0#16 then v.toNat else 0)) ∧
      (d.reg 0 / 4 % 2 = 1 → s.traceA 3 v 0#16 = rec_ 3 (¬ plain) v.toNat) ∧
      (d.reg 0 / 2 % 2 = 0 → s.traceA 2 v l = s) ∧ (d.reg 0 / 4 % 2 = 0 → s.traceA 3 v l = s)) ∧
    (d.reg 0 % 2 = 0 ∨ d.reg 0 / 2 ^ 48 ≠ s.ctxOf s.cur → s.traceA kind v l = s))

/-- R34 to R40: GETSR writes the word of the special register that its number names to sd: core, group, team, grid, coordinates and
extents, cluster, ceilings, path label, SLIP, the flight counters, the queues, the cycle, the bound handles, the launch record
and the constant bank, field by field; SR_FCA, SR_FCB, SR_QOCC and SR_WHND carry the effective ceiling too. R35, R37, R38, R173:
SETSR and SLIPSET write SLIP alone, from 1 to 32 and only when the label is empty; every other number, and a number that names
no register, is ILLEGAL. R162, R72: LDK writes the constant-bank word that its index names, zero-extended and labelled K, once
that word has been read. -/
def Obligations.SpecialRegisterReads : Prop :=
  (∀ (s : State) (d : SRegNo) (i : BitVec 14) (v : DWord), s.regsFree [d] → s.special i.toNat = some v →
    Completes (exec (.getsr d i) s) (fun t => ScalarResult s t d v
      (s.grp.pA ||| (if i.toNat ∈ [0x00A, 0x00B, 0x00C, 0x00E] then s.ceil s.cur else 0#16)) 4) ∧
    let r := s.recOf s.cur
    let g := s.grp
    let t := s.tm
    let dx := r.xyz.toNat % 2 ^ 21
    let dy := r.xyz.toNat / 2 ^ 21 % 2 ^ 21
    let ix := t.teamix
    let cl := r.cw * r.ch
    (i.toNat = 0x000 → t.core < 144 → v.toNat = t.core * 2 ^ 16 + t.core / 72 * 2 ^ 8 + t.core % 72 / 8 * 2 ^ 4 + t.core % 8) ∧
    (i.toNat = 0x001 → v.toNat = (g.gidx + 2 ^ 5 * r.gcount + 2 ^ 11 * g.slot + 2 ^ 14 * g.sched + 2 ^ 16 * g.role + 2 ^ 18 * g.nvregs
      + 2 ^ 32 * g.lanes) % 2 ^ 64) ∧
    (i.toNat = 0x004 → v.toNat = if r.decomp then (ix % dx + 2 ^ 21 * (ix / dx % dy) + 2 ^ 42 * (ix / (dx * dy))) % 2 ^ 64 else 0) ∧
    (i.toNat = 0x005 → v = if r.decomp then r.xyz else 0#64) ∧
    (i.toNat = 0x006 → v.toNat = (ix % cl / r.cw + 2 ^ 4 * (ix % cl % r.cw) + 2 ^ 8 * r.ch + 2 ^ 12 * r.cw + 2 ^ 32 * (ix / cl)) % 2 ^ 64) ∧
    ((∀ c, g.fcv c < 2 ^ 12) →
      (i.toNat = 0x00A → v.toNat = g.fcv .ld + 2 ^ 12 * g.fcv .gx + 2 ^ 24 * g.fcv .st + 2 ^ 36 * g.fcv .sp + 2 ^ 48 * g.fcv .po) ∧
      (i.toNat = 0x00B → v.toNat = g.fcv .mx + 2 ^ 12 * g.fcv .cl + 2 ^ 24 * g.fcv .xf + 2 ^ 36 * g.fcv .wa)) ∧
    (i.toNat = 0x00C → g.rq.length ≤ 32 → (∀ q, (g.lq q).entries.length ≤ 16) → g.saq.length ≤ 16 → g.sdq.length ≤ 16 → g.ca.length ≤ 8 →
      v.toNat = g.rq.length + 2 ^ 6 * (g.lq 0).entries.length + 2 ^ 11 * (g.lq 1).entries.length + 2 ^ 16 * (g.lq 2).entries.length
        + 2 ^ 21 * (g.lq 3).entries.length + 2 ^ 26 * g.saq.length + 2 ^ 31 * g.sdq.length + 2 ^ 36 * g.ca.length) ∧
    (i.toNat = 0x00E → ∀ k, k < 64 → (v.getLsbD k = true ↔ k < 8 ∧ (t.whand.find k).isSome)) ∧
    (i.toNat = 0x002 → v.toNat = s.tm.teamix % 2 ^ 64) ∧ (i.toNat = 0x003 → v.toNat = (s.recOf s.cur).n % 2 ^ 64) ∧
    (i.toNat = 0x007 → v.toNat = (s.clr s.cur).toNat + 2 ^ 16 * (s.ceil s.cur).toNat) ∧
    (i.toNat = 0x008 → v.toNat = (s.grp.pA.toNat + 2 ^ 16 * s.grp.apath.length) % 2 ^ 64) ∧
    (i.toNat = 0x00F → v.toNat = (s.gridOf s.cur).lrec % 2 ^ 64) ∧
    (i.toNat = 0x009 → v.toNat = s.grp.slip % 2 ^ 64) ∧ (i.toNat = 0x00D → v.toNat = s.cycle % 2 ^ 64) ∧
    (i.toNat = 0x010 → v.toNat = (s.recOf s.cur).kbank % 2 ^ 64)) ∧
  (∀ (s : State) (a d : SRegNo) (i : BitVec 14), s.regsFree [a, d] →
    let n := (s.grp.sreg a).val.toNat % 64
    let l := (s.grp.sreg a).lbl ||| s.grp.pA
    let wrote (t : State) (v : Nat) : Prop := OnlyGroup s.cur s t ∧
      t.grp = { s.grp with slip := v, apc := s.grp.apc + 4#64, aret := s.grp.aret + 1, await := none, apass := false, ageA := 0 }
    (i.toNat = 0x009 → 1 ≤ n → n ≤ 32 → l = 0#16 → Completes (exec (.setsr a i) s) (fun t => wrote t n)) ∧
    (i.toNat = 0x009 → 1 ≤ n → n ≤ 32 → l ≠ 0#16 →
      exec (.setsr a i) s = .next (s.raiseA { code := 0x06, sub := 1, flbl := l })) ∧
    (i.toNat = 0x009 → ¬ (1 ≤ n ∧ n ≤ 32) → exec (.setsr a i) s = .next (s.raiseA { code := 0x01 })) ∧
    (i.toNat ≠ 0x009 → exec (.setsr a i) s = .next (s.raiseA { code := 0x01 })) ∧
    (0x010 < i.toNat → exec (.getsr d i) s = .next (s.raiseA { code := 0x01 })) ∧
    (1 ≤ i.toNat → i.toNat ≤ 32 → s.grp.pA = 0#16 → Completes (exec (.slipset i) s) (fun t => wrote t i.toNat)) ∧
    (1 ≤ i.toNat → i.toNat ≤ 32 → s.grp.pA ≠ 0#16 →
      exec (.slipset i) s = .next (s.raiseA { code := 0x06, sub := 1, flbl := s.grp.pA })) ∧
    (¬ (1 ≤ i.toNat ∧ i.toNat ≤ 32) → exec (.slipset i) s = .next (s.raiseA { code := 0x01 }))) ∧
  (∀ (s s1 : State) (d : SRegNo) (n : BitVec 12) (bs : List Byte) (l : Label), s.regsFree [d] →
    s.readCode s.cur ((s.recOf s.cur).kbank + 4 * n.toNat) 4 = .ok s1 bs l →
    Completes (exec (.ldk d n) s) (fun t => ScalarResult s1 t d (BitVec.ofNat 64 (ofBytes bs)) s1.grp.pA 4))

/-- R166, R167, R180, R157: LDS, STS, the ten AMOS words and DETSET issue one access, at S[sa] (and the offset), when their
registers are free, the address is aligned and leased, no check that its target allows now fails, and the memory paths, for STS
and DETSET the store path, have room (R26, R27); sd of LDS and AMOS is then held. R166, R167, R157, R447: a misaligned or out-
of-range address of LDS, STS or AMOS is ILLEGAL at the word, and one outside the leases is LEASE at the word; nothing else
happens. -/
def Obligations.ScalarAccessIssue : Prop :=
  (∀ (s : State) (d a b : SRegNo) (i : BitVec 14), s.regsFree [a, b, d] →
    let g := s.grp
    let x := (g.sreg a).val + i.signExtend 64
    let y := (g.sreg a).val
    let la := (g.sreg a).lbl
    let lb := (g.sreg b).lbl
    let ld := (g.sreg d).lbl
    let k := g.pA
    let op (fc : Option FC) (ad : Option SRegNo) (l : Label) (c : Acc) : Op :=
      { id := 0, fc := fc, pc := g.apc.toNat, run := g.runs, after := g.caOrd, adst := ad, lbl := l, accs := [s.formAcc s.cur c] }
    let good (l : Label) (c : Acc) : Prop := (s.formAcc s.cur c).lease = false ∧ s.sendCheck s.cur l (s.formAcc s.cur c) = none
    let load : Acc := { va := x.toNat, size := 8 }
    let store : Acc := { va := x.toNat, size := 8, kind := .store, val := (g.sreg d).val.toNat }
    let atom (f : Nat) (t : Ty) : Acc :=
      { va := y.toNat, size := 8, kind := .atomic f t, val := (g.sreg b).val.toNat, cmp := if f = 9 then (g.sreg d).val.toNat else 0 }
    let set : Acc := { va := y.toNat, size := 32, kind := .detset, val := (g.sreg b).val.toNat }
    (x.toNat < 2 ^ 55 → x.toNat % 8 = 0 →
      (good (la ||| k) load → s.memoryFull s.cur = false → Completes (exec (.lds d a i) s) (fun t => IssuedOp s t (op none (some d) (la ||| k) load))) ∧
      (good ((la ||| ld) ||| k) store → s.pathFull s.cur .st = false →
        Completes (exec (.sts d a i) s) (fun t => IssuedOp s t (op (some .st) none ((la ||| ld) ||| k) store)))) ∧
    (y.toNat < 2 ^ 55 → y.toNat % 8 = 0 →
      ∀ e ∈ [(Instr.amosAdd d a b, 0, Ty.z64), (.amosAnd d a b, 1, .z64), (.amosOr d a b, 2, .z64), (.amosXor d a b, 3, .z64),
             (.amosMin d a b, 4, .s64), (.amosMax d a b, 5, .s64), (.amosMinz d a b, 6, .z64), (.amosMaxz d a b, 7, .z64),
             (.amosSwap d a b, 8, .z64)],
        good ((la ||| lb) ||| k) (atom e.2.1 e.2.2) → s.memoryFull s.cur = false →
        Completes (exec e.1 s) (fun t => IssuedOp s t (op none (some d) ((la ||| lb) ||| k) (atom e.2.1 e.2.2)))) ∧
    (y.toNat < 2 ^ 55 → y.toNat % 8 = 0 → good ((la ||| lb ||| ld) ||| k) (atom 9 .z64) → s.memoryFull s.cur = false →
      Completes (exec (.amosCas d a b) s) (fun t => IssuedOp s t (op none (some d) ((la ||| lb ||| ld) ||| k) (atom 9 .z64)))) ∧
    (y.toNat < 2 ^ 55 → y.toNat % 32 = 0 → 1 ≤ (g.sreg b).val.toNat → (g.sreg b).val.toNat < 2 ^ 32 →
      (s.formAcc s.cur set).det = true → s.pathFull s.cur .st = false → good ((la ||| lb) ||| k) set →
      Completes (exec (.detset a b) s) (fun t => IssuedOp s t (op (some .st) none ((la ||| lb) ||| k) set)))) ∧
  (∀ (s : State) (d a b : SRegNo) (i : BitVec 14), s.regsFree [a, b, d] →
    let x := (s.grp.sreg a).val + i.signExtend 64
    let y := (s.grp.sreg a).val
    let bad (z : DWord) : Prop := 2 ^ 55 ≤ z.toNat ∨ z.toNat % 8 ≠ 0
    let am := [Instr.amosAdd d a b, .amosAnd d a b, .amosOr d a b, .amosXor d a b, .amosMin d a b, .amosMax d a b,
               .amosMinz d a b, .amosMaxz d a b, .amosSwap d a b, .amosCas d a b]
    (bad x → ∀ e ∈ [Instr.lds d a i, .sts d a i], exec e s = .next (s.raiseA { code := 0x01, faddr := x.toNat })) ∧
    (bad y → ∀ e ∈ am, exec e s = .next (s.raiseA { code := 0x01, faddr := y.toNat })) ∧
    (¬ bad x → s.reach (s.coreCache s.cur) s.cur x.toNat 8 false = none → exec (.lds d a i) s = .next (s.raiseA { code := 0x04, faddr := x.toNat })) ∧
    (¬ bad x → s.reach (s.coreCache s.cur) s.cur x.toNat 8 true = none → exec (.sts d a i) s = .next (s.raiseA { code := 0x04, faddr := x.toNat })) ∧
    (¬ bad y → s.reach (s.coreCache s.cur) s.cur y.toNat 8 true = none → ∀ e ∈ am, exec e s = .next (s.raiseA { code := 0x04, faddr := y.toNat })))

/-- R166, R126, R167, R129, R26: LDS_COMPLETE writes the loaded value to sd, labelled with the granule's label, the address label
and K; AMOS_COMPLETE writes the old value labelled with the word's label; STS_COMPLETE and DETSET_COMPLETE write no register.
Each operation is then done, and leaves in issue order. -/
def Obligations.ScalarAccessCompletion : Prop :=
  ∀ (s s1 : State) (k n : Nat) (o : Op) (a : Acc), Performs s k n o s1 [a] → o.cslice = false → o.data = .mem →
    (∀ d, o.adst = some d → a.kind = .load → o.accs.all (·.kind == .load) = true →
      exec (.ldsComplete k n) s = .next (s1.completed k o [a] (fun g =>
        g.setSreg d { val := BitVec.ofNat 64 a.got, lbl := a.glbl ||| o.lbl }))) ∧
    (∀ d f t, o.adst = some d → a.kind = .atomic f t → o.accs.all (fun c => c.kind == .atomic f t) = true →
      exec (.amosComplete k n) s = .next (s1.completed k o [a] (fun g =>
        g.setSreg d { val := BitVec.ofNat 64 a.got, lbl := a.glbl }))) ∧
    (o.fc = some .st → o.accs.all (·.kind == .store) = true → (∀ e ∈ (s.group k).saq, e.op ≠ o.id) →
      exec (.stsComplete k n) s = .next (s1.completed k o [a] id)) ∧
    (o.fc = some .st → o.accs.all (·.kind == .detset) = true →
      exec (.detsetComplete k n) s = .next (s1.completed k o [a] id))

/-- R126, R127, R129, R130, R157, R167: what an access does to a granule of this device whose page is not compressed, when its label
check has not been made before with those of its instruction's other lanes. A load and an atomic need the granules within CLR, a
store and an atomic their label within the granules; a load gives the bytes, an atomic the old bytes; a store writes its bytes
and an atomic the new value of R167, and no other byte changes. R167: the new value of each scalar atomic, on 64-bit words:
operation codes 0 to 9. -/
def Obligations.AccessAtGranule : Prop :=
  (∀ (s : State) (k : Nat) (w : Label) (a : Acc), a.space = .global → a.line = false → isHost (localOf a.pa) = false → a.lbl = 0#16 →
    a.chk = false → s.poisoned (localOf a.pa) a.size = false →
    let la := localOf a.pa
    let gl := s.labelOf la a.size
    let c := s.clr k
    let old := s.readNat la a.size
    let wrote (v : Nat) (s1 : State) (b : Acc) : Prop :=
      b = { a with done := true, got := old, glbl := gl } ∧ s1 = { s with mem := s1.mem } ∧
      (∀ j, j < a.size → s1.byteAt (la + j) = BitVec.ofNat 8 (v / 2 ^ (8 * j))) ∧
      ∀ x, x < la ∨ la + a.size ≤ x → s1.byteAt x = s.byteAt x
    (a.kind = .load → LabelIn gl c → s.applyAcc k w a = .ok s { a with done := true, got := old, glbl := gl }) ∧
    (a.kind = .load → ¬ LabelIn gl c → s.applyAcc k w a = .bad { code := 0x05, flbl := gl, clbl := c, faddr := a.va }) ∧
    (a.kind = .store → LabelIn w gl → ∃ s1 b, s.applyAcc k w a = .ok s1 b ∧ wrote a.val s1 b) ∧
    (a.kind = .store → ¬ LabelIn w gl → s.applyAcc k w a = .bad { code := 0x06, flbl := w, clbl := gl, faddr := a.va }) ∧
    (∀ f t, a.kind = .atomic f t → LabelIn gl c → LabelIn w gl →
      ∃ s1 b, s.applyAcc k w a = .ok s1 b ∧ wrote (atomicNew f t old a.val a.cmp) s1 b) ∧
    (∀ f t, a.kind = .atomic f t → ¬ LabelIn gl c →
      s.applyAcc k w a = .bad { code := 0x05, flbl := gl, clbl := c, faddr := a.va }) ∧
    (∀ f t, a.kind = .atomic f t → LabelIn gl c → ¬ LabelIn w gl →
      s.applyAcc k w a = .bad { code := 0x06, flbl := w, clbl := gl, faddr := a.va })) ∧
  (∀ (x b c : DWord),
    atomicNew 0 .z64 x.toNat b.toNat c.toNat = (x + b).toNat ∧
    atomicNew 1 .z64 x.toNat b.toNat c.toNat = (x &&& b).toNat ∧
    atomicNew 2 .z64 x.toNat b.toNat c.toNat = (x ||| b).toNat ∧
    atomicNew 3 .z64 x.toNat b.toNat c.toNat = (x ^^^ b).toNat ∧
    atomicNew 4 .s64 x.toNat b.toNat c.toNat = (if x.toInt ≤ b.toInt then x else b).toNat ∧
    atomicNew 5 .s64 x.toNat b.toNat c.toNat = (if x.toInt ≤ b.toInt then b else x).toNat ∧
    atomicNew 6 .z64 x.toNat b.toNat c.toNat = min x.toNat b.toNat ∧
    atomicNew 7 .z64 x.toNat b.toNat c.toNat = max x.toNat b.toNat ∧
    atomicNew 8 .z64 x.toNat b.toNat c.toNat = b.toNat ∧
    atomicNew 9 .z64 x.toNat b.toNat c.toNat = (if x = c then b else x).toNat)

/-- R172, R21, R119, R442: RUN pushes its start parcel with the run label into RQ and counts one run more outstanding, when some
quad has not ended, the label is within the effective ceiling, and neither SLIP nor RQ is used up. R174: POPCA pops the head of
CA into sd. R190: YIELD pushes a marker; a labelled hint is ignored; with every quad ended the marker is taken at once, which
counts as a yield point reached, and the group is at its yield point when its team is pending. R190, R385: YIELD.REC reads its
liveness record as it issues and pushes a marker with what it names; a record whose granules with L(sa) and P_A carry a label is
ignored. -/
def Obligations.RunAndQueueWords : Prop :=
  (∀ (s : State) (d a : SRegNo) (i : BitVec 20), s.regsFree [d, a] →
    let g := s.grp
    let base := if d = 0#6 then (s.recOf s.cur).ccode / 4 else (g.sreg d).val.toNat / 4 % 2 ^ 53
    let rl := (g.sreg d).lbl ||| g.pA
    let passed := { g with apc := g.apc + 4#64, aret := g.aret + 1, await := none, apass := false, ageA := 0 }
    (g.unended ≠ [] → LabelIn rl (s.ceil s.cur) → g.outstanding < g.slip → g.rq.length < 32 →
      Completes (exec (.run d i) s) (fun t => OnlyGroup s.cur s t ∧
        t.grp = { passed with rq := g.rq ++ [.run ((base + i.toNat) % 2 ^ 53) rl], runs := g.runs + 1 })) ∧
    (g.unended = [] → exec (.run d i) s = .next (s.raiseA { code := 0x01 })) ∧
    (g.unended ≠ [] → ¬ LabelIn rl (s.ceil s.cur) →
      exec (.run d i) s = .next (s.raiseA { code := 0x07, sub := 2, flbl := rl, clbl := s.ceil s.cur })) ∧
    (∀ e es, g.ca = e :: es → Completes (exec (.popca d) s) (fun t => OnlyGroup s.cur s t ∧
      ScalarWrote s t d e.val (e.lbl ||| g.pA) ∧
      t.grp = { passed with sregs := t.grp.sregs, ca := es, caOrd := t.grp.caOrd })) ∧
    (g.ca = [] → g.unended = [] → exec (.popca d) s = .next (s.raiseA { code := 0x0D })) ∧
    let hint : Hint := if (g.sreg a).lbl ||| g.pA = 0#16 then .inline (g.sreg a).val else .all
    (g.unended ≠ [] → g.rq.length < 32 → Completes (exec (.yield a) s) (fun t => OnlyGroup s.cur s t ∧
      t.grp = { passed with rq := g.rq ++ [.marker hint] })) ∧
    (g.unended = [] → g.rq.length < 32 → Completes (exec (.yield a) s) (fun t => ∃ u : State, OnlyGroup s.cur s u ∧ t = u.pmGroup s.cur 0x0E 1 ∧
      u.grp.rq = [] ∧ u.grp.hint = some hint ∧ u.grp.atYield = (s.tm.pending || g.atYield) ∧
      u.grp = { passed with rq := u.grp.rq, rqBase := u.grp.rqBase, lqs := u.grp.lqs, hint := u.grp.hint, atYield := u.grp.atYield })) ∧
    (32 ≤ g.rq.length → Completes (exec (.yield a) s) (fun t => OnlyGroup s.cur s t ∧ t.grp = { g with await := some (.yield a) }))) ∧
  (∀ (s s1 : State) (a : SRegNo) (bs : List Byte) (l : Label) (h : Hint), s.regsFree [a] →
    let x := (s.grp.sreg a).val
    x.toNat < 2 ^ 55 → x.toNat % 64 = 0 → s.grp.rq.length < 32 → s.readRec s.cur x.toNat 256 = .ok s1 bs l →
    LabelIn l (s.clr s.cur) → parseLiveness bs (s.recOf s.cur).spsize = some h → s1.grp.unended ≠ [] →
    exec (.yieldRec a) s = .next (s1.setGrp (({ s1.grp with rq := s1.grp.rq ++
      [.marker (if ((s.grp.sreg a).lbl ||| l) ||| s.grp.pA = 0#16 then h else .all)] } : Group).advance 4)))

/-- R169, R321, R170, R17: VLD allocates an entry of its queue, not yet present, and asks for its 32 words; VSTA pushes its address
into SAQ. Each raises its counter by one. An entry that VLD allocates when every quad has ended is released at once (R18; a
poisoned one stays, R331). R169, R321, R329, R331: VLD_ENTRY_PRESENT fills the entry with the 32 words and their labels;
VLD_FAIL poisons the entry with the cause, and keeps the address slice from issuing; VLD_POISON_IDLE takes the cause as the
group's fault, the VLD's address as APC, when every LIVE quad waits on the other slice and the team is resident. That an entry
which every quad's end has released comes back to its queue, of more than 16 the oldest, that APC of the record is that of the
failure found first until a poisoned entry's fault is taken, and that this record has CSLICE 1 and FPOS 0 are the model's
choices (log 96). -/
def Obligations.QueueAccessIssue : Prop :=
  (∀ (s : State) (q : BitVec 2) (a : SRegNo) (i : BitVec 14), s.regsFree [a] →
    let g := s.grp
    let x := (g.sreg a).val + i.signExtend 64
    let kept (t : State) : Prop := t.mem = s.mem ∧ t.glbl = s.glbl ∧ t.teams = s.teams ∧ t.grids = s.grids ∧ t.cores = s.cores ∧
      (∀ j, j ≠ s.cur → t.group j = s.group j) ∧ (∀ r, t.grp.sreg r = g.sreg r) ∧ t.grp.apath = g.apath ∧
      t.grp.apc = g.apc + 4#64 ∧ t.grp.vregs = g.vregs ∧ t.grp.preds = g.preds ∧ t.grp.rq = g.rq ∧ t.grp.ca = g.ca ∧
      t.grp.sdq = g.sdq ∧ t.grp.aret = g.aret + 1
    x.toNat < 2 ^ 55 → x.toNat % 4 = 0 →
    (g.unended = [] → g.poisons = [] → (g.lq q.toNat).entries.length < 16 → s.pathFull s.cur .ld = false → Completes (exec (.vld q a i) s) (fun t =>
      (∀ j, j < 4 → (t.grp.lq j).entries = []) ∧ ∀ c, t.grp.fcv c = g.fcv c + (if c = .ld then 1 else 0))) ∧
    (g.unended ≠ [] → (g.lq q.toNat).entries.length < 16 → s.pathFull s.cur .ld = false → Completes (exec (.vld q a i) s) (fun t => kept t ∧
      (t.grp.lq q.toNat).base = (g.lq q.toNat).base ∧
      (t.grp.lq q.toNat).entries = (g.lq q.toNat).entries ++ [{ vld := g.apc, addr := x.toNat, albl := (g.sreg a).lbl ||| g.pA, op := g.nextOp }] ∧
      (∀ j, j ≠ q.toNat → t.grp.lq j = g.lq j) ∧ t.grp.saq = g.saq ∧
      ∀ c, t.grp.fcv c = g.fcv c + (if c = .ld then 1 else 0))) ∧
    (g.saq.length < 16 → s.pathFull s.cur .st = false → Completes (exec (.vsta a i) s) (fun t => kept t ∧
      t.grp.saq = g.saq ++ [{ addr := x.toNat, lbl := (g.sreg a).lbl ||| g.pA, apc := g.apc, op := g.nextOp }] ∧
      t.grp.lqs = g.lqs ∧ ∀ c, t.grp.fcv c = g.fcv c + (if c = .st then 1 else 0)))) ∧
  (∀ (s s1 : State) (k n : Nat) (o : Op) (accs : List Acc) (q x : Nat) (f : Flt) (e : LQEntry), o.data = .vld q x →
    (Performs s k n o s1 accs → exec (.vldEntryPresent k n) s =
      .next ((s1.pmGroup k 0x08 1).completed k o accs (fun g => g.setEntry q o.id (fun e =>
        { e with data := accs.map (fun a => BitVec.ofNat 32 a.got), present := true,
                 lbl := o.lbl ||| Label.joinAll (accs.map (·.glbl)) })))) ∧
    ((s.group k).op n = some o → o.doneq = false → o.fail = some f → (∃ y ∈ ((s.group k).lq q).entries, y.op = o.id) → exec (.vldFail k n) s =
      .next ((s.setGroup k (Group.setOp
        { (s.group k).setEntry q o.id (fun e => { e with poison := some f }) with
          ra := some ((s.group k).ra.getD (BitVec.ofNat 64 o.pc)) } { o with fail := none, doneq := true })).settle k)) ∧
    ((s.group k).op n = some o → o.doneq = false → o.fail = some f → (∀ y ∈ ((s.group k).lq q).entries, y.op < o.id) → q < 4 →
      Completes (exec (.vldFail k n) s) (fun t => (t.group k).ra.isSome ∧ ((t.group k).lq q).entries = (((s.group k).lq q).entries ++
        [({ vld := BitVec.ofNat 64 o.pc, addr := x, poison := some f, albl := o.lbl, op := o.id } : LQEntry)]).take 16)) ∧
    ((s.group k).poisons = [(q, e)] → (s.group k).fault = none → (s.group k).atYield = false → (s.team (teamOf k)).bell = none →
      (s.team (teamOf k)).state = .resident →
      (∀ p ∈ (s.group k).paths, p.2.phase = .parked ∨ p.2.phase = .marker ∨ (s.group k).cDeadCode p.2 ≠ 0) → e.poison = some f →
      exec (.vldPoisonIdle k) s = .next ((s.setGroup k { s.group k with ra := some e.vld }).raiseRec k
        { flt := f, cslice := true, fpos := 0, fcycle := s.cycle, idle := true, pq := q })))

/-- R245, R246, R17, R20, R124: STD supplies each quad's part of its next SDQ entry, the lanes of `written` and L(A) with K, or K
alone on a path without an active lane; it waits while that entry has no room. SENDA appends the pair of lanes that X names,
zero where a lane is not written, when one of them is written, and waits while CA is full. That SENDA waits while CA is full
although neither of its lanes is written is the model's choice (log 51). R19, R128, R391: QUEUE_STORE of a resident team takes
the heads of SAQ and SDQ once every quad that has not ended has supplied its part, and no lane of an older queue store is left
here: the lanes of the entry's mask are stored at the address, under the union of the two labels; a failing check takes the
fault with the address in FADDR, the STD's parcel in FPOS and the VSTA's word in STPC, and nothing is stored. That the lanes are
stores of one word each, all of which this step makes while the turn `pair` of the model leaves them to be made one by one, is
the model's choice (log 49, log 19). R127, R128, R130: STORE_APPLY performs one access of a store that may be performed and
whose operation fails no check. R19, R127, R128, R170, R323, R340: a queue store both of whose entries are whole, with no
operation of its group before it, stores the words of the lanes of its mask into this device's memory, on uncompressed pages,
when the union of its two labels is within every granule; the next entries come to the heads, and no other byte and no label
changes. STORE_APPLY does the same for one access of a store. -/
def Obligations.QueueSupplies : Prop :=
  (∀ (s s1 : State) (f : CFields) (r : CRow) (x : CIn),
    let g := s1.grp
    let p := f.x.toNat
    let part (l : Nat) : Word := if x.written.getLsbD l then x.a.at l else 0#32
    let on := x.written.getLsbD (2 * p) = true ∨ x.written.getLsbD (2 * p + 1) = true
    let entry : CAEntry := { val := part (2 * p + 1) ++ part (2 * p), lbl := x.a.lbl ||| x.k, quad := p / 2, upTo := g.nextOp }
    (Issues (.senda f) r {} s x s1 →
      (g.ca.length < 8 → on → Completes (exec (.senda f) s) (fun t => Passed s (s1.setGrp { g with ca := g.ca ++ [entry] }) t x 1)) ∧
      (g.ca.length < 8 → ¬ on → Completes (exec (.senda f) s) (fun t => Passed s s1 t x 1)) ∧
      (8 ≤ g.ca.length → exec (.senda f) s = .next (s.setPath { s.path with waitc := 4 }))) ∧
    (Issues (.std f) r {} s x s1 → g.quads.length = 8 → x.qmask < 256 →
      ((∀ q ∈ quadSet x.qmask, g.sdqBase ≤ (g.quad q).stdCnt ∧ (g.quad q).stdCnt < g.sdqBase + 16 ∧
          (g.quad q).stdCnt ≤ g.sdqBase + g.sdq.length) →
        Completes (exec (.std f) s) (fun t => ∃ s2, Passed s s2 t x 1 ∧ OnlyGroup s1.cur s1 s2 ∧
          s2.grp = { g with quads := s2.grp.quads, sdq := s2.grp.sdq } ∧
          (∀ q, q < 8 → s2.grp.quad q = if bitOf x.qmask q then { g.quad q with stdCnt := (g.quad q).stdCnt + 1 } else g.quad q) ∧
          (∀ q ∈ quadSet x.qmask, (g.quad q).stdCnt < g.sdqBase + s2.grp.sdq.length) ∧
          ∀ i, i < s2.grp.sdq.length →
            let old := g.sdq.getD i {}
            let e := s2.grp.sdq.getD i {}
            let now := (quadSet x.qmask).filter (fun q => (g.quad q).stdCnt == g.sdqBase + i)
            (∀ l, l < 32 → laneAt e.data l = (if l / 4 ∈ now then x.a.at l else laneAt old.data l) ∧
              e.mask.getLsbD l = (old.mask.getLsbD l || (decide (l / 4 ∈ now) && x.written.getLsbD l))) ∧
            e.quads = old.quads + (now.map (2 ^ ·)).sum ∧
            (now ≠ [] → e.lbl = old.lbl ||| (if g.active s1.path = 0#32 then x.k else x.a.lbl ||| x.k) ∧ e.pos = s1.path.pos) ∧ (now = [] → e = old))) ∧
      ((∃ q ∈ quadSet x.qmask, g.sdqBase + 16 ≤ (g.quad q).stdCnt) →
        exec (.std f) s = .next (s.setPath { s.path with waitc := 3 })))) ∧
  (∀ (s s1 : State) (k : Nat) (a : SAEntry) (d : SDEntry) (as : List SAEntry) (ds : List SDEntry) (o : Op) (accs : List Acc) (f : Flt),
    (s.group k).saq = a :: as → (s.group k).sdq = d :: ds → (s.group k).op a.op = some o → (s.group k).supplied d = true →
    (s.group k).storeFail = false → (s.team (teamOf k)).state = .resident → s.storing k = false →
    let form := ((List.range 32).filter (fun l => d.mask.getLsbD l)).map (fun l =>
      s.formAcc k { lane := l, va := a.addr + 4 * l, size := 4, kind := .store, val := (laneAt d.data l).toNat })
    let o1 := { o with lbl := a.lbl ||| d.lbl, accs := form }
    (∀ x ∈ form, x.lease = false ∧ s.sendCheck k (a.lbl ||| d.lbl) x = none) →
    (s.perform k o1 (fun _ => true) = .ok s1 accs → accs.all (·.done) = true →
      exec (.queueStore k) s = .next ((s1.setGroup k
        { (s1.group k).setOp { o1 with accs := accs, doneq := true } with
          saq := as, sdq := ds, sdqBase := (s.group k).sdqBase + 1 }).settle k)) ∧
    (s.perform k o1 (fun _ => true) = .bad f →
      exec (.queueStore k) s = .next ((s.setGroup k { s.group k with storeFail := true }).raiseRec k
        { flt := { f with faddr := a.addr, stpc := a.apc.toNat }, cslice := false, fpos := d.pos, fcycle := s.cycle }))) ∧
  (∀ (s s1 : State) (k n i : Nat) (o : Op) (accs : List Acc),
    (s.group k).op n = some o → o.doneq = false → o.accs.all (fun a => a.kind == .store || a.kind == .raise) = true →
    (∀ e ∈ (s.group k).saq, e.op ≠ o.id) → s.perform k o (· == i) = .ok s1 accs →
    exec (.storeApply k n i) s = .next (s1.setGroup k ((s1.group k).setOp { o with accs := accs }))) ∧
  (∀ (s : State) (k : Nat) (a : SAEntry) (d : SDEntry) (as : List SAEntry) (ds : List SDEntry) (o p : Op) (n i : Nat) (c : Acc),
    let g := s.group k
    let l := a.lbl ||| d.lbl
    let lanes := (List.range 32).filter (fun j => d.mask.getLsbD j)
    let form (j : Nat) : Acc := s.formAcc k { lane := j, va := a.addr + 4 * j, size := 4, kind := .store, val := (laneAt d.data j).toNat }
    (g.saq = a :: as → g.sdq = d :: ds → g.ops = [o] → o.id = a.op → o.fail = none → o.cslice = false → o.data = .queueStore → g.supplied d = true →
      g.storeFail = false → (s.team (teamOf k)).state = .resident →
      (∀ j ∈ lanes, s.PlainStore k l (form j) ∧ s.sendCheck k l (form j) = none) →
      (∀ j ∈ lanes, ∀ m ∈ lanes, j ≠ m → (form j).pa + 4 ≤ (form m).pa ∨ (form m).pa + 4 ≤ (form j).pa) →
      Completes (exec (.queueStore k) s) (fun t => (t.group k).saq = as ∧ (t.group k).sdq = ds ∧
        (t.group k).sdqBase = g.sdqBase + 1 ∧ t.glbl = s.glbl ∧ t.teams = s.teams ∧
        (∀ j ∈ lanes, ∀ b, b < 4 → t.byteAt (localOf (form j).pa + b) = BitVec.ofNat 8 ((laneAt d.data j).toNat / 2 ^ (8 * b))) ∧
        ∀ y, (∀ j ∈ lanes, y < localOf (form j).pa ∨ localOf (form j).pa + 4 ≤ y) → t.byteAt y = s.byteAt y)) ∧
    (g.saq = [] → g.ops = [p] → p.id = n → p.cslice = false → p.doneq = false → p.accs = [c] → i = 0 → s.PlainStore k p.lbl c →
      Completes (exec (.storeApply k n i) s) (fun t => t.glbl = s.glbl ∧ t.teams = s.teams ∧
        (∃ q, (t.group k).op n = some q ∧ q.accs.all (·.done) = true) ∧
        (∀ b, b < c.size → t.byteAt (localOf c.pa + b) = BitVec.ofNat 8 (c.val / 2 ^ (8 * b))) ∧
        ∀ y, (y < localOf c.pa ∨ localOf c.pa + c.size ≤ y) → t.byteAt y = s.byteAt y)))

/-- R176, R372, R177: ALLOC grants the lowest free banks of the core when the group is at the head of its core's queue and enough
are free, each reading zero with the empty label; FREE returns banks that the team holds and nothing touches; a waiting ALLOC or
FREE is tried again by ALLOC_GRANT and BANK_FREE. -/
def Obligations.AccumulatorBanks : Prop :=
  ∀ (s : State) (d a : SRegNo) (c k : Nat), s.regsFree [d, a] →
    let g := s.grp
    let t := s.tm
    let n := (g.sreg a).val.toNat
    let m := (g.sreg a).val
    let q := s.allocWaiters t.core
    let take := (bankList (~~~ s.banksTaken t.core)).take n
    (n ≠ 0 → (bankList t.banks).length + n ≤ (s.recOf s.cur).accpeak → (q = [] ∨ q.head? = some s.cur) →
      n ≤ (bankList (~~~ s.banksTaken t.core)).length →
      Completes (exec (.alloc d a) s) (fun u => u.tm = t.grantBanks take ∧ ScalarWrote s u d (bankMask take) ((g.sreg a).lbl ||| g.pA) ∧
        u.grp.apc = g.apc + 4#64 ∧ u.grp.apath = g.apath ∧ u.mem = s.mem ∧ (∀ j, j ≠ s.cur → u.group j = s.group j) ∧
        ∀ j, j ≠ teamOf s.cur → u.team j = s.team j)) ∧
    (∀ x, (t.grantBanks take).acc.get 0#32 x = if x / 32768 ∈ take then 0#32 else t.acc.get 0#32 x) ∧
    (∀ x, (t.grantBanks take).bankLbl.get 0#16 x = if x ∈ take then 0#16 else t.bankLbl.get 0#16 x) ∧
    (n = 0 → exec (.alloc d a) s = .next (s.raiseA { code := 0x01 })) ∧
    (n ≠ 0 → (s.recOf s.cur).accpeak < (bankList t.banks).length + n → exec (.alloc d a) s = .next (s.raiseA { code := 0x0B })) ∧
    (m &&& ~~~ t.banks = 0#64 → t.boundIn m = false → s.banksBusy (teamOf s.cur) m = false →
      Completes (exec (.free a) s) (fun u => OnlyTeam s u ∧ u.tm = { t with banks := t.banks &&& ~~~ m } ∧
        u.grp = { g with apc := g.apc + 4#64, aret := g.aret + 1, await := none, apass := false, ageA := 0 })) ∧
    (m &&& ~~~ t.banks ≠ 0#64 → exec (.free a) s = .next (s.raiseA { code := 0x01 })) ∧
    (∀ ks, s.allocWaiters c = k :: ks → (s.group k).await = some (.alloc d a) → s.aReady k = true →
      exec (.allocGrant c) s = afterIssue k 0 0x03 (s.group k).aret Group.aret (exec (.alloc d a) (s.on k))) ∧
    ((s.group k).await = some (.free a) → s.aReady k = true →
      exec (.bankFree k) s = afterIssue k 0 0x03 (s.group k).aret Group.aret (exec (.free a) (s.on k)))

/-- R178, R116, R179: RESV binds a free handle to the lowest free region of its record's size, which reads zero, and writes its
offset in the core's weight buffer to sd; UNRESV releases a handle that nothing in flight names. -/
def Obligations.WeightReservations : Prop :=
  ∀ (s s1 : State) (d a b : SRegNo) (bs : List Byte) (l : Label) (r : Resv) (off k : Nat), s.regsFree [d, a, b] →
    let g := s.grp
    let t := s.tm
    let x := (g.sreg a).val
    let h := (g.sreg b).val.toNat
    let lb := ((g.sreg a).lbl ||| (g.sreg b).lbl ||| l) ||| g.pA
    (x.toNat < 2 ^ 55 → x.toNat % 64 = 0 → h ≤ 15 → t.resv.find h = none → s.readRec s.cur x.toNat 64 = .ok s1 bs l →
      LabelIn l (s.clr s.cur) → parseResv bs 0 lb = some r → t.freeRegion r.size ((s.recOf s.cur).wres * 4096) = some off →
      Completes (exec (.resv d a b) s) (fun u => u.tm.resv.find h = some { r with off := off } ∧
        (∀ j, j ≠ h → u.tm.resv.find j = t.resv.find j) ∧ (∀ i, i < r.size → u.tm.wmem.get 0#8 (off + i) = 0#8) ∧
        (∀ i, i < off ∨ off + r.size ≤ i → u.tm.wmem.get 0#8 i = t.wmem.get 0#8 i) ∧
        (∀ q, u.grp.sreg q = if q = d ∧ d ≠ 0#6 then { val := BitVec.ofNat 64 (t.wBase + off), lbl := lb } else s1.grp.sreg q) ∧
        u.mem = s1.mem)) ∧
    (x.toNat < 2 ^ 55 → x.toNat % 64 = 0 → (15 < h ∨ (t.resv.find h).isSome) →
      exec (.resv d a b) s = .next (s.raiseA { code := 0x0C, faddr := x.toNat })) ∧
    ((g.sreg a).val.toNat ≤ 15 → (t.resv.find (g.sreg a).val.toNat).isSome → s.handleBusy (teamOf s.cur) (g.sreg a).val.toNat = false →
      Completes (exec (.unresv a) s) (fun u => OnlyTeam s u ∧ u.tm = { t with resv := t.resv.del (g.sreg a).val.toNat } ∧
        u.grp = { g with apc := g.apc + 4#64, aret := g.aret + 1, await := none, apass := false, ageA := 0 })) ∧
    ((s.group k).await = some (.unresv a) → s.aReady k = true →
      exec (.resvRelease k) s = afterIssue k 0 0x03 (s.group k).aret Group.aret (exec (.unresv a) (s.on k)))

/-- R187, R188, R158: WAITFC passes once its counter is at or below its number, and waits until then; FENCE passes once every
dispatched run has been passed and the paired queue stores are performed, and keeps order by an entry in the issue order; a
waiting word is tried again. That a FENCE keeps its sets apart toward every agent, or, where its scope holds no other, toward
none that could tell, is the model's choice (log 8). -/
def Obligations.CountersAndFences : Prop :=
  ∀ (s : State) (c : FC) (n : BitVec 12) (sc : Scope) (f : FenceKind) (k : Nat),
    (s.grp.fcv c ≤ n.toNat → Completes (exec (.waitfc c n) s) (fun t => ControlResult s t (s.grp.apc + 4#64) s.grp.apath)) ∧
    (n.toNat < s.grp.fcv c → Completes (exec (.waitfc c n) s) (fun t => OnlyGroup s.cur s t ∧
      t.grp = { s.grp with await := some (.waitfc c n) })) ∧
    (s.grp.fenceReady = true →
      exec (.fence sc f) s = .next ((s.setGrp ((s.grp.fence f true (s.soleIn sc s.cur)).advance 4)).settle s.cur)) ∧
    (s.grp.fenceReady = false → Completes (exec (.fence sc f) s) (fun t => OnlyGroup s.cur s t ∧
      t.grp = { s.grp with await := some (.fence sc f) })) ∧
    (s.aReady k = true → (s.group k).await = some (.waitfc c n) →
      exec (.waitfcSatisfied k) s = afterIssue k 0 0x03 (s.group k).aret Group.aret (exec (.waitfc c n) (s.on k))) ∧
    (s.aReady k = true → (s.group k).await = some (.fence sc f) →
      exec (.fenceComplete k) s = afterIssue k 0 0x03 (s.group k).aret Group.aret (exec (.fence sc f) (s.on k)))

/-- R182, R183, R181: on an object of this device, SIGADD adds S[sb] to VALUE and SIGDEC subtracts it, once what precedes is
released and performed; SIGWAIT passes when VALUE is at or below S[sb], signed, and waits otherwise. R181, R182: an update of a
signal object changes its VALUE modulo 2^64 and no other byte, and raises the vector of CTL.VEC once, exactly when VALUE goes
from above THRESH to at or below it and IE is 1; on a page without CMP the base die holds none back. -/
def Obligations.SignalWords : Prop :=
  (∀ (s s1 : State) (a b : SRegNo) (bs : List Byte) (l : Label) (k : Nat), s.regsFree [a, b] →
    let g := s.grp
    let x := (g.sreg a).val
    let w := ((g.sreg a).lbl ||| (g.sreg b).lbl) ||| g.pA
    let acc (v : DWord) := s.formAcc s.cur { va := x.toNat, size := 8, kind := .signal, val := v.toNat }
    let gl (v : DWord) := s.labelOf (localOf (acc v).pa) 8
    let adds (v : DWord) (o : Out) : Prop := ∀ u, s.signal (localOf (acc v).pa) v (acc v).line = some u → g.released false = true → (acc v).lease = false → s.sendCheck s.cur w (acc v) = none →
      s.isLocal (acc v) = true → isHost (localOf (acc v).pa) = false → (acc v).dup = false → LabelIn (gl v) (s.clr s.cur) →
      LabelIn w (gl v) → s.poisoned (localOf (acc v).pa) 24 = false →
      (∀ o ∈ g.ops, o.data ≠ .signal ∧ o.id < g.nextOp ∧ ∀ y ∈ o.accs, y.done = true) →
      Completes o (fun t => t = { s with groups := t.groups, tlb := t.tlb, mem := u.mem, lines := u.lines, log := u.log, msix := u.msix } ∧
        (∀ j, j ≠ s.cur → t.group j = s.group j) ∧
        t.grp = { g with nextOp := g.nextOp + 1, apc := g.apc + 4#64, aret := g.aret + 1, await := none, apass := false, ageA := 0 })
    x.toNat < 2 ^ 55 → x.toNat % 32 = 0 →
    adds (g.sreg b).val (exec (.sigadd a b) s) ∧
    adds (- (g.sreg b).val) (exec (.sigdec a b) s) ∧
    (s.readRec s.cur x.toNat 8 = .ok s1 bs l → LabelIn l (s.clr s.cur) →
      ((BitVec.ofNat 64 (ofBytes bs)).toInt ≤ (g.sreg b).val.toInt →
        exec (.sigwait a b) s = .next ((s1.setGrp ((s1.grp.fence .acq false false).advance 4)).settle s.cur)) ∧
      ((g.sreg b).val.toInt < (BitVec.ofNat 64 (ofBytes bs)).toInt →
        exec (.sigwait a b) s = .next (s1.setGrp { s1.grp with await := some (.sigwait a b) }))) ∧
    ((s.group k).await = some (.sigwait a b) → s.aReady k = true →
      exec (.sigwaitReread k) s = afterIssue k 0 0x03 (s.group k).aret Group.aret (exec (.sigwait a b) (s.on k)))) ∧
  (∀ (s : State) (la : Nat) (delta : DWord) (line : Bool),
    let old : DWord := BitVec.ofNat 64 (s.readNat la 8)
    let th : DWord := BitVec.ofNat 64 (s.readNat (la + 8) 8)
    let ctl := s.readNat (la + 16) 4
    (line = false → (s.signal la delta line).isSome) ∧
    ∀ t, s.signal la delta line = some t →
      t.readNat la 8 = (old + delta).toNat ∧ (∀ x, x < la ∨ la + 8 ≤ x → t.byteAt x = s.byteAt x) ∧
      t.msix = s.msix ++ (if ctl % 2 = 1 ∧ th.toInt < old.toInt ∧ (old + delta).toInt ≤ th.toInt then [ctl / 2 ^ 16 % 2 ^ 16] else []) ∧
      t = { s with mem := t.mem, msix := t.msix, lines := t.lines, log := t.log } ∧
      (line = false → t.lines = s.lines ∧ t.log = s.log))

/-- R186, R337, R338, R131: BARINIT marks its cell and gives it the expected count; BARARV arrives S[sb] times and answers the phase
to await; BARWAIT passes in that phase. An arrival that reaches the expected count flips the phase and clears the arrived count;
one that would pass it sets the error bit as well. That the acquire fence which BARWAIT leaves is recorded with a scope that
holds another agent or none is the model's choice (log 8). -/
def Obligations.BarrierWords : Prop :=
  ∀ (s : State) (d a b : SRegNo) (k : Nat) (o : Barrier) (m : Nat) (err : Bool), s.regsFree [d, a, b] →
    let g := s.grp
    let t := s.tm
    let n := (g.sreg a).val.toNat
    let e := (g.sreg b).val.toNat
    let l := ((g.sreg a).lbl ||| (g.sreg b).lbl) ||| g.pA
    let bar := t.barrier n
    let fits := n % 16 = 0 ∧ n + 16 ≤ (s.recOf s.cur).spsize
    (fits → 1 ≤ e → e ≤ 65535 → (t.marked? n = false ∨ bar.arr = 0) → (∀ h ∈ s.held, h.isFor t = false) →
      Completes (exec (.barinit a b) s) (fun u => u.tm.marked? n = true ∧
        u.tm.barrier n = { lbl := (if t.marked? n then bar.lbl else 0#16) ||| l, err := false, phase := false, arr := 0, exp := e } ∧
        (∀ x, x < n ∨ n + 16 ≤ x → u.tm.sp.get 0#8 x = t.sp.get 0#8 x) ∧ u.mem = s.mem ∧ u.grp.apc = g.apc + 4#64)) ∧
    (fits → 1 ≤ e → e ≤ 65535 → t.marked? n = true → bar.arr ≠ 0 →
      exec (.barinit a b) s = .next (s.raiseA { code := 0x09, faddr := n })) ∧
    (fits → 1 ≤ e → e ≤ 65535 → t.marked? n = true → g.released false = true → LabelIn l bar.lbl →
      Completes (exec (.bararv d a b) s) (fun u => u.tm.barrier n = bar.arrive e false ∧
        ScalarWrote s u d (if bar.phase then 0#64 else 1#64) (bar.lbl ||| l) ∧ u.grp.apc = g.apc + 4#64 ∧
        (∀ x, x < n ∨ n + 16 ≤ x → u.tm.sp.get 0#8 x = t.sp.get 0#8 x) ∧ u.mem = s.mem)) ∧
    (fits → t.marked? n = true → LabelIn bar.lbl (s.clr s.cur) → bar.phase = (g.sreg d).val.getLsbD 0 → bar.err = false →
      exec (.barwait d a) s = .next ((s.setGrp ((g.fence .acq false (s.soleIn .team s.cur)).advance 4)).settle s.cur)) ∧
    (fits → t.marked? n = true → LabelIn bar.lbl (s.clr s.cur) → bar.phase = (g.sreg d).val.getLsbD 0 → bar.err = true →
      exec (.barwait d a) s = .next (s.raiseA { code := 0x09, faddr := n })) ∧
    (o.arr + m < o.exp → o.arrive m err = { o with arr := o.arr + m, err := o.err || err }) ∧
    (o.arr + m = o.exp → o.arrive m err = { o with arr := 0, phase := !o.phase, err := o.err || err }) ∧
    (o.exp < o.arr + m → o.arrive m err = { o with arr := 0, phase := !o.phase, err := true }) ∧
    ((s.group k).await = some (.barwait d a) → s.aReady k = true →
      exec (.barwaitSatisfied k) s = afterIssue k 0 0x03 (s.group k).aret Group.aret (exec (.barwait d a) (s.on k)))

/-- R184, R139, R362: LAUNCH reads its record and the distributor takes a copy of it; a label on its operand, its granules or P_A is
LABEL_MSG, and a field outside its limits ILLEGAL. R185: EARLY marks its group and goes on. R28, R133, R175, R414: PORT and COLL
read their command as they issue and start the engine with it, the counter raised, in a group of the copy role, when the command
passes its checks and its path has room (R27); in another role they take ROLE. -/
def Obligations.LaunchAndEarly : Prop :=
  (∀ (s s1 : State) (a : SRegNo) (bs : List Byte) (l : Label), s.regsFree [a] →
    let g := s.grp
    let x := (g.sreg a).val
    let l0 := (g.sreg a).lbl ||| g.pA
    (x.toNat < 2 ^ 55 → x.toNat % 256 = 0 → l0 = 0#16 → g.released false = true → s.readRec s.cur x.toNat 256 = .ok s1 bs l →
      (l = 0#16 → launchOk bs = true → exec (.launch a) s = (s1.newGrid (readLaunch bs) x.toNat (s.ctxOf s.cur)).aPass) ∧
      (l ≠ 0#16 → exec (.launch a) s = .next (s.raiseA { code := 0x08, sub := 2, flbl := l, faddr := x.toNat })) ∧
      (l = 0#16 → launchOk bs = false → exec (.launch a) s = .next (s.raiseA { code := 0x01, faddr := x.toNat }))) ∧
    (x.toNat < 2 ^ 55 → x.toNat % 256 = 0 → l0 ≠ 0#16 →
      exec (.launch a) s = .next (s.raiseA { code := 0x08, sub := 2, flbl := l0, faddr := x.toNat })) ∧
    (g.pA = 0#16 → g.released false = true →
      exec .early s = .next ((s.setGrp (({ g with early := true } : Group).advance 4)).earlyRelease s.tm.grid)) ∧
    (g.pA ≠ 0#16 → exec .early s = .next (s.raiseA { code := 0x08, sub := 2, flbl := g.pA }))) ∧
  (∀ (s s1 : State) (a : SRegNo) (c : PortCmd) (e : CollCmd) (l : Label), s.regsFree [a] →
    let g := s.grp
    let x := (g.sreg a).val.toNat
    let w := ((g.sreg a).lbl ||| l) ||| g.pA
    (g.role = 0 → s.portRead x = .ok s1 c l → s1.portCheck c w = none → s1.pathFull s.cur .po = false → exec (.port a) s = .next (s1.setGrp
      ((s1.grp.issueOp { id := 0, fc := some .po, pc := g.apc.toNat, run := g.runs, after := g.caOrd, lbl := w,
                         data := .port c 0 0#16 }).advance 4))) ∧
    (g.role = 0 → s.collRead x = .ok s1 e l → s1.collMsg s1.cur e w = none → s1.pathFull s.cur .cl = false → exec (.coll a) s = .next (s1.setGrp
      ((s1.grp.issueOp { id := 0, fc := some .cl, pc := g.apc.toNat, run := g.runs, after := g.caOrd, lbl := w,
                         data := .coll e 0 [] [] }).advance 4))) ∧
    (g.role ≠ 0 → exec (.port a) s = .next (s.raiseA { code := 0x02 }) ∧ exec (.coll a) s = .next (s.raiseA { code := 0x02 })))

/-- R143, R144, R192: GLBL adds the owners in S[sb] to a global granule, a scratchpad granule, an accumulator bank or a barrier
object: it issues one access of that kind on fc.st, ordered as a store to the first byte; owners outside CLR are LABEL_STORE. -/
def Obligations.LabelRaises : Prop :=
  ∀ (s : State) (a b : SRegNo), s.regsFree [a, b] →
    let g := s.grp
    let n := (g.sreg a).val.toNat
    let own := (BitVec.ofNat 16 (g.sreg b).val.toNat ||| (g.sreg b).lbl) ||| g.pA
    let acc := s.formAcc s.cur { va := n, size := 256, kind := .raise }
    let go (c : Acc) (o : Out) : Prop :=
      (LabelIn own (s.clr s.cur) → s.sendCheck s.cur own { c with kind := .raise, val := own.toNat, size := 1 } = none →
        s.pathFull s.cur .st = false →
        Completes o (fun t => IssuedOp s t { id := 0, fc := some .st, pc := g.apc.toNat, run := g.runs, after := g.caOrd, lbl := own,
                                             data := .glbl, accs := [{ c with kind := .raise, val := own.toNat, size := 1 }] })) ∧
      (¬ LabelIn own (s.clr s.cur) →
        o = .next (s.raiseA { code := 0x06, sub := 5, flbl := own, clbl := s.clr s.cur, faddr := n }))
    (n % 256 = 0 → n + 256 ≤ (s.recOf s.cur).spsize →
      go { va := n, pa := n, space := .scratch } (exec (.glbl .scratch a b) s)) ∧
    (n < 64 → s.tm.banks.getLsbD n = true → (∀ h ∈ s.tm.whand, n < h.2.bank ∨ h.2.bank + h.2.nb ≤ n) →
      go { va := n, pa := n * 131072, space := .acc } (exec (.glbl .acc a b) s)) ∧
    (n % 16 = 0 → n + 16 ≤ (s.recOf s.cur).spsize → s.tm.marked? n = true →
      go { va := n, pa := n, space := .scratch, cmp := 1 } (exec (.glbl .barrier a b) s)) ∧
    (n < 2 ^ 55 → n % 256 = 0 → acc.lease = false →
      (∀ y, s.translateBy (some (s.coreCache s.cur)) (s.ctxOf s.cur) n false = some y → devOf y.pa = s.devn → isHost (localOf y.pa) = false) →
      (s.translateBy (some (s.coreCache s.cur)) (s.ctxOf s.cur) n false).isSome → s.inConstBank (s.ctxOf s.cur) acc.pa = false →
      go acc (exec (.glbl .global a b) s))

/-- R189, R383, R137, R138: TRAP posts its code and the values of sa to sa+3 in the group's slot and waits for the reply;
SYSCALL_SLOT_POLL writes the reply to sd, labelled with the request's label, frees the slot and lets APC pass, in a slice that
may run. That the release is waited for as TRAP issues, and that a slot which another device holds is read by requests of the
device's own first, are the model's choices (log 40, 17). -/
def Obligations.SystemCall : Prop :=
  ∀ (s : State) (d a c : SRegNo) (k : Nat) (o : Op), s.regsFree [a, a + 1#6, a + 2#6, a + 3#6] →
    let g := s.grp
    let r (i : Nat) : SVal := g.sreg (a + BitVec.ofNat 6 i)
    let l := ((r 0).lbl ||| (r 1).lbl ||| (r 2).lbl ||| (r 3).lbl) ||| g.pA
    let req := [0, 1, 2, 3].flatMap (fun i => bytesOf (r i).val.toNat 8) ++ bytesOf l.toNat 2
    let s1 := s.postRequest s.cur 1 c.toNat req
    let g2 := Group.issueOp { s1.grp with ageA := 0 } { id := 0, fc := none, pc := g.apc.toNat, adst := some d, lbl := l, data := .syscall }
    let open_ := a.toNat ≤ 60 ∧ (s.recOf s.cur).syssig ≠ 0 ∧ LabelIn l (s.ctx (s.ctxOf s.cur)).eplRuntime ∧
      (∀ p ∈ g.ops, p.data = .syscall → p.cslice = true) ∧ g.sHeld d = false
    let polls := (s.group k).ops.find? (fun p => p.data == .syscall && !p.doneq) = some o ∧ o.cslice = false ∧ (s.team (teamOf k)).state = .resident
    (open_ → s.slotRead s.cur = true → s.sstate s.cur = 0 → g.released false = true →
      exec (.trap d a c) s = .next (s1.setGrp { g2 with await := some (.trap d a c) })) ∧
    (open_ → (s.slotRead s.cur = false ∨ s.sstate s.cur ≠ 0) → exec (.trap d a c) s = .next ((s.askSlot s.cur).setGrp
      { (s.askSlot s.cur).grp with await := some (.trap d a c) })) ∧
    (60 < a.toNat → exec (.trap d a c) s = .next (s.raiseA { code := 0x01, kcode := c.toNat })) ∧
    (a.toNat ≤ 60 → (s.recOf s.cur).syssig ≠ 0 → ¬ LabelIn l (s.ctx (s.ctxOf s.cur)).eplRuntime →
      exec (.trap d a c) s = .next (s.raiseA { code := 0x08, sub := 3, flbl := l, clbl := (s.ctx (s.ctxOf s.cur)).eplRuntime,
                                               kcode := c.toNat })) ∧
    (polls → s.spansAway (s.ctxOf k) (s.slotSpan k) = [] → s.spansAway (s.ctxOf k) [(s.slotAddr k + 0x300, 8)] = [] → s.sstate k = 2 →
      s.standsA k = true → (s.group k).stepStopped = false → (s.group k).stepDrain = false → (s.group k).aheld = none →
      exec (.syscallSlotPoll k) s = afterIssue k 0 0x03 (s.group k).aret Group.aret (.next (((s.setGroup k ((Group.setSreg
        ((s.group k).setOp { o with doneq := true }) (o.adst.getD 0#6)
        { val := BitVec.ofNat 64 (ofBytes (s.reply k 8)), lbl := o.lbl }).advance 4)).freeSlot k).settle k))) ∧
    (polls → s.missing (s.ctxOf k) (s.slotSpan k) ≠ [] → exec (.syscallSlotPoll k) s = .next (s.askSpans (s.ctxOf k) (s.slotSpan k)))

/-- R148 to R150, R191: DCLS asks the Weighhouse of its core, which answers in arrival order; the answer lowers the label of sa by
the owners asked for and writes 1 to sd when each of them has an entry of the core's table with this owner, this code and a
release label that holds the new label, with budget left, and writes 0 and lowers nothing otherwise. That a request enters the
Weighhouse's queue as its DCLS issues is the model's choice (log 47). -/
def Obligations.Declassify : Prop :=
  ∀ (s : State) (d a b : SRegNo) (k : Nat) (o : Op) (x lx : Label) (es : List Endorse) (h : BitVec 512) (l la kl : Label),
    let asked : OpData := .dcls d a ((s.grp.sreg b).val.truncate 16) (s.grp.sreg b).lbl
    let n := (s.team (teamOf k)).core
    (s.regsFree [d, a, b] → exec (.dcls d a b) s = .next ((s.askWeigh s.cur s.grp.nextOp).setGrp ((s.grp.issueOp
      { id := 0, fc := none, pc := s.grp.apc.toNat, lbl := s.grp.pA, data := asked }).advance 4))) ∧
    ((s.group k).op o.id = some o → o.data = .dcls d a x lx → (s.weighWaiters n).head? = some (k, o.id) →
      let r := (s.setCore n { s.core n with weighq := (s.weighWaiters n).tail }).weigh k ((s.group k).sreg a).lbl x lx o.lbl
      exec (.weighhouseAnswer k o.id) s = .next ((r.2.2.setGroup k ((((s.group k).setSreg a
        { (s.group k).sreg a with lbl := r.2.1 }).setSreg d { val := if r.1 then 1#64 else 0#64, lbl := lx ||| o.lbl }).setOp
          { o with doneq := true })).settle k)) ∧
    (let n := (l &&& ~~~ x) ||| (la ||| kl)
     let ok := ∀ i, i < 16 → (l &&& x).getLsbD i = true →
       ∃ e ∈ es, e.owner = i ∧ e.codeh = h ∧ 0 < e.budget ∧ LabelIn n e.rlbl
     (ok → (declassify es h l x la kl).1 = true ∧ (declassify es h l x la kl).2.1 = n) ∧
     (¬ ok → declassify es h l x la kl = (false, l, es)))

/-- R193, R260, R375 to R377, R380, R381: BRK takes BREAK with its code; taking a fault other than LEASE writes the group's record
with the cause, stops the faulting slice at its instruction and rings the bell, for a code that rings one; a later fault of the
group only stops its slice and sets LOST; and a resumption clears the record and continues after a BRK, or at the instruction
for any other cause. -/
def Obligations.TakingAFault : Prop :=
  ∀ (s : State) (c : SRegNo) (f : Flt) (g : Group) (r : FaultRec), f.code ∉ [0x04, 0x10, 0x15] →
    let k := s.cur
    let t := s.raiseA f
    (exec (.brk c) s = .next (s.raiseRec k
      { flt := { code := 0x11, kcode := c.toNat }, cslice := false, fpos := 0, fcycle := s.cycle, brk := true })) ∧
    (s.grp.fault = none →
      t.grp = { s.grp with fault := some { flt := f, cslice := false, fpos := 0, fcycle := s.cycle }, astopped := true } ∧
      (t.tm.bell = some (s.tm.bell.getD s.cycle)) ∧ (∀ j, j ≠ k → t.group j = s.group j) ∧ t.mem = s.mem ∧
      (∀ j, j ≠ teamOf k → t.team j = s.team j)) ∧
    (s.grp.fault ≠ none → t = s.setGrp { s.grp with lostFault := true, astopped := true }) ∧
    (g.fault = some r → g.resumeSlices.fault = none ∧ g.resumeSlices.astopped = false ∧ g.resumeSlices.cstopped = false ∧
      g.resumeSlices.apc = (if r.brk && !r.cslice then g.apc + 4#64 else g.apc) ∧ g.resumeSlices.sregs = g.sregs ∧
      g.resumeSlices.vregs = g.vregs)

/-- R201, R202: the element-wise integer instructions write, in every written lane, each element's exact result modulo 2^w, or
clamped to the type for VADDS and VSUBS; shifts take the low log2(w) bits of B. -/
def Obligations.VectorIntegerElements : Prop :=
  ∀ (s s1 : State) (f : CFields) (r : CRow) (x : CIn),
    let w := f.dt.width
    let a (l j : Nat) : Int := valueOf f.dt (elemOf w (x.a.at l) j)
    let b (l j : Nat) : Int := valueOf f.dt (elemOf w (x.b.at l) j)
    let c (l j : Nat) : Int := valueOf f.dt (elemOf w (x.c.at l) j)
    let ua (l j : Nat) : Nat := elemOf w (x.a.at l) j
    let sa (l j : Nat) : Int := if 2 ^ (w - 1) ≤ ua l j then (ua l j : Int) - 2 ^ w else ua l j
    let n (l j : Nat) : Nat := elemOf w (x.b.at l) j % w
    let lo : Int := if f.dt.isSigned then -(2 ^ (w - 1)) else 0
    let hi : Int := if f.dt.isSigned then 2 ^ (w - 1) - 1 else 2 ^ w - 1
    0 < w → w ≤ 32 →
    ∀ e ∈ [(Instr.vadd f, some f.dt, 2, fun l j => a l j + b l j), (.vsub f, some f.dt, 2, fun l j => a l j - b l j),
           (.vmul f, some f.dt, 4, fun l j => a l j * b l j), (.vmulhi f, some f.dt, 4, fun l j => a l j * b l j / 2 ^ w),
           (.vmad f, some f.dt, 4, fun l j => a l j * b l j + c l j),
           (.vadds f, some f.dt, 2, fun l j => max lo (min hi (a l j + b l j))),
           (.vsubs f, some f.dt, 2, fun l j => max lo (min hi (a l j - b l j))),
           (.vshl f, some f.dt, 2, fun l j => (ua l j : Int) * 2 ^ n l j), (.vshr f, some f.dt, 2, fun l j => (ua l j : Int) / 2 ^ n l j),
           (.vsar f, some f.dt, 2, fun l j => sa l j / 2 ^ n l j), (.vmin f, some f.dt, 2, fun l j => min (a l j) (b l j)),
           (.vmax f, some f.dt, 2, fun l j => max (a l j) (b l j)), (.vabs f, none, 2, fun l j => |sa l j|),
           (.vneg f, none, 2, fun l j => - sa l j)],
      Issues e.1 r { imm := e.2.1, free := true } s x s1 →
      ∃ v, Writes e.1 r s s1 x e.2.2.1 v ∧ ∀ l j, j < 32 / w → (elemOf w (v l) j : Int) = e.2.2.2 l j % 2 ^ w

/-- R201, R204 to R207, R224: the whole-lane instructions: the bit operations, the counts, the bit fields, VPACK, VUNPK and VMOV. -/
def Obligations.VectorWordResults : Prop :=
  ∀ (s s1 : State) (f : CFields) (r : CRow) (x : CIn) (i : Instr),
    let A (l : Nat) : Word := x.a.at l
    let B (l : Nat) : Word := x.b.at l
    let C (l : Nat) : Word := x.c.at l
    let w := f.dt.width
    let p (l : Nat) : Nat := (B l).toNat % 32
    let n (l : Nat) : Nat := min ((B l).toNat / 256 % 64) (32 - p l)
    Issues i r { imm := none, free := true } s x s1 →
    (i = .vand f → Writes i r s s1 x 2 (fun l => A l &&& B l)) ∧ (i = .vor f → Writes i r s s1 x 2 (fun l => A l ||| B l)) ∧
    (i = .vxor f → Writes i r s s1 x 2 (fun l => A l ^^^ B l)) ∧ (i = .vnot f → Writes i r s s1 x 2 (fun l => ~~~ A l)) ∧
    (i = .vmov f → Writes i r s s1 x 2 B) ∧
    (i = .vpopc f → Writes i r s s1 x 2 (fun l => BitVec.ofNat 32 ((List.range 32).countP (A l).getLsbD))) ∧
    (i = .vclz f → ∃ v, Writes i r s s1 x 2 v ∧ ∀ l, (v l).toNat ≤ 32 ∧ (A l).toNat < 2 ^ (32 - (v l).toNat) ∧
      (A l ≠ 0#32 → 2 ^ (31 - (v l).toNat) ≤ (A l).toNat)) ∧
    (i = .vbfe f → ∃ v, Writes i r s s1 x 2 v ∧ ∀ l k, k < 32 → (v l).getLsbD k =
      (if k < n l then (A l).getLsbD (p l + k) else if f.dt = .s32 ∧ n l ≠ 0 then (A l).getLsbD (p l + n l - 1) else false)) ∧
    (i = .vbfi f → ∃ v, Writes i r s s1 x 2 v ∧ ∀ l k, k < 32 → (v l).getLsbD k =
      (if p l ≤ k ∧ k < p l + n l then (A l).getLsbD (k - p l) else (C l).getLsbD k)) ∧
    (i = .vpack f → w = 8 ∨ w = 16 → ∃ v, Writes i r s s1 x 2 v ∧ ∀ l j, j < 32 / w →
      let z := valueOf (widerTy f.dt) (if j < 16 / w then elemOf (2 * w) (A l) j else elemOf (2 * w) (B l) (j - 16 / w))
      (elemOf w (v l) j : Int) = (if f.sat then max f.dt.minInt (min f.dt.maxInt z) else z) % 2 ^ w) ∧
    (i = .vunpk f → w = 16 ∨ w = 32 → ∃ v, Writes i r s s1 x 2 v ∧ ∀ l j, j < 32 / w →
      let e := elemOf 8 (A l) (f.x.toNat * (32 / w) + j)
      (elemOf w (v l) j : Int) = (if f.dt.isSigned ∧ 128 ≤ e then (e : Int) - 256 else e) % 2 ^ w)

/-- R203, R210, R204, R221: VCMP and VFCMP set bit l of the predicate when the condition holds for every element of lane l, by
integer value or with a NaN unordered; VSEL takes A where the predicate of SC is set; VVOTE answers over the participating lanes
of the tile. -/
def Obligations.ComparisonsAndVotes : Prop :=
  ∀ (s s1 : State) (f : CFields) (r : CRow) (x : CIn) (i : Instr),
    let w := f.dt.width
    let ea (l j : Nat) : Nat := elemOf w (x.a.at l) j
    let eb (l j : Nat) : Nat := elemOf w (x.b.at l) j
    let a (l j : Nat) : Int := valueOf f.dt (ea l j)
    let b (l j : Nat) : Int := valueOf f.dt (eb l j)
    let fa (l j : Nat) : FV := decodeTy f.dt (ea l j)
    let fb (l j : Nat) : FV := decodeTy f.dt (eb l j)
    let cond := f.dst.toNat / 8
    let icond (l j : Nat) : Prop := match cond with
      | 0 => a l j = b l j | 1 => a l j ≠ b l j | 2 => a l j < b l j | 3 => a l j ≤ b l j | 4 => b l j < a l j | _ => b l j ≤ a l j
    let fcond (l j : Nat) : Prop :=
      let lt : Prop := (fa l j).lt (fb l j) = true
      let eq : Prop := (fa l j).eq (fb l j) = true
      let gt : Prop := (fb l j).lt (fa l j) = true
      match cond with
      | 0 => eq | 1 => ¬ eq | 2 => lt | 3 => lt ∨ eq | 4 => gt | 5 => gt ∨ eq | _ => fa l j = .nan ∨ fb l j = .nan
    let compares (holds : Nat → Nat → Prop) : Prop :=
      ∃ bits : Word, (∀ l, l < 32 → (bits.getLsbD l = true ↔ ∀ j, j < 32 / w → holds l j)) ∧
        Completes (exec i s) (fun t => Passed s (s1.setGrp (s1.grp.schedule
          { x.later (s1.laneLat 2) (.pred (f.dst.toNat % 8)) x.joined (fun _ => 0#32) with vals := [bits] })) t x (oneCycle r s x))
    let pa := s1.grp.pred f.sa.toNat
    let pc := s1.grp.pred f.sc.toNat
    let tile (l : Nat) : List Nat := (List.range 32).filter (fun m => m / s1.grp.tilew == l / s1.grp.tilew && x.written.getLsbD m)
    (i = .vcmp f → Issues i r { imm := some f.dt, free := true } s x s1 → compares icond) ∧
    (i = .vfcmp f → Issues i r { imm := some f.dt, free := true } s x s1 → compares fcond) ∧
    (i = .vsel f → Issues i r { free := true } s x s1 → Completes (exec i s) (fun t => Passed s (s1.setGrp (s1.grp.schedule
      (x.later (s1.laneLat 2) (.reg f.dst.toNat) (x.joined ||| pc.lbl) (fun l => if pc.mask.getLsbD l then x.a.at l else x.b.at l))))
        t x (oneCycle r s x))) ∧
    (i = .vvote f → Issues i r { free := true } s x s1 → s1.grp.tilew ∈ [2, 4, 8, 16, 32] → ∃ v : Nat → Word,
      Completes (exec i s) (fun t => Passed s (s1.setGrp (s1.grp.schedule (x.later (s1.laneLat 4) (.reg f.dst.toNat) (x.k ||| pa.lbl) v))) t x (oneCycle r s x)) ∧
      ∀ l, l < 32 →
        (f.x = 0#2 → v l = if ∀ m ∈ tile l, pa.mask.getLsbD m = true then 1#32 else 0#32) ∧
        (f.x = 1#2 → v l = if ∃ m ∈ tile l, pa.mask.getLsbD m = true then 1#32 else 0#32) ∧
        (f.x = 2#2 → ∀ m, m < 32 → ((v l).getLsbD m = true ↔ m ∈ tile l ∧ pa.mask.getLsbD m = true)) ∧
        (f.x = 3#2 → v l = if ∀ m ∈ tile l, ∀ q ∈ tile l, pa.mask.getLsbD m = pa.mask.getLsbD q then 1#32 else 0#32))

/-- R208, R209, R211 to R215, R85, R100, R101: the floating instructions round each element's exact result once under RM; VFMIN and
VFMAX give the other operand for one NaN, the canonical NaN for two, and order −0 below +0; the sign instructions act on the
bits; and VFCLASS sets the one bit of its operand's class. -/
def Obligations.VectorFloatElements : Prop :=
  ∀ (s s1 : State) (f : CFields) (r : CRow) (x : CIn),
    let w := f.dt.width
    let ea (l j : Nat) : Nat := elemOf w (x.a.at l) j
    let eb (l j : Nat) : Nat := elemOf w (x.b.at l) j
    let ec (l j : Nat) : Nat := elemOf w (x.c.at l) j
    let a (l j : Nat) : FV := decodeTy f.dt (ea l j)
    let b (l j : Nat) : FV := decodeTy f.dt (eb l j)
    let c (l j : Nat) : FV := decodeTy f.dt (ec l j)
    let rnd (v : FV) : Nat := encodeTy f.dt f.rm false v
    let xb := if f.dt = .f16 then 5 else 8
    let fb := if f.dt = .f32 then 23 else if f.dt = .f16 then 10 else 7
    let cnan := if f.dt = .f32 then 0x7FC00000 else if f.dt = .f16 then 0x7E00 else 0x7FC0
    let nan (z : Nat) : Bool := z / 2 ^ fb % 2 ^ xb == 2 ^ xb - 1 && z % 2 ^ fb != 0
    let neg (z : Nat) : Bool := decide (2 ^ (w - 1) ≤ z)
    let below (y z : Nat) : Bool := (decodeTy f.dt y).lt (decodeTy f.dt z) || ((decodeTy f.dt y).eq (decodeTy f.dt z) && neg y && !neg z)
    let pick (mx : Bool) (y z : Nat) : Nat := if nan y then (if nan z then cnan else z) else if nan z then y
      else if mx then (if below y z then z else y) else if below z y then z else y
    let cls (z : Nat) : Nat :=
      let e := z / 2 ^ fb % 2 ^ xb
      let m := z % 2 ^ fb
      if e = 2 ^ xb - 1 then (if m = 0 then (if neg z then 2 ^ 0 else 2 ^ 7) else if m < 2 ^ (fb - 1) then 2 ^ 8 else 2 ^ 9)
      else if e = 0 then (if m = 0 then (if neg z then 2 ^ 3 else 2 ^ 4) else if neg z then 2 ^ 2 else 2 ^ 5)
      else if neg z then 2 ^ 1 else 2 ^ 6
    let scale (l j : Nat) : Int := max (-1000) (min 1000 (if 2 ^ (w - 1) ≤ eb l j then (eb l j : Int) - 2 ^ w else eb l j))
    f.dt ∈ [Ty.f32, .f16, .bf16] →
    ∀ e ∈ [(Instr.vfadd f, some f.dt, 4, fun l j => rnd ((a l j).add f.rm (b l j))),
           (.vfsub f, some f.dt, 4, fun l j => rnd ((a l j).add f.rm (b l j).negate)),
           (.vfmul f, some f.dt, 4, fun l j => rnd ((a l j).mul (b l j))),
           (.vfma f, some f.dt, 4, fun l j => rnd (((a l j).mul (b l j)).add f.rm (c l j))),
           (.vfmin f, some f.dt, 2, fun l j => pick false (ea l j) (eb l j)),
           (.vfmax f, some f.dt, 2, fun l j => pick true (ea l j) (eb l j)),
           (.vfabs f, none, 2, fun l j => ea l j % 2 ^ (w - 1)),
           (.vfneg f, none, 2, fun l j => if ea l j < 2 ^ (w - 1) then ea l j + 2 ^ (w - 1) else ea l j - 2 ^ (w - 1)),
           (.vfclass f, none, 2, fun l j => cls (ea l j)),
           (.vscalb f, some (if f.dt = .f32 then .s32 else .s16), 4, fun l j => rnd ((a l j).mul (FV.dyadic false 1 (scale l j))))],
      Issues e.1 r { imm := e.2.1, free := true } s x s1 →
      ∃ v, Writes e.1 r s s1 x e.2.2.1 v ∧ ∀ l j, j < 32 / w → elemOf w (v l) j = e.2.2.2 l j % 2 ^ w

/-- R212 to R214, R216, R97 to R99, R111: VCVT converts as many elements as both types have in a lane and leaves zeros above them;
VQNT writes the rounded quotient, VDQNT the rounded product, in element 0; and a special function the value that `specialF32`
names, after 14 or 20 issue cycles. R111: the results at special operands, whatever the rounding mode; the reciprocal, the
rounded quotient of 1; and results at ordinary operands under RNE, worked out beside the model. R82 to R89, R92, R94 to R97:
what a code of each format is worth, exact sums, products and quotients, and rounding: the elements of a format with its
exponent unbounded above are the values of all codes in turn, the exact value lies at one or between two of them, RM names
which, a tie under RNE goes to the even code, a code past the largest finite one is an overflow of R95, and NaNs, infinities and
zeros are those of R97. That 464, half-way between 448 and 480, gives OCP8A's 448 is the model's choice (log 30). R96 to R101: a
conversion between integer types keeps a value in range, extends when it widens and otherwise clamps under SAT and keeps the low
bits without; one to an integer rounds under RM, keeps a value in range, and otherwise gives the nearest of the range under SAT
and the indefinite value without, as it does for infinities, and 0 or the indefinite value for a NaN; any other rounds the exact
value of its source. The manual's worked bits come out. -/
def Obligations.ConversionsAndFunctions : Prop :=
  (∀ (s s1 : State) (f : CFields) (r : CRow) (x : CIn),
    let w := f.dt.width
    let src := (Ty.ofCode (f.ext.toNat % 32)).getD .f32
    let n := 32 / max src.width w
    let a0 (t : Ty) (l : Nat) : FV := decodeTy t (elemOf t.width (x.a.at l) 0)
    let b0 (l : Nat) : FV := decodeTy .f32 (x.b.at l).toNat
    let one (v : Nat → Word) (lat : Nat) (i : Instr) (imm : Option Ty) : Prop :=
      Issues i r { imm := imm, free := true } s x s1 → Writes i r s s1 x lat v
    (Issues (.vcvt f) r { free := true } s x s1 → w ∈ [4, 8, 16, 32] → ∃ v, Writes (.vcvt f) r s s1 x 4 v ∧ ∀ l j, j < 32 / w →
      elemOf w (v l) j = if j < n then convertTy src f.dt f.rm f.sat (elemOf src.width (x.a.at l) j) % 2 ^ w else 0) ∧
    one (fun l => BitVec.ofNat 32 (encodeTy f.dt f.rm f.sat ((a0 .f32 l).div (b0 l)))) 12 (.vqnt f) (some .f32) ∧
    one (fun l => BitVec.ofNat 32 (encodeTy (if f.x = 0#2 then .f32 else if f.x = 1#2 then .f16 else .bf16) f.rm false
      ((a0 f.dt l).mul (b0 l)))) 4 (.vdqnt f) (some .f32) ∧
    ∀ e ∈ [(Instr.vexp2 f, SFun.exp2, 14), (.vlog2 f, .log2, 14), (.vrcp f, .rcp, 14), (.vrsq f, .rsq, 14), (.vsqrt f, .sqrt, 14),
           (.vtanh f, .tanh, 20), (.vsin f, .sin, 20), (.vcos f, .cos, 20)],
      one (fun l => specialF32 e.2.1 f.rm (x.a.at l)) e.2.2 e.1 none) ∧
  (∀ (rm : RM) (x : Word),
    (∀ g : SFun, decodeTy .f32 x.toNat = .nan → specialF32 g rm x = 0x7FC00000#32) ∧
    (∀ e ∈ [(SFun.exp2, 0x7F800000#32, 0x7F800000#32), (.exp2, 0xFF800000#32, 0#32), (.exp2, 0#32, 0x3F800000#32),
            (.log2, 0x7F800000#32, 0x7F800000#32), (.log2, 0xFF800000#32, 0x7FC00000#32), (.log2, 0#32, 0xFF800000#32),
            (.log2, 0x80000000#32, 0xFF800000#32), (.log2, 0xBF800000#32, 0x7FC00000#32), (.log2, 0x3F800000#32, 0#32),
            (.rcp, 0#32, 0x7F800000#32), (.rcp, 0x80000000#32, 0xFF800000#32), (.rcp, 0xFF800000#32, 0x80000000#32),
            (.rsq, 0#32, 0x7F800000#32), (.rsq, 0x80000000#32, 0xFF800000#32), (.rsq, 0x7F800000#32, 0#32),
            (.rsq, 0xBF800000#32, 0x7FC00000#32), (.sqrt, 0x80000000#32, 0x80000000#32), (.sqrt, 0xBF800000#32, 0x7FC00000#32),
            (.sqrt, 0x7F800000#32, 0x7F800000#32), (.tanh, 0x7F800000#32, 0x3F800000#32), (.tanh, 0x80000000#32, 0x80000000#32),
            (.sin, 0x7F800000#32, 0x7FC00000#32), (.sin, 0x80000000#32, 0x80000000#32), (.cos, 0xFF800000#32, 0x7FC00000#32),
            (.cos, 0#32, 0x3F800000#32)], specialF32 e.1 rm e.2.1 = e.2.2) ∧
    (∀ e ∈ [(SFun.exp2, 0x3F000000#32, 0x3FB504F3#32), (.exp2, 0xBFC00000#32, 0x3EB504F3#32), (.exp2, 0x42F70000#32,
            0x7D3504F3#32), (.exp2, 0xC3158000#32, 0x00000001#32), (.log2, 0x40400000#32, 0x3FCAE00D#32), (.log2,
            0x3F7FFFFF#32, 0xB3B8AA3C#32), (.log2, 0x00000001#32, 0xC3150000#32), (.log2, 0x7F7FFFFF#32,
            0x43000000#32), (.rsq, 0x40000000#32, 0x3F3504F3#32), (.rsq, 0x40400000#32, 0x3F13CD3A#32), (.rsq,
            0x00000001#32, 0x64B504F3#32), (.rsq, 0x7F7FFFFF#32, 0x1F800000#32), (.sqrt, 0x40000000#32,
            0x3FB504F3#32), (.sqrt, 0x40800000#32, 0x40000000#32), (.sqrt, 0x00000001#32, 0x1A3504F3#32), (.sqrt,
            0x7F7FFFFF#32, 0x5F7FFFFF#32), (.tanh, 0x3F800000#32, 0x3F42F7D6#32), (.tanh, 0xBF000000#32,
            0xBEEC9A9F#32), (.tanh, 0x41000000#32, 0x3F7FFFFC#32), (.tanh, 0x39800000#32, 0x39800000#32), (.sin,
            0x3F800000#32, 0x3F576AA4#32), (.cos, 0x3F800000#32, 0x3F0A5140#32), (.sin, 0xC0000000#32,
            0xBF68C7B7#32), (.cos, 0xC0000000#32, 0xBED51133#32), (.sin, 0x42C80000#32, 0xBF01A12E#32), (.cos,
            0x42C80000#32, 0x3F5CC0EE#32), (.sin, 0x47C35000#32, 0x3D126D55#32), (.cos, 0x47C35000#32,
            0xBF7FD61C#32)], specialF32 e.1 .rne e.2.1 = e.2.2) ∧
    specialF32 .rcp rm x = BitVec.ofNat 32 (encodeTy .f32 rm false ((FV.fin false 1 1).div (decodeTy .f32 x.toNat)))) ∧
  (∀ (rm : RM) (sat neg a b : Bool) (n d m e k E : Nat),
    let sgn (s : Bool) (i : Nat) : Int := if s then -(i : Int) else i
    0 < d → 0 < e →
    (∀ f ∈ [(Ty.f32, 8, 23, 127, 0), (.f16, 5, 10, 15, 0), (.bf16, 8, 7, 127, 0), (.e4m3n, 4, 3, 8, 1), (.e5m2n, 5, 2, 16, 1),
            (.e2m1n, 2, 1, 2, 1), (.ocp8a, 4, 3, 7, 2), (.ocp8b, 5, 2, 15, 3)],
      let t : Ty := f.1
      let eb : Nat := f.2.1
      let fb : Nat := f.2.2.1
      let bias : Nat := f.2.2.2.1
      let cls : Nat := f.2.2.2.2
      let ieee := cls = 0 ∨ cls = 3
      let unit := 2 ^ (bias + fb - 1)
      let size (c : Nat) : Nat := if c < 2 ^ fb then c else (2 ^ fb + c % 2 ^ fb) * 2 ^ (c / 2 ^ fb - 1)
      let top := if cls = 1 then 2 ^ (eb + fb) - 1 else if cls = 2 then 2 ^ (eb + fb) - 2 else (2 ^ eb - 1) * 2 ^ fb - 1
      let inf := (2 ^ eb - 1) * 2 ^ fb
      let nan := if cls = 1 then 2 ^ (eb + fb) else if cls = 2 then 2 ^ (eb + fb) - 1 else inf + 2 ^ (fb - 1)
      let sg := if neg then 2 ^ (eb + fb) else 0
      let zr := if cls = 1 then 0 else sg
      let most := if sat then sg + top else nan
      let past := if cls = 0 ∨ (cls = 3 ∧ sat = false) then
          (if rm = .rne ∨ rm = .rdn ∧ neg = true ∨ rm = .rup ∧ neg = false then sg + inf else sg + top) else most
      (t.width = 1 + eb + fb ∧ (k ≤ top → ¬ (cls = 1 ∧ neg = true ∧ k = 0) →
        ∃ i j, decodeTy t (sg + k) = .fin neg i j ∧ 0 < j ∧ i * unit = size k * j) ∧
        (ieee → decodeTy t (sg + inf) = .inf neg ∧ (0 < k → k < 2 ^ fb → decodeTy t (sg + inf + k) = .nan)) ∧
        (cls = 1 → decodeTy t nan = .nan) ∧ (cls = 2 → decodeTy t (sg + nan) = .nan)) ∧
      encodeTy t rm sat .nan = nan ∧
      encodeTy t rm sat (.inf neg) = (if cls = 0 ∨ (cls = 3 ∧ sat = false) then sg + inf else most) ∧
      encodeTy t rm sat (.fin neg 0 d) = zr ∧
      (size k * d ≤ n * unit → n * unit < size (k + 1) * d → 0 < n →
        let up := size k * d ≠ n * unit ∧ match rm with
          | .rtz => False
          | .rdn => neg = true
          | .rup => neg = false
          | .rne => (size k + size (k + 1)) * d < 2 * n * unit ∨ ((size k + size (k + 1)) * d = 2 * n * unit ∧ k % 2 = 1)
        (¬ up → encodeTy t rm sat (.fin neg n d) = if top < k then past else if k = 0 then zr else sg + k) ∧
        (up → encodeTy t rm sat (.fin neg n d) = if top ≤ k then past else sg + (k + 1)))) ∧
    (E < 255 → ∃ i j, decodeTy .e8m0 E = .fin false i j ∧ 0 < j ∧ i * 2 ^ 127 = 2 ^ E * j) ∧ decodeTy .e8m0 255 = .nan ∧
    (∀ t ∈ [Ty.s8, .s16, .s32, .s64, .z8, .z16, .z32, .z64], k < 2 ^ t.width → decodeTy t k =
      if t ∈ [Ty.s8, .s16, .s32, .s64] ∧ 2 ^ (t.width - 1) ≤ k then .fin true (2 ^ t.width - k) 1 else .fin false k 1) ∧
    (∃ s i j, (FV.fin a n d).add rm (.fin b m e) = .fin s i j ∧ 0 < j ∧ sgn s i * ((d * e : Nat) : Int) = (sgn a (n * e) + sgn b (m * d)) * (j : Int) ∧
      (i = 0 → s = if a = b then a else decide (rm = .rdn))) ∧
    ((FV.inf a).add rm (.inf b) = if a = b then .inf a else .nan) ∧ (FV.inf a).add rm (.fin b m e) = .inf a ∧ (FV.fin b m e).add rm (.inf a) = .inf a ∧
    (∃ i j, (FV.fin a n d).mul (.fin b m e) = .fin (a != b) i j ∧ 0 < j ∧ i * (d * e) = n * m * j) ∧
    (FV.inf a).mul (.inf b) = .inf (a != b) ∧ ((FV.inf a).mul (.fin b m e) = if m = 0 then .nan else .inf (a != b)) ∧
    (m ≠ 0 → ∃ i j, (FV.fin a n d).div (.fin b m e) = .fin (a != b) i j ∧ 0 < j ∧ i * (d * m) = n * e * j) ∧
    ((FV.fin a n d).div (.fin b 0 e) = if n = 0 then .nan else .inf (a != b)) ∧ (FV.inf a).div (.inf b) = .nan ∧
    (FV.fin a n d).div (.inf b) = .fin (a != b) 0 1 ∧ (FV.inf a).div (.fin b m e) = .inf (a != b) ∧
    ∀ v : FV, FV.nan.add rm v = .nan ∧ v.add rm .nan = .nan ∧ FV.nan.mul v = .nan ∧ v.mul .nan = .nan ∧ FV.nan.div v = .nan ∧ v.div .nan = .nan) ∧
  (∀ (rm : RM) (sat neg : Bool) (n d bits : Nat) (z : Int) (src : Ty),
    let ints := [Ty.s8, .s16, .s32, .s64, .z8, .z16, .z32, .z64]
    let lo (t : Ty) : Int := if t ∈ [Ty.s8, .s16, .s32, .s64] then -(2 : Int) ^ (t.width - 1) else 0
    let hi (t : Ty) : Int := if t ∈ [Ty.s8, .s16, .s32, .s64] then (2 : Int) ^ (t.width - 1) - 1 else (2 : Int) ^ t.width - 1
    let indef (t : Ty) : Int := if t ∈ [Ty.s8, .s16, .s32, .s64] then lo t else hi t
    let is (t : Ty) (r : Nat) (v : Int) : Prop := r < 2 ^ t.width ∧ (r : Int) = if v < 0 then v + (2 : Int) ^ t.width else v
    let x : Int := if neg then -(n : Int) else n
    let off : Int := x - z * d
    let rounds := (rm = .rtz → 0 ≤ z * x ∧ z.natAbs * d ≤ n ∧ n < (z.natAbs + 1) * d) ∧ (rm = .rdn → 0 ≤ off ∧ off < d) ∧
      (rm = .rup → off ≤ 0 ∧ -(d : Int) < off) ∧ (rm = .rne → 2 * off.natAbs ≤ d ∧ (2 * off.natAbs = d → z % 2 = 0))
    (∀ s ∈ ints, ∀ t ∈ ints, bits < 2 ^ s.width →
      let v : Int := if s ∈ [Ty.s8, .s16, .s32, .s64] ∧ 2 ^ (s.width - 1) ≤ bits then (bits : Int) - 2 ^ s.width else bits
      let r := convertTy s t rm sat bits
      (lo t ≤ v → v ≤ hi t → is t r v) ∧
      (s.width < t.width → r = if v < 0 then 2 ^ t.width - 2 ^ s.width + bits else bits) ∧
      (t.width ≤ s.width → ¬ (lo t ≤ v ∧ v ≤ hi t) →
        (sat = true → is t r (if v < lo t then lo t else hi t)) ∧ (sat = false → r = bits % 2 ^ t.width))) ∧
    (∀ t ∈ ints, 0 < d →
      (rounds →
        (lo t ≤ z → z ≤ hi t → is t (encodeTy t rm sat (.fin neg n d)) z) ∧
        (¬ (lo t ≤ z ∧ z ≤ hi t) → is t (encodeTy t rm sat (.fin neg n d)) (if sat then (if z < lo t then lo t else hi t) else indef t))) ∧
      is t (encodeTy t rm sat (.inf neg)) (if sat then (if neg then lo t else hi t) else indef t) ∧
      is t (encodeTy t rm sat .nan) (if sat then 0 else indef t)) ∧
    (∀ (dst : Ty), src ∉ ints ∨ dst ∉ ints → convertTy src dst rm sat bits = encodeTy dst rm sat (decodeTy src bits)) ∧
    (∀ w ∈ [(Ty.f32, 0x43780000, Ty.e4m3n, RM.rne, false, 0x80), (.f32, 0x43780000, .e4m3n, .rne, true, 0x7F), (.f32, 0x43780000, .e4m3n, .rtz, false, 0x7F),
            (.f32, 0x477FF000, .f16, .rne, true, 0x7C00), (.f32, 0x477FF000, .f16, .rtz, false, 0x7BFF), (.f32, 0x80000000, .e4m3n, .rne, false, 0),
            (.f32, 0x38D1B717, .e4m3n, .rne, false, 0), (.f32, 0x38D1B717, .e4m3n, .rup, false, 1), (.f32, 0xB8D1B717, .e4m3n, .rdn, false, 0x81)],
      convertTy w.1 w.2.2.1 w.2.2.2.1 w.2.2.2.2.1 w.2.1 = w.2.2.2.2.2) ∧
    convertTy .ocp8b .e4m3n rm false 0x7C = 0x80 ∧ convertTy .ocp8b .e4m3n rm true 0x7C = 0x7F ∧
    encodeTy .e4m3n .rne sat ((decodeTy .f32 0x3F7C0000).div (decodeTy .f32 0x40400000)) = 0x32 ∧
    encodeTy .f16 rm false ((decodeTy .e4m3n 0x32).mul (decodeTy .f32 0x40400000)) = 0x3B80)

/-- R218 to R222, R108 to R110: the cross-lane instructions within tiles of TILEW lanes: which lane a shuffle reads, and reductions
and scans over the participating lanes, a fold of exact operations for integers, the tree of R108 for F32. R108, R109: the tree
over 2^n values combines the node of the lower half with that of the upper half; and an inclusive scan at the last position is
the root. -/
def Obligations.CrossLaneResults : Prop :=
  (∀ (s s1 : State) (f : CFields) (r : CRow) (x : CIn),
    let g := s1.grp
    let t := g.tilew
    let op := f.ext.toNat % 8
    let word (l : Nat) : Word := if l < g.lanes ∧ l < 32 ∧ (g.quad (l / 4)).st ≠ .ended then x.a.at l else 0#32
    let b (l : Nat) : Nat := (x.b.at l).toNat
    let base (l : Nat) : Nat := l / t * t
    let f2 (u v : Word) : Word := redOp f.dt f.rm op u v
    let id0 : Word := redIdentity f.dt op
    let tile (l : Nat) : List Word := (List.range t).map (fun j => if x.written.getLsbD (base l + j) then x.a.at (base l + j) else id0)
    let lat := if f.dt = .f32 then 12 else 8
    let writes (i : Instr) (lat : Nat) (v : Nat → Word) : Prop :=
      Issues i r { free := true, qa := 255 } s x s1 → t ∈ [2, 4, 8, 16, 32] → g.lanes ≤ 32 → ∃ u : Nat → Word,
        (∀ l, l < 32 → u l = v l) ∧ Completes (exec i s) (fun t => Passed s
          (s1.setGrp (s1.grp.schedule (x.later (s1.laneLat lat) (.reg f.dst.toNat) x.joined u))) t x (oneCycle r s x))
    writes (.vshuf f) 4 (fun l => word (base l + b l % t)) ∧
    (f.x = 0#2 → writes (.vshfl f) 4 (fun l => word (base l + (l + t - b l % t) % t))) ∧
    (f.x = 1#2 → writes (.vshfl f) 4 (fun l => word (base l + (l + b l) % t))) ∧
    (f.x = 2#2 → writes (.vshfl f) 4 (fun l => word (base l + (l % t) ^^^ (b l % t)))) ∧
    writes (.vbcast f) 4 (fun l =>
      let first := ((List.range t).find? (fun j => x.written.getLsbD (base l + j))).getD 0
      word (base l + b (base l + first) % t)) ∧
    (f.dt ∈ [Ty.s32, .z32] → op ≤ 5 →
      writes (.vred f) lat (fun l => (tile l).foldl f2 id0) ∧
      (f.x = 0#2 → writes (.vscan f) lat (fun l => ((tile l).take (l % t + 1)).foldl f2 id0)) ∧
      (f.x = 1#2 → writes (.vscan f) lat (fun l => ((tile l).take (l % t)).foldl f2 id0))) ∧
    (f.dt = .f32 →
      writes (.vred f) lat (fun l => treeNode f2 t.log2 (tile l)) ∧
      (f.x = 0#2 → writes (.vscan f) lat (fun l => scanAt f2 (tile l) (l % t))) ∧
      (f.x = 1#2 → writes (.vscan f) lat (fun l => if l % t = 0 then id0 else scanAt f2 (tile l) (l % t - 1))))) ∧
  (∀ (f : Word → Word → Word) (n : Nat) (xs ys : List Word), xs.length = 2 ^ n → ys.length = 2 ^ n →
    treeNode f (n + 1) (xs ++ ys) = f (treeNode f n xs) (treeNode f n ys) ∧
    (∀ x, treeNode f 0 [x] = x) ∧ (n ≤ 5 → scanAt f xs (2 ^ n - 1) = treeNode f n xs))

/-- R223, R112, R225, R141, R142, R257: SETTW sets the tile width of a group with one path, or faults; VRAND writes the four words
of Philox-4×32-10 to D to D+3; VLBLRD writes the label of A, VLBLUP A under a raised label, and with no lane to write either
leaves K alone in D's label (log 42). R112: Philox-4×32-10 on the all-zero counter and key, on the all-ones ones, and one round
and key step. -/
def Obligations.TileWidthRandomAndLabels : Prop :=
  (∀ (s s1 : State) (f : CFields) (r : CRow) (x : CIn),
    let w := (x.b.at 0).toNat
    let d := f.dst.toNat
    let lit : Word := match f.imm with | .lit v => v | _ => 0#32
    let lane (o : Operand) (l : Nat) : Word := if l < s1.grp.lanes ∧ l < 32 then o.at l else 0#32
    let rnd (l : Nat) := philox 10 (lane x.c 0, lane x.c 1, BitVec.ofNat 32 l, lit) (lane x.a 0) (lane x.a 1)
    let lr := x.a.lbl ||| x.c.lbl ||| x.k
    let put (u : State) (n : Nat) (v : Nat → Word) : State := u.setGrp (u.grp.schedule (x.later (u.laneLat 10) (.reg n) lr v))
    (Issues (.settw f) r { free := true, qb := 1 } s x s1 →
      (s.grp.paths.length ≤ 1 → w ∈ [2, 4, 8, 16, 32] → x.joined = 0#16 → Completes (exec (.settw f) s) (fun t =>
        Passed s (s1.setGrp (s1.grp.schedule { x.later (s1.laneLat 2) .tilew 0#16 (fun _ => 0#32) with vals := [BitVec.ofNat 32 w] }))
          t x (oneCycle r s x))) ∧
      (1 < s.grp.paths.length ∨ w ∉ [2, 4, 8, 16, 32] → exec (.settw f) s = .next (s.raiseC { code := 0x01 })) ∧
      (s.grp.paths.length ≤ 1 → w ∈ [2, 4, 8, 16, 32] → x.joined ≠ 0#16 →
        exec (.settw f) s = .next (s.raiseC { code := 0x06, sub := 1, flbl := x.joined }))) ∧
    (Issues (.vrand f) r { static := fun v => decide (d + 3 < v), free := true, qa := 1, qc := 1,
                           writes := [.reg (d + 1), .reg (d + 2), .reg (d + 3)] } s x s1 →
      Completes (exec (.vrand f) s) (fun t => Passed s (put (put (put (put s1 d (fun l => (rnd l).1)) (d + 1) (fun l => (rnd l).2.1))
        (d + 2) (fun l => (rnd l).2.2.1)) (d + 3) (fun l => (rnd l).2.2.2)) t x (oneCycle r s x))) ∧
    (Issues (.vlblrd f) r { free := true } s x s1 → Completes (exec (.vlblrd f) s) (fun t => Passed s (s1.setGrp (s1.grp.schedule
      (x.later (s1.laneLat 2) (.reg d) (if x.written = 0#32 then x.k else x.joined) (fun _ => x.a.lbl.zeroExtend 32)))) t x (oneCycle r s x))) ∧
    (Issues (.vlblup f) r { imm := some .z32, free := true, qb := 1 } s x s1 → x.a.lanes.length = 32 →
      Completes (exec (.vlblup f) s) (fun t => Passed s (s1.setGrp (s1.grp.schedule
        (x.later (s1.laneLat 2) (.reg d) (if x.written = 0#32 then x.k else x.joined ||| BitVec.ofNat 16 w) x.a.at))) t x (oneCycle r s x)))) ∧
  (philox 10 (0#32, 0#32, 0#32, 0#32) 0#32 0#32 = (0x6627E8D5#32, 0xE169C58D#32, 0xBC57AC4C#32, 0x9B00DBD8#32) ∧
  (let o : Word := 0xFFFFFFFF#32
   philox 10 (o, o, o, o) o o = (0x408F276D#32, 0x41C83B0E#32, 0xA20BC7C6#32, 0x6D5451FD#32)) ∧
  ∀ (n : Nat) (c0 c1 c2 c3 k0 k1 : Word), philox (n + 1) (c0, c1, c2, c3) k0 k1 =
    philox n (BitVec.ofNat 32 (0xCD9E8D57 * c2.toNat / 2 ^ 32) ^^^ c1 ^^^ k0, 0xCD9E8D57#32 * c2,
              BitVec.ofNat 32 (0xD2511F53 * c0.toNat / 2 ^ 32) ^^^ c3 ^^^ k1, 0xD2511F53#32 * c0) (k0 + 0x9E3779B9#32) (k1 + 0xBB67AE85#32))

/-- R149, R226, R256, R258, R259, R383, R260: VDCLS issues a request to its core's Weighhouse that holds D and the flag predicate;
VSYS posts the record of its registers in the group's slot; VBRK takes BREAK, with its code, when the gang has an active lane,
and passes otherwise. That VDCLS enters the Weighhouse's queue at issue (log 47), that a gang without a lane in `written` adds K
alone (log 42), that VSYS waits at issue for the release of its request (log 40), and that a slot which another device holds is
read by requests of the device's own (log 17), are the model's choices. -/
def Obligations.VectorSystemInstructions : Prop :=
  ∀ (s s1 : State) (f : CFields) (r : CRow) (x : CIn),
    let k := f.sc.toNat % 8
    let flag : List Dst := if k = 0 then [] else [.pred k]
    let n := f.x.toNat + 1
    let regs := (List.range n).map (fun i => s1.grp.readCode 0 0 0 0 (f.sa.toNat + i))
    let l := Label.joinAll (regs.map (·.lbl)) ||| x.k
    let epl := (s.ctx (s.ctxOf s.cur)).eplRuntime
    let o : Op := { id := 0, fc := some .cl, dsts := [.reg f.dst.toNat], lbl := l, data := .syscall }
    let req := bytesOf x.written.toNat 4 ++ bytesOf n 1 ++ bytesOf s1.grp.gidx 1 ++ bytesOf l.toNat 2 ++ bytesOf s.tm.teamix 4
      ++ bytesOf 0 4 ++ bytesOf s.path.pos 8 ++ bytesOf 0 40
      ++ regs.flatMap (fun r => (List.range 32).flatMap (fun l => bytesOf (if x.written.getLsbD l then (r.at l).toNat else 0) 4))
    let open_ := ∀ y ∈ s1.grp.ops, y.data = .syscall → y.doneq = true
    let ask : OpData := .vdcls k x.a.lanes x.a.lbl (BitVec.ofNat 16 (x.b.at 0).toNat) x.b.lbl
    let spec : CSpec :=
      { static := fun v => decide (f.sa.toNat + n ≤ v), reads := (List.range n).map (fun i => .reg (f.sa.toNat + i)), fc := some .cl }
    (Issues (.vdcls f) r { imm := some .z32, writes := flag, qb := 1 } s x s1 → Completes (exec (.vdcls f) s) (fun t =>
      Passed s ((if x.written = 0#32 then s1 else s1.askWeigh s.cur s1.grp.nextOp).issueLanes x
        { id := 0, fc := none, dsts := .reg f.dst.toNat :: flag, lbl := x.k, data := ask }) t x 1)) ∧
    (Issues (.vsys f) r spec s x s1 → (s.recOf s.cur).syssig ≠ 0 →
      (x.written = 0#32 → Completes (exec (.vsys f) s) (fun t => Passed s (s1.issueLanes x o) t x 1)) ∧
      (x.written ≠ 0#32 → LabelIn l epl → open_ → s.slotRead s.cur = true → s.sstate s.cur = 0 →
        s1.grp.quadsReleased x.qmask = true →
        Completes (exec (.vsys f) s) (fun t => Passed s ((s1.issueLanes x o).postRequest s.cur 0 0 req) t x 1)) ∧
      (x.written ≠ 0#32 → LabelIn l epl → open_ → (s.slotRead s.cur = false ∨ s.sstate s.cur ≠ 0) →
        exec (.vsys f) s = (s.askSlot s.cur).cWait 0x119) ∧
      (x.written ≠ 0#32 → ¬ LabelIn l epl →
        exec (.vsys f) s = .next (s.raiseC { code := 0x08, sub := 3, flbl := l, clbl := epl }))) ∧
    (Issues (.vbrk f) r { free := true } s x s1 →
      (s.grp.active s.path = 0#32 → Completes (exec (.vbrk f) s) (fun t => Passed s s1 t x (oneCycle r s x))) ∧
      (s.grp.active s.path ≠ 0#32 → exec (.vbrk f) s = .next (s.raiseRec s.cur
        { flt := { code := 0x11, kcode := f.ext.toNat % 65536 }, cslice := true, fpos := s.path.pos, fcycle := s.cycle,
          fpath := some s.curPath, brk := true })))

/-- R22, R26, R226 to R228, R231: a lane operation enters the issue order of its group under its counter, its ticket PENDING in
every quad of the gang, when no check of it fails at issue; of a gang without a lane in `written`, in a group with nothing in
flight, the ticket is DONE at once, nothing is read, and all that its register takes is K in its label (R124). That such a gang
adds K alone is the model's choice (log 42). -/
def Obligations.LaneOperationIssue : Prop :=
  ∀ (s : State) (x : CIn) (o : Op) (c : FC), o.fc = some c → o.fail = none → s.grp.quads.length = 8 →
    let t := s.issueLanes x o
    let tk := x.f.tk.toNat
    let g := s.grp
    let ticketIs (v : Nat) : Prop := ∀ q, q < 8 → ∀ n, (t.grp.quad q).ticket n =
      if n = tk ∧ tk ≠ 0 ∧ bitOf x.qmask q = true then v else (g.quad q).ticket n
    let same : Prop := t.mem = s.mem ∧ t.glbl = s.glbl ∧ t.teams = s.teams ∧ t.grp.vregs = g.vregs ∧ t.grp.preds = g.preds ∧
      t.grp.temps = g.temps ∧ t.grp.sregs = g.sregs ∧ t.grp.lqs = g.lqs ∧ t.grp.paths = g.paths ∧
      ∀ j, j ≠ s.cur → t.group j = s.group j
    (x.written ≠ 0#32 → (∀ a ∈ o.accs, s.sendCheck s.cur o.lbl a = none) →
      same ∧ t.grp.fx = g.fx ∧ ticketIs 1 ∧ (∀ d, t.grp.fcv d = g.fcv d + if d = c then 1 else 0) ∧
      t.grp.ops.length = g.ops.length + 1 ∧ (∀ j, j ≠ g.nextOp → t.grp.op j = g.op j) ∧
      ∃ accs, accs.map (fun a => (a.lane, a.va, a.pa, a.size, a.kind, a.val, a.cmp)) =
          o.accs.map (fun a => (a.lane, a.va, a.pa, a.size, a.kind, a.val, a.cmp)) ∧
        t.grp.ops.getLast? = some { o with id := g.nextOp, cslice := true, quads := x.qmask, pc := s.path.pos,
                                           run := g.runOf x.qmask, tk := tk, mask := x.written, full := x.full, accs := accs }) ∧
    (x.written = 0#32 → s.grp.ops = [] → same ∧ ticketIs 2 ∧ t.grp.ops = [] ∧ t.grp.fcv c = g.fcv c ∧
      (o.dsts = [] → t.grp.fx = g.fx) ∧
      ∀ d, o.dsts = [d] → (∀ w ∈ g.fx, w.dst = d → w.qmask &&& x.qmask = 0) →
        t.grp.fx = g.fx ++ [{ qmask := x.qmask, dst := d, mask := 0#32, vals := [], full := false, lbl := x.k, left := 0 }])

/-- R229, R233 to R238: the global lane accesses issue one access for each written lane, at the address of the lane's pair (and
offset), when each address is aligned and below 2^55; else the instruction is ILLEGAL. That FADDR of this fault is the address
of the lowest bad lane is the model's choice (log 67). -/
def Obligations.GlobalLaneAccesses : Prop :=
  ∀ (s s1 : State) (f : CFields) (r : CRow) (x : CIn) (i : Instr),
    let hi := f.sa.toNat + 1
    let h := s1.grp.readCode 0 0 0 0 hi
    let n := f.dt.width / 8
    let lanes := (List.range 32).filter x.written.getLsbD
    let off (l : Nat) : Int := (x.b.at l).toInt
    let addr (o : Nat → Int) (l : Nat) : Nat := (((h.at l).toNat * 2 ^ 32 + (x.a.at l).toNat + o l) % 2 ^ 64).toNat
    let ok (n : Nat) (o : Nat → Int) : Prop := ∀ l ∈ lanes, addr o l < 2 ^ 55 ∧ addr o l % n = 0
    let acc (l n : Nat) (o : Nat → Int) (kd : AccKind) (v c : Nat) : Acc :=
      s1.formAcc s.cur { lane := l, va := addr o l, size := n, kind := kd, val := v, cmp := c }
    let zero (_ : Nat) : Int := 0
    let lb := x.a.lbl ||| h.lbl ||| x.b.lbl ||| x.k
    let lc := lb ||| x.c.lbl
    let goes (o : Op) : Prop := Completes (exec i s) (fun t => Passed s (s1.issueLanes x o) t x 1)
    let stores := lanes.map (fun l => acc l n off .store ((x.c.at l).toNat % 2 ^ (8 * n)) 0)
    let op := f.ext.toNat % 16
    let amo (l : Nat) : Acc := acc l 4 zero (.atomic op f.dt) (x.b.at l).toNat (x.c.at l).toNat
    let d := s1.grp.readCode s1.freeCtr x.qmask (x.qmask ||| 1) 0 f.dst.toNat
    let issues (c : FC) : Prop :=
      Issues i r { imm := some .s32, static := fun v => decide (hi < v), reads := [.reg hi], fc := some c } s x s1
    let bad (n : Nat) (o : Nat → Int) : Prop := ∀ l, lanes.find? (fun l => !(decide (addr o l < 2 ^ 55) && addr o l % n == 0)) = some l →
      exec i s = .next (s.raiseRec s.cur { flt := { code := 0x01, faddr := addr o l }, cslice := true, fpos := s.path.pos,
                                           fcycle := s.cycle, fpath := some s.curPath })
    (issues .gx →
      (i = .vldx f → ok n off → goes { id := 0, fc := some .gx, dsts := [.reg f.dst.toNat], ety := f.dt, lbl := lb,
                                        accs := lanes.map (fun l => acc l n off .load 0 0) }) ∧
      (i = .vamo f → ok 4 zero → goes { id := 0, fc := some .gx, dsts := [.reg f.dst.toNat], ety := f.dt, lbl := lc,
                                         accs := lanes.map amo }) ∧
      (i = .vamoDet f → ok 4 zero → goes { id := 0, fc := some .gx, ety := f.dt, lbl := lc, accs := lanes.map (fun l =>
        if (amo l).det then { amo l with kind := .contrib } else amo l) }) ∧
      (i = .vldx f → bad n off) ∧ (i = .vamo f ∨ i = .vamoDet f → bad 4 zero)) ∧
    (issues .st →
      (i = .vstx f → ok n off → goes { id := 0, fc := some .st, lbl := lc, accs := stores }) ∧
      (i = .vstxNotify f → ok n off → goes { id := 0, fc := some .st, lbl := lc ||| d.lbl, accs := stores,
                                              data := .notify (d.at 1 ++ d.at 0) lanes.length (lc ||| d.lbl) false }) ∧
      (i = .vstx f ∨ i = .vstxNotify f → bad n off))

/-- R239 to R244, R247, R192, R442: SPLD, SPST and SPAMO reach the team's scratchpad region at A + B modulo 2^32 (A alone for
SPAMO), in as many issue cycles as the busiest bank has words, those after the first counted as replays (R442); ACLD and ACST
reach the words of the banks the team holds that no handle binds. A bound bank is WINDOW. That FADDR of WINDOW is the lowest
bound lane's address (log 67), and that SPST and SPAMO issue although a lane touches a marked cell, to fail when they act (log
31), are the model's choices. -/
def Obligations.BufferLaneAccesses : Prop :=
  ∀ (s s1 : State) (f : CFields) (r : CRow) (x : CIn) (i : Instr),
    let n := f.dt.width / 8
    let lanes := (List.range 32).filter x.written.getLsbD
    let ab (l : Nat) : Nat := ((x.a.at l).toNat + (x.b.at l).toNat) % 2 ^ 32
    let aa (l : Nat) : Nat := (x.a.at l).toNat
    let inSp (o : Nat → Nat) : Prop := ∀ l ∈ lanes, o l + n ≤ (s1.recOf s1.cur).spsize ∧ o l % n = 0
    let bank (l : Nat) : Nat := ab l / 131072
    let bound (b : Nat) : Prop := ∃ h ∈ s1.tm.whand, h.2.bank ≤ b ∧ b < h.2.bank + h.2.nb
    let inAcc : Prop := ∀ l ∈ lanes, ab l < 8388608 ∧ ab l % 4 = 0 ∧ s1.tm.banks.getLsbD (bank l) = true
    let passes (o : Nat → Nat) : Nat := ((List.range 32).map (fun b =>
      ((lanes.map (fun l => o l / 4)).eraseDups).countP (fun w => w % 32 == b))).foldl max 1
    let sp (kd : AccKind) (o v : Nat → Nat) : List Acc := lanes.map (fun l =>
      { lane := l, space := .scratch, kind := kd, va := o l, pa := o l, size := n, val := v l, cmp := (x.c.at l).toNat })
    let ac (kd : AccKind) (v : Nat → Nat) : List Acc := lanes.map (fun l =>
      { lane := l, space := .acc, kind := kd, va := ab l, pa := ab l, val := v l })
    let d : List Dst := [.reg f.dst.toNat]
    let goes (o : Op) (cycles : Nat) : Prop :=
      Completes (exec i s) (fun t => Passed s ((s1.issueLanes x o).pmGroup s1.cur 0x09 (cycles - 1)) t x cycles)
    let goes1 (o : Op) : Prop := Completes (exec i s) (fun t => Passed s (s1.issueLanes x o) t x 1)
    (Issues i r { imm := some .z32, fc := some .sp } s x s1 →
      (i = .spld f → inSp ab → goes { id := 0, fc := some .sp, dsts := d, ety := f.dt, lbl := x.joined,
                                       accs := sp .load ab (fun _ => 0) } (passes ab)) ∧
      (i = .spst f → inSp ab → goes { id := 0, fc := some .sp, ety := f.dt, lbl := x.joined,
                                       accs := sp .store ab (fun l => (x.c.at l).toNat % 2 ^ f.dt.width) } (passes ab)) ∧
      (inAcc → (∀ l ∈ lanes, ¬ bound (bank l)) →
        (i = .acld f → goes1 { id := 0, fc := some .sp, dsts := d, ety := .z32, lbl := x.joined, accs := ac .load (fun _ => 0) }) ∧
        (i = .acst f → goes1 { id := 0, fc := some .sp, ety := .z32, lbl := x.joined, accs := ac .store (fun l => (x.c.at l).toNat) })) ∧
      (∀ l ∈ lanes, inAcc → bound (bank l) → (∀ m ∈ lanes, m < l → ¬ bound (bank m)) → i = .acld f ∨ i = .acst f →
        exec i s = .next (s.raiseRec s.cur { flt := { code := 0x18, faddr := ab l }, cslice := true, fpos := s.path.pos,
                                             fcycle := s.cycle, fpath := some s.curPath }))) ∧
    (Issues i r { fc := some .sp } s x s1 → i = .spamo f → inSp aa →
      goes { id := 0, fc := some .sp, dsts := d, ety := f.dt, lbl := x.joined,
             accs := sp (.atomic (f.ext.toNat % 16) f.dt) aa (fun l => (x.b.at l).toNat) } (passes aa))

/-- R249, R250, R131, R338: CWAIT without a ticket passes in the phase it names and waits otherwise; with one it issues, and
CWAIT_SATISFIED completes it in that phase; an object with ERR is BARRIER_CLOBBER, one outside CLR LABEL_LOAD, an offset that
names no marked cell ILLEGAL. That the acquire fence which CWAIT leaves is recorded with a scope that holds another agent or
none is the model's choice (log 8). R251, R131, R186: when every quad that has not ended is in the gang and no part of a CARV
stands, CARV makes one arrival at its barrier, with L(B) and K, once the quads' accesses have been performed; an offset that
names no marked cell is ILLEGAL. That CARV waits at issue until they have been performed is the model's choice (log 39). -/
def Obligations.BarrierWaits : Prop :=
  (∀ (s s1 : State) (f : CFields) (r : CRow) (x : CIn) (k n : Nat) (p : Op) (o2 : Nat) (want2 : Bool),
    let w := (x.b.at 0).toNat
    let off := w % 2 ^ 20
    let good := w / 2 ^ 20 % 2 ^ 11 = 0 ∧ off % 16 = 0 ∧ off + 16 ≤ (s.recOf s.cur).spsize ∧ s.tm.marked? off = true
    let b := s.tm.barrier off
    let want : Bool := (f.x.getLsbD 0) != decide (2 ^ 31 ≤ w)
    let g := s1.grp
    let op (d : OpData) : Op :=
      { id := 0, fc := none, cslice := true, quads := x.qmask, pc := s.path.pos, run := g.runOf x.qmask, tk := f.tk.toNat, data := d }
    let bad (e : Flt) : Prop := exec (.cwait f) s = .next (s.raiseRec s.cur
      { flt := e, cslice := true, fpos := s.path.pos, fcycle := s.cycle, fpath := some s.curPath })
    let t := s.team (teamOf k)
    let d := t.barrier o2
    let fail := if d.lbl ||| s.clr k ≠ s.clr k then some (fltLoad 2 d.lbl (s.clr k) o2) else if d.err then some { code := 0x09, faddr := o2 } else none
    (Issues (.cwait f) r { imm := some .z32, qb := 1 } s x s1 →
      (¬ good → bad { code := 0x01, faddr := off }) ∧
      (good → ¬ LabelIn b.lbl (s.clr s.cur) → bad (fltLoad 2 b.lbl (s.clr s.cur) off)) ∧
      (good → LabelIn b.lbl (s.clr s.cur) → f.tk = 0#4 → b.phase ≠ want → exec (.cwait f) s = .next (s.setPath { s.path with waitc := 0x109 })) ∧
      (good → LabelIn b.lbl (s.clr s.cur) → f.tk = 0#4 → b.phase = want → b.err = true → bad { code := 0x09, faddr := off }) ∧
      (good → LabelIn b.lbl (s.clr s.cur) → f.tk = 0#4 → b.phase = want → b.err = false → Completes (exec (.cwait f) s) (fun t =>
        Passed s ((s1.setGrp (g.issueOp (op (.fence .acq false (s1.soleIn .team s.cur))))).settle s.cur) t x 1)) ∧
      (good → LabelIn b.lbl (s.clr s.cur) → f.tk ≠ 0#4 → Completes (exec (.cwait f) s) (fun t =>
        Passed s (s1.setGrp ((g.setTickets x.qmask f.tk.toNat 1).issueOp (op (.cwait off want)))) t x 1))) ∧
    ((s.group k).op n = some p → p.data = .cwait o2 want2 → p.doneq = false → t.state = .resident → d.phase = want2 →
      exec (.cwaitSatisfied k n) s = .next ((s.setGroup k ((((s.group k).doneTickets p.quads p.tk).mapQuads p.quads (fun _ q =>
        { q with acq := p.tk :: q.acq })).setOp { p with doneq := true, fail := fail })).settle k))) ∧
  (∀ (s s1 : State) (f : CFields) (r : CRow) (x : CIn), Issues (.carv f) r { imm := some .z32, qb := 1 } s x s1 →
    let w := (x.b.at 0).toNat
    let off := w % 2 ^ 20
    let good := w / 2 ^ 20 % 2 ^ 12 = 0 ∧ off % 16 = 0 ∧ off + 16 ≤ (s.recOf s.cur).spsize ∧ s.tm.marked? off = true
    let l := x.b.lbl ||| x.k
    let g := s1.grp
    let all : Prop := (∀ q ∈ g.unended, bitOf x.qmask q = true ∧ (g.quad q).carvCnt = g.carvBase) ∧ g.carv = [] ∧
      (∀ q ∈ quadSet x.qmask, q ∈ g.unended)
    (¬ good → exec (.carv f) s = .next (s.raiseRec s.cur { flt := { code := 0x01, faddr := off }, cslice := true, fpos := s.path.pos,
                                                           fcycle := s.cycle, fpath := some s.curPath })) ∧
    (good → g.carv = [] → g.quadsReleased x.qmask = false → exec (.carv f) s = .next (s.setPath { s.path with waitc := 0x109 })) ∧
    (good → all → g.quadsReleased x.qmask = true → quadSet x.qmask ≠ [] → LabelIn l (s1.tm.barrier off).lbl →
      Completes (exec (.carv f) s) (fun t => ∃ s2, Passed s s2 t x 1 ∧ s2.tm.barrier off = (s1.tm.barrier off).arrive 1 false ∧
        (∀ y, y < off ∨ off + 16 ≤ y → s2.tm.sp.get 0#8 y = s1.tm.sp.get 0#8 y) ∧ s2.mem = s1.mem ∧
        s2.grp.carv = [] ∧ s2.grp.carvBase = g.carvBase + 1)))

/-- R28, R252 to R255, R126, R230: XUNPK, XDEC and XLUT issue one command of the transform pipe in a group of role 2 when their
stream or table lies in the team's region; TRANSFORM_REPLY writes what the pipe answers, or reports its fault. R253: XUNPK reads
each element's field from the 64-bit value B : A of its lane, at the position EXT gives, and widens it: sign-extended for a
signed type, zero-extended for an unsigned one, and placed at the top for F16 and BF16. R254, R255, R126: XDEC answers the
elements of its stream, BASE + δ_j or V0 and the running sums of the deltas, all modulo 2^wd, and XLUT the codebook entries that
the indices in A select; the label is that of every granule of the stream or the codebook. A stream with a bad header, or past
the region, is ILLEGAL. -/
def Obligations.TransformCommands : Prop :=
  (∀ (s s1 : State) (f : CFields) (r : CRow) (x : CIn) (i : Instr) (k n : Nat) (o : Op) (j : Instr) (a b : List Word) (d : Nat),
    let off := (x.b.at 0).toNat
    let size : Option Nat := match i with
      | .xdec _ => some 8
      | .xlut _ => some (2 ^ (f.ext.toNat % 8 + 1) * (f.dt.width / 8))
      | _ => none
    let fits := x.written = 0#32 ∨ ∀ m, size = some m → off % 4 = 0 ∧ off + m ≤ (s.recOf s.cur).spsize
    let g := (s.group k).doneTickets o.quads o.tk
    let answer := (s.team (teamOf k)).xform (s.recOf k) j a b
    (Issues i r { role := some 2, imm := some .z32, qb := if size.isSome then 1 else 0, fc := some .xf } s x s1 →
      i = .xunpk f ∨ i = .xdec f ∨ i = .xlut f →
      (fits → Completes (exec i s) (fun t => Passed s (s1.issueLanes x
        { id := 0, fc := some .xf, dsts := [.reg f.dst.toNat], lbl := x.joined, data := .xform i x.a.lanes x.b.lanes }) t x 1)) ∧
      (¬ fits → exec i s = .next (s.raiseRec s.cur { flt := { code := 0x01, faddr := off }, cslice := true, fpos := s.path.pos,
                                                     fcycle := s.cycle, fpath := some s.curPath }))) ∧
    ((s.group k).op n = some o → o.data = .xform j a b → o.doneq = false → (s.team (teamOf k)).state = .resident →
      (s.group k).engineReady o = true → o.dsts = [.reg d] →
      (∀ v l, answer = .ok v l → exec (.transformReply k n) s = .next ((s.setGroup k ((g.writeVreg d o.mask v o.full (o.lbl ||| l)).setOp
        { o with doneq := true })).settle k)) ∧
      (∀ e, answer = .bad e → exec (.transformReply k n) s = .next ((s.setGroup k (g.setOp
        { o with doneq := true, fail := some e })).settle k)))) ∧
  (∀ (t : Ty) (ext : Nat) (a b : Word), t ∈ [Ty.s8, .z8, .s16, .z16, .s32, .z32, .f16, .bf16] →
    let w := ext % 32
    let first := ext / 32 % 32
    let v := b.toNat * 2 ^ 32 + a.toNat
    0 < w → w ≤ t.width → ∀ j, j < 32 / t.width →
      let field := v / 2 ^ (first + w * j) % 2 ^ w
      elemOf t.width (unpackLane t ext a b) j =
        (if t ∈ [Ty.f16, .bf16] then field * 2 ^ (16 - w)
         else if t.isSigned ∧ 2 ^ (w - 1) ≤ field then 2 ^ t.width - 2 ^ w + field else field)) ∧
  (∀ (t : Team) (r : Launch) (f : CFields) (a b : List Word), f.dt.width ∈ [8, 16, 32] →
    let off := (laneAt b 0).toNat
    let w := f.dt.width
    let e := 32 / w
    let byte (i : Nat) : Nat := (t.sp.get 0#8 (off + i)).toNat
    let number (i n : Nat) : Nat := ((List.range n).map (fun j => byte (i + j) * 256 ^ j)).sum
    let may (n : Nat) : Prop := LabelIn (t.rangeLabel off n) r.clr ∧ t.rangeBad off n = false
    let answers (i : Instr) (n : Nat) (value : Nat → Nat → Int) : Prop :=
      ∃ v, t.xform r i a b = .ok v (t.rangeLabel off n) ∧ v.length = 32 ∧
        ∀ q, q < 32 → ∀ j, j < e → (elemOf w (laneAt v q) j : Int) = value q j % 2 ^ w
    (let form := f.ext.toNat % 4
     let d := if byte 4 = 3 then 4 else byte 4
     let size := 8 + (32 * e - form) * d
     let delta (j : Nat) : Int := let z := number (8 + d * j) d; if 0 < d ∧ 2 ^ (8 * d - 1) ≤ z then (z : Int) - 2 ^ (8 * d) else z
     let value (j : Nat) : Int := (number 0 4 : Int) + if form = 0 then delta j else ((List.range j).map delta).sum
     let good : Prop := byte 4 ≤ 3 ∧ number 5 3 = 0 ∧ off + size ≤ r.spsize
     form ≤ 1 → may 8 →
       (good → may size → answers (.xdec f) size (fun q j => value (e * q + j))) ∧
       (good → ¬ LabelIn (t.rangeLabel off size) r.clr →
         t.xform r (.xdec f) a b = .bad (fltLoad 1 (t.rangeLabel off size) r.clr off)) ∧
       (¬ good → ∃ flt, t.xform r (.xdec f) a b = .bad flt ∧ flt.code = 0x01)) ∧
    (let iw := f.ext.toNat % 8 + 1
     let size := 2 ^ iw * (w / 8)
     let index (q j : Nat) : Nat := (laneAt a q).toNat / 2 ^ (iw * j) % 2 ^ iw
     (may size → answers (.xlut f) size (fun q j => number (index q j * (w / 8)) (w / 8))) ∧
     (¬ LabelIn (t.rangeLabel off size) r.clr → t.xform r (.xlut f) a b = .bad (fltLoad 1 (t.rangeLabel off size) r.clr off))))

/-- R28, R269, R298 to R300, R303 to R308: the six window instructions enter the team's window sequence under fc.wa with what they
read at issue; those that act once for the group fault on a group with more than one path. That WQRY holds D+1 as well when the
operator that the handle will have by then is one on pairs, read at issue, is the model's choice (log 56). That an operation
takes its number in the window sequence as it issues is the model's choice too (log 45). -/
def Obligations.WindowInstructions : Prop :=
  ∀ (s s1 : State) (f : CFields) (r : CRow) (x : CIn) (i : Instr),
    let h := f.ext.toNat % 8
    let w := (x.b.at 0).toNat
    let d := f.dst.toNat
    let op := f.ext.toNat / 8 % 16
    let wn := f.ext.toNat / 128 % 1024 + 1
    let banks := (wn * (if 7 ≤ op then 8 else 4) + 2047) / 2048
    let goes (ds : List Dst) (kind : WinKind) : Prop := Completes (exec i s) (fun t => ∃ s2, Passed s s2 t x 1 ∧
      s2.tm = { s1.tm with wq := s1.tm.wq ++ [{ seq := s1.tm.wseq, g := s1.cur, op := s1.grp.nextOp, handle := h, k := x.k, kind := kind }],
                           wseq := s1.tm.wseq + 1 } ∧
      s2.grp.fcv .wa = s1.grp.fcv .wa + 1 ∧ s2.grp.nextOp = s1.grp.nextOp + 1 ∧ s2.grp.vregs = s1.grp.vregs ∧
      s2.mem = s1.mem ∧ ∃ o, s2.grp.ops = s1.grp.ops ++ [o] ∧ o.dsts = (if s1.grp.active s1.path = 0#32 then [] else ds) ∧
        o.data = .window ∧ o.mask = x.written)
    let pair : Bool := match s.tm.operatorOf h with | some q => decide (7 ≤ q) | none => false
    let ds : List Dst := .reg d :: (if pair then [.reg (d + 1)] else [])
    let many : Prop := exec i s = .next (s.raiseC { code := 0x01 })
    (Issues i r { role := some 2, qb := if i = .wpush f ∨ i = .wstat f then 0 else 1, fc := some .wa } s x s1 →
      (i = .winit f → s.grp.paths.length ≤ 1 → w + banks ≤ 64 → w ≤ 63 → goes [] (.init op f.dt f.rm wn w (x.b.lbl ||| x.k))) ∧
      (i = .winit f → s.grp.paths.length ≤ 1 → 64 < w + banks → exec i s = .next (s.raiseC { code := 0x01 })) ∧
      (i = .wpush f → goes [] (.push x.written x.a.lanes x.c.lanes x.a.lbl x.c.lbl)) ∧
      (i = .wsetw f → s.grp.paths.length ≤ 1 → 1 ≤ w → w ≤ 1024 → goes [] (.setw w x.b.lbl)) ∧
      (i = .wsetw f → s.grp.paths.length ≤ 1 → w = 0 ∨ 1024 < w → exec i s = .next (s.raiseC { code := 0x01 })) ∧
      (i = .wfree f → s.grp.paths.length ≤ 1 → goes [] .free) ∧
      (i = .winit f ∨ i = .wsetw f ∨ i = .wfree f → 1 < s.grp.paths.length → many) ∧
      (i = .wstat f → goes [.reg d] (.stat x.written (op % 4) d x.full))) ∧
    (Issues (.wqry f) r { role := some 2, static := fun v => !pair || decide (d + 1 < v),
                          writes := if pair then [.reg (d + 1)] else [], fc := some .wa } s x s1 →
      i = .wqry f → goes ds (.query x.written d x.full))

/-- R294, R296: under every operator, a window whose front holds suffix aggregates over its n oldest elements, folded from the
right, and whose back holds the others with their fold from the left, answers the one combined with the other, an empty part
left out; a push, an expiry and the push onto a full window, which expires the oldest, keep that shape. On AND, OR and XOR, and
on ADD, MAX and MIN of integers, the answer is the fold of all its elements, oldest first. R294, R85, R134: what each operator
of the window unit makes of two elements, the older first, with the labels of both; and what an empty window answers. -/
def Obligations.WindowAnswers : Prop :=
  (∀ (h : WHandle) (l : WLane) (x : WElem) (n : Nat) (es : List WElem), 1 ≤ h.w →
    let nil : WElem := (h.identity.1, h.identity.2, 0#16)
    let suffix (es : List WElem) : Option WElem := es.foldr (fun e a => some (match a with | none => e | some y => h.combine e y)) none
    let earlier (es : List WElem) : Option WElem := es.foldl (fun a e => some (match a with | none => e | some y => h.combine y e)) none
    let shape (n : Nat) (l : WLane) (es : List WElem) : Prop := n ≤ es.length ∧ l.back = (es.drop n).reverse ∧ l.front.length = n ∧
      (∀ k, k < n → l.front[k]? = suffix ((es.take n).drop k)) ∧ l.agg = earlier (es.drop n)
    let m := (if n = 0 then es.length else n) - 1
    shape n l es →
      l.count = es.length ∧
      h.ask l = (match suffix (es.take n), earlier (es.drop n) with
        | some y, some z => h.combine y z
        | some y, none => y
        | none, some z => z
        | none, none => nil) ∧
      (es.length ≠ h.w → shape n (h.push l x) (es ++ [x])) ∧
      (es.length = h.w → shape m (h.push l x) (es.tail ++ [x])) ∧
      (es ≠ [] → shape m (h.expire l) es.tail) ∧
      (h.op ∈ [4, 5, 6] ∨ (h.op ∈ [0, 2, 3] ∧ h.ty = .s32) → (∀ e ∈ es, e.2.1 = 0#32) → h.ask l = es.foldl h.combine nil)) ∧
  (∀ (h : WHandle) (x y : WElem),
    let v := h.combine x y
    let real (a : Word) : FV := decodeTy .f32 a.toNat
    let rnd (z : FV) : Word := BitVec.ofNat 32 (encodeTy .f32 h.rm false z)
    let nan (a : Word) : Bool := a.toNat / 2 ^ 23 % 2 ^ 8 == 255 && a.toNat % 2 ^ 23 != 0
    let neg (a : Word) : Bool := decide (2 ^ 31 ≤ a.toNat)
    let below (a b : Word) : Bool := (real a).lt (real b) || ((real a).eq (real b) && neg a && !neg b)
    let beats (mx : Bool) : Bool := if mx then below x.1 y.1 else below y.1 x.1
    let num (mx : Bool) : Word := if nan x.1 then (if nan y.1 then 0x7FC00000#32 else y.1) else if nan y.1 then x.1
      else if beats mx then y.1 else x.1
    let younger (mx : Bool) : Bool := if nan x.1 then !nan y.1 else !nan y.1 && beats mx
    let f32 := h.ty = .f32
    let s32 := h.ty ≠ .f32
    let gives (a b : Word) : Prop := v.1 = a ∧ v.2.1 = b
    let empty (a b : Word) : Prop := h.identity = (a, b)
    v.2.2 = x.2.2 ||| y.2.2 ∧
    (h.op = 0 → s32 → gives (x.1 + y.1) 0#32 ∧ empty 0#32 0#32) ∧
    (h.op = 0 → f32 → gives (rnd ((real x.1).add h.rm (real y.1))) 0#32 ∧ empty 0x80000000#32 0#32) ∧
    (h.op = 1 → gives (rnd ((real x.1).mul (real y.1))) 0#32 ∧ empty 0x3F800000#32 0#32) ∧
    (h.op = 2 → s32 → v.1.toInt = max x.1.toInt y.1.toInt ∧ v.2.1 = 0#32 ∧ empty 0x80000000#32 0#32) ∧
    (h.op = 2 → f32 → gives (num true) 0#32 ∧ empty 0xFF800000#32 0#32) ∧
    (h.op = 3 → s32 → v.1.toInt = min x.1.toInt y.1.toInt ∧ v.2.1 = 0#32 ∧ empty 0x7FFFFFFF#32 0#32) ∧
    (h.op = 3 → f32 → gives (num false) 0#32 ∧ empty 0x7F800000#32 0#32) ∧
    (h.op = 4 → gives (x.1 &&& y.1) 0#32 ∧ empty 0xFFFFFFFF#32 0#32) ∧
    (h.op = 5 → gives (x.1 ||| y.1) 0#32 ∧ empty 0#32 0#32) ∧
    (h.op = 6 → gives (x.1 ^^^ y.1) 0#32 ∧ empty 0#32 0#32) ∧
    (h.op = 7 → gives (num true) (if younger true then y.2.1 else x.2.1) ∧ empty 0xFF800000#32 0xFFFFFFFF#32) ∧
    (h.op = 8 → gives (num false) (if younger false then y.2.1 else x.2.1) ∧ empty 0x7F800000#32 0xFFFFFFFF#32) ∧
    (h.op = 9 → gives (rnd ((real x.1).mul (real y.1))) (rnd (((real x.2.1).mul (real y.1)).add h.rm (real y.2.1))) ∧
      empty 0x3F800000#32 0#32))

/-- R134, R230, R294 to R308: the window unit performs the operation at the head of its team's sequence: WINIT binds its banks,
WPUSH pushes a lane's word, WQRY answers each lane, WSETW keeps the newest words, WSTAT gives the count, the width, the flips or
the cycles, and WFREE unbinds and clears; an instruction of a path without active lanes writes no register; an operation on a
handle that is not bound, or a WINIT whose banks are not free, is WINDOW. That WPUSH, WQRY and WSETW, and only they, read the
bound banks, any word of which makes them POISON when it is marked, is the model's choice (log 92). -/
def Obligations.WindowUnit : Prop :=
  ∀ (s : State) (tn : Nat) (w : WinOp) (ws : List WinOp) (o : Op) (h : WHandle),
    let t := s.team tn
    let g := s.group w.g
    let done (fl : Option Flt) (g1 : Group) : Group := (g1.doneTickets o.quads o.tk).setOp { o with fail := fl, doneq := true }
    let bad : State := (((s.setTeam tn { t with wq := ws }).setGroup w.g (done (some { code := 0x18 }) g)).settle w.g)
    let banks (b n : Nat) : List Nat := (List.range n).map (b + ·)
    let free (b : Nat) : Prop := t.banks.getLsbD b = true ∧ ∀ y ∈ t.whand, b < y.2.bank ∨ y.2.bank + y.2.nb ≤ b
    t.wq = w :: ws → g.op w.op = some o → t.state = .resident → (∀ p ∈ g.ops, p.fail = none) →
    (∀ op ty rm n b l, w.kind = .init op ty rm n b l →
      let nb := (n * (if 7 ≤ op then 8 else 4) + 2047) / 2048
      (t.whand.find w.handle = none → (∀ x ∈ banks b nb, free x) → Completes (exec (.windowOpPerform tn) s) (fun u =>
        (u.team tn).whand.find w.handle = some { op := op, ty := ty, rm := rm, w := n, bank := b, nb := nb, hc := l } ∧
        (u.team tn).wq = ws ∧ u.mem = s.mem)) ∧
      ((∃ y, t.whand.find w.handle = some y) ∨ (∃ x ∈ banks b nb, ¬ free x) → exec (.windowOpPerform tn) s = .next bad)) ∧
    ((∀ op ty rm n b l, w.kind ≠ .init op ty rm n b l) → t.whand.find w.handle = none → exec (.windowOpPerform tn) s = .next bad) ∧
    (t.whand.find w.handle = some h → w.kind.reads = true → t.windowBad h = true → exec (.windowOpPerform tn) s =
      .next (((s.setTeam tn { t with wq := ws }).setGroup w.g (done (some { code := 0x0E }) g)).settle w.g)) ∧
    (t.whand.find w.handle = some h → w.kind.reads = false ∨ t.windowBad h = false →
      (∀ mask a c la lc, w.kind = .push mask a c la lc → Completes (exec (.windowOpPerform tn) s) (fun u => (u.team tn).wq = ws ∧
        ∃ h1, (u.team tn).whand.find w.handle = some h1 ∧ h1.hc = h.hc ||| w.k ∧ ∀ l, l < 32 → h1.lane l =
          if mask.getLsbD l then h.push (h.lane l) (if 7 ≤ h.op then (laneAt a l, laneAt c l, la ||| lc ||| w.k) else (laneAt a l, 0#32, la ||| w.k))
          else h.lane l)) ∧
      (∀ mask d full, w.kind = .query mask d full → d < 768 → g.fx = [] → Completes (exec (.windowOpPerform tn) s) (fun u =>
        (u.team tn).whand = t.whand ∧ (u.team tn).wq = ws ∧
        (o.dsts = [] → (u.group w.g).vregs = g.vregs) ∧
        (o.dsts ≠ [] → (∀ l, l < 32 → mask.getLsbD l = true →
            laneAt ((u.group w.g).vregs.get {} d).lanes l = (h.ask (h.lane l)).1 ∧
            (7 ≤ h.op → laneAt ((u.group w.g).vregs.get {} (d + 1)).lanes l = (h.ask (h.lane l)).2.1)) ∧
          (full = true → ((u.group w.g).vregs.get {} d).lbl = h.hc ||| w.k ||| Label.joinAll
            (((List.range 32).filter mask.getLsbD).map (fun l => (h.ask (h.lane l)).2.2))) ∧
          ∀ j, j ≠ d → (7 ≤ h.op → j ≠ d + 1) → (u.group w.g).vregs.get {} j = g.vregs.get {} j))) ∧
      (∀ m l, w.kind = .setw m l → m ≤ h.nb * 2048 / (if 7 ≤ h.op then 8 else 4) → Completes (exec (.windowOpPerform tn) s) (fun u =>
        (u.team tn).wq = ws ∧ ∃ h1, (u.team tn).whand.find w.handle = some h1 ∧ h1.w = m ∧ h1.hc = h.hc ||| w.k ||| l ∧
        ∀ j, j < 32 → h1.lane j = h.shrink m ((h.lane j).front.length + (h.lane j).back.length) (h.lane j))) ∧
      (w.kind = .free → Completes (exec (.windowOpPerform tn) s) (fun u => (u.team tn).whand.find w.handle = none ∧
        (∀ x, (u.team tn).acc.get 0#32 x = if h.bank ≤ x / 32768 ∧ x / 32768 < h.bank + h.nb then 0#32 else t.acc.get 0#32 x))) ∧
      (∀ mask sel d full, w.kind = .stat mask sel d full → g.fx = [] → Completes (exec (.windowOpPerform tn) s) (fun u =>
        (u.team tn).whand = t.whand ∧ (u.team tn).wq = ws ∧ (o.dsts = [] → (u.group w.g).vregs = g.vregs) ∧
        (o.dsts ≠ [] → (∀ l, l < 32 → mask.getLsbD l = true → laneAt ((u.group w.g).vregs.get {} d).lanes l = BitVec.ofNat 32
            (match sel with | 0 => (h.lane l).front.length + (h.lane l).back.length | 1 => h.w | 2 => (h.lane l).flips | _ => h.stall)) ∧
          (full = true → ((u.group w.g).vregs.get {} d).lbl = h.hc ||| w.k) ∧
          ∀ j, j ≠ d → (u.group w.g).vregs.get {} j = g.vregs.get {} j))))

/-- R28, R268, R270, R276, R277, R281 to R283, R285 to R291: the four matrix instructions of a group of role 1 enter the queue of
each pitch they name, under fc.mx, once the checks of R283 pass, every queue has a free entry and no register of theirs is held:
MXLOOP with one run of 64 rows, MXGRP with the rows of its table, MXZERO with nothing to read, ACCVT with the registers it will
write held. That MXLOOP, MXGRP and MXZERO act in full on a path without active lanes (log 95), and that the label of the A
registers is taken at issue (log 54), are the model's choices. -/
def Obligations.MatrixInstructions : Prop :=
  ∀ (s s1 : State) (f : CFields) (r : CRow) (x : CIn) (i : Instr) (v : Resv),
    let t := s1.tm
    let g := s1.grp
    let P (n : Nat) : Nat := (x.b.at n).toNat
    let ps := if f.x = 0#2 then [0] else if f.x = 1#2 then [1] else [0, 1]
    let tile (c p : Nat) : Nat := if f.x = 2#2 then c + 65536 * p else c
    let held := ∀ p ∈ ps, p < (s.recOf s.cur).pitches
    let room := ∀ p ∈ ps, (t.pitch p).queue.length < 8 ∧ (t.pitch p).stopped = false
    let goes (e : Nat → MxEntry) : Prop := Completes (exec i s) (fun u => ∃ s2, Passed s s2 u x 1 ∧
      (∀ p, (s2.tm.pitch p).queue = (t.pitch p).queue ++ (if p ∈ ps then [{ e p with op := g.nextOp }] else [])) ∧
      s2.tm.acc = t.acc ∧ s2.mem = s1.mem ∧ s2.grp.fcv .mx = g.fcv .mx + 1 ∧ s2.grp.vregs = g.vregs ∧ s2.grp.nextOp = g.nextOp + 1)
    let both : Bool := decide (f.x = 2#2)
    let loop (ks c : Nat) (rows : Nat → List MxRows) (binc : Int) (flags : Nat) (lbl src : Label) : MxAsk :=
      { ps := ps, x := f.x, t := f.dt, ru := f.ru, abase := f.sa.toNat, inc := f.sc.toNat, n := f.ext.toNat / 256 % 4096 + 1,
        ks := ks, rows := rows, binc := binc, acc := flags == 1, caddr := c, lbl := lbl, src := src }
    let enters (a : MxAsk) : Prop :=
      a.fault t g (s.clr s.cur) = none → a.denied t g = none → room →
      (∀ p ∈ ps, (t.pitch p).latchNext = none → ∀ q ∈ a.aRegs p, g.held 255 [.reg q] = false) →
      goes (fun p => { g := s.cur, op := 0, both := both, caddr := tile a.caddr p, albl := a.aLabel t g p,
                       latched := (t.pitch p).latchNext.isSome,
                       work := .steps a.t a.abase a.inc a.n a.ks a.ra a.ru (a.rows p) a.binc a.acc })
    let es := ((List.range (P 1)).filterMap (fun n => tableRow (t.readSp (P 0 + 16 * n) 16))).filter (fun e => e.1 != 0)
    let tl := t.rangeLabel (P 0) (16 * P 1)
    let c0 := P 0
    let mode := P 3 % 4
    let cover := if mode = 0 then ps.length * P 2 * f.dt.width / 4 else 1
    let cregs : List Dst := (List.range cover).map (fun n => .reg (f.dst.toNat + n))
    Issues i r { role := some 1, imm := if i = .mxzero f then some .z32 else none, qa := if i = .accvt f then 1 else 0,
                 qb := if i = .mxgrp f then 3 else 1, fc := some .mx } s x s1 → held →
    (i = .mxloop f → s.grp.paths.length ≤ 1 → P 3 ≤ 1 → t.resv.find (f.ext.toNat / 16 % 16) = some v → pairOk f.dt v.fmt = true →
      enters (loop (stepLen f.dt v.fmt) (P 2) (fun _ => [{ row0 := 0, nrows := 64, hnd := f.ext.toNat / 16 % 16, boff := P 0 }])
        (x.b.at 1).toInt (P 3) (x.b.lbl ||| x.k) 0#16)) ∧
    (i = .mxgrp f → s.grp.paths.length ≤ 1 → P 3 ≤ 1 → P 0 % 16 = 0 → 1 ≤ P 1 → P 1 ≤ 64 → P 0 + 16 * P 1 ≤ (s.recOf s.cur).spsize →
      t.rangeBad (P 0) (16 * P 1) = false → (∀ n, n < P 1 → (tableRow (t.readSp (P 0 + 16 * n) 16)).isSome) →
      (es.map (·.1)).foldl (· + ·) 0 ≤ 64 * ps.length → pairOk f.dt v.fmt = true → es ≠ [] →
      (∀ e ∈ es, ∃ y, t.resv.find e.2.1 = some y ∧ y.fmt = v.fmt ∧ y.grp = v.grp ∧ y.sfmt = v.sfmt) →
      enters (loop (stepLen f.dt v.fmt) (P 2) (fun p => rowsOn (if f.x = 2#2 then p else 0) 0 es) (x.b.at 4).toInt (P 3)
        ((x.b.lbl ||| x.k) ||| tl) tl)) ∧
    (i = .mxzero f → s.grp.paths.length ≤ 1 → (∀ p ∈ ps, t.tileFault (tile c0 p) = none) →
      (∀ p ∈ ps, LabelIn (x.b.lbl ||| x.k) (t.tileLabel (tile c0 p))) → room →
      goes (fun p => { g := s.cur, op := 0, both := both, caddr := tile c0 p, work := .zero })) ∧
    (i = .accvt f → P 1 ≤ 63 → 1 ≤ P 2 → P 1 + P 2 ≤ 64 → mode ≠ 3 → P 3 / 512 = 0 → P 3 / 4 % 64 = 0 →
      f.dst.toNat + cover ≤ g.nvregs → (mode = 0 → ∀ p ∈ ps, t.tileFault (tile c0 p) = none ∧ LabelIn (t.tileLabel (tile c0 p)) (s.clr s.cur)) →
      room → g.active s.path ≠ 0#32 → g.held x.qmask cregs = false → s1.readHeld s.cur cregs = false →
      goes (fun p => { g := s.cur, op := 0, both := both, caddr := tile c0 p,
                       work := .cvt f.dt f.rm f.sat (P 1) (P 2) mode (decide (P 3 / 256 % 2 = 1))
                         (if f.ext.toNat = 8 then .f32 else if f.ext.toNat = 9 then .f16 else .e8m0) (x.a.at 0) }))

/-- R270, R272, R276, R282, R284, R288: the head entry of a pitch starts once nothing it is fenced after stands, MXZERO writing +0
to its tile; a step adds to every row its step sum, from the identity on a first step without ACC; and an entry whose steps have
all been applied leaves the queue, its operation done. The entry names one pitch. R104 to R107, R274, R275, R278, R282: a step
sum is the exact sum of the Ks products of a row of A and a column of B; it is added to C with one rounding to nearest for
floating formats, and for integers clamped to S32. -/
def Obligations.PitchSteps : Prop :=
  (∀ (s : State) (tn p : Nat) (e : MxEntry) (es : List MxEntry) (o : Op) (v : Resv),
    let t := s.team tn
    let y := t.pitch p
    let c := e.caddr / 4
    y.queue = e :: es → e.both = false → t.state = .resident → y.stopped = false → (s.group e.g).op e.op = some o →
    (e.started = false → (s.group e.g).engineReady o = true → Completes (exec (.pitchEntryStart tn p) s) (fun u =>
      ((u.team tn).pitch p).queue = { e with started := true } :: es ∧ u.groups = s.groups ∧
      ∀ n, (u.team tn).acc.get 0#32 n = if e.work = .zero ∧ c ≤ n ∧ n < c + 16384 then 0#32 else t.acc.get 0#32 n)) ∧
    (∀ ty abase inc n ks ra hnd b binc acc, e.work = .steps ty abase inc n ks ra false [{ row0 := 0, nrows := 64, hnd := hnd, boff := b }] binc acc →
      e.started = true → e.latched = false → e.step < n → (s.group e.g).fx = [] → t.resv.find hnd = some v →
      t.rowsBad ks binc e.caddr e.step (e.step == 0 && !acc) { row0 := 0, nrows := 64, hnd := hnd, boff := b } = false → e.caddr % 4 = 0 →
      let ws := (List.range ra).flatMap (fun q => ((s.group e.g).vregs.get {} (abase + e.step * inc + q)).lanes)
      let int := intStep ty v
      Completes (exec (.matrixStep tn p) s) (fun u => u.groups = s.groups ∧
        ((u.team tn).pitch p).queue = { e with step := e.step + 1 } :: es ∧
        (∀ m k, m < 64 → k < 256 → (u.team tn).acc.get 0#32 (c + 256 * m + k) =
          (accumulate int (if e.step = 0 ∧ acc = false then cIdentity int else t.acc.get 0#32 (c + 256 * m + k))
            (t.stepSum ty v ks (b + e.step * binc).toNat ws m k)).1) ∧
        ∀ n, n < c ∨ c + 16384 ≤ n → (u.team tn).acc.get 0#32 n = t.acc.get 0#32 n)) ∧
    (∀ ty abase inc n ks ra rows binc acc, e.work = .steps ty abase inc n ks ra false rows binc acc → e.started = true → n ≤ e.step →
      exec (.pitchEntryComplete tn p) s = .next (((s.setTeam tn (t.leaveQueue p)).setGroup e.g
        (((s.group e.g).doneTickets o.quads o.tk).setOp { o with doneq := true })).settle e.g)) ∧
    (e.work = .zero → e.started = true → Completes (exec (.pitchEntryComplete tn p) s) (fun u => ((u.team tn).pitch p).queue = es))) ∧
  (∀ (t : Team) (ty : Ty) (v : Resv) (ks o : Nat) (ws : List Word) (m n : Nat) (c : Word) (y : FV),
    t.stepSum ty v ks o ws m n = exactSum ((List.range ks).map (fun k =>
      (decodeTy ty (aElem ty ks ws m k)).mul (t.bElem v ks o k n))) ∧
    (accumulate false c y).1 = BitVec.ofNat 32 (encodeTy .f32 .rne false ((decodeTy .f32 c.toNat).add .rne y)) ∧
    ((accumulate true c y).1).toInt = max (-(2 ^ 31)) (min (2 ^ 31 - 1) (c.toInt + y.int)) ∧
    ((accumulate true c y).2 = true ↔ c.toInt + y.int < -(2 ^ 31) ∨ 2 ^ 31 - 1 < c.toInt + y.int) ∧
    (∀ a b, a.isInt = true → b ∈ [Ty.f32, .f16, .bf16, .e4m3n, .e5m2n, .e2m1n] → pairOk a b = false) ∧
    (∀ a b, stepLen a b = if a = .e2m1n ∧ (b = .e2m1n ∨ b = .q4a) then 64 else 32))

/-- R230, R270, R289 to R291: ACCVT_COMPLETE, once an ACCVT heads every queue it stands in, has started and no PITCH fault has
stopped them: in convert mode its registers take, in the lanes written, the converted rows of its tiles, row after row and tile
after tile, under the label of its operands with those of the banks read; in a status mode D takes the status of its pitches
under their status labels, and mode 2 clears both. The entry leaves its queues, no other register changes, and no accumulator
word. -/
def Obligations.ConversionsOfTheArray : Prop :=
  ∀ (s : State) (tn p : Nat) (ps : List Nat) (e : MxEntry) (o : Op) (d : Nat) (ty st : Ty) (rm : RM) (sat cint : Bool)
    (row0 nrows mode : Nat) (sc : Word) (ds : List Dst),
    let t := s.team tn
    let k := e.g
    let old (n : Nat) : VReg := (s.group k).vregs.get {} n
    let elem (w : Word) : Nat := encodeTy ty rm sat ((decodeTy (if cint then .s32 else .f32) w.toNat).mul (decodeTy st (sc.toNat % 2 ^ st.width)))
    let tiles := ps.map (fun q => ((t.pitch q).queue.map (·.caddr)).headD 0)
    let n := 32 / ty.width
    let per := ty.width / 4
    let regs := tiles.length * nrows * ty.width / 4
    let c (i l j : Nat) : Word :=
      t.acc.get 0#32 (tiles.getD (i / per / nrows) 0 / 4 + 256 * (row0 + i / per % nrows) + i % per * 32 * n + l * n + j)
    let wrote (u : State) (i : Nat) (v : Nat → Word) (lb : Label) : Prop :=
      let r := (u.group k).vregs.get {} i
      (∀ l, l < 32 → laneAt r.lanes l = if o.mask.getLsbD l then v l else laneAt (old i).lanes l) ∧
      r.lbl = if o.full then lb else (old i).lbl ||| lb
    let kept (u : State) (m : Nat) : Prop := (∀ j, j < d ∨ d + m ≤ j → (u.group k).vregs.get {} j = old j) ∧
      (u.team tn).acc = t.acc ∧ u.mem = s.mem ∧ ∀ q ∈ ps, ((u.team tn).pitch q).queue = (t.pitch q).queue.tail
    t.heads p = some (ps, e) → e.started = true → (∀ q ∈ ps, (t.pitch q).stopped = false) → t.state = .resident →
    (s.group k).op e.op = some o → o.dsts = .reg d :: ds → (∀ x ∈ (s.group k).ops, x.fail = none) →
    e.work = .cvt ty rm sat row0 nrows mode cint st sc →
    (mode = 0 → ty ∈ [Ty.s8, .z8, .s16, .z16, .s32, .z32, .f16, .bf16, .f32, .e4m3n, .e5m2n, .e2m1n] → 1 ≤ nrows → d + regs ≤ 768 →
      (∀ a ∈ tiles, sectorsBad t.accBad (a + 1024 * row0) (1024 * nrows) = false) →
      Completes (exec (.accvtComplete tn p) s) (fun u => kept u regs ∧ ∀ i, i < regs → wrote u (d + i)
        (fun l => BitVec.ofNat 32 (((List.range n).map (fun j => elem (c i l j) * 2 ^ (ty.width * j))).sum))
        (o.lbl ||| Label.joinAll (tiles.map t.tileLabel)))) ∧
    (mode = 1 ∨ mode = 2 → d < 768 → Completes (exec (.accvtComplete tn p) s) (fun u => kept u 1 ∧
      wrote u d (fun _ => if ps.any (fun q => (t.pitch q).saturated) then 1#32 else 0#32)
        (o.lbl ||| Label.joinAll (ps.map (fun q => (t.pitch q).slbl))) ∧
      ∀ q ∈ ps, ((u.team tn).pitch q).saturated = (decide (mode = 1) && (t.pitch q).saturated) ∧
        ((u.team tn).pitch q).slbl = if mode = 1 then (t.pitch q).slbl else 0#16))

/-- R77, R119, R261, R266, R264, R265, R314, R315, R320, R250: a trailer waits at issue for the predicate writes of its run; one
with a PENDING ticket issues and its path awaits the tickets; then it frees them, and TAKE, FALL and END say where the path goes
on. One that awaits a ticket which a CWAIT completed leaves an acquire fence behind it. (The group holds no operation that could
have left in issue order.) That the trailer is carried out at one point, once its tickets are DONE (log 44), that its quads have
not passed END before they end (log 66), and that this fence of team scope does not wait on other agents (log 8) are the model's
choices. R121, R122, R262: SKIP pushes P_C ∪ L(pred) ∪ RL and splits the path: the quads with an active lane that the predicate
sets go on with LMASK narrowed, the others with no lane; both wait for the next entry and count N runs. That a SKIP which faults
leaves nothing of its earlier steps is the model's choice (log 98). -/
def Obligations.PlainTrailers : Prop :=
  (∀ (s : State) (aw : BitVec 15) (p : Path), s.grp.paths.find s.curPath = some p → s.settle s.cur = s →
    let ks := ((List.range 15).filter aw.getLsbD).map (· + 1)
    let g := s.grp
    let acq (q : Nat) : Bool := bitOf p.qmask q && (g.quad q).acq.any ks.contains
    let done := ∀ q ∈ quadSet p.qmask, ∀ k ∈ ks, (g.quad q).ticket k ≠ 1
    let ready := (p.phase = .awaiting ∨ g.predPending p.qmask = false) ∧ done
    let after (passed clr : Bool) (x : Path) (t : State) : Prop := OnlyGroup s.cur s t ∧
      t.grp.paths = g.paths.put s.curPath x ∧ t.grp.cret = g.cret + (if p.phase = .awaiting then 0 else 1) ∧ t.grp.rq = g.rq ∧ t.grp.apc = g.apc ∧
      t.grp.sregs = g.sregs ∧
      ((∀ q, q < 8 → acq q = false) ∨ g.ops = [] → t.grp.ops = g.ops) ∧
      ((∃ q, q < 8 ∧ acq q = true) → g.ops ≠ [] → ∃ f, t.grp.ops = g.ops ++ [f] ∧ f.cslice = true ∧
        f.data = .fence .acq false (s.soleIn .team s.cur) ∧ ∀ q, q < 8 → bitOf f.quads q = acq q) ∧
      ∀ q, q < 8 → q < g.quads.length → t.grp.quad q =
        (if bitOf p.qmask q then { ks.foldl (fun y k => y.setTicket k 0) (g.quad q) with
            passed := (g.quad q).passed + (if passed then 1 else 0), acq := (g.quad q).acq.filter (fun k => !ks.contains k),
            rl := if clr then 0#16 else (g.quad q).rl }
         else g.quad q)
    let y : Path := { p with waitc := 0, pass := false, nodrain := decide (g.active p = 0#32), trail := none }
    let run : Path := if p.skipn = 0 then y else if p.skipn = 1 then { y with skipn := 0, lmask := p.skipmask } else { y with skipn := p.skipn - 1 }
    (ready →
      Completes (exec (.trlTake aw) s) (after true true { run with phase := .take }) ∧
      Completes (exec (.trlFall aw) s) (after false false { y with pos := nextPos p.pos 1, phase := .fall }) ∧
      Completes (exec (.trlEnd aw) s) (after false true { y with phase := .ending })) ∧
    (∀ i ∈ [Instr.trlTake aw, .trlFall aw, .trlEnd aw],
      (p.phase ≠ .awaiting → g.predPending p.qmask = true → exec i s = .next (s.setPath { p with waitc := 0x108 })) ∧
      (p.phase = .awaiting → ¬ done → exec i s = .next s) ∧
      (p.phase ≠ .awaiting → g.predPending p.qmask = false → ¬ done → Completes (exec i s) (fun t => OnlyGroup s.cur s t ∧
        t.grp.paths = g.paths.put s.curPath { y with phase := .awaiting, trail := some i } ∧ t.grp.cret = g.cret + 1 ∧ t.grp.rq = g.rq ∧
        t.grp.apc = g.apc ∧ t.grp.sregs = g.sregs ∧ t.grp.ops = g.ops ∧ t.grp.quads = g.quads)))) ∧
  (∀ (s : State) (aw : BitVec 15) (k : BitVec 3) (n : BitVec 7) (p : Path), s.grp.paths = [(s.curPath, p)] → s.curPath < 8 → p.skipn = 0 →
    let g := s.grp
    s.settle s.cur = s → awaited aw = [] → p.qmask < 256 →
    (p.phase = .awaiting ∨ (g.held p.qmask [.pred k.toNat] = false ∧ g.predPending p.qmask = false)) →
    let pk := g.pred k.toNat
    let l := topLabel p.pls ||| (pk.lbl ||| g.runLabel p.qmask)
    let on (q : Nat) : Prop := ∃ i, i / 4 = q ∧ p.lmask.getLsbD i = true ∧ i < g.lanes ∧ i < 32 ∧ pk.mask.getLsbD i = true
    let e : Path := { p with waitc := 0, pass := false, nodrain := decide (g.active p = 0#32), trail := none, phase := .take, skipmask := p.lmask, skipn := n.toNat, pls := pushedStack p.pls l p.pos }
    let room : Prop := p.pls.length < 8 ∨ (p.pls.head?.bind (·.pusher)) = some p.pos
    g.fx = [] → g.lanes ≤ 32 →
    (¬ LabelIn l (s.ceil s.cur) → exec (.trlSkip aw k n) s = .next (s.raiseC { code := 0x07, sub := 0, flbl := l, clbl := s.ceil s.cur })) ∧
    (LabelIn l (s.ceil s.cur) → ¬ room → exec (.trlSkip aw k n) s = .next (s.raiseC { code := 0x07, sub := 1, flbl := l, clbl := s.ceil s.cur })) ∧
    (LabelIn l (s.ceil s.cur) → room →
      Completes (exec (.trlSkip aw k n) s) (fun t => OnlyGroup s.cur s t ∧ t.grp.cret = g.cret + (if p.phase = .awaiting then 0 else 1) ∧
        (∀ q, q < g.quads.length → (t.grp.quad q).passed = (g.quad q).passed + if bitOf p.qmask q then 1 else 0) ∧
        (∀ x ∈ t.grp.paths, ∃ m, x.2 = { e with qmask := m, lmask := p.lmask &&& pk.mask } ∨ x.2 = { e with qmask := m, lmask := 0#32 }) ∧
        (∀ q, bitOf p.qmask q = true →
          (on q → ∃ x ∈ t.grp.paths, bitOf x.2.qmask q = true ∧ x.2.lmask = p.lmask &&& pk.mask) ∧
          (¬ on q → ∃ x ∈ t.grp.paths, bitOf x.2.qmask q = true ∧ x.2.lmask = 0#32)) ∧
        (∀ q, bitOf p.qmask q = false → ∀ x ∈ t.grp.paths, bitOf x.2.qmask q = false))))

/-- R121, R123, R263: a path that REGANG parks beside another that is still LIVE pops a label and waits; when the group has one
path, it goes on at once with every quad of it and every launched lane of them. -/
def Obligations.RegangParksAndMerges : Prop :=
  ∀ (s : State) (aw : BitVec 15) (id : BitVec 10) (p x : Path) (m : Nat), s.settle s.cur = s → awaited aw = [] → p.skipn = 0 → s.grp.fx = [] →
    let g := s.grp
    g.quads.length = 8 → p.phase = .issuing →
    (g.paths = [(s.curPath, p)] → p.pls.length ≤ 8 →
      (∀ q ∈ g.unended, bitOf p.qmask q = true ∧ (g.quad q).rqHead = (g.quad (g.unended.headD 0)).rqHead) → Completes (exec (.trlRegang aw id) s) (fun t => OnlyGroup s.cur s t ∧
      (∀ q ∈ g.unended, (t.grp.quad q).st = .live ∧ (t.grp.quad q).id = id.toNat ∧ (t.grp.quad q).passed = (g.quad q).passed + 1) ∧
      t.grp.paths = [(s.curPath, { pos := p.pos, qmask := p.qmask, lmask := g.launched &&& quadLanes p.qmask, phase := .take,
                                   pls := t.grp.paths.head?.elim [] (fun e => e.2.pls), began := p.began })] ∧
      (t.grp.paths.head?.elim [] (fun e => e.2.pls)).map (·.lbl) = p.pls.tail.map (·.lbl))) ∧
    (g.paths = [(s.curPath, p), (m, x)] → s.curPath < m → x.phase = .issuing →
      Completes (exec (.trlRegang aw id) s) (fun t => OnlyGroup s.cur s t ∧
        t.grp.paths = [(s.curPath, { p with
          waitc := 0, pass := false, nodrain := decide (g.active p = 0#32), trail := none, pls := p.pls.tail, phase := .parked, icount := 0 }),
            (m, x)] ∧
        ∀ q, q < 8 → bitOf p.qmask q = true → (t.grp.quad q).st = .parked ∧ (t.grp.quad q).id = id.toNat))

/-- R78, R267, R324, R265, R119, R190, R14, R76, R309, R317: NOP moves its path on; TAKE_ENTRY gives a path the run, or the yield
marker, at the head of RQ for its quads; RUN_START begins the run, run temporaries zero, once its older writes have landed or a
path without lanes issued its last trailer, and makes the path its scheduler's current one (R315). R25, R120, R203, R311: a
write of fixed latency lands value and label in one step: the lanes of its mask, under its label joined to the old one unless
the write is full; a predicate takes its bits, TILEW its width, and nothing else changes. A cycle in which a path that waits
issues nothing lands what is due. R80, R13, R70, R28, R22, R330: a compute-stream instruction of three or four parcels stops at
issue, in this order: ILLEGAL when a register that it names lies beyond VREGS, the second of a pair, the last of VRAND and VSYS,
and D+1 of a query of pairs included; ROLE when it is an engine command of classes 6 to 8 in a group of another role; TICKET
when its ticket is not FREE in a quad of the gang; and the cause of the entry, with the entry's VLD as APC, when it would pop a
poisoned entry. The fault is all that happens. -/
def Obligations.RunSequence : Prop :=
  (∀ (s : State) (k p : Nat) (x : Path) (pos : Nat) (rl : Label) (h : Hint),
    let g := s.group k
    let moves := s.mayIssue k true = true ∧ g.cstopped = false
    Completes (exec .nop s) (fun t => OnlyGroup s.cur s t ∧ t.grp.cret = s.grp.cret + 1 ∧
      t.grp.paths = s.grp.paths.put s.curPath { s.path with pos := nextPos s.path.pos 1, waitc := 0, pass := false } ∧
      t.grp.sregs = s.grp.sregs ∧ t.grp.ops = s.grp.ops ∧ t.grp.quads = s.grp.quads) ∧
    (g.paths.find p = some x → x.phase = .take → moves → g.rqEntry x.qmask = some (.run pos rl) →
      Completes (exec (.takeEntry k p) s) (fun t => (∀ j, j ≠ k → t.group j = s.group j) ∧ t.mem = s.mem ∧
        (t.group k).paths.find p = some { x with pos := pos, phase := .fall } ∧
        ∀ q, q < g.quads.length → (t.group k).quad q =
          if bitOf x.qmask q then { g.quad q with rl := rl, rqHead := (g.quad q).rqHead + 1 } else g.quad q)) ∧
    (g.paths = [(p, x)] → x.phase = .take → moves → g.rqEntry x.qmask = some (.marker h) → (s.team (teamOf k)).pending = true →
      Completes (exec (.takeEntry k p) s) (fun t => (t.group k).atYield = true ∧ (t.group k).hint = some h ∧
        (t.group k).paths = [(p, { x with phase := .marker })] ∧
        ∀ q, q < g.quads.length → bitOf x.qmask q = true → ((t.group k).quad q).rl = 0#16)) ∧
    (g.paths = [(p, x)] → x.phase = .take → moves → g.rqEntry x.qmask = some (.marker h) → (s.team (teamOf k)).pending = false →
      Completes (exec (.takeEntry k p) s) (fun t => (t.group k).atYield = g.atYield ∧ (t.group k).paths = [(p, x)])) ∧
    (g.paths.find p = some x → x.phase = .fall → s.mayIssue k false = true → g.cstopped = false →
      (x.nodrain = true ∨ ∀ w ∈ g.fx, w.qmask &&& x.qmask = 0) → Completes (exec (.runStart k p) s) (fun t =>
        (∀ j, j ≠ k → t.group j = s.group j) ∧ t.mem = s.mem ∧ t.teams = s.teams ∧ t.current k = some (k, p) ∧
        (t.group k).paths = g.paths.put p { x with phase := .issuing, icount := 0, waitc := 0, began := g.runSeq + 1 } ∧
        (t.group k).runSeq = g.runSeq + 1 ∧ (t.group k).vregs = g.vregs ∧ (t.group k).preds = g.preds ∧
        (∀ n, (t.group k).temps.get {} n = if bitOf x.qmask (n % 8) then {} else g.temps.get {} n) ∧
        ∀ w ∈ (t.group k).fx, ∀ c, w.dst = .reg c → 768 ≤ c → ∀ q, q < 8 → bitOf x.qmask q = true → bitOf w.qmask q = false))) ∧
  (∀ (g : Group) (w : FxWrite) (s : State) (k p : Nat) (x : Path),
    let v (n : Nat) : VReg := g.vregs.get {} n
    let bits := w.vals.getD 0 0#32
    (∀ n, n < 768 → w.dst = .reg n → g.land w = { g with vregs := (g.land w).vregs } ∧
      (∀ j, j ≠ n → (g.land w).vregs.get {} j = v j) ∧ ((g.land w).vregs.get {} n).lbl = (if w.full then w.lbl else (v n).lbl ||| w.lbl) ∧
      ∀ l, l < 32 → laneAt ((g.land w).vregs.get {} n).lanes l = if w.mask.getLsbD l then laneAt w.vals l else laneAt (v n).lanes l) ∧
    (∀ n, w.dst = .pred n → g.land w = { g with preds := (g.land w).preds } ∧ (n = 0 → g.land w = g) ∧
      (∀ j, j ≠ n → (g.land w).pred j = g.pred j) ∧
      (n ≠ 0 → ((g.land w).pred n).lbl = (if w.full then w.lbl else (g.pred n).lbl ||| w.lbl) ∧
        ∀ l, l < 32 → ((g.land w).pred n).mask.getLsbD l = if w.mask.getLsbD l then bits.getLsbD l else (g.pred n).mask.getLsbD l)) ∧
    (w.dst = .tilew → g.land w = { g with tilew := bits.toNat }) ∧
    ((s.group k).paths.find p = some x → (s.group k).fx = [w] → w.qmask &&& x.qmask ≠ 0 → x.waitc ≠ 0 →
      exec (.fixedLatencyWrite k p) s = .next (s.setGroup k
        (if w.left ≤ 1 then ({ s.group k with fx := [] } : Group).land { w with left := 0 }
         else { s.group k with fx := [{ w with left := w.left - 1 }] })))) ∧
  (∀ (s : State) (i : Instr) (cls op : Nat) (f : CFields) (r : CRow), i.cForm = some (cls, op, f) → cRow cls op = some r →
    let g := s.grp
    let n := g.nvregs
    let codes := r.sources f
    let tk := f.tk.toNat
    let pair : Prop := ∃ q, s.tm.operatorOf (f.ext.toNat % 8) = some q ∧ 7 ≤ q
    let more : Prop := match i with
      | .vldx _ | .vstx _ | .vstxNotify _ | .vamo _ | .vamoDet _ => f.sa.toNat + 1 < n
      | .vrand _ => f.dst.toNat + 3 < n
      | .vsys _ => f.sa.toNat + f.x.toNat < n
      | .wqry _ => pair → f.dst.toNat + 1 < n
      | _ => True
    let named : Prop := (∀ c ∈ codes, c < n ∨ 768 ≤ c) ∧
      (r.slotD f ∈ [DSlot.fixedLatency, .vectorOnly, .source] → f.dst.toNat < n ∨ 768 ≤ f.dst.toNat) ∧ more
    let free : Prop := tk = 0 ∨ ∀ q ∈ quadSet s.path.qmask, (g.quad q).ticket tk = 0
    let role : Prop := (cls = 6 → g.role = 1) ∧ (cls = 7 ∨ cls = 8 → g.role = 2)
    let stops (e : Flt) : Prop := exec i s = .next (s.raiseC e)
    (¬ named → stops { code := 0x01 }) ∧
    (named → ¬ role → stops { code := 0x02 }) ∧
    (named → role → ¬ free → stops { code := 0x19, kcode := tk }) ∧
    (named → role → free → g.ops = [] → (∀ e ∈ s.tm.pitches, e.2.queue = []) → (∀ c, s.pathFull s.cur c = false) →
      ∀ q e c, g.popsOf s.path.qmask codes = .poison q e → e.poison = some c →
        exec i s = .next ((s.setGrp { g with ra := some e.vld }).raiseRec s.cur
          { flt := c, cslice := true, fpos := s.path.pos, fcycle := s.cycle, pq := q, fpath := some s.curPath })))

/-- R8, R22, R23, R264, R174, R10, R326, R327, R372, R318, R376: a quad past END ends once no ticket of it is PENDING; a group
finishes when HALT has stopped its address slice and nothing of it is left; the deadlocks that the device can see are its
faults; an age counter stands at 512; and both slices stop within 48 cycles of the bell, at once when they wait. That the record
of a decoupling deadlock holds CSLICE 0 and FPOS 0 (log 96), and the rule for the moment of the stop, which is the last issue
for a slice that waits, with SKID 0 for the group that faults (log 87), are the model's choices. -/
def Obligations.EndsDeadlocksAndStops : Prop :=
  ∀ (s : State) (k p q c n : Nat) (x : Path) (d a : SRegNo),
    let g := s.group k
    let t := s.team (teamOf k)
    let dead (f : Flt) (dlk unp : Bool) : State := s.raiseRec k { flt := f, cslice := false, fpos := 0, fcycle := s.cycle, dlk := dlk, unpaired := unp }
    (g.paths = [(p, x)] → x.phase = .ending → x.qmask = 2 ^ q → q < g.quads.length → (∀ i, i < 16 → (g.quad q).ticket i ≠ 1) → g.carv = [] →
      Completes (exec (.quadEnd k q) s) (fun u => (∀ j, j ≠ k → u.group j = s.group j) ∧ (u.group k).paths = [] ∧
        ((u.group k).quad q).st = .ended ∧ (∀ r, r ≠ q → r < g.quads.length → (u.group k).quad r = g.quad r) ∧ u.mem = s.mem)) ∧
    (g.halted = true → g.unended = [] → g.saq = [] → g.sdq = [] → g.fault = none → g.finished = false → t.state = .resident →
      exec (.groupFinish k) s = .next ((s.setGroup k { g with finished := true }).earlyRelease t.grid)) ∧
    (g.halted = true ∨ (∃ a i, g.await = some (.vsta a i) ∧ g.sHeld a = false ∧ 16 ≤ g.saq.length) → g.unended = [] → s.standsA k = true →
      g.finished = false → g.saq.isEmpty ≠ g.sdq.isEmpty → exec (.unpairedDeadlock k) s = .next (dead { code := 0x0D } false true)) ∧
    (g.await = some (.popca d) → g.ca = [] → g.sHeld d = false → s.standsA k = true → g.atYield = false →
      (∀ e ∈ g.paths, e.2.phase = .parked ∨ e.2.phase = .marker) →
      exec (.popcaDeadlock k) s = .next ((s.on k).raiseA { code := 0x0D })) ∧
    (g.aDeadCode ≠ 0 → s.standsA k = true → g.halted = false → g.cstopped = false →
      (∃ e ∈ g.paths, e.2.phase ≠ .parked ∧ e.2.phase ≠ .marker) →
      (∀ e ∈ g.paths, e.2.phase = .parked ∨ e.2.phase = .marker ∨ g.cDeadCode e.2 ≠ 0) →
      exec (.decoupleDeadlockDetect k) s = .next (dead { code := 0x0D } true false)) ∧
    (s.allocWaiters n = [k] → g.await = some (.alloc d a) → (bankList (~~~ s.banksTaken n)).length < (g.sreg a).val.toNat →
      s.teams.find (teamOf k) = some t → t.state = .resident → t.core = n → t.banks ≠ 0#64 →
      (∀ y ∈ s.groups, y.2.finished = true ∨ (s.standsA y.1 = true ∧ ∃ d a, (s.group y.1).await = some (.alloc d a))) →
      exec (.allocDeadlockDetect n) s = .next ((s.on k).raiseA { code := 0x0A })) ∧
    ((512 ≤ g.ageC → exec (.ageCounterAged k true) s = .next (s.setGroup k { g with ageC := 512 })) ∧
     (512 ≤ g.ageA → exec (.ageCounterAged k false) s = .next (s.setGroup k { g with ageA := 512 }))) ∧
    (t.bell = some c → n ≤ 48 → c + n ≤ s.cycle → g.lastIssue ≤ c + n → (g.waiting = true → n = g.lastIssue - c) →
      g.astopped = false ∨ g.cstopped = false → t.state = .resident → Completes (exec (.sliceStop k n) s) (fun u =>
      u.group k = { g with astopped := true, cstopped := true, skid := if g.fault.isSome then 0 else n } ∧
      (∀ j, j ≠ k → u.group j = s.group j) ∧ u.mem = s.mem ∧ k ∉ (u.core t.core).allocq))

/-- R128, R129, R230, R231, R233, R236, R238, R349, R350, R353: LANE_ACCESS_COMPLETE writes the loaded elements, sign-extended for a
signed type, under the labels of the granules and, for a load, its own, and completes the ticket; a failing check of any lane
writes nothing and is reported. DET_CONTRIBUTION discards every lane's effect when the label of some lane fails; else it adds
one contribution to its set under its key, and the last one applies the set and closes it; it is SECTOR when the set is not open
or the key is there already. R349, R350: applying a set adds the contributions of each word of its sector in key order, starting
from what memory holds, with one rounding to nearest each, so the order in which they came does not matter. -/
def Obligations.LaneCompletion : Prop :=
  (∀ (s s1 : State) (k n i d : Nat) (o : Op) (accs : List Acc) (a : Acc) (e : DetSet) (f : Flt),
    let g := s1.group k
    let lane (l : Nat) : Word := match accs.find? (fun x => x.lane == l) with
      | some x => if o.ety.isSigned then BitVec.ofInt 32 (valueOf o.ety (x.got % 2 ^ o.ety.width)) else BitVec.ofNat 32 (x.got % 2 ^ o.ety.width)
      | none => 0#32
    let lb := Label.joinAll (accs.map (·.glbl)) ||| (if accs.any (·.kind.isStore) then 0#16 else o.lbl)
    let key := (s.team (teamOf k)).teamix
    let rank := (s.group k).gidx * 32 + a.lane
    let la := localOf a.pa
    let new := e.got ++ [(key, rank, la, BitVec.ofNat 32 a.val)]
    let due (x : Acc) : Prop := x.done = false ∧ x.held = false ∧ x.sent = false ∧ x.chk = false ∧ s.isLocal x = true
    let fits (x : Acc) : Prop := let gl := s.labelOf (localOf x.pa) x.size; LabelIn gl (s.clr k) ∧ LabelIn o.lbl gl
    let put (f : Option Flt) (y : State) : State :=
      y.setGroup k ((y.group k).setOp { o with
        fail := o.fail.or f,
        accs := (o.accs.map (fun x => if s.isLocal x then { x with chk := true } else x)).set i { a with chk := true, done := true } })
    (Performs s k n o s1 accs → o.cslice = true → o.data = .mem → o.dsts = [.reg d] → d < 768 → (∀ p ∈ g.ops, p.fail = none) →
      Completes (exec (.laneAccessComplete k n) s) (fun t => t.mem = s1.mem ∧ t.glbl = s1.glbl ∧ t.teams = s1.teams ∧
        (∀ j, j ≠ d → (t.group k).vregs.get {} j = g.vregs.get {} j) ∧ (t.group k).preds = g.preds ∧
        (∀ l, l < 32 → laneAt ((t.group k).vregs.get {} d).lanes l = if o.mask.getLsbD l then lane l else laneAt (g.vregs.get {} d).lanes l) ∧
        ((t.group k).vregs.get {} d).lbl = (if o.full then lb else (g.vregs.get {} d).lbl ||| lb) ∧
        (∀ q, q < 8 → q < g.quads.length → bitOf o.quads q = true → o.tk ≠ 0 → (g.quad q).ticket o.tk = 1 → ((t.group k).quad q).ticket o.tk = 2))) ∧
    (Performs s k n o s1 accs → o.cslice = true → o.data = .mem → o.dsts = [] → (∀ p ∈ g.ops, p.fail = none) →
      Completes (exec (.laneAccessComplete k n) s) (fun t => t.mem = s1.mem ∧ t.glbl = s1.glbl ∧ t.teams = s1.teams ∧
        (t.group k).vregs = g.vregs ∧ (t.group k).preds = g.preds)) ∧
    ((s.group k).op n = some o → o.doneq = false → o.cslice = true → o.data = .mem → o.fail = none → (∀ x ∈ o.accs, x.sent = false) →
      s.perform k o (fun _ => true) = .bad f → exec (.laneAccessComplete k n) s = .next ((s.setGroup k
        (((s.group k).doneTickets o.quads o.tk).setOp { o with fail := some f, accs := o.accs.map (fun x => { x with done := true }), doneq := true })).settle k)) ∧
    ((s.group k).op n = some o → o.accs[i]? = some a → a.kind = .contrib → a.done = false → a.held = false → a.sent = false →
      s.isLocal a = true → (s.group k).mayPerform o a = true → (a.dup = true → s.holders (a.pa / 32 * 32) = []) →
      ((∃ x ∈ o.accs, due x ∧ ¬ fits x) → Completes (exec (.detContribution k n i) s) (fun t => t.detsets = s.detsets ∧ t.mem = s.mem ∧
        t.glbl = s.glbl ∧ ∃ q, (t.group k).op n = some q ∧ q.fail.isSome = true ∧ ∀ y ∈ q.accs, y.sent = true ∨ y.done = true)) ∧
      ((∀ x ∈ o.accs, due x → fits x) →
        (s.detsets.find (la / 32) = none → exec (.detContribution k n i) s = .next (put (some { code := 0x14, faddr := a.va }) s)) ∧
        (s.detsets.find (la / 32) = some e → (∃ c ∈ e.got, c.1 = key ∧ c.2.1 = rank) →
          exec (.detContribution k n i) s = .next (put (some { code := 0x14, faddr := a.va }) s)) ∧
        (s.detsets.find (la / 32) = some e → (∀ c ∈ e.got, c.1 ≠ key ∨ c.2.1 ≠ rank) → s.queued la < 2 ^ 20 →
          (e.got.length + 1 < e.n → exec (.detContribution k n i) s = .next (put none
            { s with detsets := s.detsets.put (la / 32) { e with got := new } })) ∧
          (e.n ≤ e.got.length + 1 → s.poisoned (la / 32 * 32) 32 = false → a.line = false →
            exec (.detContribution k n i) s = .next (put none
              { s.writeMem (la / 32 * 32) (applySet (s.readMem (la / 32 * 32) 32) (la / 32) new) with
                detsets := s.detsets.del (la / 32) })))))) ∧
  (∀ (old : List Byte) (sector : Nat) (got other : List (Nat × Nat × Nat × Word)),
    (∀ (a b : Nat × Nat × Nat × Word), a ∈ got → b ∈ got → a.1 = b.1 → a.2.1 = b.2.1 → a = b) → got.Nodup → List.Perm got other →
    applySet old sector got = applySet old sector other ∧ (applySet old sector got).length = 32 ∧
    (applySet old sector [] = (List.range 8).flatMap (fun w => bytesOf (ofBytes ((old.drop (4 * w)).take 4)) 4)) ∧
    ∀ (x y : Nat × Nat × Nat × Word), x.1 < y.1 ∨ (x.1 = y.1 ∧ x.2.1 < y.2.1) → x.2.2.1 = sector * 32 → y.2.2.1 = sector * 32 →
      ofBytes ((applySet old sector [y, x]).take 4) =
        fAdd .f32 .rne (fAdd .f32 .rne (ofBytes (old.take 4)) x.2.2.2.toNat) y.2.2.2.toNat % 2 ^ 32)

/-- R133, R175, R235: a Porter copy between regions of the team's scratchpad that no marked cell or label stops writes the source
bytes at the destination and completes; one that fails has written of its destination a part at most; a step of a collective
that has contributed and whose chunks' arrivals are all made completes it. -/
def Obligations.EngineCompletion : Prop :=
  ∀ (s : State) (k n : Nat) (o : Op) (c : PortCmd) (e : CollCmd) (es : List ChunkEnd) (f : Flt),
    let t := s.team (teamOf k)
    let ended (s2 : State) (o2 : Op) : State := (s2.setGroup k ((s2.group k).setOp { o2 with doneq := true, accs := [] })).settle k
    let src (i : Nat) : Byte := t.sp.get 0#8 (c.src + i)
    (s.group k).op n = some o → o.doneq = false → o.fc = some .po ∨ o.fc = some .cl → o.cslice = false →
    (s.group k).engineReady o = true → (∀ p ∈ (s.group k).ops, p.id ≠ n → p.fail = none) →
    (o.data = .port c 0 0#16 → o.accs = [] → o.fail = none → c.st = none → c.dt = none → c.opc ≠ 2 → c.sspace = 1 → c.dspace = 1 →
      c.notify = false → (∀ i, i < c.len → t.spBad.get false ((c.src + i) / 4) = false ∧
        LabelIn (t.rangeLabel (c.src + i) 1) (s.clr k) ∧ t.marked? (c.dst + i) = false ∧
        LabelIn (o.lbl ||| t.rangeLabel (c.src + i) 1) (t.spLabel (c.dst + i))) →
      Completes (exec (.porterComplete k n) s) (fun u => u.mem = s.mem ∧
        (∀ i, i < c.len → (u.team (teamOf k)).sp.get 0#8 (c.dst + i) = src i) ∧
        (∀ x, x < c.dst ∨ c.dst + c.len ≤ x → (u.team (teamOf k)).sp.get 0#8 x = t.sp.get 0#8 x) ∧
        (∀ p, (u.group k).op n = some p → p.doneq = true))) ∧
    (o.data = .port c 3 0#16 → s.asked k o.id = false → exec (.porterComplete k n) s = .next (ended s { o with data := .port c 3 0#16 })) ∧
    (o.data = .port c 1 0#16 → o.accs = [] → o.fail = some f → f.code ≠ 0x04 → c.st = none → c.dt = none → c.opc ≠ 2 → c.sspace = 1 →
      c.dspace = 1 → c.notify = false → Completes (exec (.porterComplete k n) s) (fun u => u.mem = s.mem ∧ u.glbl = s.glbl ∧
        (∀ x, x < c.dst ∨ c.dst + c.len ≤ x → (u.team (teamOf k)).sp.get 0#8 x = t.sp.get 0#8 x) ∧
        ∀ i, i < c.len → let b := (u.team (teamOf k)).sp.get 0#8 (c.dst + i); b = src i ∨ b = t.sp.get 0#8 (c.dst + i))) ∧
    (o.data = .coll e 2 [] es → es.length = e.params.chunks → es.all (·.made) = true → s.asked k n = false →
      exec (.collComplete k n) s = .next (ended s o))

/-- R126, R127, R129, R140, R343, R406 to R408, R411: what an accepted request does at its target: a load sends the sector with its
granule's label, a store writes its payload and is acknowledged, an atomic is checked against the sender's CLR, applied and
answered, a notify arrives at the earliest-admitted grid of its context and kernel hash; what the context does not own, and what
a label stops, is rejected. Where CLR, the comparand and the operand stand in an atomic frame (log 20), the granule's label in a
rejection (log 21), and the fields of a notify's payload (log 22) are the model's choices. -/
def Obligations.RequestsAtTheTarget : Prop :=
  ∀ (s : State) (f : Frame) (fn gr : Nat) (x : Grid) (t : Nat),
    let la := f.addr.toNat % 2 ^ 42
    let n := f.aux.toNat % 512
    let bs := f.payload.take n
    let gl := s.labelAt la
    let reply (y : State) (ty : FrameType) (l : Label) (aux : Nat) (pay : List Byte) : State :=
      y.send { s.frame ty 2 f.src f.ctx l f.tag 0 aux with payload := pay }
    let refuse (r : Nat) (l : Label) : State := reply s .rejection l r []
    let one (m : Nat) := la % 2 ^ 16 + m ≤ 2 ^ 16 ∧ la % 256 + m ≤ 256 ∧ la % 128 + m ≤ 128
    f.dst = s.devn → s.accepts f = true →
    (f.typ = .loadRequest →
      (s.owners.find (la / 65536) = some f.ctx → s.poisoned (la / 32 * 32) 32 = false →
        exec (.loadRequest f) s = .next (reply s .loadReply gl 0 (s.readMem (la / 32 * 32) 32))) ∧
      (s.owners.find (la / 65536) ≠ some f.ctx → exec (.loadRequest f) s = .next (refuse 2 0#16))) ∧
    (f.typ = .store → one bs.length → bs ≠ [] →
      (s.owners.find (la / 65536) ≠ some f.ctx → exec (.storeFrame f) s = .next (refuse 2 0#16)) ∧
      (s.owners.find (la / 65536) = some f.ctx → ¬ LabelIn f.lbl gl → exec (.storeFrame f) s = .next (refuse 1 gl)) ∧
      (s.owners.find (la / 65536) = some f.ctx → LabelIn f.lbl gl → f.aux.toNat / 512 % 2 = 0 → s.lines.find (la / 128) = none →
        s.holders (s.devn * 2 ^ 42 + la) = [] →
        exec (.storeFrame f) s = .next (reply (s.writeMem la bs) .ack 0#16 0 []))) ∧
    (f.typ = .atomic → isHost la = false → f.opn = BitVec.ofNat 8 fn → fn ≤ 9 → one 4 → s.owners.find (la / 65536) = some f.ctx →
      let clr : Label := BitVec.ofNat 16 (fieldAt f.payload 0 2)
      let old := s.readNat la 4
      let new := atomicNew fn .s32 old (f.aux.toNat % 2 ^ 32) (fieldAt f.payload 8 8)
      (LabelIn gl clr → LabelIn f.lbl gl → s.lines.find (la / 128) = none → s.poisoned la 4 = false → s.holders (s.devn * 2 ^ 42 + la) = [] →
        exec (.atomicFrame f) s = .next (reply (s.writeMem la (bytesOf new 4)) .atomicReply gl 0 (bytesOf old 8))) ∧
      (¬ (LabelIn gl clr ∧ LabelIn f.lbl gl) → exec (.atomicFrame f) s = .next (refuse 1 gl))) ∧
    (f.typ = .notify →
      let hash : BitVec 512 := BitVec.ofNat 512 (fieldAt f.payload 8 64)
      let off := f.aux.toNat % 2 ^ 20
      let y := s.team t
      let b := y.barrier off
      ((∀ e ∈ s.grids, ¬ (e.2.admitted = true ∧ e.2.retired = false ∧ e.2.ctx = f.ctx ∧ e.2.hash = hash)) →
        exec (.notifyArrival f) s = .next (refuse 3 0#16)) ∧
      (s.grids = [(gr, x)] → x.admitted = true → x.retired = false → x.ctx = f.ctx → x.hash = hash → s.teams = [(t, y)] → y.grid = gr →
        y.teamix = f.aux.toNat / 2 ^ 20 % 2 ^ 32 → y.teamix < x.rec_.n → y.state = .resident → f.aux.toNat / 2 ^ 52 % 4 = 0 →
        off % 16 = 0 → off + 16 ≤ x.rec_.spsize → y.marked? off = true →
        (LabelIn f.lbl b.lbl → exec (.notifyArrival f) s = .next (State.send
          (s.setTeam t (y.setBarrier off (b.arrive (fieldAt f.payload 0 4) (fieldAt f.payload 4 4 != 0))))
          { s.frame .ack 2 f.src f.ctx 0#16 f.tag 0 0 with payload := [] })) ∧
        (¬ LabelIn f.lbl b.lbl → exec (.notifyArrival f) s = .next (refuse 1 b.lbl))))

/-- R126, R129, R140, R145, R157, R407, R408: a reply frees its tag and settles the access it names: a load takes its bytes from the
sector, an atomic the old value, each under the granule's label, a store is done; a rejection is LABEL_MSG, LEASE or ILLEGAL by
its reason; a reply that answers nothing changes nothing; and a sector that answers the device's own read is kept for it (R144,
R147). That an empty load reply stands for POISON, and that AUX of an empty atomic reply holds the cause (log 24), that the LBL
of a rejection is the label checked against (log 21), and what of LABEL_MSG goes into FLBL and CLBL (log 68), are the model's
choices. R409, R429: a frame of an unlisted type, on a lane above 5, with more than 8 payload flits, with a reserved bit set, or
whose tag does not hold under a generation that its context accepts, is discarded and counted, with no other effect. -/
def Obligations.RepliesAtTheSender : Prop :=
  (∀ (s : State) (f : Frame) (r : TagRef) (o : Op) (a : Acc),
    let g := s.group r.g
    let settled (fail : Option Flt) (b : Acc) : State :=
      State.setGroup { s with tags := s.tags.del f.tag } r.g (g.setOp { o with accs := o.accs.set r.k b, fail := o.fail.or fail })
    f.dst = s.devn → s.accepts f = true →
    (s.tags.find f.tag = none → ∀ e ∈ [(Instr.loadReply f, FrameType.loadReply), (.acknowledgement f, .ack), (.atomicReply f, .atomicReply),
      (.rejection f, .rejection)], f.typ = e.2 → exec e.1 s = .next s) ∧
    (s.tags.find f.tag = some r → r.dev = f.src → r.g = noGroup → f.typ = .loadReply → f.payload ≠ [] → exec (.loadReply f) s =
      .next { s with tags := s.tags.del f.tag, ownReads := s.ownReads.put (r.k * 2 ^ 16 + r.ctx) (f.payload, f.lbl) }) ∧
    (s.tags.find f.tag = some r → r.dev = f.src → r.g ≠ noGroup → g.op r.op = some o → o.accs[r.k]? = some a →
      (f.typ = .loadReply → f.payload ≠ [] → exec (.loadReply f) s =
        .next (settled none { a with done := true, glbl := f.lbl, got := fieldAt f.payload (a.pa % 32) a.size })) ∧
      (f.typ = .loadReply → f.payload = [] → exec (.loadReply f) s =
        .next (settled (some { code := 0x0E, faddr := a.va }) { a with done := true, glbl := f.lbl })) ∧
      (f.typ = .ack → exec (.acknowledgement f) s = .next (settled none { a with done := true })) ∧
      (f.typ = .atomicReply → 2 ≤ f.payload.length → exec (.atomicReply f) s =
        .next (settled none { a with done := true, glbl := f.lbl, got := fieldAt f.payload 0 a.size })) ∧
      (f.typ = .atomicReply → f.payload = [] → exec (.atomicReply f) s =
        let cause := f.aux.toNat % 256
        .next (settled (some { code := if cause = 0x01 ∨ cause = 0x14 then cause else 0x0E, faddr := a.va }) { a with done := true, glbl := f.lbl, got := 0 })) ∧
      (f.typ = .rejection →
        let clr := s.clr r.g
        let why := f.aux.toNat % 256
        let flt : Flt :=
          if why = 1 ∧ a.kind.isLoad = true ∧ a.kind.isStore = true ∧ f.lbl ||| clr ≠ clr then { code := 0x08, sub := 1, flbl := f.lbl, clbl := clr, faddr := a.va }
          else if why = 1 then { code := 0x08, sub := 1, flbl := o.lbl ||| a.lbl, clbl := f.lbl, faddr := a.va }
          else { code := if why = 2 then 0x04 else 0x01, faddr := a.va }
        exec (.rejection f) s = .next (settled (some flt) { a with done := true, lease := true })))) ∧
  (∀ (s : State) (f : Frame), f.dst = s.devn →
    let held := match s.ctxs.find f.ctx with
      | some c => f.kgen = BitVec.ofNat 2 c.cur ∨ ∃ p, c.prev = some p ∧ f.kgen = BitVec.ofNat 2 p
      | none => False
    let good := f.typ ≠ .unlisted ∧ f.vl ≤ 5 ∧ f.payload.length ≤ 256 ∧ f.clean = true ∧ f.authentic = true ∧ held
    let events : List (Instr × FrameType) :=
      [(.loadRequest f, .loadRequest), (.loadReply f, .loadReply), (.storeFrame f, .store), (.acknowledgement f, .ack),
       (.atomicFrame f, .atomic), (.atomicReply f, .atomicReply), (.notifyArrival f, .notify), (.rejection f, .rejection),
       (.invalidation f, .invalidation), (.invalidationAcknowledgement f, .invalidationAck), (.fenceNotice f, .fenceNotice),
       (.dupUpdate f, .dupUpdate), (.dupAcknowledgement f, .dupAck), (.resultChunk f, .resultChunk)]
    ∀ e ∈ events, f.typ = e.2 ∨ f.typ = .unlisted → ¬ good → exec e.1 s = .next { s with discards := s.discards + 1 })

/-- R357, R360, R361, R402 to R405, R421: an update writes this device's copy and is acknowledged; a write to a duplicated page
completes when the last holder has answered; an invalidation removes the cached translations of its range once the accesses
under them are performed, and is passed down the tree; a peer that a notice names, or that stays silent for 2 ms or the shoot-
down timeout, is fenced, and what was asked of it fails; a clear ends that; a line of the overflow buffer gets a slot; a write
waits for no holder that is fenced; and an access takes its entries from its own cache alone. The tree that treeAsks walks (log
25), CMP at bit 9 of AUX (log 20), the code 0x403 (log 82), and which kept entry serves an access (log 9) are the model's
choices; so are that an update raises the label of the copy's granule by LBL, that it is acknowledged when no copy is bound, and
where an invalidation frame and its acknowledgement carry the pages, the initiator and the counts (log 100). -/
def Obligations.DuplicatesShootdownsAndFences : Prop :=
  ∀ (s : State) (f : Frame) (w : DupWait) (r : TagRef) (x : Shoot) (ctx base npg tag dev n fr : Nat) (l : Line),
    let la := f.addr.toNat % 2 ^ 42
    let copy := fr * 65536 + la % 65536
    let bs := f.payload.take (f.aux.toNat % 512)
    let ack : Frame := { s.frame .dupAck 2 f.src f.ctx 0#16 f.tag 0 0 with payload := [] }
    let kept (c b m : Nat) (e : Tlb) : Prop :=
      let k := match e.level with | 0 => 2 ^ (e.leaf / 2 ^ 60 % 16) | 1 => 2 ^ 13 | _ => 2 ^ 26
      let first := e.page / k * k
      e.ctx ≠ c ∨ first + k ≤ b ∨ b + m ≤ first
    let fences (d : Nat) (u : State) : Prop := d ∈ u.fenced ∧ (∀ y ∈ s.fenced, y ∈ u.fenced) ∧ (∀ e ∈ u.tags, e.2.dev ≠ d) ∧ u.mem = s.mem
    (f.dst = s.devn → s.accepts f = true →
      (f.typ = .dupUpdate → s.dupMap.find (f.src * 2 ^ 26 + la / 65536) = none → exec (.dupUpdate f) s = .next (s.send ack)) ∧
      (f.typ = .dupUpdate → s.dupMap.find (f.src * 2 ^ 26 + la / 65536) = some fr → bs ≠ [] → copy % 128 + bs.length ≤ 128 →
        f.aux.toNat / 512 % 2 = 0 → s.lines.find (copy / 128) = none →
        exec (.dupUpdate f) s = .next (((s.writeMem copy bs).raiseLabel copy f.lbl).send ack)) ∧
      (f.typ = .dupAck → s.dupWaits = [w] → w.tag = f.tag → f.src ∈ w.waiting → (∃ d ∈ w.waiting, d ≠ f.src) →
        exec (.dupAcknowledgement f) s = .next { s with dupWaits := [{ w with waiting := w.waiting.filter (· != f.src) }] }) ∧
      (∀ y, f.typ = .dupAck → s.dupWaits = [w] → w.tag = f.tag → w.waiting = [f.src] → w.reply = some y → s.dieQ = [] →
        exec (.dupAcknowledgement f) s = .next (State.send { s with dupWaits := [], tags := s.tags.del f.tag } y)) ∧
      (f.typ = .invalidation → s.drained f.ctx f.addr.toNat f.aux.toNat = true → Completes (exec (.invalidation f) s) (fun u =>
        (∀ e, e ∈ u.tlb ↔ e ∈ s.tlb ∧ kept f.ctx f.addr.toNat f.aux.toNat e) ∧ u.mem = s.mem ∧ u.groups = s.groups ∧
        ∀ d ∈ treeAsks (s.ctx f.ctx).devices s.fenced (fieldAt f.payload 0 2) (s.ctx f.ctx).devices.length s.devn,
          ∃ y ∈ u.out ++ u.stalled, y.typ = .invalidation ∧ y.dst = d ∧ y.ctx = f.ctx)) ∧
      (f.typ = .invalidationAck → s.shoots = [x] → x.ctx = f.ctx → x.base = f.addr.toNat → x.npg = fieldAt f.payload 0 8 → x.waiting = [f.src] →
        (x.parent = none → ((s.ctx x.ctx).devices.filter (fun d => !s.fenced.contains d)).length ≤ x.count + f.aux.toNat →
          exec (.invalidationAcknowledgement f) s = .next { s with shoots := [], log := s.log ++ [(0x403, x.ctx)] }) ∧
        (∀ d, x.parent = some d → exec (.invalidationAcknowledgement f) s = .next (State.send { s with shoots := [] }
          { s.frame .invalidationAck 2 d x.ctx 0#16 0 x.base (x.count + f.aux.toNat) with payload := bytesOf x.npg 8 }))) ∧
      (f.typ = .fenceNotice → f.addr.toNat ≠ s.devn → f.addr.toNat ∉ s.fenced → s.dupWaits = [] → s.shoots = [] →
        Completes (exec (.fenceNotice f) s) (fences f.addr.toNat))) ∧
    (s.drained ctx base npg = true → (s.ctx ctx).devices = [] ∨ (s.ctx ctx).devices = [s.devn] → Completes (exec (.shootdownRequest ctx base npg) s) (fun u =>
      u = { s with tlb := u.tlb, log := s.log ++ [(0x403, ctx)] } ∧ ∀ e, e ∈ u.tlb ↔ e ∈ s.tlb ∧ kept ctx base npg e)) ∧
    (s.shoots = [x] → x.waiting = [dev] → x.sentAt + s.shootTimeout ≤ s.cycle → dev ≠ s.devn → dev ∉ s.fenced → s.dupWaits = [] →
      Completes (exec .shootdownTimeout s) (fun u => fences dev u ∧ ∀ y ∈ u.shoots, dev ∉ y.waiting)) ∧
    (s.tags.find tag = some r → r.dev ≠ s.devn → r.sentAt + 5400000 ≤ s.cycle → r.dev ∉ s.fenced → s.dupWaits = [] → s.shoots = [] →
      Completes (exec (.replyTimeout tag) s) (fences r.dev)) ∧
    (s.dupWaits = [w] → w.tag = tag → w.waiting = [dev] → s.tags.find tag = some r → r.sentAt + 5400000 ≤ s.cycle → dev ≠ s.devn → dev ∉ s.fenced →
      w.reply.isSome → s.shoots = [] → s.dieQ = [] → Completes (exec (.dupAckTimeout tag) s) (fun u => dev ∈ u.fenced ∧ u.dupWaits = [])) ∧
    (∀ d pa, d ∈ s.holders pa ↔ d ∈ s.dupHolders.get [] (pa / 65536) ∧ d ∉ s.fenced) ∧
    (∀ m cx va st, (∀ e ∈ s.tlb, e.cache ≠ m) → s.translateBy (some m) cx va st = { s with tlb := [] }.translateBy (some m) cx va st) ∧
    (exec (.fenceClear dev) s = .next { s with fenced := s.fenced.filter (· != dev) }) ∧
    (s.lines.find n = some l → l.overflow = true → s.dieQ = [] →
      let l2 : Line := { l with slot := ((lineForm (s.readMem (n * 128) 128)).2 + 31) / 32 * 32, overflow := false }
      exec (.lineRelocation n) s = .next { s with lines := s.lines.put n l2 })

/-- R415 to R420, R430: a peer's first frame, and what a switch has folded, enter the state of their collective at the reducer; a
contribution under a generation the device does not accept has its chunk sent back with the mark of SEAL; a piece of a result
chunk is kept until the chunk is whole, and one that no collective awaits is dropped; and the sum of one contribution of each
peer does not depend on the order, in FAST and DET mode alike. The bytes of a first frame, the head of a part with its mark at
byte 8, and the parameters that a part carries, from which those of a device whose first frame was refused are known, are the
model's choices (log 23). -/
def Obligations.CollectiveFrames : Prop :=
  ∀ (s : State) (f : Frame) (c : Ctx) (k : Nat) (o : Op) (e : CollCmd) (ps : List Piece) (r : Reducer) (p : CollParams) (i j : Nat),
    let cid := f.addr.toNat % 2 ^ 32
    let chunk := f.addr.toNat / 2 ^ 32
    let n := f.aux.toNat % 65536
    let ok := f.dst = s.devn ∧ f.vl ≤ 5 ∧ f.payload.length ≤ 256 ∧ f.clean = true ∧ s.ctxs.find f.ctx = some c
    let piece : Piece := { chunk := chunk, start := fieldAt f.payload 0 4, words := partWords f.payload, lbl := f.lbl }
    let got := r.at_ i j
    (ok → f.authentic = true → c.accepts f.kgen = true → s.reducers = [] →
      let part (folded : Bool) : Contrib :=
        { src := f.src, chunk := chunk, start := fieldAt f.payload 0 4, count := n, words := partWords f.payload, lbl := f.lbl, folded := folded }
      (f.typ = .contribution → n = 0 → 2 ≤ (readParams f.payload).npeer → exec (.contribution f) s =
        .next { s with reducers := [{ ctx := f.ctx, cid := cid, firsts := [(f.src, readParams f.payload)] }] }) ∧
      (f.typ = .contribution → n ≠ 0 → exec (.contribution f) s =
        .next { s with reducers := [{ ctx := f.ctx, cid := cid, got := [part false], briefs := [(f.src, readBrief f)] }] }) ∧
      (f.typ = .combined → exec (.combinedContribution f) s =
        .next { s with reducers := [{ ctx := f.ctx, cid := cid, got := [part true] }] })) ∧
    (ok → c.accepts f.kgen = false → f.typ = .contribution → s.reducers = [] → f.src ≠ s.devn →
      let ch := if n = 0 then 0 else chunk
      let lost : Contrib := { src := f.src, chunk := chunk, start := fieldAt f.payload 0 4, count := n, words := [], lbl := f.lbl, folded := false }
      let bad : Reducer := { ctx := f.ctx, cid := cid, sent := [(ch, f.src)], bad := if n = 0 then [] else [lost], late := if n = 0 then [f.src] else [] }
      ∃ y : Frame, y.typ = .resultChunk ∧ y.dst = f.src ∧ y.ctx = f.ctx ∧ y.addr.toNat = cid + 2 ^ 32 * ch ∧ fieldAt y.payload 8 4 = 2 ∧
        exec (.contribution f) s = .next (State.send { s with reducers := [bad] } y)) ∧
    (let new : Contrib := { src := f.src, chunk := chunk, start := fieldAt f.payload 0 4, count := 1, words := partWords f.payload, lbl := f.lbl, folded := false }
     ok → f.authentic = true → c.accepts f.kgen = true → f.typ = .contribution → n = 1 → chunk ≠ 0 → 2 ≤ (readBrief f).npeer →
      s.reducers = [{ ctx := f.ctx, cid := cid, late := [f.src], sent := [(0, f.src)] }] → exec (.contribution f) s =
        .next { s with reducers := [{ ctx := f.ctx, cid := cid, late := [f.src], sent := [(0, f.src)], briefs := [(f.src, readBrief f)], got := [new] }] }) ∧
    (ok → f.authentic = false → c.accepts f.kgen = true → f.typ = .contribution → exec (.contribution f) s =
      .next { s with discards := s.discards + 1 }) ∧
    (f.dst = s.devn → s.accepts f = true → f.typ = .resultChunk →
      (s.collOp f.ctx cid = none → exec (.resultChunk f) s = .next s) ∧
      (s.collOp f.ctx cid = some (k, o) → (s.group k).op o.id = some o → o.data = .coll e 2 ps [] → chunk < e.params.chunks →
        fieldAt f.payload 8 4 = 0 → chunkWhole (ps ++ [piece]) chunk (e.params.range chunk).2 = false →
        Completes (exec (.resultChunk f) s) (fun t => t = { s with groups := t.groups } ∧
          (t.group k).op o.id = some { o with data := .coll e 2 (ps ++ [piece]) [] }))) ∧
    (p.op = 0 → p.rop = 0 → p.ety ∈ [Ty.s32.code, Ty.z32.code] → List.Perm (got.map (fun x => r.rankOf x.src)) (List.range p.npeer) →
      r.result p i j = ((got.map (fun x => x.word j)).foldl (· + ·) 0#32))

/-- R144, R147, R365, R367 to R371, R6, R8, R11: admission, once every leased page is in and what other devices hold of the sections
has been read, computes the kernel hash and ends a grid whose constant bank is labelled; placing gives the next team its room,
its groups as launched and its scratchpad zero; marking takes the cheapest candidate; ages of 100 ms and 10 ms change the class
and the protection of a team. The load requests of the device's own for sectors of other devices (log 17, log 18) and the
numbers of teams and groups (log 83) are the model's choices. -/
def Obligations.AdmissionAndPlacement : Prop :=
  ∀ (s : State) (gr t c g : Nat) (vs : List Nat) (u : Waiting),
    let y := s.grid gr
    let tm := s.team t
    let code := s.deviceRead y.ctx y.rec_.acode y.rec_.asize ++ s.deviceRead y.ctx y.rec_.ccode y.rec_.csize
    let r := y.rec_
    let lanes := if g + 1 = r.gcount then r.lanes else 32
    let away := r.admitSpans.flatMap (fun p => s.sectorsAway y.ctx p.1 p.2)
    (y.admitted = false → y.retired = false → y.gend = false → s.leasesIn y = true → (∃ e ∈ away, s.ownReads.find (e.1 * 2 ^ 16 + y.ctx) = none) →
      (∀ e ∈ s.tags, e.2.g ≠ noGroup ∨ e.2.op ≠ 0) →
      Completes (exec (.gridAdmit gr) s) (fun v => v.grids = s.grids ∧ v.teams = s.teams ∧ v.mem = s.mem ∧
        ∃ e ∈ v.tags, e.2.g = noGroup ∧ e.2.op = 1)) ∧
    (y.admitted = false → y.retired = false → y.gend = false → s.leasesIn y = true → (∀ e ∈ away, s.ownReads.find (e.1 * 2 ^ 16 + y.ctx) ≠ none) →
      Completes (exec (.gridAdmit gr) s) (fun v =>
      (v.grid gr).admitted = true ∧ (v.grid gr).hash = Config.sha512 code ∧ v.admissions = s.admissions + 1 ∧
      (s.kbankLabel y = 0#16 → (v.grid gr).gend = false ∧ v.mem = s.mem) ∧
      (s.kbankLabel y ≠ 0#16 → (v.grid gr).gend = true ∧ (v.grid gr).code = 5 ∧ (s.groups = [] → (v.grid gr).earlyDone = true)))) ∧
    (s.isWaiting (.next gr) = true → s.isNext (.next gr) = true → s.placeFor (.next gr) = some [c] → s.teams.find s.teams.length = none →
      Completes (exec (.teamPlace gr) s) (fun v =>
        let k := s.teams.length
        (v.grid gr).nextTeam = y.nextTeam + 1 ∧ (v.team k).state = .resident ∧ (v.team k).core = c ∧ (v.team k).teamix = y.nextTeam ∧
        (v.team k).sp = [] ∧ (v.team k).banks = 0#64 ∧ (v.team k).grid = gr ∧
        (g < r.gcount → g < 32 → (v.group (32 * k + g)).apc = BitVec.ofNat 64 r.acode ∧ (v.group (32 * k + g)).sregs = [] ∧
          (v.group (32 * k + g)).vregs = [] ∧ (v.group (32 * k + g)).lanes = lanes ∧ (v.group (32 * k + g)).role = r.role g ∧
          (v.group (32 * k + g)).slip = 32 ∧ (v.group (32 * k + g)).sched = g % 4))) ∧
    (s.needsRoom gr = some u → s.cheapest u = some vs → Completes (exec (.preemptMark gr) s) (fun v => v = { s with teams := v.teams } ∧
      ∀ i, (s.teams.find i).isSome → v.team i =
        if i ∈ vs then { s.team i with pending := true, marked := s.cycle, holdFor := some u.code } else s.team i)) ∧
    (tm.state = .saved → tm.savedAt + 270000000 ≤ s.cycle → exec (.savedTeamAged t) s = .next (s.setTeam t { tm with aged := true })) ∧
    (tm.state = .resident → tm.resumed = true → tm.resumedAt + 27000000 ≤ s.cycle →
      exec (.resumedResidency10ms t) s = .next (s.setTeam t { tm with resumed := false }))

/-- R354, R373, R374, R376, R378 to R382, R391, R393: a stopped faulting team is saved, its records and header written and FLTSIG
decremented, or it is ended when there is no FLTSIG or its grid has ended; DISP 1 ends the team, 2 lets it resume, 3 ends its
grid; a team whose groups have finished and whose work is done retires, with nothing bound or held; a grid whose teams are all
out writes STATUS, decrements DONESIG and discards its deterministic sets. No other group changes, and of other teams only whom
room is held for. That NFAIL counts a faulted team whose grid has ended (log 62), that the header is written as the state
changes, on DISP 2 too (log 61), and that the device's own accesses use the grid's context and no lease, what other devices hold
of the image and DISP being asked for first (log 17), are the model's choices. R367, R384, R386 to R390, R411: a pending team
all of whose groups are at a yield point is saved with its hints, one whose deadline has passed whole, or stopped first; a save
leaves STATE 2, what the hints name, and an image; resuming a team whose image is unchanged puts its groups on a core with their
registers and buffers as they were saved, and one whose image has changed ends it with SEAL. That what another device holds of
the image is read first is the model's choice (log 17). R379, R380: the header of a team and the fault record of a group hold
their fields where the manual places them. -/
def Obligations.FaultedAndFinishedTeams : Prop :=
  (∀ (s : State) (t gr : Nat),
    let x := s.team t
    let y := s.grid x.grid
    let z := s.grid gr
    let disp := ofBytes (s.deviceRead y.ctx (s.blockAddr t + 1) 1)
    let img := [(s.blockAddr t + 0x10000, y.rec_.savesz)]
    let dsp := [(s.blockAddr t + 1, 1)]
    let saved := ((s.writeRecords t).saveTeam t false .faulted).writeHeader t
    let others (u : State) : Prop := (∀ j, j ≠ t → u.team j = { s.team j with holdFor := (u.team j).holdFor }) ∧
      (∀ k, teamOf k ≠ t → u.group k = s.group k) ∧ ∀ j, j ≠ x.grid → u.grid j = s.grid j
    let over_ (u : State) (st : TState) : Prop := let v := u.team t
      v.state = st ∧ v.banks = 0#64 ∧ v.block = none ∧ v.resv = [] ∧ v.whand = [] ∧ v.pitches = [] ∧ v.bell = none ∧ others u ∧
        (∀ b, x.block = some b → b ∉ (u.grid x.grid).blocks) ∧ ∀ h ∈ u.held, h.grid ≠ x.grid ∨ h.teamix ≠ x.teamix
    let failed (u : State) : Prop := over_ u .ended ∧ (u.grid x.grid).nfail = y.nfail + 1 ∧
      (u.grid x.grid).code = if y.code = 0 then x.faultCode else y.code
    (x.state = .resident → x.bell.isSome → s.stopped t = true → s.rests t = true →
      (y.gend = false → s.missing y.ctx img ≠ [] → exec (.teamFaultSave t) s = .next (s.askSpans y.ctx img)) ∧
      (y.gend = false → s.missing y.ctx img = [] → y.rec_.fltsig ≠ 0 → Completes (exec (.teamFaultSave t) s) (fun u =>
        u = (State.inOrder y.ctx [.signal y.rec_.fltsig] s saved).forget y.ctx (s.spansAway y.ctx img) ∧ others u ∧ (u.team t).state = .faulted ∧ (u.team t).nsave = x.nsave + 1 ∧
        (u.team t).savedAt = s.cycle ∧ (u.team t).bell = none ∧ (u.team t).sp = x.sp ∧ (u.team t).acc = x.acc ∧ (u.team t).banks = x.banks ∧
        (u.team t).resv = x.resv ∧ (u.team t).first = x.first ∧
        ∀ k, teamOf k = t → (s.groups.find k).isSome → (u.group k).fault = (s.group k).fault ∧ (u.group k).apc = (s.group k).apc ∧
          (u.group k).sregs = (s.group k).sregs)) ∧
      (y.gend = false → s.missing y.ctx img = [] → y.rec_.fltsig = 0 → Completes (exec (.teamFaultSave t) s) (fun u =>
        u = (saved.failTeam t x.faultCode).forget y.ctx (s.spansAway y.ctx img) ∧ failed u)) ∧
      (y.gend = true → Completes (exec (.teamFaultSave t) s) (fun u => over_ u .ended ∧
        (u.grid x.grid).nfail = y.nfail + (if x.first.isSome then 1 else 0) ∧ (u.grid x.grid).code = y.code))) ∧
    (x.state = .faulted → s.missing y.ctx dsp ≠ [] → exec (.dispPoll t) s = .next (s.askSpans y.ctx dsp)) ∧
    (x.state = .faulted → s.missing y.ctx dsp = [] →
      (disp = 1 → Completes (exec (.dispPoll t) s) failed) ∧
      (disp = 2 → Completes (exec (.dispPoll t) s) (fun u =>
        u = ((s.setTeam t { x with state := .saved, restart := true }).writeHeader t).forget y.ctx (s.spansAway y.ctx dsp) ∧
        others u ∧ u.team t = { x with state := .saved, restart := true })) ∧
      (disp = 3 → (s.teams.map (·.1)).Nodup → Completes (exec (.dispPoll t) s) (fun u => (u.grid x.grid).gend = true ∧ (u.team t).state = .ended ∧
        (u.grid x.grid).code = (if y.code = 0 then x.faultCode else y.code) ∧
        ∀ j, (s.team j).grid = x.grid → (s.teams.find j).isSome → (s.team j).state = .resident → (u.team j).bell.isSome)) ∧
      (disp = 0 ∨ 3 < disp → exec (.dispPoll t) s = .next (s.forget y.ctx (s.spansAway y.ctx dsp)))) ∧
    (x.state = .resident → x.bell = none → x.drained = true → (∀ p ∈ x.pitches, p.2.queue = []) →
      (∀ e ∈ s.groups, teamOf e.1 = t → e.2.finished = true ∧ ∀ o ∈ e.2.ops, o.doneq = true ∨ ∃ a b c, o.data = .fence a b c) →
      Completes (exec (.teamRetire t) s) (fun u => u = s.endTeam t .retired ∧ over_ u .retired ∧
        (u.grid x.grid).nfail = y.nfail ∧ (u.grid x.grid).code = y.code)) ∧
    ((s.grids.find gr).isSome → z.retired = false → (∀ e ∈ s.teams, e.2.grid = gr → e.2.state = .retired ∨ e.2.state = .ended) →
      z.gend = true ∨ (z.admitted = true ∧ z.nextTeam = z.rec_.n) →
      let w := z.code + (if z.gend then 256 else 0) + 2 ^ 32 * z.nfail
      Completes (exec (.gridRetire gr) s) (fun u => u.grid gr = { z with retired := true, earlyDone := (u.grid gr).earlyDone } ∧
        (∀ e, e ∈ u.detsets ↔ e ∈ s.detsets ∧ ¬ (e.2.dev = s.devn ∧ e.2.grid = gr)) ∧ u.groups = s.groups ∧
        (let s1 := s.earlyRelease gr
         u.mem = (State.inOrder z.ctx [.write z.rec_.status (bytesOf w 8), .signal z.rec_.donesig] s1 s1).mem) ∧
        ∀ a, s.translate z.ctx z.rec_.status true = some a → devOf a.pa = s.devn → a.line = false → a.dup = false → s.dieQ = [] → z.earlyDone = true →
          z.rec_.status % 65536 + 8 ≤ 65536 → z.rec_.donesig = 0 →
          ∀ i, u.byteAt i = if localOf a.pa ≤ i ∧ i < localOf a.pa + 8 then BitVec.ofNat 8 (w / 2 ^ (8 * (i - localOf a.pa))) else s.byteAt i)) ∧
    (∀ ctx va a, va ≠ 0 → s.translate ctx va true = some a → devOf a.pa = s.devn → a.line = false → a.dup = false → s.dieQ = [] →
      (s.deviceSignal ctx va).readNat (localOf a.pa) 8 = (s.readNat (localOf a.pa) 8 + 2 ^ 64 - 1) % 2 ^ 64)) ∧
  (∀ (s : State) (t c k : Nat) (cs : List Nat),
    let x := s.team t
    let y := s.grid x.grid
    let g := s.group k
    let yields := ∀ e ∈ s.groups, teamOf e.1 = t → e.2.finished = true ∨ e.2.atYield = true
    let img := [(s.blockAddr t + 0x10000, y.rec_.savesz)]
    let there := s.missing y.ctx img = []
    let after (u : State) : State := u.forget y.ctx (s.spansAway y.ctx img)
    let limit := x.marked + (if y.rec_.deadline = 0 then 2000 else y.rec_.deadline) * 2700
    let others (u : State) : Prop := (∀ j, j ≠ t → u.team j = { s.team j with holdFor := (u.team j).holdFor }) ∧
      ∀ j, teamOf j ≠ t → u.group j = s.group j
    let mine := teamOf k = t ∧ (s.groups.find k).isSome
    let same (h : Group) : Prop := h.sregs = g.sregs ∧ h.preds = g.preds ∧ h.apc = g.apc ∧ h.apath = g.apath ∧ h.rq = g.rq ∧
      h.ca = g.ca ∧ h.fcs = g.fcs ∧ h.tilew = g.tilew ∧ h.slip = g.slip ∧ h.quads = g.quads ∧ h.fault = g.fault
    let shared (v : Team) : Prop := v.banks = x.banks ∧ v.bankLbl = x.bankLbl ∧ v.resv = x.resv ∧ v.whand = x.whand ∧ v.spLbl = x.spLbl ∧
      v.spMark = x.spMark ∧ v.grid = x.grid ∧ v.teamix = x.teamix
    let whole (v : Team) : Prop := shared v ∧ v.sp = x.sp ∧ v.acc = x.acc ∧ v.wmem = x.wmem
    let named (v : Nat) : Prop := match g.hint with
      | some (.inline bits) => v < 64 ∧ bits.getLsbD v = true
      | some (.record vmask _ _ _) => vmask / 2 ^ v % 2 = 1
      | _ => True
    let left (u : State) : Prop := (u.team t).state = .saved ∧ (u.team t).nsave = x.nsave + 1 ∧ (u.team t).pending = false ∧
      (u.team t).savedAt = s.cycle ∧ shared (u.team t) ∧ others u ∧ (mine → g.fx = [] → g.finished = false → same (u.group k) ∧ (u.group k).await = none)
    let forced (u : State) : Prop := left u ∧ whole (u.team t) ∧ (mine → g.fx = [] → g.finished = false → (u.group k).vregs = g.vregs)
    (x.state = .resident → x.pending = true → x.bell = none → yields → s.rests t = true → there → Completes (exec (.teamSaveYield t) s) (fun u =>
      u = after ((s.saveTeam t true .saved).writeHeader t) ∧ left u ∧ (mine → g.fx = [] → g.finished = false → ∀ v,
        ((u.group k).vregs.get {} v).lbl = (g.vregs.get {} v).lbl ∧
        (named v → (u.group k).vregs.get {} v = g.vregs.get {} v) ∧
        (¬ named v → ∀ l, l < 32 → laneAt ((u.group k).vregs.get {} v).lanes l = 0#32)))) ∧
    (x.state = .resident → x.pending = true → x.bell = none → limit ≤ s.cycle →
      (s.rests t = true → there → Completes (exec (.preemptDeadline t) s) (fun u => u = after ((s.saveTeam t false .saved).writeHeader t) ∧ forced u)) ∧
      (s.rests t = false → Completes (exec (.preemptDeadline t) s) (fun u => u = { s with groups := u.groups } ∧
        ∀ j, (s.groups.find j).isSome → u.group j = if teamOf j = t then { s.group j with astopped := true, cstopped := true } else s.group j))) ∧
    (s.isWaiting (.saved t) = true → s.isNext (.saved t) = true → s.placeFor (.saved t) = some (c :: cs) →
      (¬ there → exec (.teamResume t) s = .next (s.askSpans y.ctx img)) ∧
      (there → s.readImage t = x.image → Completes (exec (.teamResume t) s) (fun u => u = after (s.resumeOn t c) ∧
        ((∀ h ∈ s.held, h.isFor x = false) → x.restart = false → y.rec_.gcount ≤ 32 → others u ∧ whole (u.team t) ∧ (u.team t).state = .resident ∧
          (u.team t).core = c ∧ (u.team t).resumed = true ∧ (u.team t).resumedAt = s.cycle ∧
          (mine → k % 32 < y.rec_.gcount → same (u.group k) ∧ (u.group k).vregs = g.vregs ∧ (u.group k).ops = g.ops ∧
            (u.group k).astopped = false ∧ (u.group k).cstopped = false ∧ (u.group k).atYield = false)))) ∧
      (there → s.readImage t ≠ x.image → Completes (exec (.teamResume t) s) (fun u => u = after (s.failTeam t 0x17) ∧ (u.team t).state = .ended ∧
        (u.grid x.grid).nfail = y.nfail + 1)))) ∧
  (∀ (x : Team) (g : Group) (r : FaultRec) (m n : Nat),
    let h := x.header m
    let b := g.record n
    let f := x.first.getD (0, 0, 0)
    h.length = 1024 ∧ fieldAt h 0 1 = (match x.state with
      | .unstarted => 0 | .resident => 1 | .saved => 2 | .faulted => 3 | .retired => 4 | .ended => 5) ∧
    fieldAt h 2 1 = f.2.2 % 256 ∧ fieldAt h 3 1 = f.2.1 % 256 ∧ fieldAt h 4 4 = x.teamix % 2 ^ 32 ∧ fieldAt h 8 4 = m % 2 ^ 32 ∧
    fieldAt h 12 2 = x.core % 65536 ∧ fieldAt h 14 2 = min x.nsave 0xFFFF ∧ fieldAt h 16 8 = x.savedAt % 2 ^ 64 ∧
    (g.fault = some r → b.length = 512 ∧ fieldAt b 0 1 = r.flt.code % 256 ∧ fieldAt b 1 1 = r.flt.sub % 256 ∧
      fieldAt b 2 1 = 3 + (if g.lostFault then 4 else 0) + (if r.cslice then 8 else 0) ∧ fieldAt b 3 1 = g.gidx % 256 ∧
      fieldAt b 4 4 = n % 2 ^ 32 ∧ fieldAt b 8 8 = g.aret % 2 ^ 64 ∧ fieldAt b 16 8 = g.cret % 2 ^ 64 ∧ fieldAt b 24 2 = g.skid % 65536 ∧
      fieldAt b 26 2 = r.flt.flbl.toNat ∧ fieldAt b 28 2 = r.flt.clbl.toNat ∧ fieldAt b 30 2 = r.flt.kcode % 65536 ∧
      fieldAt b 32 8 = r.flt.faddr % 2 ^ 64 ∧ fieldAt b 40 8 = r.fpos % 2 ^ 64 ∧ fieldAt b 48 8 = r.flt.pinfo % 2 ^ 64 ∧
      fieldAt b 56 8 = r.fcycle % 2 ^ 64 ∧ fieldAt b 72 8 = (g.ra.getD g.apc).toNat ∧ fieldAt b 80 8 = g.apc.toNat ∧
      fieldAt b 0xE0 8 = r.flt.stpc % 2 ^ 64))

/-- R113, R151 to R153, R366, R427, R429, R433 to R438, R448: what the firmware's acts write: reset leaves the stated device number,
routes and extents; an owner takes an empty slot; a record that fails a check is reported and installs nothing; an unlock bars
new protected contexts; a rotation has three parts; allocated frames read zero with the empty label and are owned. The model's
choices: what a reset keeps (log 3), a full table as a check of its own (log 70), the parts of KEY_ROTATE (log 71), the grants
as one list (log 76), the codes of the log (log 82), that the steward's code is read first where another device holds it (log
17), and that a record with BUDGET 0 needs an entry once installed (log 69). R422, R423, R437, R439 to R446: the debug block: EN
starts the trace unit over a leased ring only; a broken lease stops it; the record of a sample and its stall reasons; counter
rotation; a breakpoint stops or holds a slice before it issues, and a release lets it pass; a step stops its group; a read gives
a register and whether a write is under way; plain registers take their writable bits; the host's aperture reads bytes of
labelled granules as ones, logged, and writes with the empty label. The model's choices: reserved bits written zero (log 72), EN
set while the unit runs or anew (log 73), a write beyond a bound (log 88), when a debug read is answered (log 90), the masking
of a sample (log 37), and which reason a ready path has (log 12). R136, R157, R343, R396, R403, R405, R406, R421 to R423, R439,
R448: what the acts beside the opcode table change: the driver writes the root and the devices of a context, the firmware one of
the 32 entries of its endpoint table; the duplicate map and the holders of a frame; the aperture; HWBASE, after which every byte
of the host keeps its bus address; the shoot-down timeout from 10 µs to 10 ms and the ports toward a device; a read of the MMIO
window gives a register of a core or an extent; the host writes its memory by bus address; and an upset marks a sector or a
word. The model's choices: what an upset marks (log 28) and the host's write in one step (log 85). -/
def Obligations.FirmwareActs : Prop :=
  (∀ (s : State) (r : ResetInfo) (ctx slot root base n : Nat) (key : BitVec 4096) (nonce : BitVec 512) (e : EndorseRec) (c : Ctx) (img : List Byte) (gs : List Nat),
    let cap (v : Nat) : Nat := min v 512000000000 * 127 / 128 / 65536 * 65536
    (1024 ≤ r.devn → exec (.deviceReset r) s = .next s) ∧
    (r.devn < 1024 → Completes (exec (.deviceReset r) s) (fun u => u.devn = r.devn ∧ u.routes = r.routes ∧ u.dbgu = false ∧ u.groups = [] ∧ u.teams = [] ∧
      u.cycle = 0 ∧ u.out = s.out ∧ ∀ i v, i < 6 → r.caps[i]? = some v → u.extents.get 0 i = cap v)) ∧
    (s.ctxs.find ctx = some c → slot < 16 → c.owners.find slot = none → exec (.ownerRegister ctx slot key) s =
      let w : Owner := { key := key, exponent := 65537, okh := Config.sha512 (Config.keyBytes key 65537) }
      .next { s with ctxs := s.ctxs.put ctx { c with owners := c.owners.put slot w } }) ∧
    (s.ctxs.find ctx = some c → c.owners.find slot ≠ none → exec (.ownerRegister ctx slot key) s = .next s) ∧
    (∀ i, s.recordFails e = some i → exec (.endorsementInstall e) s = .next { s with log := s.log ++ [(0x500 + i, e.serial)] }) ∧
    (∀ w, e.form = true → s.ctxs.find e.ctx = some c → c.owners.find e.owner = some w → w.okh = e.okh →
      (∀ n, c.serials.find e.owner = some n → n < e.serial) → (e.budget = 0 → (e.owner, e.codeh) ∈ c.endorsed) →
      (e.budget ≠ 0 → ∀ y ∈ s.cores, (s.endorseLeft y.1 e).length < 64) →
      if Config.verify w.key w.exponent (e.bytes.take 0x100) ((e.bytes.drop 0x100).take 512) = true then
        Completes (exec (.endorsementInstall e) s) (fun u =>
          (u.ctx e.ctx).serials.find e.owner = some e.serial ∧ u.log = s.log ++ [(0x500, e.serial)] ∧ u.mem = s.mem ∧
          (e.budget = 2 ^ 32 - 1 → ∀ k, k < 144 →
            { owner := e.owner, codeh := e.codeh, rlbl := e.rlbl, budget := 2 ^ 32 - 1, serial := e.serial } ∈ (u.core k).endorse.get [] e.ctx))
      else exec (.endorsementInstall e) s = .next { s with log := s.log ++ [(0x504, e.serial)] }) ∧
    (∀ w, e.form = true → s.ctxs.find e.ctx = some c → c.owners.find e.owner = some w → w.okh = e.okh →
      (s.recordFails e = some 4 ↔ Config.verify w.key w.exponent (e.bytes.take 0x100) ((e.bytes.drop 0x100).take 512) = false)) ∧
    (e.form = true ↔ e.bytes.length = 768 ∧ fieldAt e.bytes 0 4 = 0x52444E45 ∧ fieldAt e.bytes 4 2 = 1 ∧ fieldAt e.bytes 6 2 = 0 ∧
      fieldAt e.bytes 0x11 1 = 0 ∧ fieldAt e.bytes 0xA0 96 = 0) ∧ (e.form = false → s.recordFails e = some 1) ∧
    (s.missing s.stewardSpans.1 s.stewardSpans.2 = [] → Completes (exec (.evidenceRequest nonce ctx) s) (fun u =>
      u = { s with reports := u.reports, ownReads := u.ownReads } ∧ ∃ b, u.reports = s.reports ++ [b] ∧ b.length = 1024 ∧ fieldAt b 0 4 = 0x44564E45 ∧ fieldAt b 0x20 64 = nonce.toNat)) ∧
    exec (.firmwareUpdate .trusted img) s = .next { s with tfw := img } ∧ exec (.firmwareUpdate .untrusted img) s = .next { s with ufw := img } ∧
    exec (.debugUnlock true) s = .next { s with dbgu := true } ∧ exec (.debugUnlock false) s = .next s ∧
    (s.dbgu = true → exec (.protectedContextCreate ctx root) s = .next s) ∧
    (s.dbgu = false → s.ctxs.find ctx = none → exec (.protectedContextCreate ctx root) s =
      .next { s with ctxs := s.ctxs.put ctx { root := root, prot := true } }) ∧
    (s.ctxs.find ctx = some c →
      (c.prev = none → exec (.keyRotate ctx) s = .next { s with ctxs := s.ctxs.put ctx { c with cur := c.cur + 1, prev := some c.cur } }) ∧
      (c.prev ≠ none → c.sendGen ≠ c.cur → s.stalled = [] → exec (.keyRotate ctx) s =
        .next { s with ctxs := s.ctxs.put ctx { c with sendGen := c.cur, nonces := [] } }) ∧
      (c.prev ≠ none → c.sendGen = c.cur → exec (.keyRotate ctx) s = .next { s with ctxs := s.ctxs.put ctx { c with prev := none } })) ∧
    (n ≠ 0 → (∀ i, i < n → s.frameExists (base + i) = true) → Completes (exec (.frameAllocate ctx base n) s) (fun u =>
      (∀ i, i < n → u.owners.find (base + i) = some ctx) ∧
      (∀ i, i < n → s.owners.find (base + i) ≠ some ctx → ∀ a, a / 65536 = base + i → u.byteAt a = 0#8 ∧ u.glbl.get 0#16 (a / 256) = 0#16) ∧
      (∀ a, a / 65536 < base ∨ base + n ≤ a / 65536 → u.byteAt a = s.byteAt a))) ∧
    (gs.sum ≤ 3400000 → exec (.powerRedivide gs) s = .next { s with grants := gs }) ∧
    (3400000 < gs.sum → exec (.powerRedivide gs) s = .next s)) ∧
  (∀ (s : State) (core k p n a off : Nat) (v w : DWord) (x : Path) (act : Nat) (bs : List Byte)
    (r1 r2 r3 : SRegNo) (lq : BitVec 2) (i1 : BitVec 14) (i2 : BitVec 20) (i3 : BitVec 12) (fc : FC),
    let c := s.core core
    let g := s.group k
    let t := s.team (teamOf k)
    let m := (v &&& 0xFFFF00000000F807#64).toNat
    let put (u : DWord) : State := s.setCore core { c with regs := c.regs.set 0#64 off u }
    let la := s.bar2 + a
    (m % 2 = 0 → exec (.trcctlWrite core v) s = .next (s.setCore core ((c.setReg 0 m).setReg 8 (c.reg 8 / 2 * 2)))) ∧
    (m % 2 = 1 → c.reg 0 % 2 = 0 → s.ringLeased (m / 2 ^ 48) (c.reg 0x10) (c.reg 0x18) = true →
      exec (.trcctlWrite core v) s = .next (s.setCore core ((c.setReg 0 m).setReg 8 1))) ∧
    (c.reg 8 % 2 = 1 → exec (.traceLeaseBroken core) s = .next (s.setCore core (c.setReg 8 (c.reg 8 - 1 ||| 2)))) ∧
    (s.groups = [(k, g)] → g.paths = [(p, x)] → t.core = core → t.state = .resident → g.sched = n → n < 4 → s.ctxOf k = c.reg 0 / 2 ^ 48 →
      c.reg 0 % 2 = 1 → 8 ≤ c.reg 0 / 2 ^ 11 % 32 → c.reg 0 / 2 ^ 11 % 32 ≤ 20 → c.sampleAt.get 0 (40 + n) + 2 ^ (c.reg 0 / 2 ^ 11 % 32) ≤ s.cycle →
      let masked := x.pls ≠ [] ∨ g.apath ≠ [] ∨ (s.ctx (s.ctxOf k)).prot = true
      let z (i : Nat) : Nat := if masked then 0 else i
      let told : Core := { c with sampleAt := ((c.sampleAt.put n (g.slot + 1)).put (40 + n) s.cycle).put (4 + 8 * n + g.slot) (p + 1) }
      exec (.traceSample core n) s = .next ((s.setCore core told).traceWrite core (traceBytes 1 core (n + 4 * g.gidx) p
        (s.pathReason k x + (if masked then 64 else 0)) t.teamix (z (g.active x).toNat) (z x.pos) (z g.apc.toNat) s.cycle 0))) ∧
    (x.held.isSome → s.pathReason k x = 0x1A) ∧
    (x.held = none → (g.cstopped = true ∨ t.bell.isSome) → s.pathReason k x = 0x1C) ∧
    (x.held = none → g.cstopped = false → t.bell = none →
      let code := s.pathReason k x
      let waits : List (Option Instr × Nat) := [(none, 0x01), (some (.popca r1), 0x12), (some (.vld lq r1 i1), 0x13), (some (.vsta r1 i1), 0x14),
        (some (.run r1 i2), 0x15), (some (.yield r1), 0x15), (some (.lds r1 r2 i1), 0x16), (some (.barwait r1 r2), 0x17), (some (.sigwait r1 r2), 0x17),
        (some (.waitfc fc i3), 0x17), (some (.alloc r1 r2), 0x18), (some (.resv r1 r2 r3), 0x18), (some (.unresv r1), 0x18), (some (.trap r1 r2 r3), 0x19)]
      (∀ e ∈ [(Phase.parked, 0x0A), (.marker, 0x0B), (.awaiting, 0x07), (.fall, if g.drained x then 0x11 else 0x08)], x.phase = e.1 → code = e.2) ∧
      (x.phase = .take → g.starved x = false → g.drained x = false → code = 0x08) ∧ (x.phase = .ending → code = 0x07 ∨ code = 0x08) ∧
      (x.phase = .issuing → (∀ e ∈ [(1, 0x01), (2, 0x03), (3, 0x04), (4, 0x05)], x.waitc = e.1 → code = e.2) ∧ (5 ≤ x.waitc → code = x.waitc % 256)) ∧
      (g.starved x = false → x.phase = .take ∧ g.drained x = true ∨ x.phase = .issuing ∧ x.waitc = 0 →
        code ∈ [0x20, 0x11, 0x0E, 0x0F, 0x10] ∧ ((g.stepStopped = true ∨ g.stepDrain = true) → code ≠ 0x20)) ∧
      (x.phase = .take → g.starved x = true →
        (g.aheld.isSome ∨ g.astopped = true ∨ g.halted = true → code = if g.aheld.isSome then 0x1A else if g.astopped then 0x1C else 0x1B) ∧
        (g.aheld = none → g.astopped = false → g.halted = false → g.await.any (fun i => (waitNames i).any g.sHeld) = false →
          ∀ e ∈ waits, g.await = e.1 → code = e.2))) ∧
    (c.reg 0 % 2 = 0 → exec (.traceSample core n) s = .next s) ∧
    (c.reg 0x100 % 2 = 1 → c.sampleAt.get 0 44 + 2 ^ (c.reg 0x100 / 2 ^ 8 % 32) * 2700 ≤ s.cycle → exec (.pmuRotate core) s =
      .next (s.setCore core { c with pmset := (c.pmset + 1) % (c.reg 0x100 / 2 % 4 + 1), sampleAt := c.sampleAt.put 44 s.cycle })) ∧
    (g.paths.find p = some x → x.phase = .issuing → x.pass = false → x.held = none → g.cstopped = false → s.mayIssue k (x.waitc != 0) = true →
      s.breakAt k (4 * x.pos) true x.qmask = some (n, act) →
      (act = 2 → exec (.breakpointMatch k p true) s = .next (s.setGroup k { g with paths := g.paths.put p { x with held := some n, waitc := 0x11A } })) ∧
      (act ≠ 2 → exec (.breakpointMatch k p true) s = .next (s.raiseRec k { flt := { code := 0x11, kcode := 0x100 + n }, cslice := true, fpos := x.pos,
                                                                            fcycle := s.cycle, fpath := some p }))) ∧
    (s.dbgu = true → Completes (exec (.bkctlHrel core n) s) (fun u => u = { s with groups := u.groups } ∧
      (t.core = core → (s.groups.find k).isSome → g.aheld = some n → (u.group k).aheld = none ∧ (u.group k).apass = true) ∧
      (t.core ≠ core → u.group k = g))) ∧
    (s.dbgu = true → t.core = core → t.state = .resident → t.teamix = w.toNat / 2 ^ 32 → g.gidx = w.toNat / 2 ^ 27 % 32 → s.debugOn k = true →
      (s.groups.find k).isSome → Completes (exec (.dbgstepWrite core w) s) (fun u => (u.group k).stepArmed = some w ∧ (u.group k).stepStopped = false)) ∧
    (g.stepArmed = some v → g.stepDrain = true → v.getLsbD 0 = false → v.getLsbD 1 = false → Completes (exec (.stepStop k) s) (fun u =>
      (u.group k).stepStopped = true ∧ (u.group k).stepArmed = none ∧ (u.core t.core).reg 0x308 = 1 ∧ u.mem = s.mem)) ∧
    (s.debugOn k = true → t.state = .resident → n < g.nvregs → exec (.debugRead k (.vreg n)) s =
      .next { s with debugReply := some ((g.vregs.get {} n).lanes, g.regInFlight n) }) ∧
    (off ∈ [0x10, 0x18, 0x28, 0x108, 0x110, 0x118, 0x120] → exec (.registerWrite core off v) s = .next (put v)) ∧
    (s.dbgu = false → off ∈ [0x200, 0x208, 0x210, 0x218, 0x220, 0x228, 0x230, 0x238, 0x280, 0x288, 0x290, 0x298] →
      exec (.registerWrite core off v) s = .next s) ∧
    (s.bar2Ok a n = true → Completes (exec (.hostBar2Read a n) s) (fun u => u = { s with hostData := u.hostData, log := u.log } ∧
      u.hostData.length = n ∧ ∀ i, i < n → u.hostData[i]? = some (if s.labelAt (la + i) = 0#16 then s.byteAt (la + i) else 0xFF#8))) ∧
    (s.bar2Ok a bs.length = true → la % 128 + bs.length ≤ 128 → s.lines.find (la / 128) = none →
      exec (.hostBar2Write a bs) s = .next (s.writeMem la bs))) ∧
  (∀ (s : State) (ctx root slot home fr a n m dev bus t : Nat) (devs ports : List Nat) (c : Ctx) (e : Endpoint × Label) (w : DWord) (bs : List Byte),
    let ctxIs (d : Ctx) : State := { s with ctxs := s.ctxs.put ctx d }
    let host (u : State) (b : Nat) : Byte :=
      if u.hostOff b < 2 ^ 37 then Tab.get Memory.blank u.mem (hostWindow + u.hostOff b) else Tab.get Memory.blank u.hostMem b
    let device (u : State) : Prop := ∀ x, x < hostWindow ∨ hostWindow + 2 ^ 37 ≤ x → u.byteAt x = s.byteAt x
    let x := s.team t
    (s.ctxs.find ctx = some c → s.act (.contextRoot ctx root) = ctxIs { c with root := root } ∧
      s.act (.contextDevices ctx devs) = ctxIs { c with devices := devs } ∧
      (slot < 32 → s.act (.endpoint ctx slot (some e)) = ctxIs { c with epl := c.epl.put slot e } ∧
        s.act (.endpoint ctx slot none) = ctxIs { c with epl := c.epl.del slot })) ∧
    (s.ctxs.find ctx = none → s.act (.contextRoot ctx root) = ctxIs { root := root } ∧ s.act (.contextDevices ctx devs) = s ∧
      ∀ y, s.act (.endpoint ctx slot y) = s) ∧
    (s.act (.dupEntry home none) = { s with dupMap := s.dupMap.del home }) ∧
    ((s.dupMap.find home).isSome ∨ s.dupMap.length < 65536 → s.act (.dupEntry home (some fr)) = { s with dupMap := s.dupMap.put home fr }) ∧
    (s.dupMap.find home = none → 65536 ≤ s.dupMap.length → s.act (.dupEntry home (some fr)) = s) ∧
    (∀ pa, (s.act (.dupHolders home devs)).holders pa =
      if pa / 65536 = home then devs.filter (fun d => !s.fenced.contains d) else s.holders pa) ∧
    s.act (.aperture a) = { s with bar2 := a } ∧
    s.act (.shootTimeout n) = (if 27000 ≤ n ∧ n ≤ 27000000 then { s with shootTimeout := n } else s) ∧
    s.act (.route dev ports) = (if dev ≤ 1023 then { s with routes := s.routes.put dev ports } else s) ∧
    (∀ off, s.act (.mmioRead off) = { s with hostData := (s.act (.mmioRead off)).hostData } ∧ (s.act (.mmioRead off)).hostData.length = 8) ∧
    (n < Config.cores → m < 0x1000 → fieldAt (s.act (.mmioRead (0x1000000 + 0x1000 * n + m))).hostData 0 8 = (s.core n).reg m) ∧
    (n < 6 → fieldAt (s.act (.mmioRead (0x2000000 + 8 * n))).hostData 0 8 = s.extents.get 0 n % 2 ^ 64) ∧
    (s.memOk → Memory.wf s.hostMem = true → (∀ y ∈ s.hostMem, y.1 < 2 ^ 64 ∧ 2 ^ 37 ≤ s.hostOff y.1) →
      (let u := s.act (.hostBase w)
       u.hwbase = w ∧ device u ∧ ∀ b, b < 2 ^ 64 → host u b = host s b) ∧
      (bus + bs.length ≤ 2 ^ 64 → let u := s.act (.hostWrite bus bs)
       u.hwbase = s.hwbase ∧ device u ∧ ∀ b, b < 2 ^ 64 → host u b = if bus ≤ b ∧ b < bus + bs.length then bs.getD (b - bus) 0#8 else host s b)) ∧
    (s.act (.upset (.memory n)) = { s with bad := s.bad.set false n true } ∧ (s.act (.upset (.memory n))).poisoned (32 * n) 32 = true ∧
      s.act (.upset (.scratch t n)) = s.setTeam t { x with spBad := x.spBad.set false n true } ∧
      s.act (.upset (.acc t n)) = s.setTeam t { x with accBad := x.accBad.set false n true } ∧
      s.act (.upset (.weight t n)) = s.setTeam t { x with wBad := x.wBad.set false n true }))

/-- R60 to R81: words that the manual's own listings give, and words written out field by field, decode to the instructions they
stand for; a reserved opcode, function or class is refused. -/
def Obligations.DecodeSpecWords : Prop :=
  let f : CFields := { dt := .s8, pr := 0#3, pn := false, tk := 0#4, rm := .rne, sat := false, ru := false, imm := .none, x := 0#2,
                       dst := 0#10, sa := 0#10, sb := 0#10, sc := 0#10, ext := 0#20 }
  (∀ e ∈ [(0xF8100010#32, Instr.getsr 1#6 0x010#14), (0x80204000#32, .lds 2#6 1#6 0#14), (0x80304008#32, .lds 3#6 1#6 8#14),
          (0x0C400004#32, .addi 4#6 0#6 4#14), (0xA0008000#32, .vld 0#2 2#6 0#14), (0xA4008000#32, .vsta 2#6 0#14),
          (0xAC000001#32, .run 0#6 1#20), (0x484FFFFC#32, .loop 4#6 0xFFFFC#20), (0x6C000006#32, .markJoin),
          (0xDC800000#32, .waitfc .st 0#12), (0xE400C500#32, .sigdec 3#6 5#6), (0x04408300#32, .add 4#6 2#6 3#6),
          (0x4C417FFD#32, .beq 4#6 5#6 0x3FFD#14), (0xC001C000#32, .port 7#6), (0xC401C000#32, .coll 7#6), (0x6C01C008#32, .yieldRec 7#6),
          (0b000001_000011_000001_000010_00000001#32, .sub 3#6 1#6 2#6)],
      decodeWords true [e.1] = .ok e.2) ∧
  (∀ e ∈ [([0x10280004#32, 0x02708000#32, 0x0003FC00#32], Instr.vfmul { f with dt := .f32, imm := .i20 0x3FC00#20, dst := 9#10, sa := 776#10 }),
          ([0x10380008#32, 0x01001000#32, 0x00C00000#32, 0x3DCCCCCD#32],
            .vfma { f with dt := .f32, imm := .lit 0x3DCCCCCD#32, dst := 4#10, sa := 1#10, sc := 3#10 }),
          ([0x1008000D#32, 0x01402450#32, 0#32], .vfadd { f with dt := .f32, imm := .k 1300#12, dst := 5#10, sa := 2#10 }),
          ([0x10AB0020#32, 0x02002000#32, 8#32], .vcvt { f with dt := .e4m3n, sat := true, dst := 8#10, sa := 2#10, ext := 8#20 }),
          ([0x40020304#32, 0x02814000#32, 0x10#32], .vldx { f with dt := .s32, tk := 3#4, imm := .i20 16#20, dst := 10#10, sa := 20#10 }),
          ([0x600B0000#32, 0x00040020#32, 0x04000120#32], .mxloop { f with dt := .e4m3n, sa := 64#10, sb := 8#10, sc := 16#10, ext := 0x120#20 }),
          ([0x70020008#32, 0#32, 0x190#32, 5#32], .winit { f with dt := .s32, imm := .lit 5#32, ext := 0x190#20 }),
          ([0xE0001400#32], .trlTake 5#15), ([0xE4000103#32], .trlSkip 0#15 2#3 3#7), ([0xE6000801#32], .trlRegang 2#15 1#10),
          ([0xF0000000#32], .nop)],
      decodeWords false e.1 = .ok e.2) ∧
  (∀ i, decodeWords true [0x00000000#32] ≠ .ok i ∧ decodeWords true [0b000001_000011_000001_000010_00010101#32] ≠ .ok i ∧
    decodeWords false [0xA0000000#32, 0#32, 0#32] ≠ .ok i)

/-- R60 to R81: decoding what `encode` writes gives every well-formed instruction back, with every operand at every value; a word of
the address stream that decodes is the encoding of its instruction, bit for bit, and what the compute stream decodes is well
formed. -/
def Obligations.DecodeInvertsEncode : Prop :=
  (∀ i : Instr, i.aForm.isSome → decodeWords true (encode i) = .ok i) ∧
  (∀ i : Instr, i.wf = true → i.cForm.isSome ∨ i.oneParcel.isSome → decodeWords false (encode i) = .ok i) ∧
  (∀ (w lit : Word) (i : Instr), decodeWords true [w, lit] = .ok i → i.aForm.isSome ∧ (encode i).head? = some w) ∧
  (∀ (w : Word) (ws : List Word) (i : Instr), decodeWords false (w :: ws) = .ok i →
    i.wf = true ∧ (i.cForm.isSome ∨ i.oneParcel.isSome) ∧ (encode i).length = parcelLength w)

/-- R63, R74 to R76, R80, R156, R315 to R319: a step whose turn is a slice's that its scheduler chooses runs the instruction that
the bytes there decode to: the word at APC, with its literal when it is LI32, the word that waits, or the parcels at a path's
position in a block whose head marks them; an event's turn runs the event. What the step adds is one count of the word issued,
the cycle of the last issue, the scheduler's current path and a step of debug. A slice that could issue and is not chosen does
nothing; parcels that do not decode stop their path, with RUN_ENTRY or ILLEGAL, in the order of R80; and a word that waits for
another agent is issued again by that agent's event when its group is chosen (R319). That a turn which cannot be taken, or an
event that names an issued word, changes nothing (log 2), and that a waiting word is kept and tried again from its beginning
(log 7), are the model's choices. -/
def Obligations.StepRunsDecodedInstruction : Prop :=
  ∀ (s s1 s2 s3 : State) (k p : Nat) (i : Instr) (w lit h : Word) (d : SRegNo) (bs bs2 : List Byte) (l l2 : Label) (ws : List Word) (x : Path),
    let turn := s.tickTime.nextTurn.1
    let v := s.tickTime.nextTurn.2
    let u : State := { v with cur := k }
    let c : State := { v with cur := k, curPath := p }
    let r := u.recOf k
    let g := u.group k
    let va := g.apc.toNat
    let blk := x.pos / 32 * 128
    let j := x.pos % 32
    let n := parcelLength w
    let turnA : Prop := turn = .aWord k ∧ (v.choosesA k = true ∨ v.canA k = false)
    let turnC : Prop := turn = .cIssue k p ∧ (v.chooses k p = true ∨ v.canC k p = false)
    (turnA → u.aReady k = true → g.await = none → r.acode ≤ va → va + 4 ≤ r.acode + r.asize →
      u.readCode k va 4 = .ok s1 bs l → w = BitVec.ofNat 32 (ofBytes bs) →
      (decodeWords true [w] = .ok i → (∀ d y, i ≠ .li32 d y) → step s = afterIssue k 0 0x03 g.aret Group.aret (exec i s1)) ∧
      (decodeWords true [w] = .ok (.li32 d 0#32) → va + 8 ≤ r.acode + r.asize → s1.readCode k (va + 4) 4 = .ok s2 bs2 l2 →
        lit = BitVec.ofNat 32 (ofBytes bs2) → step s = afterIssue k 0 0x03 g.aret Group.aret (exec (.li32 d lit) s2)) ∧
      (∀ e, decodeWords true [w] = .error e → step s = .next (u.raiseA { code := 0x01 }))) ∧
    (turnA → u.aReady k = true → g.await = some i → step s = afterIssue k 0 0x03 g.aret Group.aret (exec i u)) ∧
    (turn = .aWord k → u.aReady k = false → step s = .next u) ∧
    (turn = .aWord k → v.choosesA k = false → v.canA k = true → step s = .next v) ∧
    (turnC → c.cReady k p = true → (c.group k).paths.find p = some x → r.ccode ≤ blk → blk + 128 ≤ r.ccode + r.csize →
      c.parcels k blk 1 = .ok s1 [h] → h.getLsbD 31 = false → s1.parcels k (4 * x.pos) 1 = .ok s2 [w] →
      s2.parcels k (4 * x.pos + 4) (n - 1) = .ok s3 ws → j ≠ 0 → h.getLsbD (j - 1) = true → j + n ≤ 32 →
      (∀ m, m < n - 1 → h.getLsbD (j + m) = false) → decodeWords false (w :: ws) = .ok i → (14 ≤ w.toNat / 2 ^ 28 ∨ x.icount < 24) →
      step s = v.keepCurrent k p (afterIssue k x.qmask 0x02 g.cret Group.cret (exec i s3))) ∧
    (let stops (code : Nat) : Prop := step s = v.keepCurrent k p (.next (c.raiseC { code := code }))
     let marked : Prop := j ≠ 0 ∧ h.getLsbD (j - 1) = true
     let whole : Prop := j + n ≤ 32 ∧ ∀ m, m < n - 1 → h.getLsbD (j + m) = false
     turnC → c.cReady k p = true → (c.group k).paths.find p = some x →
      (¬ (r.ccode ≤ blk ∧ blk + 128 ≤ r.ccode + r.csize) → stops 0x03) ∧
      (r.ccode ≤ blk → blk + 128 ≤ r.ccode + r.csize → c.parcels k blk 1 = .ok s1 [h] →
        (h.getLsbD 31 = true → stops 0x01) ∧
        (h.getLsbD 31 = false → ¬ marked → stops 0x03) ∧
        (h.getLsbD 31 = false → marked → s1.parcels k (4 * x.pos) 1 = .ok s2 [w] →
          (¬ whole → stops 0x03) ∧
          (whole → s2.parcels k (4 * x.pos + 4) (n - 1) = .ok s3 ws →
            ((∃ e, decodeWords false (w :: ws) = .error e) → stops 0x01) ∧
            (∀ y, decodeWords false (w :: ws) = .ok y → w.toNat / 2 ^ 28 < 14 → 24 ≤ x.icount → stops 0x01))))) ∧
    (turn = .cIssue k p → v.chooses k p = false → v.canC k p = true → step s = .next v) ∧
    (turn = .event i → i.isIssued = false → (∀ m q, i ≠ .runStart m q) → (∀ m, v.retriedGroup i = some m → v.choosesA m = true) →
      step s = exec i v) ∧
    (turn = .event i → (∀ m q, i ≠ .runStart m q) → (∃ m, v.retriedGroup i = some m ∧ v.choosesA m = false) → step s = .next v) ∧
    (turn = .event (.runStart k p) → step s = if v.chooses k p then exec (.runStart k p) v else .next v) ∧
    (turn = .event i → i.isIssued = true → step s = .next v) ∧
    (∀ a, turn = .outside a → step s = .next (v.act a)) ∧
    (∀ t, v.keepCurrent k p (.next t) = .next (if (t.group k).cret = (v.group k).cret then t
      else if ((t.group k).paths.find p).map (·.phase) = some .issuing then t.setCurrent k p else t.clearCurrent k)) ∧
    (∀ (t : State) (q e b : Nat) (f : Group → Nat), (t.group k).stepArmed = none →
      afterIssue k q e b f (.next t) = .next (if f (t.group k) = b then t
        else (t.setGroup k { t.group k with lastIssue := t.cycle }).pmGroup k e 1))

/-- What holds right after reset: no work, no record of another device, debug locked, every counter zero and the shoot-down timeout
200 µs (R405); every byte of memory reads as zero and every label is empty (the model's choice, log 5 and 16). -/
def Obligations.ResetState : Prop :=
  State.reset.memOk ∧ State.reset.groups = [] ∧ State.reset.teams = [] ∧ State.reset.grids = [] ∧ State.reset.tlb = [] ∧
  State.reset.ctxs = [] ∧ State.reset.fenced = [] ∧ State.reset.dbgu = false ∧ State.reset.cycle = 0 ∧ State.reset.discards = 0 ∧
  State.reset.out = [] ∧ State.reset.hostMem = [] ∧ State.reset.ownReads = [] ∧ State.reset.shootTimeout = 540000 ∧ (∀ a, State.reset.byteAt a = 0#8) ∧
  (∀ a, State.reset.labelAt a = 0#16)

/-- Every step keeps memory, and what the host holds outside the window, in its canonical form: addresses strictly rising, and no
byte listed that reads as an unlisted one. -/
def Obligations.StepKeepsMemoryCanonical : Prop :=
  ∀ s t : State, step s = .next t → (s.memOk → t.memOk) ∧ (Memory.wf s.hostMem = true → Memory.wf t.hostMem = true)

/-- R132, R116, R435: no step lowers the label of a memory granule, but for one that allocates frames anew or resets the device. -/
def Obligations.GranuleLabelsNeverFall : Prop :=
  ∀ s t : State, step s = .next t →
    (∀ c b n, s.tickTime.nextTurn.1 ≠ .event (.frameAllocate c b n)) → (∀ r, s.tickTime.nextTurn.1 ≠ .event (.deviceReset r)) →
    ∀ n, LabelIn (s.glbl.get 0#16 n) (t.glbl.get 0#16 n)
end

