-- ==== Sys2Proof/Laws/Table.lean ====
section
/-! SUPPORT. Laws of sparse tables: what reads give after writes, and that writes keep the canonical form. -/

namespace Sys2Proof.Machine

variable {α : Type}

@[simp] theorem Tab.get_nil (d : α) (k : Nat) : Tab.get d [] k = d := rfl

theorem Tab.get_cons (d : α) (e : Nat × α) (t : Tab α) (k : Nat) :
    Tab.get d (e :: t) k = if e.1 = k then e.2 else Tab.get d t k := rfl

@[simp] theorem Tab.get_put_self (d : α) (m : Tab α) (k : Nat) (v : α) : Tab.get d (Tab.put m k v) k = v := by
  induction m with
  | nil => simp [Tab.put, Tab.get]
  | cons e t ih =>
    obtain ⟨k', v'⟩ := e
    simp only [Tab.put]
    split
    · simp [Tab.get]
    · split
      · simp [Tab.get]
      · have : ¬ k' = k := fun h => by omega
        simp [Tab.get, this, ih]

theorem Tab.get_put_ne (d : α) (m : Tab α) {k j : Nat} (v : α) (h : j ≠ k) : Tab.get d (Tab.put m k v) j = Tab.get d m j := by
  have hk : ¬ k = j := fun e => h e.symm
  induction m with
  | nil => simp [Tab.put, Tab.get, hk]
  | cons e t ih =>
    obtain ⟨k', v'⟩ := e
    simp only [Tab.put]
    split
    · simp [Tab.get, hk]
    · split
      · next h2 => subst h2; simp [Tab.get, hk]
      · simp only [Tab.get, ih]

theorem Tab.get_put (d : α) (m : Tab α) (k j : Nat) (v : α) :
    Tab.get d (Tab.put m k v) j = if j = k then v else Tab.get d m j := by
  split
  · next h => subst h; exact Tab.get_put_self ..
  · next h => exact Tab.get_put_ne d m v h

@[simp] theorem Tab.find_put_self (m : Tab α) (k : Nat) (v : α) : Tab.find (Tab.put m k v) k = some v := by
  induction m with
  | nil => simp [Tab.put, Tab.find]
  | cons e t ih =>
    obtain ⟨k', v'⟩ := e
    simp only [Tab.put]
    split
    · simp [Tab.find]
    · split
      · simp [Tab.find]
      · have : ¬ k' = k := fun h => by omega
        simp [Tab.find, this, ih]

theorem Tab.find_put_ne (m : Tab α) {k j : Nat} (v : α) (h : j ≠ k) : Tab.find (Tab.put m k v) j = Tab.find m j := by
  have hk : ¬ k = j := fun e => h e.symm
  induction m with
  | nil => simp [Tab.put, Tab.find, hk]
  | cons e t ih =>
    obtain ⟨k', v'⟩ := e
    simp only [Tab.put]
    split
    · simp [Tab.find, hk]
    · split
      · next h2 => subst h2; simp [Tab.find, hk]
      · simp only [Tab.find, ih]

@[simp] theorem Tab.get_del_self (d : α) (m : Tab α) (k : Nat) : Tab.get d (Tab.del m k) k = d := by
  induction m with
  | nil => rfl
  | cons e t ih =>
    by_cases h : e.1 = k
    · simpa [Tab.del, h] using ih
    · have h2 : (e.1 != k) = true := by simp [h]
      simp only [Tab.del, List.filter_cons, h2, if_true, Tab.get_cons, h, if_false]
      exact ih

theorem Tab.get_del_ne (d : α) (m : Tab α) {k j : Nat} (h : j ≠ k) : Tab.get d (Tab.del m k) j = Tab.get d m j := by
  induction m with
  | nil => rfl
  | cons e t ih =>
    by_cases hk : e.1 = k
    · have hj : ¬ k = j := fun x => h x.symm
      have e1 : Tab.del (e :: t) k = Tab.del t k := by simp [Tab.del, hk]
      rw [e1, ih, Tab.get_cons, hk, if_neg hj]
    · have h2 : (e.1 != k) = true := by simp [hk]
      simp only [Tab.del, List.filter_cons, h2, if_true, Tab.get_cons]
      split
      · rfl
      · exact ih

variable [DecidableEq α]

@[simp] theorem Tab.get_set_self (d : α) (m : Tab α) (k : Nat) (v : α) : Tab.get d (Tab.set d m k v) k = v := by
  unfold Tab.set
  split
  · next h => rw [Tab.get_del_self, h]
  · exact Tab.get_put_self ..

theorem Tab.get_set_ne (d : α) (m : Tab α) {k j : Nat} (v : α) (h : j ≠ k) : Tab.get d (Tab.set d m k v) j = Tab.get d m j := by
  unfold Tab.set
  split
  · exact Tab.get_del_ne d m h
  · exact Tab.get_put_ne d m v h

/-- What a read gives after a write (R130). -/
theorem Tab.get_set (d : α) (m : Tab α) (k j : Nat) (v : α) :
    Tab.get d (Tab.set d m k v) j = if j = k then v else Tab.get d m j := by
  split
  · next h => subst h; exact Tab.get_set_self ..
  · next h => exact Tab.get_set_ne d m v h

/-- A write of consecutive values leaves every key outside them alone. -/
theorem Tab.get_setFrom_out (d : α) (vs : List α) (m : Tab α) (k j : Nat) (h : j < k ∨ k + vs.length ≤ j) :
    Tab.get d (Tab.setFrom d m k vs) j = Tab.get d m j := by
  induction vs generalizing m k with
  | nil => rfl
  | cons v t ih =>
    simp only [List.length_cons] at h
    have h2 : j < k + 1 ∨ k + 1 + t.length ≤ j := by omega
    rw [Tab.setFrom, ih _ _ h2, Tab.get_set_ne d m v (by omega)]

/-- What a read gives inside a write of consecutive values. -/
theorem Tab.get_setFrom_in (d : α) (vs : List α) (m : Tab α) (k i : Nat) (h : i < vs.length) :
    Tab.get d (Tab.setFrom d m k vs) (k + i) = vs[i] := by
  induction vs generalizing m k i with
  | nil => simp at h
  | cons v t ih =>
    rw [Tab.setFrom]
    cases i with
    | zero =>
      rw [Tab.get_setFrom_out d t _ _ _ (by omega)]
      simp
    | succ n =>
      have := ih (m.set d k v) (k + 1) n (by simpa using h)
      rw [show k + (n + 1) = k + 1 + n by omega, this]
      rfl

theorem Tab.wf_cons (d : α) (k : Nat) (v : α) (t : Tab α) :
    Tab.wf d ((k, v) :: t) = true ↔ v ≠ d ∧ (∀ e ∈ t, k < e.1) ∧ Tab.wf d t = true := by
  simp only [Tab.wf, Bool.and_eq_true, decide_eq_true_eq, List.all_eq_true]
  tauto

theorem Tab.mem_put (m : Tab α) (k : Nat) (v : α) (e : Nat × α) : e ∈ Tab.put m k v → e = (k, v) ∨ e ∈ m := by
  induction m with
  | nil => simp [Tab.put]
  | cons x t ih =>
    obtain ⟨k', v'⟩ := x
    simp only [Tab.put]
    split
    · simp only [List.mem_cons]; tauto
    · split
      · simp only [List.mem_cons]; tauto
      · simp only [List.mem_cons]; tauto

theorem Tab.wf_put (d : α) (m : Tab α) (k : Nat) (v : α) (hv : v ≠ d) (h : Tab.wf d m = true) :
    Tab.wf d (Tab.put m k v) = true := by
  induction m with
  | nil => simp [Tab.put, Tab.wf, hv]
  | cons x t ih =>
    obtain ⟨k', v'⟩ := x
    rw [Tab.wf_cons] at h
    obtain ⟨h1, h2, h3⟩ := h
    simp only [Tab.put]
    split
    · next hk =>
      rw [Tab.wf_cons]
      refine ⟨hv, ?_, (Tab.wf_cons ..).2 ⟨h1, h2, h3⟩⟩
      intro e he
      rcases List.mem_cons.1 he with h | h
      · subst h; exact hk
      · exact Nat.lt_trans hk (h2 e h)
    · split
      · next hk => subst hk; exact (Tab.wf_cons ..).2 ⟨hv, h2, h3⟩
      · next hk1 hk2 =>
        rw [Tab.wf_cons]
        refine ⟨h1, ?_, ih h3⟩
        intro e he
        rcases Tab.mem_put t k v e he with h | h
        · subst h; show k' < k; omega
        · exact h2 e h

theorem Tab.wf_del (d : α) (m : Tab α) (k : Nat) (h : Tab.wf d m = true) : Tab.wf d (Tab.del m k) = true := by
  induction m with
  | nil => rfl
  | cons x t ih =>
    obtain ⟨k', v'⟩ := x
    rw [Tab.wf_cons] at h
    obtain ⟨h1, h2, h3⟩ := h
    by_cases hk : k' = k
    · simpa [Tab.del, hk] using ih h3
    · have e : Tab.del ((k', v') :: t) k = (k', v') :: Tab.del t k := by simp [Tab.del, hk]
      rw [e, Tab.wf_cons]
      exact ⟨h1, fun x hx => h2 x (List.mem_of_mem_filter hx), ih h3⟩

/-- A write keeps the canonical form. -/
theorem Tab.wf_set (d : α) (m : Tab α) (k : Nat) (v : α) (h : Tab.wf d m = true) : Tab.wf d (Tab.set d m k v) = true := by
  unfold Tab.set
  split
  · exact Tab.wf_del d m k h
  · next hv => exact Tab.wf_put d m k v hv h

/-- A write of consecutive values keeps the canonical form. -/
theorem Tab.wf_setFrom (d : α) (vs : List α) (m : Tab α) (k : Nat) (h : Tab.wf d m = true) :
    Tab.wf d (Tab.setFrom d m k vs) = true := by
  induction vs generalizing m k with
  | nil => exact h
  | cons v t ih => exact ih _ _ (Tab.wf_set d m k v h)

theorem Tab.wf_filter (d : α) (p : Nat × α → Bool) (m : Tab α) (h : Tab.wf d m = true) :
    Tab.wf d (m.filter p) = true := by
  induction m with
  | nil => rfl
  | cons e t ih =>
    obtain ⟨k, v⟩ := e
    rw [Tab.wf_cons] at h
    rw [List.filter_cons]
    split
    · rw [Tab.wf_cons]
      exact ⟨h.1, fun e he => h.2.1 e (List.mem_filter.1 he).1, ih h.2.2⟩
    · exact ih h.2.2

end Sys2Proof.Machine
end

