-- ==== Sys2Proof/Laws/State.lean ====
section
/-! SUPPORT. One law for each field of the state after each named update, and what the accessors read after a write. -/

namespace Sys2Proof.Machine

open Sys2Proof

/-! ## The fields that an update of one table leaves alone -/

@[simp] theorem State.setGroup_agenda (s : State) (k : Nat) (g : Group) : (s.setGroup k g).agenda = s.agenda := rfl
@[simp] theorem State.setGroup_apart (s : State) (k : Nat) (g : Group) : (s.setGroup k g).apart = s.apart := rfl
@[simp] theorem State.setGroup_cur (s : State) (k : Nat) (g : Group) : (s.setGroup k g).cur = s.cur := rfl
@[simp] theorem State.setGroup_curPath (s : State) (k : Nat) (g : Group) : (s.setGroup k g).curPath = s.curPath := rfl
@[simp] theorem State.setGroup_freeCtr (s : State) (k : Nat) (g : Group) : (s.setGroup k g).freeCtr = s.freeCtr := rfl
@[simp] theorem State.setGroup_cycle (s : State) (k : Nat) (g : Group) : (s.setGroup k g).cycle = s.cycle := rfl
@[simp] theorem State.setGroup_teams (s : State) (k : Nat) (g : Group) : (s.setGroup k g).teams = s.teams := rfl
@[simp] theorem State.setGroup_grids (s : State) (k : Nat) (g : Group) : (s.setGroup k g).grids = s.grids := rfl
@[simp] theorem State.setGroup_cores (s : State) (k : Nat) (g : Group) : (s.setGroup k g).cores = s.cores := rfl
@[simp] theorem State.setGroup_launches (s : State) (k : Nat) (g : Group) : (s.setGroup k g).launches = s.launches := rfl
@[simp] theorem State.setGroup_admissions (s : State) (k : Nat) (g : Group) : (s.setGroup k g).admissions = s.admissions := rfl
@[simp] theorem State.setGroup_holds (s : State) (k : Nat) (g : Group) : (s.setGroup k g).holds = s.holds := rfl
@[simp] theorem State.setGroup_steward (s : State) (k : Nat) (g : Group) : (s.setGroup k g).steward = s.steward := rfl
@[simp] theorem State.setGroup_mem (s : State) (k : Nat) (g : Group) : (s.setGroup k g).mem = s.mem := rfl
@[simp] theorem State.setGroup_hostMem (s : State) (k : Nat) (g : Group) : (s.setGroup k g).hostMem = s.hostMem := rfl
@[simp] theorem State.setGroup_glbl (s : State) (k : Nat) (g : Group) : (s.setGroup k g).glbl = s.glbl := rfl
@[simp] theorem State.setGroup_bad (s : State) (k : Nat) (g : Group) : (s.setGroup k g).bad = s.bad := rfl
@[simp] theorem State.setGroup_lines (s : State) (k : Nat) (g : Group) : (s.setGroup k g).lines = s.lines := rfl
@[simp] theorem State.setGroup_dieQ (s : State) (k : Nat) (g : Group) : (s.setGroup k g).dieQ = s.dieQ := rfl
@[simp] theorem State.setGroup_detsets (s : State) (k : Nat) (g : Group) : (s.setGroup k g).detsets = s.detsets := rfl
@[simp] theorem State.setGroup_extents (s : State) (k : Nat) (g : Group) : (s.setGroup k g).extents = s.extents := rfl
@[simp] theorem State.setGroup_owners (s : State) (k : Nat) (g : Group) : (s.setGroup k g).owners = s.owners := rfl
@[simp] theorem State.setGroup_dupMap (s : State) (k : Nat) (g : Group) : (s.setGroup k g).dupMap = s.dupMap := rfl
@[simp] theorem State.setGroup_dupHolders (s : State) (k : Nat) (g : Group) : (s.setGroup k g).dupHolders = s.dupHolders := rfl
@[simp] theorem State.setGroup_dupWaits (s : State) (k : Nat) (g : Group) : (s.setGroup k g).dupWaits = s.dupWaits := rfl
@[simp] theorem State.setGroup_ctxs (s : State) (k : Nat) (g : Group) : (s.setGroup k g).ctxs = s.ctxs := rfl
@[simp] theorem State.setGroup_tlb (s : State) (k : Nat) (g : Group) : (s.setGroup k g).tlb = s.tlb := rfl
@[simp] theorem State.setGroup_devn (s : State) (k : Nat) (g : Group) : (s.setGroup k g).devn = s.devn := rfl
@[simp] theorem State.setGroup_routes (s : State) (k : Nat) (g : Group) : (s.setGroup k g).routes = s.routes := rfl
@[simp] theorem State.setGroup_hwbase (s : State) (k : Nat) (g : Group) : (s.setGroup k g).hwbase = s.hwbase := rfl
@[simp] theorem State.setGroup_bar2 (s : State) (k : Nat) (g : Group) : (s.setGroup k g).bar2 = s.bar2 := rfl
@[simp] theorem State.setGroup_fenced (s : State) (k : Nat) (g : Group) : (s.setGroup k g).fenced = s.fenced := rfl
@[simp] theorem State.setGroup_shoots (s : State) (k : Nat) (g : Group) : (s.setGroup k g).shoots = s.shoots := rfl
@[simp] theorem State.setGroup_shootTimeout (s : State) (k : Nat) (g : Group) : (s.setGroup k g).shootTimeout = s.shootTimeout := rfl
@[simp] theorem State.setGroup_tags (s : State) (k : Nat) (g : Group) : (s.setGroup k g).tags = s.tags := rfl
@[simp] theorem State.setGroup_nextTag (s : State) (k : Nat) (g : Group) : (s.setGroup k g).nextTag = s.nextTag := rfl
@[simp] theorem State.setGroup_ownReads (s : State) (k : Nat) (g : Group) : (s.setGroup k g).ownReads = s.ownReads := rfl
@[simp] theorem State.setGroup_ordered (s : State) (k : Nat) (g : Group) : (s.setGroup k g).ordered = s.ordered := rfl
@[simp] theorem State.setGroup_held (s : State) (k : Nat) (g : Group) : (s.setGroup k g).held = s.held := rfl
@[simp] theorem State.setGroup_reducers (s : State) (k : Nat) (g : Group) : (s.setGroup k g).reducers = s.reducers := rfl
@[simp] theorem State.setGroup_discards (s : State) (k : Nat) (g : Group) : (s.setGroup k g).discards = s.discards := rfl
@[simp] theorem State.setGroup_out (s : State) (k : Nat) (g : Group) : (s.setGroup k g).out = s.out := rfl
@[simp] theorem State.setGroup_stalled (s : State) (k : Nat) (g : Group) : (s.setGroup k g).stalled = s.stalled := rfl
@[simp] theorem State.setGroup_msix (s : State) (k : Nat) (g : Group) : (s.setGroup k g).msix = s.msix := rfl
@[simp] theorem State.setGroup_hostData (s : State) (k : Nat) (g : Group) : (s.setGroup k g).hostData = s.hostData := rfl
@[simp] theorem State.setGroup_log (s : State) (k : Nat) (g : Group) : (s.setGroup k g).log = s.log := rfl
@[simp] theorem State.setGroup_reports (s : State) (k : Nat) (g : Group) : (s.setGroup k g).reports = s.reports := rfl
@[simp] theorem State.setGroup_tfw (s : State) (k : Nat) (g : Group) : (s.setGroup k g).tfw = s.tfw := rfl
@[simp] theorem State.setGroup_ufw (s : State) (k : Nat) (g : Group) : (s.setGroup k g).ufw = s.ufw := rfl
@[simp] theorem State.setGroup_dbgu (s : State) (k : Nat) (g : Group) : (s.setGroup k g).dbgu = s.dbgu := rfl
@[simp] theorem State.setGroup_grants (s : State) (k : Nat) (g : Group) : (s.setGroup k g).grants = s.grants := rfl
@[simp] theorem State.setGroup_debugReply (s : State) (k : Nat) (g : Group) : (s.setGroup k g).debugReply = s.debugReply := rfl

@[simp] theorem State.setGrp_agenda (s : State) (g : Group) : (s.setGrp g).agenda = s.agenda := rfl
@[simp] theorem State.setGrp_apart (s : State) (g : Group) : (s.setGrp g).apart = s.apart := rfl
@[simp] theorem State.setGrp_cur (s : State) (g : Group) : (s.setGrp g).cur = s.cur := rfl
@[simp] theorem State.setGrp_curPath (s : State) (g : Group) : (s.setGrp g).curPath = s.curPath := rfl
@[simp] theorem State.setGrp_freeCtr (s : State) (g : Group) : (s.setGrp g).freeCtr = s.freeCtr := rfl
@[simp] theorem State.setGrp_cycle (s : State) (g : Group) : (s.setGrp g).cycle = s.cycle := rfl
@[simp] theorem State.setGrp_teams (s : State) (g : Group) : (s.setGrp g).teams = s.teams := rfl
@[simp] theorem State.setGrp_grids (s : State) (g : Group) : (s.setGrp g).grids = s.grids := rfl
@[simp] theorem State.setGrp_cores (s : State) (g : Group) : (s.setGrp g).cores = s.cores := rfl
@[simp] theorem State.setGrp_launches (s : State) (g : Group) : (s.setGrp g).launches = s.launches := rfl
@[simp] theorem State.setGrp_admissions (s : State) (g : Group) : (s.setGrp g).admissions = s.admissions := rfl
@[simp] theorem State.setGrp_holds (s : State) (g : Group) : (s.setGrp g).holds = s.holds := rfl
@[simp] theorem State.setGrp_steward (s : State) (g : Group) : (s.setGrp g).steward = s.steward := rfl
@[simp] theorem State.setGrp_mem (s : State) (g : Group) : (s.setGrp g).mem = s.mem := rfl
@[simp] theorem State.setGrp_hostMem (s : State) (g : Group) : (s.setGrp g).hostMem = s.hostMem := rfl
@[simp] theorem State.setGrp_glbl (s : State) (g : Group) : (s.setGrp g).glbl = s.glbl := rfl
@[simp] theorem State.setGrp_bad (s : State) (g : Group) : (s.setGrp g).bad = s.bad := rfl
@[simp] theorem State.setGrp_lines (s : State) (g : Group) : (s.setGrp g).lines = s.lines := rfl
@[simp] theorem State.setGrp_dieQ (s : State) (g : Group) : (s.setGrp g).dieQ = s.dieQ := rfl
@[simp] theorem State.setGrp_detsets (s : State) (g : Group) : (s.setGrp g).detsets = s.detsets := rfl
@[simp] theorem State.setGrp_extents (s : State) (g : Group) : (s.setGrp g).extents = s.extents := rfl
@[simp] theorem State.setGrp_owners (s : State) (g : Group) : (s.setGrp g).owners = s.owners := rfl
@[simp] theorem State.setGrp_dupMap (s : State) (g : Group) : (s.setGrp g).dupMap = s.dupMap := rfl
@[simp] theorem State.setGrp_dupHolders (s : State) (g : Group) : (s.setGrp g).dupHolders = s.dupHolders := rfl
@[simp] theorem State.setGrp_dupWaits (s : State) (g : Group) : (s.setGrp g).dupWaits = s.dupWaits := rfl
@[simp] theorem State.setGrp_ctxs (s : State) (g : Group) : (s.setGrp g).ctxs = s.ctxs := rfl
@[simp] theorem State.setGrp_tlb (s : State) (g : Group) : (s.setGrp g).tlb = s.tlb := rfl
@[simp] theorem State.setGrp_devn (s : State) (g : Group) : (s.setGrp g).devn = s.devn := rfl
@[simp] theorem State.setGrp_routes (s : State) (g : Group) : (s.setGrp g).routes = s.routes := rfl
@[simp] theorem State.setGrp_hwbase (s : State) (g : Group) : (s.setGrp g).hwbase = s.hwbase := rfl
@[simp] theorem State.setGrp_bar2 (s : State) (g : Group) : (s.setGrp g).bar2 = s.bar2 := rfl
@[simp] theorem State.setGrp_fenced (s : State) (g : Group) : (s.setGrp g).fenced = s.fenced := rfl
@[simp] theorem State.setGrp_shoots (s : State) (g : Group) : (s.setGrp g).shoots = s.shoots := rfl
@[simp] theorem State.setGrp_shootTimeout (s : State) (g : Group) : (s.setGrp g).shootTimeout = s.shootTimeout := rfl
@[simp] theorem State.setGrp_tags (s : State) (g : Group) : (s.setGrp g).tags = s.tags := rfl
@[simp] theorem State.setGrp_nextTag (s : State) (g : Group) : (s.setGrp g).nextTag = s.nextTag := rfl
@[simp] theorem State.setGrp_ownReads (s : State) (g : Group) : (s.setGrp g).ownReads = s.ownReads := rfl
@[simp] theorem State.setGrp_ordered (s : State) (g : Group) : (s.setGrp g).ordered = s.ordered := rfl
@[simp] theorem State.setGrp_held (s : State) (g : Group) : (s.setGrp g).held = s.held := rfl
@[simp] theorem State.setGrp_reducers (s : State) (g : Group) : (s.setGrp g).reducers = s.reducers := rfl
@[simp] theorem State.setGrp_discards (s : State) (g : Group) : (s.setGrp g).discards = s.discards := rfl
@[simp] theorem State.setGrp_out (s : State) (g : Group) : (s.setGrp g).out = s.out := rfl
@[simp] theorem State.setGrp_stalled (s : State) (g : Group) : (s.setGrp g).stalled = s.stalled := rfl
@[simp] theorem State.setGrp_msix (s : State) (g : Group) : (s.setGrp g).msix = s.msix := rfl
@[simp] theorem State.setGrp_hostData (s : State) (g : Group) : (s.setGrp g).hostData = s.hostData := rfl
@[simp] theorem State.setGrp_log (s : State) (g : Group) : (s.setGrp g).log = s.log := rfl
@[simp] theorem State.setGrp_reports (s : State) (g : Group) : (s.setGrp g).reports = s.reports := rfl
@[simp] theorem State.setGrp_tfw (s : State) (g : Group) : (s.setGrp g).tfw = s.tfw := rfl
@[simp] theorem State.setGrp_ufw (s : State) (g : Group) : (s.setGrp g).ufw = s.ufw := rfl
@[simp] theorem State.setGrp_dbgu (s : State) (g : Group) : (s.setGrp g).dbgu = s.dbgu := rfl
@[simp] theorem State.setGrp_grants (s : State) (g : Group) : (s.setGrp g).grants = s.grants := rfl
@[simp] theorem State.setGrp_debugReply (s : State) (g : Group) : (s.setGrp g).debugReply = s.debugReply := rfl

@[simp] theorem State.setTeam_agenda (s : State) (k : Nat) (x : Team) : (s.setTeam k x).agenda = s.agenda := rfl
@[simp] theorem State.setTeam_apart (s : State) (k : Nat) (x : Team) : (s.setTeam k x).apart = s.apart := rfl
@[simp] theorem State.setTeam_cur (s : State) (k : Nat) (x : Team) : (s.setTeam k x).cur = s.cur := rfl
@[simp] theorem State.setTeam_curPath (s : State) (k : Nat) (x : Team) : (s.setTeam k x).curPath = s.curPath := rfl
@[simp] theorem State.setTeam_freeCtr (s : State) (k : Nat) (x : Team) : (s.setTeam k x).freeCtr = s.freeCtr := rfl
@[simp] theorem State.setTeam_cycle (s : State) (k : Nat) (x : Team) : (s.setTeam k x).cycle = s.cycle := rfl
@[simp] theorem State.setTeam_groups (s : State) (k : Nat) (x : Team) : (s.setTeam k x).groups = s.groups := rfl
@[simp] theorem State.setTeam_grids (s : State) (k : Nat) (x : Team) : (s.setTeam k x).grids = s.grids := rfl
@[simp] theorem State.setTeam_cores (s : State) (k : Nat) (x : Team) : (s.setTeam k x).cores = s.cores := rfl
@[simp] theorem State.setTeam_launches (s : State) (k : Nat) (x : Team) : (s.setTeam k x).launches = s.launches := rfl
@[simp] theorem State.setTeam_admissions (s : State) (k : Nat) (x : Team) : (s.setTeam k x).admissions = s.admissions := rfl
@[simp] theorem State.setTeam_holds (s : State) (k : Nat) (x : Team) : (s.setTeam k x).holds = s.holds := rfl
@[simp] theorem State.setTeam_steward (s : State) (k : Nat) (x : Team) : (s.setTeam k x).steward = s.steward := rfl
@[simp] theorem State.setTeam_mem (s : State) (k : Nat) (x : Team) : (s.setTeam k x).mem = s.mem := rfl
@[simp] theorem State.setTeam_hostMem (s : State) (k : Nat) (x : Team) : (s.setTeam k x).hostMem = s.hostMem := rfl
@[simp] theorem State.setTeam_glbl (s : State) (k : Nat) (x : Team) : (s.setTeam k x).glbl = s.glbl := rfl
@[simp] theorem State.setTeam_bad (s : State) (k : Nat) (x : Team) : (s.setTeam k x).bad = s.bad := rfl
@[simp] theorem State.setTeam_lines (s : State) (k : Nat) (x : Team) : (s.setTeam k x).lines = s.lines := rfl
@[simp] theorem State.setTeam_dieQ (s : State) (k : Nat) (x : Team) : (s.setTeam k x).dieQ = s.dieQ := rfl
@[simp] theorem State.setTeam_detsets (s : State) (k : Nat) (x : Team) : (s.setTeam k x).detsets = s.detsets := rfl
@[simp] theorem State.setTeam_extents (s : State) (k : Nat) (x : Team) : (s.setTeam k x).extents = s.extents := rfl
@[simp] theorem State.setTeam_owners (s : State) (k : Nat) (x : Team) : (s.setTeam k x).owners = s.owners := rfl
@[simp] theorem State.setTeam_dupMap (s : State) (k : Nat) (x : Team) : (s.setTeam k x).dupMap = s.dupMap := rfl
@[simp] theorem State.setTeam_dupHolders (s : State) (k : Nat) (x : Team) : (s.setTeam k x).dupHolders = s.dupHolders := rfl
@[simp] theorem State.setTeam_dupWaits (s : State) (k : Nat) (x : Team) : (s.setTeam k x).dupWaits = s.dupWaits := rfl
@[simp] theorem State.setTeam_ctxs (s : State) (k : Nat) (x : Team) : (s.setTeam k x).ctxs = s.ctxs := rfl
@[simp] theorem State.setTeam_tlb (s : State) (k : Nat) (x : Team) : (s.setTeam k x).tlb = s.tlb := rfl
@[simp] theorem State.setTeam_devn (s : State) (k : Nat) (x : Team) : (s.setTeam k x).devn = s.devn := rfl
@[simp] theorem State.setTeam_routes (s : State) (k : Nat) (x : Team) : (s.setTeam k x).routes = s.routes := rfl
@[simp] theorem State.setTeam_hwbase (s : State) (k : Nat) (x : Team) : (s.setTeam k x).hwbase = s.hwbase := rfl
@[simp] theorem State.setTeam_bar2 (s : State) (k : Nat) (x : Team) : (s.setTeam k x).bar2 = s.bar2 := rfl
@[simp] theorem State.setTeam_fenced (s : State) (k : Nat) (x : Team) : (s.setTeam k x).fenced = s.fenced := rfl
@[simp] theorem State.setTeam_shoots (s : State) (k : Nat) (x : Team) : (s.setTeam k x).shoots = s.shoots := rfl
@[simp] theorem State.setTeam_shootTimeout (s : State) (k : Nat) (x : Team) : (s.setTeam k x).shootTimeout = s.shootTimeout := rfl
@[simp] theorem State.setTeam_tags (s : State) (k : Nat) (x : Team) : (s.setTeam k x).tags = s.tags := rfl
@[simp] theorem State.setTeam_nextTag (s : State) (k : Nat) (x : Team) : (s.setTeam k x).nextTag = s.nextTag := rfl
@[simp] theorem State.setTeam_ownReads (s : State) (k : Nat) (x : Team) : (s.setTeam k x).ownReads = s.ownReads := rfl
@[simp] theorem State.setTeam_ordered (s : State) (k : Nat) (x : Team) : (s.setTeam k x).ordered = s.ordered := rfl
@[simp] theorem State.setTeam_held (s : State) (k : Nat) (x : Team) : (s.setTeam k x).held = s.held := rfl
@[simp] theorem State.setTeam_reducers (s : State) (k : Nat) (x : Team) : (s.setTeam k x).reducers = s.reducers := rfl
@[simp] theorem State.setTeam_discards (s : State) (k : Nat) (x : Team) : (s.setTeam k x).discards = s.discards := rfl
@[simp] theorem State.setTeam_out (s : State) (k : Nat) (x : Team) : (s.setTeam k x).out = s.out := rfl
@[simp] theorem State.setTeam_stalled (s : State) (k : Nat) (x : Team) : (s.setTeam k x).stalled = s.stalled := rfl
@[simp] theorem State.setTeam_msix (s : State) (k : Nat) (x : Team) : (s.setTeam k x).msix = s.msix := rfl
@[simp] theorem State.setTeam_hostData (s : State) (k : Nat) (x : Team) : (s.setTeam k x).hostData = s.hostData := rfl
@[simp] theorem State.setTeam_log (s : State) (k : Nat) (x : Team) : (s.setTeam k x).log = s.log := rfl
@[simp] theorem State.setTeam_reports (s : State) (k : Nat) (x : Team) : (s.setTeam k x).reports = s.reports := rfl
@[simp] theorem State.setTeam_tfw (s : State) (k : Nat) (x : Team) : (s.setTeam k x).tfw = s.tfw := rfl
@[simp] theorem State.setTeam_ufw (s : State) (k : Nat) (x : Team) : (s.setTeam k x).ufw = s.ufw := rfl
@[simp] theorem State.setTeam_dbgu (s : State) (k : Nat) (x : Team) : (s.setTeam k x).dbgu = s.dbgu := rfl
@[simp] theorem State.setTeam_grants (s : State) (k : Nat) (x : Team) : (s.setTeam k x).grants = s.grants := rfl
@[simp] theorem State.setTeam_debugReply (s : State) (k : Nat) (x : Team) : (s.setTeam k x).debugReply = s.debugReply := rfl

@[simp] theorem State.setTm_agenda (s : State) (x : Team) : (s.setTm x).agenda = s.agenda := rfl
@[simp] theorem State.setTm_apart (s : State) (x : Team) : (s.setTm x).apart = s.apart := rfl
@[simp] theorem State.setTm_cur (s : State) (x : Team) : (s.setTm x).cur = s.cur := rfl
@[simp] theorem State.setTm_curPath (s : State) (x : Team) : (s.setTm x).curPath = s.curPath := rfl
@[simp] theorem State.setTm_freeCtr (s : State) (x : Team) : (s.setTm x).freeCtr = s.freeCtr := rfl
@[simp] theorem State.setTm_cycle (s : State) (x : Team) : (s.setTm x).cycle = s.cycle := rfl
@[simp] theorem State.setTm_groups (s : State) (x : Team) : (s.setTm x).groups = s.groups := rfl
@[simp] theorem State.setTm_grids (s : State) (x : Team) : (s.setTm x).grids = s.grids := rfl
@[simp] theorem State.setTm_cores (s : State) (x : Team) : (s.setTm x).cores = s.cores := rfl
@[simp] theorem State.setTm_launches (s : State) (x : Team) : (s.setTm x).launches = s.launches := rfl
@[simp] theorem State.setTm_admissions (s : State) (x : Team) : (s.setTm x).admissions = s.admissions := rfl
@[simp] theorem State.setTm_holds (s : State) (x : Team) : (s.setTm x).holds = s.holds := rfl
@[simp] theorem State.setTm_steward (s : State) (x : Team) : (s.setTm x).steward = s.steward := rfl
@[simp] theorem State.setTm_mem (s : State) (x : Team) : (s.setTm x).mem = s.mem := rfl
@[simp] theorem State.setTm_hostMem (s : State) (x : Team) : (s.setTm x).hostMem = s.hostMem := rfl
@[simp] theorem State.setTm_glbl (s : State) (x : Team) : (s.setTm x).glbl = s.glbl := rfl
@[simp] theorem State.setTm_bad (s : State) (x : Team) : (s.setTm x).bad = s.bad := rfl
@[simp] theorem State.setTm_lines (s : State) (x : Team) : (s.setTm x).lines = s.lines := rfl
@[simp] theorem State.setTm_dieQ (s : State) (x : Team) : (s.setTm x).dieQ = s.dieQ := rfl
@[simp] theorem State.setTm_detsets (s : State) (x : Team) : (s.setTm x).detsets = s.detsets := rfl
@[simp] theorem State.setTm_extents (s : State) (x : Team) : (s.setTm x).extents = s.extents := rfl
@[simp] theorem State.setTm_owners (s : State) (x : Team) : (s.setTm x).owners = s.owners := rfl
@[simp] theorem State.setTm_dupMap (s : State) (x : Team) : (s.setTm x).dupMap = s.dupMap := rfl
@[simp] theorem State.setTm_dupHolders (s : State) (x : Team) : (s.setTm x).dupHolders = s.dupHolders := rfl
@[simp] theorem State.setTm_dupWaits (s : State) (x : Team) : (s.setTm x).dupWaits = s.dupWaits := rfl
@[simp] theorem State.setTm_ctxs (s : State) (x : Team) : (s.setTm x).ctxs = s.ctxs := rfl
@[simp] theorem State.setTm_tlb (s : State) (x : Team) : (s.setTm x).tlb = s.tlb := rfl
@[simp] theorem State.setTm_devn (s : State) (x : Team) : (s.setTm x).devn = s.devn := rfl
@[simp] theorem State.setTm_routes (s : State) (x : Team) : (s.setTm x).routes = s.routes := rfl
@[simp] theorem State.setTm_hwbase (s : State) (x : Team) : (s.setTm x).hwbase = s.hwbase := rfl
@[simp] theorem State.setTm_bar2 (s : State) (x : Team) : (s.setTm x).bar2 = s.bar2 := rfl
@[simp] theorem State.setTm_fenced (s : State) (x : Team) : (s.setTm x).fenced = s.fenced := rfl
@[simp] theorem State.setTm_shoots (s : State) (x : Team) : (s.setTm x).shoots = s.shoots := rfl
@[simp] theorem State.setTm_shootTimeout (s : State) (x : Team) : (s.setTm x).shootTimeout = s.shootTimeout := rfl
@[simp] theorem State.setTm_tags (s : State) (x : Team) : (s.setTm x).tags = s.tags := rfl
@[simp] theorem State.setTm_nextTag (s : State) (x : Team) : (s.setTm x).nextTag = s.nextTag := rfl
@[simp] theorem State.setTm_ownReads (s : State) (x : Team) : (s.setTm x).ownReads = s.ownReads := rfl
@[simp] theorem State.setTm_ordered (s : State) (x : Team) : (s.setTm x).ordered = s.ordered := rfl
@[simp] theorem State.setTm_held (s : State) (x : Team) : (s.setTm x).held = s.held := rfl
@[simp] theorem State.setTm_reducers (s : State) (x : Team) : (s.setTm x).reducers = s.reducers := rfl
@[simp] theorem State.setTm_discards (s : State) (x : Team) : (s.setTm x).discards = s.discards := rfl
@[simp] theorem State.setTm_out (s : State) (x : Team) : (s.setTm x).out = s.out := rfl
@[simp] theorem State.setTm_stalled (s : State) (x : Team) : (s.setTm x).stalled = s.stalled := rfl
@[simp] theorem State.setTm_msix (s : State) (x : Team) : (s.setTm x).msix = s.msix := rfl
@[simp] theorem State.setTm_hostData (s : State) (x : Team) : (s.setTm x).hostData = s.hostData := rfl
@[simp] theorem State.setTm_log (s : State) (x : Team) : (s.setTm x).log = s.log := rfl
@[simp] theorem State.setTm_reports (s : State) (x : Team) : (s.setTm x).reports = s.reports := rfl
@[simp] theorem State.setTm_tfw (s : State) (x : Team) : (s.setTm x).tfw = s.tfw := rfl
@[simp] theorem State.setTm_ufw (s : State) (x : Team) : (s.setTm x).ufw = s.ufw := rfl
@[simp] theorem State.setTm_dbgu (s : State) (x : Team) : (s.setTm x).dbgu = s.dbgu := rfl
@[simp] theorem State.setTm_grants (s : State) (x : Team) : (s.setTm x).grants = s.grants := rfl
@[simp] theorem State.setTm_debugReply (s : State) (x : Team) : (s.setTm x).debugReply = s.debugReply := rfl

@[simp] theorem State.setGrid_agenda (s : State) (k : Nat) (x : Grid) : (s.setGrid k x).agenda = s.agenda := rfl
@[simp] theorem State.setGrid_apart (s : State) (k : Nat) (x : Grid) : (s.setGrid k x).apart = s.apart := rfl
@[simp] theorem State.setGrid_cur (s : State) (k : Nat) (x : Grid) : (s.setGrid k x).cur = s.cur := rfl
@[simp] theorem State.setGrid_curPath (s : State) (k : Nat) (x : Grid) : (s.setGrid k x).curPath = s.curPath := rfl
@[simp] theorem State.setGrid_freeCtr (s : State) (k : Nat) (x : Grid) : (s.setGrid k x).freeCtr = s.freeCtr := rfl
@[simp] theorem State.setGrid_cycle (s : State) (k : Nat) (x : Grid) : (s.setGrid k x).cycle = s.cycle := rfl
@[simp] theorem State.setGrid_groups (s : State) (k : Nat) (x : Grid) : (s.setGrid k x).groups = s.groups := rfl
@[simp] theorem State.setGrid_teams (s : State) (k : Nat) (x : Grid) : (s.setGrid k x).teams = s.teams := rfl
@[simp] theorem State.setGrid_cores (s : State) (k : Nat) (x : Grid) : (s.setGrid k x).cores = s.cores := rfl
@[simp] theorem State.setGrid_launches (s : State) (k : Nat) (x : Grid) : (s.setGrid k x).launches = s.launches := rfl
@[simp] theorem State.setGrid_admissions (s : State) (k : Nat) (x : Grid) : (s.setGrid k x).admissions = s.admissions := rfl
@[simp] theorem State.setGrid_holds (s : State) (k : Nat) (x : Grid) : (s.setGrid k x).holds = s.holds := rfl
@[simp] theorem State.setGrid_steward (s : State) (k : Nat) (x : Grid) : (s.setGrid k x).steward = s.steward := rfl
@[simp] theorem State.setGrid_mem (s : State) (k : Nat) (x : Grid) : (s.setGrid k x).mem = s.mem := rfl
@[simp] theorem State.setGrid_hostMem (s : State) (k : Nat) (x : Grid) : (s.setGrid k x).hostMem = s.hostMem := rfl
@[simp] theorem State.setGrid_glbl (s : State) (k : Nat) (x : Grid) : (s.setGrid k x).glbl = s.glbl := rfl
@[simp] theorem State.setGrid_bad (s : State) (k : Nat) (x : Grid) : (s.setGrid k x).bad = s.bad := rfl
@[simp] theorem State.setGrid_lines (s : State) (k : Nat) (x : Grid) : (s.setGrid k x).lines = s.lines := rfl
@[simp] theorem State.setGrid_dieQ (s : State) (k : Nat) (x : Grid) : (s.setGrid k x).dieQ = s.dieQ := rfl
@[simp] theorem State.setGrid_detsets (s : State) (k : Nat) (x : Grid) : (s.setGrid k x).detsets = s.detsets := rfl
@[simp] theorem State.setGrid_extents (s : State) (k : Nat) (x : Grid) : (s.setGrid k x).extents = s.extents := rfl
@[simp] theorem State.setGrid_owners (s : State) (k : Nat) (x : Grid) : (s.setGrid k x).owners = s.owners := rfl
@[simp] theorem State.setGrid_dupMap (s : State) (k : Nat) (x : Grid) : (s.setGrid k x).dupMap = s.dupMap := rfl
@[simp] theorem State.setGrid_dupHolders (s : State) (k : Nat) (x : Grid) : (s.setGrid k x).dupHolders = s.dupHolders := rfl
@[simp] theorem State.setGrid_dupWaits (s : State) (k : Nat) (x : Grid) : (s.setGrid k x).dupWaits = s.dupWaits := rfl
@[simp] theorem State.setGrid_ctxs (s : State) (k : Nat) (x : Grid) : (s.setGrid k x).ctxs = s.ctxs := rfl
@[simp] theorem State.setGrid_tlb (s : State) (k : Nat) (x : Grid) : (s.setGrid k x).tlb = s.tlb := rfl
@[simp] theorem State.setGrid_devn (s : State) (k : Nat) (x : Grid) : (s.setGrid k x).devn = s.devn := rfl
@[simp] theorem State.setGrid_routes (s : State) (k : Nat) (x : Grid) : (s.setGrid k x).routes = s.routes := rfl
@[simp] theorem State.setGrid_hwbase (s : State) (k : Nat) (x : Grid) : (s.setGrid k x).hwbase = s.hwbase := rfl
@[simp] theorem State.setGrid_bar2 (s : State) (k : Nat) (x : Grid) : (s.setGrid k x).bar2 = s.bar2 := rfl
@[simp] theorem State.setGrid_fenced (s : State) (k : Nat) (x : Grid) : (s.setGrid k x).fenced = s.fenced := rfl
@[simp] theorem State.setGrid_shoots (s : State) (k : Nat) (x : Grid) : (s.setGrid k x).shoots = s.shoots := rfl
@[simp] theorem State.setGrid_shootTimeout (s : State) (k : Nat) (x : Grid) : (s.setGrid k x).shootTimeout = s.shootTimeout := rfl
@[simp] theorem State.setGrid_tags (s : State) (k : Nat) (x : Grid) : (s.setGrid k x).tags = s.tags := rfl
@[simp] theorem State.setGrid_nextTag (s : State) (k : Nat) (x : Grid) : (s.setGrid k x).nextTag = s.nextTag := rfl
@[simp] theorem State.setGrid_ownReads (s : State) (k : Nat) (x : Grid) : (s.setGrid k x).ownReads = s.ownReads := rfl
@[simp] theorem State.setGrid_ordered (s : State) (k : Nat) (x : Grid) : (s.setGrid k x).ordered = s.ordered := rfl
@[simp] theorem State.setGrid_held (s : State) (k : Nat) (x : Grid) : (s.setGrid k x).held = s.held := rfl
@[simp] theorem State.setGrid_reducers (s : State) (k : Nat) (x : Grid) : (s.setGrid k x).reducers = s.reducers := rfl
@[simp] theorem State.setGrid_discards (s : State) (k : Nat) (x : Grid) : (s.setGrid k x).discards = s.discards := rfl
@[simp] theorem State.setGrid_out (s : State) (k : Nat) (x : Grid) : (s.setGrid k x).out = s.out := rfl
@[simp] theorem State.setGrid_stalled (s : State) (k : Nat) (x : Grid) : (s.setGrid k x).stalled = s.stalled := rfl
@[simp] theorem State.setGrid_msix (s : State) (k : Nat) (x : Grid) : (s.setGrid k x).msix = s.msix := rfl
@[simp] theorem State.setGrid_hostData (s : State) (k : Nat) (x : Grid) : (s.setGrid k x).hostData = s.hostData := rfl
@[simp] theorem State.setGrid_log (s : State) (k : Nat) (x : Grid) : (s.setGrid k x).log = s.log := rfl
@[simp] theorem State.setGrid_reports (s : State) (k : Nat) (x : Grid) : (s.setGrid k x).reports = s.reports := rfl
@[simp] theorem State.setGrid_tfw (s : State) (k : Nat) (x : Grid) : (s.setGrid k x).tfw = s.tfw := rfl
@[simp] theorem State.setGrid_ufw (s : State) (k : Nat) (x : Grid) : (s.setGrid k x).ufw = s.ufw := rfl
@[simp] theorem State.setGrid_dbgu (s : State) (k : Nat) (x : Grid) : (s.setGrid k x).dbgu = s.dbgu := rfl
@[simp] theorem State.setGrid_grants (s : State) (k : Nat) (x : Grid) : (s.setGrid k x).grants = s.grants := rfl
@[simp] theorem State.setGrid_debugReply (s : State) (k : Nat) (x : Grid) : (s.setGrid k x).debugReply = s.debugReply := rfl

@[simp] theorem State.setCore_agenda (s : State) (k : Nat) (x : Core) : (s.setCore k x).agenda = s.agenda := rfl
@[simp] theorem State.setCore_apart (s : State) (k : Nat) (x : Core) : (s.setCore k x).apart = s.apart := rfl
@[simp] theorem State.setCore_cur (s : State) (k : Nat) (x : Core) : (s.setCore k x).cur = s.cur := rfl
@[simp] theorem State.setCore_curPath (s : State) (k : Nat) (x : Core) : (s.setCore k x).curPath = s.curPath := rfl
@[simp] theorem State.setCore_freeCtr (s : State) (k : Nat) (x : Core) : (s.setCore k x).freeCtr = s.freeCtr := rfl
@[simp] theorem State.setCore_cycle (s : State) (k : Nat) (x : Core) : (s.setCore k x).cycle = s.cycle := rfl
@[simp] theorem State.setCore_groups (s : State) (k : Nat) (x : Core) : (s.setCore k x).groups = s.groups := rfl
@[simp] theorem State.setCore_teams (s : State) (k : Nat) (x : Core) : (s.setCore k x).teams = s.teams := rfl
@[simp] theorem State.setCore_grids (s : State) (k : Nat) (x : Core) : (s.setCore k x).grids = s.grids := rfl
@[simp] theorem State.setCore_launches (s : State) (k : Nat) (x : Core) : (s.setCore k x).launches = s.launches := rfl
@[simp] theorem State.setCore_admissions (s : State) (k : Nat) (x : Core) : (s.setCore k x).admissions = s.admissions := rfl
@[simp] theorem State.setCore_holds (s : State) (k : Nat) (x : Core) : (s.setCore k x).holds = s.holds := rfl
@[simp] theorem State.setCore_steward (s : State) (k : Nat) (x : Core) : (s.setCore k x).steward = s.steward := rfl
@[simp] theorem State.setCore_mem (s : State) (k : Nat) (x : Core) : (s.setCore k x).mem = s.mem := rfl
@[simp] theorem State.setCore_hostMem (s : State) (k : Nat) (x : Core) : (s.setCore k x).hostMem = s.hostMem := rfl
@[simp] theorem State.setCore_glbl (s : State) (k : Nat) (x : Core) : (s.setCore k x).glbl = s.glbl := rfl
@[simp] theorem State.setCore_bad (s : State) (k : Nat) (x : Core) : (s.setCore k x).bad = s.bad := rfl
@[simp] theorem State.setCore_lines (s : State) (k : Nat) (x : Core) : (s.setCore k x).lines = s.lines := rfl
@[simp] theorem State.setCore_dieQ (s : State) (k : Nat) (x : Core) : (s.setCore k x).dieQ = s.dieQ := rfl
@[simp] theorem State.setCore_detsets (s : State) (k : Nat) (x : Core) : (s.setCore k x).detsets = s.detsets := rfl
@[simp] theorem State.setCore_extents (s : State) (k : Nat) (x : Core) : (s.setCore k x).extents = s.extents := rfl
@[simp] theorem State.setCore_owners (s : State) (k : Nat) (x : Core) : (s.setCore k x).owners = s.owners := rfl
@[simp] theorem State.setCore_dupMap (s : State) (k : Nat) (x : Core) : (s.setCore k x).dupMap = s.dupMap := rfl
@[simp] theorem State.setCore_dupHolders (s : State) (k : Nat) (x : Core) : (s.setCore k x).dupHolders = s.dupHolders := rfl
@[simp] theorem State.setCore_dupWaits (s : State) (k : Nat) (x : Core) : (s.setCore k x).dupWaits = s.dupWaits := rfl
@[simp] theorem State.setCore_ctxs (s : State) (k : Nat) (x : Core) : (s.setCore k x).ctxs = s.ctxs := rfl
@[simp] theorem State.setCore_tlb (s : State) (k : Nat) (x : Core) : (s.setCore k x).tlb = s.tlb := rfl
@[simp] theorem State.setCore_devn (s : State) (k : Nat) (x : Core) : (s.setCore k x).devn = s.devn := rfl
@[simp] theorem State.setCore_routes (s : State) (k : Nat) (x : Core) : (s.setCore k x).routes = s.routes := rfl
@[simp] theorem State.setCore_hwbase (s : State) (k : Nat) (x : Core) : (s.setCore k x).hwbase = s.hwbase := rfl
@[simp] theorem State.setCore_bar2 (s : State) (k : Nat) (x : Core) : (s.setCore k x).bar2 = s.bar2 := rfl
@[simp] theorem State.setCore_fenced (s : State) (k : Nat) (x : Core) : (s.setCore k x).fenced = s.fenced := rfl
@[simp] theorem State.setCore_shoots (s : State) (k : Nat) (x : Core) : (s.setCore k x).shoots = s.shoots := rfl
@[simp] theorem State.setCore_shootTimeout (s : State) (k : Nat) (x : Core) : (s.setCore k x).shootTimeout = s.shootTimeout := rfl
@[simp] theorem State.setCore_tags (s : State) (k : Nat) (x : Core) : (s.setCore k x).tags = s.tags := rfl
@[simp] theorem State.setCore_nextTag (s : State) (k : Nat) (x : Core) : (s.setCore k x).nextTag = s.nextTag := rfl
@[simp] theorem State.setCore_ownReads (s : State) (k : Nat) (x : Core) : (s.setCore k x).ownReads = s.ownReads := rfl
@[simp] theorem State.setCore_ordered (s : State) (k : Nat) (x : Core) : (s.setCore k x).ordered = s.ordered := rfl
@[simp] theorem State.setCore_held (s : State) (k : Nat) (x : Core) : (s.setCore k x).held = s.held := rfl
@[simp] theorem State.setCore_reducers (s : State) (k : Nat) (x : Core) : (s.setCore k x).reducers = s.reducers := rfl
@[simp] theorem State.setCore_discards (s : State) (k : Nat) (x : Core) : (s.setCore k x).discards = s.discards := rfl
@[simp] theorem State.setCore_out (s : State) (k : Nat) (x : Core) : (s.setCore k x).out = s.out := rfl
@[simp] theorem State.setCore_stalled (s : State) (k : Nat) (x : Core) : (s.setCore k x).stalled = s.stalled := rfl
@[simp] theorem State.setCore_msix (s : State) (k : Nat) (x : Core) : (s.setCore k x).msix = s.msix := rfl
@[simp] theorem State.setCore_hostData (s : State) (k : Nat) (x : Core) : (s.setCore k x).hostData = s.hostData := rfl
@[simp] theorem State.setCore_log (s : State) (k : Nat) (x : Core) : (s.setCore k x).log = s.log := rfl
@[simp] theorem State.setCore_reports (s : State) (k : Nat) (x : Core) : (s.setCore k x).reports = s.reports := rfl
@[simp] theorem State.setCore_tfw (s : State) (k : Nat) (x : Core) : (s.setCore k x).tfw = s.tfw := rfl
@[simp] theorem State.setCore_ufw (s : State) (k : Nat) (x : Core) : (s.setCore k x).ufw = s.ufw := rfl
@[simp] theorem State.setCore_dbgu (s : State) (k : Nat) (x : Core) : (s.setCore k x).dbgu = s.dbgu := rfl
@[simp] theorem State.setCore_grants (s : State) (k : Nat) (x : Core) : (s.setCore k x).grants = s.grants := rfl
@[simp] theorem State.setCore_debugReply (s : State) (k : Nat) (x : Core) : (s.setCore k x).debugReply = s.debugReply := rfl

@[simp] theorem State.writeMem_agenda (s : State) (la : Nat) (bs : List Byte) : (s.writeMem la bs).agenda = s.agenda := rfl
@[simp] theorem State.writeMem_apart (s : State) (la : Nat) (bs : List Byte) : (s.writeMem la bs).apart = s.apart := rfl
@[simp] theorem State.writeMem_cur (s : State) (la : Nat) (bs : List Byte) : (s.writeMem la bs).cur = s.cur := rfl
@[simp] theorem State.writeMem_curPath (s : State) (la : Nat) (bs : List Byte) : (s.writeMem la bs).curPath = s.curPath := rfl
@[simp] theorem State.writeMem_freeCtr (s : State) (la : Nat) (bs : List Byte) : (s.writeMem la bs).freeCtr = s.freeCtr := rfl
@[simp] theorem State.writeMem_cycle (s : State) (la : Nat) (bs : List Byte) : (s.writeMem la bs).cycle = s.cycle := rfl
@[simp] theorem State.writeMem_groups (s : State) (la : Nat) (bs : List Byte) : (s.writeMem la bs).groups = s.groups := rfl
@[simp] theorem State.writeMem_teams (s : State) (la : Nat) (bs : List Byte) : (s.writeMem la bs).teams = s.teams := rfl
@[simp] theorem State.writeMem_grids (s : State) (la : Nat) (bs : List Byte) : (s.writeMem la bs).grids = s.grids := rfl
@[simp] theorem State.writeMem_cores (s : State) (la : Nat) (bs : List Byte) : (s.writeMem la bs).cores = s.cores := rfl
@[simp] theorem State.writeMem_launches (s : State) (la : Nat) (bs : List Byte) : (s.writeMem la bs).launches = s.launches := rfl
@[simp] theorem State.writeMem_admissions (s : State) (la : Nat) (bs : List Byte) : (s.writeMem la bs).admissions = s.admissions := rfl
@[simp] theorem State.writeMem_holds (s : State) (la : Nat) (bs : List Byte) : (s.writeMem la bs).holds = s.holds := rfl
@[simp] theorem State.writeMem_steward (s : State) (la : Nat) (bs : List Byte) : (s.writeMem la bs).steward = s.steward := rfl
@[simp] theorem State.writeMem_hostMem (s : State) (la : Nat) (bs : List Byte) : (s.writeMem la bs).hostMem = s.hostMem := rfl
@[simp] theorem State.writeMem_glbl (s : State) (la : Nat) (bs : List Byte) : (s.writeMem la bs).glbl = s.glbl := rfl
@[simp] theorem State.writeMem_bad (s : State) (la : Nat) (bs : List Byte) : (s.writeMem la bs).bad = s.bad := rfl
@[simp] theorem State.writeMem_lines (s : State) (la : Nat) (bs : List Byte) : (s.writeMem la bs).lines = s.lines := rfl
@[simp] theorem State.writeMem_dieQ (s : State) (la : Nat) (bs : List Byte) : (s.writeMem la bs).dieQ = s.dieQ := rfl
@[simp] theorem State.writeMem_detsets (s : State) (la : Nat) (bs : List Byte) : (s.writeMem la bs).detsets = s.detsets := rfl
@[simp] theorem State.writeMem_extents (s : State) (la : Nat) (bs : List Byte) : (s.writeMem la bs).extents = s.extents := rfl
@[simp] theorem State.writeMem_owners (s : State) (la : Nat) (bs : List Byte) : (s.writeMem la bs).owners = s.owners := rfl
@[simp] theorem State.writeMem_dupMap (s : State) (la : Nat) (bs : List Byte) : (s.writeMem la bs).dupMap = s.dupMap := rfl
@[simp] theorem State.writeMem_dupHolders (s : State) (la : Nat) (bs : List Byte) : (s.writeMem la bs).dupHolders = s.dupHolders := rfl
@[simp] theorem State.writeMem_dupWaits (s : State) (la : Nat) (bs : List Byte) : (s.writeMem la bs).dupWaits = s.dupWaits := rfl
@[simp] theorem State.writeMem_ctxs (s : State) (la : Nat) (bs : List Byte) : (s.writeMem la bs).ctxs = s.ctxs := rfl
@[simp] theorem State.writeMem_tlb (s : State) (la : Nat) (bs : List Byte) : (s.writeMem la bs).tlb = s.tlb := rfl
@[simp] theorem State.writeMem_devn (s : State) (la : Nat) (bs : List Byte) : (s.writeMem la bs).devn = s.devn := rfl
@[simp] theorem State.writeMem_routes (s : State) (la : Nat) (bs : List Byte) : (s.writeMem la bs).routes = s.routes := rfl
@[simp] theorem State.writeMem_hwbase (s : State) (la : Nat) (bs : List Byte) : (s.writeMem la bs).hwbase = s.hwbase := rfl
@[simp] theorem State.writeMem_bar2 (s : State) (la : Nat) (bs : List Byte) : (s.writeMem la bs).bar2 = s.bar2 := rfl
@[simp] theorem State.writeMem_fenced (s : State) (la : Nat) (bs : List Byte) : (s.writeMem la bs).fenced = s.fenced := rfl
@[simp] theorem State.writeMem_shoots (s : State) (la : Nat) (bs : List Byte) : (s.writeMem la bs).shoots = s.shoots := rfl
@[simp] theorem State.writeMem_shootTimeout (s : State) (la : Nat) (bs : List Byte) : (s.writeMem la bs).shootTimeout = s.shootTimeout := rfl
@[simp] theorem State.writeMem_tags (s : State) (la : Nat) (bs : List Byte) : (s.writeMem la bs).tags = s.tags := rfl
@[simp] theorem State.writeMem_nextTag (s : State) (la : Nat) (bs : List Byte) : (s.writeMem la bs).nextTag = s.nextTag := rfl
@[simp] theorem State.writeMem_ownReads (s : State) (la : Nat) (bs : List Byte) : (s.writeMem la bs).ownReads = s.ownReads := rfl
@[simp] theorem State.writeMem_ordered (s : State) (la : Nat) (bs : List Byte) : (s.writeMem la bs).ordered = s.ordered := rfl
@[simp] theorem State.writeMem_held (s : State) (la : Nat) (bs : List Byte) : (s.writeMem la bs).held = s.held := rfl
@[simp] theorem State.writeMem_reducers (s : State) (la : Nat) (bs : List Byte) : (s.writeMem la bs).reducers = s.reducers := rfl
@[simp] theorem State.writeMem_discards (s : State) (la : Nat) (bs : List Byte) : (s.writeMem la bs).discards = s.discards := rfl
@[simp] theorem State.writeMem_out (s : State) (la : Nat) (bs : List Byte) : (s.writeMem la bs).out = s.out := rfl
@[simp] theorem State.writeMem_stalled (s : State) (la : Nat) (bs : List Byte) : (s.writeMem la bs).stalled = s.stalled := rfl
@[simp] theorem State.writeMem_msix (s : State) (la : Nat) (bs : List Byte) : (s.writeMem la bs).msix = s.msix := rfl
@[simp] theorem State.writeMem_hostData (s : State) (la : Nat) (bs : List Byte) : (s.writeMem la bs).hostData = s.hostData := rfl
@[simp] theorem State.writeMem_log (s : State) (la : Nat) (bs : List Byte) : (s.writeMem la bs).log = s.log := rfl
@[simp] theorem State.writeMem_reports (s : State) (la : Nat) (bs : List Byte) : (s.writeMem la bs).reports = s.reports := rfl
@[simp] theorem State.writeMem_tfw (s : State) (la : Nat) (bs : List Byte) : (s.writeMem la bs).tfw = s.tfw := rfl
@[simp] theorem State.writeMem_ufw (s : State) (la : Nat) (bs : List Byte) : (s.writeMem la bs).ufw = s.ufw := rfl
@[simp] theorem State.writeMem_dbgu (s : State) (la : Nat) (bs : List Byte) : (s.writeMem la bs).dbgu = s.dbgu := rfl
@[simp] theorem State.writeMem_grants (s : State) (la : Nat) (bs : List Byte) : (s.writeMem la bs).grants = s.grants := rfl
@[simp] theorem State.writeMem_debugReply (s : State) (la : Nat) (bs : List Byte) : (s.writeMem la bs).debugReply = s.debugReply := rfl

@[simp] theorem State.raiseLabel_agenda (s : State) (la : Nat) (l : Label) : (s.raiseLabel la l).agenda = s.agenda := rfl
@[simp] theorem State.raiseLabel_apart (s : State) (la : Nat) (l : Label) : (s.raiseLabel la l).apart = s.apart := rfl
@[simp] theorem State.raiseLabel_cur (s : State) (la : Nat) (l : Label) : (s.raiseLabel la l).cur = s.cur := rfl
@[simp] theorem State.raiseLabel_curPath (s : State) (la : Nat) (l : Label) : (s.raiseLabel la l).curPath = s.curPath := rfl
@[simp] theorem State.raiseLabel_freeCtr (s : State) (la : Nat) (l : Label) : (s.raiseLabel la l).freeCtr = s.freeCtr := rfl
@[simp] theorem State.raiseLabel_cycle (s : State) (la : Nat) (l : Label) : (s.raiseLabel la l).cycle = s.cycle := rfl
@[simp] theorem State.raiseLabel_groups (s : State) (la : Nat) (l : Label) : (s.raiseLabel la l).groups = s.groups := rfl
@[simp] theorem State.raiseLabel_teams (s : State) (la : Nat) (l : Label) : (s.raiseLabel la l).teams = s.teams := rfl
@[simp] theorem State.raiseLabel_grids (s : State) (la : Nat) (l : Label) : (s.raiseLabel la l).grids = s.grids := rfl
@[simp] theorem State.raiseLabel_cores (s : State) (la : Nat) (l : Label) : (s.raiseLabel la l).cores = s.cores := rfl
@[simp] theorem State.raiseLabel_launches (s : State) (la : Nat) (l : Label) : (s.raiseLabel la l).launches = s.launches := rfl
@[simp] theorem State.raiseLabel_admissions (s : State) (la : Nat) (l : Label) : (s.raiseLabel la l).admissions = s.admissions := rfl
@[simp] theorem State.raiseLabel_holds (s : State) (la : Nat) (l : Label) : (s.raiseLabel la l).holds = s.holds := rfl
@[simp] theorem State.raiseLabel_steward (s : State) (la : Nat) (l : Label) : (s.raiseLabel la l).steward = s.steward := rfl
@[simp] theorem State.raiseLabel_mem (s : State) (la : Nat) (l : Label) : (s.raiseLabel la l).mem = s.mem := rfl
@[simp] theorem State.raiseLabel_hostMem (s : State) (la : Nat) (l : Label) : (s.raiseLabel la l).hostMem = s.hostMem := rfl
@[simp] theorem State.raiseLabel_bad (s : State) (la : Nat) (l : Label) : (s.raiseLabel la l).bad = s.bad := rfl
@[simp] theorem State.raiseLabel_lines (s : State) (la : Nat) (l : Label) : (s.raiseLabel la l).lines = s.lines := rfl
@[simp] theorem State.raiseLabel_dieQ (s : State) (la : Nat) (l : Label) : (s.raiseLabel la l).dieQ = s.dieQ := rfl
@[simp] theorem State.raiseLabel_detsets (s : State) (la : Nat) (l : Label) : (s.raiseLabel la l).detsets = s.detsets := rfl
@[simp] theorem State.raiseLabel_extents (s : State) (la : Nat) (l : Label) : (s.raiseLabel la l).extents = s.extents := rfl
@[simp] theorem State.raiseLabel_owners (s : State) (la : Nat) (l : Label) : (s.raiseLabel la l).owners = s.owners := rfl
@[simp] theorem State.raiseLabel_dupMap (s : State) (la : Nat) (l : Label) : (s.raiseLabel la l).dupMap = s.dupMap := rfl
@[simp] theorem State.raiseLabel_dupHolders (s : State) (la : Nat) (l : Label) : (s.raiseLabel la l).dupHolders = s.dupHolders := rfl
@[simp] theorem State.raiseLabel_dupWaits (s : State) (la : Nat) (l : Label) : (s.raiseLabel la l).dupWaits = s.dupWaits := rfl
@[simp] theorem State.raiseLabel_ctxs (s : State) (la : Nat) (l : Label) : (s.raiseLabel la l).ctxs = s.ctxs := rfl
@[simp] theorem State.raiseLabel_tlb (s : State) (la : Nat) (l : Label) : (s.raiseLabel la l).tlb = s.tlb := rfl
@[simp] theorem State.raiseLabel_devn (s : State) (la : Nat) (l : Label) : (s.raiseLabel la l).devn = s.devn := rfl
@[simp] theorem State.raiseLabel_routes (s : State) (la : Nat) (l : Label) : (s.raiseLabel la l).routes = s.routes := rfl
@[simp] theorem State.raiseLabel_hwbase (s : State) (la : Nat) (l : Label) : (s.raiseLabel la l).hwbase = s.hwbase := rfl
@[simp] theorem State.raiseLabel_bar2 (s : State) (la : Nat) (l : Label) : (s.raiseLabel la l).bar2 = s.bar2 := rfl
@[simp] theorem State.raiseLabel_fenced (s : State) (la : Nat) (l : Label) : (s.raiseLabel la l).fenced = s.fenced := rfl
@[simp] theorem State.raiseLabel_shoots (s : State) (la : Nat) (l : Label) : (s.raiseLabel la l).shoots = s.shoots := rfl
@[simp] theorem State.raiseLabel_shootTimeout (s : State) (la : Nat) (l : Label) : (s.raiseLabel la l).shootTimeout = s.shootTimeout := rfl
@[simp] theorem State.raiseLabel_tags (s : State) (la : Nat) (l : Label) : (s.raiseLabel la l).tags = s.tags := rfl
@[simp] theorem State.raiseLabel_nextTag (s : State) (la : Nat) (l : Label) : (s.raiseLabel la l).nextTag = s.nextTag := rfl
@[simp] theorem State.raiseLabel_ownReads (s : State) (la : Nat) (l : Label) : (s.raiseLabel la l).ownReads = s.ownReads := rfl
@[simp] theorem State.raiseLabel_ordered (s : State) (la : Nat) (l : Label) : (s.raiseLabel la l).ordered = s.ordered := rfl
@[simp] theorem State.raiseLabel_held (s : State) (la : Nat) (l : Label) : (s.raiseLabel la l).held = s.held := rfl
@[simp] theorem State.raiseLabel_reducers (s : State) (la : Nat) (l : Label) : (s.raiseLabel la l).reducers = s.reducers := rfl
@[simp] theorem State.raiseLabel_discards (s : State) (la : Nat) (l : Label) : (s.raiseLabel la l).discards = s.discards := rfl
@[simp] theorem State.raiseLabel_out (s : State) (la : Nat) (l : Label) : (s.raiseLabel la l).out = s.out := rfl
@[simp] theorem State.raiseLabel_stalled (s : State) (la : Nat) (l : Label) : (s.raiseLabel la l).stalled = s.stalled := rfl
@[simp] theorem State.raiseLabel_msix (s : State) (la : Nat) (l : Label) : (s.raiseLabel la l).msix = s.msix := rfl
@[simp] theorem State.raiseLabel_hostData (s : State) (la : Nat) (l : Label) : (s.raiseLabel la l).hostData = s.hostData := rfl
@[simp] theorem State.raiseLabel_log (s : State) (la : Nat) (l : Label) : (s.raiseLabel la l).log = s.log := rfl
@[simp] theorem State.raiseLabel_reports (s : State) (la : Nat) (l : Label) : (s.raiseLabel la l).reports = s.reports := rfl
@[simp] theorem State.raiseLabel_tfw (s : State) (la : Nat) (l : Label) : (s.raiseLabel la l).tfw = s.tfw := rfl
@[simp] theorem State.raiseLabel_ufw (s : State) (la : Nat) (l : Label) : (s.raiseLabel la l).ufw = s.ufw := rfl
@[simp] theorem State.raiseLabel_dbgu (s : State) (la : Nat) (l : Label) : (s.raiseLabel la l).dbgu = s.dbgu := rfl
@[simp] theorem State.raiseLabel_grants (s : State) (la : Nat) (l : Label) : (s.raiseLabel la l).grants = s.grants := rfl
@[simp] theorem State.raiseLabel_debugReply (s : State) (la : Nat) (l : Label) : (s.raiseLabel la l).debugReply = s.debugReply := rfl

/-! ## The fields of a group after the updates of its address slice -/

@[simp] theorem Group.setSreg_gidx (g : Group) (r : SRegNo) (v : SVal) : (g.setSreg r v).gidx = g.gidx := by
  unfold Group.setSreg; split <;> rfl
@[simp] theorem Group.setSreg_lanes (g : Group) (r : SRegNo) (v : SVal) : (g.setSreg r v).lanes = g.lanes := by
  unfold Group.setSreg; split <;> rfl
@[simp] theorem Group.setSreg_nvregs (g : Group) (r : SRegNo) (v : SVal) : (g.setSreg r v).nvregs = g.nvregs := by
  unfold Group.setSreg; split <;> rfl
@[simp] theorem Group.setSreg_role (g : Group) (r : SRegNo) (v : SVal) : (g.setSreg r v).role = g.role := by
  unfold Group.setSreg; split <;> rfl
@[simp] theorem Group.setSreg_sched (g : Group) (r : SRegNo) (v : SVal) : (g.setSreg r v).sched = g.sched := by
  unfold Group.setSreg; split <;> rfl
@[simp] theorem Group.setSreg_slot (g : Group) (r : SRegNo) (v : SVal) : (g.setSreg r v).slot = g.slot := by
  unfold Group.setSreg; split <;> rfl
@[simp] theorem Group.setSreg_apc (g : Group) (r : SRegNo) (v : SVal) : (g.setSreg r v).apc = g.apc := by
  unfold Group.setSreg; split <;> rfl
@[simp] theorem Group.setSreg_halted (g : Group) (r : SRegNo) (v : SVal) : (g.setSreg r v).halted = g.halted := by
  unfold Group.setSreg; split <;> rfl
@[simp] theorem Group.setSreg_astopped (g : Group) (r : SRegNo) (v : SVal) : (g.setSreg r v).astopped = g.astopped := by
  unfold Group.setSreg; split <;> rfl
@[simp] theorem Group.setSreg_ra (g : Group) (r : SRegNo) (v : SVal) : (g.setSreg r v).ra = g.ra := by
  unfold Group.setSreg; split <;> rfl
@[simp] theorem Group.setSreg_await (g : Group) (r : SRegNo) (v : SVal) : (g.setSreg r v).await = g.await := by
  unfold Group.setSreg; split <;> rfl
@[simp] theorem Group.setSreg_apath (g : Group) (r : SRegNo) (v : SVal) : (g.setSreg r v).apath = g.apath := by
  unfold Group.setSreg; split <;> rfl
@[simp] theorem Group.setSreg_slip (g : Group) (r : SRegNo) (v : SVal) : (g.setSreg r v).slip = g.slip := by
  unfold Group.setSreg; split <;> rfl
@[simp] theorem Group.setSreg_early (g : Group) (r : SRegNo) (v : SVal) : (g.setSreg r v).early = g.early := by
  unfold Group.setSreg; split <;> rfl
@[simp] theorem Group.setSreg_lqs (g : Group) (r : SRegNo) (v : SVal) : (g.setSreg r v).lqs = g.lqs := by
  unfold Group.setSreg; split <;> rfl
@[simp] theorem Group.setSreg_saq (g : Group) (r : SRegNo) (v : SVal) : (g.setSreg r v).saq = g.saq := by
  unfold Group.setSreg; split <;> rfl
@[simp] theorem Group.setSreg_sdqBase (g : Group) (r : SRegNo) (v : SVal) : (g.setSreg r v).sdqBase = g.sdqBase := by
  unfold Group.setSreg; split <;> rfl
@[simp] theorem Group.setSreg_sdq (g : Group) (r : SRegNo) (v : SVal) : (g.setSreg r v).sdq = g.sdq := by
  unfold Group.setSreg; split <;> rfl
@[simp] theorem Group.setSreg_ca (g : Group) (r : SRegNo) (v : SVal) : (g.setSreg r v).ca = g.ca := by
  unfold Group.setSreg; split <;> rfl
@[simp] theorem Group.setSreg_caOrd (g : Group) (r : SRegNo) (v : SVal) : (g.setSreg r v).caOrd = g.caOrd := by
  unfold Group.setSreg; split <;> rfl
@[simp] theorem Group.setSreg_rqBase (g : Group) (r : SRegNo) (v : SVal) : (g.setSreg r v).rqBase = g.rqBase := by
  unfold Group.setSreg; split <;> rfl
@[simp] theorem Group.setSreg_rq (g : Group) (r : SRegNo) (v : SVal) : (g.setSreg r v).rq = g.rq := by
  unfold Group.setSreg; split <;> rfl
@[simp] theorem Group.setSreg_runs (g : Group) (r : SRegNo) (v : SVal) : (g.setSreg r v).runs = g.runs := by
  unfold Group.setSreg; split <;> rfl
@[simp] theorem Group.setSreg_cstopped (g : Group) (r : SRegNo) (v : SVal) : (g.setSreg r v).cstopped = g.cstopped := by
  unfold Group.setSreg; split <;> rfl
@[simp] theorem Group.setSreg_vregs (g : Group) (r : SRegNo) (v : SVal) : (g.setSreg r v).vregs = g.vregs := by
  unfold Group.setSreg; split <;> rfl
@[simp] theorem Group.setSreg_temps (g : Group) (r : SRegNo) (v : SVal) : (g.setSreg r v).temps = g.temps := by
  unfold Group.setSreg; split <;> rfl
@[simp] theorem Group.setSreg_preds (g : Group) (r : SRegNo) (v : SVal) : (g.setSreg r v).preds = g.preds := by
  unfold Group.setSreg; split <;> rfl
@[simp] theorem Group.setSreg_tilew (g : Group) (r : SRegNo) (v : SVal) : (g.setSreg r v).tilew = g.tilew := by
  unfold Group.setSreg; split <;> rfl
@[simp] theorem Group.setSreg_quads (g : Group) (r : SRegNo) (v : SVal) : (g.setSreg r v).quads = g.quads := by
  unfold Group.setSreg; split <;> rfl
@[simp] theorem Group.setSreg_paths (g : Group) (r : SRegNo) (v : SVal) : (g.setSreg r v).paths = g.paths := by
  unfold Group.setSreg; split <;> rfl
@[simp] theorem Group.setSreg_fx (g : Group) (r : SRegNo) (v : SVal) : (g.setSreg r v).fx = g.fx := by
  unfold Group.setSreg; split <;> rfl
@[simp] theorem Group.setSreg_carv (g : Group) (r : SRegNo) (v : SVal) : (g.setSreg r v).carv = g.carv := by
  unfold Group.setSreg; split <;> rfl
@[simp] theorem Group.setSreg_carvBase (g : Group) (r : SRegNo) (v : SVal) : (g.setSreg r v).carvBase = g.carvBase := by
  unfold Group.setSreg; split <;> rfl
@[simp] theorem Group.setSreg_ops (g : Group) (r : SRegNo) (v : SVal) : (g.setSreg r v).ops = g.ops := by
  unfold Group.setSreg; split <;> rfl
@[simp] theorem Group.setSreg_nextOp (g : Group) (r : SRegNo) (v : SVal) : (g.setSreg r v).nextOp = g.nextOp := by
  unfold Group.setSreg; split <;> rfl
@[simp] theorem Group.setSreg_fcs (g : Group) (r : SRegNo) (v : SVal) : (g.setSreg r v).fcs = g.fcs := by
  unfold Group.setSreg; split <;> rfl
@[simp] theorem Group.setSreg_ageA (g : Group) (r : SRegNo) (v : SVal) : (g.setSreg r v).ageA = g.ageA := by
  unfold Group.setSreg; split <;> rfl
@[simp] theorem Group.setSreg_ageC (g : Group) (r : SRegNo) (v : SVal) : (g.setSreg r v).ageC = g.ageC := by
  unfold Group.setSreg; split <;> rfl
@[simp] theorem Group.setSreg_runSeq (g : Group) (r : SRegNo) (v : SVal) : (g.setSreg r v).runSeq = g.runSeq := by
  unfold Group.setSreg; split <;> rfl
@[simp] theorem Group.setSreg_hint (g : Group) (r : SRegNo) (v : SVal) : (g.setSreg r v).hint = g.hint := by
  unfold Group.setSreg; split <;> rfl
@[simp] theorem Group.setSreg_atYield (g : Group) (r : SRegNo) (v : SVal) : (g.setSreg r v).atYield = g.atYield := by
  unfold Group.setSreg; split <;> rfl
@[simp] theorem Group.setSreg_aret (g : Group) (r : SRegNo) (v : SVal) : (g.setSreg r v).aret = g.aret := by
  unfold Group.setSreg; split <;> rfl
@[simp] theorem Group.setSreg_cret (g : Group) (r : SRegNo) (v : SVal) : (g.setSreg r v).cret = g.cret := by
  unfold Group.setSreg; split <;> rfl
@[simp] theorem Group.setSreg_skid (g : Group) (r : SRegNo) (v : SVal) : (g.setSreg r v).skid = g.skid := by
  unfold Group.setSreg; split <;> rfl
@[simp] theorem Group.setSreg_lastIssue (g : Group) (r : SRegNo) (v : SVal) : (g.setSreg r v).lastIssue = g.lastIssue := by
  unfold Group.setSreg; split <;> rfl
@[simp] theorem Group.setSreg_fault (g : Group) (r : SRegNo) (v : SVal) : (g.setSreg r v).fault = g.fault := by
  unfold Group.setSreg; split <;> rfl
@[simp] theorem Group.setSreg_lostFault (g : Group) (r : SRegNo) (v : SVal) : (g.setSreg r v).lostFault = g.lostFault := by
  unfold Group.setSreg; split <;> rfl
@[simp] theorem Group.setSreg_storeFail (g : Group) (r : SRegNo) (v : SVal) : (g.setSreg r v).storeFail = g.storeFail := by
  unfold Group.setSreg; split <;> rfl
@[simp] theorem Group.setSreg_finished (g : Group) (r : SRegNo) (v : SVal) : (g.setSreg r v).finished = g.finished := by
  unfold Group.setSreg; split <;> rfl
@[simp] theorem Group.setSreg_stepArmed (g : Group) (r : SRegNo) (v : SVal) : (g.setSreg r v).stepArmed = g.stepArmed := by
  unfold Group.setSreg; split <;> rfl
@[simp] theorem Group.setSreg_stepDrain (g : Group) (r : SRegNo) (v : SVal) : (g.setSreg r v).stepDrain = g.stepDrain := by
  unfold Group.setSreg; split <;> rfl
@[simp] theorem Group.setSreg_stepStopped (g : Group) (r : SRegNo) (v : SVal) : (g.setSreg r v).stepStopped = g.stepStopped := by
  unfold Group.setSreg; split <;> rfl
@[simp] theorem Group.setSreg_aheld (g : Group) (r : SRegNo) (v : SVal) : (g.setSreg r v).aheld = g.aheld := by
  unfold Group.setSreg; split <;> rfl
@[simp] theorem Group.setSreg_apass (g : Group) (r : SRegNo) (v : SVal) : (g.setSreg r v).apass = g.apass := by
  unfold Group.setSreg; split <;> rfl

@[simp] theorem Group.advance_gidx (g : Group) (n : Nat) : (g.advance n).gidx = g.gidx := rfl
@[simp] theorem Group.advance_lanes (g : Group) (n : Nat) : (g.advance n).lanes = g.lanes := rfl
@[simp] theorem Group.advance_nvregs (g : Group) (n : Nat) : (g.advance n).nvregs = g.nvregs := rfl
@[simp] theorem Group.advance_role (g : Group) (n : Nat) : (g.advance n).role = g.role := rfl
@[simp] theorem Group.advance_sched (g : Group) (n : Nat) : (g.advance n).sched = g.sched := rfl
@[simp] theorem Group.advance_slot (g : Group) (n : Nat) : (g.advance n).slot = g.slot := rfl
@[simp] theorem Group.advance_halted (g : Group) (n : Nat) : (g.advance n).halted = g.halted := rfl
@[simp] theorem Group.advance_astopped (g : Group) (n : Nat) : (g.advance n).astopped = g.astopped := rfl
@[simp] theorem Group.advance_ra (g : Group) (n : Nat) : (g.advance n).ra = g.ra := rfl
@[simp] theorem Group.advance_sregs (g : Group) (n : Nat) : (g.advance n).sregs = g.sregs := rfl
@[simp] theorem Group.advance_apath (g : Group) (n : Nat) : (g.advance n).apath = g.apath := rfl
@[simp] theorem Group.advance_slip (g : Group) (n : Nat) : (g.advance n).slip = g.slip := rfl
@[simp] theorem Group.advance_early (g : Group) (n : Nat) : (g.advance n).early = g.early := rfl
@[simp] theorem Group.advance_lqs (g : Group) (n : Nat) : (g.advance n).lqs = g.lqs := rfl
@[simp] theorem Group.advance_saq (g : Group) (n : Nat) : (g.advance n).saq = g.saq := rfl
@[simp] theorem Group.advance_sdqBase (g : Group) (n : Nat) : (g.advance n).sdqBase = g.sdqBase := rfl
@[simp] theorem Group.advance_sdq (g : Group) (n : Nat) : (g.advance n).sdq = g.sdq := rfl
@[simp] theorem Group.advance_ca (g : Group) (n : Nat) : (g.advance n).ca = g.ca := rfl
@[simp] theorem Group.advance_caOrd (g : Group) (n : Nat) : (g.advance n).caOrd = g.caOrd := rfl
@[simp] theorem Group.advance_rqBase (g : Group) (n : Nat) : (g.advance n).rqBase = g.rqBase := rfl
@[simp] theorem Group.advance_rq (g : Group) (n : Nat) : (g.advance n).rq = g.rq := rfl
@[simp] theorem Group.advance_runs (g : Group) (n : Nat) : (g.advance n).runs = g.runs := rfl
@[simp] theorem Group.advance_cstopped (g : Group) (n : Nat) : (g.advance n).cstopped = g.cstopped := rfl
@[simp] theorem Group.advance_vregs (g : Group) (n : Nat) : (g.advance n).vregs = g.vregs := rfl
@[simp] theorem Group.advance_temps (g : Group) (n : Nat) : (g.advance n).temps = g.temps := rfl
@[simp] theorem Group.advance_preds (g : Group) (n : Nat) : (g.advance n).preds = g.preds := rfl
@[simp] theorem Group.advance_tilew (g : Group) (n : Nat) : (g.advance n).tilew = g.tilew := rfl
@[simp] theorem Group.advance_quads (g : Group) (n : Nat) : (g.advance n).quads = g.quads := rfl
@[simp] theorem Group.advance_paths (g : Group) (n : Nat) : (g.advance n).paths = g.paths := rfl
@[simp] theorem Group.advance_fx (g : Group) (n : Nat) : (g.advance n).fx = g.fx := rfl
@[simp] theorem Group.advance_carv (g : Group) (n : Nat) : (g.advance n).carv = g.carv := rfl
@[simp] theorem Group.advance_carvBase (g : Group) (n : Nat) : (g.advance n).carvBase = g.carvBase := rfl
@[simp] theorem Group.advance_ops (g : Group) (n : Nat) : (g.advance n).ops = g.ops := rfl
@[simp] theorem Group.advance_nextOp (g : Group) (n : Nat) : (g.advance n).nextOp = g.nextOp := rfl
@[simp] theorem Group.advance_fcs (g : Group) (n : Nat) : (g.advance n).fcs = g.fcs := rfl
@[simp] theorem Group.advance_ageC (g : Group) (n : Nat) : (g.advance n).ageC = g.ageC := rfl
@[simp] theorem Group.advance_runSeq (g : Group) (n : Nat) : (g.advance n).runSeq = g.runSeq := rfl
@[simp] theorem Group.advance_hint (g : Group) (n : Nat) : (g.advance n).hint = g.hint := rfl
@[simp] theorem Group.advance_atYield (g : Group) (n : Nat) : (g.advance n).atYield = g.atYield := rfl
@[simp] theorem Group.advance_cret (g : Group) (n : Nat) : (g.advance n).cret = g.cret := rfl
@[simp] theorem Group.advance_skid (g : Group) (n : Nat) : (g.advance n).skid = g.skid := rfl
@[simp] theorem Group.advance_lastIssue (g : Group) (n : Nat) : (g.advance n).lastIssue = g.lastIssue := rfl
@[simp] theorem Group.advance_fault (g : Group) (n : Nat) : (g.advance n).fault = g.fault := rfl
@[simp] theorem Group.advance_lostFault (g : Group) (n : Nat) : (g.advance n).lostFault = g.lostFault := rfl
@[simp] theorem Group.advance_storeFail (g : Group) (n : Nat) : (g.advance n).storeFail = g.storeFail := rfl
@[simp] theorem Group.advance_finished (g : Group) (n : Nat) : (g.advance n).finished = g.finished := rfl
@[simp] theorem Group.advance_stepArmed (g : Group) (n : Nat) : (g.advance n).stepArmed = g.stepArmed := rfl
@[simp] theorem Group.advance_stepDrain (g : Group) (n : Nat) : (g.advance n).stepDrain = g.stepDrain := rfl
@[simp] theorem Group.advance_stepStopped (g : Group) (n : Nat) : (g.advance n).stepStopped = g.stepStopped := rfl
@[simp] theorem Group.advance_aheld (g : Group) (n : Nat) : (g.advance n).aheld = g.aheld := rfl

@[simp] theorem Group.jump_gidx (g : Group) (t : DWord) : (g.jump t).gidx = g.gidx := rfl
@[simp] theorem Group.jump_lanes (g : Group) (t : DWord) : (g.jump t).lanes = g.lanes := rfl
@[simp] theorem Group.jump_nvregs (g : Group) (t : DWord) : (g.jump t).nvregs = g.nvregs := rfl
@[simp] theorem Group.jump_role (g : Group) (t : DWord) : (g.jump t).role = g.role := rfl
@[simp] theorem Group.jump_sched (g : Group) (t : DWord) : (g.jump t).sched = g.sched := rfl
@[simp] theorem Group.jump_slot (g : Group) (t : DWord) : (g.jump t).slot = g.slot := rfl
@[simp] theorem Group.jump_halted (g : Group) (t : DWord) : (g.jump t).halted = g.halted := rfl
@[simp] theorem Group.jump_astopped (g : Group) (t : DWord) : (g.jump t).astopped = g.astopped := rfl
@[simp] theorem Group.jump_ra (g : Group) (t : DWord) : (g.jump t).ra = g.ra := rfl
@[simp] theorem Group.jump_sregs (g : Group) (t : DWord) : (g.jump t).sregs = g.sregs := rfl
@[simp] theorem Group.jump_apath (g : Group) (t : DWord) : (g.jump t).apath = g.apath := rfl
@[simp] theorem Group.jump_slip (g : Group) (t : DWord) : (g.jump t).slip = g.slip := rfl
@[simp] theorem Group.jump_early (g : Group) (t : DWord) : (g.jump t).early = g.early := rfl
@[simp] theorem Group.jump_lqs (g : Group) (t : DWord) : (g.jump t).lqs = g.lqs := rfl
@[simp] theorem Group.jump_saq (g : Group) (t : DWord) : (g.jump t).saq = g.saq := rfl
@[simp] theorem Group.jump_sdqBase (g : Group) (t : DWord) : (g.jump t).sdqBase = g.sdqBase := rfl
@[simp] theorem Group.jump_sdq (g : Group) (t : DWord) : (g.jump t).sdq = g.sdq := rfl
@[simp] theorem Group.jump_ca (g : Group) (t : DWord) : (g.jump t).ca = g.ca := rfl
@[simp] theorem Group.jump_caOrd (g : Group) (t : DWord) : (g.jump t).caOrd = g.caOrd := rfl
@[simp] theorem Group.jump_rqBase (g : Group) (t : DWord) : (g.jump t).rqBase = g.rqBase := rfl
@[simp] theorem Group.jump_rq (g : Group) (t : DWord) : (g.jump t).rq = g.rq := rfl
@[simp] theorem Group.jump_runs (g : Group) (t : DWord) : (g.jump t).runs = g.runs := rfl
@[simp] theorem Group.jump_cstopped (g : Group) (t : DWord) : (g.jump t).cstopped = g.cstopped := rfl
@[simp] theorem Group.jump_vregs (g : Group) (t : DWord) : (g.jump t).vregs = g.vregs := rfl
@[simp] theorem Group.jump_temps (g : Group) (t : DWord) : (g.jump t).temps = g.temps := rfl
@[simp] theorem Group.jump_preds (g : Group) (t : DWord) : (g.jump t).preds = g.preds := rfl
@[simp] theorem Group.jump_tilew (g : Group) (t : DWord) : (g.jump t).tilew = g.tilew := rfl
@[simp] theorem Group.jump_quads (g : Group) (t : DWord) : (g.jump t).quads = g.quads := rfl
@[simp] theorem Group.jump_paths (g : Group) (t : DWord) : (g.jump t).paths = g.paths := rfl
@[simp] theorem Group.jump_fx (g : Group) (t : DWord) : (g.jump t).fx = g.fx := rfl
@[simp] theorem Group.jump_carv (g : Group) (t : DWord) : (g.jump t).carv = g.carv := rfl
@[simp] theorem Group.jump_carvBase (g : Group) (t : DWord) : (g.jump t).carvBase = g.carvBase := rfl
@[simp] theorem Group.jump_ops (g : Group) (t : DWord) : (g.jump t).ops = g.ops := rfl
@[simp] theorem Group.jump_nextOp (g : Group) (t : DWord) : (g.jump t).nextOp = g.nextOp := rfl
@[simp] theorem Group.jump_fcs (g : Group) (t : DWord) : (g.jump t).fcs = g.fcs := rfl
@[simp] theorem Group.jump_ageC (g : Group) (t : DWord) : (g.jump t).ageC = g.ageC := rfl
@[simp] theorem Group.jump_runSeq (g : Group) (t : DWord) : (g.jump t).runSeq = g.runSeq := rfl
@[simp] theorem Group.jump_hint (g : Group) (t : DWord) : (g.jump t).hint = g.hint := rfl
@[simp] theorem Group.jump_atYield (g : Group) (t : DWord) : (g.jump t).atYield = g.atYield := rfl
@[simp] theorem Group.jump_cret (g : Group) (t : DWord) : (g.jump t).cret = g.cret := rfl
@[simp] theorem Group.jump_skid (g : Group) (t : DWord) : (g.jump t).skid = g.skid := rfl
@[simp] theorem Group.jump_lastIssue (g : Group) (t : DWord) : (g.jump t).lastIssue = g.lastIssue := rfl
@[simp] theorem Group.jump_fault (g : Group) (t : DWord) : (g.jump t).fault = g.fault := rfl
@[simp] theorem Group.jump_lostFault (g : Group) (t : DWord) : (g.jump t).lostFault = g.lostFault := rfl
@[simp] theorem Group.jump_storeFail (g : Group) (t : DWord) : (g.jump t).storeFail = g.storeFail := rfl
@[simp] theorem Group.jump_finished (g : Group) (t : DWord) : (g.jump t).finished = g.finished := rfl
@[simp] theorem Group.jump_stepArmed (g : Group) (t : DWord) : (g.jump t).stepArmed = g.stepArmed := rfl
@[simp] theorem Group.jump_stepDrain (g : Group) (t : DWord) : (g.jump t).stepDrain = g.stepDrain := rfl
@[simp] theorem Group.jump_stepStopped (g : Group) (t : DWord) : (g.jump t).stepStopped = g.stepStopped := rfl
@[simp] theorem Group.jump_aheld (g : Group) (t : DWord) : (g.jump t).aheld = g.aheld := rfl

@[simp] theorem Group.advance_apc (g : Group) (n : Nat) : (g.advance n).apc = g.apc + BitVec.ofNat 64 n := rfl
@[simp] theorem Group.advance_aret (g : Group) (n : Nat) : (g.advance n).aret = g.aret + 1 := rfl
@[simp] theorem Group.advance_await (g : Group) (n : Nat) : (g.advance n).await = none := rfl
@[simp] theorem Group.advance_apass (g : Group) (n : Nat) : (g.advance n).apass = false := rfl
@[simp] theorem Group.advance_ageA (g : Group) (n : Nat) : (g.advance n).ageA = 0 := rfl
@[simp] theorem Group.jump_apc (g : Group) (t : DWord) : (g.jump t).apc = t := rfl
@[simp] theorem Group.jump_aret (g : Group) (t : DWord) : (g.jump t).aret = g.aret + 1 := rfl
@[simp] theorem Group.jump_await (g : Group) (t : DWord) : (g.jump t).await = none := rfl
@[simp] theorem Group.jump_apass (g : Group) (t : DWord) : (g.jump t).apass = false := rfl
@[simp] theorem Group.jump_ageA (g : Group) (t : DWord) : (g.jump t).ageA = 0 := rfl

/-! ## What the accessors read after a write -/

@[simp] theorem State.group_setGroup (s : State) (k : Nat) (g : Group) : (s.setGroup k g).group k = g :=
  Tab.get_put_self ..

theorem State.group_setGroup_ne (s : State) {k j : Nat} (g : Group) (h : j ≠ k) : (s.setGroup k g).group j = s.group j :=
  Tab.get_put_ne _ _ _ h

@[simp] theorem State.grp_setGrp (s : State) (g : Group) : (s.setGrp g).grp = g := Tab.get_put_self ..

theorem State.group_setGrp_ne (s : State) {j : Nat} (g : Group) (h : j ≠ s.cur) : (s.setGrp g).group j = s.group j :=
  Tab.get_put_ne _ _ _ h

@[simp] theorem State.group_setTeam (s : State) (t k : Nat) (x : Team) : (s.setTeam t x).group k = s.group k := rfl
@[simp] theorem State.grp_setTeam (s : State) (t : Nat) (x : Team) : (s.setTeam t x).grp = s.grp := rfl
@[simp] theorem State.grp_setTm (s : State) (x : Team) : (s.setTm x).grp = s.grp := rfl
@[simp] theorem State.group_writeMem (s : State) (la : Nat) (bs : List Byte) (k : Nat) : (s.writeMem la bs).group k = s.group k := rfl
@[simp] theorem State.grp_writeMem (s : State) (la : Nat) (bs : List Byte) : (s.writeMem la bs).grp = s.grp := rfl

@[simp] theorem State.team_setTeam (s : State) (t : Nat) (x : Team) : (s.setTeam t x).team t = x := Tab.get_put_self ..

theorem State.team_setTeam_ne (s : State) {t j : Nat} (x : Team) (h : j ≠ t) : (s.setTeam t x).team j = s.team j :=
  Tab.get_put_ne _ _ _ h

@[simp] theorem State.tm_setTm (s : State) (x : Team) : (s.setTm x).tm = x := Tab.get_put_self ..
@[simp] theorem State.team_setGroup (s : State) (k t : Nat) (g : Group) : (s.setGroup k g).team t = s.team t := rfl
@[simp] theorem State.tm_setGroup (s : State) (k : Nat) (g : Group) : (s.setGroup k g).tm = s.tm := rfl
@[simp] theorem State.tm_setGrp (s : State) (g : Group) : (s.setGrp g).tm = s.tm := rfl
@[simp] theorem State.grid_setGrid (s : State) (n : Nat) (x : Grid) : (s.setGrid n x).grid n = x := Tab.get_put_self ..
@[simp] theorem State.grid_setGroup (s : State) (k n : Nat) (g : Group) : (s.setGroup k g).grid n = s.grid n := rfl
@[simp] theorem State.core_setCore (s : State) (n : Nat) (x : Core) : (s.setCore n x).core n = x := Tab.get_put_self ..

/-- s0 reads as zero with the empty label (R12). -/
@[simp] theorem Group.sreg_zero (g : Group) : g.sreg 0#6 = {} := by simp [Group.sreg]

/-- A write to s0 is discarded (R12). -/
@[simp] theorem Group.setSreg_zero (g : Group) (v : SVal) : g.setSreg 0#6 v = g := by simp [Group.setSreg]

/-- What a scalar register reads after a write (R11, R12). -/
theorem Group.sreg_setSreg (g : Group) (d r : SRegNo) (v : SVal) :
    (g.setSreg d v).sreg r = if r = d ∧ d ≠ 0#6 then v else g.sreg r := by
  by_cases hd : d = 0#6
  · simp [hd]
  · by_cases hr : r = 0#6
    · subst hr
      have : ¬ (0#6 = d) := fun e => hd e.symm
      simp [this]
    · simp only [Group.sreg, hr, if_false, Group.setSreg, hd, ne_eq, not_false_eq_true, and_true]
      rw [Tab.get_set]
      by_cases hrd : r = d
      · simp [hrd]
      · have : ¬ r.toNat = d.toNat := fun e => hrd (BitVec.eq_of_toNat_eq e)
        simp [hrd, this]

@[simp] theorem Group.sreg_advance (g : Group) (n : Nat) (r : SRegNo) : (g.advance n).sreg r = g.sreg r := rfl
@[simp] theorem Group.sreg_jump (g : Group) (t : DWord) (r : SRegNo) : (g.jump t).sreg r = g.sreg r := rfl

/-! ## Memory -/

/-- Writing memory keeps its canonical form. -/
theorem State.writeMem_wf (s : State) (la : Nat) (bs : List Byte) (h : Memory.wf s.mem = true) :
    Memory.wf (s.writeMem la bs).mem = true := Tab.wf_setFrom _ _ _ _ h

/-- A byte outside a write reads as before. -/
theorem State.readByte_writeMem_out (s : State) (la a : Nat) (bs : List Byte) (h : a < la ∨ la + bs.length ≤ a) :
    Tab.get Memory.blank (s.writeMem la bs).mem a = Tab.get Memory.blank s.mem a := Tab.get_setFrom_out _ _ _ _ _ h

/-- A byte inside a write reads as written. -/
theorem State.readByte_writeMem_in (s : State) (la i : Nat) (bs : List Byte) (h : i < bs.length) :
    Tab.get Memory.blank (s.writeMem la bs).mem (la + i) = bs[i] := Tab.get_setFrom_in _ _ _ _ _ h

theorem State.reset_wf : Memory.wf State.reset.mem = true := rfl

end Sys2Proof.Machine
end

