-- ==== Sys2Proof/Laws/CSlice.lean ====
section
/-! SUPPORT. What an instruction of the compute stream does once it issues: the law that its meaning is proved from. -/

namespace Sys2Proof.Machine

open Sys2Proof

/-- An instruction that issues makes the outcome of its body, whatever the body is. -/
theorem cIssue_of_issues {i : Instr} {r : CRow} {sp : CSpec} {s s1 : State} {x : CIn} (body : CIn → State → CRes)
    (h : Issues i r sp s x s1) :
    cIssue i sp body s = match body x s1 with
      | .fault e brk => s.faultBrk e brk
      | .wait c => s.cWait c
      | .asks s2 c => s2.cWait c
      | .done s2 cost =>
        (if x.written = 0#32 then s2.pmGroup s.cur 0x06 (4 * (quadSet s.path.qmask).length) else s2).cDone
          (if x.f.imm.code == 2 then 4 else 3)
          (if sp.free && s.grp.active s.path == 0#32 && !(r.sources x.f).any isQueue then 0 else cost) := by
  obtain ⟨cls, op, s0, b, hf, hr, hcodes, hstatic, hrole, htk, hheld, hread, hfc, hpops, hb, hx, hs1⟩ := h
  have hfc' : sp.fc.any (s.pathFull s.cur) = false := by
    cases hc : sp.fc with
    | none => rfl
    | some c => simp [hfc c hc]
  have hrole' : sp.role.any (· != s.grp.role) = false := by
    cases hsr : sp.role with
    | none => rfl
    | some n => simp [hrole n hsr]
  have htk' : (x.f.tk.toNat != 0 && (quadSet s.path.qmask).any (fun q => (s.grp.quad q).ticket x.f.tk.toNat != 0)) = false := by
    rcases htk with h0 | h0
    · simp [h0]
    · simp only [Bool.and_eq_false_iff, List.any_eq_false, bne_iff_ne, ne_eq, Decidable.not_not]
      exact .inr h0
  unfold cIssue
  simp only [hf, hr, hcodes, hstatic, hrole', htk', hheld, hread, hfc', hpops, hb, Bool.and_self, Bool.not_true, Bool.false_eq_true,
    if_false]
  obtain ⟨f, qm, w, fu, k, a, b', c⟩ := x
  simp only [CIn.mk.injEq] at hx
  obtain ⟨-, rfl, rfl, rfl, rfl, rfl, rfl, rfl⟩ := hx
  subst hs1
  rfl

/-- An instruction whose body is done completes, past its parcels and with its cycles passed. -/
theorem completes_of_done {i : Instr} {r : CRow} {sp : CSpec} {s s1 s2 : State} {x : CIn} {cost : Nat} {body : CIn → State → CRes}
    (h : Issues i r sp s x s1) (hb : body x s1 = .done s2 cost) :
    Completes (cIssue i sp body s) (fun t => Passed s s2 t x
      (if sp.free && s.grp.active s.path == 0#32 && !(r.sources x.f).any isQueue then 0 else cost)) := by
  have hn : (if x.f.imm.code == 2 then 4 else 3) = CFields.parcels x.f := by
    unfold CFields.parcels Imm.code
    cases x.f.imm <;> rfl
  rw [cIssue_of_issues body h, hb, hn]
  exact ⟨_, rfl, rfl⟩

/-- The label of R118 in the order of the claims. -/
theorem CIn.label_joined (x : CIn) : x.label = x.joined := by
  simp only [CIn.label, CIn.joined, resultLabel, Label.joinAll, Label.join, List.foldl]
  simp [BitVec.or_comm]

/-- An instruction that writes one register lane by lane completes with that write. -/
theorem writes_of_lanes {i : Instr} {r : CRow} {imm : Option Ty} {s s1 : State} {x : CIn} {lat : Nat} {v : CIn → State → Nat → Word}
    (he : exec i s = cLanes i imm lat v s) (h : Issues i r { imm := imm, free := true } s x s1) :
    Writes i r s s1 x lat (v x s1) := by
  unfold Writes
  rw [he, cLanes]
  have := completes_of_done (body := fun x s1 => .done (s1.fxWrite x lat (.reg x.f.dst.toNat) (lanesOf (v x s1)) x.label) 1) h rfl
  simp only [Bool.true_and] at this
  rw [← CIn.label_joined]
  exact this

end Sys2Proof.Machine
end

