-- ==== Sys2Proof/Laws/Dispatch.lean ====
section
/-! SUPPORT. What each arm of `exec` calls, one law for each instruction. -/

namespace Sys2Proof.Machine

open Sys2Proof

theorem exec_add (x0 : SRegNo) (x1 : SRegNo) (x2 : SRegNo) (s : State) : exec (.add x0 x1 x2) s = execAdd x0 x1 x2 s := rfl
theorem exec_sub (x0 : SRegNo) (x1 : SRegNo) (x2 : SRegNo) (s : State) : exec (.sub x0 x1 x2) s = execSub x0 x1 x2 s := rfl
theorem exec_mul (x0 : SRegNo) (x1 : SRegNo) (x2 : SRegNo) (s : State) : exec (.mul x0 x1 x2) s = execMul x0 x1 x2 s := rfl
theorem exec_mulhi (x0 : SRegNo) (x1 : SRegNo) (x2 : SRegNo) (s : State) : exec (.mulhi x0 x1 x2) s = execMulhi x0 x1 x2 s := rfl
theorem exec_divs (x0 : SRegNo) (x1 : SRegNo) (x2 : SRegNo) (s : State) : exec (.divs x0 x1 x2) s = execDivs x0 x1 x2 s := rfl
theorem exec_divz (x0 : SRegNo) (x1 : SRegNo) (x2 : SRegNo) (s : State) : exec (.divz x0 x1 x2) s = execDivz x0 x1 x2 s := rfl
theorem exec_rems (x0 : SRegNo) (x1 : SRegNo) (x2 : SRegNo) (s : State) : exec (.rems x0 x1 x2) s = execRems x0 x1 x2 s := rfl
theorem exec_remz (x0 : SRegNo) (x1 : SRegNo) (x2 : SRegNo) (s : State) : exec (.remz x0 x1 x2) s = execRemz x0 x1 x2 s := rfl
theorem exec_and (x0 : SRegNo) (x1 : SRegNo) (x2 : SRegNo) (s : State) : exec (.and x0 x1 x2) s = execAnd x0 x1 x2 s := rfl
theorem exec_or (x0 : SRegNo) (x1 : SRegNo) (x2 : SRegNo) (s : State) : exec (.or x0 x1 x2) s = execOr x0 x1 x2 s := rfl
theorem exec_xor (x0 : SRegNo) (x1 : SRegNo) (x2 : SRegNo) (s : State) : exec (.xor x0 x1 x2) s = execXor x0 x1 x2 s := rfl
theorem exec_shl (x0 : SRegNo) (x1 : SRegNo) (x2 : SRegNo) (s : State) : exec (.shl x0 x1 x2) s = execShl x0 x1 x2 s := rfl
theorem exec_shr (x0 : SRegNo) (x1 : SRegNo) (x2 : SRegNo) (s : State) : exec (.shr x0 x1 x2) s = execShr x0 x1 x2 s := rfl
theorem exec_sar (x0 : SRegNo) (x1 : SRegNo) (x2 : SRegNo) (s : State) : exec (.sar x0 x1 x2) s = execSar x0 x1 x2 s := rfl
theorem exec_min (x0 : SRegNo) (x1 : SRegNo) (x2 : SRegNo) (s : State) : exec (.min x0 x1 x2) s = execMin x0 x1 x2 s := rfl
theorem exec_max (x0 : SRegNo) (x1 : SRegNo) (x2 : SRegNo) (s : State) : exec (.max x0 x1 x2) s = execMax x0 x1 x2 s := rfl
theorem exec_minz (x0 : SRegNo) (x1 : SRegNo) (x2 : SRegNo) (s : State) : exec (.minz x0 x1 x2) s = execMinz x0 x1 x2 s := rfl
theorem exec_maxz (x0 : SRegNo) (x1 : SRegNo) (x2 : SRegNo) (s : State) : exec (.maxz x0 x1 x2) s = execMaxz x0 x1 x2 s := rfl
theorem exec_slt (x0 : SRegNo) (x1 : SRegNo) (x2 : SRegNo) (s : State) : exec (.slt x0 x1 x2) s = execSlt x0 x1 x2 s := rfl
theorem exec_sltz (x0 : SRegNo) (x1 : SRegNo) (x2 : SRegNo) (s : State) : exec (.sltz x0 x1 x2) s = execSltz x0 x1 x2 s := rfl
theorem exec_seq (x0 : SRegNo) (x1 : SRegNo) (x2 : SRegNo) (s : State) : exec (.seq x0 x1 x2) s = execSeq x0 x1 x2 s := rfl
theorem exec_sel (x0 : SRegNo) (x1 : SRegNo) (x2 : SRegNo) (x3 : SRegNo) (s : State) : exec (.sel x0 x1 x2 x3) s = execSel x0 x1 x2 x3 s := rfl
theorem exec_addi (x0 : SRegNo) (x1 : SRegNo) (x2 : BitVec 14) (s : State) : exec (.addi x0 x1 x2) s = execAddi x0 x1 x2 s := rfl
theorem exec_andi (x0 : SRegNo) (x1 : SRegNo) (x2 : BitVec 14) (s : State) : exec (.andi x0 x1 x2) s = execAndi x0 x1 x2 s := rfl
theorem exec_ori (x0 : SRegNo) (x1 : SRegNo) (x2 : BitVec 14) (s : State) : exec (.ori x0 x1 x2) s = execOri x0 x1 x2 s := rfl
theorem exec_xori (x0 : SRegNo) (x1 : SRegNo) (x2 : BitVec 14) (s : State) : exec (.xori x0 x1 x2) s = execXori x0 x1 x2 s := rfl
theorem exec_shli (x0 : SRegNo) (x1 : SRegNo) (x2 : BitVec 6) (s : State) : exec (.shli x0 x1 x2) s = execShli x0 x1 x2 s := rfl
theorem exec_shri (x0 : SRegNo) (x1 : SRegNo) (x2 : BitVec 6) (s : State) : exec (.shri x0 x1 x2) s = execShri x0 x1 x2 s := rfl
theorem exec_sari (x0 : SRegNo) (x1 : SRegNo) (x2 : BitVec 6) (s : State) : exec (.sari x0 x1 x2) s = execSari x0 x1 x2 s := rfl
theorem exec_lih (x0 : SRegNo) (x1 : BitVec 20) (s : State) : exec (.lih x0 x1) s = execLih x0 x1 s := rfl
theorem exec_li32 (x0 : SRegNo) (x1 : Word) (s : State) : exec (.li32 x0 x1) s = execLi32 x0 x1 s := rfl
theorem exec_addpc (x0 : SRegNo) (x1 : BitVec 20) (s : State) : exec (.addpc x0 x1) s = execAddpc x0 x1 s := rfl
theorem exec_ldk (x0 : SRegNo) (x1 : BitVec 12) (s : State) : exec (.ldk x0 x1) s = execLdk x0 x1 s := rfl
theorem exec_jmp (x0 : BitVec 20) (s : State) : exec (.jmp x0) s = execJmp x0 s := rfl
theorem exec_call (x0 : SRegNo) (x1 : BitVec 20) (s : State) : exec (.call x0 x1) s = execCall x0 x1 s := rfl
theorem exec_loop (x0 : SRegNo) (x1 : BitVec 20) (s : State) : exec (.loop x0 x1) s = execLoop x0 x1 s := rfl
theorem exec_beq (x0 : SRegNo) (x1 : SRegNo) (x2 : BitVec 14) (s : State) : exec (.beq x0 x1 x2) s = execBeq x0 x1 x2 s := rfl
theorem exec_bne (x0 : SRegNo) (x1 : SRegNo) (x2 : BitVec 14) (s : State) : exec (.bne x0 x1 x2) s = execBne x0 x1 x2 s := rfl
theorem exec_blt (x0 : SRegNo) (x1 : SRegNo) (x2 : BitVec 14) (s : State) : exec (.blt x0 x1 x2) s = execBlt x0 x1 x2 s := rfl
theorem exec_bge (x0 : SRegNo) (x1 : SRegNo) (x2 : BitVec 14) (s : State) : exec (.bge x0 x1 x2) s = execBge x0 x1 x2 s := rfl
theorem exec_blo (x0 : SRegNo) (x1 : SRegNo) (x2 : BitVec 14) (s : State) : exec (.blo x0 x1 x2) s = execBlo x0 x1 x2 s := rfl
theorem exec_bhs (x0 : SRegNo) (x1 : SRegNo) (x2 : BitVec 14) (s : State) : exec (.bhs x0 x1 x2) s = execBhs x0 x1 x2 s := rfl
theorem exec_jr (x0 : SRegNo) (s : State) : exec (.jr x0) s = execJr x0 s := rfl
theorem exec_ret (x0 : SRegNo) (s : State) : exec (.ret x0) s = execRet x0 s := rfl
theorem exec_halt (s : State) : exec (.halt) s = execHalt s := rfl
theorem exec_trap (x0 : SRegNo) (x1 : SRegNo) (x2 : SRegNo) (s : State) : exec (.trap x0 x1 x2) s = execTrap x0 x1 x2 s := rfl
theorem exec_yield (x0 : SRegNo) (s : State) : exec (.yield x0) s = execYield x0 s := rfl
theorem exec_lblrd (x0 : SRegNo) (x1 : SRegNo) (s : State) : exec (.lblrd x0 x1) s = execLblrd x0 x1 s := rfl
theorem exec_lblup (x0 : SRegNo) (x1 : SRegNo) (x2 : SRegNo) (s : State) : exec (.lblup x0 x1 x2) s = execLblup x0 x1 x2 s := rfl
theorem exec_glbl (x0 : GSpace) (x1 : SRegNo) (x2 : SRegNo) (s : State) : exec (.glbl x0 x1 x2) s = execGlbl x0 x1 x2 s := rfl
theorem exec_dcls (x0 : SRegNo) (x1 : SRegNo) (x2 : SRegNo) (s : State) : exec (.dcls x0 x1 x2) s = execDcls x0 x1 x2 s := rfl
theorem exec_markJoin (s : State) : exec (.markJoin) s = execMarkJoin s := rfl
theorem exec_markUser (x0 : SRegNo) (s : State) : exec (.markUser x0) s = execMarkUser x0 s := rfl
theorem exec_brk (x0 : SRegNo) (s : State) : exec (.brk x0) s = execBrk x0 s := rfl
theorem exec_yieldRec (x0 : SRegNo) (s : State) : exec (.yieldRec x0) s = execYieldRec x0 s := rfl
theorem exec_lds (x0 : SRegNo) (x1 : SRegNo) (x2 : BitVec 14) (s : State) : exec (.lds x0 x1 x2) s = execLds x0 x1 x2 s := rfl
theorem exec_sts (x0 : SRegNo) (x1 : SRegNo) (x2 : BitVec 14) (s : State) : exec (.sts x0 x1 x2) s = execSts x0 x1 x2 s := rfl
theorem exec_amosAdd (x0 : SRegNo) (x1 : SRegNo) (x2 : SRegNo) (s : State) : exec (.amosAdd x0 x1 x2) s = execAmosAdd x0 x1 x2 s := rfl
theorem exec_amosAnd (x0 : SRegNo) (x1 : SRegNo) (x2 : SRegNo) (s : State) : exec (.amosAnd x0 x1 x2) s = execAmosAnd x0 x1 x2 s := rfl
theorem exec_amosOr (x0 : SRegNo) (x1 : SRegNo) (x2 : SRegNo) (s : State) : exec (.amosOr x0 x1 x2) s = execAmosOr x0 x1 x2 s := rfl
theorem exec_amosXor (x0 : SRegNo) (x1 : SRegNo) (x2 : SRegNo) (s : State) : exec (.amosXor x0 x1 x2) s = execAmosXor x0 x1 x2 s := rfl
theorem exec_amosMin (x0 : SRegNo) (x1 : SRegNo) (x2 : SRegNo) (s : State) : exec (.amosMin x0 x1 x2) s = execAmosMin x0 x1 x2 s := rfl
theorem exec_amosMax (x0 : SRegNo) (x1 : SRegNo) (x2 : SRegNo) (s : State) : exec (.amosMax x0 x1 x2) s = execAmosMax x0 x1 x2 s := rfl
theorem exec_amosMinz (x0 : SRegNo) (x1 : SRegNo) (x2 : SRegNo) (s : State) : exec (.amosMinz x0 x1 x2) s = execAmosMinz x0 x1 x2 s := rfl
theorem exec_amosMaxz (x0 : SRegNo) (x1 : SRegNo) (x2 : SRegNo) (s : State) : exec (.amosMaxz x0 x1 x2) s = execAmosMaxz x0 x1 x2 s := rfl
theorem exec_amosSwap (x0 : SRegNo) (x1 : SRegNo) (x2 : SRegNo) (s : State) : exec (.amosSwap x0 x1 x2) s = execAmosSwap x0 x1 x2 s := rfl
theorem exec_amosCas (x0 : SRegNo) (x1 : SRegNo) (x2 : SRegNo) (s : State) : exec (.amosCas x0 x1 x2) s = execAmosCas x0 x1 x2 s := rfl
theorem exec_vld (x0 : BitVec 2) (x1 : SRegNo) (x2 : BitVec 14) (s : State) : exec (.vld x0 x1 x2) s = execVld x0 x1 x2 s := rfl
theorem exec_vsta (x0 : SRegNo) (x1 : BitVec 14) (s : State) : exec (.vsta x0 x1) s = execVsta x0 x1 s := rfl
theorem exec_pref (x0 : SRegNo) (x1 : BitVec 14) (s : State) : exec (.pref x0 x1) s = execPref x0 x1 s := rfl
theorem exec_run (x0 : SRegNo) (x1 : BitVec 20) (s : State) : exec (.run x0 x1) s = execRun x0 x1 s := rfl
theorem exec_slipset (x0 : BitVec 14) (s : State) : exec (.slipset x0) s = execSlipset x0 s := rfl
theorem exec_popca (x0 : SRegNo) (s : State) : exec (.popca x0) s = execPopca x0 s := rfl
theorem exec_port (x0 : SRegNo) (s : State) : exec (.port x0) s = execPort x0 s := rfl
theorem exec_coll (x0 : SRegNo) (s : State) : exec (.coll x0) s = execColl x0 s := rfl
theorem exec_alloc (x0 : SRegNo) (x1 : SRegNo) (s : State) : exec (.alloc x0 x1) s = execAlloc x0 x1 s := rfl
theorem exec_free (x0 : SRegNo) (s : State) : exec (.free x0) s = execFree x0 s := rfl
theorem exec_resv (x0 : SRegNo) (x1 : SRegNo) (x2 : SRegNo) (s : State) : exec (.resv x0 x1 x2) s = execResv x0 x1 x2 s := rfl
theorem exec_unresv (x0 : SRegNo) (s : State) : exec (.unresv x0) s = execUnresv x0 s := rfl
theorem exec_detset (x0 : SRegNo) (x1 : SRegNo) (s : State) : exec (.detset x0 x1) s = execDetset x0 x1 s := rfl
theorem exec_waitfc (x0 : FC) (x1 : BitVec 12) (s : State) : exec (.waitfc x0 x1) s = execWaitfc x0 x1 s := rfl
theorem exec_sigadd (x0 : SRegNo) (x1 : SRegNo) (s : State) : exec (.sigadd x0 x1) s = execSigadd x0 x1 s := rfl
theorem exec_sigdec (x0 : SRegNo) (x1 : SRegNo) (s : State) : exec (.sigdec x0 x1) s = execSigdec x0 x1 s := rfl
theorem exec_sigwait (x0 : SRegNo) (x1 : SRegNo) (s : State) : exec (.sigwait x0 x1) s = execSigwait x0 x1 s := rfl
theorem exec_launch (x0 : SRegNo) (s : State) : exec (.launch x0) s = execLaunch x0 s := rfl
theorem exec_early (s : State) : exec (.early) s = execEarly s := rfl
theorem exec_barinit (x0 : SRegNo) (x1 : SRegNo) (s : State) : exec (.barinit x0 x1) s = execBarinit x0 x1 s := rfl
theorem exec_bararv (x0 : SRegNo) (x1 : SRegNo) (x2 : SRegNo) (s : State) : exec (.bararv x0 x1 x2) s = execBararv x0 x1 x2 s := rfl
theorem exec_barwait (x0 : SRegNo) (x1 : SRegNo) (s : State) : exec (.barwait x0 x1) s = execBarwait x0 x1 s := rfl
theorem exec_fence (x0 : Scope) (x1 : FenceKind) (s : State) : exec (.fence x0 x1) s = execFence x0 x1 s := rfl
theorem exec_getsr (x0 : SRegNo) (x1 : BitVec 14) (s : State) : exec (.getsr x0 x1) s = execGetsr x0 x1 s := rfl
theorem exec_setsr (x0 : SRegNo) (x1 : BitVec 14) (s : State) : exec (.setsr x0 x1) s = execSetsr x0 x1 s := rfl
theorem exec_vadd (x0 : CFields) (s : State) : exec (.vadd x0) s = execVadd x0 s := rfl
theorem exec_vsub (x0 : CFields) (s : State) : exec (.vsub x0) s = execVsub x0 s := rfl
theorem exec_vmul (x0 : CFields) (s : State) : exec (.vmul x0) s = execVmul x0 s := rfl
theorem exec_vmulhi (x0 : CFields) (s : State) : exec (.vmulhi x0) s = execVmulhi x0 s := rfl
theorem exec_vmad (x0 : CFields) (s : State) : exec (.vmad x0) s = execVmad x0 s := rfl
theorem exec_vadds (x0 : CFields) (s : State) : exec (.vadds x0) s = execVadds x0 s := rfl
theorem exec_vsubs (x0 : CFields) (s : State) : exec (.vsubs x0) s = execVsubs x0 s := rfl
theorem exec_vand (x0 : CFields) (s : State) : exec (.vand x0) s = execVand x0 s := rfl
theorem exec_vor (x0 : CFields) (s : State) : exec (.vor x0) s = execVor x0 s := rfl
theorem exec_vxor (x0 : CFields) (s : State) : exec (.vxor x0) s = execVxor x0 s := rfl
theorem exec_vnot (x0 : CFields) (s : State) : exec (.vnot x0) s = execVnot x0 s := rfl
theorem exec_vshl (x0 : CFields) (s : State) : exec (.vshl x0) s = execVshl x0 s := rfl
theorem exec_vshr (x0 : CFields) (s : State) : exec (.vshr x0) s = execVshr x0 s := rfl
theorem exec_vsar (x0 : CFields) (s : State) : exec (.vsar x0) s = execVsar x0 s := rfl
theorem exec_vmin (x0 : CFields) (s : State) : exec (.vmin x0) s = execVmin x0 s := rfl
theorem exec_vmax (x0 : CFields) (s : State) : exec (.vmax x0) s = execVmax x0 s := rfl
theorem exec_vabs (x0 : CFields) (s : State) : exec (.vabs x0) s = execVabs x0 s := rfl
theorem exec_vneg (x0 : CFields) (s : State) : exec (.vneg x0) s = execVneg x0 s := rfl
theorem exec_vcmp (x0 : CFields) (s : State) : exec (.vcmp x0) s = execVcmp x0 s := rfl
theorem exec_vsel (x0 : CFields) (s : State) : exec (.vsel x0) s = execVsel x0 s := rfl
theorem exec_vpopc (x0 : CFields) (s : State) : exec (.vpopc x0) s = execVpopc x0 s := rfl
theorem exec_vclz (x0 : CFields) (s : State) : exec (.vclz x0) s = execVclz x0 s := rfl
theorem exec_vbfe (x0 : CFields) (s : State) : exec (.vbfe x0) s = execVbfe x0 s := rfl
theorem exec_vbfi (x0 : CFields) (s : State) : exec (.vbfi x0) s = execVbfi x0 s := rfl
theorem exec_vpack (x0 : CFields) (s : State) : exec (.vpack x0) s = execVpack x0 s := rfl
theorem exec_vunpk (x0 : CFields) (s : State) : exec (.vunpk x0) s = execVunpk x0 s := rfl
theorem exec_vfadd (x0 : CFields) (s : State) : exec (.vfadd x0) s = execVfadd x0 s := rfl
theorem exec_vfsub (x0 : CFields) (s : State) : exec (.vfsub x0) s = execVfsub x0 s := rfl
theorem exec_vfmul (x0 : CFields) (s : State) : exec (.vfmul x0) s = execVfmul x0 s := rfl
theorem exec_vfma (x0 : CFields) (s : State) : exec (.vfma x0) s = execVfma x0 s := rfl
theorem exec_vfmin (x0 : CFields) (s : State) : exec (.vfmin x0) s = execVfmin x0 s := rfl
theorem exec_vfmax (x0 : CFields) (s : State) : exec (.vfmax x0) s = execVfmax x0 s := rfl
theorem exec_vfabs (x0 : CFields) (s : State) : exec (.vfabs x0) s = execVfabs x0 s := rfl
theorem exec_vfneg (x0 : CFields) (s : State) : exec (.vfneg x0) s = execVfneg x0 s := rfl
theorem exec_vfcmp (x0 : CFields) (s : State) : exec (.vfcmp x0) s = execVfcmp x0 s := rfl
theorem exec_vfclass (x0 : CFields) (s : State) : exec (.vfclass x0) s = execVfclass x0 s := rfl
theorem exec_vcvt (x0 : CFields) (s : State) : exec (.vcvt x0) s = execVcvt x0 s := rfl
theorem exec_vqnt (x0 : CFields) (s : State) : exec (.vqnt x0) s = execVqnt x0 s := rfl
theorem exec_vdqnt (x0 : CFields) (s : State) : exec (.vdqnt x0) s = execVdqnt x0 s := rfl
theorem exec_vscalb (x0 : CFields) (s : State) : exec (.vscalb x0) s = execVscalb x0 s := rfl
theorem exec_vexp2 (x0 : CFields) (s : State) : exec (.vexp2 x0) s = execVexp2 x0 s := rfl
theorem exec_vlog2 (x0 : CFields) (s : State) : exec (.vlog2 x0) s = execVlog2 x0 s := rfl
theorem exec_vrcp (x0 : CFields) (s : State) : exec (.vrcp x0) s = execVrcp x0 s := rfl
theorem exec_vrsq (x0 : CFields) (s : State) : exec (.vrsq x0) s = execVrsq x0 s := rfl
theorem exec_vsqrt (x0 : CFields) (s : State) : exec (.vsqrt x0) s = execVsqrt x0 s := rfl
theorem exec_vtanh (x0 : CFields) (s : State) : exec (.vtanh x0) s = execVtanh x0 s := rfl
theorem exec_vsin (x0 : CFields) (s : State) : exec (.vsin x0) s = execVsin x0 s := rfl
theorem exec_vcos (x0 : CFields) (s : State) : exec (.vcos x0) s = execVcos x0 s := rfl
theorem exec_vshuf (x0 : CFields) (s : State) : exec (.vshuf x0) s = execVshuf x0 s := rfl
theorem exec_vshfl (x0 : CFields) (s : State) : exec (.vshfl x0) s = execVshfl x0 s := rfl
theorem exec_vvote (x0 : CFields) (s : State) : exec (.vvote x0) s = execVvote x0 s := rfl
theorem exec_vred (x0 : CFields) (s : State) : exec (.vred x0) s = execVred x0 s := rfl
theorem exec_vscan (x0 : CFields) (s : State) : exec (.vscan x0) s = execVscan x0 s := rfl
theorem exec_vbcast (x0 : CFields) (s : State) : exec (.vbcast x0) s = execVbcast x0 s := rfl
theorem exec_settw (x0 : CFields) (s : State) : exec (.settw x0) s = execSettw x0 s := rfl
theorem exec_vmov (x0 : CFields) (s : State) : exec (.vmov x0) s = execVmov x0 s := rfl
theorem exec_vrand (x0 : CFields) (s : State) : exec (.vrand x0) s = execVrand x0 s := rfl
theorem exec_vldx (x0 : CFields) (s : State) : exec (.vldx x0) s = execVldx x0 s := rfl
theorem exec_vstx (x0 : CFields) (s : State) : exec (.vstx x0) s = execVstx x0 s := rfl
theorem exec_vstxNotify (x0 : CFields) (s : State) : exec (.vstxNotify x0) s = execVstxNotify x0 s := rfl
theorem exec_vamo (x0 : CFields) (s : State) : exec (.vamo x0) s = execVamo x0 s := rfl
theorem exec_vamoDet (x0 : CFields) (s : State) : exec (.vamoDet x0) s = execVamoDet x0 s := rfl
theorem exec_spld (x0 : CFields) (s : State) : exec (.spld x0) s = execSpld x0 s := rfl
theorem exec_spst (x0 : CFields) (s : State) : exec (.spst x0) s = execSpst x0 s := rfl
theorem exec_spamo (x0 : CFields) (s : State) : exec (.spamo x0) s = execSpamo x0 s := rfl
theorem exec_std (x0 : CFields) (s : State) : exec (.std x0) s = execStd x0 s := rfl
theorem exec_senda (x0 : CFields) (s : State) : exec (.senda x0) s = execSenda x0 s := rfl
theorem exec_acld (x0 : CFields) (s : State) : exec (.acld x0) s = execAcld x0 s := rfl
theorem exec_acst (x0 : CFields) (s : State) : exec (.acst x0) s = execAcst x0 s := rfl
theorem exec_cwait (x0 : CFields) (s : State) : exec (.cwait x0) s = execCwait x0 s := rfl
theorem exec_carv (x0 : CFields) (s : State) : exec (.carv x0) s = execCarv x0 s := rfl
theorem exec_mxloop (x0 : CFields) (s : State) : exec (.mxloop x0) s = execMxloop x0 s := rfl
theorem exec_mxgrp (x0 : CFields) (s : State) : exec (.mxgrp x0) s = execMxgrp x0 s := rfl
theorem exec_mxzero (x0 : CFields) (s : State) : exec (.mxzero x0) s = execMxzero x0 s := rfl
theorem exec_accvt (x0 : CFields) (s : State) : exec (.accvt x0) s = execAccvt x0 s := rfl
theorem exec_winit (x0 : CFields) (s : State) : exec (.winit x0) s = execWinit x0 s := rfl
theorem exec_wpush (x0 : CFields) (s : State) : exec (.wpush x0) s = execWpush x0 s := rfl
theorem exec_wqry (x0 : CFields) (s : State) : exec (.wqry x0) s = execWqry x0 s := rfl
theorem exec_wsetw (x0 : CFields) (s : State) : exec (.wsetw x0) s = execWsetw x0 s := rfl
theorem exec_wfree (x0 : CFields) (s : State) : exec (.wfree x0) s = execWfree x0 s := rfl
theorem exec_wstat (x0 : CFields) (s : State) : exec (.wstat x0) s = execWstat x0 s := rfl
theorem exec_xunpk (x0 : CFields) (s : State) : exec (.xunpk x0) s = execXunpk x0 s := rfl
theorem exec_xdec (x0 : CFields) (s : State) : exec (.xdec x0) s = execXdec x0 s := rfl
theorem exec_xlut (x0 : CFields) (s : State) : exec (.xlut x0) s = execXlut x0 s := rfl
theorem exec_vdcls (x0 : CFields) (s : State) : exec (.vdcls x0) s = execVdcls x0 s := rfl
theorem exec_vlblrd (x0 : CFields) (s : State) : exec (.vlblrd x0) s = execVlblrd x0 s := rfl
theorem exec_vlblup (x0 : CFields) (s : State) : exec (.vlblup x0) s = execVlblup x0 s := rfl
theorem exec_vsys (x0 : CFields) (s : State) : exec (.vsys x0) s = execVsys x0 s := rfl
theorem exec_vbrk (x0 : CFields) (s : State) : exec (.vbrk x0) s = execVbrk x0 s := rfl
theorem exec_trlTake (x0 : BitVec 15) (s : State) : exec (.trlTake x0) s = execTrlTake x0 s := rfl
theorem exec_trlFall (x0 : BitVec 15) (s : State) : exec (.trlFall x0) s = execTrlFall x0 s := rfl
theorem exec_trlSkip (x0 : BitVec 15) (x1 : BitVec 3) (x2 : BitVec 7) (s : State) : exec (.trlSkip x0 x1 x2) s = execTrlSkip x0 x1 x2 s := rfl
theorem exec_trlRegang (x0 : BitVec 15) (x1 : BitVec 10) (s : State) : exec (.trlRegang x0 x1) s = execTrlRegang x0 x1 s := rfl
theorem exec_trlEnd (x0 : BitVec 15) (s : State) : exec (.trlEnd x0) s = execTrlEnd x0 s := rfl
theorem exec_nop (s : State) : exec (.nop) s = execNop s := rfl
theorem exec_fixedLatencyWrite (x0 : Nat) (x1 : Nat) (s : State) : exec (.fixedLatencyWrite x0 x1) s = execFixedLatencyWrite x0 x1 s := rfl
theorem exec_runStart (x0 : Nat) (x1 : Nat) (s : State) : exec (.runStart x0 x1) s = execRunStart x0 x1 s := rfl
theorem exec_takeEntry (x0 : Nat) (x1 : Nat) (s : State) : exec (.takeEntry x0 x1) s = execTakeEntry x0 x1 s := rfl
theorem exec_quadEnd (x0 : Nat) (x1 : Nat) (s : State) : exec (.quadEnd x0 x1) s = execQuadEnd x0 x1 s := rfl
theorem exec_groupFinish (x0 : Nat) (s : State) : exec (.groupFinish x0) s = execGroupFinish x0 s := rfl
theorem exec_unpairedDeadlock (x0 : Nat) (s : State) : exec (.unpairedDeadlock x0) s = execUnpairedDeadlock x0 s := rfl
theorem exec_decoupleDeadlockDetect (x0 : Nat) (s : State) : exec (.decoupleDeadlockDetect x0) s = execDecoupleDeadlockDetect x0 s := rfl
theorem exec_popcaDeadlock (x0 : Nat) (s : State) : exec (.popcaDeadlock x0) s = execPopcaDeadlock x0 s := rfl
theorem exec_ageCounterAged (x0 : Nat) (x1 : Bool) (s : State) : exec (.ageCounterAged x0 x1) s = execAgeCounterAged x0 x1 s := rfl
theorem exec_vldEntryPresent (x0 : Nat) (x1 : Nat) (s : State) : exec (.vldEntryPresent x0 x1) s = execVldEntryPresent x0 x1 s := rfl
theorem exec_vldFail (x0 : Nat) (x1 : Nat) (s : State) : exec (.vldFail x0 x1) s = execVldFail x0 x1 s := rfl
theorem exec_vldPoisonIdle (x0 : Nat) (s : State) : exec (.vldPoisonIdle x0) s = execVldPoisonIdle x0 s := rfl
theorem exec_ldsComplete (x0 : Nat) (x1 : Nat) (s : State) : exec (.ldsComplete x0 x1) s = execLdsComplete x0 x1 s := rfl
theorem exec_stsComplete (x0 : Nat) (x1 : Nat) (s : State) : exec (.stsComplete x0 x1) s = execStsComplete x0 x1 s := rfl
theorem exec_amosComplete (x0 : Nat) (x1 : Nat) (s : State) : exec (.amosComplete x0 x1) s = execAmosComplete x0 x1 s := rfl
theorem exec_detsetComplete (x0 : Nat) (x1 : Nat) (s : State) : exec (.detsetComplete x0 x1) s = execDetsetComplete x0 x1 s := rfl
theorem exec_queueStore (x0 : Nat) (s : State) : exec (.queueStore x0) s = execQueueStore x0 s := rfl
theorem exec_storeApply (x0 : Nat) (x1 : Nat) (x2 : Nat) (s : State) : exec (.storeApply x0 x1 x2) s = execStoreApply x0 x1 x2 s := rfl
theorem exec_laneAccessComplete (x0 : Nat) (x1 : Nat) (s : State) : exec (.laneAccessComplete x0 x1) s = execLaneAccessComplete x0 x1 s := rfl
theorem exec_sliceStop (x0 : Nat) (x1 : Nat) (s : State) : exec (.sliceStop x0 x1) s = execSliceStop x0 x1 s := rfl
theorem exec_barwaitSatisfied (x0 : Nat) (s : State) : exec (.barwaitSatisfied x0) s = execBarwaitSatisfied x0 s := rfl
theorem exec_cwaitSatisfied (x0 : Nat) (x1 : Nat) (s : State) : exec (.cwaitSatisfied x0 x1) s = execCwaitSatisfied x0 x1 s := rfl
theorem exec_sigwaitReread (x0 : Nat) (s : State) : exec (.sigwaitReread x0) s = execSigwaitReread x0 s := rfl
theorem exec_fenceComplete (x0 : Nat) (s : State) : exec (.fenceComplete x0) s = execFenceComplete x0 s := rfl
theorem exec_waitfcSatisfied (x0 : Nat) (s : State) : exec (.waitfcSatisfied x0) s = execWaitfcSatisfied x0 s := rfl
theorem exec_allocGrant (x0 : Nat) (s : State) : exec (.allocGrant x0) s = execAllocGrant x0 s := rfl
theorem exec_allocDeadlockDetect (x0 : Nat) (s : State) : exec (.allocDeadlockDetect x0) s = execAllocDeadlockDetect x0 s := rfl
theorem exec_bankFree (x0 : Nat) (s : State) : exec (.bankFree x0) s = execBankFree x0 s := rfl
theorem exec_resvRelease (x0 : Nat) (s : State) : exec (.resvRelease x0) s = execResvRelease x0 s := rfl
theorem exec_porterComplete (x0 : Nat) (x1 : Nat) (s : State) : exec (.porterComplete x0 x1) s = execPorterComplete x0 x1 s := rfl
theorem exec_transformReply (x0 : Nat) (x1 : Nat) (s : State) : exec (.transformReply x0 x1) s = execTransformReply x0 x1 s := rfl
theorem exec_weighhouseAnswer (x0 : Nat) (x1 : Nat) (s : State) : exec (.weighhouseAnswer x0 x1) s = execWeighhouseAnswer x0 x1 s := rfl
theorem exec_syscallSlotPoll (x0 : Nat) (s : State) : exec (.syscallSlotPoll x0) s = execSyscallSlotPoll x0 s := rfl
theorem exec_pitchEntryStart (x0 : Nat) (x1 : Nat) (s : State) : exec (.pitchEntryStart x0 x1) s = execPitchEntryStart x0 x1 s := rfl
theorem exec_matrixStep (x0 : Nat) (x1 : Nat) (s : State) : exec (.matrixStep x0 x1) s = execMatrixStep x0 x1 s := rfl
theorem exec_pitchEntryComplete (x0 : Nat) (x1 : Nat) (s : State) : exec (.pitchEntryComplete x0 x1) s = execPitchEntryComplete x0 x1 s := rfl
theorem exec_accvtComplete (x0 : Nat) (x1 : Nat) (s : State) : exec (.accvtComplete x0 x1) s = execAccvtComplete x0 x1 s := rfl
theorem exec_windowOpPerform (x0 : Nat) (s : State) : exec (.windowOpPerform x0) s = execWindowOpPerform x0 s := rfl
theorem exec_detContribution (x0 : Nat) (x1 : Nat) (x2 : Nat) (s : State) : exec (.detContribution x0 x1 x2) s = execDetContribution x0 x1 x2 s := rfl
theorem exec_collComplete (x0 : Nat) (x1 : Nat) (s : State) : exec (.collComplete x0 x1) s = execCollComplete x0 x1 s := rfl
theorem exec_loadRequest (x0 : Frame) (s : State) : exec (.loadRequest x0) s = execLoadRequest x0 s := rfl
theorem exec_loadReply (x0 : Frame) (s : State) : exec (.loadReply x0) s = execLoadReply x0 s := rfl
theorem exec_storeFrame (x0 : Frame) (s : State) : exec (.storeFrame x0) s = execStoreFrame x0 s := rfl
theorem exec_acknowledgement (x0 : Frame) (s : State) : exec (.acknowledgement x0) s = execAcknowledgement x0 s := rfl
theorem exec_atomicFrame (x0 : Frame) (s : State) : exec (.atomicFrame x0) s = execAtomicFrame x0 s := rfl
theorem exec_atomicReply (x0 : Frame) (s : State) : exec (.atomicReply x0) s = execAtomicReply x0 s := rfl
theorem exec_notifyArrival (x0 : Frame) (s : State) : exec (.notifyArrival x0) s = execNotifyArrival x0 s := rfl
theorem exec_rejection (x0 : Frame) (s : State) : exec (.rejection x0) s = execRejection x0 s := rfl
theorem exec_invalidation (x0 : Frame) (s : State) : exec (.invalidation x0) s = execInvalidation x0 s := rfl
theorem exec_invalidationAcknowledgement (x0 : Frame) (s : State) : exec (.invalidationAcknowledgement x0) s = execInvalidationAcknowledgement x0 s := rfl
theorem exec_fenceNotice (x0 : Frame) (s : State) : exec (.fenceNotice x0) s = execFenceNotice x0 s := rfl
theorem exec_dupUpdate (x0 : Frame) (s : State) : exec (.dupUpdate x0) s = execDupUpdate x0 s := rfl
theorem exec_dupAcknowledgement (x0 : Frame) (s : State) : exec (.dupAcknowledgement x0) s = execDupAcknowledgement x0 s := rfl
theorem exec_contribution (x0 : Frame) (s : State) : exec (.contribution x0) s = execContribution x0 s := rfl
theorem exec_combinedContribution (x0 : Frame) (s : State) : exec (.combinedContribution x0) s = execCombinedContribution x0 s := rfl
theorem exec_resultChunk (x0 : Frame) (s : State) : exec (.resultChunk x0) s = execResultChunk x0 s := rfl
theorem exec_shootdownRequest (x0 : Nat) (x1 : Nat) (x2 : Nat) (s : State) : exec (.shootdownRequest x0 x1 x2) s = execShootdownRequest x0 x1 x2 s := rfl
theorem exec_shootdownTimeout (s : State) : exec (.shootdownTimeout) s = execShootdownTimeout s := rfl
theorem exec_replyTimeout (x0 : Nat) (s : State) : exec (.replyTimeout x0) s = execReplyTimeout x0 s := rfl
theorem exec_dupAckTimeout (x0 : Nat) (s : State) : exec (.dupAckTimeout x0) s = execDupAckTimeout x0 s := rfl
theorem exec_teamFaultSave (x0 : Nat) (s : State) : exec (.teamFaultSave x0) s = execTeamFaultSave x0 s := rfl
theorem exec_dispPoll (x0 : Nat) (s : State) : exec (.dispPoll x0) s = execDispPoll x0 s := rfl
theorem exec_teamRetire (x0 : Nat) (s : State) : exec (.teamRetire x0) s = execTeamRetire x0 s := rfl
theorem exec_gridRetire (x0 : Nat) (s : State) : exec (.gridRetire x0) s = execGridRetire x0 s := rfl
theorem exec_gridAdmit (x0 : Nat) (s : State) : exec (.gridAdmit x0) s = execGridAdmit x0 s := rfl
theorem exec_teamPlace (x0 : Nat) (s : State) : exec (.teamPlace x0) s = execTeamPlace x0 s := rfl
theorem exec_preemptMark (x0 : Nat) (s : State) : exec (.preemptMark x0) s = execPreemptMark x0 s := rfl
theorem exec_teamSaveYield (x0 : Nat) (s : State) : exec (.teamSaveYield x0) s = execTeamSaveYield x0 s := rfl
theorem exec_preemptDeadline (x0 : Nat) (s : State) : exec (.preemptDeadline x0) s = execPreemptDeadline x0 s := rfl
theorem exec_teamResume (x0 : Nat) (s : State) : exec (.teamResume x0) s = execTeamResume x0 s := rfl
theorem exec_deviceReset (x0 : ResetInfo) (s : State) : exec (.deviceReset x0) s = execDeviceReset x0 s := rfl
theorem exec_ownerRegister (x0 : Nat) (x1 : Nat) (x2 : BitVec 4096) (s : State) : exec (.ownerRegister x0 x1 x2) s = execOwnerRegister x0 x1 x2 s := rfl
theorem exec_endorsementInstall (x0 : EndorseRec) (s : State) : exec (.endorsementInstall x0) s = execEndorsementInstall x0 s := rfl
theorem exec_evidenceRequest (x0 : BitVec 512) (x1 : Nat) (s : State) : exec (.evidenceRequest x0 x1) s = execEvidenceRequest x0 x1 s := rfl
theorem exec_firmwareUpdate (x0 : FwImage) (x1 : List Byte) (s : State) : exec (.firmwareUpdate x0 x1) s = execFirmwareUpdate x0 x1 s := rfl
theorem exec_debugUnlock (x0 : Bool) (s : State) : exec (.debugUnlock x0) s = execDebugUnlock x0 s := rfl
theorem exec_protectedContextCreate (x0 : Nat) (x1 : Nat) (s : State) : exec (.protectedContextCreate x0 x1) s = execProtectedContextCreate x0 x1 s := rfl
theorem exec_keyRotate (x0 : Nat) (s : State) : exec (.keyRotate x0) s = execKeyRotate x0 s := rfl
theorem exec_frameAllocate (x0 : Nat) (x1 : Nat) (x2 : Nat) (s : State) : exec (.frameAllocate x0 x1 x2) s = execFrameAllocate x0 x1 x2 s := rfl
theorem exec_powerRedivide (x0 : List Nat) (s : State) : exec (.powerRedivide x0) s = execPowerRedivide x0 s := rfl
theorem exec_trcctlWrite (x0 : Nat) (x1 : DWord) (s : State) : exec (.trcctlWrite x0 x1) s = execTrcctlWrite x0 x1 s := rfl
theorem exec_traceSample (x0 : Nat) (x1 : Nat) (s : State) : exec (.traceSample x0 x1) s = execTraceSample x0 x1 s := rfl
theorem exec_traceLeaseBroken (x0 : Nat) (s : State) : exec (.traceLeaseBroken x0) s = execTraceLeaseBroken x0 s := rfl
theorem exec_pmuRotate (x0 : Nat) (s : State) : exec (.pmuRotate x0) s = execPmuRotate x0 s := rfl
theorem exec_bkctlHrel (x0 : Nat) (x1 : Nat) (s : State) : exec (.bkctlHrel x0 x1) s = execBkctlHrel x0 x1 s := rfl
theorem exec_breakpointMatch (x0 : Nat) (x1 : Nat) (x2 : Bool) (s : State) : exec (.breakpointMatch x0 x1 x2) s = execBreakpointMatch x0 x1 x2 s := rfl
theorem exec_dbgstepWrite (x0 : Nat) (x1 : DWord) (s : State) : exec (.dbgstepWrite x0 x1) s = execDbgstepWrite x0 x1 s := rfl
theorem exec_stepStop (x0 : Nat) (s : State) : exec (.stepStop x0) s = execStepStop x0 s := rfl
theorem exec_debugRead (x0 : Nat) (x1 : DebugTarget) (s : State) : exec (.debugRead x0 x1) s = execDebugRead x0 x1 s := rfl
theorem exec_registerWrite (x0 : Nat) (x1 : Nat) (x2 : DWord) (s : State) : exec (.registerWrite x0 x1 x2) s = execRegisterWrite x0 x1 x2 s := rfl
theorem exec_hostBar2Read (x0 : Nat) (x1 : Nat) (s : State) : exec (.hostBar2Read x0 x1) s = execHostBar2Read x0 x1 s := rfl
theorem exec_hostBar2Write (x0 : Nat) (x1 : List Byte) (s : State) : exec (.hostBar2Write x0 x1) s = execHostBar2Write x0 x1 s := rfl
theorem exec_lineRelocation (x0 : Nat) (s : State) : exec (.lineRelocation x0) s = execLineRelocation x0 s := rfl
theorem exec_fenceClear (x0 : Nat) (s : State) : exec (.fenceClear x0) s = execFenceClear x0 s := rfl
theorem exec_savedTeamAged (x0 : Nat) (s : State) : exec (.savedTeamAged x0) s = execSavedTeamAged x0 s := rfl
theorem exec_resumedResidency10ms (x0 : Nat) (s : State) : exec (.resumedResidency10ms x0) s = execResumedResidency10ms x0 s := rfl

end Sys2Proof.Machine
end

