-- ==== Sys2Proof/Laws/Ops.lean ====
section
/-! SUPPORT. What each shared operation does, said once: which of them leave memory alone, that the others keep its canonical
form, what taking a fault writes, and when the device reads and acts for itself. -/

namespace Sys2Proof.Machine

open Sys2Proof

/-! ## Operations that leave memory alone -/

@[simp] theorem State.mem_setGroup (s : State) (k : Nat) (g : Group) : (s.setGroup k g).mem = s.mem := rfl
@[simp] theorem State.mem_setGrp (s : State) (g : Group) : (s.setGrp g).mem = s.mem := rfl
@[simp] theorem State.mem_setTeam (s : State) (t : Nat) (x : Team) : (s.setTeam t x).mem = s.mem := rfl
@[simp] theorem State.mem_setTm (s : State) (x : Team) : (s.setTm x).mem = s.mem := rfl
@[simp] theorem State.mem_setGrid (s : State) (n : Nat) (x : Grid) : (s.setGrid n x).mem = s.mem := rfl
@[simp] theorem State.mem_setCore (s : State) (n : Nat) (x : Core) : (s.setCore n x).mem = s.mem := rfl
@[simp] theorem State.mem_raiseLabel (s : State) (la : Nat) (l : Label) : (s.raiseLabel la l).mem = s.mem := rfl
@[simp] theorem State.mem_newTag (s : State) (r : TagRef) : (s.newTag r).1.mem = s.mem := rfl

@[simp] theorem State.mem_send (s : State) (f : Frame) : (s.send f).mem = s.mem := by
  unfold State.send
  split
  · rfl
  · dsimp only
    split <;> rfl

@[simp] theorem State.mem_deviceSend (s : State) (d c p : Nat) (f : Nat → Frame) : (s.deviceSend d c p f).mem = s.mem := by
  unfold State.deviceSend
  split <;> simp

@[simp] theorem State.mem_deviceStores (l : List (List Byte)) (s : State) (c p d la : Nat) (line : Bool) :
    (s.deviceStores c p d la line l).mem = s.mem := by
  induction l generalizing s la with
  | nil => rfl
  | cons x xs ih => rw [State.deviceStores, ih, State.mem_deviceSend]

@[simp] theorem State.mem_deviceRaise (s : State) (c p d la : Nat) (l : Label) : (s.deviceRaise c p d la l).mem = s.mem :=
  State.mem_deviceSend ..

/-- A fold of steps none of which touches memory does not touch it. -/
theorem mem_foldl {β : Type} {f : State → β → State} (hf : ∀ s b, (f s b).mem = s.mem) (l : List β) (s : State) :
    (l.foldl f s).mem = s.mem := by
  induction l generalizing s with
  | nil => rfl
  | cons x xs ih => rw [List.foldl_cons, ih, hf]

@[simp] theorem State.mem_dupNotify (s : State) (r : TagRef) (ctx : Nat) (reply : Option Frame) (pa n : Nat) (line : Bool) :
    (s.dupNotify r ctx reply pa n line).mem = s.mem := by
  unfold State.dupNotify
  exact (mem_foldl (fun _ _ => State.mem_send ..) _ _).trans (State.mem_newTag ..)

@[simp] theorem State.mem_heldDone (s : State) (h : Held) (bad : Option Label) : (s.heldDone h bad).mem = s.mem := by
  unfold State.heldDone
  split
  · exact State.mem_send ..
  · exact State.mem_send ..
  · rfl
  · dsimp only
    split <;> rfl

@[simp] theorem State.mem_dropHeld (s : State) (t : Nat) : (s.dropHeld t).mem = s.mem :=
  mem_foldl (fun _ _ => State.mem_heldDone ..) _ _

@[simp] theorem State.mem_leaveQueues (s : State) (t : Nat) : (s.leaveQueues t).mem = s.mem := by
  unfold State.leaveQueues
  dsimp only
  split <;> rfl

@[simp] theorem State.mem_leaveCore (s : State) (t : Nat) : (s.leaveCore t).mem = s.mem := by
  unfold State.leaveCore
  dsimp only
  split <;> simp

@[simp] theorem State.mem_dropHolds (s : State) (w : Nat) : (s.dropHolds w).mem = s.mem := rfl

/-! ## Operations that keep the canonical form of memory -/

/-- A fold of steps each of which keeps a property keeps it. -/
theorem keeps_foldl {α β : Type} {P : α → Prop} {f : α → β → α} (hf : ∀ a b, P a → P (f a b)) (l : List β) (a : α) (h : P a) :
    P (l.foldl f a) := by
  induction l generalizing a with
  | nil => exact h
  | cons x xs ih => exact ih _ (hf _ _ h)

theorem State.reset_memOk : State.reset.memOk := rfl

theorem State.writeMem_memOk {s : State} (la : Nat) (bs : List Byte) (h : s.memOk) : (s.writeMem la bs).memOk := s.writeMem_wf la bs h

theorem State.writeLine_memOk {s t : State} {la : Nat} {bs : List Byte} {cmp : Bool} (h : s.memOk) (ht : s.writeLine la bs cmp = some t) :
    t.memOk := by
  have hw := State.writeMem_memOk la bs h
  unfold State.writeLine at ht
  dsimp only at ht
  split at ht
  · cases ht; exact hw
  · split at ht
    · cases ht; exact hw
    · split at ht
      · cases ht; exact hw
      · split at ht
        · cases ht; exact hw
        · cases ht

theorem State.signal_memOk {s t : State} {la : Nat} {delta : DWord} {line : Bool} (h : s.memOk) (ht : s.signal la delta line = some t) :
    t.memOk := by
  unfold State.signal at ht
  dsimp only at ht
  rw [Option.map_eq_some_iff] at ht
  obtain ⟨u, hu, rfl⟩ := ht
  have := State.writeLine_memOk h hu
  split <;> exact this

theorem State.dieWrite_memOk {s t : State} {w : DieWrite} (h : s.memOk) (ht : s.dieWrite w = some t) : t.memOk := by
  unfold State.dieWrite at ht
  dsimp only at ht
  generalize (if w.delta.isSome = true then 8 else w.bytes.length) = n at ht
  split at ht
  · cases ht
  · rw [Option.map_eq_some_iff] at ht
    obtain ⟨u, hu, rfl⟩ := ht
    have hm : u.memOk := by
      split at hu
      · exact State.signal_memOk h hu
      · exact State.writeLine_memOk h hu
    split
    · exact (congrArg (fun m => Memory.wf m = true) (State.mem_dupNotify ..)).mpr hm
    · exact hm

theorem State.deviceApply_memOk {s : State} (w : DieWrite) (h : s.memOk) : (s.deviceApply w).memOk := by
  unfold State.deviceApply
  split
  · rename_i t ht
    split at ht
    · exact State.dieWrite_memOk h ht
    · cases ht
  · exact h

theorem State.retryDie_memOk {s : State} (h : s.memOk) : s.retryDie.memOk :=
  keeps_foldl (P := State.memOk) (fun _ w hs => State.deviceApply_memOk w hs) _ _ h

theorem State.devicePiece_memOk {s : State} (ctx va : Nat) (bs : List Byte) (h : s.memOk) : (s.devicePiece ctx va bs).memOk := by
  unfold State.devicePiece
  split
  · exact h
  · dsimp only
    split
    · exact (congrArg (fun m => Memory.wf m = true) (State.mem_deviceStores ..)).mpr h
    · split
      · exact State.writeMem_memOk _ _ h
      · exact keeps_foldl (P := fun a : State × Nat => a.1.memOk) (fun _ _ ha => State.deviceApply_memOk _ ha) _ _ h

theorem State.deviceWrite_memOk {s : State} (ctx va : Nat) (bs : List Byte) (h : s.memOk) : (s.deviceWrite ctx va bs).memOk :=
  keeps_foldl (P := State.memOk) (fun _ _ hs => State.devicePiece_memOk _ _ _ hs) _ _ h

theorem State.blockWrite_memOk {s : State} (t off : Nat) (bs : List Byte) (h : s.memOk) : (s.blockWrite t off bs).memOk := by
  unfold State.blockWrite
  split
  · exact State.deviceWrite_memOk _ _ _ h
  · exact h

theorem State.deviceSignal_memOk {s : State} (ctx va : Nat) (h : s.memOk) : (s.deviceSignal ctx va).memOk := by
  unfold State.deviceSignal
  split
  · exact h
  · split
    · split
      · exact State.deviceApply_memOk _ h
      · exact (congrArg (fun m => Memory.wf m = true) (State.mem_deviceSend ..)).mpr h
    · exact h

/-- The end of a team writes its header and no other byte (R379). -/
theorem State.mem_endTeam (s : State) (t : Nat) (st : TState) :
    (s.endTeam t st).mem = ((s.leaveCore t).blockWrite t 0 (bytesOf st.code 1)).mem := by
  unfold State.endTeam
  simp only [State.mem_setTeam, State.mem_dropHolds, State.mem_setGrid, State.mem_dropHeld]

theorem State.endTeam_memOk {s : State} (t : Nat) (st : TState) (h : s.memOk) : (s.endTeam t st).memOk := by
  have h1 : (s.leaveCore t).memOk := (congrArg (fun m => Memory.wf m = true) (State.mem_leaveCore ..)).mpr h
  have h2 : ((s.leaveCore t).blockWrite t 0 (bytesOf st.code 1)).memOk := State.blockWrite_memOk _ _ _ h1
  exact (congrArg (fun m => Memory.wf m = true) (State.mem_endTeam ..)).mpr h2

theorem State.endGrid_memOk {s : State} (gr code : Nat) (h : s.memOk) : (s.endGrid gr code).memOk :=
  keeps_foldl (P := State.memOk) (fun _ _ hs => State.endTeam_memOk _ _ hs) _ _ h

theorem State.raiseRec_memOk {s : State} (k : Nat) (r : FaultRec) (h : s.memOk) : (s.raiseRec k r).memOk := by
  have hg (g : Group) : (s.setGroup k g).memOk := h
  have ht (g : Group) (t : Nat) (x : Team) : ((s.setGroup k g).setTeam t x).memOk := h
  cases hf : (s.group k).fault <;> simp only [State.raiseRec, hf] <;> split
  · exact State.endGrid_memOk _ _ (ht ..)
  · exact ht ..
  · exact State.endGrid_memOk _ _ (hg _)
  · exact hg _

theorem State.raiseOp_memOk {s : State} (k : Nat) (o : Op) (f : Flt) (h : s.memOk) : (s.raiseOp k o f).memOk := by
  unfold State.raiseOp
  refine State.raiseRec_memOk _ _ ?_
  split
  · exact h
  · exact h

theorem State.settle_memOk {s : State} (k : Nat) (h : s.memOk) : (s.settle k).memOk := by
  refine keeps_foldl (P := State.memOk) (fun a o ha => ?_) _ _ h
  split
  · exact State.raiseOp_memOk _ _ _ ha
  · exact ha

/-- Scrubbing a frame takes entries out and adds none (R435). -/
theorem State.scrub_memOk {s : State} (fr : Nat) (h : s.memOk) : (s.scrub fr).memOk := Tab.wf_filter _ _ _ h

theorem State.takeFrame_memOk {s : State} (ctx fr : Nat) (h : s.memOk) : (s.takeFrame ctx fr).memOk := by
  unfold State.takeFrame
  split
  · exact h
  · exact State.scrub_memOk _ h

/-- What the firmware writes into local storage at reset is written in order. -/
theorem State.load_memOk {s : State} (image : List (Nat × List Byte)) (h : s.memOk) : (s.load image).memOk :=
  keeps_foldl (P := State.memOk) (fun _ _ hs => State.writeMem_memOk _ _ hs) _ _ h

/-! ## Taking a fault -/

/-- A group's first fault (R155, R375 to R377), when it ends no grid: the record is written, the slice it names stops (both, for
a deadlock), the bell of the team rings, and nothing else differs. -/
theorem State.raiseRec_first {s : State} {k : Nat} {r : FaultRec} (h : (s.group k).fault = none) (hc : r.flt.code ≠ 4) :
    let t := s.raiseRec k r
    t = { s with groups := t.groups, teams := t.teams } ∧
    t.group k = { s.group k with fault := some r, astopped := (s.group k).astopped || (r.dlk || r.unpaired) || !r.cslice,
                                 cstopped := (s.group k).cstopped || (r.dlk || r.unpaired) || r.cslice } ∧
    (∀ j, j ≠ k → t.group j = s.group j) ∧
    t.team (teamOf k) = { (s.team (teamOf k)).ring s.cycle with
                          first := earlierFault (s.team (teamOf k)).first s.cycle (s.group k).gidx r.flt.code } ∧
    ∀ j, j ≠ teamOf k → t.team j = s.team j := by
  simp only [State.raiseRec, h, hc, if_false]
  exact ⟨rfl, by simp, fun j hj => by simp [State.group_setGroup_ne _ _ hj], by simp,
    fun j hj => by rw [State.team_setTeam_ne _ _ hj]; rfl⟩

/-- A further fault of the group (R377), when it ends no grid: LOST is set and the slice stops; the record stands. -/
theorem State.raiseRec_again {s : State} {k : Nat} {r x : FaultRec} (h : (s.group k).fault = some x) (hc : r.flt.code ≠ 4) :
    let t := s.raiseRec k r
    t = { s with groups := t.groups } ∧
    t.group k = { s.group k with lostFault := true, astopped := (s.group k).astopped || !r.cslice,
                                 cstopped := (s.group k).cstopped || r.cslice } ∧
    ∀ j, j ≠ k → t.group j = s.group j := by
  simp only [State.raiseRec, h, hc, if_false]
  exact ⟨rfl, by simp, fun j hj => by simp [State.group_setGroup_ne _ _ hj]⟩

/-! ## The device's own reads and ordered actions -/

@[simp] theorem State.mem_askOwn (s : State) (c sec page : Nat) : (s.askOwn c sec page).mem = s.mem := by
  unfold State.askOwn; split
  · rfl
  · dsimp only; rw [State.mem_send, State.mem_newTag]

@[simp] theorem State.mem_askSpans (s : State) (c : Nat) (sp : List (Nat × Nat)) : (s.askSpans c sp).mem = s.mem := by
  unfold State.askSpans; dsimp only; split
  · rfl
  · exact mem_foldl (fun a (e : Nat × Nat) => a.mem_askOwn c e.1 e.2) _ s

@[simp] theorem State.mem_forget (s : State) (c : Nat) (l : List (Nat × Nat)) : (s.forget c l).mem = s.mem := by
  unfold State.forget; split <;> rfl

/-- Spans that are here, or have been read, are read at once; what was read of other devices is forgotten then. -/
theorem State.withOwn_there {s : State} {c : Nat} {sp : List (Nat × Nat)} (h : s.missing c sp = []) {k : State → Out} {u : State}
    (hk : k s = .next u) : s.withOwn c sp k = .next (u.forget c (s.spansAway c sp)) := by
  simp [State.withOwn, h, hk]

/-- Spans that are not are asked for, and nothing else is done. -/
theorem State.withOwn_missing {s : State} {c : Nat} {sp : List (Nat × Nat)} (h : s.missing c sp ≠ []) (k : State → Out) :
    s.withOwn c sp k = .next (s.askSpans c sp) := by
  simp [State.withOwn, h]

/-- Spans of this device's own memory are read as they are. -/
theorem State.withOwn_here {s : State} {c : Nat} {sp : List (Nat × Nat)} (h : s.spansAway c sp = []) (k : State → Out) :
    s.withOwn c sp k = k s := by
  simp only [State.withOwn, State.missing, h, List.filter_nil, List.isEmpty_nil, if_true, State.forget]
  cases k s <;> rfl

/-- What a step that reads spans of its own can answer: the answer of the reading step, with what was read forgotten, or a state
that has asked. -/
theorem State.withOwn_cases {s t : State} {c : Nat} {sp : List (Nat × Nat)} {k : State → Out} (h : s.withOwn c sp k = .next t) :
    (∃ u, s.missing c sp = [] ∧ k s = .next u ∧ t = u.forget c (s.spansAway c sp)) ∨ (s.missing c sp ≠ [] ∧ t = s.askSpans c sp) := by
  by_cases hm : s.missing c sp = []
  · left
    simp only [State.withOwn, hm, List.isEmpty_nil, if_true] at h
    split at h
    · rename_i u hu; exact ⟨u, hm, hu, (Host.Outcome.next.inj h).symm⟩
    · rename_i hn; exact absurd h (hn t)
  · exact .inr ⟨hm, by rw [State.withOwn_missing hm] at h; exact (Host.Outcome.next.inj h).symm⟩

/-- An action of the device's own, with nothing before it under way, is made at once. -/
theorem State.inOrder_now {c : Nat} {a : OwnAct} {as : List OwnAct} {s0 s : State} (h : s0.tagsSince s = []) (hd : s.dieQ = []) :
    State.inOrder c (a :: as) s0 s = State.inOrder c as s (s.ownAct c a) := by
  simp [State.inOrder, h, hd]

/-- One that must wait is kept, and changes nothing else. -/
theorem State.inOrder_later {c : Nat} {a : OwnAct} {as : List OwnAct} {s0 s : State} (h : s0.tagsSince s ≠ []) :
    State.inOrder c (a :: as) s0 s = { s with ordered := s.ordered ++ [{ ctx := c, tags := s0.tagsSince s, todo := a :: as }] } := by
  simp [State.inOrder, h]

end Sys2Proof.Machine
end

