-- ==== Sys2Proof/Laws/PerInstr.lean ====
section
/-! SUPPORT. For every instruction: which of the streams it stands in. -/

namespace Sys2Proof.Laws

/-- An instruction stands in one stream at most (R63, R81): it is a word of the address stream, an instruction of the compute
stream, or a one-parcel form of it; and only a word of the address stream has a literal. -/
def Streams.Statement (i : Instr) : Prop :=
  (i.aForm.isSome && (i.cForm.isSome || i.oneParcel.isSome) || i.cForm.isSome && i.oneParcel.isSome ||
    i.aLiteral.isSome && !i.aForm.isSome) = false

theorem Streams.add (x0 : SRegNo) (x1 : SRegNo) (x2 : SRegNo) : Streams.Statement (.add x0 x1 x2) := rfl
theorem Streams.sub (x0 : SRegNo) (x1 : SRegNo) (x2 : SRegNo) : Streams.Statement (.sub x0 x1 x2) := rfl
theorem Streams.mul (x0 : SRegNo) (x1 : SRegNo) (x2 : SRegNo) : Streams.Statement (.mul x0 x1 x2) := rfl
theorem Streams.mulhi (x0 : SRegNo) (x1 : SRegNo) (x2 : SRegNo) : Streams.Statement (.mulhi x0 x1 x2) := rfl
theorem Streams.divs (x0 : SRegNo) (x1 : SRegNo) (x2 : SRegNo) : Streams.Statement (.divs x0 x1 x2) := rfl
theorem Streams.divz (x0 : SRegNo) (x1 : SRegNo) (x2 : SRegNo) : Streams.Statement (.divz x0 x1 x2) := rfl
theorem Streams.rems (x0 : SRegNo) (x1 : SRegNo) (x2 : SRegNo) : Streams.Statement (.rems x0 x1 x2) := rfl
theorem Streams.remz (x0 : SRegNo) (x1 : SRegNo) (x2 : SRegNo) : Streams.Statement (.remz x0 x1 x2) := rfl
theorem Streams.and (x0 : SRegNo) (x1 : SRegNo) (x2 : SRegNo) : Streams.Statement (.and x0 x1 x2) := rfl
theorem Streams.or (x0 : SRegNo) (x1 : SRegNo) (x2 : SRegNo) : Streams.Statement (.or x0 x1 x2) := rfl
theorem Streams.xor (x0 : SRegNo) (x1 : SRegNo) (x2 : SRegNo) : Streams.Statement (.xor x0 x1 x2) := rfl
theorem Streams.shl (x0 : SRegNo) (x1 : SRegNo) (x2 : SRegNo) : Streams.Statement (.shl x0 x1 x2) := rfl
theorem Streams.shr (x0 : SRegNo) (x1 : SRegNo) (x2 : SRegNo) : Streams.Statement (.shr x0 x1 x2) := rfl
theorem Streams.sar (x0 : SRegNo) (x1 : SRegNo) (x2 : SRegNo) : Streams.Statement (.sar x0 x1 x2) := rfl
theorem Streams.min (x0 : SRegNo) (x1 : SRegNo) (x2 : SRegNo) : Streams.Statement (.min x0 x1 x2) := rfl
theorem Streams.max (x0 : SRegNo) (x1 : SRegNo) (x2 : SRegNo) : Streams.Statement (.max x0 x1 x2) := rfl
theorem Streams.minz (x0 : SRegNo) (x1 : SRegNo) (x2 : SRegNo) : Streams.Statement (.minz x0 x1 x2) := rfl
theorem Streams.maxz (x0 : SRegNo) (x1 : SRegNo) (x2 : SRegNo) : Streams.Statement (.maxz x0 x1 x2) := rfl
theorem Streams.slt (x0 : SRegNo) (x1 : SRegNo) (x2 : SRegNo) : Streams.Statement (.slt x0 x1 x2) := rfl
theorem Streams.sltz (x0 : SRegNo) (x1 : SRegNo) (x2 : SRegNo) : Streams.Statement (.sltz x0 x1 x2) := rfl
theorem Streams.seq (x0 : SRegNo) (x1 : SRegNo) (x2 : SRegNo) : Streams.Statement (.seq x0 x1 x2) := rfl
theorem Streams.sel (x0 : SRegNo) (x1 : SRegNo) (x2 : SRegNo) (x3 : SRegNo) : Streams.Statement (.sel x0 x1 x2 x3) := rfl
theorem Streams.addi (x0 : SRegNo) (x1 : SRegNo) (x2 : BitVec 14) : Streams.Statement (.addi x0 x1 x2) := rfl
theorem Streams.andi (x0 : SRegNo) (x1 : SRegNo) (x2 : BitVec 14) : Streams.Statement (.andi x0 x1 x2) := rfl
theorem Streams.ori (x0 : SRegNo) (x1 : SRegNo) (x2 : BitVec 14) : Streams.Statement (.ori x0 x1 x2) := rfl
theorem Streams.xori (x0 : SRegNo) (x1 : SRegNo) (x2 : BitVec 14) : Streams.Statement (.xori x0 x1 x2) := rfl
theorem Streams.shli (x0 : SRegNo) (x1 : SRegNo) (x2 : BitVec 6) : Streams.Statement (.shli x0 x1 x2) := rfl
theorem Streams.shri (x0 : SRegNo) (x1 : SRegNo) (x2 : BitVec 6) : Streams.Statement (.shri x0 x1 x2) := rfl
theorem Streams.sari (x0 : SRegNo) (x1 : SRegNo) (x2 : BitVec 6) : Streams.Statement (.sari x0 x1 x2) := rfl
theorem Streams.lih (x0 : SRegNo) (x1 : BitVec 20) : Streams.Statement (.lih x0 x1) := rfl
theorem Streams.li32 (x0 : SRegNo) (x1 : Word) : Streams.Statement (.li32 x0 x1) := rfl
theorem Streams.addpc (x0 : SRegNo) (x1 : BitVec 20) : Streams.Statement (.addpc x0 x1) := rfl
theorem Streams.ldk (x0 : SRegNo) (x1 : BitVec 12) : Streams.Statement (.ldk x0 x1) := rfl
theorem Streams.jmp (x0 : BitVec 20) : Streams.Statement (.jmp x0) := rfl
theorem Streams.call (x0 : SRegNo) (x1 : BitVec 20) : Streams.Statement (.call x0 x1) := rfl
theorem Streams.loop (x0 : SRegNo) (x1 : BitVec 20) : Streams.Statement (.loop x0 x1) := rfl
theorem Streams.beq (x0 : SRegNo) (x1 : SRegNo) (x2 : BitVec 14) : Streams.Statement (.beq x0 x1 x2) := rfl
theorem Streams.bne (x0 : SRegNo) (x1 : SRegNo) (x2 : BitVec 14) : Streams.Statement (.bne x0 x1 x2) := rfl
theorem Streams.blt (x0 : SRegNo) (x1 : SRegNo) (x2 : BitVec 14) : Streams.Statement (.blt x0 x1 x2) := rfl
theorem Streams.bge (x0 : SRegNo) (x1 : SRegNo) (x2 : BitVec 14) : Streams.Statement (.bge x0 x1 x2) := rfl
theorem Streams.blo (x0 : SRegNo) (x1 : SRegNo) (x2 : BitVec 14) : Streams.Statement (.blo x0 x1 x2) := rfl
theorem Streams.bhs (x0 : SRegNo) (x1 : SRegNo) (x2 : BitVec 14) : Streams.Statement (.bhs x0 x1 x2) := rfl
theorem Streams.jr (x0 : SRegNo) : Streams.Statement (.jr x0) := rfl
theorem Streams.ret (x0 : SRegNo) : Streams.Statement (.ret x0) := rfl
theorem Streams.halt : Streams.Statement .halt := rfl
theorem Streams.trap (x0 : SRegNo) (x1 : SRegNo) (x2 : SRegNo) : Streams.Statement (.trap x0 x1 x2) := rfl
theorem Streams.yield (x0 : SRegNo) : Streams.Statement (.yield x0) := rfl
theorem Streams.lblrd (x0 : SRegNo) (x1 : SRegNo) : Streams.Statement (.lblrd x0 x1) := rfl
theorem Streams.lblup (x0 : SRegNo) (x1 : SRegNo) (x2 : SRegNo) : Streams.Statement (.lblup x0 x1 x2) := rfl
theorem Streams.glbl (x0 : GSpace) (x1 : SRegNo) (x2 : SRegNo) : Streams.Statement (.glbl x0 x1 x2) := by cases x0 <;> rfl
theorem Streams.dcls (x0 : SRegNo) (x1 : SRegNo) (x2 : SRegNo) : Streams.Statement (.dcls x0 x1 x2) := rfl
theorem Streams.markJoin : Streams.Statement .markJoin := rfl
theorem Streams.markUser (x0 : SRegNo) : Streams.Statement (.markUser x0) := rfl
theorem Streams.brk (x0 : SRegNo) : Streams.Statement (.brk x0) := rfl
theorem Streams.yieldRec (x0 : SRegNo) : Streams.Statement (.yieldRec x0) := rfl
theorem Streams.lds (x0 : SRegNo) (x1 : SRegNo) (x2 : BitVec 14) : Streams.Statement (.lds x0 x1 x2) := rfl
theorem Streams.sts (x0 : SRegNo) (x1 : SRegNo) (x2 : BitVec 14) : Streams.Statement (.sts x0 x1 x2) := rfl
theorem Streams.amosAdd (x0 : SRegNo) (x1 : SRegNo) (x2 : SRegNo) : Streams.Statement (.amosAdd x0 x1 x2) := rfl
theorem Streams.amosAnd (x0 : SRegNo) (x1 : SRegNo) (x2 : SRegNo) : Streams.Statement (.amosAnd x0 x1 x2) := rfl
theorem Streams.amosOr (x0 : SRegNo) (x1 : SRegNo) (x2 : SRegNo) : Streams.Statement (.amosOr x0 x1 x2) := rfl
theorem Streams.amosXor (x0 : SRegNo) (x1 : SRegNo) (x2 : SRegNo) : Streams.Statement (.amosXor x0 x1 x2) := rfl
theorem Streams.amosMin (x0 : SRegNo) (x1 : SRegNo) (x2 : SRegNo) : Streams.Statement (.amosMin x0 x1 x2) := rfl
theorem Streams.amosMax (x0 : SRegNo) (x1 : SRegNo) (x2 : SRegNo) : Streams.Statement (.amosMax x0 x1 x2) := rfl
theorem Streams.amosMinz (x0 : SRegNo) (x1 : SRegNo) (x2 : SRegNo) : Streams.Statement (.amosMinz x0 x1 x2) := rfl
theorem Streams.amosMaxz (x0 : SRegNo) (x1 : SRegNo) (x2 : SRegNo) : Streams.Statement (.amosMaxz x0 x1 x2) := rfl
theorem Streams.amosSwap (x0 : SRegNo) (x1 : SRegNo) (x2 : SRegNo) : Streams.Statement (.amosSwap x0 x1 x2) := rfl
theorem Streams.amosCas (x0 : SRegNo) (x1 : SRegNo) (x2 : SRegNo) : Streams.Statement (.amosCas x0 x1 x2) := rfl
theorem Streams.vld (x0 : BitVec 2) (x1 : SRegNo) (x2 : BitVec 14) : Streams.Statement (.vld x0 x1 x2) := rfl
theorem Streams.vsta (x0 : SRegNo) (x1 : BitVec 14) : Streams.Statement (.vsta x0 x1) := rfl
theorem Streams.pref (x0 : SRegNo) (x1 : BitVec 14) : Streams.Statement (.pref x0 x1) := rfl
theorem Streams.run (x0 : SRegNo) (x1 : BitVec 20) : Streams.Statement (.run x0 x1) := rfl
theorem Streams.slipset (x0 : BitVec 14) : Streams.Statement (.slipset x0) := rfl
theorem Streams.popca (x0 : SRegNo) : Streams.Statement (.popca x0) := rfl
theorem Streams.port (x0 : SRegNo) : Streams.Statement (.port x0) := rfl
theorem Streams.coll (x0 : SRegNo) : Streams.Statement (.coll x0) := rfl
theorem Streams.alloc (x0 : SRegNo) (x1 : SRegNo) : Streams.Statement (.alloc x0 x1) := rfl
theorem Streams.free (x0 : SRegNo) : Streams.Statement (.free x0) := rfl
theorem Streams.resv (x0 : SRegNo) (x1 : SRegNo) (x2 : SRegNo) : Streams.Statement (.resv x0 x1 x2) := rfl
theorem Streams.unresv (x0 : SRegNo) : Streams.Statement (.unresv x0) := rfl
theorem Streams.detset (x0 : SRegNo) (x1 : SRegNo) : Streams.Statement (.detset x0 x1) := rfl
theorem Streams.waitfc (x0 : FC) (x1 : BitVec 12) : Streams.Statement (.waitfc x0 x1) := rfl
theorem Streams.sigadd (x0 : SRegNo) (x1 : SRegNo) : Streams.Statement (.sigadd x0 x1) := rfl
theorem Streams.sigdec (x0 : SRegNo) (x1 : SRegNo) : Streams.Statement (.sigdec x0 x1) := rfl
theorem Streams.sigwait (x0 : SRegNo) (x1 : SRegNo) : Streams.Statement (.sigwait x0 x1) := rfl
theorem Streams.launch (x0 : SRegNo) : Streams.Statement (.launch x0) := rfl
theorem Streams.early : Streams.Statement .early := rfl
theorem Streams.barinit (x0 : SRegNo) (x1 : SRegNo) : Streams.Statement (.barinit x0 x1) := rfl
theorem Streams.bararv (x0 : SRegNo) (x1 : SRegNo) (x2 : SRegNo) : Streams.Statement (.bararv x0 x1 x2) := rfl
theorem Streams.barwait (x0 : SRegNo) (x1 : SRegNo) : Streams.Statement (.barwait x0 x1) := rfl
theorem Streams.fence (x0 : Scope) (x1 : FenceKind) : Streams.Statement (.fence x0 x1) := rfl
theorem Streams.getsr (x0 : SRegNo) (x1 : BitVec 14) : Streams.Statement (.getsr x0 x1) := rfl
theorem Streams.setsr (x0 : SRegNo) (x1 : BitVec 14) : Streams.Statement (.setsr x0 x1) := rfl
theorem Streams.vadd (x0 : CFields) : Streams.Statement (.vadd x0) := rfl
theorem Streams.vsub (x0 : CFields) : Streams.Statement (.vsub x0) := rfl
theorem Streams.vmul (x0 : CFields) : Streams.Statement (.vmul x0) := rfl
theorem Streams.vmulhi (x0 : CFields) : Streams.Statement (.vmulhi x0) := rfl
theorem Streams.vmad (x0 : CFields) : Streams.Statement (.vmad x0) := rfl
theorem Streams.vadds (x0 : CFields) : Streams.Statement (.vadds x0) := rfl
theorem Streams.vsubs (x0 : CFields) : Streams.Statement (.vsubs x0) := rfl
theorem Streams.vand (x0 : CFields) : Streams.Statement (.vand x0) := rfl
theorem Streams.vor (x0 : CFields) : Streams.Statement (.vor x0) := rfl
theorem Streams.vxor (x0 : CFields) : Streams.Statement (.vxor x0) := rfl
theorem Streams.vnot (x0 : CFields) : Streams.Statement (.vnot x0) := rfl
theorem Streams.vshl (x0 : CFields) : Streams.Statement (.vshl x0) := rfl
theorem Streams.vshr (x0 : CFields) : Streams.Statement (.vshr x0) := rfl
theorem Streams.vsar (x0 : CFields) : Streams.Statement (.vsar x0) := rfl
theorem Streams.vmin (x0 : CFields) : Streams.Statement (.vmin x0) := rfl
theorem Streams.vmax (x0 : CFields) : Streams.Statement (.vmax x0) := rfl
theorem Streams.vabs (x0 : CFields) : Streams.Statement (.vabs x0) := rfl
theorem Streams.vneg (x0 : CFields) : Streams.Statement (.vneg x0) := rfl
theorem Streams.vcmp (x0 : CFields) : Streams.Statement (.vcmp x0) := rfl
theorem Streams.vsel (x0 : CFields) : Streams.Statement (.vsel x0) := rfl
theorem Streams.vpopc (x0 : CFields) : Streams.Statement (.vpopc x0) := rfl
theorem Streams.vclz (x0 : CFields) : Streams.Statement (.vclz x0) := rfl
theorem Streams.vbfe (x0 : CFields) : Streams.Statement (.vbfe x0) := rfl
theorem Streams.vbfi (x0 : CFields) : Streams.Statement (.vbfi x0) := rfl
theorem Streams.vpack (x0 : CFields) : Streams.Statement (.vpack x0) := rfl
theorem Streams.vunpk (x0 : CFields) : Streams.Statement (.vunpk x0) := rfl
theorem Streams.vfadd (x0 : CFields) : Streams.Statement (.vfadd x0) := rfl
theorem Streams.vfsub (x0 : CFields) : Streams.Statement (.vfsub x0) := rfl
theorem Streams.vfmul (x0 : CFields) : Streams.Statement (.vfmul x0) := rfl
theorem Streams.vfma (x0 : CFields) : Streams.Statement (.vfma x0) := rfl
theorem Streams.vfmin (x0 : CFields) : Streams.Statement (.vfmin x0) := rfl
theorem Streams.vfmax (x0 : CFields) : Streams.Statement (.vfmax x0) := rfl
theorem Streams.vfabs (x0 : CFields) : Streams.Statement (.vfabs x0) := rfl
theorem Streams.vfneg (x0 : CFields) : Streams.Statement (.vfneg x0) := rfl
theorem Streams.vfcmp (x0 : CFields) : Streams.Statement (.vfcmp x0) := rfl
theorem Streams.vfclass (x0 : CFields) : Streams.Statement (.vfclass x0) := rfl
theorem Streams.vcvt (x0 : CFields) : Streams.Statement (.vcvt x0) := rfl
theorem Streams.vqnt (x0 : CFields) : Streams.Statement (.vqnt x0) := rfl
theorem Streams.vdqnt (x0 : CFields) : Streams.Statement (.vdqnt x0) := rfl
theorem Streams.vscalb (x0 : CFields) : Streams.Statement (.vscalb x0) := rfl
theorem Streams.vexp2 (x0 : CFields) : Streams.Statement (.vexp2 x0) := rfl
theorem Streams.vlog2 (x0 : CFields) : Streams.Statement (.vlog2 x0) := rfl
theorem Streams.vrcp (x0 : CFields) : Streams.Statement (.vrcp x0) := rfl
theorem Streams.vrsq (x0 : CFields) : Streams.Statement (.vrsq x0) := rfl
theorem Streams.vsqrt (x0 : CFields) : Streams.Statement (.vsqrt x0) := rfl
theorem Streams.vtanh (x0 : CFields) : Streams.Statement (.vtanh x0) := rfl
theorem Streams.vsin (x0 : CFields) : Streams.Statement (.vsin x0) := rfl
theorem Streams.vcos (x0 : CFields) : Streams.Statement (.vcos x0) := rfl
theorem Streams.vshuf (x0 : CFields) : Streams.Statement (.vshuf x0) := rfl
theorem Streams.vshfl (x0 : CFields) : Streams.Statement (.vshfl x0) := rfl
theorem Streams.vvote (x0 : CFields) : Streams.Statement (.vvote x0) := rfl
theorem Streams.vred (x0 : CFields) : Streams.Statement (.vred x0) := rfl
theorem Streams.vscan (x0 : CFields) : Streams.Statement (.vscan x0) := rfl
theorem Streams.vbcast (x0 : CFields) : Streams.Statement (.vbcast x0) := rfl
theorem Streams.settw (x0 : CFields) : Streams.Statement (.settw x0) := rfl
theorem Streams.vmov (x0 : CFields) : Streams.Statement (.vmov x0) := rfl
theorem Streams.vrand (x0 : CFields) : Streams.Statement (.vrand x0) := rfl
theorem Streams.vldx (x0 : CFields) : Streams.Statement (.vldx x0) := rfl
theorem Streams.vstx (x0 : CFields) : Streams.Statement (.vstx x0) := rfl
theorem Streams.vstxNotify (x0 : CFields) : Streams.Statement (.vstxNotify x0) := rfl
theorem Streams.vamo (x0 : CFields) : Streams.Statement (.vamo x0) := rfl
theorem Streams.vamoDet (x0 : CFields) : Streams.Statement (.vamoDet x0) := rfl
theorem Streams.spld (x0 : CFields) : Streams.Statement (.spld x0) := rfl
theorem Streams.spst (x0 : CFields) : Streams.Statement (.spst x0) := rfl
theorem Streams.spamo (x0 : CFields) : Streams.Statement (.spamo x0) := rfl
theorem Streams.std (x0 : CFields) : Streams.Statement (.std x0) := rfl
theorem Streams.senda (x0 : CFields) : Streams.Statement (.senda x0) := rfl
theorem Streams.acld (x0 : CFields) : Streams.Statement (.acld x0) := rfl
theorem Streams.acst (x0 : CFields) : Streams.Statement (.acst x0) := rfl
theorem Streams.cwait (x0 : CFields) : Streams.Statement (.cwait x0) := rfl
theorem Streams.carv (x0 : CFields) : Streams.Statement (.carv x0) := rfl
theorem Streams.mxloop (x0 : CFields) : Streams.Statement (.mxloop x0) := rfl
theorem Streams.mxgrp (x0 : CFields) : Streams.Statement (.mxgrp x0) := rfl
theorem Streams.mxzero (x0 : CFields) : Streams.Statement (.mxzero x0) := rfl
theorem Streams.accvt (x0 : CFields) : Streams.Statement (.accvt x0) := rfl
theorem Streams.winit (x0 : CFields) : Streams.Statement (.winit x0) := rfl
theorem Streams.wpush (x0 : CFields) : Streams.Statement (.wpush x0) := rfl
theorem Streams.wqry (x0 : CFields) : Streams.Statement (.wqry x0) := rfl
theorem Streams.wsetw (x0 : CFields) : Streams.Statement (.wsetw x0) := rfl
theorem Streams.wfree (x0 : CFields) : Streams.Statement (.wfree x0) := rfl
theorem Streams.wstat (x0 : CFields) : Streams.Statement (.wstat x0) := rfl
theorem Streams.xunpk (x0 : CFields) : Streams.Statement (.xunpk x0) := rfl
theorem Streams.xdec (x0 : CFields) : Streams.Statement (.xdec x0) := rfl
theorem Streams.xlut (x0 : CFields) : Streams.Statement (.xlut x0) := rfl
theorem Streams.vdcls (x0 : CFields) : Streams.Statement (.vdcls x0) := rfl
theorem Streams.vlblrd (x0 : CFields) : Streams.Statement (.vlblrd x0) := rfl
theorem Streams.vlblup (x0 : CFields) : Streams.Statement (.vlblup x0) := rfl
theorem Streams.vsys (x0 : CFields) : Streams.Statement (.vsys x0) := rfl
theorem Streams.vbrk (x0 : CFields) : Streams.Statement (.vbrk x0) := rfl
theorem Streams.trlTake (x0 : BitVec 15) : Streams.Statement (.trlTake x0) := rfl
theorem Streams.trlFall (x0 : BitVec 15) : Streams.Statement (.trlFall x0) := rfl
theorem Streams.trlSkip (x0 : BitVec 15) (x1 : BitVec 3) (x2 : BitVec 7) : Streams.Statement (.trlSkip x0 x1 x2) := rfl
theorem Streams.trlRegang (x0 : BitVec 15) (x1 : BitVec 10) : Streams.Statement (.trlRegang x0 x1) := rfl
theorem Streams.trlEnd (x0 : BitVec 15) : Streams.Statement (.trlEnd x0) := rfl
theorem Streams.nop : Streams.Statement .nop := rfl
theorem Streams.fixedLatencyWrite (x0 : Nat) (x1 : Nat) : Streams.Statement (.fixedLatencyWrite x0 x1) := rfl
theorem Streams.runStart (x0 : Nat) (x1 : Nat) : Streams.Statement (.runStart x0 x1) := rfl
theorem Streams.takeEntry (x0 : Nat) (x1 : Nat) : Streams.Statement (.takeEntry x0 x1) := rfl
theorem Streams.quadEnd (x0 : Nat) (x1 : Nat) : Streams.Statement (.quadEnd x0 x1) := rfl
theorem Streams.groupFinish (x0 : Nat) : Streams.Statement (.groupFinish x0) := rfl
theorem Streams.unpairedDeadlock (x0 : Nat) : Streams.Statement (.unpairedDeadlock x0) := rfl
theorem Streams.decoupleDeadlockDetect (x0 : Nat) : Streams.Statement (.decoupleDeadlockDetect x0) := rfl
theorem Streams.popcaDeadlock (x0 : Nat) : Streams.Statement (.popcaDeadlock x0) := rfl
theorem Streams.ageCounterAged (x0 : Nat) (x1 : Bool) : Streams.Statement (.ageCounterAged x0 x1) := rfl
theorem Streams.vldEntryPresent (x0 : Nat) (x1 : Nat) : Streams.Statement (.vldEntryPresent x0 x1) := rfl
theorem Streams.vldFail (x0 : Nat) (x1 : Nat) : Streams.Statement (.vldFail x0 x1) := rfl
theorem Streams.vldPoisonIdle (x0 : Nat) : Streams.Statement (.vldPoisonIdle x0) := rfl
theorem Streams.ldsComplete (x0 : Nat) (x1 : Nat) : Streams.Statement (.ldsComplete x0 x1) := rfl
theorem Streams.stsComplete (x0 : Nat) (x1 : Nat) : Streams.Statement (.stsComplete x0 x1) := rfl
theorem Streams.amosComplete (x0 : Nat) (x1 : Nat) : Streams.Statement (.amosComplete x0 x1) := rfl
theorem Streams.detsetComplete (x0 : Nat) (x1 : Nat) : Streams.Statement (.detsetComplete x0 x1) := rfl
theorem Streams.queueStore (x0 : Nat) : Streams.Statement (.queueStore x0) := rfl
theorem Streams.storeApply (x0 : Nat) (x1 : Nat) (x2 : Nat) : Streams.Statement (.storeApply x0 x1 x2) := rfl
theorem Streams.laneAccessComplete (x0 : Nat) (x1 : Nat) : Streams.Statement (.laneAccessComplete x0 x1) := rfl
theorem Streams.sliceStop (x0 : Nat) (x1 : Nat) : Streams.Statement (.sliceStop x0 x1) := rfl
theorem Streams.barwaitSatisfied (x0 : Nat) : Streams.Statement (.barwaitSatisfied x0) := rfl
theorem Streams.cwaitSatisfied (x0 : Nat) (x1 : Nat) : Streams.Statement (.cwaitSatisfied x0 x1) := rfl
theorem Streams.sigwaitReread (x0 : Nat) : Streams.Statement (.sigwaitReread x0) := rfl
theorem Streams.fenceComplete (x0 : Nat) : Streams.Statement (.fenceComplete x0) := rfl
theorem Streams.waitfcSatisfied (x0 : Nat) : Streams.Statement (.waitfcSatisfied x0) := rfl
theorem Streams.allocGrant (x0 : Nat) : Streams.Statement (.allocGrant x0) := rfl
theorem Streams.allocDeadlockDetect (x0 : Nat) : Streams.Statement (.allocDeadlockDetect x0) := rfl
theorem Streams.bankFree (x0 : Nat) : Streams.Statement (.bankFree x0) := rfl
theorem Streams.resvRelease (x0 : Nat) : Streams.Statement (.resvRelease x0) := rfl
theorem Streams.porterComplete (x0 : Nat) (x1 : Nat) : Streams.Statement (.porterComplete x0 x1) := rfl
theorem Streams.transformReply (x0 : Nat) (x1 : Nat) : Streams.Statement (.transformReply x0 x1) := rfl
theorem Streams.weighhouseAnswer (x0 : Nat) (x1 : Nat) : Streams.Statement (.weighhouseAnswer x0 x1) := rfl
theorem Streams.syscallSlotPoll (x0 : Nat) : Streams.Statement (.syscallSlotPoll x0) := rfl
theorem Streams.pitchEntryStart (x0 : Nat) (x1 : Nat) : Streams.Statement (.pitchEntryStart x0 x1) := rfl
theorem Streams.matrixStep (x0 : Nat) (x1 : Nat) : Streams.Statement (.matrixStep x0 x1) := rfl
theorem Streams.pitchEntryComplete (x0 : Nat) (x1 : Nat) : Streams.Statement (.pitchEntryComplete x0 x1) := rfl
theorem Streams.accvtComplete (x0 : Nat) (x1 : Nat) : Streams.Statement (.accvtComplete x0 x1) := rfl
theorem Streams.windowOpPerform (x0 : Nat) : Streams.Statement (.windowOpPerform x0) := rfl
theorem Streams.detContribution (x0 : Nat) (x1 : Nat) (x2 : Nat) : Streams.Statement (.detContribution x0 x1 x2) := rfl
theorem Streams.collComplete (x0 : Nat) (x1 : Nat) : Streams.Statement (.collComplete x0 x1) := rfl
theorem Streams.loadRequest (x0 : Frame) : Streams.Statement (.loadRequest x0) := rfl
theorem Streams.loadReply (x0 : Frame) : Streams.Statement (.loadReply x0) := rfl
theorem Streams.storeFrame (x0 : Frame) : Streams.Statement (.storeFrame x0) := rfl
theorem Streams.acknowledgement (x0 : Frame) : Streams.Statement (.acknowledgement x0) := rfl
theorem Streams.atomicFrame (x0 : Frame) : Streams.Statement (.atomicFrame x0) := rfl
theorem Streams.atomicReply (x0 : Frame) : Streams.Statement (.atomicReply x0) := rfl
theorem Streams.notifyArrival (x0 : Frame) : Streams.Statement (.notifyArrival x0) := rfl
theorem Streams.rejection (x0 : Frame) : Streams.Statement (.rejection x0) := rfl
theorem Streams.invalidation (x0 : Frame) : Streams.Statement (.invalidation x0) := rfl
theorem Streams.invalidationAcknowledgement (x0 : Frame) : Streams.Statement (.invalidationAcknowledgement x0) := rfl
theorem Streams.fenceNotice (x0 : Frame) : Streams.Statement (.fenceNotice x0) := rfl
theorem Streams.dupUpdate (x0 : Frame) : Streams.Statement (.dupUpdate x0) := rfl
theorem Streams.dupAcknowledgement (x0 : Frame) : Streams.Statement (.dupAcknowledgement x0) := rfl
theorem Streams.contribution (x0 : Frame) : Streams.Statement (.contribution x0) := rfl
theorem Streams.combinedContribution (x0 : Frame) : Streams.Statement (.combinedContribution x0) := rfl
theorem Streams.resultChunk (x0 : Frame) : Streams.Statement (.resultChunk x0) := rfl
theorem Streams.shootdownRequest (x0 : Nat) (x1 : Nat) (x2 : Nat) : Streams.Statement (.shootdownRequest x0 x1 x2) := rfl
theorem Streams.shootdownTimeout : Streams.Statement .shootdownTimeout := rfl
theorem Streams.replyTimeout (x0 : Nat) : Streams.Statement (.replyTimeout x0) := rfl
theorem Streams.dupAckTimeout (x0 : Nat) : Streams.Statement (.dupAckTimeout x0) := rfl
theorem Streams.teamFaultSave (x0 : Nat) : Streams.Statement (.teamFaultSave x0) := rfl
theorem Streams.dispPoll (x0 : Nat) : Streams.Statement (.dispPoll x0) := rfl
theorem Streams.teamRetire (x0 : Nat) : Streams.Statement (.teamRetire x0) := rfl
theorem Streams.gridRetire (x0 : Nat) : Streams.Statement (.gridRetire x0) := rfl
theorem Streams.gridAdmit (x0 : Nat) : Streams.Statement (.gridAdmit x0) := rfl
theorem Streams.teamPlace (x0 : Nat) : Streams.Statement (.teamPlace x0) := rfl
theorem Streams.preemptMark (x0 : Nat) : Streams.Statement (.preemptMark x0) := rfl
theorem Streams.teamSaveYield (x0 : Nat) : Streams.Statement (.teamSaveYield x0) := rfl
theorem Streams.preemptDeadline (x0 : Nat) : Streams.Statement (.preemptDeadline x0) := rfl
theorem Streams.teamResume (x0 : Nat) : Streams.Statement (.teamResume x0) := rfl
theorem Streams.deviceReset (x0 : ResetInfo) : Streams.Statement (.deviceReset x0) := rfl
theorem Streams.ownerRegister (x0 : Nat) (x1 : Nat) (x2 : BitVec 4096) : Streams.Statement (.ownerRegister x0 x1 x2) := rfl
theorem Streams.endorsementInstall (x0 : EndorseRec) : Streams.Statement (.endorsementInstall x0) := rfl
theorem Streams.evidenceRequest (x0 : BitVec 512) (x1 : Nat) : Streams.Statement (.evidenceRequest x0 x1) := rfl
theorem Streams.firmwareUpdate (x0 : FwImage) (x1 : List Byte) : Streams.Statement (.firmwareUpdate x0 x1) := rfl
theorem Streams.debugUnlock (x0 : Bool) : Streams.Statement (.debugUnlock x0) := rfl
theorem Streams.protectedContextCreate (x0 : Nat) (x1 : Nat) : Streams.Statement (.protectedContextCreate x0 x1) := rfl
theorem Streams.keyRotate (x0 : Nat) : Streams.Statement (.keyRotate x0) := rfl
theorem Streams.frameAllocate (x0 : Nat) (x1 : Nat) (x2 : Nat) : Streams.Statement (.frameAllocate x0 x1 x2) := rfl
theorem Streams.powerRedivide (x0 : List Nat) : Streams.Statement (.powerRedivide x0) := rfl
theorem Streams.trcctlWrite (x0 : Nat) (x1 : DWord) : Streams.Statement (.trcctlWrite x0 x1) := rfl
theorem Streams.traceSample (x0 : Nat) (x1 : Nat) : Streams.Statement (.traceSample x0 x1) := rfl
theorem Streams.traceLeaseBroken (x0 : Nat) : Streams.Statement (.traceLeaseBroken x0) := rfl
theorem Streams.pmuRotate (x0 : Nat) : Streams.Statement (.pmuRotate x0) := rfl
theorem Streams.bkctlHrel (x0 : Nat) (x1 : Nat) : Streams.Statement (.bkctlHrel x0 x1) := rfl
theorem Streams.breakpointMatch (x0 : Nat) (x1 : Nat) (x2 : Bool) : Streams.Statement (.breakpointMatch x0 x1 x2) := rfl
theorem Streams.dbgstepWrite (x0 : Nat) (x1 : DWord) : Streams.Statement (.dbgstepWrite x0 x1) := rfl
theorem Streams.stepStop (x0 : Nat) : Streams.Statement (.stepStop x0) := rfl
theorem Streams.debugRead (x0 : Nat) (x1 : DebugTarget) : Streams.Statement (.debugRead x0 x1) := rfl
theorem Streams.registerWrite (x0 : Nat) (x1 : Nat) (x2 : DWord) : Streams.Statement (.registerWrite x0 x1 x2) := rfl
theorem Streams.hostBar2Read (x0 : Nat) (x1 : Nat) : Streams.Statement (.hostBar2Read x0 x1) := rfl
theorem Streams.hostBar2Write (x0 : Nat) (x1 : List Byte) : Streams.Statement (.hostBar2Write x0 x1) := rfl
theorem Streams.lineRelocation (x0 : Nat) : Streams.Statement (.lineRelocation x0) := rfl
theorem Streams.fenceClear (x0 : Nat) : Streams.Statement (.fenceClear x0) := rfl
theorem Streams.savedTeamAged (x0 : Nat) : Streams.Statement (.savedTeamAged x0) := rfl
theorem Streams.resumedResidency10ms (x0 : Nat) : Streams.Statement (.resumedResidency10ms x0) := rfl

end Sys2Proof.Laws
end

