-- ==== Sys2Proof/Laws/Scalar.lean ====
section
/-! SUPPORT. What a word of the address stream that writes a scalar register does, said once, and the arithmetic that the
claims spell otherwise than the meanings. -/

namespace Sys2Proof.Machine

open Sys2Proof

/-! ## Labels of results in the order of the claims (R118) -/

theorem resultLabel_one (k a : Label) : resultLabel k [a] = a ||| k := by
  simp only [resultLabel, Label.joinAll, Label.join, List.foldl]
  simp [BitVec.or_comm]

theorem resultLabel_two (k a b : Label) : resultLabel k [a, b] = (a ||| b) ||| k := by
  simp only [resultLabel, Label.joinAll, Label.join, List.foldl]
  simp [BitVec.or_comm]

theorem resultLabel_three (k a b c : Label) : resultLabel k [a, b, c] = (a ||| b ||| c) ||| k := by
  simp only [resultLabel, Label.joinAll, Label.join, List.foldl]
  simp [BitVec.or_comm]

/-! ## Words that write one register -/

/-- Free registers hold no word back (R154). -/
theorem State.whenFree_of_regsFree {s : State} {rs : List SRegNo} (h : s.regsFree rs) (i : Instr) (k : Out) : s.whenFree i rs k = k := by
  have : rs.any s.grp.sHeld = false := by
    simp only [List.any_eq_false]
    intro r hr
    simp [h r hr]
  simp [State.whenFree, this]

/-- Where room is not wanting, a word does not wait for it. -/
@[simp] theorem State.whenRoom_false (s : State) (i : Instr) (k : Out) : s.whenRoom i false k = k := rfl

/-- Writing a scalar register is the whole effect of a word that does it (R154, R159). -/
theorem aWrite_completes (s : State) (d : SRegNo) (v : DWord) (l : Label) (n : Nat) :
    Completes (s.aWrite d v l n) (fun t => ScalarResult s t d v l n) := by
  refine ⟨_, rfl, ⟨⟨rfl, fun j hj => State.group_setGrp_ne _ _ hj⟩, ?_⟩, ?_, ?_, ?_⟩
  · have : (s.setGrp ((s.grp.setSreg d { val := v, lbl := l }).advance n)).grp = _ := State.grp_setGrp ..
    rw [this]
    unfold Group.setSreg
    split <;> rfl
  · rw [State.grp_setGrp]
    simp
  · rw [State.grp_setGrp]
    simp
  · intro r
    rw [State.grp_setGrp, Group.sreg_advance, Group.sreg_setSreg]

/-- A word of the ALU group computes `f` of its sources (R159, R118). -/
theorem alu2_completes (i : Instr) (f : DWord → DWord → DWord) {s : State} {d a b : SRegNo} (h : s.regsFree [a, b, d]) {v : DWord}
    (hv : f (s.grp.sreg a).val (s.grp.sreg b).val = v) :
    Completes (alu2 i f d a b s) (fun t => ScalarResult s t d v (((s.grp.sreg a).lbl ||| (s.grp.sreg b).lbl) ||| s.grp.pA) 4) := by
  unfold alu2
  rw [State.whenFree_of_regsFree h, ← resultLabel_two, hv]
  exact aWrite_completes ..

/-! ## Signed division as truncation (R159) -/

theorem sdiv_eq_ofInt (x y : DWord) : x.sdiv y = BitVec.ofInt 64 (x.toInt.tdiv y.toInt) := by
  apply BitVec.eq_of_toInt_eq
  rw [BitVec.toInt_sdiv, BitVec.toInt_ofInt]

theorem srem_eq_ofInt (x y : DWord) : x.srem y = BitVec.ofInt 64 (x.toInt.tmod y.toInt) := by
  apply BitVec.eq_of_toInt_eq
  rw [BitVec.toInt_srem, BitVec.toInt_ofInt]
  have h := BitVec.toInt_srem x y
  symm
  apply Int.bmod_eq_of_le
  · have := BitVec.le_toInt (x.srem y)
    rw [← h]
    norm_num at *
    omega
  · have := @BitVec.toInt_lt 64 (x.srem y)
    rw [← h]
    norm_num at *
    omega

end Sys2Proof.Machine
end

