-- ==== Sys2Proof/Tests/Slice0.lean ====
section
/-! SUPPORT. Tests: small checks of one step or one word each, with what the manual says of them, and for every claim with
hypotheses a state that meets them. -/

namespace Sys2Proof.Tests

open Sys2Proof Sys2Proof.Machine

set_option maxRecDepth 20000
set_option linter.unusedVariables false
set_option Elab.async false

/-! ## A small device: one grid of four teams, one team placed, one group that stands at its code

Pages 4 to 7 of context 0 are mapped at their own addresses: code (log 3), data that the team may write, a page of
deterministic words, and the team's context block. -/

/-- The launch record of the laboratory grid. -/
def labRec : Launch :=
  { Launch.empty with n := 4, acode := 0x40000, asize := 64, ccode := 0x41000, csize := 128, kbank := 0x44000, gcount := 1, lanes := 32,
                      vregs := 64, pitches := 2, accpeak := 8, spsize := 4096, wres := 4, syssig := 0x50100, clr := 0x00FF#16,
                      pceil := 0x000F#16, ctxarea := 0x70000, ctxsz := 1, ctxn := 1, leases := [{ base := 5, npg := 2, w := true }] }

/-- Its team 0. -/
def labTeam : Team := { grid := 0, teamix := 0, state := .resident, block := some 0, pitches := [(0, {}), (1, {})] }

/-- The group of a role. -/
def labGroup (role : Nat) : Group := { fetchGroup role with nvregs := 64 }

/-- The device with group 0 as the function leaves it. -/
def lab (role : Nat) (f : Group → Group) : State :=
  let s := (((State.reset.withCode 32 0).writeMem 0x30028 (bytesOf (tableEntry 0 5 3) 8)).writeMem 0x30030
    (bytesOf (tableEntry 0 6 0x23) 8)).writeMem 0x30038 (bytesOf (tableEntry 0 7 3) 8)
  { s with ctxs := [(0, { root := 0x10000 })], owners := [(4, 0), (5, 0), (6, 0), (7, 0)],
           grids := [(0, { rec_ := labRec, lrec := 0x50000, ctx := 0, order := 0, admitted := true, nextTeam := 1 })],
           teams := [(0, labTeam)], groups := [(0, f (labGroup role))] }

/-- Scalar registers: number, value and label. -/
def regs (rs : List (Nat × Int × Nat)) (g : Group) : Group :=
  rs.foldl (fun g r => g.setSreg (BitVec.ofNat 6 r.1) { val := BitVec.ofInt 64 r.2.1, lbl := BitVec.ofNat 16 r.2.2 }) g

/-- The next state of an outcome. -/
def after (o : Out) : State := match o with | .next t => t | _ => State.reset

/-- The operation `n` of group 0. -/
def opOf (s : State) (n : Nat) : Op := ((s.group 0).op n).getD { id := 999, fc := none }

/-- What performing it whole leaves: the state and its accesses. -/
def performed (s : State) (n : Nat) : State × List Acc :=
  match s.perform 0 (opOf s n) (fun _ => true) with | .ok t a => (t, a) | _ => (s, [])

/-- The first access it has then. -/
def acc1 (s : State) (n : Nat) : Acc := (performed s n).2.headD {}

/-- A vector register from its lanes. -/
def vreg (n : Nat) (f : Nat → Nat) (l : Nat) (g : Group) : Group :=
  { g with vregs := g.vregs.put n { lanes := (List.range 32).map (fun i => BitVec.ofNat 32 (f i)), lbl := BitVec.ofNat 16 l } }

/-- The fields of a plain instruction on S32 that writes v3 from v1, v2 and v4. -/
def flds : CFields := { dt := .s32, pr := 0#3, pn := false, tk := 0#4, rm := .rne, sat := false, ru := false, imm := .none, x := 0#2,
                        dst := 3#10, sa := 1#10, sb := 2#10, sc := 4#10, ext := 0#20 }

/-- A record of `n` bytes from its fields: offset, length and value. -/
def record (n : Nat) (fs : List (Nat × Nat × Nat)) : List Byte :=
  fs.foldl (fun b f => b.take f.1 ++ bytesOf f.2.2 f.2.1 ++ b.drop (f.1 + f.2.1)) (List.replicate n 0#8)

/-- What reading a record gives. -/
def recAt (s : State) (va n : Nat) : State × List Byte × Label := match s.readRec s.cur va n with | .ok t b l => (t, b, l) | _ => (s, [], 0#16)

/-- Where it gives anything, the read is what `recAt` says. -/
theorem recAt_ok {s : State} {v va n : Nat} (hv : v = va)
    (h : (match s.readRec s.cur va n with | .ok .. => true | _ => false) = true) :
    s.readRec s.cur v n = .ok (recAt s va n).1 (recAt s va n).2.1 (recAt s va n).2.2 := by
  subst hv
  unfold recAt
  split at h <;> simp_all

/-- The read, with what holds of the label and the bytes it gives. -/
theorem recAt_meets {s : State} {v va n : Nat} {P : Label → Prop} [DecidablePred P] {q : List Byte → Bool} {b : Bool} (hv : v = va)
    (h : (match s.readRec s.cur va n with | .ok _ x l => decide (P l) && (q x == b) | _ => false) = true) :
    s.readRec s.cur v n = .ok (recAt s va n).1 (recAt s va n).2.1 (recAt s va n).2.2 ∧ P (recAt s va n).2.2 ∧ q (recAt s va n).2.1 = b := by
  subst hv
  unfold recAt
  split at h <;> simp_all

/-! ## Instructions of the compute stream that may issue -/

/-- What an instruction that may issue has read (the conditions of `Issues`, computed). -/
def issueOf (i : Instr) (sp : CSpec) (s : State) : Option (CRow × CIn × State) :=
  match i.cForm with
  | none => none
  | some (cls, op, f) => match cRow cls op with
    | none => none
    | some r =>
      let p := s.path
      let g := s.grp
      let codes := r.sources f
      let na := (r.a.code f.sa).length
      let nb := ((r.slotB f).code f.sb).length
      let rd (slot : Slot) (v : BitVec 10) (quads n : Nat) : Operand :=
        if (slot.code v).isEmpty then { lanes := List.replicate 32 0#32, lbl := 0#16 }
        else g.readCode s.freeCtr p.qmask (p.qmask ||| quads) ((codes.take n).count v.toNat) v.toNat
      match s.readB f sp.imm (r.slotB f) (p.qmask ||| sp.qb) ((codes.take na).count f.sb.toNat) with
      | .ok s0 b =>
        if r.codesOk f g.nvregs = true ∧ sp.static g.nvregs = true ∧ sp.role.all (g.role == ·) = true ∧
          (f.tk = 0#4 ∨ ∀ q ∈ quadSet p.qmask, (g.quad q).ticket f.tk.toNat = 0) ∧
          g.held p.qmask (r.readSet f ++ r.writeSet f ++ sp.reads ++ sp.writes) = false ∧
          s.readHeld s.cur (r.writeSet f ++ sp.writes) = false ∧ sp.fc.all (fun c => !s.pathFull s.cur c) = true ∧
          (g.popsOf p.qmask codes == .ready) = true then
          some (r, { f := f, qmask := p.qmask, written := g.writtenLanes p f, full := g.fullIssue p f, k := g.kLabel p f,
                     a := rd r.a f.sa sp.qa 0, b := b, c := rd (r.slotC f) f.sc sp.qc (na + nb) },
            s0.setGrp (s0.grp.pop p.qmask codes))
        else none
      | _ => none

/-- An instruction with such operands may issue. -/
theorem issues_of_issueOf {i : Instr} {sp : CSpec} {s s1 : State} {r : CRow} {x : CIn} (h : issueOf i sp s = some (r, x, s1)) :
    Issues i r sp s x s1 := by
  unfold issueOf at h
  split at h
  · cases h
  · rename_i cls op f hf
    split at h
    · cases h
    · rename_i r' hr
      simp only at h
      split at h
      · rename_i s0 b hb
        split at h
        · rename_i hc
          obtain ⟨h1, h2, h3, h4, h5, h6, h7, h8⟩ := hc
          cases h
          refine ⟨cls, op, s0, b, hf, hr, h1, h2, ?_, h4, h5, h6, ?_, eq_of_beq h8, hb, rfl, rfl⟩
          · intro n hn
            simp only [hn, Option.all_some, beq_iff_eq] at h3
            exact h3
          · intro c hc
            simpa only [hc, Option.all_some, Bool.not_eq_true', Bool.not_eq_true] using h7
        · cases h
      · cases h

/-- Whether the instruction may issue and what it has read then meets `P`. -/
def issuesWith (i : Instr) (sp : CSpec) (s : State) (P : CIn → State → Bool) : Bool :=
  match issueOf i sp s with
  | some (_, x, s1) => P x s1
  | none => false

/-- The premises of a claim about an instruction that issues are met. -/
theorem issues_with {i : Instr} {sp : CSpec} {s : State} {P : CIn → State → Bool} (h : issuesWith i sp s P = true) :
    ∃ r x s1, Issues i r sp s x s1 ∧ P x s1 = true := by
  unfold issuesWith at h
  split at h
  · rename_i r x s1 he
    exact ⟨r, x, s1, issues_of_issueOf he, h⟩
  · cases h

/-- The same with the premises as they stand in the claim. -/
theorem issues_meet {i : Instr} {sp : CSpec} {s : State} {P : CIn → State → Prop} [d : ∀ x s1, Decidable (P x s1)]
    (h : issuesWith i sp s (fun x s1 => decide (P x s1)) = true) : ∃ s1 r x, Issues i r sp s x s1 ∧ P x s1 := by
  obtain ⟨r, x, s1, h1, h2⟩ := issues_with h
  exact ⟨s1, r, x, h1, of_decide_eq_true h2⟩

/-- A row of the compute stream's table. -/
def addRow : CRow := { build := .vadd }

/-- What an instruction that may issue has read, and the state once its pops are made. -/
def issued (i : Instr) (sp : CSpec) (s : State) : CRow × CIn × State :=
  (issueOf i sp s).getD (addRow, { f := flds, qmask := 0, written := 0, full := false, k := 0, a := ⟨[], 0⟩, b := ⟨[], 0⟩, c := ⟨[], 0⟩ }, s)

/-- The same where the claim has no further premise. -/
theorem issues_exist {i : Instr} {sp : CSpec} {s : State} (h : issuesWith i sp s (fun _ _ => true) = true) :
    ∃ s1 r x, Issues i r sp s x s1 := by
  obtain ⟨r, x, s1, h1, -⟩ := issues_with h
  exact ⟨s1, r, x, h1⟩

/-- What holds of the one group holds of every group. -/
theorem all_groups {s : State} {P : Nat × Group → Prop} (k : Nat) (g : Group) (h : s.groups = [(k, g)])
    (hp : P (k, g)) : ∀ y ∈ s.groups, P y := by
  rw [h]; simpa using hp

/-! ## Well-formedness: an ill-formed term for each check, and that the check refuses it -/

/-- The fields with every field at its default. -/
def zf : CFields := { dt := .s8, pr := 0#3, pn := false, tk := 0#4, rm := .rne, sat := false, ru := false, imm := .none, x := 0#2,
                      dst := 0#10, sa := 0#10, sb := 0#10, sc := 0#10, ext := 0#20 }

def w32 : CFields := { zf with dt := .s32 }

theorem test_wf_plain : Instr.wf (.vadd w32) = true := by decide
theorem test_wf_skip_zero : Instr.wf (.trlSkip 0#15 2#3 0#7) = false := by decide
theorem test_wf_type : Instr.wf (.vadd { zf with dt := .f32 }) = false := by decide
theorem test_wf_undefined_field : Instr.wf (.vadd { w32 with sat := true }) = false := by decide
theorem test_wf_immediate_form : Instr.wf (.vmul { zf with dt := .f32, imm := .k 0#12 }) = false := by decide
theorem test_wf_x_field : Instr.wf (.vadd { w32 with x := 1#2 }) = false := by decide
theorem test_wf_ext_field : Instr.wf (.vadd { w32 with ext := 1#20 }) = false := by decide
theorem test_wf_source_code : Instr.wf (.vadd { w32 with sa := 783#10 }) = false := by decide
theorem test_wf_dest_code : Instr.wf (.vadd { w32 with dst := 776#10 }) = false := by decide
theorem test_wf_dest_condition : Instr.wf (.vcmp { w32 with dst := 48#10 }) = false := by decide
theorem test_wf_canonical_ext : Instr.wf (.vadd { w32 with imm := .i20 1#20, ext := 1#20 }) = false := by decide
theorem test_wf_canonical_k : Instr.wf (.vadd { w32 with imm := .k 1#12, sb := 1#10 }) = false := by decide
theorem test_wf_joint_window : Instr.wf (.winit { zf with dt := .z32, imm := .lit 0#32 }) = false := by decide
theorem test_wf_select : Instr.wf (.vstx { w32 with x := 1#2 }) = false := by decide

/-! ## Decoding: words from the manual's listings and tables -/

-- spec/06 word 0 to 13 of the listing, spec/03 R61's examples.
theorem test_decode_getsr : decodeWords true [0xF8100010#32] = .ok (.getsr 1#6 0x010#14) := rfl
theorem test_decode_lds : decodeWords true [0x80304008#32] = .ok (.lds 3#6 1#6 8#14) := rfl
theorem test_decode_addi : decodeWords true [0x0C208080#32] = .ok (.addi 2#6 2#6 128#14) := rfl
theorem test_decode_vld : decodeWords true [0xA0008000#32] = .ok (.vld 0#2 2#6 0#14) := rfl
theorem test_decode_vsta : decodeWords true [0xA4008000#32] = .ok (.vsta 2#6 0#14) := rfl
theorem test_decode_run : decodeWords true [0xAC000008#32] = .ok (.run 0#6 8#20) := rfl
theorem test_decode_loop : decodeWords true [0x484FFFFC#32] = .ok (.loop 4#6 0xFFFFC#20) := rfl
theorem test_decode_mark : decodeWords true [0x6C000006#32] = .ok .markJoin := rfl
theorem test_decode_waitfc : decodeWords true [0xDC800000#32] = .ok (.waitfc .st 0#12) := rfl
theorem test_decode_sigdec : decodeWords true [0xE400C500#32] = .ok (.sigdec 3#6 5#6) := rfl
theorem test_decode_add : decodeWords true [0x04408300#32] = .ok (.add 4#6 2#6 3#6) := rfl
theorem test_decode_beq : decodeWords true [0x4C417FFD#32] = .ok (.beq 4#6 5#6 0x3FFD#14) := rfl
theorem test_decode_port : decodeWords true [0xC001C000#32] = .ok (.port 7#6) := rfl
theorem test_decode_coll : decodeWords true [0xC401C000#32] = .ok (.coll 7#6) := rfl
theorem test_decode_yield_rec : decodeWords true [0x6C01C008#32] = .ok (.yieldRec 7#6) := rfl
-- Fixed fields and unassigned values (R61, R65).
theorem test_decode_bad_func : decodeWords true [0b000001_000011_000001_000010_00010101#32] = .error .unassignedFunc := rfl
theorem test_decode_bad_fixed : decodeWords true [0x6C000206#32] = .error .markKind := rfl
theorem test_decode_bad_op : decodeWords true [0x00000000#32] = .error .unassignedOp := rfl
-- spec/02, spec/03, spec/07 to spec/09: the translations written out there.
theorem test_decode_vfmul : decodeWords false [0x10280004#32, 0x02708000#32, 0x0003FC00#32] =
  .ok (.vfmul { zf with dt := .f32, imm := .i20 0x3FC00#20, dst := 9#10, sa := 776#10 }) := rfl
theorem test_decode_vfma : decodeWords false [0x10380008#32, 0x01001000#32, 0x00C00000#32, 0x3DCCCCCD#32] =
  .ok (.vfma { zf with dt := .f32, imm := .lit 0x3DCCCCCD#32, dst := 4#10, sa := 1#10, sc := 3#10 }) := rfl
theorem test_decode_vfadd_k : decodeWords false [0x1008000D#32, 0x01402450#32, 0#32] =
  .ok (.vfadd { zf with dt := .f32, imm := .k 1300#12, dst := 5#10, sa := 2#10 }) := rfl
theorem test_decode_vcmp : decodeWords false [0x01220004#32, 0x08801000#32, 0#32] =
  .ok (.vcmp { w32 with imm := .i20 0#20, dst := 0b100010#10, sa := 1#10 }) := rfl
theorem test_decode_vcvt : decodeWords false [0x10AB0020#32, 0x02002000#32, 8#32] =
  .ok (.vcvt { zf with dt := .e4m3n, sat := true, dst := 8#10, sa := 2#10, ext := 8#20 }) := rfl
theorem test_decode_vsin : decodeWords false [0x206800C0#32, 0x01C06000#32, 0#32] =
  .ok (.vsin { zf with dt := .f32, rm := .rup, dst := 7#10, sa := 6#10 }) := rfl
theorem test_decode_vshfl : decodeWords false [0x30100006#32, 0x01C03000#32, 1#32] =
  .ok (.vshfl { zf with imm := .i20 1#20, x := 2#2, dst := 7#10, sa := 3#10 }) := rfl
theorem test_decode_vred : decodeWords false [0x30320000#32, 0x01805000#32, 2#32] =
  .ok (.vred { w32 with dst := 6#10, sa := 5#10, ext := 2#20 }) := rfl
theorem test_decode_settw : decodeWords false [0x30600004#32, 0#32, 8#32] = .ok (.settw { zf with imm := .i20 8#20 }) := rfl
theorem test_decode_vrand : decodeWords false [0x30800008#32, 0x03001000#32, 0x00800000#32, 7#32] =
  .ok (.vrand { zf with imm := .lit 7#32, dst := 12#10, sa := 1#10, sc := 2#10 }) := rfl
theorem test_decode_vldx : decodeWords false [0x40020304#32, 0x02814000#32, 0x10#32] =
  .ok (.vldx { w32 with tk := 3#4, imm := .i20 16#20, dst := 10#10, sa := 20#10 }) := rfl
theorem test_decode_cwait : decodeWords false [0x50000505#32, 0#32, 0x40#32] =
  .ok (.cwait { zf with tk := 5#4, imm := .i20 0x40#20, x := 1#2 }) := rfl
theorem test_decode_xunpk : decodeWords false [0x80040200#32, 0x03004014#32, 0x304#32] =
  .ok (.xunpk { zf with dt := .z8, tk := 2#4, dst := 12#10, sa := 4#10, sb := 5#10, ext := 0x304#20 }) := rfl
theorem test_decode_mxloop : decodeWords false [0x600B0000#32, 0x00040020#32, 0x04000120#32] =
  .ok (.mxloop { zf with dt := .e4m3n, sa := 64#10, sb := 8#10, sc := 16#10, ext := 0x120#20 }) := rfl
theorem test_decode_mxzero : decodeWords false [0x60200005#32, 0#32, 0x10000#32] =
  .ok (.mxzero { zf with imm := .i20 0x10000#20, x := 1#2 }) := rfl
theorem test_decode_accvt : decodeWords false [0x603B0420#32, 0x19009028#32, 8#32] =
  .ok (.accvt { zf with dt := .e4m3n, tk := 4#4, sat := true, dst := 100#10, sa := 9#10, sb := 10#10, ext := 8#20 }) := rfl
theorem test_decode_winit : decodeWords false [0x70020008#32, 0#32, 0x190#32, 5#32] =
  .ok (.winit { w32 with imm := .lit 5#32, ext := 0x190#20 }) := rfl
theorem test_decode_skip : decodeWords false [0xE4000103#32] = .ok (.trlSkip 0#15 2#3 3#7) := rfl
theorem test_decode_take : decodeWords false [0xE0001400#32] = .ok (.trlTake 0b101#15) := rfl
theorem test_decode_regang : decodeWords false [0xE6000801#32] = .ok (.trlRegang 2#15 1#10) := rfl
theorem test_decode_nop : decodeWords false [0xF0000000#32] = .ok .nop := rfl
theorem test_decode_class : decodeWords false [0xA0000000#32, 0#32, 0#32] = .error .unassignedClass := rfl
-- Every constructor of the two streams decodes from its own encoding: the word that the tables of R65 to R81 give it.
theorem test_encode_lds : encode (.lds 3#6 1#6 8#14) = [0x80304008#32] := rfl
theorem test_encode_vsin : encode (.vsin { zf with dt := .f32, rm := .rup, dst := 7#10, sa := 6#10 }) = [0x206800C0#32, 0x01C06000#32, 0#32] := rfl

/-! ## Formats: the worked examples of spec/04 and spec/07 -/

theorem test_div_by_zero : divs64 5#64 0#64 = BitVec.intMax 64 := by decide
theorem test_round_e4m3n_tie : encodeTy .e4m3n .rne false (decodeTy .f32 0x43780000) = 0x80 := by decide
theorem test_round_e4m3n_sat : encodeTy .e4m3n .rne true (decodeTy .f32 0x43780000) = 0x7F := by decide
theorem test_round_e4m3n_rtz : encodeTy .e4m3n .rtz false (decodeTy .f32 0x43780000) = 0x7F := by decide
theorem test_round_f16_overflow : encodeTy .f16 .rne true (decodeTy .f32 0x477FF000) = 0x7C00 := by decide
theorem test_round_e4m3n_up : encodeTy .e4m3n .rup false (decodeTy .f32 0x38D1B717) = 0x01 := by decide
theorem test_round_e4m3n_down : encodeTy .e4m3n .rdn false (decodeTy .f32 0xB8D1B717) = 0x81 := by decide
theorem test_vcvt_third : convertTy .f32 .e4m3n .rne true 0x3E99999A = 0x32 := by decide
theorem test_vcvt_minus_inf : convertTy .f32 .e4m3n .rne true 0xFF800000 = 0xFF := by decide
theorem test_vcvt_nan : convertTy .f32 .e4m3n .rne true 0x7FC00000 = 0x80 := by decide
theorem test_vqnt_example : encodeTy .e4m3n .rne false ((decodeTy .f32 0x3F7C0000).div (decodeTy .f32 0x40400000)) = 0x32 := by decide
theorem test_philox : philox 10 (0#32, 0#32, 0#32, 0#32) 0#32 0#32 = (0x6627E8D5#32, 0xE169C58D#32, 0xBC57AC4C#32, 0x9B00DBD8#32) := by decide
theorem test_xunpk : unpackLane .z8 0x304 0x87654321#32 0x000000A9#32 = 0x0A090807#32 := by decide

/-! ### Every instruction of both streams: words written out from the encoding tables (spec/03 R63 to R81, spec/opcode_table.json) -/

/-- The words decode to the instruction. -/
def reads (address : Bool) (ws : List Word) (i : Instr) : Bool :=
  match decodeWords address ws with
  | .ok j => decide (j = i)
  | .error _ => false

theorem test_words_a0 : [
    reads true [0x04346600#32] (.add 3#6 17#6 38#6),
    reads true [0x04346601#32] (.sub 3#6 17#6 38#6),
    reads true [0x04346602#32] (.mul 3#6 17#6 38#6),
    reads true [0x04346603#32] (.mulhi 3#6 17#6 38#6),
    reads true [0x04346604#32] (.divs 3#6 17#6 38#6),
    reads true [0x04346605#32] (.divz 3#6 17#6 38#6),
    reads true [0x04346606#32] (.rems 3#6 17#6 38#6),
    reads true [0x04346607#32] (.remz 3#6 17#6 38#6),
    reads true [0x04346608#32] (.and 3#6 17#6 38#6),
    reads true [0x04346609#32] (.or 3#6 17#6 38#6),
    reads true [0x0434660A#32] (.xor 3#6 17#6 38#6),
    reads true [0x0434660B#32] (.shl 3#6 17#6 38#6),
    reads true [0x0434660C#32] (.shr 3#6 17#6 38#6),
    reads true [0x0434660D#32] (.sar 3#6 17#6 38#6),
    reads true [0x0434660E#32] (.min 3#6 17#6 38#6),
    reads true [0x0434660F#32] (.max 3#6 17#6 38#6),
    reads true [0x04346610#32] (.minz 3#6 17#6 38#6),
    reads true [0x04346611#32] (.maxz 3#6 17#6 38#6),
    reads true [0x04346612#32] (.slt 3#6 17#6 38#6),
    reads true [0x04346613#32] (.sltz 3#6 17#6 38#6),
    reads true [0x04346614#32] (.seq 3#6 17#6 38#6),
    reads true [0x08346624#32] (.sel 3#6 17#6 38#6 9#6),
    reads true [0x0C3465C3#32] (.addi 3#6 17#6 9667#14)].all id = true := by decide

theorem test_words_a1 : [
    reads true [0x103465C3#32] (.andi 3#6 17#6 9667#14),
    reads true [0x143465C3#32] (.ori 3#6 17#6 9667#14),
    reads true [0x183465C3#32] (.xori 3#6 17#6 9667#14),
    reads true [0x1C344003#32] (.shli 3#6 17#6 3#6),
    reads true [0x20344003#32] (.shri 3#6 17#6 3#6),
    reads true [0x24344003#32] (.sari 3#6 17#6 3#6),
    reads true [0x2832A5C3#32] (.lih 3#6 173507#20),
    reads true [0x2C300000#32, 0x89ABCDEF#32] (.li32 3#6 0x89ABCDEF#32),
    reads true [0x3032A5C3#32] (.addpc 3#6 173507#20),
    reads true [0x8C3005C3#32] (.ldk 3#6 1475#12),
    reads true [0x4002A5C3#32] (.jmp 173507#20),
    reads true [0x4432A5C3#32] (.call 3#6 173507#20),
    reads true [0x4832A5C3#32] (.loop 3#6 173507#20),
    reads true [0x4D19A5C3#32] (.beq 17#6 38#6 9667#14),
    reads true [0x5119A5C3#32] (.bne 17#6 38#6 9667#14),
    reads true [0x5519A5C3#32] (.blt 17#6 38#6 9667#14),
    reads true [0x5919A5C3#32] (.bge 17#6 38#6 9667#14),
    reads true [0x5D19A5C3#32] (.blo 17#6 38#6 9667#14),
    reads true [0x6119A5C3#32] (.bhs 17#6 38#6 9667#14),
    reads true [0x64044000#32] (.jr 17#6),
    reads true [0x64044001#32] (.ret 17#6),
    reads true [0x68000000#32] (.halt),
    reads true [0x6C344900#32] (.trap 3#6 17#6 9#6)].all id = true := by decide

theorem test_words_a2 : [
    reads true [0x6C044001#32] (.yield 17#6),
    reads true [0x6C344002#32] (.lblrd 3#6 17#6),
    reads true [0x6C346603#32] (.lblup 3#6 17#6 38#6),
    reads true [0x6C246604#32] (.glbl .acc 17#6 38#6),
    reads true [0x6C346605#32] (.dcls 3#6 17#6 38#6),
    reads true [0x6C000006#32] (.markJoin),
    reads true [0x6C044106#32] (.markUser 17#6),
    reads true [0x6C000907#32] (.brk 9#6),
    reads true [0x6C044008#32] (.yieldRec 17#6),
    reads true [0x803465C3#32] (.lds 3#6 17#6 9667#14),
    reads true [0x843465C3#32] (.sts 3#6 17#6 9667#14),
    reads true [0x88346600#32] (.amosAdd 3#6 17#6 38#6),
    reads true [0x88346601#32] (.amosAnd 3#6 17#6 38#6),
    reads true [0x88346602#32] (.amosOr 3#6 17#6 38#6),
    reads true [0x88346603#32] (.amosXor 3#6 17#6 38#6),
    reads true [0x88346604#32] (.amosMin 3#6 17#6 38#6),
    reads true [0x88346605#32] (.amosMax 3#6 17#6 38#6),
    reads true [0x88346606#32] (.amosMinz 3#6 17#6 38#6),
    reads true [0x88346607#32] (.amosMaxz 3#6 17#6 38#6),
    reads true [0x88346608#32] (.amosSwap 3#6 17#6 38#6),
    reads true [0x88346609#32] (.amosCas 3#6 17#6 38#6),
    reads true [0xA02465C3#32] (.vld 2#2 17#6 9667#14),
    reads true [0xA40465C3#32] (.vsta 17#6 9667#14)].all id = true := by decide

theorem test_words_a3 : [
    reads true [0xA80465C3#32] (.pref 17#6 9667#14),
    reads true [0xAC32A5C3#32] (.run 3#6 173507#20),
    reads true [0xB00025C3#32] (.slipset 9667#14),
    reads true [0xB4300000#32] (.popca 3#6),
    reads true [0xC0044000#32] (.port 17#6),
    reads true [0xC4044000#32] (.coll 17#6),
    reads true [0xC8344000#32] (.alloc 3#6 17#6),
    reads true [0xCC044000#32] (.free 17#6),
    reads true [0xD0346600#32] (.resv 3#6 17#6 38#6),
    reads true [0xD4044000#32] (.unresv 17#6),
    reads true [0xD8046600#32] (.detset 17#6 38#6),
    reads true [0xDC8005C3#32] (.waitfc .st 1475#12),
    reads true [0xE0046600#32] (.sigadd 17#6 38#6),
    reads true [0xE4046600#32] (.sigdec 17#6 38#6),
    reads true [0xE8046600#32] (.sigwait 17#6 38#6),
    reads true [0xEC044000#32] (.launch 17#6),
    reads true [0xF0000000#32] (.early),
    reads true [0xF4046600#32] (.barinit 17#6 38#6),
    reads true [0xF4346601#32] (.bararv 3#6 17#6 38#6),
    reads true [0xF4344002#32] (.barwait 3#6 17#6),
    reads true [0xF4001A04#32] (.fence .device .rel),
    reads true [0xF83025C3#32] (.getsr 3#6 9667#14),
    reads true [0xFC0465C3#32] (.setsr 17#6 9667#14)].all id = true := by decide

theorem test_words_c0 : [
    reads false [0x00017000#32, 0x0140601C#32, 0x02000000#32] (.vadd { zf with dt := .s16, pr := 3#3, pn := true, dst := 5#10, sa := 6#10, sb := 7#10, sc := 8#10 }),
    reads false [0x00117000#32, 0x0140601C#32, 0x02000000#32] (.vsub { zf with dt := .s16, pr := 3#3, pn := true, dst := 5#10, sa := 6#10, sb := 7#10, sc := 8#10 }),
    reads false [0x00217000#32, 0x0140601C#32, 0x02000000#32] (.vmul { zf with dt := .s16, pr := 3#3, pn := true, dst := 5#10, sa := 6#10, sb := 7#10, sc := 8#10 }),
    reads false [0x00317000#32, 0x0140601C#32, 0x02000000#32] (.vmulhi { zf with dt := .s16, pr := 3#3, pn := true, dst := 5#10, sa := 6#10, sb := 7#10, sc := 8#10 }),
    reads false [0x00417000#32, 0x0140601C#32, 0x02000000#32] (.vmad { zf with dt := .s16, pr := 3#3, pn := true, dst := 5#10, sa := 6#10, sb := 7#10, sc := 8#10 }),
    reads false [0x00517000#32, 0x0140601C#32, 0x02000000#32] (.vadds { zf with dt := .s16, pr := 3#3, pn := true, dst := 5#10, sa := 6#10, sb := 7#10, sc := 8#10 }),
    reads false [0x00617000#32, 0x0140601C#32, 0x02000000#32] (.vsubs { zf with dt := .s16, pr := 3#3, pn := true, dst := 5#10, sa := 6#10, sb := 7#10, sc := 8#10 }),
    reads false [0x00707000#32, 0x0140601C#32, 0x02000000#32] (.vand { zf with pr := 3#3, pn := true, dst := 5#10, sa := 6#10, sb := 7#10, sc := 8#10 }),
    reads false [0x00807000#32, 0x0140601C#32, 0x02000000#32] (.vor { zf with pr := 3#3, pn := true, dst := 5#10, sa := 6#10, sb := 7#10, sc := 8#10 }),
    reads false [0x00907000#32, 0x0140601C#32, 0x02000000#32] (.vxor { zf with pr := 3#3, pn := true, dst := 5#10, sa := 6#10, sb := 7#10, sc := 8#10 }),
    reads false [0x00A07000#32, 0x0140601C#32, 0x02000000#32] (.vnot { zf with pr := 3#3, pn := true, dst := 5#10, sa := 6#10, sb := 7#10, sc := 8#10 }),
    reads false [0x00B47000#32, 0x0140601C#32, 0x02000000#32] (.vshl { zf with dt := .z8, pr := 3#3, pn := true, dst := 5#10, sa := 6#10, sb := 7#10, sc := 8#10 }),
    reads false [0x00C47000#32, 0x0140601C#32, 0x02000000#32] (.vshr { zf with dt := .z8, pr := 3#3, pn := true, dst := 5#10, sa := 6#10, sb := 7#10, sc := 8#10 }),
    reads false [0x00D47000#32, 0x0140601C#32, 0x02000000#32] (.vsar { zf with dt := .z8, pr := 3#3, pn := true, dst := 5#10, sa := 6#10, sb := 7#10, sc := 8#10 }),
    reads false [0x00E47000#32, 0x0140601C#32, 0x02000000#32] (.vmin { zf with dt := .z8, pr := 3#3, pn := true, dst := 5#10, sa := 6#10, sb := 7#10, sc := 8#10 }),
    reads false [0x00F47000#32, 0x0140601C#32, 0x02000000#32] (.vmax { zf with dt := .z8, pr := 3#3, pn := true, dst := 5#10, sa := 6#10, sb := 7#10, sc := 8#10 }),
    reads false [0x01027000#32, 0x0140601C#32, 0x02000000#32] (.vabs { zf with dt := .s32, pr := 3#3, pn := true, dst := 5#10, sa := 6#10, sb := 7#10, sc := 8#10 }),
    reads false [0x01107000#32, 0x0140601C#32, 0x02000000#32] (.vneg { zf with pr := 3#3, pn := true, dst := 5#10, sa := 6#10, sb := 7#10, sc := 8#10 }),
    reads false [0x01257000#32, 0x0A80601C#32, 0x02000000#32] (.vcmp { zf with dt := .z16, pr := 3#3, pn := true, dst := 42#10, sa := 6#10, sb := 7#10, sc := 8#10 }),
    reads false [0x01307000#32, 0x0140601C#32, 0x01400000#32] (.vsel { zf with pr := 3#3, pn := true, dst := 5#10, sa := 6#10, sb := 7#10, sc := 5#10 }),
    reads false [0x01407000#32, 0x0140601C#32, 0x02000000#32] (.vpopc { zf with pr := 3#3, pn := true, dst := 5#10, sa := 6#10, sb := 7#10, sc := 8#10 }),
    reads false [0x01507000#32, 0x0140601C#32, 0x02000000#32] (.vclz { zf with pr := 3#3, pn := true, dst := 5#10, sa := 6#10, sb := 7#10, sc := 8#10 }),
    reads false [0x01667004#32, 0x0140601C#32, 0x02000805#32] (.vbfe { zf with dt := .z32, pr := 3#3, pn := true, imm := .i20 0x805#20, dst := 5#10, sa := 6#10, sb := 7#10, sc := 8#10 }),
    reads false [0x01707008#32, 0x0140601C#32, 0x02000000#32, 0x00000804#32] (.vbfi { zf with pr := 3#3, pn := true, imm := .lit 0x804#32, dst := 5#10, sa := 6#10, sb := 7#10, sc := 8#10 }),
    reads false [0x01857020#32, 0x0140601C#32, 0x02000000#32] (.vpack { zf with dt := .z16, pr := 3#3, pn := true, sat := true, dst := 5#10, sa := 6#10, sb := 7#10, sc := 8#10 }),
    reads false [0x01917001#32, 0x0140601C#32, 0x02000000#32] (.vunpk { zf with dt := .s16, pr := 3#3, pn := true, x := 1#2, dst := 5#10, sa := 6#10, sb := 7#10, sc := 8#10 })].all id = true := by decide

theorem test_words_c1 : [
    reads false [0x10097080#32, 0x0140601C#32, 0x02000000#32] (.vfadd { zf with dt := .f16, pr := 3#3, pn := true, rm := .rdn, dst := 5#10, sa := 6#10, sb := 7#10, sc := 8#10 }),
    reads false [0x10197080#32, 0x0140601C#32, 0x02000000#32] (.vfsub { zf with dt := .f16, pr := 3#3, pn := true, rm := .rdn, dst := 5#10, sa := 6#10, sb := 7#10, sc := 8#10 }),
    reads false [0x10297080#32, 0x0140601C#32, 0x02000000#32] (.vfmul { zf with dt := .f16, pr := 3#3, pn := true, rm := .rdn, dst := 5#10, sa := 6#10, sb := 7#10, sc := 8#10 }),
    reads false [0x10397080#32, 0x0140601C#32, 0x02000000#32] (.vfma { zf with dt := .f16, pr := 3#3, pn := true, rm := .rdn, dst := 5#10, sa := 6#10, sb := 7#10, sc := 8#10 }),
    reads false [0x104A7000#32, 0x0140601C#32, 0x02000000#32] (.vfmin { zf with dt := .bf16, pr := 3#3, pn := true, dst := 5#10, sa := 6#10, sb := 7#10, sc := 8#10 }),
    reads false [0x105A7000#32, 0x0140601C#32, 0x02000000#32] (.vfmax { zf with dt := .bf16, pr := 3#3, pn := true, dst := 5#10, sa := 6#10, sb := 7#10, sc := 8#10 }),
    reads false [0x106A7000#32, 0x0140601C#32, 0x02000000#32] (.vfabs { zf with dt := .bf16, pr := 3#3, pn := true, dst := 5#10, sa := 6#10, sb := 7#10, sc := 8#10 }),
    reads false [0x107A7000#32, 0x0140601C#32, 0x02000000#32] (.vfneg { zf with dt := .bf16, pr := 3#3, pn := true, dst := 5#10, sa := 6#10, sb := 7#10, sc := 8#10 }),
    reads false [0x10887000#32, 0x0C40601C#32, 0x02000000#32] (.vfcmp { zf with dt := .f32, pr := 3#3, pn := true, dst := 49#10, sa := 6#10, sb := 7#10, sc := 8#10 }),
    reads false [0x10987000#32, 0x0140601C#32, 0x02000000#32] (.vfclass { zf with dt := .f32, pr := 3#3, pn := true, dst := 5#10, sa := 6#10, sb := 7#10, sc := 8#10 }),
    reads false [0x10AC7060#32, 0x0140601C#32, 0x02000008#32] (.vcvt { zf with dt := .e5m2n, pr := 3#3, pn := true, rm := .rtz, sat := true, dst := 5#10, sa := 6#10, sb := 7#10, sc := 8#10, ext := 0x8#20 }),
    reads false [0x10BD70E0#32, 0x0140601C#32, 0x02000000#32] (.vqnt { zf with dt := .e2m1n, pr := 3#3, pn := true, rm := .rup, sat := true, dst := 5#10, sa := 6#10, sb := 7#10, sc := 8#10 }),
    reads false [0x10C47042#32, 0x0140601C#32, 0x02000000#32] (.vdqnt { zf with dt := .z8, pr := 3#3, pn := true, rm := .rtz, x := 2#2, dst := 5#10, sa := 6#10, sb := 7#10, sc := 8#10 }),
    reads false [0x10D97064#32, 0x0140601C#32, 0x020FFFFD#32] (.vscalb { zf with dt := .f16, pr := 3#3, pn := true, rm := .rtz, sat := true, imm := .i20 0xFFFFD#20, dst := 5#10, sa := 6#10, sb := 7#10, sc := 8#10 })].all id = true := by decide

theorem test_words_c2 : [
    reads false [0x20087000#32, 0x0140601C#32, 0x02000000#32] (.vexp2 { zf with dt := .f32, pr := 3#3, pn := true, dst := 5#10, sa := 6#10, sb := 7#10, sc := 8#10 }),
    reads false [0x20187040#32, 0x0140601C#32, 0x02000000#32] (.vlog2 { zf with dt := .f32, pr := 3#3, pn := true, rm := .rtz, dst := 5#10, sa := 6#10, sb := 7#10, sc := 8#10 }),
    reads false [0x20287080#32, 0x0140601C#32, 0x02000000#32] (.vrcp { zf with dt := .f32, pr := 3#3, pn := true, rm := .rdn, dst := 5#10, sa := 6#10, sb := 7#10, sc := 8#10 }),
    reads false [0x203870C0#32, 0x0140601C#32, 0x02000000#32] (.vrsq { zf with dt := .f32, pr := 3#3, pn := true, rm := .rup, dst := 5#10, sa := 6#10, sb := 7#10, sc := 8#10 }),
    reads false [0x20487000#32, 0x0140601C#32, 0x02000000#32] (.vsqrt { zf with dt := .f32, pr := 3#3, pn := true, dst := 5#10, sa := 6#10, sb := 7#10, sc := 8#10 }),
    reads false [0x20587040#32, 0x0140601C#32, 0x02000000#32] (.vtanh { zf with dt := .f32, pr := 3#3, pn := true, rm := .rtz, dst := 5#10, sa := 6#10, sb := 7#10, sc := 8#10 }),
    reads false [0x20687080#32, 0x0140601C#32, 0x02000000#32] (.vsin { zf with dt := .f32, pr := 3#3, pn := true, rm := .rdn, dst := 5#10, sa := 6#10, sb := 7#10, sc := 8#10 }),
    reads false [0x207870C0#32, 0x0140601C#32, 0x02000000#32] (.vcos { zf with dt := .f32, pr := 3#3, pn := true, rm := .rup, dst := 5#10, sa := 6#10, sb := 7#10, sc := 8#10 })].all id = true := by decide

theorem test_words_c3 : [
    reads false [0x30007000#32, 0x0140601C#32, 0x02000000#32] (.vshuf { zf with pr := 3#3, pn := true, dst := 5#10, sa := 6#10, sb := 7#10, sc := 8#10 }),
    reads false [0x30107006#32, 0x0140601C#32, 0x02000001#32] (.vshfl { zf with pr := 3#3, pn := true, imm := .i20 0x1#20, x := 2#2, dst := 5#10, sa := 6#10, sb := 7#10, sc := 8#10 }),
    reads false [0x30207003#32, 0x0140401C#32, 0x02000000#32] (.vvote { zf with pr := 3#3, pn := true, x := 3#2, dst := 5#10, sa := 4#10, sb := 7#10, sc := 8#10 }),
    reads false [0x303870C0#32, 0x0140601C#32, 0x02000002#32] (.vred { zf with dt := .f32, pr := 3#3, pn := true, rm := .rup, dst := 5#10, sa := 6#10, sb := 7#10, sc := 8#10, ext := 0x2#20 }),
    reads false [0x30467001#32, 0x0140601C#32, 0x02000005#32] (.vscan { zf with dt := .z32, pr := 3#3, pn := true, x := 1#2, dst := 5#10, sa := 6#10, sb := 7#10, sc := 8#10, ext := 0x5#20 }),
    reads false [0x30507000#32, 0x0140601C#32, 0x02000000#32] (.vbcast { zf with pr := 3#3, pn := true, dst := 5#10, sa := 6#10, sb := 7#10, sc := 8#10 }),
    reads false [0x30600004#32, 0x0140601C#32, 0x02000010#32] (.settw { zf with imm := .i20 0x10#20, dst := 5#10, sa := 6#10, sb := 7#10, sc := 8#10 }),
    reads false [0x30707008#32, 0x0140601C#32, 0x02000000#32, 0xDEADBEEF#32] (.vmov { zf with pr := 3#3, pn := true, imm := .lit 0xDEADBEEF#32, dst := 5#10, sa := 6#10, sb := 7#10, sc := 8#10 }),
    reads false [0x30807008#32, 0x0140601C#32, 0x02000000#32, 0x00000007#32] (.vrand { zf with pr := 3#3, pn := true, imm := .lit 0x7#32, dst := 5#10, sa := 6#10, sb := 7#10, sc := 8#10 })].all id = true := by decide

theorem test_words_c4 : [
    reads false [0x40047F04#32, 0x0140601C#32, 0x020FFFF0#32] (.vldx { zf with dt := .z8, pr := 3#3, pn := true, tk := 15#4, imm := .i20 0xFFFF0#20, dst := 5#10, sa := 6#10, sb := 7#10, sc := 8#10 }),
    reads false [0x40117000#32, 0x0140601C#32, 0x02000000#32] (.vstx { zf with dt := .s16, pr := 3#3, pn := true, dst := 5#10, sa := 6#10, sb := 7#10, sc := 8#10 }),
    reads false [0x40167001#32, 0x0140601C#32, 0x02000000#32] (.vstxNotify { zf with dt := .z32, pr := 3#3, pn := true, x := 1#2, dst := 5#10, sa := 6#10, sb := 7#10, sc := 8#10 }),
    reads false [0x40227100#32, 0x0140601C#32, 0x02000009#32] (.vamo { zf with dt := .s32, pr := 3#3, pn := true, tk := 1#4, dst := 5#10, sa := 6#10, sb := 7#10, sc := 8#10, ext := 0x9#20 }),
    reads false [0x40287200#32, 0x0140601C#32, 0x02000010#32] (.vamoDet { zf with dt := .f32, pr := 3#3, pn := true, tk := 2#4, dst := 5#10, sa := 6#10, sb := 7#10, sc := 8#10, ext := 0x10#20 }),
    reads false [0x40307300#32, 0x0140601C#32, 0x02000000#32] (.spld { zf with pr := 3#3, pn := true, tk := 3#4, dst := 5#10, sa := 6#10, sb := 7#10, sc := 8#10 }),
    reads false [0x40457008#32, 0x0140601C#32, 0x02000000#32, 0x00000040#32] (.spst { zf with dt := .z16, pr := 3#3, pn := true, imm := .lit 0x40#32, dst := 5#10, sa := 6#10, sb := 7#10, sc := 8#10 }),
    reads false [0x40567400#32, 0x0140601C#32, 0x02000008#32] (.spamo { zf with dt := .z32, pr := 3#3, pn := true, tk := 4#4, dst := 5#10, sa := 6#10, sb := 7#10, sc := 8#10, ext := 0x8#20 }),
    reads false [0x40607000#32, 0x0140601C#32, 0x02000000#32] (.std { zf with pr := 3#3, pn := true, dst := 5#10, sa := 6#10, sb := 7#10, sc := 8#10 }),
    reads false [0x40707003#32, 0x0140601C#32, 0x02000000#32] (.senda { zf with pr := 3#3, pn := true, x := 3#2, dst := 5#10, sa := 6#10, sb := 7#10, sc := 8#10 }),
    reads false [0x40807600#32, 0x0140601C#32, 0x02000000#32] (.acld { zf with pr := 3#3, pn := true, tk := 6#4, dst := 5#10, sa := 6#10, sb := 7#10, sc := 8#10 }),
    reads false [0x40907000#32, 0x0140601C#32, 0x02000000#32] (.acst { zf with pr := 3#3, pn := true, dst := 5#10, sa := 6#10, sb := 7#10, sc := 8#10 })].all id = true := by decide

theorem test_words_c5 : [
    reads false [0x50000505#32, 0x0140601C#32, 0x02000040#32] (.cwait { zf with tk := 5#4, imm := .i20 0x40#20, x := 1#2, dst := 5#10, sa := 6#10, sb := 7#10, sc := 8#10 }),
    reads false [0x50100004#32, 0x0140601C#32, 0x02000040#32] (.carv { zf with imm := .i20 0x40#20, dst := 5#10, sa := 6#10, sb := 7#10, sc := 8#10 })].all id = true := by decide

theorem test_words_c6 : [
    reads false [0x600A0012#32, 0x0140601C#32, 0x0207F3E0#32] (.mxloop { zf with dt := .bf16, ru := true, x := 2#2, dst := 5#10, sa := 6#10, sb := 7#10, sc := 8#10, ext := 0x7F3E0#20 }),
    reads false [0x60140011#32, 0x0140601C#32, 0x02010100#32] (.mxgrp { zf with dt := .z8, ru := true, x := 1#2, dst := 5#10, sa := 6#10, sb := 7#10, sc := 8#10, ext := 0x10100#20 }),
    reads false [0x6020000A#32, 0x0140601C#32, 0x02000000#32, 0x00010000#32] (.mxzero { zf with imm := .lit 0x10000#32, x := 2#2, dst := 5#10, sa := 6#10, sb := 7#10, sc := 8#10 }),
    reads false [0x603974A1#32, 0x0140601C#32, 0x02000009#32] (.accvt { zf with dt := .f16, pr := 3#3, pn := true, tk := 4#4, rm := .rdn, sat := true, x := 1#2, dst := 5#10, sa := 6#10, sb := 7#10, sc := 8#10, ext := 0x9#20 })].all id = true := by decide

theorem test_words_c7 : [
    reads false [0x70080040#32, 0x0140601C#32, 0x0201FFCD#32] (.winit { zf with dt := .f32, rm := .rtz, dst := 5#10, sa := 6#10, sb := 7#10, sc := 8#10, ext := 0x1FFCD#20 }),
    reads false [0x70107000#32, 0x0140601C#32, 0x02000007#32] (.wpush { zf with pr := 3#3, pn := true, dst := 5#10, sa := 6#10, sb := 7#10, sc := 8#10, ext := 0x7#20 }),
    reads false [0x70207300#32, 0x0140601C#32, 0x02000006#32] (.wqry { zf with pr := 3#3, pn := true, tk := 3#4, dst := 5#10, sa := 6#10, sb := 7#10, sc := 8#10, ext := 0x6#20 }),
    reads false [0x70300008#32, 0x0140601C#32, 0x02000004#32, 0x0000000C#32] (.wsetw { zf with imm := .lit 0xC#32, dst := 5#10, sa := 6#10, sb := 7#10, sc := 8#10, ext := 0x4#20 }),
    reads false [0x70400000#32, 0x0140601C#32, 0x02000003#32] (.wfree { zf with dst := 5#10, sa := 6#10, sb := 7#10, sc := 8#10, ext := 0x3#20 }),
    reads false [0x70507200#32, 0x0140601C#32, 0x02000019#32] (.wstat { zf with pr := 3#3, pn := true, tk := 2#4, dst := 5#10, sa := 6#10, sb := 7#10, sc := 8#10, ext := 0x19#20 })].all id = true := by decide

theorem test_words_c8 : [
    reads false [0x800A7100#32, 0x0140601C#32, 0x02000210#32] (.xunpk { zf with dt := .bf16, pr := 3#3, pn := true, tk := 1#4, dst := 5#10, sa := 6#10, sb := 7#10, sc := 8#10, ext := 0x210#20 }),
    reads false [0x80157200#32, 0x0140601C#32, 0x02000001#32] (.xdec { zf with dt := .z16, pr := 3#3, pn := true, tk := 2#4, dst := 5#10, sa := 6#10, sb := 7#10, sc := 8#10, ext := 0x1#20 }),
    reads false [0x80297300#32, 0x0140601C#32, 0x02000007#32] (.xlut { zf with dt := .f16, pr := 3#3, pn := true, tk := 3#4, dst := 5#10, sa := 6#10, sb := 7#10, sc := 8#10, ext := 0x7#20 })].all id = true := by decide

theorem test_words_c9 : [
    reads false [0x90007104#32, 0x0140601C#32, 0x00C00003#32] (.vdcls { zf with pr := 3#3, pn := true, tk := 1#4, imm := .i20 0x3#20, dst := 5#10, sa := 6#10, sb := 7#10, sc := 3#10 }),
    reads false [0x90107000#32, 0x0140601C#32, 0x02000000#32] (.vlblrd { zf with pr := 3#3, pn := true, dst := 5#10, sa := 6#10, sb := 7#10, sc := 8#10 }),
    reads false [0x90207004#32, 0x0140601C#32, 0x02000010#32] (.vlblup { zf with pr := 3#3, pn := true, imm := .i20 0x10#20, dst := 5#10, sa := 6#10, sb := 7#10, sc := 8#10 }),
    reads false [0x90307902#32, 0x0140601C#32, 0x02000000#32] (.vsys { zf with pr := 3#3, pn := true, tk := 9#4, x := 2#2, dst := 5#10, sa := 6#10, sb := 7#10, sc := 8#10 }),
    reads false [0x90400000#32, 0x0140601C#32, 0x0200BEEF#32] (.vbrk { zf with dst := 5#10, sa := 6#10, sb := 7#10, sc := 8#10, ext := 0xBEEF#20 })].all id = true := by decide

theorem test_words_trailers : [
    reads false [0xE1001400#32] (.trlTake 0x4005#15),
    reads false [0xE3001400#32] (.trlFall 0x4005#15),
    reads false [0xE50016FF#32] (.trlSkip 0x4005#15 5#3 127#7),
    reads false [0xE70017FF#32] (.trlRegang 0x4005#15 1023#10),
    reads false [0xE9001400#32] (.trlEnd 0x4005#15),
    reads false [0xF1234567#32] (.nop)].all id = true := by decide

/-! ## The premises of the claims about scalar words -/

namespace A12

def s0 := lab 0 (regs [(1, -7, 0x1), (2, 3, 0x2), (3, 5, 0), (4, 0, 0), (5, -(2^63), 4), (6, -1, 0)])
def f0 (c : Label) := lab 0 (fun g => { regs [(1, -7, 0x1), (2, 3, 0x2), (3, 5, 0), (8,9,0x100)] g with apath := [{ lbl := c, pusher := some 0x40000 }] })
def full (c : Label) := lab 0 (fun g => { regs [(1, -7, 0x1), (2, 3, 0x2), (3, 5, 0)] g with apath := List.replicate 16 { lbl := c, pusher := none } })
def f1 := lab 0 (fun g => { regs [(8, 8, 0x100)] g with apath := [{ lbl := 2#16, pusher := some 0x40000 }] })
def m0 := lab 0 (fun g => { regs [(1, 0x50008, 0x1), (2, 3, 0x2), (3, 0x50010, 0), (4, 32, 0), (5, -(2^63), 4), (6, 0x60020, 0), (7, 0x50001, 0), (8, 0x80000, 0),(9,33,0)] g with apath := [{ lbl := 4#16, pusher := some 0x40000 }] })
def m1 := lab 0 (fun g => { regs [(1, 0x50008, 0x1), (2, 3, 0x2), (3, 0x50010, 0), (4, 32, 0), (5, -(2^63), 4), (6, 0x60020, 0), (7, 0x50001, 0), (8, 0x80000, 0),(9,33,0)] g with slip := 5 })
def rd (s : State) (n : Nat) : State × List Byte × Label := match s.readRec s.cur ((s.recOf s.cur).kbank + 4 * n) 4 with | .ok a b c => (a,b,c) | _ => (s,[],0)
def kb (g : Group → Group) := ({ (lab 0 g) with grids := [(0, { rec_ := {labRec with kbank := 0x50000}, lrec := 0x50000, ctx := 0, order := 0, admitted := true, nextTeam := 1 })] } : State).writeMem 0x5000C [0x78,0x56,0x34,0xF2]
/-- A group with no queue entry has short LQs. -/
theorem lq_small (s : State) (h : s.grp.lqs = []) (q : Nat) : (s.grp.lq q).entries.length ≤ 16 := by
  unfold Group.lq
  rw [h]
  exact Nat.zero_le _

theorem meets_BranchResults_2 :
    (∃ (s : State) (a b d : SRegNo),
     s.regsFree [a, b, d] ∧
     let c := s.ceil s.cur
     let l := ((s.grp.sreg a).lbl ||| (s.grp.sreg b).lbl) ||| s.grp.pA
     ¬ LabelIn l c) ∧
    (∃ (s : State) (a b d : SRegNo),
     s.regsFree [a, b, d] ∧
     let c := s.ceil s.cur
     let l := ((s.grp.sreg a).lbl ||| (s.grp.sreg b).lbl) ||| s.grp.pA
     LabelIn l c ∧ ¬ roomToPush s.grp.apath s.grp.apc.toNat) ∧
    (∃ (s : State) (a b d : SRegNo),
     s.regsFree [a, b, d] ∧
     let c := s.ceil s.cur
     let ld := (s.grp.sreg d).lbl ||| s.grp.pA
     ¬ LabelIn ld c) ∧
    (∃ (s : State) (a b d : SRegNo),
     s.regsFree [a, b, d] ∧
     let c := s.ceil s.cur
     let ld := (s.grp.sreg d).lbl ||| s.grp.pA
     LabelIn ld c ∧ ¬ roomToPush s.grp.apath s.grp.apc.toNat) ∧
    (∃ (s : State) (a b d : SRegNo),
     s.regsFree [a, b, d] ∧
     let c := s.ceil s.cur
     let top := (s.grp.apath.head?.map (·.lbl)).getD 0#16 ||| (s.grp.sreg a).lbl
     (s.grp.sreg a).val.toNat % 4 = 0 ∧ ¬ LabelIn top c) ∧
    (∃ (s : State) (a b d : SRegNo),
     s.regsFree [a, b, d] ∧ (s.grp.sreg a).val.toNat % 4 ≠ 0) ∧
    (∃ (s : State) (a b d : SRegNo) (f : Flt),
     s.regsFree [a, b, d] ∧ (f.code = 0x07 ∨ f.code = 0x01)) :=
  ⟨⟨f1, 8#6, 8#6, 8#6, by decide +kernel⟩,
   ⟨(full 2#16), 1#6, 2#6, 3#6, by decide +kernel⟩,
   ⟨f1, 8#6, 8#6, 8#6, by decide +kernel⟩,
   ⟨(full 2#16), 1#6, 2#6, 3#6, by decide +kernel⟩,
   ⟨f1, 8#6, 8#6, 8#6, by decide +kernel⟩,
   ⟨(f0 2#16), 1#6, 8#6, 8#6, by decide +kernel⟩,
   ⟨(f0 2#16), 1#6, 8#6, 8#6, { code := 7 }, by decide +kernel⟩⟩

theorem meets_SpecialRegisterReads_1 :
    (∃ (s : State) (d : SRegNo) (i : BitVec 14) (v : DWord),
     s.regsFree [d] ∧ s.special i.toNat = some v ∧
     let t := s.tm
     i.toNat = 0x000 ∧ t.core < 144) ∧
    (∃ (s : State) (d : SRegNo) (i : BitVec 14) (v : DWord),
     s.regsFree [d] ∧ s.special i.toNat = some v ∧ i.toNat = 0x001) ∧
    (∃ (s : State) (d : SRegNo) (i : BitVec 14) (v : DWord),
     s.regsFree [d] ∧ s.special i.toNat = some v ∧ i.toNat = 0x004) ∧
    (∃ (s : State) (d : SRegNo) (i : BitVec 14) (v : DWord),
     s.regsFree [d] ∧ s.special i.toNat = some v ∧ i.toNat = 0x005) ∧
    (∃ (s : State) (d : SRegNo) (i : BitVec 14) (v : DWord),
     s.regsFree [d] ∧ s.special i.toNat = some v ∧ i.toNat = 0x006) ∧
    (∃ (s : State) (d : SRegNo) (i : BitVec 14) (v : DWord), s.regsFree [d] ∧ s.special i.toNat = some v ∧
      (∀ c, s.grp.fcv c < 2 ^ 12) ∧ i.toNat = 0x00A) ∧
    (∃ (s : State) (d : SRegNo) (i : BitVec 14) (v : DWord), s.regsFree [d] ∧ s.special i.toNat = some v ∧
      (∀ c, s.grp.fcv c < 2 ^ 12) ∧ i.toNat = 0x00B) ∧
    (∃ (s : State) (d : SRegNo) (i : BitVec 14) (v : DWord), s.regsFree [d] ∧ s.special i.toNat = some v ∧ i.toNat = 0x00C ∧
      s.grp.rq.length ≤ 32 ∧ (∀ q, (s.grp.lq q).entries.length ≤ 16) ∧ s.grp.saq.length ≤ 16 ∧ s.grp.sdq.length ≤ 16 ∧
      s.grp.ca.length ≤ 8) ∧
    (∃ (s : State) (d : SRegNo) (i : BitVec 14) (v : DWord) (k : Nat),
     s.regsFree [d] ∧ s.special i.toNat = some v ∧ i.toNat = 0x00E ∧ k < 64) ∧
    (∃ (s : State) (d : SRegNo) (i : BitVec 14) (v : DWord),
     s.regsFree [d] ∧ s.special i.toNat = some v ∧ i.toNat = 0x002) ∧
    (∃ (s : State) (d : SRegNo) (i : BitVec 14) (v : DWord),
     s.regsFree [d] ∧ s.special i.toNat = some v ∧ i.toNat = 0x003) ∧
    (∃ (s : State) (d : SRegNo) (i : BitVec 14) (v : DWord),
     s.regsFree [d] ∧ s.special i.toNat = some v ∧ i.toNat = 0x007) ∧
    (∃ (s : State) (d : SRegNo) (i : BitVec 14) (v : DWord),
     s.regsFree [d] ∧ s.special i.toNat = some v ∧ i.toNat = 0x008) ∧
    (∃ (s : State) (d : SRegNo) (i : BitVec 14) (v : DWord),
     s.regsFree [d] ∧ s.special i.toNat = some v ∧ i.toNat = 0x00F) ∧
    (∃ (s : State) (d : SRegNo) (i : BitVec 14) (v : DWord),
     s.regsFree [d] ∧ s.special i.toNat = some v ∧ i.toNat = 0x009) ∧
    (∃ (s : State) (d : SRegNo) (i : BitVec 14) (v : DWord),
     s.regsFree [d] ∧ s.special i.toNat = some v ∧ i.toNat = 0x00D) ∧
    (∃ (s : State) (d : SRegNo) (i : BitVec 14) (v : DWord),
     s.regsFree [d] ∧ s.special i.toNat = some v ∧ i.toNat = 0x010) :=
  ⟨⟨m1, 7#6, 0#14, ((m1.special 0).getD 0), by decide +kernel⟩,
   ⟨m1, 7#6, 1#14, ((m1.special 1).getD 0), by decide +kernel⟩,
   ⟨m1, 7#6, 4#14, ((m1.special 4).getD 0), by decide +kernel⟩,
   ⟨m1, 7#6, 5#14, ((m1.special 5).getD 0), by decide +kernel⟩,
   ⟨m1, 7#6, 6#14, ((m1.special 6).getD 0), by decide +kernel⟩,
   ⟨m1, 7#6, 10#14, (m1.special 10).getD 0, by decide +kernel, by decide +kernel, fun c => by cases c <;> decide +kernel, by decide +kernel⟩,
   ⟨m1, 7#6, 11#14, (m1.special 11).getD 0, by decide +kernel, by decide +kernel, fun c => by cases c <;> decide +kernel, by decide +kernel⟩,
   ⟨m1, 7#6, 12#14, (m1.special 12).getD 0, by decide +kernel, by decide +kernel, by decide +kernel, by decide +kernel, lq_small m1 rfl, by decide +kernel, by decide +kernel, by decide +kernel⟩,
   ⟨m1, 7#6, 14#14, ((m1.special 14).getD 0), 3, by decide +kernel⟩,
   ⟨m1, 7#6, 2#14, ((m1.special 2).getD 0), by decide +kernel⟩,
   ⟨m1, 7#6, 3#14, ((m1.special 3).getD 0), by decide +kernel⟩,
   ⟨m1, 7#6, 7#14, ((m1.special 7).getD 0), by decide +kernel⟩,
   ⟨m1, 7#6, 8#14, ((m1.special 8).getD 0), by decide +kernel⟩,
   ⟨m1, 7#6, 15#14, ((m1.special 15).getD 0), by decide +kernel⟩,
   ⟨m1, 7#6, 9#14, ((m1.special 9).getD 0), by decide +kernel⟩,
   ⟨m1, 7#6, 13#14, ((m1.special 13).getD 0), by decide +kernel⟩,
   ⟨m1, 7#6, 16#14, ((m1.special 16).getD 0), by decide +kernel⟩⟩

theorem meets_SpecialRegisterReads_2 :
    (∃ (s : State) (a d : SRegNo) (i : BitVec 14),
     s.regsFree [a, d] ∧
     let n := (s.grp.sreg a).val.toNat % 64
     let l := (s.grp.sreg a).lbl ||| s.grp.pA
     i.toNat = 0x009 ∧ 1 ≤ n ∧ n ≤ 32 ∧ l = 0#16) ∧
    (∃ (s : State) (a d : SRegNo) (i : BitVec 14),
     s.regsFree [a, d] ∧
     let n := (s.grp.sreg a).val.toNat % 64
     let l := (s.grp.sreg a).lbl ||| s.grp.pA
     i.toNat = 0x009 ∧ 1 ≤ n ∧ n ≤ 32 ∧ l ≠ 0#16) ∧
    (∃ (s : State) (a d : SRegNo) (i : BitVec 14),
     s.regsFree [a, d] ∧
     let n := (s.grp.sreg a).val.toNat % 64
     i.toNat = 0x009 ∧ ¬ (1 ≤ n ∧ n ≤ 32)) ∧
    (∃ (s : State) (a d : SRegNo) (i : BitVec 14),
     s.regsFree [a, d] ∧ i.toNat ≠ 0x009) ∧
    (∃ (s : State) (a d : SRegNo) (i : BitVec 14),
     s.regsFree [a, d] ∧ 0x010 < i.toNat) ∧
    (∃ (s : State) (a d : SRegNo) (i : BitVec 14),
     s.regsFree [a, d] ∧ 1 ≤ i.toNat ∧ i.toNat ≤ 32 ∧ s.grp.pA = 0#16) ∧
    (∃ (s : State) (a d : SRegNo) (i : BitVec 14),
     s.regsFree [a, d] ∧ 1 ≤ i.toNat ∧ i.toNat ≤ 32 ∧ s.grp.pA ≠ 0#16) ∧
    (∃ (s : State) (a d : SRegNo) (i : BitVec 14),
     s.regsFree [a, d] ∧ ¬ (1 ≤ i.toNat ∧ i.toNat ≤ 32)) :=
  ⟨⟨m1, 4#6, 7#6, 9#14, by decide +kernel⟩,
   ⟨m1, 2#6, 7#6, 9#14, by decide +kernel⟩,
   ⟨m1, 5#6, 7#6, 9#14, by decide +kernel⟩,
   ⟨(f1), 1#6, 2#6, 5#14, by decide +kernel⟩,
   ⟨m1, 5#6, 7#6, 32#14, by decide +kernel⟩,
   ⟨m1, 1#6, 2#6, 5#14, by decide +kernel⟩,
   ⟨(f1), 1#6, 2#6, 5#14, by decide +kernel⟩,
   ⟨m1, 5#6, 7#6, 33#14, by decide +kernel⟩⟩

theorem meets_ScalarAluResults :
    ∃ (s : State) (d a b : SRegNo),
    s.regsFree [a, b, d] :=
  ⟨s0, 7#6, 1#6, 2#6, by decide +kernel⟩

theorem meets_ScalarImmediateResults :
    ∃ (s : State) (d a b c : SRegNo),
    s.regsFree [a, b, c, d] :=
  ⟨s0, 1#6, 2#6, 5#6, 3#6, by decide +kernel⟩

theorem meets_BranchResults_1 :
    ∃ (s : State) (a b : SRegNo),
    s.regsFree [a, b] ∧
    let l := ((s.grp.sreg a).lbl ||| (s.grp.sreg b).lbl) ||| s.grp.pA
    LabelIn l (s.ceil s.cur) ∧ roomToPush s.grp.apath s.grp.apc.toNat :=
  ⟨s0, 1#6, 2#6, by decide +kernel⟩

theorem meets_JumpResults_1 :
    (∃ (s : State) (a d : SRegNo),
     s.regsFree [a, d] ∧
     let g := s.grp
     let c := s.ceil s.cur
     let ld := (g.sreg d).lbl ||| g.pA
     LabelIn ld c ∧ roomToPush g.apath g.apc.toNat) ∧
    (∃ (s : State) (a d : SRegNo),
     s.regsFree [a, d] ∧
     let g := s.grp
     let c := s.ceil s.cur
     let la := (g.sreg a).lbl
     let top := match g.apath with
         | p :: r => { p with lbl := p.lbl ||| la } :: r
         | [] => [{ lbl := la, pusher := some g.apc.toNat }]
     (g.sreg a).val.toNat % 4 = 0 ∧ LabelIn ((top.head?.map (·.lbl)).getD 0#16) c) :=
  ⟨⟨s0, 4#6, 2#6, by decide +kernel⟩,
   ⟨s0, 4#6, 2#6, by decide +kernel⟩⟩

theorem meets_JumpResults_2 :
    ∃ (s : State) (a : SRegNo),
    s.regsFree [a] :=
  ⟨s0, 1#6, by decide +kernel⟩

theorem meets_SpecialRegisterReads_3 :
    ∃ (s s1 : State) (d : SRegNo) (n : BitVec 12) (bs : List Byte) (l : Label),
    s.regsFree [d] ∧ s.readCode s.cur ((s.recOf s.cur).kbank + 4 * n.toNat) 4 = .ok s1 bs l :=
  ⟨m1, (rd m1 3).1, 7#6, 3#12, (rd m1 3).2.1, (rd m1 3).2.2, by decide +kernel⟩

theorem meets_ScalarAccessIssue_1 :
    (∃ (s : State) (d a b : SRegNo) (i : BitVec 14),
     s.regsFree [a, b, d] ∧
     let g := s.grp
     let x := (g.sreg a).val + i.signExtend 64
     let la := (g.sreg a).lbl
     let k := g.pA
     let good (l : Label) (c : Acc) : Prop := (s.formAcc s.cur c).lease = false ∧ s.sendCheck s.cur l (s.formAcc s.cur c) = none
     let load : Acc := { va := x.toNat, size := 8 }
     x.toNat < 2 ^ 55 ∧ x.toNat % 8 = 0 ∧ good (la ||| k) load ∧ s.memoryFull s.cur = false) ∧
    (∃ (s : State) (d a b : SRegNo) (i : BitVec 14),
     s.regsFree [a, b, d] ∧
     let g := s.grp
     let x := (g.sreg a).val + i.signExtend 64
     let la := (g.sreg a).lbl
     let ld := (g.sreg d).lbl
     let k := g.pA
     let good (l : Label) (c : Acc) : Prop := (s.formAcc s.cur c).lease = false ∧ s.sendCheck s.cur l (s.formAcc s.cur c) = none
     let store : Acc := { va := x.toNat, size := 8, kind := .store, val := (g.sreg d).val.toNat }
     x.toNat < 2 ^ 55 ∧ x.toNat % 8 = 0 ∧ good ((la ||| ld) ||| k) store ∧ s.pathFull s.cur .st = false) ∧
    (∃ (s : State) (d a b : SRegNo),
     s.regsFree [a, b, d] ∧
     let g := s.grp
     let y := (g.sreg a).val
     let la := (g.sreg a).lbl
     let lb := (g.sreg b).lbl
     let k := g.pA
     let good (l : Label) (c : Acc) : Prop := (s.formAcc s.cur c).lease = false ∧ s.sendCheck s.cur l (s.formAcc s.cur c) = none
     let atom (f : Nat) (t : Ty) : Acc :=
         { va := y.toNat, size := 8, kind := .atomic f t, val := (g.sreg b).val.toNat, cmp := if f = 9 then (g.sreg
           d).val.toNat else 0 }
     y.toNat < 2 ^ 55 ∧ y.toNat % 8 = 0 ∧
     ∀ e ∈ [(Instr.amosAdd d a b, 0, Ty.z64), (.amosAnd d a b, 1, .z64), (.amosOr d a b, 2, .z64), (.amosXor d a b, 3,
         .z64), (.amosMin d a b, 4, .s64), (.amosMax d a b, 5, .s64), (.amosMinz d a b, 6, .z64), (.amosMaxz d a b, 7,
             .z64), (.amosSwap d a b, 8, .z64)],
       good ((la ||| lb) ||| k) (atom e.2.1 e.2.2) ∧ s.memoryFull s.cur = false) ∧
    (∃ (s : State) (d a b : SRegNo),
     s.regsFree [a, b, d] ∧
     let g := s.grp
     let y := (g.sreg a).val
     let la := (g.sreg a).lbl
     let lb := (g.sreg b).lbl
     let ld := (g.sreg d).lbl
     let k := g.pA
     let good (l : Label) (c : Acc) : Prop := (s.formAcc s.cur c).lease = false ∧ s.sendCheck s.cur l (s.formAcc s.cur c) = none
     let atom (f : Nat) (t : Ty) : Acc :=
         { va := y.toNat, size := 8, kind := .atomic f t, val := (g.sreg b).val.toNat, cmp := if f = 9 then (g.sreg
           d).val.toNat else 0 }
     y.toNat < 2 ^ 55 ∧ y.toNat % 8 = 0 ∧ good ((la ||| lb ||| ld) ||| k) (atom 9 .z64) ∧ s.memoryFull s.cur = false) ∧
    (∃ (s : State) (d a b : SRegNo),
     s.regsFree [a, b, d] ∧
     let g := s.grp
     let y := (g.sreg a).val
     let la := (g.sreg a).lbl
     let lb := (g.sreg b).lbl
     let k := g.pA
     let good (l : Label) (c : Acc) : Prop := (s.formAcc s.cur c).lease = false ∧ s.sendCheck s.cur l (s.formAcc s.cur c) = none
     let set : Acc := { va := y.toNat, size := 32, kind := .detset, val := (g.sreg b).val.toNat }
     y.toNat < 2 ^ 55 ∧ y.toNat % 32 = 0 ∧ 1 ≤ (g.sreg b).val.toNat ∧ (g.sreg b).val.toNat < 2 ^ 32 ∧
     (s.formAcc s.cur set).det = true ∧ s.pathFull s.cur .st = false ∧ good ((la ||| lb) ||| k) set) :=
  ⟨⟨m0, 2#6, 1#6, 3#6, 8#14, by decide +kernel⟩,
   ⟨m0, 2#6, 1#6, 3#6, 8#14, by decide +kernel⟩,
   ⟨m0, 2#6, 1#6, 3#6, by decide +kernel⟩,
   ⟨m0, 2#6, 1#6, 3#6, by decide +kernel⟩,
   ⟨m0, 2#6, 6#6, 4#6, by decide +kernel⟩⟩

theorem meets_ScalarAccessIssue_2 :
    (∃ (s : State) (d a b : SRegNo) (i : BitVec 14),
     s.regsFree [a, b, d] ∧
     let x := (s.grp.sreg a).val + i.signExtend 64
     let bad (z : DWord) : Prop := 2 ^ 55 ≤ z.toNat ∨ z.toNat % 8 ≠ 0
     bad x) ∧
    (∃ (s : State) (d a b : SRegNo),
     s.regsFree [a, b, d] ∧
     let y := (s.grp.sreg a).val
     let bad (z : DWord) : Prop := 2 ^ 55 ≤ z.toNat ∨ z.toNat % 8 ≠ 0
     bad y) ∧
    (∃ (s : State) (d a b : SRegNo) (i : BitVec 14),
     s.regsFree [a, b, d] ∧
     let x := (s.grp.sreg a).val + i.signExtend 64
     let bad (z : DWord) : Prop := 2 ^ 55 ≤ z.toNat ∨ z.toNat % 8 ≠ 0
     ¬ bad x ∧ s.reach (s.coreCache s.cur) s.cur x.toNat 8 false = none) ∧
    (∃ (s : State) (d a b : SRegNo) (i : BitVec 14),
     s.regsFree [a, b, d] ∧
     let x := (s.grp.sreg a).val + i.signExtend 64
     let bad (z : DWord) : Prop := 2 ^ 55 ≤ z.toNat ∨ z.toNat % 8 ≠ 0
     ¬ bad x ∧ s.reach (s.coreCache s.cur) s.cur x.toNat 8 true = none) ∧
    (∃ (s : State) (d a b : SRegNo),
     s.regsFree [a, b, d] ∧
     let y := (s.grp.sreg a).val
     let bad (z : DWord) : Prop := 2 ^ 55 ≤ z.toNat ∨ z.toNat % 8 ≠ 0
     ¬ bad y ∧ s.reach (s.coreCache s.cur) s.cur y.toNat 8 true = none) :=
  ⟨⟨m0, 2#6, 7#6, 4#6, 0x8#14, by decide +kernel⟩,
   ⟨m0, 2#6, 7#6, 4#6, by decide +kernel⟩,
   ⟨m0, 2#6, 8#6, 4#6, 0x8#14, by decide +kernel⟩,
   ⟨m0, 2#6, 8#6, 4#6, 0x8#14, by decide +kernel⟩,
   ⟨m0, 2#6, 8#6, 4#6, by decide +kernel⟩⟩

end A12

/-! ## The premises of the claims about jumps, markers and special registers -/

namespace A3

def m0 := lab 0 (fun g => { regs [(1, 0x50008, 0x1), (2, 3, 0x2), (3, 0x50010, 0), (4, 32, 0), (5, -(2^63), 4), (6, 0x60020, 0), (7, 0x50001, 0), (8, 0x70000, 0),(9,33,0)] g with apath := [{ lbl := 4#16, pusher := some 0x40000 }] })
def mm := { m0 with glbl := [(0x500, 0x17#16),(0x600,0#16)] }.writeMem 0x50010 [1,2,3,4,5,6,7,0x88]
def l1 := after (exec (.lds 10#6 3#6 0) mm)
def l2 := after (exec (.amosAdd 10#6 3#6 2#6) mm)
def l3 := after (exec (.sts 2#6 3#6 0) mm)
def l4 := after (exec (.detset 6#6 4#6) (lab 0 (regs [(4, 32, 0),(6, 0x60020, 0)])))
def ga (k : AccKind) (v : Nat) : Acc := { va := 0x50010, pa := 0x50010, size := 8, kind := k, val := v, cmp := 0x8807060504030201 }
def mh := { mm with glbl := [(0x500, 0x117#16)] }
def r0 := lab 0 (fun g => { regs [(1, 0x41000, 1), (2, 3, 0x100),(3,4,0)] g with ca := [{ val := 77#64, lbl := 3#16, quad := 0, upTo := 0 }] })
def r1 := lab 0 (fun g => { regs [(1, 0x41000, 1), (2, 3, 0x100),(3,4,0)] g with rq := List.replicate 32 (.run 0 0) })
def r2 := lab 0 (fun g => { regs [(1, 0x41000, 1), (2, 3, 0x100),(3,4,0)] g with quads := List.replicate 8 { st := .ended } })
def lv := (lab 0 (regs [(1,0x50040,0)])).writeMem 0x50040 [0x52,0x56,0x49,0x4C, 0,0,0,0]
def rr (s : State) (va n : Nat) : State × List Byte × Label := match s.readRec s.cur va n with | .ok a b c => (a,b,c) | _ => (s,[],0)

theorem meets_ScalarAccessCompletion :
    (∃ (s s1 : State) (k n : Nat) (o : Op) (a : Acc) (d : SRegNo),
     Performs s k n o s1 [a] ∧ o.cslice = false ∧ o.data = .mem ∧ o.adst = some d ∧ a.kind = .load ∧
     o.accs.all (·.kind == .load) = true) ∧
    (∃ (s s1 : State) (k n : Nat) (o : Op) (a : Acc) (d : SRegNo) (f : Nat) (t : Ty),
     Performs s k n o s1 [a] ∧ o.cslice = false ∧ o.data = .mem ∧ o.adst = some d ∧ a.kind = .atomic f t ∧
     (o.accs.all (fun c => c.kind == .atomic f t) = true)) ∧
    (∃ (s s1 : State) (k n : Nat) (o : Op) (a : Acc),
     Performs s k n o s1 [a] ∧ o.cslice = false ∧ o.data = .mem ∧ o.fc = some .st ∧ o.accs.all (·.kind == .store) = true ∧
     (∀ e ∈ (s.group k).saq, e.op ≠ o.id)) ∧
    (∃ (s s1 : State) (k n : Nat) (o : Op) (a : Acc),
     Performs s k n o s1 [a] ∧ o.cslice = false ∧ o.data = .mem ∧ o.fc = some .st ∧ o.accs.all (·.kind == .detset) = true) :=
  ⟨⟨l1, (performed l1 0).1, 0, 0, (opOf l1 0), (acc1 l1 0), 10#6, by decide +kernel⟩,
   ⟨l2, (performed l2 0).1, 0, 0, (opOf l2 0), (acc1 l2 0), 10#6, 0, .z64, by decide +kernel⟩,
   ⟨l3, (performed l3 0).1, 0, 0, (opOf l3 0), (acc1 l3 0), by decide +kernel⟩,
   ⟨l4, (performed l4 0).1, 0, 0, (opOf l4 0), (acc1 l4 0), by decide +kernel⟩⟩

theorem meets_AccessAtGranule_1 :
    (∃ (s : State) (k : Nat) (a : Acc),
     a.space = .global ∧ a.line = false ∧ isHost (localOf a.pa) = false ∧ a.lbl = 0#16 ∧ a.chk = false ∧
     s.poisoned (localOf a.pa) a.size = false ∧
     let la := localOf a.pa
     let gl := s.labelOf la a.size
     let c := s.clr k
     a.kind = .load ∧ LabelIn gl c) ∧
    (∃ (s : State) (k : Nat) (a : Acc),
     a.space = .global ∧ a.line = false ∧ isHost (localOf a.pa) = false ∧ a.lbl = 0#16 ∧ a.chk = false ∧
     s.poisoned (localOf a.pa) a.size = false ∧
     let la := localOf a.pa
     let gl := s.labelOf la a.size
     let c := s.clr k
     a.kind = .load ∧ ¬ LabelIn gl c) ∧
    (∃ (s : State) (w : Label) (a : Acc),
     a.space = .global ∧ a.line = false ∧ isHost (localOf a.pa) = false ∧ a.lbl = 0#16 ∧ a.chk = false ∧
     s.poisoned (localOf a.pa) a.size = false ∧
     let la := localOf a.pa
     let gl := s.labelOf la a.size
     a.kind = .store ∧ LabelIn w gl) ∧
    (∃ (s : State) (w : Label) (a : Acc),
     a.space = .global ∧ a.line = false ∧ isHost (localOf a.pa) = false ∧ a.lbl = 0#16 ∧ a.chk = false ∧
     s.poisoned (localOf a.pa) a.size = false ∧
     let la := localOf a.pa
     let gl := s.labelOf la a.size
     a.kind = .store ∧ ¬ LabelIn w gl) ∧
    (∃ (s : State) (k : Nat) (w : Label) (a : Acc) (f : Nat) (t : Ty),
     a.space = .global ∧ a.line = false ∧ isHost (localOf a.pa) = false ∧ a.lbl = 0#16 ∧ a.chk = false ∧
     s.poisoned (localOf a.pa) a.size = false ∧
     let la := localOf a.pa
     let gl := s.labelOf la a.size
     let c := s.clr k
     a.kind = .atomic f t ∧ LabelIn gl c ∧ LabelIn w gl) ∧
    (∃ (s : State) (k : Nat) (a : Acc) (f : Nat) (t : Ty),
     a.space = .global ∧ a.line = false ∧ isHost (localOf a.pa) = false ∧ a.lbl = 0#16 ∧ a.chk = false ∧
     s.poisoned (localOf a.pa) a.size = false ∧
     let la := localOf a.pa
     let gl := s.labelOf la a.size
     let c := s.clr k
     a.kind = .atomic f t ∧ ¬ LabelIn gl c) ∧
    (∃ (s : State) (k : Nat) (w : Label) (a : Acc) (f : Nat) (t : Ty),
     a.space = .global ∧ a.line = false ∧ isHost (localOf a.pa) = false ∧ a.lbl = 0#16 ∧ a.chk = false ∧
     s.poisoned (localOf a.pa) a.size = false ∧
     let la := localOf a.pa
     let gl := s.labelOf la a.size
     let c := s.clr k
     a.kind = .atomic f t ∧ LabelIn gl c ∧ ¬ LabelIn w gl) :=
  ⟨⟨mm, 0, (ga .load 0), by decide +kernel⟩,
   ⟨mh, 0, (ga .load 0), by decide +kernel⟩,
   ⟨mm, 0x13#16, (ga .store 0x123456789), by decide +kernel⟩,
   ⟨mm, 0x23#16, (ga .store 0x123456789), by decide +kernel⟩,
   ⟨mm, 0, 0x13#16, (ga (.atomic 9 .z64) 0x123456789), 9, .z64, by decide +kernel⟩,
   ⟨mh, 0, (ga (.atomic 4 .s64) 0x123456789), 4, .s64, by decide +kernel⟩,
   ⟨mm, 0, 0x23#16, (ga (.atomic 4 .s64) 0x123456789), 4, .s64, by decide +kernel⟩⟩

theorem meets_RunAndQueueWords_1 :
    (∃ (s : State) (d a : SRegNo),
     s.regsFree [d, a] ∧
     let g := s.grp
     let rl := (g.sreg d).lbl ||| g.pA
     g.unended ≠ [] ∧ LabelIn rl (s.ceil s.cur) ∧ g.outstanding < g.slip ∧ g.rq.length < 32) ∧
    (∃ (s : State) (d a : SRegNo),
     s.regsFree [d, a] ∧
     let g := s.grp
     let rl := (g.sreg d).lbl ||| g.pA
     g.unended ≠ [] ∧ ¬ LabelIn rl (s.ceil s.cur)) ∧
    (∃ (s : State) (d a : SRegNo) (e : CAEntry) (es : List CAEntry),
     s.regsFree [d, a] ∧
     let g := s.grp
     g.ca = e :: es) ∧
    (∃ (s : State) (d a : SRegNo),
     s.regsFree [d, a] ∧
     let g := s.grp
     g.ca = [] ∧ g.unended = []) ∧
    (∃ (s : State) (d a : SRegNo),
     s.regsFree [d, a] ∧
     let g := s.grp
     g.unended = [] ∧ g.rq.length < 32) ∧
    (∃ (s : State) (d a : SRegNo),
     s.regsFree [d, a] ∧
     let g := s.grp
     32 ≤ g.rq.length) :=
  ⟨⟨r0, 1#6, 3#6, by decide +kernel⟩,
   ⟨r0, 2#6, 2#6, by decide +kernel⟩,
   ⟨r0, 1#6, 3#6, { val := 77#64, lbl := 3#16, quad := 0, upTo := 0 }, [], by decide +kernel⟩,
   ⟨r2, 1#6, 1#6, by decide +kernel⟩,
   ⟨r2, 1#6, 1#6, by decide +kernel⟩,
   ⟨r1, 1#6, 1#6, by decide +kernel⟩⟩

end A3

/-! ## The premises of the claims about scalar accesses and queues -/

namespace A4

def m0 := lab 0 (fun g => { regs [(1, 0x50008, 0x1), (2, 3, 0x2), (3, 0x50010, 0), (4, 32, 0), (5, -(2^63), 4), (6, 0x60020, 0), (7, 0x50001, 0), (8, 0x70000, 0),(9,33,0)] g with apath := [{ lbl := 4#16, pusher := some 0x40000 }] })
def lv := (lab 0 (regs [(1,0x50040,0)])).writeMem 0x50040 [1,0,1,1, 0,0,0,0]
def lvl := (lab 0 (regs [(1,0x50040,1)])).writeMem 0x50040 [1,0,1,1, 0,0,0,0]
def hh (s : State) := ((parseLiveness (recAt s 0x50040 256).2.1 4096).getD .all)
def v1 := after (exec (.vld 1#2 3#6 0#14) m0)
def addrOf (s : State) : Nat := match (opOf s 0).data with | .vld _ x => x | _ => 0
def v1b := v1.setGroup 0 ((v1.group 0).setOp { (opOf v1 0) with fail := some {code := 4} })
def v1c := let t := after (exec (.vldFail 0 0) v1b); t.setGroup 0 { (t.group 0) with paths := (t.group 0).paths.map (fun e => (e.1, { e.2 with phase := .parked })) }
def pe (s : State) := ((s.group 0).poisons.headD (0, { vld := 0, addr := 0, op := 0 }))
def c0 := lab 0 (vreg 1 (fun l => l * 0x01010101) 0x3)
def c8 := lab 0 (fun g => { vreg 1 (fun l => l * 0x01010101) 0x3 g with ca := List.replicate 8 ⟨0,0,0,0⟩ })
def cp := lab 0 (fun g => { vreg 1 (fun l => l * 0x01010101) 0x3 g with preds := [(2, ⟨0x0F0#32, 0x10#16⟩)] })
def fs : CFields := { flds with sb := 0, sc := 0, dst := 0 }
def sd := after (exec (.std { fs with pr := 2 }) cp)
def cfull := lab 0 (fun g => { vreg 1 (fun l => l * 0x01010101) 0x3 g with quads := (g.quads.map (fun q => { q with stdCnt := 16 })) })
def qs := after (exec (.vsta 3#6 0#14) { sd with groups := [(0, regs [(3, 0x50010, 0)] sd.grp)]})
def qsL := { qs with glbl := [(0x500, 0x13#16)] }
def qo1 (s : State) : Op := let g := s.group 0; let a := g.saq.headD ⟨0,0,0,0⟩; let d := g.sdq.headD {}; let form := ((List.range 32).filter (fun l => d.mask.getLsbD l)).map (fun l =>
      s.formAcc 0 { lane := l, va := a.addr + 4 * l, size := 4, kind := .store, val := (laneAt d.data l).toNat }); { (opOf s a.op) with lbl := a.lbl ||| d.lbl, accs := form }
def pf (s : State) := match s.perform 0 (qo1 s) (fun _ => true) with | .ok t a => (t, a, ({code := 0} : Flt)) | .bad f => (s, [], f) | _ => (s, [], {code := 0})
def st := after (exec (.sts 2#6 3#6 0) { m0 with glbl := [(0x500, 0x17#16)] })
def pf1 (s : State) (n i : Nat) := match s.perform 0 (opOf s n) (· == i) with | .ok t a => (t, a, ({code := 0} : Flt)) | .bad f => (s, [], f) | _ => (s, [], {code := 0})
def v1t := v1b.setGroup 0 { (v1b.group 0) with lqs := [(1, { base := 1, entries := [] })] }

theorem meets_QueueAccessIssue_2 :
    (∃ (s s1 : State) (k n : Nat) (o : Op) (accs : List Acc) (q x : Nat),
     o.data = .vld q x ∧ Performs s k n o s1 accs) ∧
    (∃ (s : State) (k n : Nat) (o : Op) (q x : Nat) (f : Flt),
     o.data = .vld q x ∧ (s.group k).op n = some o ∧ o.doneq = false ∧ o.fail = some f ∧
     (∃ y ∈ ((s.group k).lq q).entries, y.op = o.id)) ∧
    (∃ (s : State) (k n : Nat) (o : Op) (q x : Nat) (f : Flt),
     o.data = .vld q x ∧ (s.group k).op n = some o ∧ o.doneq = false ∧ o.fail = some f ∧
     (∀ y ∈ ((s.group k).lq q).entries, y.op < o.id) ∧ q < 4) ∧
    (∃ (s : State) (k : Nat) (o : Op) (q x : Nat) (f : Flt) (e : LQEntry),
     o.data = .vld q x ∧ (s.group k).poisons = [(q, e)] ∧ (s.group k).fault = none ∧ (s.group k).atYield = false ∧
     (s.team (teamOf k)).bell = none ∧ (s.team (teamOf k)).state = .resident ∧
     (∀ p ∈ (s.group k).paths, p.2.phase = .parked ∨ p.2.phase = .marker ∨ (s.group k).cDeadCode p.2 ≠ 0) ∧
     e.poison = some f) :=
  ⟨⟨v1, (performed v1 0).1, 0, 0, (opOf v1 0), (performed v1 0).2, 1, (addrOf v1), by decide +kernel⟩,
   ⟨v1b, 0, 0, (opOf v1b 0), 1, (addrOf v1b), {code := 4}, by decide +kernel⟩,
   ⟨v1t, 0, 0, (opOf v1t 0), 1, (addrOf v1t), {code := 4}, by decide +kernel⟩,
   ⟨v1c, 0, {id := 0, fc := none, data := .vld 1 0}, (pe v1c).1, 0, {code := 4}, (pe v1c).2, by decide +kernel⟩⟩

theorem meets_RunAndQueueWords_2 :
    ∃ (s s1 : State) (a : SRegNo) (bs : List Byte) (l : Label) (h : Hint),
    s.regsFree [a] ∧
    let x := (s.grp.sreg a).val
    x.toNat < 2 ^ 55 ∧ x.toNat % 64 = 0 ∧ s.grp.rq.length < 32 ∧ s.readRec s.cur x.toNat 256 = .ok s1 bs l ∧
    LabelIn l (s.clr s.cur) ∧ parseLiveness bs (s.recOf s.cur).spsize = some h ∧ s1.grp.unended ≠ [] :=
  ⟨lv, (recAt lv 0x50040 256).1, 1#6, (recAt lv 0x50040 256).2.1, (recAt lv 0x50040 256).2.2, (hh lv), by decide +kernel,
    by decide +kernel,
    by decide +kernel,
    by decide +kernel,
    recAt_ok (by decide +kernel) (by decide +kernel),
    by decide +kernel,
    by decide +kernel,
    by decide +kernel⟩

theorem meets_QueueAccessIssue_1 :
    (∃ (s : State) (q : BitVec 2) (a : SRegNo) (i : BitVec 14),
     s.regsFree [a] ∧
     let g := s.grp
     let x := (g.sreg a).val + i.signExtend 64
     x.toNat < 2 ^ 55 ∧ x.toNat % 4 = 0 ∧ g.unended = [] ∧ g.poisons = [] ∧ (g.lq q.toNat).entries.length < 16 ∧
     s.pathFull s.cur .ld = false) ∧
    (∃ (s : State) (q : BitVec 2) (a : SRegNo) (i : BitVec 14),
     s.regsFree [a] ∧
     let g := s.grp
     let x := (g.sreg a).val + i.signExtend 64
     x.toNat < 2 ^ 55 ∧ x.toNat % 4 = 0 ∧ g.unended ≠ [] ∧ (g.lq q.toNat).entries.length < 16 ∧
     s.pathFull s.cur .ld = false) ∧
    (∃ (s : State) (a : SRegNo) (i : BitVec 14),
     s.regsFree [a] ∧
     let g := s.grp
     let x := (g.sreg a).val + i.signExtend 64
     x.toNat < 2 ^ 55 ∧ x.toNat % 4 = 0 ∧ g.saq.length < 16 ∧ s.pathFull s.cur .st = false) :=
  ⟨⟨(lab 0 (fun g => { regs [(3, 0x50010, 0)] g with quads := List.replicate 8 { st := .ended } })), 1#2, 3#6, 0x3FFC#14, by decide +kernel⟩,
   ⟨m0, 1#2, 3#6, 0x3FFC#14, by decide +kernel⟩,
   ⟨m0, 3#6, 0x3FFC#14, by decide +kernel⟩⟩

theorem meets_QueueSupplies_2 :
    (∃ (s s1 : State) (k : Nat) (a : SAEntry) (d : SDEntry) (as : List SAEntry) (ds : List SDEntry) (o : Op) (accs : List Acc),
     (s.group k).saq = a :: as ∧ (s.group k).sdq = d :: ds ∧ (s.group k).op a.op = some o ∧ (s.group k).supplied d = true ∧
     (s.group k).storeFail = false ∧ (s.team (teamOf k)).state = .resident ∧ s.storing k = false ∧
     let form := ((List.range 32).filter (fun l => d.mask.getLsbD l)).map (fun l =>
         s.formAcc k { lane := l, va := a.addr + 4 * l, size := 4, kind := .store, val := (laneAt d.data l).toNat })
     let o1 := { o with lbl := a.lbl ||| d.lbl, accs := form }
     (∀ x ∈ form, x.lease = false ∧ s.sendCheck k (a.lbl ||| d.lbl) x = none) ∧
     (s.perform k o1 (fun _ => true) = .ok s1 accs) ∧ accs.all (·.done) = true) ∧
    (∃ (s : State) (k : Nat) (a : SAEntry) (d : SDEntry) (as : List SAEntry) (ds : List SDEntry) (o : Op) (accs : List Acc) (f : Flt),
     (s.group k).saq = a :: as ∧ (s.group k).sdq = d :: ds ∧ (s.group k).op a.op = some o ∧ (s.group k).supplied d = true ∧
     (s.group k).storeFail = false ∧ (s.team (teamOf k)).state = .resident ∧ s.storing k = false ∧
     let form := ((List.range 32).filter (fun l => d.mask.getLsbD l)).map (fun l =>
         s.formAcc k { lane := l, va := a.addr + 4 * l, size := 4, kind := .store, val := (laneAt d.data l).toNat })
     let o1 := { o with lbl := a.lbl ||| d.lbl, accs := form }
     (∀ x ∈ form, x.lease = false ∧ s.sendCheck k (a.lbl ||| d.lbl) x = none) ∧ (s.perform k o1 (fun _ => true) = .bad f)) :=
  ⟨⟨qsL, (pf qsL).1, 0, (qsL.grp.saq.headD ⟨0,0,0,0⟩), (qsL.grp.sdq.headD {}), [], [], (opOf qsL 0), (pf qsL).2.1, by decide +kernel⟩,
   ⟨qs, 0, (qs.grp.saq.headD ⟨0,0,0,0⟩), (qs.grp.sdq.headD {}), [], [], (opOf qs 0), (pf qs).2.1, (pf qs).2.2, by decide +kernel⟩⟩

theorem meets_QueueSupplies_3 :
    ∃ (s s1 : State) (k n i : Nat) (o : Op) (accs : List Acc),
    (s.group k).op n = some o ∧ o.doneq = false ∧ (o.accs.all (fun a => a.kind == .store || a.kind == .raise) = true) ∧
    (∀ e ∈ (s.group k).saq, e.op ≠ o.id) ∧ s.perform k o (· == i) = .ok s1 accs :=
  ⟨st, (pf1 st 0 0).1, 0, 0, 0, (opOf st 0), (pf1 st 0 0).2.1, by decide +kernel⟩

theorem meets_QueueSupplies_4 :
    (∃ (s : State) (k : Nat) (a : SAEntry) (d : SDEntry) (as : List SAEntry) (ds : List SDEntry) (o : Op),
     let g := s.group k
     let l := a.lbl ||| d.lbl
     let lanes := (List.range 32).filter (fun j => d.mask.getLsbD j)
     let form (j : Nat) : Acc := s.formAcc k { lane := j, va := a.addr + 4 * j, size := 4, kind := .store, val := (laneAt
                                               d.data j).toNat }
     g.saq = a :: as ∧ g.sdq = d :: ds ∧ g.ops = [o] ∧ o.id = a.op ∧ o.fail = none ∧ o.cslice = false ∧
     o.data = .queueStore ∧ g.supplied d = true ∧ g.storeFail = false ∧ (s.team (teamOf k)).state = .resident ∧
     (∀ j ∈ lanes, s.PlainStore k l (form j) ∧ s.sendCheck k l (form j) = none) ∧
     (∀ j ∈ lanes, ∀ m ∈ lanes, j ≠ m → (form j).pa + 4 ≤ (form m).pa ∨ (form m).pa + 4 ≤ (form j).pa)) ∧
    (∃ (s : State) (k : Nat) (p : Op) (n i : Nat) (c : Acc),
     let g := s.group k
     g.saq = [] ∧ g.ops = [p] ∧ p.id = n ∧ p.cslice = false ∧ p.doneq = false ∧ p.accs = [c] ∧ i = 0 ∧
     s.PlainStore k p.lbl c) :=
  ⟨⟨qsL, 0, (qsL.grp.saq.headD ⟨0,0,0,0⟩), (qsL.grp.sdq.headD {}), [], [], (opOf qsL 0), by decide +kernel⟩,
   ⟨st, 0, (opOf st 0), 0, 0, ((opOf st 0).accs.headD {}), by decide +kernel⟩⟩

end A4

/-! ## The premises of the claims about banks, reservations, counters, signals and barriers -/

namespace A5

def al (n : Int) (w : DWord) := let s := lab 0 (regs [(1, n, 3)]); { s with teams := [(0, { labTeam with banks := w, acc := [(32768*2+1, 7#32),(32768*5+1, 7#32)], bankLbl := [(2, 3),(5,7)] })] }
def alw := let s := al 2 (~~~ 0#64); { s with grids := [(0, { rec_ := {labRec with accpeak := 64}, lrec := 0x50000, ctx := 0, order := 0, admitted := true, nextTeam := 1 })] }
def w1 := after (exec (.alloc 2#6 1#6) (let s := al 2 0; { s with teams := s.teams ++ [(1, { labTeam with banks := ~~~ 0#64 })] }))
def w2 := let s := al 0x20 0x24; s.setGrp { s.grp with await := some (.free 1#6) }
def rv (h : Nat) := ((lab 0 (regs [(1, 0x50040, 3), (2, h, 4)])).setTm { labTeam with wmem := [(3, 4#8)] }).writeMem 0x50040 (record 64 [(0,1,Ty.s8.code),(2,1,0x1F),(4,4,4096)])
def rvr (s : State) : Resv := (parseResv (recAt s 0x50040 64).2.1 0 7#16).getD ⟨.s8,0,0,0,0,0,0,0⟩
def rv2 := let s := after (exec (.resv 3#6 1#6 2#6) (rv 2)); s.setGrp (regs [(5,2,0),(6,16,0)] s.grp)
def rvw := rv2.setGrp { rv2.grp with await := some (.unresv 5#6) }
def cf := let s := lab 0 (regs [(1, 0x50008, 0)]); (after (exec (.lds 2#6 1#6 0) s))
def cv := lab 0 (fun g => g.raiseFc .ld)
def cvw := cv.setGrp { cv.grp with await := some (.waitfc .ld 1) }
def fw := let s := lab 0 (fun g => {g with rq := [.run 0 0], runs := 1}); s
def fww := let s := lab 0 (fun g => {g with await := some (.fence .device .full)}); s
def sg (v th ctl : Int) (d : Int) := (((lab 0 (regs [(1, 0x50020, 1), (2, d, 2)])).writeMem 0x50020 (bytesOf (BitVec.ofInt 64 v).toNat 8)).writeMem 0x50028 (bytesOf (BitVec.ofInt 64 th).toNat 8)).writeMem 0x50030 (bytesOf (BitVec.ofInt 64 ctl).toNat 4)
def sgl (v d : Int) := { (sg v 0 0 d) with glbl := [(0x500, 3#16)] }
def sgw := let s := sgl 5 5; s.setGrp { s.grp with await := some (.sigwait 1#6 2#6) }
def ba (m : Bool) (b : Barrier) (e : Int) := let s := lab 0 (regs [(1, 0x20, 1), (2, e, 2), (3, 0, 0), (4, 1, 0)]); s.setTm (({ labTeam with spMark := if m then [(2, true)] else [] } : Team).setBarrier 0x20 b)
def bb (l : Label) (err ph : Bool) (arr ex : Nat) : Barrier := { lbl := l, err := err, phase := ph, arr := arr, exp := ex }
def baw := let s := ba true (bb 0 false true 0 2) 1; s.setGrp { s.grp with await := some (.barwait 4#6 1#6) }

theorem meets_AccumulatorBanks :
    (∃ (s : State) (d a : SRegNo),
     s.regsFree [d, a] ∧
     let g := s.grp
     let t := s.tm
     let n := (g.sreg a).val.toNat
     let q := s.allocWaiters t.core
     n ≠ 0 ∧ (bankList t.banks).length + n ≤ (s.recOf s.cur).accpeak ∧ (q = [] ∨ q.head? = some s.cur) ∧
     n ≤ (bankList (~~~ s.banksTaken t.core)).length) ∧
    (∃ (s : State) (d a : SRegNo),
     s.regsFree [d, a] ∧
     let g := s.grp
     let n := (g.sreg a).val.toNat
     n = 0) ∧
    (∃ (s : State) (d a : SRegNo),
     s.regsFree [d, a] ∧
     let g := s.grp
     let t := s.tm
     let n := (g.sreg a).val.toNat
     n ≠ 0 ∧ (s.recOf s.cur).accpeak < (bankList t.banks).length + n) ∧
    (∃ (s : State) (d a : SRegNo),
     s.regsFree [d, a] ∧
     let g := s.grp
     let t := s.tm
     let m := (g.sreg a).val
     m &&& ~~~ t.banks = 0#64 ∧ t.boundIn m = false ∧ s.banksBusy (teamOf s.cur) m = false) ∧
    (∃ (s : State) (d a : SRegNo),
     s.regsFree [d, a] ∧
     let g := s.grp
     let t := s.tm
     let m := (g.sreg a).val
     m &&& ~~~ t.banks ≠ 0#64) ∧
    (∃ (s : State) (d a : SRegNo) (c k : Nat) (ks : List Nat),
     s.regsFree [d, a] ∧ s.allocWaiters c = k :: ks ∧ (s.group k).await = some (.alloc d a) ∧ s.aReady k = true) ∧
    (∃ (s : State) (d a : SRegNo) (k : Nat),
     s.regsFree [d, a] ∧ (s.group k).await = some (.free a) ∧ s.aReady k = true) :=
  ⟨⟨(al 2 0x24), 2#6, 1#6, by decide +kernel⟩,
   ⟨(al 0 0x24), 2#6, 1#6, by decide +kernel⟩,
   ⟨(al 7 0x24), 2#6, 1#6, by decide +kernel⟩,
   ⟨(al 0 0x24), 2#6, 1#6, by decide +kernel⟩,
   ⟨(al 2 0x24), 2#6, 1#6, by decide +kernel⟩,
   ⟨w1, 2#6, 1#6, 0, 0, [], by decide +kernel⟩,
   ⟨w2, 2#6, 1#6, 0, by decide +kernel⟩⟩

theorem meets_WeightReservations :
    (∃ (s s1 : State) (d a b : SRegNo) (bs : List Byte) (l : Label) (r : Resv) (off : Nat),
     s.regsFree [d, a, b] ∧
     let g := s.grp
     let t := s.tm
     let x := (g.sreg a).val
     let h := (g.sreg b).val.toNat
     let lb := ((g.sreg a).lbl ||| (g.sreg b).lbl ||| l) ||| g.pA
     x.toNat < 2 ^ 55 ∧ x.toNat % 64 = 0 ∧ h ≤ 15 ∧ t.resv.find h = none ∧ s.readRec s.cur x.toNat 64 = .ok s1 bs l ∧
     LabelIn l (s.clr s.cur) ∧ parseResv bs 0 lb = some r ∧ t.freeRegion r.size ((s.recOf s.cur).wres * 4096) = some off) ∧
    (∃ (s : State) (d a b : SRegNo),
     s.regsFree [d, a, b] ∧
     let g := s.grp
     let t := s.tm
     let x := (g.sreg a).val
     let h := (g.sreg b).val.toNat
     x.toNat < 2 ^ 55 ∧ x.toNat % 64 = 0 ∧ (15 < h ∨ (t.resv.find h).isSome)) ∧
    (∃ (s : State) (d a b : SRegNo),
     s.regsFree [d, a, b] ∧
     let g := s.grp
     let t := s.tm
     (g.sreg a).val.toNat ≤ 15 ∧ (t.resv.find (g.sreg a).val.toNat).isSome ∧
     s.handleBusy (teamOf s.cur) (g.sreg a).val.toNat = false) ∧
    (∃ (s : State) (d a b : SRegNo) (k : Nat),
     s.regsFree [d, a, b] ∧ (s.group k).await = some (.unresv a) ∧ s.aReady k = true) :=
  ⟨⟨(rv 2), (recAt (rv 2) 0x50040 64).1, 3#6, 1#6, 2#6, (recAt (rv 2) 0x50040 64).2.1, (recAt (rv 2) 0x50040 64).2.2, (rvr (rv 2)), 0, by decide +kernel,
    by decide +kernel,
    by decide +kernel,
    by decide +kernel,
    by decide +kernel,
    recAt_ok (by decide +kernel) (by decide +kernel),
    by decide +kernel,
    by decide +kernel,
    by decide +kernel⟩,
   ⟨(rv 16), 3#6, 1#6, 2#6, by decide +kernel⟩,
   ⟨rv2, 3#6, 5#6, 2#6, by decide +kernel⟩,
   ⟨rvw, 3#6, 5#6, 2#6, 0, by decide +kernel⟩⟩

theorem meets_CountersAndFences :
    (∃ (s : State) (c : FC) (n : BitVec 12),
     s.grp.fcv c ≤ n.toNat) ∧
    (∃ (s : State) (c : FC) (n : BitVec 12),
     n.toNat < s.grp.fcv c) ∧
    (∃ (s : State),
     s.grp.fenceReady = true) ∧
    (∃ (s : State),
     s.grp.fenceReady = false) ∧
    (∃ (s : State) (c : FC) (n : BitVec 12) (k : Nat),
     s.aReady k = true ∧ (s.group k).await = some (.waitfc c n)) ∧
    (∃ (s : State) (sc : Scope) (f : FenceKind) (k : Nat),
     s.aReady k = true ∧ (s.group k).await = some (.fence sc f)) :=
  ⟨⟨cv, .ld, 1, by decide +kernel⟩,
   ⟨cv, .ld, 0, by decide +kernel⟩,
   ⟨cv, by decide +kernel⟩,
   ⟨fw, by decide +kernel⟩,
   ⟨cvw, .ld, 1, 0, by decide +kernel⟩,
   ⟨fww, .device, .full, 0, by decide +kernel⟩⟩

theorem meets_SignalWords_1 :
    (∃ (s : State) (a b : SRegNo) (u : State),
     s.regsFree [a, b] ∧
     let g := s.grp
     let x := (g.sreg a).val
     let w := ((g.sreg a).lbl ||| (g.sreg b).lbl) ||| g.pA
     let acc (v : DWord) := s.formAcc s.cur { va := x.toNat, size := 8, kind := .signal, val := v.toNat }
     let gl (v : DWord) := s.labelOf (localOf (acc v).pa) 8
     x.toNat < 2 ^ 55 ∧ x.toNat % 32 = 0 ∧
     let v : DWord := (g.sreg b).val
     let o : Out := (exec (.sigadd a b) s)
     s.signal (localOf (acc v).pa) v (acc v).line = some u ∧ g.released false = true ∧ (acc v).lease = false ∧
     s.sendCheck s.cur w (acc v) = none ∧ s.isLocal (acc v) = true ∧ isHost (localOf (acc v).pa) = false ∧
     (acc v).dup = false ∧ LabelIn (gl v) (s.clr s.cur) ∧ LabelIn w (gl v) ∧ s.poisoned (localOf (acc v).pa) 24 = false ∧
     (∀ o ∈ g.ops, o.data ≠ .signal ∧ o.id < g.nextOp ∧ ∀ y ∈ o.accs, y.done = true)) ∧
    (∃ (s s1 : State) (a b : SRegNo) (bs : List Byte) (l : Label),
     s.regsFree [a, b] ∧
     let g := s.grp
     let x := (g.sreg a).val
     x.toNat < 2 ^ 55 ∧ x.toNat % 32 = 0 ∧ s.readRec s.cur x.toNat 8 = .ok s1 bs l ∧ LabelIn l (s.clr s.cur) ∧
     (BitVec.ofNat 64 (ofBytes bs)).toInt ≤ (g.sreg b).val.toInt) ∧
    (∃ (s s1 : State) (a b : SRegNo) (bs : List Byte) (l : Label),
     s.regsFree [a, b] ∧
     let g := s.grp
     let x := (g.sreg a).val
     x.toNat < 2 ^ 55 ∧ x.toNat % 32 = 0 ∧ s.readRec s.cur x.toNat 8 = .ok s1 bs l ∧ LabelIn l (s.clr s.cur) ∧
     (g.sreg b).val.toInt < (BitVec.ofNat 64 (ofBytes bs)).toInt) ∧
    (∃ (s : State) (a b : SRegNo) (k : Nat),
     s.regsFree [a, b] ∧
     let g := s.grp
     let x := (g.sreg a).val
     x.toNat < 2 ^ 55 ∧ x.toNat % 32 = 0 ∧ (s.group k).await = some (.sigwait a b) ∧ s.aReady k = true) :=
  ⟨⟨(sgl 6 5), 1#6, 2#6, ((sgl 6 5).signal 0x50020 5#64 false).getD State.reset, by decide +kernel⟩,
   ⟨(sgl 5 5), (recAt (sgl 5 5) 0x50020 8).1, 1#6, 2#6, (recAt (sgl 5 5) 0x50020 8).2.1, 3, by decide +kernel,
    by decide +kernel,
    by decide +kernel,
    recAt_ok (by decide +kernel) (by decide +kernel),
    by decide +kernel,
    by decide +kernel⟩,
   ⟨(sgl 6 5), (recAt (sgl 6 5) 0x50020 8).1, 1#6, 2#6, (recAt (sgl 6 5) 0x50020 8).2.1, 3, by decide +kernel,
    by decide +kernel,
    by decide +kernel,
    recAt_ok (by decide +kernel) (by decide +kernel),
    by decide +kernel,
    by decide +kernel⟩,
   ⟨sgw, 1#6, 2#6, 0, by decide +kernel⟩⟩

theorem meets_SignalWords_2 :
    (∃ (s : State) (la : Nat) (delta : DWord) (line : Bool) (t : State) (x : Nat),
     s.signal la delta line = some t ∧ (x < la ∨ la + 8 ≤ x)) ∧
    (∃ (s : State) (la : Nat) (delta : DWord) (line : Bool) (t : State),
     s.signal la delta line = some t ∧ line = false) :=
  ⟨⟨(sg 4 3 0x70001 0), 0x50020, (-1), false, ((sg 4 3 0x70001 0).signal 0x50020 (-1) false).getD State.reset, 0x50028, by decide +kernel⟩,
   ⟨(sg 4 3 0x70001 0), 0x50020, (-1), false, ((sg 4 3 0x70001 0).signal 0x50020 (-1) false).getD State.reset, by decide +kernel⟩⟩

theorem meets_BarrierWords :
    (∃ (s : State) (d a b : SRegNo),
     s.regsFree [d, a, b] ∧
     let g := s.grp
     let t := s.tm
     let n := (g.sreg a).val.toNat
     let e := (g.sreg b).val.toNat
     let bar := t.barrier n
     let fits := n % 16 = 0 ∧ n + 16 ≤ (s.recOf s.cur).spsize
     fits ∧ 1 ≤ e ∧ e ≤ 65535 ∧ (t.marked? n = false ∨ bar.arr = 0) ∧ (∀ h ∈ s.held, h.isFor t = false)) ∧
    (∃ (s : State) (d a b : SRegNo),
     s.regsFree [d, a, b] ∧
     let g := s.grp
     let t := s.tm
     let n := (g.sreg a).val.toNat
     let e := (g.sreg b).val.toNat
     let bar := t.barrier n
     let fits := n % 16 = 0 ∧ n + 16 ≤ (s.recOf s.cur).spsize
     fits ∧ 1 ≤ e ∧ e ≤ 65535 ∧ t.marked? n = true ∧ bar.arr ≠ 0) ∧
    (∃ (s : State) (d a b : SRegNo),
     s.regsFree [d, a, b] ∧
     let g := s.grp
     let t := s.tm
     let n := (g.sreg a).val.toNat
     let e := (g.sreg b).val.toNat
     let l := ((g.sreg a).lbl ||| (g.sreg b).lbl) ||| g.pA
     let bar := t.barrier n
     let fits := n % 16 = 0 ∧ n + 16 ≤ (s.recOf s.cur).spsize
     fits ∧ 1 ≤ e ∧ e ≤ 65535 ∧ t.marked? n = true ∧ g.released false = true ∧ LabelIn l bar.lbl) ∧
    (∃ (s : State) (d a b : SRegNo),
     s.regsFree [d, a, b] ∧
     let g := s.grp
     let t := s.tm
     let n := (g.sreg a).val.toNat
     let bar := t.barrier n
     let fits := n % 16 = 0 ∧ n + 16 ≤ (s.recOf s.cur).spsize
     fits ∧ t.marked? n = true ∧ LabelIn bar.lbl (s.clr s.cur) ∧ bar.phase = (g.sreg d).val.getLsbD 0 ∧ bar.err = false) ∧
    (∃ (s : State) (d a b : SRegNo),
     s.regsFree [d, a, b] ∧
     let g := s.grp
     let t := s.tm
     let n := (g.sreg a).val.toNat
     let bar := t.barrier n
     let fits := n % 16 = 0 ∧ n + 16 ≤ (s.recOf s.cur).spsize
     fits ∧ t.marked? n = true ∧ LabelIn bar.lbl (s.clr s.cur) ∧ bar.phase = (g.sreg d).val.getLsbD 0 ∧ bar.err = true) ∧
    (∃ (s : State) (d a b : SRegNo) (o : Barrier) (m : Nat),
     s.regsFree [d, a, b] ∧ o.arr + m < o.exp) ∧
    (∃ (s : State) (d a b : SRegNo) (o : Barrier) (m : Nat),
     s.regsFree [d, a, b] ∧ o.arr + m = o.exp) ∧
    (∃ (s : State) (d a b : SRegNo) (o : Barrier) (m : Nat),
     s.regsFree [d, a, b] ∧ o.exp < o.arr + m) ∧
    (∃ (s : State) (d a b : SRegNo) (k : Nat),
     s.regsFree [d, a, b] ∧ (s.group k).await = some (.barwait d a) ∧ s.aReady k = true) :=
  ⟨⟨(ba false (bb 3 true true 7 8) 65535), 3#6, 1#6, 2#6, by decide +kernel⟩,
   ⟨(ba true (bb 3 true true 7 8) 1), 4#6, 1#6, 2#6, by decide +kernel⟩,
   ⟨(ba true (bb 3 true true 0 8) 1), 3#6, 1#6, 2#6, by decide +kernel⟩,
   ⟨(ba true (bb 3 false true 7 8) 2), 4#6, 1#6, 2#6, by decide +kernel⟩,
   ⟨(ba true (bb 3 true true 7 8) 1), 4#6, 1#6, 2#6, by decide +kernel⟩,
   ⟨(ba false (bb 3 true true 7 8) 65535), 3#6, 1#6, 2#6, (bb 3 true true 6 8), 1, by decide +kernel⟩,
   ⟨(ba false (bb 3 true true 7 8) 65535), 3#6, 1#6, 2#6, (bb 3 true true 7 8), 1, by decide +kernel⟩,
   ⟨(ba true (bb 3 true true 7 8) 1), 4#6, 1#6, 2#6, (bb 3 false true 7 9), 3, by decide +kernel⟩,
   ⟨baw, 4#6, 1#6, 2#6, 0, by decide +kernel⟩⟩

end A5

/-! ## The premises of the claims about labels, launches, engines and system calls -/

namespace A6

def lr : List Byte := record 256 [(0,2,1),(4,4,3),(8,8,0x40000),(0x10,8,0x41000),(0x18,4,64),(0x1C,4,128),(0x20,8,0x44000),(0x30,1,1),(0x31,1,32),(0x32,2,64),(0x34,1,0),(0x36,1,0x11),(0x40,4,4096),(0x46,2,16)]
def la (bs : List Byte) (l : Nat) (x : Label) := let s := (lab 0 (regs [(1, 0x50100, l)])).writeMem 0x50100 bs; { s with glbl := [(0x501, x)] }
def lx (s : State) := recAt s 0x50100 256
def early (l : Label) := lab 0 (fun g => { g with apath := [{ lbl := l, pusher := none }] })
def po (role : Nat) := (lab role (regs [(1, 0x50100, 1)])).writeMem 0x50100 (record 64 [(0,1,0),(1,1,0x11),(8,8,0x0),(0x10,8,0x40),(0x18,8,8)])
def pr (s : State) : State × PortCmd × Label := match s.portRead 0x50100 with | .ok t c l => (t,c,l) | _ => (s, readPort (record 64 []), 0)
def cl (role : Nat) := let s := ((lab role (regs [(1, 0x50100, 1)])).writeMem 0x50100 (record 64 [(1,1,6),(4,2,1),(8,4,5),(0x10,8,0x50200),(0x18,8,0x50300),(0x20,8,0x50400),(0x28,4,2),(0x38,4,2),(0x3C,4,0x20)])); { (s.setTm { labTeam with spMark := [(2, true)] }) with ctxs := [(0, { root := 0x10000, epl := [(0, .devices 0 0, 1#16)], devices := [0] })] }
def cr (s : State) : State × CollCmd × Label := match s.collRead 0x50100 with | .ok t c l => (t,c,l) | _ => (s, readColl (record 64 []), 0)
def ra (n v : Nat) (l : Nat) := (lab 0 (regs [(1, n, 1), (2, v, l)])).setTm { labTeam with banks := 0x8, spMark := [(2,true)], bankLbl := [(3, 3)] }
def tr (a : Nat) := { (lab 0 (regs [(a, 5, 1), (a+1, 6, 2), (a+2, 7, 4), (a+3, 8, 8)])) with ctxs := [(0, { root := 0x10000, epl := [(0, .runtime, 0xF#16)] })] }
def tr2 := { tr 1 with ctxs := [(0, { root := 0x10000, epl := [(0, .runtime, 0x7#16)] })] }
def trp := let s := after (exec (.trap 9#6 1#6 33#6) (tr 1)); s
def tro (s : State) : Op := (s.grp.ops.find? (fun p => p.data == .syscall && !p.doneq)).getD {id := 9, fc := none}
def far (s : State) : State := { s.writeMem 0x30038 (bytesOf (tableEntry 1 7 3) 8) with routes := [(1, [0])] }
def trq := trp.writeMem 0x70400 [2]
def dc := let s := tr 1; let t := s.setGrp (regs [(2, 2, 0), (1, 5, 2)] s.grp); after (exec (.dcls 9#6 1#6 2#6) t)
def dc2 := { dc with cores := [(0, { endorse := [(0, [{ owner := 1, codeh := 0, rlbl := 0x0007, budget := 3, serial := 0 }])] })] }
def dco (s : State) : Op := (s.grp.ops.find? Op.asks).getD {id := 9, fc := none}
def fa := lab 0 id
def fr : FaultRec := { flt := {code := 1}, cslice := false, fpos := 0, fcycle := 0 }
def fb := after (exec (.brk 33#6) fa)
def fc2 := fa.raiseC { code := 9 }
def eb (b : Nat) : Endorse := { owner := 1, codeh := 5#512, rlbl := 0x00FF#16, budget := b, serial := 0 }

theorem meets_Declassify :
    (∃ (s : State) (d a b : SRegNo),
     s.regsFree [d, a, b]) ∧
    (∃ (s : State) (d a : SRegNo) (k : Nat) (o : Op) (x lx : Label),
     let n := (s.team (teamOf k)).core
     (s.group k).op o.id = some o ∧ o.data = .dcls d a x lx ∧ (s.weighWaiters n).head? = some (k, o.id)) ∧
    (∃ es : List Endorse, ∀ i, i < 16 → (0xA#16 &&& 2#16).getLsbD i = true → ∃ e ∈ es,
       e.owner = i ∧ e.codeh = 5#512 ∧ 0 < e.budget ∧ LabelIn (((0xA#16 &&& ~~~ 2#16) ||| (1#16 ||| 2#16))) e.rlbl) ∧
    (∃ es : List Endorse, ¬ ∀ i, i < 16 → (0xA#16 &&& 2#16).getLsbD i = true → ∃ e ∈ es,
       e.owner = i ∧ e.codeh = 5#512 ∧ 0 < e.budget ∧ LabelIn (((0xA#16 &&& ~~~ 2#16) ||| (1#16 ||| 2#16))) e.rlbl) :=
  ⟨⟨(tr 1), 9#6, 1#6, 2#6, by decide +kernel⟩,
   ⟨dc, 9#6, 1#6, 0, (dco dc), 2, 0, by decide +kernel⟩,
   ⟨[eb 1], by decide +kernel⟩,
   ⟨[eb 0], by decide +kernel⟩⟩

theorem meets_LaunchAndEarly_1 :
    (∃ (s s1 : State) (a : SRegNo) (bs : List Byte) (l : Label), s.regsFree [a] ∧
      let g := s.grp
      let x := (g.sreg a).val
      let l0 := (g.sreg a).lbl ||| g.pA
      x.toNat < 2 ^ 55 ∧ x.toNat % 256 = 0 ∧ l0 = 0#16 ∧ g.released false = true ∧
      s.readRec s.cur x.toNat 256 = .ok s1 bs l ∧ l = 0#16 ∧ launchOk bs = true) ∧
    (∃ (s s1 : State) (a : SRegNo) (bs : List Byte) (l : Label), s.regsFree [a] ∧
      let g := s.grp
      let x := (g.sreg a).val
      let l0 := (g.sreg a).lbl ||| g.pA
      x.toNat < 2 ^ 55 ∧ x.toNat % 256 = 0 ∧ l0 = 0#16 ∧ g.released false = true ∧
      s.readRec s.cur x.toNat 256 = .ok s1 bs l ∧ l ≠ 0#16) ∧
    (∃ (s s1 : State) (a : SRegNo) (bs : List Byte) (l : Label), s.regsFree [a] ∧
      let g := s.grp
      let x := (g.sreg a).val
      let l0 := (g.sreg a).lbl ||| g.pA
      x.toNat < 2 ^ 55 ∧ x.toNat % 256 = 0 ∧ l0 = 0#16 ∧ g.released false = true ∧
      s.readRec s.cur x.toNat 256 = .ok s1 bs l ∧ l = 0#16 ∧ launchOk bs = false) ∧
    (∃ (s : State) (a : SRegNo),
     s.regsFree [a] ∧
     let g := s.grp
     let x := (g.sreg a).val
     let l0 := (g.sreg a).lbl ||| g.pA
     x.toNat < 2 ^ 55 ∧ x.toNat % 256 = 0 ∧ l0 ≠ 0#16) ∧
    (∃ (s : State) (a : SRegNo),
     s.regsFree [a] ∧
     let g := s.grp
     g.pA = 0#16 ∧ g.released false = true) ∧
    (∃ (s : State) (a : SRegNo),
     s.regsFree [a] ∧
     let g := s.grp
     g.pA ≠ 0#16) :=
  ⟨⟨la lr 0 0, (lx (la lr 0 0)).1, 1#6, (lx (la lr 0 0)).2.1, (lx (la lr 0 0)).2.2, by decide +kernel, by decide +kernel, by decide +kernel, by decide +kernel, by decide +kernel, recAt_meets (s := la lr 0 0) (va := 0x50100) (n := 256) (P := (· = 0#16)) (q := launchOk) (by decide +kernel) (by decide +kernel)⟩,
   ⟨la lr 0 1, (lx (la lr 0 1)).1, 1#6, (lx (la lr 0 1)).2.1, (lx (la lr 0 1)).2.2, by decide +kernel, by decide +kernel, by decide +kernel, by decide +kernel, by decide +kernel, (fun h => ⟨h.1, h.2.1⟩) (recAt_meets (s := la lr 0 1) (va := 0x50100) (n := 256) (P := (· ≠ 0#16)) (q := fun _ => true) (b := true) (by decide +kernel) (by decide +kernel))⟩,
   ⟨la [2] 0 0, (lx (la [2] 0 0)).1, 1#6, (lx (la [2] 0 0)).2.1, (lx (la [2] 0 0)).2.2, by decide +kernel, by decide +kernel, by decide +kernel, by decide +kernel, by decide +kernel, recAt_meets (s := la [2] 0 0) (va := 0x50100) (n := 256) (P := (· = 0#16)) (q := launchOk) (by decide +kernel) (by decide +kernel)⟩,
   ⟨(la lr 1 0), 1#6, by decide +kernel⟩,
   ⟨(la lr 0 0), 1#6, by decide +kernel⟩,
   ⟨(early 1), 1#6, by decide +kernel⟩⟩

theorem meets_LaunchAndEarly_2 :
    (∃ (s s1 : State) (a : SRegNo) (c : PortCmd) (l : Label),
     s.regsFree [a] ∧
     let g := s.grp
     let x := (g.sreg a).val.toNat
     let w := ((g.sreg a).lbl ||| l) ||| g.pA
     g.role = 0 ∧ s.portRead x = .ok s1 c l ∧ s1.portCheck c w = none ∧ s1.pathFull s.cur .po = false) ∧
    (∃ (s s1 : State) (a : SRegNo) (e : CollCmd) (l : Label),
     s.regsFree [a] ∧
     let g := s.grp
     let x := (g.sreg a).val.toNat
     let w := ((g.sreg a).lbl ||| l) ||| g.pA
     g.role = 0 ∧ s.collRead x = .ok s1 e l ∧ s1.collMsg s1.cur e w = none ∧ s1.pathFull s.cur .cl = false) ∧
    (∃ (s : State) (a : SRegNo),
     s.regsFree [a] ∧
     let g := s.grp
     g.role ≠ 0) :=
  ⟨⟨(po 0), (pr (po 0)).1, 1#6, (pr (po 0)).2.1, (pr (po 0)).2.2, by decide +kernel⟩,
   ⟨(cl 0), (cr (cl 0)).1, 1#6, (cr (cl 0)).2.1, (cr (cl 0)).2.2, by decide +kernel⟩,
   ⟨(cl 1), 1#6, by decide +kernel⟩⟩

theorem meets_SystemCall :
    (∃ (s : State) (d a : SRegNo),
     s.regsFree [a, a + 1#6, a + 2#6, a + 3#6] ∧
     let g := s.grp
     let r (i : Nat) : SVal := g.sreg (a + BitVec.ofNat 6 i)
     let l := ((r 0).lbl ||| (r 1).lbl ||| (r 2).lbl ||| (r 3).lbl) ||| g.pA
     (a.toNat ≤ 60 ∧ (s.recOf s.cur).syssig ≠ 0 ∧ LabelIn l (s.ctx (s.ctxOf s.cur)).eplRuntime ∧ (∀ p ∈ g.ops, p.data =
         .syscall → p.cslice = true) ∧ g.sHeld d = false) ∧
     s.slotRead s.cur = true ∧ s.sstate s.cur = 0 ∧ g.released false = true) ∧
    (∃ (s : State) (d a : SRegNo),
     s.regsFree [a, a + 1#6, a + 2#6, a + 3#6] ∧
     let g := s.grp
     let r (i : Nat) : SVal := g.sreg (a + BitVec.ofNat 6 i)
     let l := ((r 0).lbl ||| (r 1).lbl ||| (r 2).lbl ||| (r 3).lbl) ||| g.pA
     (a.toNat ≤ 60 ∧ (s.recOf s.cur).syssig ≠ 0 ∧ LabelIn l (s.ctx (s.ctxOf s.cur)).eplRuntime ∧ (∀ p ∈ g.ops, p.data =
         .syscall → p.cslice = true) ∧ g.sHeld d = false) ∧
     (s.slotRead s.cur = false ∨ s.sstate s.cur ≠ 0)) ∧
    (∃ (s : State) (a : SRegNo),
     s.regsFree [a, a + 1#6, a + 2#6, a + 3#6] ∧ 60 < a.toNat) ∧
    (∃ (s : State) (a : SRegNo),
     s.regsFree [a, a + 1#6, a + 2#6, a + 3#6] ∧
     let g := s.grp
     let r (i : Nat) : SVal := g.sreg (a + BitVec.ofNat 6 i)
     let l := ((r 0).lbl ||| (r 1).lbl ||| (r 2).lbl ||| (r 3).lbl) ||| g.pA
     a.toNat ≤ 60 ∧ (s.recOf s.cur).syssig ≠ 0 ∧ ¬ LabelIn l (s.ctx (s.ctxOf s.cur)).eplRuntime) ∧
    (∃ (s : State) (a : SRegNo) (k : Nat) (o : Op),
     s.regsFree [a, a + 1#6, a + 2#6, a + 3#6] ∧
     let polls := (s.group k).ops.find? (fun p => p.data == .syscall && !p.doneq) = some o ∧ o.cslice = false ∧ (s.team
         (teamOf k)).state = .resident
     polls ∧ s.spansAway (s.ctxOf k) (s.slotSpan k) = [] ∧ s.spansAway (s.ctxOf k) [(s.slotAddr k + 0x300, 8)] = [] ∧
     s.sstate k = 2 ∧ s.standsA k = true ∧ (s.group k).stepStopped = false ∧ (s.group k).stepDrain = false ∧
     (s.group k).aheld = none) ∧
    (∃ (s : State) (a : SRegNo) (k : Nat) (o : Op),
     s.regsFree [a, a + 1#6, a + 2#6, a + 3#6] ∧
     let polls := (s.group k).ops.find? (fun p => p.data == .syscall && !p.doneq) = some o ∧ o.cslice = false ∧ (s.team
         (teamOf k)).state = .resident
     polls ∧ s.missing (s.ctxOf k) (s.slotSpan k) ≠ []) :=
  ⟨⟨(tr 1), 9#6, 1#6, by decide +kernel⟩,
   ⟨(far (tr 1)), 9#6, 1#6, by decide +kernel⟩,
   ⟨(tr 61), 61#6, by decide +kernel⟩,
   ⟨tr2, 1#6, by decide +kernel⟩,
   ⟨trq, 1#6, 0, (tro trq), by decide +kernel⟩,
   ⟨(far trp), 1#6, 0, (tro trp), by decide +kernel⟩⟩

theorem meets_LabelRaises :
    (∃ (s : State) (a b : SRegNo),
     s.regsFree [a, b] ∧
     let g := s.grp
     let n := (g.sreg a).val.toNat
     let own := (BitVec.ofNat 16 (g.sreg b).val.toNat ||| (g.sreg b).lbl) ||| g.pA
     n % 256 = 0 ∧ n + 256 ≤ (s.recOf s.cur).spsize ∧
     let c : Acc := { va := n, pa := n, space := .scratch }
     LabelIn own (s.clr s.cur) ∧ s.sendCheck s.cur own { c with kind := .raise, val := own.toNat, size := 1 } = none ∧
     s.pathFull s.cur .st = false) ∧
    (∃ (s : State) (a b : SRegNo),
     s.regsFree [a, b] ∧
     let g := s.grp
     let n := (g.sreg a).val.toNat
     let own := (BitVec.ofNat 16 (g.sreg b).val.toNat ||| (g.sreg b).lbl) ||| g.pA
     n % 256 = 0 ∧ n + 256 ≤ (s.recOf s.cur).spsize ∧ ¬ LabelIn own (s.clr s.cur)) ∧
    (∃ (s : State) (a b : SRegNo),
     s.regsFree [a, b] ∧
     let g := s.grp
     let n := (g.sreg a).val.toNat
     let own := (BitVec.ofNat 16 (g.sreg b).val.toNat ||| (g.sreg b).lbl) ||| g.pA
     n < 64 ∧ s.tm.banks.getLsbD n = true ∧ (∀ h ∈ s.tm.whand, n < h.2.bank ∨ h.2.bank + h.2.nb ≤ n) ∧
     let c : Acc := { va := n, pa := n * 131072, space := .acc }
     LabelIn own (s.clr s.cur) ∧ s.sendCheck s.cur own { c with kind := .raise, val := own.toNat, size := 1 } = none ∧
     s.pathFull s.cur .st = false) ∧
    (∃ (s : State) (a b : SRegNo),
     s.regsFree [a, b] ∧
     let g := s.grp
     let n := (g.sreg a).val.toNat
     let own := (BitVec.ofNat 16 (g.sreg b).val.toNat ||| (g.sreg b).lbl) ||| g.pA
     n < 64 ∧ s.tm.banks.getLsbD n = true ∧ (∀ h ∈ s.tm.whand, n < h.2.bank ∨ h.2.bank + h.2.nb ≤ n) ∧
     ¬ LabelIn own (s.clr s.cur)) ∧
    (∃ (s : State) (a b : SRegNo),
     s.regsFree [a, b] ∧
     let g := s.grp
     let n := (g.sreg a).val.toNat
     let own := (BitVec.ofNat 16 (g.sreg b).val.toNat ||| (g.sreg b).lbl) ||| g.pA
     n % 16 = 0 ∧ n + 16 ≤ (s.recOf s.cur).spsize ∧ s.tm.marked? n = true ∧
     let c : Acc := { va := n, pa := n, space := .scratch, cmp := 1 }
     LabelIn own (s.clr s.cur) ∧ s.sendCheck s.cur own { c with kind := .raise, val := own.toNat, size := 1 } = none ∧
     s.pathFull s.cur .st = false) ∧
    (∃ (s : State) (a b : SRegNo),
     s.regsFree [a, b] ∧
     let g := s.grp
     let n := (g.sreg a).val.toNat
     let own := (BitVec.ofNat 16 (g.sreg b).val.toNat ||| (g.sreg b).lbl) ||| g.pA
     n % 16 = 0 ∧ n + 16 ≤ (s.recOf s.cur).spsize ∧ s.tm.marked? n = true ∧ ¬ LabelIn own (s.clr s.cur)) ∧
    (∃ (s : State) (a b : SRegNo),
     s.regsFree [a, b] ∧
     let g := s.grp
     let n := (g.sreg a).val.toNat
     let own := (BitVec.ofNat 16 (g.sreg b).val.toNat ||| (g.sreg b).lbl) ||| g.pA
     let acc := s.formAcc s.cur { va := n, size := 256, kind := .raise }
     n < 2 ^ 55 ∧ n % 256 = 0 ∧ acc.lease = false ∧
     (∀ y, s.translateBy (some (s.coreCache s.cur)) (s.ctxOf s.cur) n false = some y → devOf y.pa = s.devn → isHost
         (localOf y.pa) = false) ∧
     (s.translateBy (some (s.coreCache s.cur)) (s.ctxOf s.cur) n false).isSome ∧
     s.inConstBank (s.ctxOf s.cur) acc.pa = false ∧
     let c : Acc := acc
     LabelIn own (s.clr s.cur) ∧ s.sendCheck s.cur own { c with kind := .raise, val := own.toNat, size := 1 } = none ∧
     s.pathFull s.cur .st = false) ∧
    (∃ (s : State) (a b : SRegNo),
     s.regsFree [a, b] ∧
     let g := s.grp
     let n := (g.sreg a).val.toNat
     let own := (BitVec.ofNat 16 (g.sreg b).val.toNat ||| (g.sreg b).lbl) ||| g.pA
     let acc := s.formAcc s.cur { va := n, size := 256, kind := .raise }
     n < 2 ^ 55 ∧ n % 256 = 0 ∧ acc.lease = false ∧
     (∀ y, s.translateBy (some (s.coreCache s.cur)) (s.ctxOf s.cur) n false = some y → devOf y.pa = s.devn → isHost
         (localOf y.pa) = false) ∧
     (s.translateBy (some (s.coreCache s.cur)) (s.ctxOf s.cur) n false).isSome ∧
     s.inConstBank (s.ctxOf s.cur) acc.pa = false ∧ ¬ LabelIn own (s.clr s.cur)) :=
  ⟨⟨(ra 0 3 2), 1#6, 2#6, by decide +kernel⟩,
   ⟨(ra 0 0x103 2), 1#6, 2#6, by decide +kernel⟩,
   ⟨(ra 3 3 2), 1#6, 2#6, by decide +kernel⟩,
   ⟨(ra 3 0x103 2), 1#6, 2#6, by decide +kernel⟩,
   ⟨(ra 32 3 2), 1#6, 2#6, by decide +kernel⟩,
   ⟨(ra 32 0x103 2), 1#6, 2#6, by decide +kernel⟩,
   ⟨(ra 0x50200 3 2), 1#6, 2#6, by decide +kernel⟩,
   ⟨(ra 0x50200 0x103 2), 1#6, 2#6, by decide +kernel⟩⟩

theorem meets_TakingAFault :
    (∃ (s : State) (f : Flt) (j : Nat),
     f.code ∉ [0x04, 0x10, 0x15] ∧
     let k := s.cur
     s.grp.fault = none ∧ j ≠ k) ∧
    (∃ (s : State) (f : Flt) (j : Nat),
     f.code ∉ [0x04, 0x10, 0x15] ∧
     let k := s.cur
     s.grp.fault = none ∧ j ≠ teamOf k) ∧
    (∃ (s : State) (f : Flt),
     f.code ∉ [0x04, 0x10, 0x15] ∧ s.grp.fault ≠ none) ∧
    (∃ (f : Flt) (g : Group) (r : FaultRec),
     f.code ∉ [0x04, 0x10, 0x15] ∧ g.fault = some r) :=
  ⟨⟨fa, { code := 1 }, 7, by decide +kernel⟩,
   ⟨fa, { code := 1 }, 7, by decide +kernel⟩,
   ⟨fb, { code := 1 }, by decide +kernel⟩,
   ⟨{ code := 1 }, fb.grp, (fb.grp.fault.getD fr), by decide +kernel⟩⟩

end A6

/-! ## The premises of the claims about vector instructions -/

namespace Vector

/-- A word of a register: any value that differs from lane to lane. -/
def spread (seed l : Nat) : Nat := (l + 3) * (seed + 7) * 0x9E3779B9 % 2 ^ 32

/-- The device with three vector registers and a predicate filled. -/
def v0 : State := lab 0 (fun g => { vreg 4 (spread 3) 4 (vreg 2 (spread 2) 0x2 (vreg 1 (spread 1) 0x1 g)) with
  preds := [(1, ⟨0xF0F0#32, 0x10#16⟩), (2, ⟨0x0FF0#32, 0#16⟩)] })

/-- Fields of three sources, of two and of one. -/
def plainF (t : Ty) : CFields := { flds with dt := t }
def plainB (t : Ty) : CFields := { flds with dt := t, sc := 0 }
def plainU (t : Ty) : CFields := { flds with dt := t, sc := 0, sb := 0 }

/-- Every form of a list may issue at `v0`, with tiles and lanes as the claims about cross-lane results ask. -/
theorem forms_meet {l : List (Instr × CSpec)} (h : l.all (fun e => issuesWith e.1 e.2 v0 (fun _ s1 =>
      decide (s1.grp.tilew ∈ [2, 4, 8, 16, 32] ∧ s1.grp.lanes ≤ 32))) = true) :
    ∀ e ∈ l, ∃ s1 r x, Issues e.1 r e.2 v0 x s1 ∧ s1.grp.tilew ∈ [2, 4, 8, 16, 32] ∧ s1.grp.lanes ≤ 32 :=
  fun e he => issues_meet (P := fun _ s1 => s1.grp.tilew ∈ [2, 4, 8, 16, 32] ∧ s1.grp.lanes ≤ 32) (List.all_eq_true.1 h e he)

theorem meets_VectorIntegerElements :
    ∀ e ∈ [
      (Instr.vadd (plainB .s8), { imm := some .s8, free := true }),
       (.vsub (plainB .s8), { imm := some .s8, free := true }), (.vmul (plainB .s8), { imm := some .s8, free := true }),
       (.vmulhi (plainB .s8), { imm := some .s8, free := true }),
       (.vadds (plainB .s8), { imm := some .s8, free := true }),
       (.vsubs (plainB .s8), { imm := some .s8, free := true }),
       (.vshl (plainB .s8), { imm := some .s8, free := true }), (.vshr (plainB .s8), { imm := some .s8, free := true }),
       (.vsar (plainB .s8), { imm := some .s8, free := true }), (.vmin (plainB .s8), { imm := some .s8, free := true }),
       (.vmax (plainB .s8), { imm := some .s8, free := true }),
       (.vmad (plainF .z16), { imm := some .z16, free := true }), (.vabs (plainU .s32), { free := true }),
       (.vneg (plainU .s32), { free := true })],
    ∃ s1 r x, Issues e.1 r e.2 v0 x s1 ∧ s1.grp.tilew ∈ [2, 4, 8, 16, 32] ∧ s1.grp.lanes ≤ 32 :=
  forms_meet (by decide +kernel)

theorem meets_VectorWordResults :
    ∀ e ∈ [
      (Instr.vand (plainB .s32), { free := true }), (.vor (plainB .s32), { free := true }),
       (.vxor (plainB .s32), { free := true }), (.vbfe (plainB .s32), { free := true }),
       (.vnot (plainU .s32), { free := true }), (.vpopc (plainU .s32), { free := true }),
       (.vclz (plainU .s32), { free := true }), (.vmov { plainU .s32 with sa := 0#10, sb := 2#10 }, { free := true }),
       (.vbfi (plainF .s32), { free := true }), (.vpack { plainB .s8 with sat := true }, { free := true }),
       (.vpack (plainB .z16), { free := true }), (.vunpk { plainU .s16 with x := 1#2 }, { free := true }),
       (.vunpk { plainU .z32 with x := 3#2 }, { free := true })],
    ∃ s1 r x, Issues e.1 r e.2 v0 x s1 ∧ s1.grp.tilew ∈ [2, 4, 8, 16, 32] ∧ s1.grp.lanes ≤ 32 :=
  forms_meet (by decide +kernel)

theorem meets_ComparisonsAndVotes :
    ∀ e ∈ [
      (Instr.vcmp { plainB .s8 with dst := 42#10 }, { imm := some .s8, free := true }),
       (.vfcmp { plainB .f32 with dst := 50#10 }, { imm := some .f32, free := true }),
       (.vsel { plainB .s32 with sc := 2#10 }, { free := true }),
       (.vvote { plainU .s32 with x := 0#2 }, { free := true }),
       (.vvote { plainU .s32 with x := 1#2 }, { free := true }),
       (.vvote { plainU .s32 with x := 2#2 }, { free := true }),
       (.vvote { plainU .s32 with x := 3#2 }, { free := true })],
    ∃ s1 r x, Issues e.1 r e.2 v0 x s1 ∧ s1.grp.tilew ∈ [2, 4, 8, 16, 32] ∧ s1.grp.lanes ≤ 32 :=
  forms_meet (by decide +kernel)

theorem meets_VectorFloatElements :
    ∀ e ∈ [
      (Instr.vfadd (plainB .f32), { imm := some .f32, free := true }),
       (.vfsub (plainB .f32), { imm := some .f32, free := true }),
       (.vfmul (plainB .f32), { imm := some .f32, free := true }),
       (.vfmin (plainB .f32), { imm := some .f32, free := true }),
       (.vfmax (plainB .f32), { imm := some .f32, free := true }),
       (.vfma (plainF .f16), { imm := some .f16, free := true }), (.vfabs (plainU .bf16), { free := true }),
       (.vfneg (plainU .bf16), { free := true }), (.vfclass (plainU .bf16), { free := true }),
       (.vscalb (plainB .f32), { imm := some .s32, free := true })],
    ∃ s1 r x, Issues e.1 r e.2 v0 x s1 ∧ s1.grp.tilew ∈ [2, 4, 8, 16, 32] ∧ s1.grp.lanes ≤ 32 :=
  forms_meet (by decide +kernel)

theorem meets_ConversionsAndFunctions_1 :
    ∀ e ∈ [
      (Instr.vcvt { plainU .f32 with ext := 0#20 }, { free := true }),
       (.vcvt { plainU .e2m1n with ext := 8#20 }, { free := true }),
       (.vqnt (plainB .s8), { imm := some .f32, free := true }),
       (.vdqnt (plainB .s8), { imm := some .f32, free := true }), (.vexp2 (plainU .f32), { free := true }),
       (.vlog2 (plainU .f32), { free := true }), (.vrcp (plainU .f32), { free := true }),
       (.vrsq (plainU .f32), { free := true }), (.vsqrt (plainU .f32), { free := true }),
       (.vtanh (plainU .f32), { free := true }), (.vsin (plainU .f32), { free := true }),
       (.vcos (plainU .f32), { free := true })],
    ∃ s1 r x, Issues e.1 r e.2 v0 x s1 ∧ s1.grp.tilew ∈ [2, 4, 8, 16, 32] ∧ s1.grp.lanes ≤ 32 :=
  forms_meet (by decide +kernel)

theorem meets_CrossLaneResults_1 :
    ∀ e ∈ [
      (Instr.vshuf (plainB .s32), { free := true, qa := 255 }),
       (.vshfl { plainB .s32 with x := 0#2 }, { free := true, qa := 255 }),
       (.vshfl { plainB .s32 with x := 1#2 }, { free := true, qa := 255 }),
       (.vshfl { plainB .s32 with x := 2#2 }, { free := true, qa := 255 }),
       (.vbcast (plainB .s32), { free := true, qa := 255 }),
       (.vred { plainU .s32 with ext := 5#20 }, { free := true, qa := 255 }),
       (.vred { plainU .f32 with ext := 0#20 }, { free := true, qa := 255 }),
       (.vscan { plainU .z32 with x := 0#2 }, { free := true, qa := 255 }),
       (.vscan { plainU .z32 with x := 1#2 }, { free := true, qa := 255 }),
       (.vscan { plainU .f32 with x := 0#2 }, { free := true, qa := 255 }),
       (.vscan { plainU .f32 with x := 1#2 }, { free := true, qa := 255 })],
    ∃ s1 r x, Issues e.1 r e.2 v0 x s1 ∧ s1.grp.tilew ∈ [2, 4, 8, 16, 32] ∧ s1.grp.lanes ≤ 32 :=
  forms_meet (by decide +kernel)

theorem meets_CrossLaneResults_2 : ∃ (n : Nat) (xs ys : List Word), xs.length = 2 ^ n ∧ ys.length = 2 ^ n ∧ n ≤ 5 :=
  ⟨5, List.replicate 32 7#32, List.replicate 32 9#32, by decide⟩

theorem meets_ConversionsAndFunctions_2 : ∃ x : Word, decodeTy .f32 x.toNat = .nan := ⟨0x7FC00001#32, by decide +kernel⟩

end Vector

/-! ## The premises of the claims about fixed-latency results -/

namespace C2

def v0 := lab 0 (fun g => { vreg 6 (fun _ => 16) 0 (vreg 5 (fun _ => 3) 0 (vreg 2 (fun l => l) 0x2 (vreg 1 (fun l => 5 * l + 1) 0x1 g))) with preds := [(2, ⟨0xF0#32, 0x10#16⟩)] })
def tu : CFields := { flds with dst := 0, sa := 0, sc := 0, dt := .z32 }
def ec (n : Nat) (l : Label) := let s := v0; { (s.setGrp { s.grp with vregs := (s.grp.vregs.map (fun e => (e.1, { e.2 with lbl := 1#16 }))) }) with ctxs := [(n, { root := 0x10000, epl := [(0, .runtime, l)] })] }
def ys : CFields := { flds with dst := 6, sa := 1, sb := 0, sc := 0, x := 1#2 }
def far (s : State) : State := { s.writeMem 0x30038 (bytesOf (tableEntry 1 7 3) 8) with routes := [(1, [0])] }

theorem meets_TileWidthRandomAndLabels :
    (∃ (s : State) (f : CFields) (s1 : State) (r : CRow) (x : CIn),
     Issues (.settw f) r { free := true, qb := 1 } s x s1 ∧
     let w := (x.b.at 0).toNat
     s.grp.paths.length ≤ 1 ∧ w ∈ [2, 4, 8, 16, 32] ∧ x.joined = 0#16) ∧
    (∃ (s : State) (f : CFields) (s1 : State) (r : CRow) (x : CIn),
     Issues (.settw f) r { free := true, qb := 1 } s x s1 ∧
     let w := (x.b.at 0).toNat
     (1 < s.grp.paths.length ∨ w ∉ [2, 4, 8, 16, 32])) ∧
    (∃ (s : State) (f : CFields) (s1 : State) (r : CRow) (x : CIn),
     Issues (.settw f) r { free := true, qb := 1 } s x s1 ∧
     let w := (x.b.at 0).toNat
     s.grp.paths.length ≤ 1 ∧ w ∈ [2, 4, 8, 16, 32] ∧ x.joined ≠ 0#16) ∧
    (∃ (s : State) (f : CFields) (s1 : State) (r : CRow) (x : CIn),
     Issues (.vrand f) r { static := fun v => decide ((f.dst.toNat) + 3 < v), free := true, qa := 1, qc := 1, writes :=
                           [.reg ((f.dst.toNat) + 1), .reg ((f.dst.toNat) + 2), .reg ((f.dst.toNat) + 3)] } s x s1) ∧
    (∃ (s : State) (f : CFields) (s1 : State) (r : CRow) (x : CIn),
     Issues (.vlblrd f) r { free := true } s x s1) ∧
    (∃ (s : State) (f : CFields) (s1 : State) (r : CRow) (x : CIn),
     Issues (.vlblup f) r { imm := some .z32, free := true, qb := 1 } s x s1 ∧ x.a.lanes.length = 32) :=
  ⟨⟨v0, { tu with sb := 6 }, issues_meet (by decide +kernel)⟩,
   ⟨v0, { tu with sb := 5 }, issues_meet (by decide +kernel)⟩,
   ⟨(ec 0 1#16), { tu with sb := 6 }, issues_meet (by decide +kernel)⟩,
   ⟨v0, { flds with dst := 8, sb := 0, imm := .lit 7#32, dt := .z32 }, issues_exist (by decide +kernel)⟩,
   ⟨v0, { flds with sb := 0, sc := 0, dt := .z32 }, issues_exist (by decide +kernel)⟩,
   ⟨v0, { flds with sc := 0, dt := .z32 }, issues_meet (by decide +kernel)⟩⟩

theorem meets_VectorSystemInstructions :
    (∃ (s : State) (f : CFields) (s1 : State) (r : CRow) (x : CIn),
     Issues (.vdcls f) r { imm := some .z32, writes := (if (f.sc.toNat % 8) = 0 then [] else [.pred (f.sc.toNat % 8)]), qb
                           := 1 } s x s1) ∧
    (∃ (s : State) (f : CFields) (s1 : State) (r : CRow) (x : CIn),
     Issues (.vsys f) r ({ static := fun v => decide (f.sa.toNat + (f.x.toNat + 1) ≤ v), reads := (List.range (f.x.toNat +
                           1)).map (fun i => .reg (f.sa.toNat + i)), fc := some .cl }) s x s1 ∧
     (s.recOf s.cur).syssig ≠ 0 ∧ x.written = 0#32) ∧
    (∃ (s : State) (f : CFields) (s1 : State) (r : CRow) (x : CIn),
     Issues (.vsys f) r ({ static := fun v => decide (f.sa.toNat + (f.x.toNat + 1) ≤ v), reads := (List.range (f.x.toNat +
                           1)).map (fun i => .reg (f.sa.toNat + i)), fc := some .cl }) s x s1 ∧
     let n := f.x.toNat + 1
     let regs := (List.range n).map (fun i => s1.grp.readCode 0 0 0 0 (f.sa.toNat + i))
     let l := Label.joinAll (regs.map (·.lbl)) ||| x.k
     let epl := (s.ctx (s.ctxOf s.cur)).eplRuntime
     (s.recOf s.cur).syssig ≠ 0 ∧ x.written ≠ 0#32 ∧ LabelIn l epl ∧
     (∀ y ∈ s1.grp.ops, y.data = .syscall → y.doneq = true) ∧ s.slotRead s.cur = true ∧ s.sstate s.cur = 0 ∧
     s1.grp.quadsReleased x.qmask = true) ∧
    (∃ (s : State) (f : CFields) (s1 : State) (r : CRow) (x : CIn),
     Issues (.vsys f) r ({ static := fun v => decide (f.sa.toNat + (f.x.toNat + 1) ≤ v), reads := (List.range (f.x.toNat +
                           1)).map (fun i => .reg (f.sa.toNat + i)), fc := some .cl }) s x s1 ∧
     let n := f.x.toNat + 1
     let regs := (List.range n).map (fun i => s1.grp.readCode 0 0 0 0 (f.sa.toNat + i))
     let l := Label.joinAll (regs.map (·.lbl)) ||| x.k
     let epl := (s.ctx (s.ctxOf s.cur)).eplRuntime
     (s.recOf s.cur).syssig ≠ 0 ∧ x.written ≠ 0#32 ∧ LabelIn l epl ∧
     (∀ y ∈ s1.grp.ops, y.data = .syscall → y.doneq = true) ∧ (s.slotRead s.cur = false ∨ s.sstate s.cur ≠ 0)) ∧
    (∃ (s : State) (f : CFields) (s1 : State) (r : CRow) (x : CIn),
     Issues (.vsys f) r ({ static := fun v => decide (f.sa.toNat + (f.x.toNat + 1) ≤ v), reads := (List.range (f.x.toNat +
                           1)).map (fun i => .reg (f.sa.toNat + i)), fc := some .cl }) s x s1 ∧
     let n := f.x.toNat + 1
     let regs := (List.range n).map (fun i => s1.grp.readCode 0 0 0 0 (f.sa.toNat + i))
     let l := Label.joinAll (regs.map (·.lbl)) ||| x.k
     let epl := (s.ctx (s.ctxOf s.cur)).eplRuntime
     (s.recOf s.cur).syssig ≠ 0 ∧ x.written ≠ 0#32 ∧ ¬ LabelIn l epl) ∧
    (∃ (s : State) (f : CFields) (s1 : State) (r : CRow) (x : CIn),
     Issues (.vbrk f) r { free := true } s x s1 ∧ s.grp.active s.path = 0#32) ∧
    (∃ (s : State) (f : CFields) (s1 : State) (r : CRow) (x : CIn),
     Issues (.vbrk f) r { free := true } s x s1 ∧ s.grp.active s.path ≠ 0#32) :=
  ⟨⟨v0, { flds with sc := 2, dt := .z32 }, issues_exist (by decide +kernel)⟩,
   ⟨(ec 0 0#16), { ys with pr := 3 }, issues_meet (by decide +kernel)⟩,
   ⟨(ec 0 0xFF#16), ys, issues_meet (by decide +kernel)⟩,
   ⟨(far (ec 0 0xFF#16)), ys, issues_meet (by decide +kernel)⟩,
   ⟨(ec 0 0#16), ys, issues_meet (by decide +kernel)⟩,
   ⟨(v0.setPath { v0.path with lmask := 0 }), { tu with sb := 0 }, issues_meet (by decide +kernel)⟩,
   ⟨v0, { tu with sb := 0 }, issues_meet (by decide +kernel)⟩⟩

end C2

/-! ## The premises of the claims about lane accesses -/

namespace C3

def rnd (seed : Nat) (l : Nat) : Nat := ((seed * 2654435761 + l * 0x9E3779B97F4A7C15 + 12345) * (l + seed + 7) * 6364136223846793005 / 65536) % 2^32
def gl (base st off : Nat) := lab 0 (fun g => vreg 4 (rnd 3) 4 (vreg 5 (fun _ => off) 0x8 (vreg 2 (fun _ => 0) 0x2 (vreg 1 (fun l => base + st*l) 0x1 { g with preds := [(2, ⟨0xF0F0#32, 0x10#16⟩)], lanes := 30 }))))
def G (t : Ty) : CFields := { flds with dt := t, sb := 5 }
def G4 (t : Ty) : CFields := { flds with dt := t, sb := 5, sc := 4, dst := 0, tk := 3 }
def GD (t : Ty) : CFields := { flds with dt := t, sb := 5, sc := 4, dst := 6 }
def GA (t : Ty) (op : Nat) : CFields := { flds with dt := t, sb := 5, sc := 4, ext := BitVec.ofNat 20 op }
def ps (f : CFields) (c : FC) : CSpec := { imm := some .s32, static := fun v => decide (f.sa.toNat + 1 < v), reads := [.reg (f.sa.toNat + 1)], fc := some c }
def spb (base st off : Nat) := let s := gl base st off; s.setTm { labTeam with banks := 0x9, whand := [(0, {bank := 3, nb := 1, op := 0, ty := .s32, rm := .rne, w := 1, hc := 0})] }
def pz : CSpec := { imm := some .z32, fc := some .sp }
def pn : CSpec := { fc := some .sp }
def qs (p : Nat) (n : Nat) := let s := gl 5 9 3; s.setGrp { s.grp with ca := List.replicate n {val := 0, lbl := 0, quad := 0, upTo := 0} }
def sd (n : Nat) (c0 c1 : Nat) := let s := gl 5 9 3; let g := s.grp; s.setGrp { (g.mapQuads 1 (fun _ q => {q with stdCnt := c0})).mapQuads 0xFE (fun _ q => {q with stdCnt := c1}) with sdq := List.replicate n {quads := 1, lbl := 0x40, data := List.replicate 32 9, mask := 0xF}, sdqBase := 2 }
def ih (s : State) (i : Instr) (sp : CSpec) : State × CIn × Op := let z := issued i sp s; (z.2.2, z.2.1, { id := 0, fc := some .gx, dsts := [.reg 3], lbl := 3, accs := z.2.1.laneList.map (fun l => z.2.2.laneAcc l (0x50000 + 4*l) 4 .load 0 0) })
def ih1 := ih (gl 0x50000 4 8) (.vldx {G .s32 with tk := 2}) (ps (G .s32) .gx)
def ih0 := ih (let s := gl 0x50000 4 8; s.setGrp {s.grp with preds := [(2, ⟨0#32, 0x10#16⟩)]}) (.vldx {G .s32 with tk := 2, pr := 2}) (ps (G .s32) .gx)
def ih0e : State × CIn × Op := (ih0.1, ih0.2.1, { ih0.2.2 with dsts := [] })

theorem meets_GlobalLaneAccesses :
    (∃ (s : State) (f : CFields) (s1 : State) (r : CRow) (x : CIn),
     Issues (.vldx f) r { imm := some .s32, static := fun v => decide ((f.sa.toNat + 1) < v), reads := [.reg (f.sa.toNat +
                          1)], fc := some .gx } s x s1 ∧
     let hi := f.sa.toNat + 1
     let h := s1.grp.readCode 0 0 0 0 hi
     let n := f.dt.width / 8
     let lanes := (List.range 32).filter x.written.getLsbD
     let off (l : Nat) : Int := (x.b.at l).toInt
     let addr (o : Nat → Int) (l : Nat) : Nat := (((h.at l).toNat * 2 ^ 32 + (x.a.at l).toNat + o l) % 2 ^ 64).toNat
     let ok (n : Nat) (o : Nat → Int) : Prop := ∀ l ∈ lanes, addr o l < 2 ^ 55 ∧ addr o l % n = 0
     ok n off) ∧
    (∃ (s : State) (f : CFields) (s1 : State) (r : CRow) (x : CIn),
     Issues (.vamo f) r { imm := some .s32, static := fun v => decide ((f.sa.toNat + 1) < v), reads := [.reg (f.sa.toNat +
                          1)], fc := some .gx } s x s1 ∧
     let hi := f.sa.toNat + 1
     let h := s1.grp.readCode 0 0 0 0 hi
     let n := f.dt.width / 8
     let lanes := (List.range 32).filter x.written.getLsbD
     let addr (o : Nat → Int) (l : Nat) : Nat := (((h.at l).toNat * 2 ^ 32 + (x.a.at l).toNat + o l) % 2 ^ 64).toNat
     let ok (n : Nat) (o : Nat → Int) : Prop := ∀ l ∈ lanes, addr o l < 2 ^ 55 ∧ addr o l % n = 0
     let zero (_ : Nat) : Int := 0
     ok 4 zero) ∧
    (∃ (s : State) (f : CFields) (s1 : State) (r : CRow) (x : CIn),
     Issues (.vamoDet f) r { imm := some .s32, static := fun v => decide ((f.sa.toNat + 1) < v), reads := [.reg
                             (f.sa.toNat + 1)], fc := some .gx } s x s1 ∧
     let hi := f.sa.toNat + 1
     let h := s1.grp.readCode 0 0 0 0 hi
     let n := f.dt.width / 8
     let lanes := (List.range 32).filter x.written.getLsbD
     let addr (o : Nat → Int) (l : Nat) : Nat := (((h.at l).toNat * 2 ^ 32 + (x.a.at l).toNat + o l) % 2 ^ 64).toNat
     let ok (n : Nat) (o : Nat → Int) : Prop := ∀ l ∈ lanes, addr o l < 2 ^ 55 ∧ addr o l % n = 0
     let zero (_ : Nat) : Int := 0
     ok 4 zero) ∧
    (∃ (s : State) (f : CFields) (l : Nat) (s1 : State) (r : CRow) (x : CIn),
     Issues (.vldx f) r { imm := some .s32, static := fun v => decide ((f.sa.toNat + 1) < v), reads := [.reg (f.sa.toNat +
                          1)], fc := some .gx } s x s1 ∧
     let hi := f.sa.toNat + 1
     let h := s1.grp.readCode 0 0 0 0 hi
     let n := f.dt.width / 8
     let lanes := (List.range 32).filter x.written.getLsbD
     let off (l : Nat) : Int := (x.b.at l).toInt
     let addr (o : Nat → Int) (l : Nat) : Nat := (((h.at l).toNat * 2 ^ 32 + (x.a.at l).toNat + o l) % 2 ^ 64).toNat
     let n : Nat := n
     let o : Nat → Int := off
     (lanes.find? (fun l => !(decide (addr o l < 2 ^ 55) && addr o l % n == 0)) = some l)) ∧
    (∃ (s : State) (f : CFields) (l : Nat) (s1 : State) (r : CRow) (x : CIn),
     Issues (.vamo f) r { imm := some .s32, static := fun v => decide ((f.sa.toNat + 1) < v), reads := [.reg (f.sa.toNat +
                          1)], fc := some .gx } s x s1 ∧
     let hi := f.sa.toNat + 1
     let h := s1.grp.readCode 0 0 0 0 hi
     let n := f.dt.width / 8
     let lanes := (List.range 32).filter x.written.getLsbD
     let addr (o : Nat → Int) (l : Nat) : Nat := (((h.at l).toNat * 2 ^ 32 + (x.a.at l).toNat + o l) % 2 ^ 64).toNat
     let zero (_ : Nat) : Int := 0
     let n : Nat := 4
     let o : Nat → Int := zero
     (lanes.find? (fun l => !(decide (addr o l < 2 ^ 55) && addr o l % n == 0)) = some l)) ∧
    (∃ (s : State) (f : CFields) (s1 : State) (r : CRow) (x : CIn),
     Issues (.vstx f) r { imm := some .s32, static := fun v => decide ((f.sa.toNat + 1) < v), reads := [.reg (f.sa.toNat +
                          1)], fc := some .st } s x s1 ∧
     let hi := f.sa.toNat + 1
     let h := s1.grp.readCode 0 0 0 0 hi
     let n := f.dt.width / 8
     let lanes := (List.range 32).filter x.written.getLsbD
     let off (l : Nat) : Int := (x.b.at l).toInt
     let addr (o : Nat → Int) (l : Nat) : Nat := (((h.at l).toNat * 2 ^ 32 + (x.a.at l).toNat + o l) % 2 ^ 64).toNat
     let ok (n : Nat) (o : Nat → Int) : Prop := ∀ l ∈ lanes, addr o l < 2 ^ 55 ∧ addr o l % n = 0
     ok n off) ∧
    (∃ (s : State) (f : CFields) (s1 : State) (r : CRow) (x : CIn),
     Issues (.vstxNotify f) r { imm := some .s32, static := fun v => decide ((f.sa.toNat + 1) < v), reads := [.reg
                                (f.sa.toNat + 1)], fc := some .st } s x s1 ∧
     let hi := f.sa.toNat + 1
     let h := s1.grp.readCode 0 0 0 0 hi
     let n := f.dt.width / 8
     let lanes := (List.range 32).filter x.written.getLsbD
     let off (l : Nat) : Int := (x.b.at l).toInt
     let addr (o : Nat → Int) (l : Nat) : Nat := (((h.at l).toNat * 2 ^ 32 + (x.a.at l).toNat + o l) % 2 ^ 64).toNat
     let ok (n : Nat) (o : Nat → Int) : Prop := ∀ l ∈ lanes, addr o l < 2 ^ 55 ∧ addr o l % n = 0
     ok n off) ∧
    (∃ (s : State) (f : CFields) (l : Nat) (s1 : State) (r : CRow) (x : CIn),
     Issues (.vstx f) r { imm := some .s32, static := fun v => decide ((f.sa.toNat + 1) < v), reads := [.reg (f.sa.toNat +
                          1)], fc := some .st } s x s1 ∧
     let hi := f.sa.toNat + 1
     let h := s1.grp.readCode 0 0 0 0 hi
     let n := f.dt.width / 8
     let lanes := (List.range 32).filter x.written.getLsbD
     let off (l : Nat) : Int := (x.b.at l).toInt
     let addr (o : Nat → Int) (l : Nat) : Nat := (((h.at l).toNat * 2 ^ 32 + (x.a.at l).toNat + o l) % 2 ^ 64).toNat
     let n : Nat := n
     let o : Nat → Int := off
     (lanes.find? (fun l => !(decide (addr o l < 2 ^ 55) && addr o l % n == 0)) = some l)) :=
  ⟨⟨gl 0x50000 4 8, (G .s32), issues_meet (by decide +kernel)⟩,
   ⟨gl 0x50000 4 8, (GA .s32 0), issues_meet (by decide +kernel)⟩,
   ⟨gl 0x60000 4 8, { (GA .f32 0) with dst := 0, sc := 0 }, issues_meet (by decide +kernel)⟩,
   ⟨gl 0x50000 1 4, (G .s16), 1, issues_meet (by decide +kernel)⟩,
   ⟨gl 0x50001 4 8, (GA .z32 8), 0, issues_meet (by decide +kernel)⟩,
   ⟨gl 0x50000 4 8, (G4 .s32), issues_meet (by decide +kernel)⟩,
   ⟨gl 0x50000 4 8, (GD .s32), issues_meet (by decide +kernel)⟩,
   ⟨gl 0x50000 1 4, (G4 .s16), 1, issues_meet (by decide +kernel)⟩⟩

theorem meets_LaneOperationIssue :
    (∃ (s : State) (x : CIn) (o : Op) (c : FC) (j : Nat),
     o.fc = some c ∧ o.fail = none ∧ s.grp.quads.length = 8 ∧ x.written ≠ 0#32 ∧
     (∀ a ∈ o.accs, s.sendCheck s.cur o.lbl a = none) ∧ j ≠ s.cur) ∧
    (∃ (s : State) (x : CIn) (o : Op) (c : FC) (q : Nat),
     o.fc = some c ∧ o.fail = none ∧ s.grp.quads.length = 8 ∧ x.written ≠ 0#32 ∧
     (∀ a ∈ o.accs, s.sendCheck s.cur o.lbl a = none) ∧ q < 8) ∧
    (∃ (s : State) (x : CIn) (o : Op) (c : FC) (j : Nat),
     o.fc = some c ∧ o.fail = none ∧ s.grp.quads.length = 8 ∧
     let g := s.grp
     x.written ≠ 0#32 ∧ (∀ a ∈ o.accs, s.sendCheck s.cur o.lbl a = none) ∧ j ≠ g.nextOp) ∧
    (∃ (s : State) (x : CIn) (o : Op) (c : FC) (j : Nat),
     o.fc = some c ∧ o.fail = none ∧ s.grp.quads.length = 8 ∧ x.written = 0#32 ∧ s.grp.ops = [] ∧ j ≠ s.cur) ∧
    (∃ (s : State) (x : CIn) (o : Op) (c : FC) (q : Nat),
     o.fc = some c ∧ o.fail = none ∧ s.grp.quads.length = 8 ∧ x.written = 0#32 ∧ s.grp.ops = [] ∧ q < 8) ∧
    (∃ (s : State) (x : CIn) (o : Op) (c : FC),
     o.fc = some c ∧ o.fail = none ∧ s.grp.quads.length = 8 ∧ x.written = 0#32 ∧ s.grp.ops = [] ∧ o.dsts = []) ∧
    (∃ (s : State) (x : CIn) (o : Op) (c : FC) (d : Dst),
     o.fc = some c ∧ o.fail = none ∧ s.grp.quads.length = 8 ∧
     let g := s.grp
     x.written = 0#32 ∧ s.grp.ops = [] ∧ o.dsts = [d] ∧ (∀ w ∈ g.fx, w.dst = d → w.qmask &&& x.qmask = 0)) :=
  ⟨⟨ih1.1, ih1.2.1, ih1.2.2, .gx, 7, by decide +kernel⟩,
   ⟨ih1.1, ih1.2.1, ih1.2.2, .gx, 2, by decide +kernel⟩,
   ⟨ih1.1, ih1.2.1, ih1.2.2, .gx, 7, by decide +kernel⟩,
   ⟨ih0.1, ih0.2.1, ih0.2.2, .gx, 7, by decide +kernel⟩,
   ⟨ih0.1, ih0.2.1, ih0.2.2, .gx, 2, by decide +kernel⟩,
   ⟨ih0e.1, ih0e.2.1, ih0e.2.2, .gx, by decide +kernel⟩,
   ⟨ih0.1, ih0.2.1, ih0.2.2, .gx, .reg 3, by decide +kernel⟩⟩

theorem meets_BufferLaneAccesses :
    (∃ (s : State) (f : CFields) (s1 : State) (r : CRow) (x : CIn),
     Issues (.spld f) r { imm := some .z32, fc := some .sp } s x s1 ∧
     let n := f.dt.width / 8
     let lanes := (List.range 32).filter x.written.getLsbD
     let ab (l : Nat) : Nat := ((x.a.at l).toNat + (x.b.at l).toNat) % 2 ^ 32
     let inSp (o : Nat → Nat) : Prop := ∀ l ∈ lanes, o l + n ≤ (s1.recOf s1.cur).spsize ∧ o l % n = 0
     inSp ab) ∧
    (∃ (s : State) (f : CFields) (s1 : State) (r : CRow) (x : CIn),
     Issues (.spst f) r { imm := some .z32, fc := some .sp } s x s1 ∧
     let n := f.dt.width / 8
     let lanes := (List.range 32).filter x.written.getLsbD
     let ab (l : Nat) : Nat := ((x.a.at l).toNat + (x.b.at l).toNat) % 2 ^ 32
     let inSp (o : Nat → Nat) : Prop := ∀ l ∈ lanes, o l + n ≤ (s1.recOf s1.cur).spsize ∧ o l % n = 0
     inSp ab) ∧
    (∃ (s : State) (f : CFields) (s1 : State) (r : CRow) (x : CIn),
     Issues (.acld f) r { imm := some .z32, fc := some .sp } s x s1 ∧
     let lanes := (List.range 32).filter x.written.getLsbD
     let ab (l : Nat) : Nat := ((x.a.at l).toNat + (x.b.at l).toNat) % 2 ^ 32
     let bank (l : Nat) : Nat := ab l / 131072
     let bound (b : Nat) : Prop := ∃ h ∈ s1.tm.whand, h.2.bank ≤ b ∧ b < h.2.bank + h.2.nb
     (∀ l ∈ lanes, ab l < 8388608 ∧ ab l % 4 = 0 ∧ s1.tm.banks.getLsbD (bank l) = true) ∧ (∀ l ∈ lanes, ¬ bound (bank l))) ∧
    (∃ (s : State) (f : CFields) (s1 : State) (r : CRow) (x : CIn),
     Issues (.acst f) r { imm := some .z32, fc := some .sp } s x s1 ∧
     let lanes := (List.range 32).filter x.written.getLsbD
     let ab (l : Nat) : Nat := ((x.a.at l).toNat + (x.b.at l).toNat) % 2 ^ 32
     let bank (l : Nat) : Nat := ab l / 131072
     let bound (b : Nat) : Prop := ∃ h ∈ s1.tm.whand, h.2.bank ≤ b ∧ b < h.2.bank + h.2.nb
     (∀ l ∈ lanes, ab l < 8388608 ∧ ab l % 4 = 0 ∧ s1.tm.banks.getLsbD (bank l) = true) ∧ (∀ l ∈ lanes, ¬ bound (bank l))) ∧
    (∃ (s : State) (f : CFields) (l : Nat) (s1 : State) (r : CRow) (x : CIn),
     Issues (.acld f) r { imm := some .z32, fc := some .sp } s x s1 ∧
     let lanes := (List.range 32).filter x.written.getLsbD
     let ab (l : Nat) : Nat := ((x.a.at l).toNat + (x.b.at l).toNat) % 2 ^ 32
     let bank (l : Nat) : Nat := ab l / 131072
     let bound (b : Nat) : Prop := ∃ h ∈ s1.tm.whand, h.2.bank ≤ b ∧ b < h.2.bank + h.2.nb
     l ∈ lanes ∧ (∀ l ∈ lanes, ab l < 8388608 ∧ ab l % 4 = 0 ∧ s1.tm.banks.getLsbD (bank l) = true) ∧ bound (bank l) ∧
     (∀ m ∈ lanes, m < l → ¬ bound (bank m))) ∧
    (∃ (s : State) (f : CFields) (s1 : State) (r : CRow) (x : CIn),
     Issues (.spamo f) r { fc := some .sp } s x s1 ∧
     let n := f.dt.width / 8
     let lanes := (List.range 32).filter x.written.getLsbD
     let aa (l : Nat) : Nat := (x.a.at l).toNat
     let inSp (o : Nat → Nat) : Prop := ∀ l ∈ lanes, o l + n ≤ (s1.recOf s1.cur).spsize ∧ o l % n = 0
     inSp aa) :=
  ⟨⟨spb 0x20 4 8, (GD .s32), issues_meet (by decide +kernel)⟩,
   ⟨spb 0x20 4 8, (G4 .s32), issues_meet (by decide +kernel)⟩,
   ⟨spb 0x20 4 8, (GD .z32), issues_meet (by decide +kernel)⟩,
   ⟨spb 0x20 4 8, (G4 .z32), issues_meet (by decide +kernel)⟩,
   ⟨spb 393216 4 8, (GD .z32), 0, issues_meet (by decide +kernel)⟩,
   ⟨spb 0x20 4 8, (GA .s32 1), issues_meet (by decide +kernel)⟩⟩

theorem meets_QueueSupplies_1 :
    (∃ (s : State) (f : CFields) (s1 : State) (r : CRow) (x : CIn),
     Issues (.senda f) r {} s x s1 ∧
     let g := s1.grp
     let p := f.x.toNat
     let on := x.written.getLsbD (2 * p) = true ∨ x.written.getLsbD (2 * p + 1) = true
     g.ca.length < 8 ∧ on) ∧
    (∃ (s : State) (f : CFields) (s1 : State) (r : CRow) (x : CIn),
     Issues (.senda f) r {} s x s1 ∧
     let g := s1.grp
     let p := f.x.toNat
     let on := x.written.getLsbD (2 * p) = true ∨ x.written.getLsbD (2 * p + 1) = true
     g.ca.length < 8 ∧ ¬ on) ∧
    (∃ (s : State) (f : CFields) (s1 : State) (r : CRow) (x : CIn),
     Issues (.senda f) r {} s x s1 ∧
     let g := s1.grp
     8 ≤ g.ca.length) ∧
    (∃ (s : State) (f : CFields) (s1 : State) (r : CRow) (x : CIn),
     Issues (.std f) r {} s x s1 ∧
     let g := s1.grp
     g.quads.length = 8 ∧ x.qmask < 256 ∧
     (∀ q ∈ quadSet x.qmask, g.sdqBase ≤ (g.quad q).stdCnt ∧ (g.quad q).stdCnt < g.sdqBase + 16 ∧ (g.quad q).stdCnt ≤
         g.sdqBase + g.sdq.length)) ∧
    (∃ (s : State) (f : CFields) (s1 : State) (r : CRow) (x : CIn),
     Issues (.std f) r {} s x s1 ∧
     let g := s1.grp
     g.quads.length = 8 ∧ x.qmask < 256 ∧ (∃ q ∈ quadSet x.qmask, g.sdqBase + 16 ≤ (g.quad q).stdCnt)) :=
  ⟨⟨qs 0 0, {flds with x := 1, dst := 0, sb := 0, sc := 0}, issues_meet (by decide +kernel)⟩,
   ⟨qs 0 7, {flds with x := 0, dst := 0, sb := 0, sc := 0, pr := 2}, issues_meet (by decide +kernel)⟩,
   ⟨qs 0 8, {flds with x := 2, dst := 0, sb := 0, sc := 0, pr := 2}, issues_meet (by decide +kernel)⟩,
   ⟨sd 0 2 2, {flds with dst := 0, sb := 0, sc := 0}, issues_meet (by decide +kernel)⟩,
   ⟨sd 16 18 3, {flds with dst := 0, sb := 0, sc := 0, pr := 2}, issues_meet (by decide +kernel)⟩⟩

end C3

/-! ## The premises of the claims about completion of lane accesses and waits -/

namespace C4

def bb (l : Label) (err ph : Bool) (arr ex : Nat) : Barrier := { lbl := l, err := err, phase := ph, arr := arr, exp := ex }
def ba (m : Bool) (b : Barrier) (w : Nat) := let s := lab 0 (vreg 2 (fun _ => w) 0x2); s.setTm (({ labTeam with spMark := if m then [(2, true)] else [] } : Team).setBarrier 0x20 b)
def cw : CFields := { flds with dst := 0, sa := 0, sc := 0, dt := .z32 }
def cwx : CFields := { cw with x := 1 }
def cwt : CFields := { cwx with tk := 4 }
def cs : CSpec := { imm := some .z32, qb := 1 }
def o0 : Op := { id := 0, fc := none }
def aft (s : State) (f : CFields) := after (exec (.cwait f) s)
def bt (e : Bool) (l : Label) := let s := aft (ba true (bb 0x3 false true 1 3) 0x20) cwt; s.setTm (s.tm.setBarrier 0x20 (bb l e true 0 3))
def btn := let s := aft (ba true (bb 0x3 false false 1 3) 0x20) cwt; s.setTm (s.tm.setBarrier 0x20 (bb 3 false true 0 3))
def ca (n : Nat) := let s := ba true (bb 0x3 false true 1 3) 0x20; s
def caw := let s := ba true (bb 0x3 false true 1 3) 0x20; let g := s.grp; s.setGrp { g with ops := [{ id := 0, fc := some .gx, cslice := true, quads := 255, data := .mem, accs := [{va := 5}] }], nextOp := 1 }
def xs (role : Nat) (w : Nat) := let s := lab role (fun g => vreg 2 (fun _ => w) 2 (vreg 1 (fun l => l*0x01020304) 1 g)); let t : Team := { labTeam with sp := ((bytesOf 0x0000000301020304 8).zipIdx.map (fun e => (e.2, e.1))).filter (fun e => e.2 != 0), spLbl := [(0, 0x4)] }; s.setTm t
def xf (t : Ty) (e : Nat) : CFields := { flds with dt := t, sc := 0, ext := BitVec.ofNat 20 e }
def xsp (b : Bool) : CSpec := { role := some 2, imm := some .z32, qb := if b then 1 else 0, fc := some .xf }
def xi (i : Instr) (w : Nat) := after (exec i (xs 2 w))
def xo (s : State) := (opOf s 0)
def wz : List Word := []
def wd (n : Nat) (w : Nat) := let s := lab 2 (fun g => vreg 2 (fun _ => w) 2 (vreg 4 (fun l => l) 4 (vreg 1 (fun l => l*0x01020304) 1 g))); s.setTm { labTeam with banks := 0xF, whand := if n = 9 then [] else [(2, { op := n, ty := .f32, rm := .rne, w := 8, bank := 1, nb := 1, hc := 3 })] }
def wf : CFields := { flds with ext := 2 + 8*3 + 128*15, dst := 0, sa := 0, sc := 0, dt := .f32, tk := 2 }
def wfp : CFields := { flds with ext := 2, dst := 0, sa := 1, sc := 4, sb := 0, dt := .f32, tk := 2 }
def wfq : CFields := { flds with ext := 2, dst := 6, sa := 0, sc := 0, sb := 0, dt := .f32, tk := 2 }
def wq : CSpec := { role := some 2, qb := 1, fc := some .wa }
def wq0 : CSpec := { role := some 2, qb := 0, fc := some .wa }
def two (s : State) : State := s.setGrp { s.grp with paths := [(0, {s.path with qmask := 15}), (1, {s.path with qmask := 240})] }
def wqq (p : Bool) : CSpec := { role := some 2, static := fun v => !p || decide (7 < v), writes := if p then [.reg (7)] else [], fc := some .wa }
def WH (op w : Nat) : WHandle := { op := op, ty := .z32, rm := .rne, w := w, bank := 1, nb := 1, hc := 3 }
def wx : WElem := (9#32, 0#32, 0x40#16)
def mkW (n : Nat) : List WElem := (List.range n).map (fun i => (BitVec.ofNat 32 (i*7+5), 0#32, BitVec.ofNat 16 (i+1)))
def pu (h : WHandle) (n : Nat) : WLane := (mkW n).foldl h.push {}
def xr (s : State) : List Word × Label × Flt :=
  match (s.team 0).xform (s.recOf 0) (match (opOf s 0).data with | .xform j _ _ => j | _ => .markJoin) (match (opOf s 0).data with | .xform _ a _ => a | _ => []) (match (opOf s 0).data with | .xform _ _ b => b | _ => []) with
  | .ok v l => (v, l, { code := 0 })
  | .bad e => ([], 0, e)
def xb : State := let s := xi (.xdec (xf .s16 0)) 0; s.setTm { s.tm with spLbl := [(0, 0x100)] }
def es3 : List WElem := (List.range 3).map (fun i => (BitVec.ofNat 32 (i + 5), 0#32, 1#16))
def push3 (h : WHandle) : WLane := (List.range 3).foldl (fun l i => h.push l (BitVec.ofNat 32 (i + 5), 0#32, 1#16)) {}
def fold3 : WLane := (WH 5 3).push (push3 (WH 5 3)) (8#32, 0#32, 1#16)
def es4 : List WElem := es3.tail ++ [(8#32, 0#32, 1#16)]

theorem meets_BarrierWaits_1 :
    (∃ (s : State) (f : CFields) (s1 : State) (r : CRow) (x : CIn),
     Issues (.cwait f) r { imm := some .z32, qb := 1 } s x s1 ∧
     let w := (x.b.at 0).toNat
     let off := w % 2 ^ 20
     let good := w / 2 ^ 20 % 2 ^ 11 = 0 ∧ off % 16 = 0 ∧ off + 16 ≤ (s.recOf s.cur).spsize ∧ s.tm.marked? off = true
     ¬ good) ∧
    (∃ (s : State) (f : CFields) (s1 : State) (r : CRow) (x : CIn),
     Issues (.cwait f) r { imm := some .z32, qb := 1 } s x s1 ∧
     let w := (x.b.at 0).toNat
     let off := w % 2 ^ 20
     let good := w / 2 ^ 20 % 2 ^ 11 = 0 ∧ off % 16 = 0 ∧ off + 16 ≤ (s.recOf s.cur).spsize ∧ s.tm.marked? off = true
     let b := s.tm.barrier off
     good ∧ ¬ LabelIn b.lbl (s.clr s.cur)) ∧
    (∃ (s : State) (f : CFields) (s1 : State) (r : CRow) (x : CIn),
     Issues (.cwait f) r { imm := some .z32, qb := 1 } s x s1 ∧
     let w := (x.b.at 0).toNat
     let off := w % 2 ^ 20
     let good := w / 2 ^ 20 % 2 ^ 11 = 0 ∧ off % 16 = 0 ∧ off + 16 ≤ (s.recOf s.cur).spsize ∧ s.tm.marked? off = true
     let b := s.tm.barrier off
     let want : Bool := (f.x.getLsbD 0) != decide (2 ^ 31 ≤ w)
     good ∧ LabelIn b.lbl (s.clr s.cur) ∧ f.tk = 0#4 ∧ b.phase ≠ want) ∧
    (∃ (s : State) (f : CFields) (s1 : State) (r : CRow) (x : CIn),
     Issues (.cwait f) r { imm := some .z32, qb := 1 } s x s1 ∧
     let w := (x.b.at 0).toNat
     let off := w % 2 ^ 20
     let good := w / 2 ^ 20 % 2 ^ 11 = 0 ∧ off % 16 = 0 ∧ off + 16 ≤ (s.recOf s.cur).spsize ∧ s.tm.marked? off = true
     let b := s.tm.barrier off
     let want : Bool := (f.x.getLsbD 0) != decide (2 ^ 31 ≤ w)
     good ∧ LabelIn b.lbl (s.clr s.cur) ∧ f.tk = 0#4 ∧ b.phase = want ∧ b.err = true) ∧
    (∃ (s : State) (f : CFields) (s1 : State) (r : CRow) (x : CIn),
     Issues (.cwait f) r { imm := some .z32, qb := 1 } s x s1 ∧
     let w := (x.b.at 0).toNat
     let off := w % 2 ^ 20
     let good := w / 2 ^ 20 % 2 ^ 11 = 0 ∧ off % 16 = 0 ∧ off + 16 ≤ (s.recOf s.cur).spsize ∧ s.tm.marked? off = true
     let b := s.tm.barrier off
     let want : Bool := (f.x.getLsbD 0) != decide (2 ^ 31 ≤ w)
     good ∧ LabelIn b.lbl (s.clr s.cur) ∧ f.tk = 0#4 ∧ b.phase = want ∧ b.err = false) ∧
    (∃ (s : State) (f : CFields) (s1 : State) (r : CRow) (x : CIn),
     Issues (.cwait f) r { imm := some .z32, qb := 1 } s x s1 ∧
     let w := (x.b.at 0).toNat
     let off := w % 2 ^ 20
     let good := w / 2 ^ 20 % 2 ^ 11 = 0 ∧ off % 16 = 0 ∧ off + 16 ≤ (s.recOf s.cur).spsize ∧ s.tm.marked? off = true
     let b := s.tm.barrier off
     good ∧ LabelIn b.lbl (s.clr s.cur) ∧ f.tk ≠ 0#4) ∧
    (∃ (s : State) (k n : Nat) (p : Op) (o2 : Nat) (want2 : Bool),
     let t := s.team (teamOf k)
     let d := t.barrier o2
     (s.group k).op n = some p ∧ p.data = .cwait o2 want2 ∧ p.doneq = false ∧ t.state = .resident ∧ d.phase = want2) :=
  ⟨⟨ba false (bb 3 false true 1 3) 0x20, cwx, issues_meet (by decide +kernel)⟩,
   ⟨ba true (bb 0x103 false true 1 3) 0x20, cwx, issues_meet (by decide +kernel)⟩,
   ⟨ba true (bb 3 false false 1 3) 0x20, cwx, issues_meet (by decide +kernel)⟩,
   ⟨ba true (bb 3 true true 1 3) 0x20, cwx, issues_meet (by decide +kernel)⟩,
   ⟨ba true (bb 3 false true 1 3) 0x20, cwx, issues_meet (by decide +kernel)⟩,
   ⟨ba true (bb 3 true true 1 3) 0x20, cwt, issues_meet (by decide +kernel)⟩,
   ⟨(bt false 3), 0, 0, (opOf (bt false 3) 0), 0x20, true, by decide +kernel⟩⟩

theorem meets_BarrierWaits_2 :
    (∃ (s : State) (f : CFields) (s1 : State) (r : CRow) (x : CIn),
     Issues (.carv f) r { imm := some .z32, qb := 1 } s x s1 ∧
     let w := (x.b.at 0).toNat
     let off := w % 2 ^ 20
     let good := w / 2 ^ 20 % 2 ^ 12 = 0 ∧ off % 16 = 0 ∧ off + 16 ≤ (s.recOf s.cur).spsize ∧ s.tm.marked? off = true
     ¬ good) ∧
    (∃ (s : State) (f : CFields) (s1 : State) (r : CRow) (x : CIn),
     Issues (.carv f) r { imm := some .z32, qb := 1 } s x s1 ∧
     let w := (x.b.at 0).toNat
     let off := w % 2 ^ 20
     let good := w / 2 ^ 20 % 2 ^ 12 = 0 ∧ off % 16 = 0 ∧ off + 16 ≤ (s.recOf s.cur).spsize ∧ s.tm.marked? off = true
     let g := s1.grp
     good ∧ g.carv = [] ∧ g.quadsReleased x.qmask = false) ∧
    (∃ (s : State) (f : CFields) (s1 : State) (r : CRow) (x : CIn),
     Issues (.carv f) r { imm := some .z32, qb := 1 } s x s1 ∧
     let w := (x.b.at 0).toNat
     let off := w % 2 ^ 20
     let good := w / 2 ^ 20 % 2 ^ 12 = 0 ∧ off % 16 = 0 ∧ off + 16 ≤ (s.recOf s.cur).spsize ∧ s.tm.marked? off = true
     let l := x.b.lbl ||| x.k
     let g := s1.grp
     good ∧
     ((∀ q ∈ g.unended, bitOf x.qmask q = true ∧ (g.quad q).carvCnt = g.carvBase) ∧ g.carv = [] ∧ (∀ q ∈ quadSet x.qmask,
         q ∈ g.unended)) ∧
     g.quadsReleased x.qmask = true ∧ quadSet x.qmask ≠ [] ∧ LabelIn l (s1.tm.barrier off).lbl) :=
  ⟨⟨ba false (bb 3 false true 2 3) 0x20, cw, issues_meet (by decide +kernel)⟩,
   ⟨caw, cw, issues_meet (by decide +kernel)⟩,
   ⟨ba true (bb 3 false true 1 3) 0x20, cw, issues_meet (by decide +kernel)⟩⟩

theorem meets_TransformCommands_1 :
    (∃ (s : State) (f : CFields) (s1 : State) (r : CRow) (x : CIn),
     Issues (.xunpk f) r { role := some 2, imm := some .z32, qb := 0, fc := some .xf } s x s1 ∧
     let off := (x.b.at 0).toNat
     let size : Option Nat := none
     (x.written = 0#32 ∨ ∀ m, size = some m → off % 4 = 0 ∧ off + m ≤ (s.recOf s.cur).spsize)) ∧
    (∃ (s : State) (f : CFields) (s1 : State) (r : CRow) (x : CIn),
     Issues (.xdec f) r { role := some 2, imm := some .z32, qb := 1, fc := some .xf } s x s1 ∧
     let off := (x.b.at 0).toNat
     let size : Option Nat := some 8
     (¬ (x.written = 0#32 ∨ ∀ m, size = some m → off % 4 = 0 ∧ off + m ≤ (s.recOf s.cur).spsize))) ∧
    (∃ (s : State) (k n : Nat) (o : Op) (j : Instr) (a b : List Word) (d : Nat) (v : List Word) (l : Label),
     let answer := (s.team (teamOf k)).xform (s.recOf k) j a b
     (s.group k).op n = some o ∧ o.data = .xform j a b ∧ o.doneq = false ∧ (s.team (teamOf k)).state = .resident ∧
     (s.group k).engineReady o = true ∧ o.dsts = [.reg d] ∧ answer = .ok v l) ∧
    (∃ (s : State) (k n : Nat) (o : Op) (j : Instr) (a b : List Word) (d : Nat) (e : Flt),
     let answer := (s.team (teamOf k)).xform (s.recOf k) j a b
     (s.group k).op n = some o ∧ o.data = .xform j a b ∧ o.doneq = false ∧ (s.team (teamOf k)).state = .resident ∧
     (s.group k).engineReady o = true ∧ o.dsts = [.reg d] ∧ answer = .bad e) :=
  ⟨⟨xs 2 0x20, { (xf .s8 (5 + 32*1)) with ext := 37 }, issues_meet (by decide +kernel)⟩,
   ⟨xs 2 4092, (xf .s8 0), issues_meet (by decide +kernel)⟩,
   ⟨(xi (.xlut (xf .s16 0)) 0), 0, 0, (xo (xi (.xlut (xf .s16 0)) 0)), (.xlut (xf .s16 0)), (issued (.xlut (xf .s16 0)) (xsp true) (xs 2 0)).2.1.a.lanes, (issued (.xlut (xf .s16 0)) (xsp true) (xs 2 0)).2.1.b.lanes, 3, (xr (xi (.xlut (xf .s16 0)) 0)).1, (xr (xi (.xlut (xf .s16 0)) 0)).2.1, by decide +kernel⟩,
   ⟨xb, 0, 0, (xo xb), (.xdec (xf .s16 0)), (issued (.xdec (xf .s16 0)) (xsp true) (xs 2 0)).2.1.a.lanes, (issued (.xdec (xf .s16 0)) (xsp true) (xs 2 0)).2.1.b.lanes, 3, (xr xb).2.2, by decide +kernel⟩⟩

theorem meets_TransformCommands_2 :
    ∃ (t : Ty) (ext j : Nat),
    t ∈ [Ty.s8, .z8, .s16, .z16, .s32, .z32, .f16, .bf16] ∧
    let w := ext % 32
    0 < w ∧ w ≤ t.width ∧ j < 32 / t.width :=
  ⟨.s8, 37, 3, by decide +kernel⟩

theorem meets_WindowInstructions :
    (∃ (s : State) (f : CFields) (s1 : State) (r : CRow) (x : CIn),
     Issues (.winit f) r { role := some 2, qb := 1, fc := some .wa } s x s1 ∧
     let w := (x.b.at 0).toNat
     let op := f.ext.toNat / 8 % 16
     let wn := f.ext.toNat / 128 % 1024 + 1
     let banks := (wn * (if 7 ≤ op then 8 else 4) + 2047) / 2048
     s.grp.paths.length ≤ 1 ∧ w + banks ≤ 64 ∧ w ≤ 63) ∧
    (∃ (s : State) (f : CFields) (s1 : State) (r : CRow) (x : CIn),
     Issues (.winit f) r { role := some 2, qb := 1, fc := some .wa } s x s1 ∧
     let w := (x.b.at 0).toNat
     let op := f.ext.toNat / 8 % 16
     let wn := f.ext.toNat / 128 % 1024 + 1
     let banks := (wn * (if 7 ≤ op then 8 else 4) + 2047) / 2048
     s.grp.paths.length ≤ 1 ∧ 64 < w + banks) ∧
    (∃ (s : State) (f : CFields) (s1 : State) (r : CRow) (x : CIn),
     Issues (.wpush f) r { role := some 2, qb := 0, fc := some .wa } s x s1) ∧
    (∃ (s : State) (f : CFields) (s1 : State) (r : CRow) (x : CIn),
     Issues (.wsetw f) r { role := some 2, qb := 1, fc := some .wa } s x s1 ∧
     let w := (x.b.at 0).toNat
     s.grp.paths.length ≤ 1 ∧ 1 ≤ w ∧ w ≤ 1024) ∧
    (∃ (s : State) (f : CFields) (s1 : State) (r : CRow) (x : CIn),
     Issues (.wsetw f) r { role := some 2, qb := 1, fc := some .wa } s x s1 ∧
     let w := (x.b.at 0).toNat
     s.grp.paths.length ≤ 1 ∧ (w = 0 ∨ 1024 < w)) ∧
    (∃ (s : State) (f : CFields) (s1 : State) (r : CRow) (x : CIn),
     Issues (.wfree f) r { role := some 2, qb := 1, fc := some .wa } s x s1 ∧ s.grp.paths.length ≤ 1) ∧
    (∃ (s : State) (f : CFields) (s1 : State) (r : CRow) (x : CIn),
     Issues (.winit f) r { role := some 2, qb := 1, fc := some .wa } s x s1 ∧ 1 < s.grp.paths.length) ∧
    (∃ (s : State) (f : CFields) (s1 : State) (r : CRow) (x : CIn),
     Issues (.wstat f) r { role := some 2, qb := 0, fc := some .wa } s x s1) ∧
    (∃ (s : State) (f : CFields) (pair : Bool),
      pair = (match s.tm.operatorOf (f.ext.toNat % 8) with | some q => decide (7 ≤ q) | none => false) ∧
      ∃ (s1 : State) (r : CRow) (x : CIn), 
          Issues (.wqry f) r
            { role := some 2,
              static := fun v => !pair || decide (f.dst.toNat + 1 < v),
              writes := if pair then [.reg (f.dst.toNat + 1)] else [], fc := some .wa } s x s1) :=
  ⟨⟨wd 9 3, wf, issues_meet (by decide +kernel)⟩,
   ⟨wd 9 64, wf, issues_meet (by decide +kernel)⟩,
   ⟨wd 3 63, wfp, issues_exist (by decide +kernel)⟩,
   ⟨wd 3 5, wf, issues_meet (by decide +kernel)⟩,
   ⟨wd 3 0, wf, issues_meet (by decide +kernel)⟩,
   ⟨wd 3 1025, { wf with sb := 0 }, issues_meet (by decide +kernel)⟩,
   ⟨two (wd 9 6), wf, issues_meet (by decide +kernel)⟩,
   ⟨wd 3 1025, wfq, issues_exist (by decide +kernel)⟩,
   ⟨wd 8 1025, wfq, true, by decide +kernel, issues_exist (by decide +kernel)⟩⟩

theorem meets_TransformCommands_3 :
    (∃ (t : Team) (r : Launch) (f : CFields) (b : List Word),
     f.dt.width ∈ [8, 16, 32] ∧
     let off := (laneAt b 0).toNat
     let w := f.dt.width
     let e := 32 / w
     let byte (i : Nat) : Nat := (t.sp.get 0#8 (off + i)).toNat
     let number (i n : Nat) : Nat := ((List.range n).map (fun j => byte (i + j) * 256 ^ j)).sum
     let may (n : Nat) : Prop := LabelIn (t.rangeLabel off n) r.clr ∧ t.rangeBad off n = false
     let form := f.ext.toNat % 4
     let d := if byte 4 = 3 then 4 else byte 4
     let size := 8 + (32 * e - form) * d
     let good : Prop := byte 4 ≤ 3 ∧ number 5 3 = 0 ∧ off + size ≤ r.spsize
     form ≤ 1 ∧ may 8 ∧ good ∧ may size) ∧
    (∃ (t : Team) (r : Launch) (f : CFields) (b : List Word),
     f.dt.width ∈ [8, 16, 32] ∧
     let off := (laneAt b 0).toNat
     let w := f.dt.width
     let e := 32 / w
     let byte (i : Nat) : Nat := (t.sp.get 0#8 (off + i)).toNat
     let number (i n : Nat) : Nat := ((List.range n).map (fun j => byte (i + j) * 256 ^ j)).sum
     let may (n : Nat) : Prop := LabelIn (t.rangeLabel off n) r.clr ∧ t.rangeBad off n = false
     let form := f.ext.toNat % 4
     let d := if byte 4 = 3 then 4 else byte 4
     let size := 8 + (32 * e - form) * d
     let good : Prop := byte 4 ≤ 3 ∧ number 5 3 = 0 ∧ off + size ≤ r.spsize
     form ≤ 1 ∧ may 8 ∧ good ∧ ¬ LabelIn (t.rangeLabel off size) r.clr) ∧
    (∃ (t : Team) (r : Launch) (f : CFields) (b : List Word),
     f.dt.width ∈ [8, 16, 32] ∧
     let off := (laneAt b 0).toNat
     let w := f.dt.width
     let e := 32 / w
     let byte (i : Nat) : Nat := (t.sp.get 0#8 (off + i)).toNat
     let number (i n : Nat) : Nat := ((List.range n).map (fun j => byte (i + j) * 256 ^ j)).sum
     let may (n : Nat) : Prop := LabelIn (t.rangeLabel off n) r.clr ∧ t.rangeBad off n = false
     let form := f.ext.toNat % 4
     let d := if byte 4 = 3 then 4 else byte 4
     let size := 8 + (32 * e - form) * d
     let good : Prop := byte 4 ≤ 3 ∧ number 5 3 = 0 ∧ off + size ≤ r.spsize
     form ≤ 1 ∧ may 8 ∧ ¬ good) :=
  ⟨⟨labTeam, labRec, (xf .s16 0), (List.replicate 32 0#32), by decide +kernel⟩,
   ⟨{ labTeam with sp := [(252, 1)], spLbl := [(1, 0x100)] }, labRec, (xf .s16 0), (List.replicate 32 248#32), by decide +kernel⟩,
   ⟨{ labTeam with sp := [(4, 4)] }, labRec, (xf .s16 1), (List.replicate 32 0#32), by decide +kernel⟩⟩

theorem meets_WindowAnswers_2 :
    (∃ (h : WHandle),
     let s32 := h.ty ≠ .f32
     h.op = 0 ∧ s32) ∧
    (∃ (h : WHandle),
     let f32 := h.ty = .f32
     h.op = 0 ∧ f32) ∧
    (∃ (h : WHandle),
     h.op = 1) ∧
    (∃ (h : WHandle),
     let s32 := h.ty ≠ .f32
     h.op = 2 ∧ s32) ∧
    (∃ (h : WHandle),
     let f32 := h.ty = .f32
     h.op = 2 ∧ f32) ∧
    (∃ (h : WHandle),
     let s32 := h.ty ≠ .f32
     h.op = 3 ∧ s32) ∧
    (∃ (h : WHandle),
     let f32 := h.ty = .f32
     h.op = 3 ∧ f32) ∧
    (∃ (h : WHandle),
     h.op = 4) ∧
    (∃ (h : WHandle),
     h.op = 5) ∧
    (∃ (h : WHandle),
     h.op = 6) ∧
    (∃ (h : WHandle),
     h.op = 7) ∧
    (∃ (h : WHandle),
     h.op = 8) ∧
    (∃ (h : WHandle),
     h.op = 9) :=
  ⟨⟨{ WH 0 2 with ty := .s32 }, by decide +kernel⟩,
   ⟨{ WH 0 2 with ty := .f32 }, by decide +kernel⟩,
   ⟨{ WH 1 2 with ty := .f32 }, by decide +kernel⟩,
   ⟨{ WH 2 2 with ty := .s32 }, by decide +kernel⟩,
   ⟨{ WH 2 2 with ty := .f32 }, by decide +kernel⟩,
   ⟨{ WH 3 2 with ty := .s32 }, by decide +kernel⟩,
   ⟨{ WH 3 2 with ty := .f32 }, by decide +kernel⟩,
   ⟨{ WH 4 2 with ty := .z32 }, by decide +kernel⟩,
   ⟨{ WH 5 2 with ty := .z32 }, by decide +kernel⟩,
   ⟨{ WH 6 2 with ty := .z32 }, by decide +kernel⟩,
   ⟨{ WH 7 2 with ty := .f32 }, by decide +kernel⟩,
   ⟨{ WH 8 2 with ty := .f32 }, by decide +kernel⟩,
   ⟨{ WH 9 2 with ty := .f32 }, by decide +kernel⟩⟩

theorem meets_WindowAnswers_1 :
    (∃ (h : WHandle) (l : WLane) (n : Nat) (es : List WElem), h.op ∈ [4, 5, 6] ∧ 1 ≤ h.w ∧ (∀ e ∈ es, e.2.1 = 0#32) ∧ es ≠ [] ∧
      es.length = h.w ∧ (n ≤ es.length ∧ l.back = (es.drop n).reverse ∧ l.front.length = n ∧
       (∀ k, k < n → l.front[k]? = (((es.take n).drop k).foldr (fun e a => some (match a with | none => e | some y => h.combine e y)) none)) ∧
       l.agg = (es.drop n).foldl (fun a e => some (match a with | none => e | some y => h.combine y e)) none)) ∧
    (∃ (h : WHandle) (l : WLane) (n : Nat) (es : List WElem), h.op ∈ [4, 5, 6] ∧ 1 ≤ h.w ∧ (∀ e ∈ es, e.2.1 = 0#32) ∧ es ≠ [] ∧
      es.length ≠ h.w ∧ (n ≤ es.length ∧ l.back = (es.drop n).reverse ∧ l.front.length = n ∧
       (∀ k, k < n → l.front[k]? = (((es.take n).drop k).foldr (fun e a => some (match a with | none => e | some y => h.combine e y)) none)) ∧
       l.agg = (es.drop n).foldl (fun a e => some (match a with | none => e | some y => h.combine y e)) none)) :=
  ⟨⟨WH 5 3, fold3, 2, es4, by decide +kernel, by decide +kernel, fun e he => eq_of_beq (List.all_eq_true.1 (by decide +kernel : es4.all (fun e => e.2.1 == 0#32) = true) e he), by decide +kernel, by decide +kernel, by decide +kernel, by decide +kernel, by decide +kernel, by decide +kernel, by decide +kernel⟩,
   ⟨WH 5 8, fold3, 2, es4, by decide +kernel, by decide +kernel, fun e he => eq_of_beq (List.all_eq_true.1 (by decide +kernel : es4.all (fun e => e.2.1 == 0#32) = true) e he), by decide +kernel, by decide +kernel, by decide +kernel, by decide +kernel, by decide +kernel, by decide +kernel, by decide +kernel⟩⟩

end C4

/-! ## The premises of the claims about the matrix unit and the windows -/

namespace C5

def R0 (t : Ty) : Resv := { fmt := t, grp := 0, sfmt := 31, size := 16384, scoff := 0, zpoff := 0, off := 0, lbl := 1 }
def mx (P : List Nat) (t : Ty) := let s := lab 1 (fun g => { vreg 2 (fun l => P.getD l 0) 2 g with vregs := (vreg 2 (fun l => P.getD l 0) 2 g).vregs ++ (List.range 48).map (fun i => (i + 8, { lanes := (List.range 32).map (fun l => BitVec.ofNat 32 (i*0x01010101 + l * 0x10203)), lbl := 4#16 })) }); s.setTm { labTeam with banks := ~~~ 0#64, resv := [(3, R0 t)], bankLbl := [(0, 0xF), (1, 0xF)], wmem := (List.range 64).map (fun i => (i*3, BitVec.ofNat 8 (i + 1))) }
def mxt (P : List Nat) (t : Ty) (rows : List (Nat × Nat × Nat)) := let s := mx P t; s.setTm { s.tm with sp := (rows.zipIdx.flatMap (fun r => [(16*r.2, BitVec.ofNat 8 r.1.1), (16*r.2+1, BitVec.ofNat 8 r.1.2.1), (16*r.2+5, BitVec.ofNat 8 (r.1.2.2/256))])).filter (fun e => e.2 != 0) }
def lf (t : Ty) (x : BitVec 2) (h n : Nat) : CFields := { flds with dt := t, x := x, dst := 0, sa := 8, sb := 2, sc := 16, ext := BitVec.ofNat 20 (16*h + 256*(n-1)) }
def gf (t : Ty) (x : BitVec 2) (n : Nat) : CFields := { lf t x 0 n with ext := BitVec.ofNat 20 (256*(n-1)) }
def zf (x : BitVec 2) : CFields := { lf .s8 x 0 1 with sa := 0, sc := 0, ext := 0 }
def cf (t : Ty) (x : BitVec 2) (e : Nat) : CFields := { lf t x 0 1 with dst := 20, sa := 9, sc := 0, ext := BitVec.ofNat 20 e, tk := 5 }
def ms (i : Instr) : CSpec := { role := some 1, imm := match i with | .mxzero _ => some .z32 | _ => none, qa := match i with | .accvt _ => 1 | _ => 0, qb := match i with | .mxgrp _ => 3 | _ => 1, fc := some .mx }
def o0 : Op := { id := 0, fc := none }
def st1 (s : State) (i : Instr) := after (exec (.pitchEntryStart 0 0) (after (exec i s)))
def e0 : MxEntry := { g := 0, op := 0, both := false, caddr := 0, work := .zero }
def hd (s : State) (p : Nat) : MxEntry := (s.tm.pitch p).queue.headD e0
def tl (s : State) (p : Nat) := (s.tm.pitch p).queue.tail
def oo (s : State) (p : Nat) : Op := (s.grp.op (hd s p).op).getD o0
def sl := after (exec (.mxloop (lf .s8 0 3 2)) (mx [0, 8192, 0, 0] .s8))
def sl1 := after (exec (.pitchEntryStart 0 0) sl)
def sl2 := after (exec (.matrixStep 0 0) sl1)
def sl3 := after (exec (.matrixStep 0 0) sl2)
def fl := st1 (mx [0, 16, 0, 1] .f16) (.mxloop (lf .f16 0 3 1))
def sz := let s := mx [0x0] .s8; after (exec (.mxzero (zf 0)) (s.setTm { s.tm with acc := [(3, 7#32), (16383, 7#32), (16384, 9#32)] }))
def sz1 := after (exec (.pitchEntryStart 0 0) sz)
def cvs (t : Ty) (x : BitVec 2) (P : List Nat) (sat : Bool) := let s := (mx P t); let s1 := s.setTm { s.tm with acc := (List.range 300).map (fun i => (i*11 + 256*2, BitVec.ofNat 32 (i*i*77777 + 5))) ++ (List.range 300).map (fun i => (16384 + i*11 + 256*2, BitVec.ofNat 32 (i*i*77777 + 5))), pitches := [(0, {saturated := sat, slbl := 0x20}), (1, {saturated := false, slbl := 0x40})] }; let s2 := after (exec (.accvt (cf t x 8)) s1); after (exec (.pitchEntryStart 0 0) s2)
def lst (s : State) : List Dst := (oo s 0).dsts.tail

theorem meets_MatrixInstructions :
    (∃ (s : State) (f : CFields) (v : Resv) (s1 : State) (r : CRow) (x : CIn),
     Issues (.mxloop f) r { role := some 1, imm := if False then some .z32 else none, qa := 0, qb := 1, fc := some .mx } s x s1 ∧
     let t := s1.tm
     let g := s1.grp
     let P (n : Nat) : Nat := (x.b.at n).toNat
     let ps := if f.x = 0#2 then [0] else if f.x = 1#2 then [1] else [0, 1]
     let loop (ks c : Nat) (rows : Nat → List MxRows) (binc : Int) (flags : Nat) (lbl src : Label) : MxAsk :=
         { ps := ps, x := f.x, t := f.dt, ru := f.ru, abase := f.sa.toNat, inc := f.sc.toNat, n := f.ext.toNat / 256 % 4096 + 1,
           ks := ks, rows := rows, binc := binc, acc := flags == 1, caddr := c, lbl := lbl, src := src }
     (∀ p ∈ ps, p < (s.recOf s.cur).pitches) ∧ s.grp.paths.length ≤ 1 ∧ P 3 ≤ 1 ∧
     t.resv.find (f.ext.toNat / 16 % 16) = some v ∧ pairOk f.dt v.fmt = true ∧
     let a : MxAsk := (loop (stepLen f.dt v.fmt) (P 2) (fun _ => [{ row0 := 0, nrows := 64, hnd := f.ext.toNat / 16 % 16,
                                                                    boff := P 0 }]) (x.b.at 1).toInt (P 3) (x.b.lbl |||
                                                                        x.k) 0#16)
     a.fault t g (s.clr s.cur) = none ∧ a.denied t g = none ∧
     (∀ p ∈ ps, (t.pitch p).queue.length < 8 ∧ (t.pitch p).stopped = false) ∧
     (∀ p ∈ ps, (t.pitch p).latchNext = none → ∀ q ∈ a.aRegs p, g.held 255 [.reg q] = false)) ∧
    (∃ (s : State) (f : CFields) (v : Resv) (s1 : State) (r : CRow) (x : CIn),
     Issues (.mxgrp f) r { role := some 1, imm := if False then some .z32 else none, qa := 0, qb := 3, fc := some .mx } s x s1 ∧
     let t := s1.tm
     let g := s1.grp
     let P (n : Nat) : Nat := (x.b.at n).toNat
     let ps := if f.x = 0#2 then [0] else if f.x = 1#2 then [1] else [0, 1]
     let loop (ks c : Nat) (rows : Nat → List MxRows) (binc : Int) (flags : Nat) (lbl src : Label) : MxAsk :=
         { ps := ps, x := f.x, t := f.dt, ru := f.ru, abase := f.sa.toNat, inc := f.sc.toNat, n := f.ext.toNat / 256 % 4096 + 1,
           ks := ks, rows := rows, binc := binc, acc := flags == 1, caddr := c, lbl := lbl, src := src }
     let es := ((List.range (P 1)).filterMap (fun n => tableRow (t.readSp (P 0 + 16 * n) 16))).filter (fun e => e.1 != 0)
     let tl := t.rangeLabel (P 0) (16 * P 1)
     (∀ p ∈ ps, p < (s.recOf s.cur).pitches) ∧ s.grp.paths.length ≤ 1 ∧ P 3 ≤ 1 ∧ P 0 % 16 = 0 ∧ 1 ≤ P 1 ∧ P 1 ≤ 64 ∧
     P 0 + 16 * P 1 ≤ (s.recOf s.cur).spsize ∧ t.rangeBad (P 0) (16 * P 1) = false ∧
     (∀ n, n < P 1 → (tableRow (t.readSp (P 0 + 16 * n) 16)).isSome) ∧ (es.map (·.1)).foldl (· + ·) 0 ≤ 64 * ps.length ∧
     pairOk f.dt v.fmt = true ∧ es ≠ [] ∧
     (∀ e ∈ es, ∃ y, t.resv.find e.2.1 = some y ∧ y.fmt = v.fmt ∧ y.grp = v.grp ∧ y.sfmt = v.sfmt) ∧
     let a : MxAsk := (loop (stepLen f.dt v.fmt) (P 2) (fun p => rowsOn (if f.x = 2#2 then p else 0) 0 es) (x.b.at
         4).toInt (P 3) ((x.b.lbl ||| x.k) ||| tl) tl)
     a.fault t g (s.clr s.cur) = none ∧ a.denied t g = none ∧
     (∀ p ∈ ps, (t.pitch p).queue.length < 8 ∧ (t.pitch p).stopped = false) ∧
     (∀ p ∈ ps, (t.pitch p).latchNext = none → ∀ q ∈ a.aRegs p, g.held 255 [.reg q] = false)) ∧
    (∃ (s : State) (f : CFields) (s1 : State) (r : CRow) (x : CIn),
     Issues (.mxzero f) r { role := some 1, imm := if True then some .z32 else none, qa := 0, qb := 1, fc := some .mx } s x s1 ∧
     let t := s1.tm
     let P (n : Nat) : Nat := (x.b.at n).toNat
     let ps := if f.x = 0#2 then [0] else if f.x = 1#2 then [1] else [0, 1]
     let tile (c p : Nat) : Nat := if f.x = 2#2 then c + 65536 * p else c
     let c0 := P 0
     (∀ p ∈ ps, p < (s.recOf s.cur).pitches) ∧ s.grp.paths.length ≤ 1 ∧ (∀ p ∈ ps, t.tileFault (tile c0 p) = none) ∧
     (∀ p ∈ ps, LabelIn (x.b.lbl ||| x.k) (t.tileLabel (tile c0 p))) ∧
     (∀ p ∈ ps, (t.pitch p).queue.length < 8 ∧ (t.pitch p).stopped = false)) ∧
    (∃ (s : State) (f : CFields) (s1 : State) (r : CRow) (x : CIn),
     Issues (.accvt f) r { role := some 1, imm := if False then some .z32 else none, qa := 1, qb := 1, fc := some .mx } s x s1 ∧
     let t := s1.tm
     let g := s1.grp
     let P (n : Nat) : Nat := (x.b.at n).toNat
     let ps := if f.x = 0#2 then [0] else if f.x = 1#2 then [1] else [0, 1]
     let tile (c p : Nat) : Nat := if f.x = 2#2 then c + 65536 * p else c
     let c0 := P 0
     let mode := P 3 % 4
     let cover := if mode = 0 then ps.length * P 2 * f.dt.width / 4 else 1
     let cregs : List Dst := (List.range cover).map (fun n => .reg (f.dst.toNat + n))
     (∀ p ∈ ps, p < (s.recOf s.cur).pitches) ∧ P 1 ≤ 63 ∧ 1 ≤ P 2 ∧ P 1 + P 2 ≤ 64 ∧ mode ≠ 3 ∧ P 3 / 512 = 0 ∧
     P 3 / 4 % 64 = 0 ∧ f.dst.toNat + cover ≤ g.nvregs ∧
     (mode = 0 → ∀ p ∈ ps, t.tileFault (tile c0 p) = none ∧ LabelIn (t.tileLabel (tile c0 p)) (s.clr s.cur)) ∧
     (∀ p ∈ ps, (t.pitch p).queue.length < 8 ∧ (t.pitch p).stopped = false) ∧ g.active s.path ≠ 0#32 ∧
     g.held x.qmask cregs = false ∧ s1.readHeld s.cur cregs = false) :=
  ⟨⟨mx [0, 8192, 0, 0] .s8, (lf .s8 0 3 2), (R0 .s8), issues_meet (by decide +kernel)⟩,
   ⟨mxt [0, 2, 0x0, 0, 8192] .s8 [(5,3,0),(6,3,8192)], (gf .s8 0 1), (R0 .s8), issues_meet (by decide +kernel)⟩,
   ⟨mx [0x10000] .s8, (zf 0), issues_meet (by decide +kernel)⟩,
   ⟨mx [0, 2, 4, 0] .s8, (cf .s8 0 8), issues_meet (by decide +kernel)⟩⟩

theorem meets_PitchSteps_1 :
    (∃ (s : State) (tn p : Nat) (e : MxEntry) (es : List MxEntry) (o : Op),
     let t := s.team tn
     let y := t.pitch p
     y.queue = e :: es ∧ e.both = false ∧ t.state = .resident ∧ y.stopped = false ∧ (s.group e.g).op e.op = some o ∧
     e.started = false ∧ (s.group e.g).engineReady o = true) ∧
    (∃ (s : State) (tn p : Nat) (e : MxEntry) (es : List MxEntry) (o : Op) (v : Resv) (ty : Ty) (abase inc n ks ra hnd b : Nat) (binc : Int) (acc : Bool),
     let t := s.team tn
     let y := t.pitch p
     y.queue = e :: es ∧ e.both = false ∧ t.state = .resident ∧ y.stopped = false ∧ (s.group e.g).op e.op = some o ∧
     e.work = .steps ty abase inc n ks ra false [{ row0 := 0, nrows := 64, hnd := hnd, boff := b }] binc acc ∧
     e.started = true ∧ e.latched = false ∧ e.step < n ∧ (s.group e.g).fx = [] ∧ t.resv.find hnd = some v ∧
     t.rowsBad ks binc e.caddr e.step (e.step == 0 && !acc) { row0 := 0, nrows := 64, hnd := hnd, boff := b } = false ∧
     e.caddr % 4 = 0) ∧
    (∃ (s : State) (tn p : Nat) (e : MxEntry) (es : List MxEntry) (o : Op) (ty : Ty) (abase inc n ks ra : Nat) (rows : List MxRows) (binc : Int) (acc : Bool),
     let t := s.team tn
     let y := t.pitch p
     y.queue = e :: es ∧ e.both = false ∧ t.state = .resident ∧ y.stopped = false ∧ (s.group e.g).op e.op = some o ∧
     e.work = .steps ty abase inc n ks ra false rows binc acc ∧ e.started = true ∧ n ≤ e.step) ∧
    (∃ (s : State) (tn p : Nat) (e : MxEntry) (es : List MxEntry) (o : Op),
     let t := s.team tn
     let y := t.pitch p
     y.queue = e :: es ∧ e.both = false ∧ t.state = .resident ∧ y.stopped = false ∧ (s.group e.g).op e.op = some o ∧
     e.work = .zero ∧ e.started = true) :=
  ⟨⟨sl, 0, 0, (hd sl 0), (tl sl 0), (oo sl 0), by decide +kernel⟩,
   ⟨sl1, 0, 0, (hd sl1 0), (tl sl1 0), (oo sl1 0), (R0 .s8), .s8, 8, 16, 2, 32, 16, 3, 0, 8192, false, by decide +kernel⟩,
   ⟨sl3, 0, 0, (hd sl3 0), (tl sl3 0), (oo sl3 0), .s8, 8, 16, 2, 32, 16, [{ row0 := 0, nrows := 64, hnd := 3, boff := 0 }], 8192, false, by decide +kernel⟩,
   ⟨sz1, 0, 0, (hd sz1 0), (tl sz1 0), (oo sz1 0), by decide +kernel⟩⟩

theorem meets_PitchSteps_2 :
    ∃ (a b : Ty),
    a.isInt = true ∧ b ∈ [Ty.f32, .f16, .bf16, .e4m3n, .e5m2n, .e2m1n] :=
  ⟨.s8, .f16, by decide +kernel⟩

theorem meets_ConversionsOfTheArray :
    (∃ (s : State) (tn p : Nat) (ps : List Nat) (e : MxEntry) (o : Op) (d : Nat) (ty st : Ty) (rm : RM) (sat cint : Bool) (row0 nrows mode : Nat) (sc : Word) (ds : List Dst),
     let t := s.team tn
     let k := e.g
     let tiles := ps.map (fun q => ((t.pitch q).queue.map (·.caddr)).headD 0)
     let regs := tiles.length * nrows * ty.width / 4
     t.heads p = some (ps, e) ∧ e.started = true ∧ (∀ q ∈ ps, (t.pitch q).stopped = false) ∧ t.state = .resident ∧
     (s.group k).op e.op = some o ∧ o.dsts = .reg d :: ds ∧ (∀ x ∈ (s.group k).ops, x.fail = none) ∧
     e.work = .cvt ty rm sat row0 nrows mode cint st sc ∧ mode = 0 ∧
     ty ∈ [Ty.s8, .z8, .s16, .z16, .s32, .z32, .f16, .bf16, .f32, .e4m3n, .e5m2n, .e2m1n] ∧ 1 ≤ nrows ∧ d + regs ≤ 768 ∧
     (∀ a ∈ tiles, sectorsBad t.accBad (a + 1024 * row0) (1024 * nrows) = false)) ∧
    (∃ (s : State) (tn p : Nat) (ps : List Nat) (e : MxEntry) (o : Op) (d : Nat) (ty st : Ty) (rm : RM) (sat cint : Bool) (row0 nrows mode : Nat) (sc : Word) (ds : List Dst),
     let t := s.team tn
     let k := e.g
     t.heads p = some (ps, e) ∧ e.started = true ∧ (∀ q ∈ ps, (t.pitch q).stopped = false) ∧ t.state = .resident ∧
     (s.group k).op e.op = some o ∧ o.dsts = .reg d :: ds ∧ (∀ x ∈ (s.group k).ops, x.fail = none) ∧
     e.work = .cvt ty rm sat row0 nrows mode cint st sc ∧ (mode = 1 ∨ mode = 2) ∧ d < 768) :=
  ⟨⟨(cvs .s8 0 [0,2,4,0x100] true), 0, 0, [0], (hd (cvs .s8 0 [0,2,4,0x100] true) 0), (oo (cvs .s8 0 [0,2,4,0x100] true) 0), 20, .s8, .f32, .rne, false, true, 2, 4, 0, ((cvs .s8 0 [0,2,4,0x100] true).grp.vregs.get {} 9).lanes[0]!, (lst (cvs .s8 0 [0,2,4,0x100] true)), by decide +kernel⟩,
   ⟨(cvs .f16 2 [0,2,4,0x1] true), 0, 0, [0,1], (hd (cvs .f16 2 [0,2,4,0x1] true) 0), (oo (cvs .f16 2 [0,2,4,0x1] true) 0), 20, .f16, .f32, .rne, false, false, 2, 4, 1, ((cvs .s8 0 [0,2,4,0x100] true).grp.vregs.get {} 9).lanes[0]!, (lst (cvs .f16 2 [0,2,4,0x1] true)), by decide +kernel⟩⟩

end C5

/-! ## The premises of the claims about trailers, ends and deadlocks -/

namespace C6

def tg (f : Group → Group) := lab 0 (fun g => f { g with quads := g.quads })
def tp (f : Path → Path) (h : Group → Group) := let s := lab 0 h; s.setPath (f s.path)
def ta := tp (fun p => {p with pos := 0x10000, skipn := 1, skipmask := 0xFF, lmask := 0xF}) (fun g => g.mapQuads 3 (fun _ q => { q with tickets := [(2,2),(3,2)], acq := [2, 5] }))
def tao := let s := ta; s.setGrp { s.grp with ops := [{id := 7, fc := some .gx, cslice := true, accs := [{va := 9}]}], nextOp := 8 }
def tw := tp id (fun g => { g.mapQuads 3 (fun _ q => { q with tickets := [(2,1)] }) with fx := [] })
def twp := tp id (fun g => { g with fx := [{qmask := 3, dst := .pred 1, mask := 1, vals := [1], full := true, lbl := 0, left := 2}] })
def sk (l : Label) := tp (fun p => {p with pos := 0x10001, lmask := 0xFFFFFFF}) (fun g => { g with lanes := 30, preds := [(2, ⟨0x300F0F1#32, l⟩)] })
def skf := tp (fun p => {p with pos := 0x10001, pls := (List.range 8).map (fun i => {lbl := 0, pusher := some i})}) (fun g => { g with preds := [(2, ⟨0x300F0F1#32, 1⟩)] })
def sk0 := tp (fun p => {p with pos := 0x10001}) (fun g => { g with preds := [(2, ⟨0#32, 1⟩)] })
def rg := tp (fun p => {p with pos := 0x10001, pls := [{lbl := 3, pusher := some 5}, {lbl := 2, pusher := some 9}], lmask := 5}) (fun g => { g with lanes := 30 })
def rg2 := let s := rg; s.setGrp { s.grp with paths := [(0, {s.path with qmask := 0x0F}), (3, {s.path with qmask := 0xF0})] }
def nx := tp (fun p => {p with pos := 0x10001}) id
def tk (e : RQEntry) (pend : Bool) := let s := tp (fun p => {p with phase := .take}) (fun g => {g with rq := [e], runs := 1}); s.setTm { s.tm with pending := pend }
def rs (nd : Bool) := tp (fun p => {p with phase := .fall, pos := 0x10000, nodrain := nd}) (fun g => {g with temps := [(2, {lanes := [5,5,5,5]})], fx := if nd then [{qmask := 255, dst := .reg 768, mask := 1, vals := [1], full := true, lbl := 0, left := 2}, {qmask := 255, dst := .reg 3, mask := 1, vals := [1], full := true, lbl := 0, left := 2}] else []})
def fw (d : Dst) (full : Bool) : FxWrite := {qmask := 255, dst := d, mask := 0xF0F, vals := (List.range 32).map (fun i => BitVec.ofNat 32 (i*77)), full := full, lbl := 5, left := 1}
def fg := (vreg 3 (fun l => l + 1000) 0x10 (lab 0 id).grp)
def fs (w : FxWrite) := tp (fun p => {p with waitc := 0x106}) (fun g => { vreg 3 (fun l => l + 1000) 0x10 g with fx := [w] })
def en := tp (fun p => {p with phase := .ending, qmask := 8}) (fun g => {(g.mapQuads 0xF7 (fun _ q => {q with st := .ended})) with carv := []})
def al1 (g : Group) : Group := { g.mapQuads 0xFF (fun _ q => {q with st := .ended}) with paths := [] }
def fin := tg (fun g => { al1 g with halted := true })
def unp := tg (fun g => { al1 g with halted := true, saq := [⟨0x50000,0,0,0⟩] })
def stand (s : State) : State := s
def ppd := tg (fun g => { g with await := some (.popca 3#6), ageA := 0, paths := g.paths.map (fun e => (e.1, {e.2 with phase := .parked})) })
def ddl := tp (fun p => {p with phase := .take}) (fun g => { g with await := some (.popca 3#6), rq := [] })
def ald := let s := tg (fun g => { regs [(1, 60, 0)] g with await := some (.alloc 2#6 1#6)}); { s.setTm { s.tm with banks := 0x1FF } with cores := [(0, {allocq := [0]})] }
def age := tg (fun g => { g with ageC := 600, ageA := 700 })
def sst := let s := tg (fun g => {g with await := some (.popca 3#6)}); { s.setTm { s.tm with bell := some 5 } with cycle := 100 }
def sst2 := let s := tg (fun g => {g with lastIssue := 20}); { s.setTm { s.tm with bell := some 5 } with cycle := 100 }
def fwx (s : State) := (s.grp.fx.headD (fw .tilew true))
def fq (d a t : Nat) : CFields := { flds with dst := BitVec.ofNat 10 d, sa := BitVec.ofNat 10 a, tk := BitVec.ofNat 4 t }
def rowOf (i : Instr) : Nat × Nat × CFields × CRow := match i.cForm with | some (c, o, f) => (c, o, f, (cRow c o).getD addRow) | none => (0, 0, flds, addRow)
def badq : LQEntry := { vld := 0x40010, addr := 0, op := 0, poison := some { code := 0x0E, faddr := 5 }, present := false }
def sq : State := lab 1 (fun g => { g with lqs := [(3, { base := 0, entries := [badq] })] })
def stk : State := lab 1 (fun g => g.mapQuads 0x80 (fun _ q => { q with tickets := [(15, 1)] }))
def twa := tp (fun p => { p with phase := .awaiting, trail := some (.trlTake 0x2#15) }) (fun g => { g.mapQuads 3 (fun _ q => { q with tickets := [(2,1)] }) with fx := [] })

theorem meets_PlainTrailers_1 :
    (∃ (s : State) (aw : BitVec 15) (p : Path),
     s.grp.paths.find s.curPath = some p ∧ s.settle s.cur = s ∧
     let ks := ((List.range 15).filter aw.getLsbD).map (· + 1)
     let g := s.grp
     let done := ∀ q ∈ quadSet p.qmask, ∀ k ∈ ks, (g.quad q).ticket k ≠ 1
     let ready := (p.phase = .awaiting ∨ g.predPending p.qmask = false) ∧ done
     ready) ∧
    (∃ (s : State) (aw : BitVec 15) (p : Path),
     s.grp.paths.find s.curPath = some p ∧ s.settle s.cur = s ∧
     let g := s.grp
     ∀ i ∈ [Instr.trlTake aw, .trlFall aw, .trlEnd aw],
       p.phase ≠ .awaiting ∧ g.predPending p.qmask = true) ∧
    (∃ (s : State) (aw : BitVec 15) (p : Path) (i : Instr),
     s.grp.paths.find s.curPath = some p ∧ s.settle s.cur = s ∧
     let ks := ((List.range 15).filter aw.getLsbD).map (· + 1)
     let g := s.grp
     i ∈ [Instr.trlTake aw, .trlFall aw, .trlEnd aw] ∧ p.phase = .awaiting ∧
     (¬ (∀ q ∈ quadSet p.qmask, ∀ k ∈ ks, (g.quad q).ticket k ≠ 1))) ∧
    (∃ (s : State) (aw : BitVec 15) (p : Path),
     s.grp.paths.find s.curPath = some p ∧ s.settle s.cur = s ∧
     let ks := ((List.range 15).filter aw.getLsbD).map (· + 1)
     let g := s.grp
     ∀ i ∈ [Instr.trlTake aw, .trlFall aw, .trlEnd aw],
       p.phase ≠ .awaiting ∧ g.predPending p.qmask = false ∧ (¬ (∀ q ∈ quadSet p.qmask, ∀ k ∈ ks, (g.quad q).ticket k ≠ 1))) :=
  ⟨⟨ta, 0x0#15, ta.path, by decide +kernel⟩,
   ⟨twp, 0x2#15, twp.path, by decide +kernel⟩,
   ⟨twa, 0x2#15, twa.path, .trlTake 0x2#15, by decide +kernel⟩,
   ⟨tw, 0x2#15, tw.path, by decide +kernel⟩⟩

theorem meets_PlainTrailers_2 :
    (∃ (s : State) (aw : BitVec 15) (k : BitVec 3) (p : Path),
     s.grp.paths = [(s.curPath, p)] ∧ s.curPath < 8 ∧ p.skipn = 0 ∧
     let g := s.grp
     s.settle s.cur = s ∧ awaited aw = [] ∧ p.qmask < 256 ∧
     (p.phase = .awaiting ∨ (g.held p.qmask [.pred k.toNat] = false ∧ g.predPending p.qmask = false)) ∧
     let pk := g.pred k.toNat
     let l := topLabel p.pls ||| (pk.lbl ||| g.runLabel p.qmask)
     g.fx = [] ∧ g.lanes ≤ 32 ∧ ¬ LabelIn l (s.ceil s.cur)) ∧
    (∃ (s : State) (aw : BitVec 15) (k : BitVec 3) (p : Path),
     s.grp.paths = [(s.curPath, p)] ∧ s.curPath < 8 ∧ p.skipn = 0 ∧
     let g := s.grp
     s.settle s.cur = s ∧ awaited aw = [] ∧ p.qmask < 256 ∧
     (p.phase = .awaiting ∨ (g.held p.qmask [.pred k.toNat] = false ∧ g.predPending p.qmask = false)) ∧
     let pk := g.pred k.toNat
     let l := topLabel p.pls ||| (pk.lbl ||| g.runLabel p.qmask)
     let room : Prop := p.pls.length < 8 ∨ (p.pls.head?.bind (·.pusher)) = some p.pos
     g.fx = [] ∧ g.lanes ≤ 32 ∧ LabelIn l (s.ceil s.cur) ∧ ¬ room) ∧
    (∃ (s : State) (aw : BitVec 15) (k : BitVec 3) (p : Path),
     s.grp.paths = [(s.curPath, p)] ∧ s.curPath < 8 ∧ p.skipn = 0 ∧
     let g := s.grp
     s.settle s.cur = s ∧ awaited aw = [] ∧ p.qmask < 256 ∧
     (p.phase = .awaiting ∨ (g.held p.qmask [.pred k.toNat] = false ∧ g.predPending p.qmask = false)) ∧
     let pk := g.pred k.toNat
     let l := topLabel p.pls ||| (pk.lbl ||| g.runLabel p.qmask)
     let room : Prop := p.pls.length < 8 ∨ (p.pls.head?.bind (·.pusher)) = some p.pos
     g.fx = [] ∧ g.lanes ≤ 32 ∧ LabelIn l (s.ceil s.cur) ∧ room) :=
  ⟨⟨(sk 0x10), 0, 2#3, (sk 0x10).path, by decide +kernel⟩,
   ⟨skf, 0, 2#3, skf.path, by decide +kernel⟩,
   ⟨(sk 1), 0, 2#3, (sk 1).path, by decide +kernel⟩⟩

theorem meets_RegangParksAndMerges :
    (∃ (s : State) (aw : BitVec 15) (p : Path),
     s.settle s.cur = s ∧ awaited aw = [] ∧ p.skipn = 0 ∧ s.grp.fx = [] ∧
     let g := s.grp
     g.quads.length = 8 ∧ p.phase = .issuing ∧ g.paths = [(s.curPath, p)] ∧ p.pls.length ≤ 8 ∧
     (∀ q ∈ g.unended, bitOf p.qmask q = true ∧ (g.quad q).rqHead = (g.quad (g.unended.headD 0)).rqHead)) ∧
    (∃ (s : State) (aw : BitVec 15) (p x : Path) (m : Nat),
     s.settle s.cur = s ∧ awaited aw = [] ∧ p.skipn = 0 ∧ s.grp.fx = [] ∧
     let g := s.grp
     g.quads.length = 8 ∧ p.phase = .issuing ∧ g.paths = [(s.curPath, p), (m, x)] ∧ s.curPath < m ∧ x.phase = .issuing) :=
  ⟨⟨rg, 0, rg.path, by decide +kernel⟩,
   ⟨rg2, 0, rg2.path, ((rg2.grp.paths.getD 1 (0, rg2.path)).2), 3, by decide +kernel⟩⟩

theorem meets_RunSequence_1 :
    (∃ (s : State) (k p : Nat) (x : Path) (pos : Nat) (rl : Label),
     let g := s.group k
     let moves := s.mayIssue k true = true ∧ g.cstopped = false
     g.paths.find p = some x ∧ x.phase = .take ∧ moves ∧ g.rqEntry x.qmask = some (.run pos rl)) ∧
    (∃ (s : State) (k p : Nat) (x : Path) (h : Hint),
     let g := s.group k
     let moves := s.mayIssue k true = true ∧ g.cstopped = false
     g.paths = [(p, x)] ∧ x.phase = .take ∧ moves ∧ g.rqEntry x.qmask = some (.marker h) ∧
     (s.team (teamOf k)).pending = true) ∧
    (∃ (s : State) (k p : Nat) (x : Path) (h : Hint),
     let g := s.group k
     let moves := s.mayIssue k true = true ∧ g.cstopped = false
     g.paths = [(p, x)] ∧ x.phase = .take ∧ moves ∧ g.rqEntry x.qmask = some (.marker h) ∧
     (s.team (teamOf k)).pending = false) ∧
    (∃ (s : State) (k p : Nat) (x : Path),
     let g := s.group k
     g.paths.find p = some x ∧ x.phase = .fall ∧ s.mayIssue k false = true ∧ g.cstopped = false ∧
     (x.nodrain = true ∨ ∀ w ∈ g.fx, w.qmask &&& x.qmask = 0)) :=
  ⟨⟨(tk (.run 0x10000 3) true), 0, 0, (tk (.run 0x10000 3) true).path, 0x10000, 3, by decide +kernel⟩,
   ⟨(tk (.marker .all) true), 0, 0, (tk (.marker .all) true).path, .all, by decide +kernel⟩,
   ⟨(tk (.marker .all) false), 0, 0, (tk (.marker .all) false).path, .all, by decide +kernel⟩,
   ⟨(rs true), 0, 0, (rs true).path, by decide +kernel⟩⟩

theorem meets_RunSequence_2 :
    (∃ (w : FxWrite) (n j : Nat),
     n < 768 ∧ w.dst = .reg n ∧ j ≠ n) ∧
    (∃ (w : FxWrite) (n l : Nat),
     n < 768 ∧ w.dst = .reg n ∧ l < 32) ∧
    (∃ (w : FxWrite) (n : Nat),
     w.dst = .pred n ∧ n = 0) ∧
    (∃ (w : FxWrite) (n j : Nat),
     w.dst = .pred n ∧ j ≠ n) ∧
    (∃ (w : FxWrite) (n l : Nat),
     w.dst = .pred n ∧ n ≠ 0 ∧ l < 32) ∧
    (∃ (w : FxWrite),
     w.dst = .tilew) ∧
    (∃ (w : FxWrite) (s : State) (k p : Nat) (x : Path),
     (s.group k).paths.find p = some x ∧ (s.group k).fx = [w] ∧ w.qmask &&& x.qmask ≠ 0 ∧ x.waitc ≠ 0) :=
  ⟨⟨(fw (.reg 3) true), 3, 4, by decide +kernel⟩,
   ⟨(fw (.reg 3) true), 3, 31, by decide +kernel⟩,
   ⟨(fw (.pred 0) true), 0, by decide +kernel⟩,
   ⟨(fw (.pred 3) true), 3, 4, by decide +kernel⟩,
   ⟨(fw (.pred 3) true), 3, 31, by decide +kernel⟩,
   ⟨(fw (.tilew) false), by decide +kernel⟩,
   ⟨(fw (.reg 3) true), (fs (fw (.reg 3) true)), 0, 0, (fs (fw (.reg 3) true)).path, by decide +kernel⟩⟩

theorem meets_EndsDeadlocksAndStops :
    (∃ (s : State) (k p q : Nat) (x : Path), (s.group k).paths = [(p, x)] ∧ x.phase = .ending ∧ x.qmask = 2 ^ q ∧
      q < (s.group k).quads.length ∧ (∀ i ∈ List.range 16, ((s.group k).quad q).ticket i ≠ 1) ∧ (s.group k).carv = []) ∧
    (∃ (s : State) (k : Nat),
     let g := s.group k
     let t := s.team (teamOf k)
     g.halted = true ∧ g.unended = [] ∧ g.saq = [] ∧ g.sdq = [] ∧ g.fault = none ∧ g.finished = false ∧ t.state = .resident) ∧
    (∃ (s : State) (k : Nat) (a : SRegNo),
     let g := s.group k
     (g.halted = true ∨ (∃ a i, g.await = some (.vsta a i) ∧ g.sHeld a = false ∧ 16 ≤ g.saq.length)) ∧ g.unended = [] ∧
     s.standsA k = true ∧ g.finished = false ∧ g.saq.isEmpty ≠ g.sdq.isEmpty) ∧
    (∃ (s : State) (k : Nat) (d : SRegNo),
     let g := s.group k
     g.await = some (.popca d) ∧ g.ca = [] ∧ g.sHeld d = false ∧ s.standsA k = true ∧ g.atYield = false ∧
     (∀ e ∈ g.paths, e.2.phase = .parked ∨ e.2.phase = .marker)) ∧
    (∃ (s : State) (k : Nat),
     let g := s.group k
     g.aDeadCode ≠ 0 ∧ s.standsA k = true ∧ g.halted = false ∧ g.cstopped = false ∧
     (∃ e ∈ g.paths, e.2.phase ≠ .parked ∧ e.2.phase ≠ .marker) ∧
     (∀ e ∈ g.paths, e.2.phase = .parked ∨ e.2.phase = .marker ∨ g.cDeadCode e.2 ≠ 0)) ∧
    (∃ (s : State) (k n : Nat) (d a : SRegNo), let g := s.group k
      let t := s.team (teamOf k)
      s.allocWaiters n = [k] ∧ g.await = some (.alloc d a) ∧ (bankList (~~~ s.banksTaken n)).length < (g.sreg a).val.toNat ∧
      s.teams.find (teamOf k) = some t ∧ t.state = .resident ∧ t.core = n ∧ t.banks ≠ 0#64 ∧
      ∀ y ∈ s.groups, y.2.finished = true ∨ ∃ d a, y.2.await = some (.alloc d a)) ∧
    (∃ (s : State) (k : Nat),
     let g := s.group k
     512 ≤ g.ageC) ∧
    (∃ (s : State) (k : Nat),
     let g := s.group k
     512 ≤ g.ageA) ∧
    (∃ (s : State) (k c n : Nat),
     let g := s.group k
     let t := s.team (teamOf k)
     t.bell = some c ∧ n ≤ 48 ∧ c + n ≤ s.cycle ∧ g.lastIssue ≤ c + n ∧ (g.waiting = true → n = g.lastIssue - c) ∧
     (g.astopped = false ∨ g.cstopped = false) ∧ t.state = .resident) :=
  ⟨⟨en, 0, 0, 3, en.path, by decide +kernel⟩,
   ⟨fin, 0, by decide +kernel⟩,
   ⟨unp, 0, 1#6, by decide +kernel⟩,
   ⟨ppd, 0, 3#6, by decide +kernel⟩,
   ⟨ddl, 0, by decide +kernel⟩,
   ⟨ald, 0, 0, 2#6, 1#6, by decide +kernel, by decide +kernel, by decide +kernel, by decide +kernel, by decide +kernel, by decide +kernel, by decide +kernel, all_groups 0 (ald.group 0) rfl (.inr ⟨2#6, 1#6, by decide +kernel⟩)⟩,
   ⟨age, 0, by decide +kernel⟩,
   ⟨age, 0, by decide +kernel⟩,
   ⟨sst, 0, 5, 0, by decide +kernel⟩⟩

theorem meets_RunSequence_3 :
    (∃ (s : State) (f : CFields) (cls op : Nat) (f1 : CFields) (r : CRow), (Instr.vadd f).cForm = some (cls, op, f1) ∧ cRow cls op = some r ∧
      ¬ ((∀ c ∈ r.sources f1, c < s.grp.nvregs ∨ 768 ≤ c) ∧
      (r.slotD f1 ∈ [DSlot.fixedLatency, .vectorOnly, .source] → f1.dst.toNat < s.grp.nvregs ∨ 768 ≤ f1.dst.toNat))) ∧
    (∃ (s : State) (f : CFields) (cls op : Nat) (f1 : CFields) (r : CRow), (Instr.mxzero f).cForm = some (cls, op, f1) ∧ cRow cls op = some r ∧
      ((∀ c ∈ r.sources f1, c < s.grp.nvregs ∨ 768 ≤ c) ∧
      (r.slotD f1 ∈ [DSlot.fixedLatency, .vectorOnly, .source] → f1.dst.toNat < s.grp.nvregs ∨ 768 ≤ f1.dst.toNat)) ∧ s.grp.role ≠ 1 ∧ cls = 6) ∧
    (∃ (s : State) (f : CFields) (cls op : Nat) (f1 : CFields) (r : CRow), (Instr.vadd f).cForm = some (cls, op, f1) ∧ cRow cls op = some r ∧
      ((∀ c ∈ r.sources f1, c < s.grp.nvregs ∨ 768 ≤ c) ∧
      (r.slotD f1 ∈ [DSlot.fixedLatency, .vectorOnly, .source] → f1.dst.toNat < s.grp.nvregs ∨ 768 ≤ f1.dst.toNat)) ∧ (cls = 6 → s.grp.role = 1) ∧ (cls = 7 ∨ cls = 8 → s.grp.role = 2) ∧
      ¬ (f1.tk.toNat = 0 ∨ ∀ q ∈ quadSet s.path.qmask, (s.grp.quad q).ticket f1.tk.toNat = 0)) ∧
    (∃ (s : State) (f : CFields) (cls op : Nat) (f1 : CFields) (r : CRow) (q : Nat) (e : LQEntry) (c : Flt), (Instr.vadd f).cForm = some (cls, op, f1) ∧ cRow cls op = some r ∧
      ((∀ c ∈ r.sources f1, c < s.grp.nvregs ∨ 768 ≤ c) ∧
      (r.slotD f1 ∈ [DSlot.fixedLatency, .vectorOnly, .source] → f1.dst.toNat < s.grp.nvregs ∨ 768 ≤ f1.dst.toNat)) ∧ (cls = 6 → s.grp.role = 1) ∧ (cls = 7 ∨ cls = 8 → s.grp.role = 2) ∧
      (f1.tk.toNat = 0 ∨ ∀ q ∈ quadSet s.path.qmask, (s.grp.quad q).ticket f1.tk.toNat = 0) ∧ s.grp.ops = [] ∧ (∀ e ∈ s.tm.pitches, e.2.queue = []) ∧
      s.grp.popsOf s.path.qmask (r.sources f1) = .poison q e ∧ e.poison = some c ∧ (∀ c, s.pathFull s.cur c = false)) :=
  ⟨⟨lab 1 id, fq 3 64 0, (rowOf (.vadd (fq 3 64 0))).1, (rowOf (.vadd (fq 3 64 0))).2.1, (rowOf (.vadd (fq 3 64 0))).2.2.1, (rowOf (.vadd (fq 3 64 0))).2.2.2, by decide +kernel, rfl, by decide +kernel⟩,
   ⟨lab 0 id, fq 3 1 0, (rowOf (.mxzero (fq 3 1 0))).1, (rowOf (.mxzero (fq 3 1 0))).2.1, (rowOf (.mxzero (fq 3 1 0))).2.2.1, (rowOf (.mxzero (fq 3 1 0))).2.2.2, by decide +kernel, rfl, by decide +kernel⟩,
   ⟨stk, fq 3 1 15, (rowOf (.vadd (fq 3 1 15))).1, (rowOf (.vadd (fq 3 1 15))).2.1, (rowOf (.vadd (fq 3 1 15))).2.2.1, (rowOf (.vadd (fq 3 1 15))).2.2.2, by decide +kernel, rfl, by decide +kernel⟩,
   ⟨sq, fq 3 779 15, (rowOf (.vadd (fq 3 779 15))).1, (rowOf (.vadd (fq 3 779 15))).2.1, (rowOf (.vadd (fq 3 779 15))).2.2.1, (rowOf (.vadd (fq 3 779 15))).2.2.2, 3, badq, { code := 0x0E, faddr := 5 }, by decide +kernel, rfl, by decide +kernel, by decide +kernel, by decide +kernel, by decide +kernel, by decide +kernel, by decide +kernel, by decide +kernel, rfl, fun c => by cases c <;> decide +kernel⟩⟩

end C6

/-! ## The premises of the claims about accesses that complete, engines and frames -/

namespace E1

def oq (f : Op → Op) (mem : State → State) : State := mem (lab 0 (fun g => vreg 3 (fun l => l + 7) 0x40 { g with ops := [f { id := 0, fc := some .gx, cslice := true, quads := 255, run := 1, tk := 3, dsts := [.reg 3], mask := 0x0F, full := false, ety := .s8, lbl := 2 }], nextOp := 1, fcs := [(2, 1)], quads := g.quads.map (fun q => {q with tickets := [(3,1)]}) }))
def la4 (s : State) (n : Nat) (k : AccKind) : List Acc := (List.range 4).map (fun l => s.formAcc 0 { lane := l, va := 0x50000 + n*l, size := n, kind := k, val := 0x80 + l })
def oAcc (s : State) (as : List Acc) := s.setGroup 0 { s.group 0 with ops := (s.group 0).ops.map (fun o => {o with accs := as}) }
def memx (s : State) := s.writeMem 0x50000 [0x7F, 0x80, 0xFF, 0x01, 2, 3]
def Q1 (f : Op → Op) := let s := oq f memx; let s := { s with glbl := [(0x500, 3#16)] }; oAcc s (la4 s 1 .load)
def Q2 (f : Op → Op) := let s := oq f memx; let s := { s with glbl := [(0x500, 3#16)] }; oAcc s (la4 s 4 (.atomic 0 .s32))
def Q3 (l : Label) := let s := oq (fun o => {o with dsts := [], fc := some .st}) memx; let s := { s with glbl := [(0x500, l)] }; oAcc s (la4 s 4 .store)
def pfl (s : State) : Flt := match s.perform 0 (opOf s 0) (fun _ => true) with | .bad f => f | _ => {code := 0}
def A3 (s : State) := (performed s 0)
def dt (got : List (Nat × Nat × Nat × Word)) (l : Label) (n : Nat) := let s := oq (fun o => {o with dsts := [], ety := .f32}) id; let s := { s with glbl := [(0x600, l)], detsets := [(0x60000/32, {n := n, dev := 0, grid := 0, got := got})] }; oAcc s ((List.range 3).map (fun l => { s.formAcc 0 { lane := l, va := 0x60000 + 4*l, size := 4, kind := .contrib, val := 0x3F800000 + l } with done := false, line := false }))
def dsx : DetSet := {n := 0, dev := 0, grid := 0}
def dacc (s : State) (i : Nat) : Acc := ((opOf s 0).accs.getD i {})
def des (s : State) : DetSet := (s.detsets.find (0x60000/32)).getD dsx
def nodet := let s := dt [] 2 3; { s with detsets := [] }
def pc : PortCmd := { opc := 0, sspace := 1, dspace := 1, hnd := 0, notify := false, src := 0x20, dst := 0x28, len := 24, ntfy := 0, pat := 0, st := none, dt := none }
def pz (ph : Nat) (fl : Option Flt) := let s := lab 0 (fun g => {g with ops := [{ id := 0, fc := some .po, run := 0, lbl := 1, data := .port pc ph 0, fail := fl }], nextOp := 1, fcs := [(7, 1)]}); s.setTm { s.tm with sp := (List.range 24).map (fun i => (0x20 + i, BitVec.ofNat 8 (i+3))), spLbl := [(0, 7)] }
def cc : CollCmd := { op := 0, ety := 0, rop := 0, mode := 0, npeer := 2, rank := 0, cid := 0, reddev := 0, src := 0, dst := 0, peers := [0,0], count := 4, gbase := 0, glen := 4, segl := 0, chunk := 2, bar := 0 }
def cz := let s := lab 0 (fun g => {g with ops := [{ id := 0, fc := some .cl, run := 0, lbl := 1, data := .coll cc 2 [] [{chunk := 0, lbl := 0, err := false, made := true}, {chunk := 1, lbl := 0, err := false, made := true}] }], nextOp := 1, fcs := [(8, 1)]}); s
def WH (op w : Nat) : WHandle := { op := op, ty := .z32, rm := .rne, w := w, bank := 1, nb := 1, hc := 3, lanes := [(0, {back := [(7,1,1),(5,2,2)], agg := some (12,3,3), flips := 4})] , stall := 9}
def wu (k : WinKind) (h : List (Nat × WHandle)) (ds : List Dst) := let s := lab 2 (fun g => vreg 3 (fun l => l + 7) 0x40 {g with ops := [{ id := 0, fc := some .wa, cslice := true, quads := 255, run := 1, tk := 3, dsts := ds, mask := 0xF, full := true, data := .window }], nextOp := 1, fcs := [(6, 1)]}); s.setTm { s.tm with banks := 0xFF, whand := h, acc := [(32768, 5), (65536, 6)], wq := [{seq := 0, g := 0, op := 0, handle := 2, k := 0x10, kind := k}], wseq := 1 }
def wop (s : State) : WinOp := s.tm.wq.headD {seq := 0, g := 0, op := 0, handle := 2, k := 0x10, kind := .free}
def k1 : WinKind := .init 3 .f32 .rne 600 4 0x30
def k2 : WinKind := .push 0x3 (List.range 32 |>.map (BitVec.ofNat 32)) (List.range 32 |>.map (BitVec.ofNat 32)) 4 8
def k3 : WinKind := .query 0x3 3 true
def ws0 : List WinOp := []
def wub := let s := wu k2 [(2, WH 0 2)] []; s.setTm { s.tm with accBad := [(32768, true)] }

theorem meets_WindowUnit :
    (∃ (s : State) (tn : Nat) (w : WinOp) (ws : List WinOp) (o : Op) (op : Nat) (ty : Ty) (rm : RM) (n b : Nat) (l : Label),
     let t := s.team tn
     let g := s.group w.g
     let banks (b n : Nat) : List Nat := (List.range n).map (b + ·)
     let free (b : Nat) : Prop := t.banks.getLsbD b = true ∧ ∀ y ∈ t.whand, b < y.2.bank ∨ y.2.bank + y.2.nb ≤ b
     t.wq = w :: ws ∧ g.op w.op = some o ∧ t.state = .resident ∧ (∀ p ∈ g.ops, p.fail = none) ∧
     w.kind = .init op ty rm n b l ∧
     let nb := (n * (if 7 ≤ op then 8 else 4) + 2047) / 2048
     t.whand.find w.handle = none ∧ (∀ x ∈ banks b nb, free x)) ∧
    (∃ (s : State) (tn : Nat) (w : WinOp) (ws : List WinOp) (o : Op) (op : Nat) (ty : Ty) (rm : RM) (n b : Nat) (l : Label) (y : WHandle),
      (s.team tn).wq = w :: ws ∧ (s.group w.g).op w.op = some o ∧ (s.team tn).state = .resident ∧ (∀ p ∈ (s.group w.g).ops, p.fail = none) ∧
      w.kind = .init op ty rm n b l ∧ (s.team tn).whand.find w.handle = some y) ∧
    (∃ (s : State) (tn : Nat) (w : WinOp) (ws : List WinOp) (o : Op),
      (∀ op ty rm n b l, w.kind ≠ .init op ty rm n b l) ∧ (s.team tn).wq = w :: ws ∧ (s.group w.g).op w.op = some o ∧
      (s.team tn).state = .resident ∧ (∀ p ∈ (s.group w.g).ops, p.fail = none) ∧ (s.team tn).whand.find w.handle = none) ∧
    (∃ (s : State) (tn : Nat) (w : WinOp) (ws : List WinOp) (o : Op) (h : WHandle),
     let t := s.team tn
     let g := s.group w.g
     t.wq = w :: ws ∧ g.op w.op = some o ∧ t.state = .resident ∧ (∀ p ∈ g.ops, p.fail = none) ∧
     t.whand.find w.handle = some h ∧ w.kind.reads = true ∧ t.windowBad h = true) ∧
    (∃ (s : State) (tn : Nat) (w : WinOp) (ws : List WinOp) (o : Op) (h : WHandle) (mask : Word) (a c : List Word) (la lc : Label),
     let t := s.team tn
     let g := s.group w.g
     t.wq = w :: ws ∧ g.op w.op = some o ∧ t.state = .resident ∧ (∀ p ∈ g.ops, p.fail = none) ∧
     t.whand.find w.handle = some h ∧ (w.kind.reads = false ∨ t.windowBad h = false) ∧ w.kind = .push mask a c la lc) ∧
    (∃ (s : State) (tn : Nat) (w : WinOp) (ws : List WinOp) (o : Op) (h : WHandle) (mask : Word) (d : Nat) (full : Bool),
     let t := s.team tn
     let g := s.group w.g
     t.wq = w :: ws ∧ g.op w.op = some o ∧ t.state = .resident ∧ (∀ p ∈ g.ops, p.fail = none) ∧
     t.whand.find w.handle = some h ∧ (w.kind.reads = false ∨ t.windowBad h = false) ∧ w.kind = .query mask d full ∧
     d < 768 ∧ g.fx = []) ∧
    (∃ (s : State) (tn : Nat) (w : WinOp) (ws : List WinOp) (o : Op) (h : WHandle) (m : Nat) (l : Label),
     let t := s.team tn
     let g := s.group w.g
     t.wq = w :: ws ∧ g.op w.op = some o ∧ t.state = .resident ∧ (∀ p ∈ g.ops, p.fail = none) ∧
     t.whand.find w.handle = some h ∧ (w.kind.reads = false ∨ t.windowBad h = false) ∧ w.kind = .setw m l ∧
     (m ≤ h.nb * 2048 / (if 7 ≤ h.op then 8 else 4))) ∧
    (∃ (s : State) (tn : Nat) (w : WinOp) (ws : List WinOp) (o : Op) (h : WHandle),
     let t := s.team tn
     let g := s.group w.g
     t.wq = w :: ws ∧ g.op w.op = some o ∧ t.state = .resident ∧ (∀ p ∈ g.ops, p.fail = none) ∧
     t.whand.find w.handle = some h ∧ (w.kind.reads = false ∨ t.windowBad h = false) ∧ w.kind = .free) ∧
    (∃ (s : State) (tn : Nat) (w : WinOp) (ws : List WinOp) (o : Op) (h : WHandle) (mask : Word) (sel d : Nat) (full : Bool),
     let t := s.team tn
     let g := s.group w.g
     t.wq = w :: ws ∧ g.op w.op = some o ∧ t.state = .resident ∧ (∀ p ∈ g.ops, p.fail = none) ∧
     t.whand.find w.handle = some h ∧ (w.kind.reads = false ∨ t.windowBad h = false) ∧ w.kind = .stat mask sel d full ∧
     g.fx = []) :=
  ⟨⟨(wu k1 [] []), 0, (wop (wu k1 [] [])), ws0, (opOf (wu k1 [] []) 0), 3, .f32, .rne, 600, 4, 0x30, by decide +kernel⟩,
   ⟨wu k1 [(2, WH 0 4)] [], 0, wop (wu k1 [] []), ws0, opOf (wu k1 [] []) 0, 3, .f32, .rne, 600, 4, 0x30, WH 0 4, by decide +kernel⟩,
   ⟨wu k2 [] [], 0, wop (wu k2 [] []), ws0, opOf (wu k2 [] []) 0, fun _ _ _ _ _ _ h => WinKind.noConfusion h, by decide +kernel⟩,
   ⟨wub, 0, (wop wub), ws0, (opOf (wu k1 [] []) 0), (WH 0 2), by decide +kernel⟩,
   ⟨(wu k2 [(2, WH 0 2)] []), 0, (wop (wu k2 [] [])), ws0, (opOf (wu k1 [] []) 0), (WH 0 2), 3, (List.range 32 |>.map (BitVec.ofNat 32)), (List.range 32 |>.map (BitVec.ofNat 32)), 4, 8, by decide +kernel⟩,
   ⟨(wu k3 [(2, WH 0 2)] [.reg 3]), 0, (wop (wu k3 [] [])), ws0, (opOf (wu k1 [] [.reg 3]) 0), (WH 0 2), 3, 3, true, by decide +kernel⟩,
   ⟨(wu (.setw 1 0x80) [(2, WH 0 2)] []), 0, (wop (wu (.setw 1 0x80) [] [])), ws0, (opOf (wu k1 [] []) 0), (WH 0 2), 1, 0x80, by decide +kernel⟩,
   ⟨(wu (.free) [(2, WH 0 2)] []), 0, (wop (wu (.free) [] [])), ws0, (opOf (wu k1 [] []) 0), (WH 0 2), by decide +kernel⟩,
   ⟨(wu (.stat 3 2 3 true) [(2, WH 0 2)] [.reg 3]), 0, (wop (wu (.stat 3 2 3 true) [] [])), ws0, (opOf (wu k1 [] [.reg 3]) 0), (WH 0 2), 3, 2, 3, true, by decide +kernel⟩⟩

theorem meets_LaneCompletion_1 :
    (∃ (s s1 : State) (k n d : Nat) (o : Op) (accs : List Acc),
     let g := s1.group k
     Performs s k n o s1 accs ∧ o.cslice = true ∧ o.data = .mem ∧ o.dsts = [.reg d] ∧ d < 768 ∧
     (∀ p ∈ g.ops, p.fail = none)) ∧
    (∃ (s s1 : State) (k n : Nat) (o : Op) (accs : List Acc),
     let g := s1.group k
     Performs s k n o s1 accs ∧ o.cslice = true ∧ o.data = .mem ∧ o.dsts = [] ∧ (∀ p ∈ g.ops, p.fail = none)) ∧
    (∃ (s : State) (k n : Nat) (o : Op) (f : Flt),
     (s.group k).op n = some o ∧ o.doneq = false ∧ o.cslice = true ∧ o.data = .mem ∧ o.fail = none ∧
     (∀ x ∈ o.accs, x.sent = false) ∧ (s.perform k o (fun _ => true) = .bad f)) ∧
    (∃ (s : State) (k n i : Nat) (o : Op) (a : Acc),
     let due (x : Acc) : Prop := x.done = false ∧ x.held = false ∧ x.sent = false ∧ x.chk = false ∧ s.isLocal x = true
     let fits (x : Acc) : Prop := let gl := s.labelOf (localOf x.pa) x.size; LabelIn gl (s.clr k) ∧ LabelIn o.lbl gl
     (s.group k).op n = some o ∧ o.accs[i]? = some a ∧ a.kind = .contrib ∧ a.done = false ∧ a.held = false ∧
     a.sent = false ∧ s.isLocal a = true ∧ (s.group k).mayPerform o a = true ∧
     (a.dup = true → s.holders (a.pa / 32 * 32) = []) ∧ (∃ x ∈ o.accs, due x ∧ ¬ fits x)) ∧
    (∃ (s : State) (k n i : Nat) (o : Op) (a : Acc),
     let la := localOf a.pa
     let due (x : Acc) : Prop := x.done = false ∧ x.held = false ∧ x.sent = false ∧ x.chk = false ∧ s.isLocal x = true
     let fits (x : Acc) : Prop := let gl := s.labelOf (localOf x.pa) x.size; LabelIn gl (s.clr k) ∧ LabelIn o.lbl gl
     (s.group k).op n = some o ∧ o.accs[i]? = some a ∧ a.kind = .contrib ∧ a.done = false ∧ a.held = false ∧
     a.sent = false ∧ s.isLocal a = true ∧ (s.group k).mayPerform o a = true ∧
     (a.dup = true → s.holders (a.pa / 32 * 32) = []) ∧ (∀ x ∈ o.accs, due x → fits x) ∧ s.detsets.find (la / 32) = none) ∧
    (∃ (s : State) (k n i : Nat) (o : Op) (a : Acc) (e : DetSet),
     let key := (s.team (teamOf k)).teamix
     let rank := (s.group k).gidx * 32 + a.lane
     let la := localOf a.pa
     let due (x : Acc) : Prop := x.done = false ∧ x.held = false ∧ x.sent = false ∧ x.chk = false ∧ s.isLocal x = true
     let fits (x : Acc) : Prop := let gl := s.labelOf (localOf x.pa) x.size; LabelIn gl (s.clr k) ∧ LabelIn o.lbl gl
     (s.group k).op n = some o ∧ o.accs[i]? = some a ∧ a.kind = .contrib ∧ a.done = false ∧ a.held = false ∧
     a.sent = false ∧ s.isLocal a = true ∧ (s.group k).mayPerform o a = true ∧
     (a.dup = true → s.holders (a.pa / 32 * 32) = []) ∧ (∀ x ∈ o.accs, due x → fits x) ∧
     s.detsets.find (la / 32) = some e ∧ (∃ c ∈ e.got, c.1 = key ∧ c.2.1 = rank)) ∧
    (∃ (s : State) (k n i : Nat) (o : Op) (a : Acc) (e : DetSet),
     let key := (s.team (teamOf k)).teamix
     let rank := (s.group k).gidx * 32 + a.lane
     let la := localOf a.pa
     let due (x : Acc) : Prop := x.done = false ∧ x.held = false ∧ x.sent = false ∧ x.chk = false ∧ s.isLocal x = true
     let fits (x : Acc) : Prop := let gl := s.labelOf (localOf x.pa) x.size; LabelIn gl (s.clr k) ∧ LabelIn o.lbl gl
     (s.group k).op n = some o ∧ o.accs[i]? = some a ∧ a.kind = .contrib ∧ a.done = false ∧ a.held = false ∧
     a.sent = false ∧ s.isLocal a = true ∧ (s.group k).mayPerform o a = true ∧
     (a.dup = true → s.holders (a.pa / 32 * 32) = []) ∧ (∀ x ∈ o.accs, due x → fits x) ∧
     s.detsets.find (la / 32) = some e ∧ (∀ c ∈ e.got, c.1 ≠ key ∨ c.2.1 ≠ rank) ∧ s.queued la < 2 ^ 20 ∧
     e.got.length + 1 < e.n) ∧
    (∃ (s : State) (k n i : Nat) (o : Op) (a : Acc) (e : DetSet),
     let key := (s.team (teamOf k)).teamix
     let rank := (s.group k).gidx * 32 + a.lane
     let la := localOf a.pa
     let due (x : Acc) : Prop := x.done = false ∧ x.held = false ∧ x.sent = false ∧ x.chk = false ∧ s.isLocal x = true
     let fits (x : Acc) : Prop := let gl := s.labelOf (localOf x.pa) x.size; LabelIn gl (s.clr k) ∧ LabelIn o.lbl gl
     (s.group k).op n = some o ∧ o.accs[i]? = some a ∧ a.kind = .contrib ∧ a.done = false ∧ a.held = false ∧
     a.sent = false ∧ s.isLocal a = true ∧ (s.group k).mayPerform o a = true ∧
     (a.dup = true → s.holders (a.pa / 32 * 32) = []) ∧ (∀ x ∈ o.accs, due x → fits x) ∧
     s.detsets.find (la / 32) = some e ∧ (∀ c ∈ e.got, c.1 ≠ key ∨ c.2.1 ≠ rank) ∧ s.queued la < 2 ^ 20 ∧
     e.n ≤ e.got.length + 1 ∧ s.poisoned (la / 32 * 32) 32 = false ∧ a.line = false) :=
  ⟨⟨(Q1 id), (A3 (Q1 id)).1, 0, 0, 3, (opOf (Q1 id) 0), (A3 (Q1 id)).2, by decide +kernel⟩,
   ⟨(Q3 3), (A3 (Q3 3)).1, 0, 0, (opOf (Q3 3) 0), (A3 (Q3 3)).2, by decide +kernel⟩,
   ⟨(Q3 1), 0, 0, (opOf (Q3 1) 0), (pfl (Q3 1)), by decide +kernel⟩,
   ⟨(dt [] 0 3), 0, 0, 1, (opOf (dt [] 0 3) 0), (dacc (dt [] 0 3) 1), by decide +kernel⟩,
   ⟨nodet, 0, 0, 1, (opOf nodet 0), (dacc nodet 1), by decide +kernel⟩,
   ⟨(dt [(0,1,0x60004,3)] 2 3), 0, 0, 1, (opOf (dt [(0,1,0x60004,3)] 2 3) 0), (dacc (dt [(0,1,0x60004,3)] 2 3) 1), (des (dt [(0,1,0x60004,3)] 2 3)), by decide +kernel⟩,
   ⟨(dt [] 2 3), 0, 0, 1, (opOf (dt [] 2 3) 0), (dacc (dt [] 2 3) 1), (des (dt [] 2 3)), by decide +kernel⟩,
   ⟨(dt [(0,3,0x60004,3),(3,1,0x60004,0x3F800000)] 2 3), 0, 0, 1, (opOf (dt [(0,3,0x60004,3),(3,1,0x60004,0x3F800000)] 2 3) 0), (dacc (dt [(0,3,0x60004,3),(3,1,0x60004,0x3F800000)] 2 3) 1), (des (dt [(0,3,0x60004,3),(3,1,0x60004,0x3F800000)] 2 3)), by decide +kernel⟩⟩

theorem meets_LaneCompletion_2 :
    ∃ (sector : Nat) (got other : List (Nat × Nat × Nat × Word)) (x y : Nat × Nat × Nat × Word),
     (∀ a ∈ got, ∀ b ∈ got, a.1 = b.1 → a.2.1 = b.2.1 → a = b) ∧ got.Nodup ∧ List.Perm got other ∧
     (x.1 < y.1 ∨ (x.1 = y.1 ∧ x.2.1 < y.2.1)) ∧ x.2.2.1 = sector * 32 ∧ y.2.2.1 = sector * 32 :=
  ⟨0, [(0, 0, 0, 0x3F800000#32), (1, 0, 0, 0x40000000#32)], [(1, 0, 0, 0x40000000#32), (0, 0, 0, 0x3F800000#32)], (0, 0, 0, 1#32), (0, 1, 0, 1#32), by decide⟩

theorem meets_EngineCompletion :
    (∃ (s : State) (k n : Nat) (o : Op) (c : PortCmd),
     let t := s.team (teamOf k)
     (s.group k).op n = some o ∧ o.doneq = false ∧ (o.fc = some .po ∨ o.fc = some .cl) ∧ o.cslice = false ∧
     (s.group k).engineReady o = true ∧ (∀ p ∈ (s.group k).ops, p.id ≠ n → p.fail = none) ∧ o.data = .port c 0 0#16 ∧
     o.accs = [] ∧ o.fail = none ∧ c.st = none ∧ c.dt = none ∧ c.opc ≠ 2 ∧ c.sspace = 1 ∧ c.dspace = 1 ∧ c.notify = false ∧
     (∀ i, i < c.len → t.spBad.get false ((c.src + i) / 4) = false ∧ LabelIn (t.rangeLabel (c.src + i) 1) (s.clr k) ∧
         t.marked? (c.dst + i) = false ∧ LabelIn (o.lbl ||| t.rangeLabel (c.src + i) 1) (t.spLabel (c.dst + i)))) ∧
    (∃ (s : State) (k n : Nat) (o : Op) (c : PortCmd),
     (s.group k).op n = some o ∧ o.doneq = false ∧ (o.fc = some .po ∨ o.fc = some .cl) ∧ o.cslice = false ∧
     (s.group k).engineReady o = true ∧ (∀ p ∈ (s.group k).ops, p.id ≠ n → p.fail = none) ∧ o.data = .port c 3 0#16 ∧
     s.asked k o.id = false) ∧
    (∃ (s : State) (k n : Nat) (o : Op) (c : PortCmd) (f : Flt),
     (s.group k).op n = some o ∧ o.doneq = false ∧ (o.fc = some .po ∨ o.fc = some .cl) ∧ o.cslice = false ∧
     (s.group k).engineReady o = true ∧ (∀ p ∈ (s.group k).ops, p.id ≠ n → p.fail = none) ∧ o.data = .port c 1 0#16 ∧
     o.accs = [] ∧ o.fail = some f ∧ f.code ≠ 0x04 ∧ c.st = none ∧ c.dt = none ∧ c.opc ≠ 2 ∧ c.sspace = 1 ∧ c.dspace = 1 ∧
     c.notify = false) ∧
    (∃ (s : State) (k n : Nat) (o : Op) (e : CollCmd) (es : List ChunkEnd),
     (s.group k).op n = some o ∧ o.doneq = false ∧ (o.fc = some .po ∨ o.fc = some .cl) ∧ o.cslice = false ∧
     (s.group k).engineReady o = true ∧ (∀ p ∈ (s.group k).ops, p.id ≠ n → p.fail = none) ∧ o.data = .coll e 2 [] es ∧
     es.length = e.params.chunks ∧ es.all (·.made) = true ∧ s.asked k n = false) :=
  ⟨⟨(pz 0 none), 0, 0, (opOf (pz 0 none) 0), pc, by decide +kernel⟩,
   ⟨(pz 3 none), 0, 0, (opOf (pz 3 none) 0), pc, by decide +kernel⟩,
   ⟨(pz 1 (some {code := 5})), 0, 0, (opOf (pz 1 (some {code := 5})) 0), pc, {code := 5}, by decide +kernel⟩,
   ⟨cz, 0, 0, (opOf cz 0), cc, [{chunk := 0, lbl := 0, err := false, made := true}, {chunk := 1, lbl := 0, err := false, made := true}], by decide +kernel⟩⟩

end E1

/-! ## The premises of the claims about operations and the host -/

namespace E2

def ff (t : FrameType) (l : Label) (addr aux : Nat) (p : List Byte) : Frame := { typ := t, vl := 1, kgen := 0, red := false, opn := 0, dst := 0, src := 1, ctx := 0, lbl := l, tag := 5, addr := BitVec.ofNat 64 addr, aux := BitVec.ofNat 64 aux, payload := p, authentic := true, rsv := 0 }
def S0 := let s := (lab 0 id).writeMem 0x50000 ((List.range 64).map (fun i => BitVec.ofNat 8 (i*5))); { s with glbl := [(0x500, 3#16)], routes := [(1, [0])], ctxs := [(0, { root := 0x10000, devices := [0, 1], epl := [(0, .devices 0 3, 0xFF#16)] })] }
def bad1 := { ff .store 0 0x50000 4 [1,2,3,4] with vl := 6 }
def bad2 := { ff .unlisted 0 0x50000 4 [1,2,3,4] with vl := 1 }
def bad3 := { ff .loadRequest 0 0x50000 4 [1,2,3,4] with kgen := 2 }
def lr := ff .loadRequest 0 0x50024 4 []
def lrx := ff .loadRequest 0 0x90024 4 []
def stf (l : Label) (a : Nat) := ff .store l a 8 [1,2,3,4,5,6,7,8]
def atf (l clr : Label) (op : Nat) := { ff .atomic l 0x50010 7 (bytesOf clr.toNat 2 ++ List.replicate 6 0 ++ bytesOf 9 4) with opn := BitVec.ofNat 8 op }
def no0 (l : Label) (n : Nat) (h : Nat) := ff .notify l 0 (0x20 + 2^20 * 0) (bytesOf n 4 ++ bytesOf 0 4 ++ bytesOf h 64)
def SN := let s := S0; s.setTm ({ s.tm with spMark := [(2, true)] }.setBarrier 0x20 { lbl := 3, err := false, phase := true, arr := 5, exp := 8 })
def gz : Grid := (SN.grids.headD (0, {rec_ := labRec, lrec := 0, ctx := 0, order := 0})).2
def SR (k : AccKind) := let s := S0; { s with tags := [(5, { g := 0, op := 0, k := 1, dev := 1 })], groups := s.groups.map (fun (e : Nat × Group) => (e.1, { e.2 with ops := [{ id := 0, fc := some .gx, cslice := true, quads := 255, run := 1, tk := 3, dsts := [.reg 3], mask := 0x3, lbl := 2, accs := [({done := true} : Acc), {kind := k, va := 0x50014, pa := 2^42 + 0x50014, sent := true, size := 4}] }], nextOp := 1 })) }
def o1 (k : AccKind) : Op := opOf (SR k) 0
def a1 (k : AccKind) : Acc := (o1 k).accs.getD 1 {}
def r0 : TagRef := { g := 0, op := 0, k := 1, dev := 1 }
def rep (t : FrameType) (l : Label) (aux : Nat) (p : List Byte) := { ff t l 0 aux p with vl := 2 }
def rz : TagRef := { g := 0, op := 0, k := 0, dev := 0 }
def D1 := { S0 with dupMap := [(2^26 + 5, 6)] }
def du := ff .dupUpdate 4 0x50020 8 [9,8,7,6,5,4,3,2]
def duN := ff .dupUpdate 4 0x70020 8 [9,8,7,6,5,4,3,2]
def dw (ws : List Nat) (r : Option Frame) : DupWait := { tag := 5, g := 2^40, op := 0, k := 0, waiting := ws, reply := r, pa := 0x50000, n := 4 }
def DW (ws : List Nat) (r : Option Frame) := { S0 with dupWaits := [dw ws r], tags := [(5, { g := 2^40, op := 0, k := 0, dev := 0 })] }
def sx (ws : List Nat) (p : Option Nat) : Shoot := { ctx := 0, base := 4, npg := 2, sentAt := 0, parent := p, root := 0, waiting := ws, count := 1 }
def TL : List Tlb := [{ ctx := 0, page := 4, leaf := 0, level := 0, cache := 0 }, { ctx := 0, page := 6, leaf := 0, level := 0, cache := 0 }, { ctx := 1, page := 4, leaf := 0, level := 0, cache := 0 }, { ctx := 0, page := 0, leaf := 0, level := 1, cache := 0 }]
def STT := { S0 with tlb := TL }
def iv := { ff .invalidation 0 4 2 (bytesOf 1 2) with src := 1 }
def STd := { STT with ctxs := [(0, { root := 0x10000, devices := [0, 1, 2, 3] })], routes := [(1, [0]), (2,[0]), (3,[0])] }
def SS (ws : List Nat) (p : Option Nat) := { S0 with shoots := [sx ws p], cycle := 10000000, routes := [(1, [0]), (2,[0])] }
def ia := { ff .invalidationAck 0 4 1 (bytesOf 2 8) with vl := 2 }
def fn := ff .fenceNotice 0 1 0 []
def FT := { SR .load with cycle := 6000000 }
def one := { STT with ctxs := [(0, { root := 0x10000, devices := [0] })] }
def LN : Line := { tag := 3, slot := 64, overflow := true }
def SL := { S0 with lines := [(0x50000/128, LN)] }
def DWt := { DW [1] (some lr) with cycle := 6000000, routes := [(1,[0])] }
def STO := { S0 with tags := [(5, { g := noGroup, op := 0, k := 7, dev := 1 })] }

theorem meets_RepliesAtTheSender_1 :
    (∃ (s : State) (f : Frame), f.dst = s.devn ∧ s.accepts f = true ∧ s.tags.find f.tag = none ∧ f.typ = .ack) ∧
    (∃ (s : State) (f : Frame) (r : TagRef),
     f.dst = s.devn ∧ s.accepts f = true ∧ s.tags.find f.tag = some r ∧ r.dev = f.src ∧ r.g = noGroup ∧
     f.typ = .loadReply ∧ f.payload ≠ []) ∧
    (∃ (s : State) (f : Frame) (r : TagRef) (o : Op) (a : Acc),
     let g := s.group r.g
     f.dst = s.devn ∧ s.accepts f = true ∧ s.tags.find f.tag = some r ∧ r.dev = f.src ∧ r.g ≠ noGroup ∧
     g.op r.op = some o ∧ o.accs[r.k]? = some a ∧ f.typ = .loadReply ∧ f.payload ≠ []) ∧
    (∃ (s : State) (f : Frame) (r : TagRef) (o : Op) (a : Acc),
     let g := s.group r.g
     f.dst = s.devn ∧ s.accepts f = true ∧ s.tags.find f.tag = some r ∧ r.dev = f.src ∧ r.g ≠ noGroup ∧
     g.op r.op = some o ∧ o.accs[r.k]? = some a ∧ f.typ = .loadReply ∧ f.payload = []) ∧
    (∃ (s : State) (f : Frame) (r : TagRef) (o : Op) (a : Acc),
     let g := s.group r.g
     f.dst = s.devn ∧ s.accepts f = true ∧ s.tags.find f.tag = some r ∧ r.dev = f.src ∧ r.g ≠ noGroup ∧
     g.op r.op = some o ∧ o.accs[r.k]? = some a ∧ f.typ = .ack) ∧
    (∃ (s : State) (f : Frame) (r : TagRef) (o : Op) (a : Acc),
     let g := s.group r.g
     f.dst = s.devn ∧ s.accepts f = true ∧ s.tags.find f.tag = some r ∧ r.dev = f.src ∧ r.g ≠ noGroup ∧
     g.op r.op = some o ∧ o.accs[r.k]? = some a ∧ f.typ = .atomicReply ∧ 2 ≤ f.payload.length) ∧
    (∃ (s : State) (f : Frame) (r : TagRef) (o : Op) (a : Acc),
     let g := s.group r.g
     f.dst = s.devn ∧ s.accepts f = true ∧ s.tags.find f.tag = some r ∧ r.dev = f.src ∧ r.g ≠ noGroup ∧
     g.op r.op = some o ∧ o.accs[r.k]? = some a ∧ f.typ = .atomicReply ∧ f.payload = []) ∧
    (∃ (s : State) (f : Frame) (r : TagRef) (o : Op) (a : Acc),
     let g := s.group r.g
     f.dst = s.devn ∧ s.accepts f = true ∧ s.tags.find f.tag = some r ∧ r.dev = f.src ∧ r.g ≠ noGroup ∧
     g.op r.op = some o ∧ o.accs[r.k]? = some a ∧ f.typ = .rejection) :=
  ⟨⟨S0, rep .ack 0 0 [], by decide +kernel⟩,
   ⟨STO, (rep .loadReply 4 0 [1]), { g := noGroup, op := 0, k := 7, dev := 1 }, by decide +kernel⟩,
   ⟨(SR .load), (rep .loadReply 4 0 ((List.range 32).map (BitVec.ofNat 8))), r0, (o1 .load), (a1 .load), by decide +kernel⟩,
   ⟨(SR .load), (rep .loadReply 4 0 []), r0, (o1 .load), (a1 .load), by decide +kernel⟩,
   ⟨(SR .store), (rep .ack 4 0 []), r0, (o1 .store), (a1 .store), by decide +kernel⟩,
   ⟨(SR (.atomic 0 .s32)), (rep .atomicReply 4 0 [1,2,3,4,5,6,7,8]), r0, (o1 (.atomic 0 .s32)), (a1 (.atomic 0 .s32)), by decide +kernel⟩,
   ⟨(SR (.atomic 0 .s32)), (rep .atomicReply 4 0xE []), r0, (o1 (.atomic 0 .s32)), (a1 (.atomic 0 .s32)), by decide +kernel⟩,
   ⟨(SR (.atomic 0 .s32)), (rep .rejection 0x100 1 []), r0, (o1 (.atomic 0 .s32)), (a1 (.atomic 0 .s32)), by decide +kernel⟩⟩

theorem meets_DuplicatesShootdownsAndFences :
    (∃ (s : State) (f : Frame),
     let la := f.addr.toNat % 2 ^ 42
     f.dst = s.devn ∧ s.accepts f = true ∧ f.typ = .dupUpdate ∧ s.dupMap.find (f.src * 2 ^ 26 + la / 65536) = none) ∧
    (∃ (s : State) (f : Frame) (fr : Nat),
     let la := f.addr.toNat % 2 ^ 42
     let copy := fr * 65536 + la % 65536
     let bs := f.payload.take (f.aux.toNat % 512)
     f.dst = s.devn ∧ s.accepts f = true ∧ f.typ = .dupUpdate ∧ s.dupMap.find (f.src * 2 ^ 26 + la / 65536) = some fr ∧
     bs ≠ [] ∧ copy % 128 + bs.length ≤ 128 ∧ f.aux.toNat / 512 % 2 = 0 ∧ s.lines.find (copy / 128) = none) ∧
    (∃ (s : State) (f : Frame) (w : DupWait),
     f.dst = s.devn ∧ s.accepts f = true ∧ f.typ = .dupAck ∧ s.dupWaits = [w] ∧ w.tag = f.tag ∧ f.src ∈ w.waiting ∧
     (∃ d ∈ w.waiting, d ≠ f.src)) ∧
    (∃ (s : State) (f : Frame) (w : DupWait) (y : Frame),
     f.dst = s.devn ∧ s.accepts f = true ∧ f.typ = .dupAck ∧ s.dupWaits = [w] ∧ w.tag = f.tag ∧ w.waiting = [f.src] ∧
     w.reply = some y ∧ s.dieQ = []) ∧
    (∃ (s : State) (f : Frame),
     f.dst = s.devn ∧ s.accepts f = true ∧ f.typ = .invalidation ∧ s.drained f.ctx f.addr.toNat f.aux.toNat = true) ∧
    (∃ (s : State) (f : Frame) (x : Shoot),
     f.dst = s.devn ∧ s.accepts f = true ∧ f.typ = .invalidationAck ∧ s.shoots = [x] ∧ x.ctx = f.ctx ∧
     x.base = f.addr.toNat ∧ x.npg = fieldAt f.payload 0 8 ∧ x.waiting = [f.src] ∧ x.parent = none ∧
     (((s.ctx x.ctx).devices.filter (fun d => !s.fenced.contains d)).length ≤ x.count + f.aux.toNat)) ∧
    (∃ (s : State) (f : Frame) (x : Shoot) (d : Nat),
     f.dst = s.devn ∧ s.accepts f = true ∧ f.typ = .invalidationAck ∧ s.shoots = [x] ∧ x.ctx = f.ctx ∧
     x.base = f.addr.toNat ∧ x.npg = fieldAt f.payload 0 8 ∧ x.waiting = [f.src] ∧ x.parent = some d) ∧
    (∃ (s : State) (f : Frame),
     f.dst = s.devn ∧ s.accepts f = true ∧ f.typ = .fenceNotice ∧ f.addr.toNat ≠ s.devn ∧ f.addr.toNat ∉ s.fenced ∧
     s.dupWaits = [] ∧ s.shoots = []) ∧
    (∃ (s : State) (ctx base npg : Nat),
     s.drained ctx base npg = true ∧ ((s.ctx ctx).devices = [] ∨ (s.ctx ctx).devices = [s.devn])) ∧
    (∃ (s : State) (x : Shoot) (dev : Nat),
     s.shoots = [x] ∧ x.waiting = [dev] ∧ x.sentAt + s.shootTimeout ≤ s.cycle ∧ dev ≠ s.devn ∧ dev ∉ s.fenced ∧
     s.dupWaits = []) ∧
    (∃ (s : State) (r : TagRef) (tag : Nat),
     s.tags.find tag = some r ∧ r.dev ≠ s.devn ∧ r.sentAt + 5400000 ≤ s.cycle ∧ r.dev ∉ s.fenced ∧ s.dupWaits = [] ∧
     s.shoots = []) ∧
    (∃ (s : State) (w : DupWait) (r : TagRef) (tag dev : Nat),
     s.dupWaits = [w] ∧ w.tag = tag ∧ w.waiting = [dev] ∧ s.tags.find tag = some r ∧ r.sentAt + 5400000 ≤ s.cycle ∧
     dev ≠ s.devn ∧ dev ∉ s.fenced ∧ w.reply.isSome ∧ s.shoots = [] ∧ s.dieQ = []) ∧
    (∃ (s : State) (m cx va : Nat) (st : Bool),
     (∀ e ∈ s.tlb, e.cache ≠ m)) ∧
    (∃ (s : State) (n : Nat) (l : Line),
     s.lines.find n = some l ∧ l.overflow = true ∧ s.dieQ = []) :=
  ⟨⟨D1, duN, by decide +kernel⟩,
   ⟨D1, du, 6, by decide +kernel⟩,
   ⟨(DW [1,2] none), (rep .dupAck 0 0 []), (dw [1,2] none), by decide +kernel⟩,
   ⟨(DW [1] (some lr)), (rep .dupAck 0 0 []), (dw [1] (some lr)), lr, by decide +kernel⟩,
   ⟨STT, iv, by decide +kernel⟩,
   ⟨(SS [1] none), ia, (sx [1] none), by decide +kernel⟩,
   ⟨(SS [1] (some 2)), ia, (sx [1] (some 2)), 2, by decide +kernel⟩,
   ⟨FT, fn, by decide +kernel⟩,
   ⟨one, 0, 4, 2, by decide +kernel⟩,
   ⟨(SS [1] none), (sx [1] none), 1, by decide +kernel⟩,
   ⟨FT, r0, 5, by decide +kernel⟩,
   ⟨DWt, (dw [1] (some lr)), { g := 2^40, op := 0, k := 0, dev := 0 }, 5, 1, by decide +kernel⟩,
   ⟨STT, 3, 0, 0x40000, false, by decide +kernel⟩,
   ⟨SL, (0x50000/128), LN, by decide +kernel⟩⟩

theorem meets_RepliesAtTheSender_2 :
    ∃ (s : State) (f : Frame), f.dst = s.devn ∧ f.typ = .store ∧
     ¬ (f.typ ≠ .unlisted ∧ f.vl ≤ 5 ∧ f.payload.length ≤ 256 ∧ f.clean = true ∧ f.authentic = true) :=
  ⟨S0, bad1, by decide +kernel⟩

theorem meets_RequestsAtTheTarget :
    (∃ (s : State) (f : Frame),
     let la := f.addr.toNat % 2 ^ 42
     f.dst = s.devn ∧ s.accepts f = true ∧ f.typ = .loadRequest ∧ s.owners.find (la / 65536) = some f.ctx ∧
     s.poisoned (la / 32 * 32) 32 = false) ∧
    (∃ (s : State) (f : Frame),
     let la := f.addr.toNat % 2 ^ 42
     f.dst = s.devn ∧ s.accepts f = true ∧ f.typ = .loadRequest ∧ s.owners.find (la / 65536) ≠ some f.ctx) ∧
    (∃ (s : State) (f : Frame),
     let la := f.addr.toNat % 2 ^ 42
     let n := f.aux.toNat % 512
     let bs := f.payload.take n
     let one (m : Nat) := la % 2 ^ 16 + m ≤ 2 ^ 16 ∧ la % 256 + m ≤ 256 ∧ la % 128 + m ≤ 128
     f.dst = s.devn ∧ s.accepts f = true ∧ f.typ = .store ∧ one bs.length ∧ bs ≠ [] ∧
     s.owners.find (la / 65536) ≠ some f.ctx) ∧
    (∃ (s : State) (f : Frame),
     let la := f.addr.toNat % 2 ^ 42
     let n := f.aux.toNat % 512
     let bs := f.payload.take n
     let gl := s.labelAt la
     let one (m : Nat) := la % 2 ^ 16 + m ≤ 2 ^ 16 ∧ la % 256 + m ≤ 256 ∧ la % 128 + m ≤ 128
     f.dst = s.devn ∧ s.accepts f = true ∧ f.typ = .store ∧ one bs.length ∧ bs ≠ [] ∧
     s.owners.find (la / 65536) = some f.ctx ∧ ¬ LabelIn f.lbl gl) ∧
    (∃ (s : State) (f : Frame),
     let la := f.addr.toNat % 2 ^ 42
     let n := f.aux.toNat % 512
     let bs := f.payload.take n
     let gl := s.labelAt la
     let one (m : Nat) := la % 2 ^ 16 + m ≤ 2 ^ 16 ∧ la % 256 + m ≤ 256 ∧ la % 128 + m ≤ 128
     f.dst = s.devn ∧ s.accepts f = true ∧ f.typ = .store ∧ one bs.length ∧ bs ≠ [] ∧
     s.owners.find (la / 65536) = some f.ctx ∧ LabelIn f.lbl gl ∧ f.aux.toNat / 512 % 2 = 0 ∧
     s.lines.find (la / 128) = none ∧ s.holders (s.devn * 2 ^ 42 + la) = []) ∧
    (∃ (s : State) (f : Frame) (fn : Nat),
     let la := f.addr.toNat % 2 ^ 42
     let gl := s.labelAt la
     let one (m : Nat) := la % 2 ^ 16 + m ≤ 2 ^ 16 ∧ la % 256 + m ≤ 256 ∧ la % 128 + m ≤ 128
     f.dst = s.devn ∧ s.accepts f = true ∧ f.typ = .atomic ∧ isHost la = false ∧ f.opn = BitVec.ofNat 8 fn ∧ fn ≤ 9 ∧
     one 4 ∧ s.owners.find (la / 65536) = some f.ctx ∧
     let clr : Label := BitVec.ofNat 16 (fieldAt f.payload 0 2)
     LabelIn gl clr ∧ LabelIn f.lbl gl ∧ s.lines.find (la / 128) = none ∧ s.poisoned la 4 = false ∧
     s.holders (s.devn * 2 ^ 42 + la) = []) ∧
    (∃ (s : State) (f : Frame) (fn : Nat),
     let la := f.addr.toNat % 2 ^ 42
     let gl := s.labelAt la
     let one (m : Nat) := la % 2 ^ 16 + m ≤ 2 ^ 16 ∧ la % 256 + m ≤ 256 ∧ la % 128 + m ≤ 128
     f.dst = s.devn ∧ s.accepts f = true ∧ f.typ = .atomic ∧ isHost la = false ∧ f.opn = BitVec.ofNat 8 fn ∧ fn ≤ 9 ∧
     one 4 ∧ s.owners.find (la / 65536) = some f.ctx ∧
     let clr : Label := BitVec.ofNat 16 (fieldAt f.payload 0 2)
     ¬ (LabelIn gl clr ∧ LabelIn f.lbl gl)) ∧
    (∃ (s : State) (f : Frame),
     f.dst = s.devn ∧ s.accepts f = true ∧ f.typ = .notify ∧
     let hash : BitVec 512 := BitVec.ofNat 512 (fieldAt f.payload 8 64)
     (∀ e ∈ s.grids, ¬ (e.2.admitted = true ∧ e.2.retired = false ∧ e.2.ctx = f.ctx ∧ e.2.hash = hash))) ∧
    (∃ (s : State) (f : Frame) (gr : Nat) (x : Grid) (t : Nat),
     f.dst = s.devn ∧ s.accepts f = true ∧ f.typ = .notify ∧
     let hash : BitVec 512 := BitVec.ofNat 512 (fieldAt f.payload 8 64)
     let off := f.aux.toNat % 2 ^ 20
     let y := s.team t
     let b := y.barrier off
     s.grids = [(gr, x)] ∧ x.admitted = true ∧ x.retired = false ∧ x.ctx = f.ctx ∧ x.hash = hash ∧ s.teams = [(t, y)] ∧
     y.grid = gr ∧ y.teamix = f.aux.toNat / 2 ^ 20 % 2 ^ 32 ∧ y.teamix < x.rec_.n ∧ y.state = .resident ∧
     f.aux.toNat / 2 ^ 52 % 4 = 0 ∧ off % 16 = 0 ∧ off + 16 ≤ x.rec_.spsize ∧ y.marked? off = true ∧ LabelIn f.lbl b.lbl) ∧
    (∃ (s : State) (f : Frame) (gr : Nat) (x : Grid) (t : Nat),
     f.dst = s.devn ∧ s.accepts f = true ∧ f.typ = .notify ∧
     let hash : BitVec 512 := BitVec.ofNat 512 (fieldAt f.payload 8 64)
     let off := f.aux.toNat % 2 ^ 20
     let y := s.team t
     let b := y.barrier off
     s.grids = [(gr, x)] ∧ x.admitted = true ∧ x.retired = false ∧ x.ctx = f.ctx ∧ x.hash = hash ∧ s.teams = [(t, y)] ∧
     y.grid = gr ∧ y.teamix = f.aux.toNat / 2 ^ 20 % 2 ^ 32 ∧ y.teamix < x.rec_.n ∧ y.state = .resident ∧
     f.aux.toNat / 2 ^ 52 % 4 = 0 ∧ off % 16 = 0 ∧ off + 16 ≤ x.rec_.spsize ∧ y.marked? off = true ∧ ¬ LabelIn f.lbl b.lbl) :=
  ⟨⟨S0, lr, by decide +kernel⟩,
   ⟨S0, lrx, by decide +kernel⟩,
   ⟨S0, (stf 5 0x90010), by decide +kernel⟩,
   ⟨S0, (stf 5 0x50010), by decide +kernel⟩,
   ⟨S0, (stf 1 0x50010), by decide +kernel⟩,
   ⟨S0, (atf 1 3 0), 0, by decide +kernel⟩,
   ⟨S0, (atf 1 1 9), 9, by decide +kernel⟩,
   ⟨SN, (no0 1 3 7), by decide +kernel⟩,
   ⟨SN, (no0 1 3 0), 0, gz, 0, by decide +kernel⟩,
   ⟨SN, (no0 4 3 0), 0, gz, 0, by decide +kernel⟩⟩

end E2

/-! ## The premises of the claims about grids, teams, saving and firmware -/

namespace E3

def img (s : State) (t : Nat) (i : List Byte) : State := s.setTeam t { s.team t with image := i }
theorem deviceRead_img (s : State) (t : Nat) (i : List Byte) (c v n : Nat) : (img s t i).landed.deviceRead c v n = s.landed.deviceRead c v n := by
  unfold State.deviceRead
  have : (img s t i).landed.deviceReadPiece = s.landed.deviceReadPiece := rfl
  rw [this]
theorem readImage_img (s : State) (t : Nat) (i : List Byte) : (img s t i).readImage t = s.readImage t := by
  unfold State.readImage
  have h : (img s t i).team t = { s.team t with image := i } := by simp [img]
  have h2 : (img s t i).blockAddr t = s.blockAddr t := by unfold State.blockAddr; rw [h]; rfl
  rw [deviceRead_img, h2, h]; rfl
def ff (t : FrameType) (l : Label) (addr aux : Nat) (p : List Byte) : Frame := { typ := t, vl := 1, kgen := 0, red := false, opn := 0, dst := 0, src := 1, ctx := 0, lbl := l, tag := 5, addr := BitVec.ofNat 64 addr, aux := BitVec.ofNat 64 aux, payload := p, authentic := true, rsv := 0 }
def c0 : Ctx := { root := 0x10000, devices := [0, 1], epl := [(0, .devices 0 3, 0xFF#16)] }
def S0 := let s := (lab 0 id); { s with routes := [(1, [0])], ctxs := [(0, c0)], owners := (20, 1) :: s.owners }
def c1 : Ctx := { c0 with cur := 3, prev := none }
def S1 := { S0 with ctxs := [(0, c1)] }
def fst : Frame := ff .contribution 0 7 0 (record 64 [(4,2,2)])
def prt := ff .contribution 3 (7 + 2^32*1) 1 (bytesOf 0 4 ++ bytesOf 0 4 ++ bytesOf 5 4 ++ bytesOf 6 4)
def cmb := ff .combined 3 (7 + 2^32*1) 2 (bytesOf 0 4 ++ bytesOf 0 4 ++ bytesOf 5 4 ++ bytesOf 6 4)
def cc : CollCmd := { op := 0, ety := 6, rop := 0, mode := 0, npeer := 2, rank := 0, cid := 7, reddev := 1, src := 0, dst := 0, peers := [0,1], count := 128, gbase := 0, glen := 128, segl := 0, chunk := 64, bar := 0 }
def SC := let s := S0; { s with groups := s.groups.map (fun (e : Nat × Group) => (e.1, { e.2 with ops := [{ id := 0, fc := some .cl, run := 1, data := .coll cc 2 [] [] }], nextOp := 1 })) }
def rch := ff .resultChunk 3 (7 + 2^32*1) 0 (bytesOf 0 4 ++ bytesOf 0 4 ++ bytesOf 0 4 ++ bytesOf 6 4)
def red : Reducer := { ctx := 0, cid := 7, got := [⟨1,0,0,1,[5,6],0,false⟩, ⟨2,0,0,1,[7,8],0,false⟩], firsts := [(1, {op:=0,ety:=6,rop:=0,mode:=0,npeer:=2,rank:=0,count:=4,gbase:=0,glen:=4,segl:=0,chunk:=2}),(2, {op:=0,ety:=6,rop:=0,mode:=0,npeer:=2,rank:=1,count:=4,gbase:=0,glen:=4,segl:=0,chunk:=2})] }
def pp : CollParams := {op:=0,ety:=Ty.s32.code,rop:=0,mode:=0,npeer:=2,rank:=0,count:=4,gbase:=0,glen:=4,segl:=0,chunk:=2}
def co (s : State) : Op := opOf s 0
def bad2 := { prt with kgen := 1 }
def na := { prt with authentic := false }
-- grids and teams
def G0 : Grid := { rec_ := labRec, lrec := 0x50000, ctx := 0, order := 0, admitted := true, nextTeam := 1 }
def sAdm (l : Label) := let s := lab 0 id; { s with grids := [(0, { G0 with admitted := false, nextTeam := 0, rec_ := {labRec with kbank := 0x50000} })], glbl := [(0x500, l)], teams := [], groups := [] }
def sPl := let s := lab 0 id; { s with grids := [(0, { G0 with nextTeam := 1, rec_ := {labRec with ctxsz := 1, leases := labRec.leases} })] }
def agt := let s := lab 0 id; { s.setTm { s.tm with state := .saved, savedAt := 5 } with cycle := 400000000 }
def agr := let s := lab 0 id; { s.setTm { s.tm with state := .resident, resumed := true, resumedAt := 5 } with cycle := 400000000 }
-- faults
def flr : FaultRec := { flt := {code := 5, sub := 2}, cslice := false, fpos := 0, fcycle := 3 }
def bell (sig : Nat) (ge : Bool) := let s := lab 0 (fun g => { vreg 3 (fun l => l) 2 g with fault := some flr, astopped := true, cstopped := true }); let s := s.setTm { s.tm with bell := some 0, first := some (5, 2, 0), sp := [(5, 7)] }; { s with cycle := 100, grids := [(0, { G0 with gend := ge, blocks := [0], rec_ := {labRec with fltsig := sig} })] }
def flt1 (d : Nat) := let s := lab 0 id; { s.setTm { s.tm with state := .faulted } with grids := [(0, { G0 with blocks := [0] })] }.writeMem 0x70001 [BitVec.ofNat 8 d]
def fin := let s := lab 0 (fun g => { g with finished := true, halted := true, paths := [] }); { s with grids := [(0, { G0 with blocks := [0] })] }
def gret := let s := lab 0 id; { s.setTm { s.tm with state := .retired } with grids := [(0, { G0 with nextTeam := 4, nfail := 2, code := 5, rec_ := {labRec with status := 0x50200, donesig := 0} })], detsets := [(5, {n := 3, dev := 0, grid := 0}), (6, {n := 3, dev := 0, grid := 9})] }
def tx (s : State) := s.team 0
def rg : Group := (bell 0 false).group 0
-- saving
def pend (y : Bool) := let s := lab 0 (fun g => { vreg 3 (fun l => l+1) 2 (vreg 5 (fun l => l+9) 2 g) with atYield := y, hint := some (.inline 8#64) }); { s.setTm { s.tm with pending := true, marked := 0, sp := [(5, 7)] } with grids := [(0, { G0 with blocks := [0] })], cycle := 10000000 }
def svb : State := let s := (lab 0 id).writeMem 0x30040 (bytesOf (tableEntry 0 8 3) 8); { s.setTm { s.tm with state := .saved } with grids := [(0, { G0 with blocks := [0], rec_ := { labRec with ctxsz := 3 } })] }
def savd : State := img svb 0 (svb.readImage 0)
theorem img_image (s : State) (t : Nat) (i : List Byte) : ((img s t i).team t).image = i := by simp [img]
theorem img_self (s : State) (t : Nat) : (img s t (s.readImage t)).readImage t = ((img s t (s.readImage t)).team t).image := by
  rw [readImage_img, img_image]
def bsv : State := img svb 0 (svb.readImage 0 ++ [0#8])
theorem bsv_image : bsv.readImage 0 ≠ (bsv.team 0).image := by
  unfold bsv; rw [readImage_img, img_image]; simp
theorem savd_image : savd.readImage 0 = (savd.team 0).image := img_self svb 0
def busy := let s := pend false; s.setGroup 0 { s.group 0 with ops := [{ id := 0, fc := some .mx, cslice := true, data := .matrix }], nextOp := 1 }
-- firmware
def ri : ResetInfo := { caps := [0, 100000000, 500000000000, 0, 600000000000, 0], devn := 3, routes := [(1, [0])], ctx := 9, root := 0x20000, image := [(0x100, [1,2,3])], record := 0x40000 }
def eb (o : Nat) : List Byte := record 768 [(0,4,0x52444E45),(4,2,1),(0x10,1,o)]
def e0 : EndorseRec := ⟨eb 1⟩
def e1 : EndorseRec := ⟨record 768 [(0,4,0x52444E45),(4,2,1),(0x10,1,1),(0x14,4,5),(0x18,8,9)]⟩
def ow : Owner := { key := 5, exponent := 65537, okh := 0 }
def SF (c : Ctx) := { S0 with ctxs := [(0, c)] }
def cow : Ctx := { c0 with owners := [(1, { key := 5, exponent := 65537, okh := 0 })] }
def full2 (s : State) : State := { s with teams := [(0, { labTeam with grid := 0, core := 0 }), (1, { labTeam with grid := 0, core := 72, teamix := 1 })], grids := [(0, {G0 with nextTeam := 4, rec_ := { labRec with prio := 0 }}), (1, {G0 with nextTeam := 0, rec_ := {labRec with prio := 3, cw := 8, ch := 9, ctxn := 72}, order := 1})] }
def xlat (s : State) (va : Nat) : Xlat := match s.translate 0 va true with | some a => a | none => { pa := 0, ord := 0, w := false, line := false, det := false, dup := false }
def sAway := let s := (sAdm 0).writeMem 0x30040 (bytesOf (tableEntry 0 (2^26 + 8) 3) 8); { s with grids := [(0, { G0 with admitted := false, nextTeam := 0, rec_ := {labRec with kbank := 0x80000} })], routes := [(1, [0])] }
def S2L := { S0 with reducers := [{ ctx := 0, cid := 7, late := [prt.src], sent := [(0, prt.src)] }] }
theorem find_replicate (n : Nat) : Tab.find (List.replicate n ((1, 0) : Nat × Nat)) 0 = none := by
  induction n with
  | zero => rfl
  | succ n ih => rw [List.replicate_succ]; exact ih
theorem dup_full (n : Nat) (s : State) : n ≤ ({ s with dupMap := List.replicate n (1, 0) } : State).dupMap.length := by simp
def SH (c : Ctx) : State := { SF c with hostMem := [(2 ^ 63, 5)] }
def oneEp : Endpoint × Label := (.devices 0 3, 0xFF#16)
def homePages (s : State) (c va n : Nat) : Bool :=
  (va :: (List.range ((n - (65536 - va % 65536) + 65535) / 65536)).map (fun i => va + (65536 - va % 65536) + 65536 * i)).all (fun p =>
    match s.translate c p false with | some x => devOf (s.loadPa x) == s.devn | none => true)
theorem missing_home {s : State} {c va n : Nat} (h : homePages s c va n = true) : s.missing c [(va, n)] = [] := by
  have e : s.sectorsAway c va n = [] := by
    unfold State.sectorsAway
    refine List.flatMap_eq_nil_iff.2 fun p hp => ?_
    have hm := (List.mem_filter.1 hp).1
    have hp : (match s.translate c p.1 false with | some x => devOf (s.loadPa x) == s.devn | none => true) = true := by
      unfold homePages at h
      refine List.all_eq_true.1 h p.1 ?_
      simp only [pageCuts, List.length_replicate, List.mem_cons, List.mem_map, List.mem_range] at hm ⊢
      rcases hm with rfl | ⟨i, hi, rfl⟩
      · exact .inl rfl
      · exact .inr ⟨i, hi, rfl⟩
    split
    · rename_i x hx; simp only [hx] at hp; simp [beq_iff_eq.1 hp]
    · rfl
  simp [State.missing, State.spansAway, e]
theorem missing_far {s : State} {c va n : Nat} {x : Xlat} (hn : n ≠ 0) (ht : s.translate c va false = some x) (hr : s.ownReads = [])
    (hd : (devOf (s.loadPa x) == s.devn || s.fenced.contains (devOf (s.loadPa x))) = false) : s.missing c [(va, n)] ≠ [] := by
  intro h
  have hp : (va, (List.replicate n 0#8).take (65536 - va % 65536)) ∈ (pageCuts va (List.replicate n 0#8)).filter (fun p => !p.2.isEmpty) := by
    refine List.mem_filter.2 ⟨List.mem_cons_self .., ?_⟩
    have : 0 < 65536 - va % 65536 := by omega
    simp only [Bool.not_eq_true', List.isEmpty_eq_false_iff, ne_eq, List.take_eq_nil_iff, List.replicate_eq_nil_iff]; omega
  have hs : ((s.loadPa x) / 32 + 0, va / 65536) ∈ s.spansAway c [(va, n)] := by
    unfold State.spansAway
    rw [List.mem_eraseDups]
    refine List.mem_flatMap.2 ⟨_, List.mem_singleton.2 rfl, ?_⟩
    unfold State.sectorsAway
    refine List.mem_flatMap.2 ⟨_, hp, ?_⟩
    simp only [ht]
    have hd' : (decide (devOf (s.loadPa x) = s.devn) || s.fenced.contains (devOf (s.loadPa x))) = false := hd
    rw [hd']
    exact List.mem_map.2 ⟨0, List.mem_range.2 (by omega), rfl⟩
  have hm : ((s.loadPa x) / 32 + 0, va / 65536) ∈ s.missing c [(va, n)] := List.mem_filter.2 ⟨hs, by rw [hr]; rfl⟩
  rw [h] at hm; exact absurd hm List.not_mem_nil
def xlatR (s : State) (va : Nat) : Xlat := (s.translate 0 va false).getD { pa := 0, ord := 0, w := false, line := false, det := false, dup := false }
def far (s : State) : State := { s.writeMem 0x30038 (bytesOf (tableEntry 1 7 3) 8) with routes := [(1, [0])] }
def far8 (s : State) : State := { s.writeMem 0x30040 (bytesOf (tableEntry 1 8 3) 8) with routes := [(1, [0])] }

theorem meets_CollectiveFrames :
    (∃ (s : State) (f : Frame) (c : Ctx),
     let n := f.aux.toNat % 65536
     let ok := f.dst = s.devn ∧ f.vl ≤ 5 ∧ f.payload.length ≤ 256 ∧ f.clean = true ∧ s.ctxs.find f.ctx = some c
     ok ∧ f.authentic = true ∧ c.accepts f.kgen = true ∧ s.reducers = [] ∧ f.typ = .contribution ∧ n = 0 ∧
     2 ≤ (readParams f.payload).npeer) ∧
    (∃ (s : State) (f : Frame) (c : Ctx),
     let n := f.aux.toNat % 65536
     let ok := f.dst = s.devn ∧ f.vl ≤ 5 ∧ f.payload.length ≤ 256 ∧ f.clean = true ∧ s.ctxs.find f.ctx = some c
     ok ∧ f.authentic = true ∧ c.accepts f.kgen = true ∧ s.reducers = [] ∧ f.typ = .contribution ∧ n ≠ 0) ∧
    (∃ (s : State) (f : Frame) (c : Ctx),
     let ok := f.dst = s.devn ∧ f.vl ≤ 5 ∧ f.payload.length ≤ 256 ∧ f.clean = true ∧ s.ctxs.find f.ctx = some c
     ok ∧ f.authentic = true ∧ c.accepts f.kgen = true ∧ s.reducers = [] ∧ f.typ = .combined) ∧
    (∃ (s : State) (f : Frame) (c : Ctx),
     let ok := f.dst = s.devn ∧ f.vl ≤ 5 ∧ f.payload.length ≤ 256 ∧ f.clean = true ∧ s.ctxs.find f.ctx = some c
     ok ∧ c.accepts f.kgen = false ∧ f.typ = .contribution ∧ s.reducers = [] ∧ f.src ≠ s.devn) ∧
    (∃ (s : State) (f : Frame) (c : Ctx),
     let cid := f.addr.toNat % 2 ^ 32
     let chunk := f.addr.toNat / 2 ^ 32
     let n := f.aux.toNat % 65536
     let ok := f.dst = s.devn ∧ f.vl ≤ 5 ∧ f.payload.length ≤ 256 ∧ f.clean = true ∧ s.ctxs.find f.ctx = some c
     ok ∧ f.authentic = true ∧ c.accepts f.kgen = true ∧ f.typ = .contribution ∧ n = 1 ∧ chunk ≠ 0 ∧
     2 ≤ (readBrief f).npeer ∧ s.reducers = [{ ctx := f.ctx, cid := cid, late := [f.src], sent := [(0, f.src)] }]) ∧
    (∃ (s : State) (f : Frame) (c : Ctx),
     let ok := f.dst = s.devn ∧ f.vl ≤ 5 ∧ f.payload.length ≤ 256 ∧ f.clean = true ∧ s.ctxs.find f.ctx = some c
     ok ∧ f.authentic = false ∧ c.accepts f.kgen = true ∧ f.typ = .contribution) ∧
    (∃ (s : State) (f : Frame),
     let cid := f.addr.toNat % 2 ^ 32
     f.dst = s.devn ∧ s.accepts f = true ∧ f.typ = .resultChunk ∧ s.collOp f.ctx cid = none) ∧
    (∃ (s : State) (f : Frame) (k : Nat) (o : Op) (e : CollCmd) (ps : List Piece),
     let cid := f.addr.toNat % 2 ^ 32
     let chunk := f.addr.toNat / 2 ^ 32
     let piece : Piece := { chunk := chunk, start := fieldAt f.payload 0 4, words := partWords f.payload, lbl := f.lbl }
     f.dst = s.devn ∧ s.accepts f = true ∧ f.typ = .resultChunk ∧ s.collOp f.ctx cid = some (k, o) ∧
     (s.group k).op o.id = some o ∧ o.data = .coll e 2 ps [] ∧ chunk < e.params.chunks ∧ fieldAt f.payload 8 4 = 0 ∧
     chunkWhole (ps ++ [piece]) chunk (e.params.range chunk).2 = false) ∧
    (∃ (r : Reducer) (p : CollParams) (i j : Nat),
     let got := r.at_ i j
     p.op = 0 ∧ p.rop = 0 ∧ p.ety ∈ [Ty.s32.code, Ty.z32.code] ∧
     (List.Perm (got.map (fun x => r.rankOf x.src)) (List.range p.npeer))) :=
  ⟨⟨S0, fst, c0, by decide +kernel⟩,
   ⟨S0, prt, c0, by decide +kernel⟩,
   ⟨S0, cmb, c0, by decide +kernel⟩,
   ⟨S1, fst, c1, by decide +kernel⟩,
   ⟨S2L, prt, c0, by decide +kernel⟩,
   ⟨S0, na, c0, by decide +kernel⟩,
   ⟨S0, rch, by decide +kernel⟩,
   ⟨SC, rch, 0, (co SC), cc, [], by decide +kernel⟩,
   ⟨red, pp, 0, 1, by decide +kernel⟩⟩

theorem meets_AdmissionAndPlacement :
    (∃ (s : State) (gr : Nat),
     let y := s.grid gr
     let r := y.rec_
     let away := r.admitSpans.flatMap (fun p => s.sectorsAway y.ctx p.1 p.2)
     y.admitted = false ∧ y.retired = false ∧ y.gend = false ∧ s.leasesIn y = true ∧
     (∃ e ∈ away, s.ownReads.find (e.1 * 2 ^ 16 + y.ctx) = none) ∧ (∀ e ∈ s.tags, e.2.g ≠ noGroup ∨ e.2.op ≠ 0)) ∧
    (∃ (s : State) (gr : Nat),
     let y := s.grid gr
     let r := y.rec_
     let away := r.admitSpans.flatMap (fun p => s.sectorsAway y.ctx p.1 p.2)
     y.admitted = false ∧ y.retired = false ∧ y.gend = false ∧ s.leasesIn y = true ∧
     (∀ e ∈ away, s.ownReads.find (e.1 * 2 ^ 16 + y.ctx) ≠ none)) ∧
    (∃ (s : State) (gr c : Nat),
     s.isWaiting (.next gr) = true ∧ s.isNext (.next gr) = true ∧ s.placeFor (.next gr) = some [c] ∧
     s.teams.find s.teams.length = none) ∧
    (∃ (s : State) (gr : Nat) (vs : List Nat) (u : Waiting),
     s.needsRoom gr = some u ∧ s.cheapest u = some vs) ∧
    (∃ (s : State) (t : Nat),
     let tm := s.team t
     tm.state = .saved ∧ tm.savedAt + 270000000 ≤ s.cycle) ∧
    (∃ (s : State) (t : Nat),
     let tm := s.team t
     tm.state = .resident ∧ tm.resumed = true ∧ tm.resumedAt + 27000000 ≤ s.cycle) :=
  ⟨⟨sAway, 0, by decide +kernel⟩,
   ⟨(sAdm 0), 0, by decide +kernel⟩,
   ⟨sPl, 0, 72, by decide +kernel⟩,
   ⟨(full2 sPl), 1, (((full2 sPl).cheapest (.next 1)).getD []), (.next 1), by decide +kernel⟩,
   ⟨agt, 0, by decide +kernel⟩,
   ⟨agr, 0, by decide +kernel⟩⟩

theorem meets_FaultedAndFinishedTeams_1 :
    (∃ (s : State) (t : Nat),
      let x := s.team t
      let y := s.grid x.grid
      let img := [(s.blockAddr t + 0x10000, y.rec_.savesz)]
      (x.state = .resident ∧ x.bell.isSome ∧ s.stopped t = true ∧ s.rests t = true ∧ y.gend = false) ∧ s.missing y.ctx img ≠ []) ∧
    (∃ (s : State) (t : Nat),
      let x := s.team t
      let y := s.grid x.grid
      let img := [(s.blockAddr t + 0x10000, y.rec_.savesz)]
      (x.state = .resident ∧ x.bell.isSome ∧ s.stopped t = true ∧ s.rests t = true ∧ y.gend = false ∧ y.rec_.fltsig ≠ 0) ∧ s.missing y.ctx img = []) ∧
    (∃ (s : State) (t : Nat),
      let x := s.team t
      let y := s.grid x.grid
      let img := [(s.blockAddr t + 0x10000, y.rec_.savesz)]
      (x.state = .resident ∧ x.bell.isSome ∧ s.stopped t = true ∧ s.rests t = true ∧ y.gend = false ∧ y.rec_.fltsig = 0) ∧ s.missing y.ctx img = []) ∧
    (∃ (s : State) (t : Nat),
     let x := s.team t
     let y := s.grid x.grid
     x.state = .resident ∧ x.bell.isSome ∧ s.stopped t = true ∧ s.rests t = true ∧ y.gend = true) ∧
    (∃ (s : State) (t : Nat),
     let x := s.team t
     let y := s.grid x.grid
     let dsp := [(s.blockAddr t + 1, 1)]
     x.state = .faulted ∧ s.missing y.ctx dsp ≠ []) ∧
    (∃ (s : State) (t : Nat),
     let x := s.team t
     let y := s.grid x.grid
     let disp := ofBytes (s.deviceRead y.ctx (s.blockAddr t + 1) 1)
     let dsp := [(s.blockAddr t + 1, 1)]
     x.state = .faulted ∧ s.missing y.ctx dsp = [] ∧ disp = 1) ∧
    (∃ (s : State) (t : Nat),
     let x := s.team t
     let y := s.grid x.grid
     let disp := ofBytes (s.deviceRead y.ctx (s.blockAddr t + 1) 1)
     let dsp := [(s.blockAddr t + 1, 1)]
     x.state = .faulted ∧ s.missing y.ctx dsp = [] ∧ disp = 2) ∧
    (∃ (s : State) (t : Nat),
     let x := s.team t
     let y := s.grid x.grid
     let disp := ofBytes (s.deviceRead y.ctx (s.blockAddr t + 1) 1)
     let dsp := [(s.blockAddr t + 1, 1)]
     x.state = .faulted ∧ s.missing y.ctx dsp = [] ∧ disp = 3 ∧ (s.teams.map (·.1)).Nodup) ∧
    (∃ (s : State) (t : Nat),
     let x := s.team t
     let y := s.grid x.grid
     let disp := ofBytes (s.deviceRead y.ctx (s.blockAddr t + 1) 1)
     let dsp := [(s.blockAddr t + 1, 1)]
     x.state = .faulted ∧ s.missing y.ctx dsp = [] ∧ (disp = 0 ∨ 3 < disp)) ∧
    (∃ (s : State) (t : Nat), (∀ e ∈ s.groups, teamOf e.1 = t → e.2.finished = true ∧ ∀ o ∈ e.2.ops, o.doneq = true ∨
       ∃ a b c, o.data = .fence a b c) ∧ (s.team t).state = .resident ∧ (s.team t).bell = none ∧ (s.team t).drained = true ∧
      (∀ p ∈ (s.team t).pitches, p.2.queue = [])) ∧
    (∃ (s : State) (gr : Nat),
     let z := s.grid gr
     (s.grids.find gr).isSome ∧ z.retired = false ∧
     (∀ e ∈ s.teams, e.2.grid = gr → e.2.state = .retired ∨ e.2.state = .ended) ∧
     (z.gend = true ∨ (z.admitted = true ∧ z.nextTeam = z.rec_.n))) ∧
    (∃ (s : State) (ctx va : Nat) (a : Xlat),
     va ≠ 0 ∧ s.translate ctx va true = some a ∧ devOf a.pa = s.devn ∧ a.line = false ∧ a.dup = false ∧ s.dieQ = []) :=
  ⟨⟨far8 (bell 0x50100 false), 0, by decide +kernel, missing_far (x := xlatR (far8 (bell 0x50100 false)) 0x80000) (by decide +kernel) (by decide +kernel) rfl (by decide +kernel)⟩,
   ⟨bell 0x50100 false, 0, by decide +kernel, missing_home (by decide +kernel)⟩,
   ⟨bell 0 false, 0, by decide +kernel, missing_home (by decide +kernel)⟩,
   ⟨(bell 0x50100 true), 0, by decide +kernel⟩,
   ⟨(far (flt1 1)), 0, by decide +kernel⟩,
   ⟨(flt1 1), 0, by decide +kernel⟩,
   ⟨(flt1 2), 0, by decide +kernel⟩,
   ⟨(flt1 3), 0, by decide +kernel⟩,
   ⟨(flt1 0), 0, by decide +kernel⟩,
   ⟨fin, 0, all_groups 0 _ rfl (fun _ => ⟨rfl, fun o ho => absurd ho List.not_mem_nil⟩), by decide +kernel⟩,
   ⟨gret, 0, by decide +kernel⟩,
   ⟨fin, 0, 0x50200, xlat fin 0x50200, by decide +kernel⟩⟩

theorem meets_FaultedAndFinishedTeams_2 :
    (∃ (s : State) (t : Nat),
      let x := s.team t
      let y := s.grid x.grid
      let img := [(s.blockAddr t + 0x10000, y.rec_.savesz)]
      (x.state = .resident ∧ x.pending = true ∧ x.bell = none ∧ (∀ e ∈ s.groups, teamOf e.1 = t → e.2.finished = true ∨ e.2.atYield = true) ∧ s.rests t = true) ∧ s.missing y.ctx img = []) ∧
    (∃ (s : State) (t : Nat),
      let x := s.team t
      let y := s.grid x.grid
      let img := [(s.blockAddr t + 0x10000, y.rec_.savesz)]
      (x.state = .resident ∧ x.pending = true ∧ x.bell = none ∧ 
        x.marked + (if y.rec_.deadline = 0 then 2000 else y.rec_.deadline) * 2700 ≤ s.cycle ∧ s.rests t = true) ∧ s.missing y.ctx img = []) ∧
    (∃ (s : State) (t : Nat),
     let x := s.team t
     let y := s.grid x.grid
     let limit := x.marked + (if y.rec_.deadline = 0 then 2000 else y.rec_.deadline) * 2700
     x.state = .resident ∧ x.pending = true ∧ x.bell = none ∧ limit ≤ s.cycle ∧ s.rests t = false) ∧
    (∃ (s : State) (t c : Nat) (cs : List Nat),
      let x := s.team t
      let y := s.grid x.grid
      let img := [(s.blockAddr t + 0x10000, y.rec_.savesz)]
      (s.isWaiting (.saved t) = true ∧ s.isNext (.saved t) = true ∧ s.placeFor (.saved t) = some (c :: cs)) ∧
      s.missing y.ctx img ≠ []) ∧
    (∃ (s : State) (t c : Nat) (cs : List Nat),
      let x := s.team t
      let y := s.grid x.grid
      let img := [(s.blockAddr t + 0x10000, y.rec_.savesz)]
      (s.isWaiting (.saved t) = true ∧ s.isNext (.saved t) = true ∧ s.placeFor (.saved t) = some (c :: cs)) ∧
      s.missing y.ctx img = [] ∧ s.readImage t = x.image) ∧
    (∃ (s : State) (t c : Nat) (cs : List Nat),
      let x := s.team t
      let y := s.grid x.grid
      let img := [(s.blockAddr t + 0x10000, y.rec_.savesz)]
      (s.isWaiting (.saved t) = true ∧ s.isNext (.saved t) = true ∧ s.placeFor (.saved t) = some (c :: cs)) ∧
      s.missing y.ctx img = [] ∧ s.readImage t ≠ x.image) :=
  ⟨⟨pend true, 0, by decide +kernel, missing_home (by decide +kernel)⟩,
   ⟨pend true, 0, by decide +kernel, missing_home (by decide +kernel)⟩,
   ⟨busy, 0, by decide +kernel⟩,
   ⟨far8 svb, 0, 0, [], by decide +kernel, missing_far (x := xlatR (far8 svb) 0x80000) (by decide +kernel) (by decide +kernel) rfl (by decide +kernel)⟩,
   ⟨savd, 0, 0, [], by decide +kernel, missing_home (by decide +kernel), savd_image⟩,
   ⟨bsv, 0, 0, [], by decide +kernel, missing_home (by decide +kernel), bsv_image⟩⟩

theorem meets_FaultedAndFinishedTeams_3 :
    ∃ (g : Group) (r : FaultRec),
    g.fault = some r :=
  ⟨rg, flr, by decide +kernel⟩

theorem meets_FirmwareActs_1 :
    (∃ (r : ResetInfo),
     1024 ≤ r.devn) ∧
    (∃ (r : ResetInfo),
     r.devn < 1024) ∧
    (∃ (s : State) (ctx slot : Nat) (c : Ctx),
     s.ctxs.find ctx = some c ∧ slot < 16 ∧ c.owners.find slot = none) ∧
    (∃ (s : State) (ctx slot : Nat) (c : Ctx),
     s.ctxs.find ctx = some c ∧ c.owners.find slot ≠ none) ∧
    (∃ (s : State) (e : EndorseRec) (i : Nat),
     s.recordFails e = some i) ∧
    (∃ (s : State) (e : EndorseRec) (c : Ctx) (w : Owner), e.form = true ∧ s.ctxs.find e.ctx = some c ∧
      c.owners.find e.owner = some w ∧ w.okh = e.okh ∧ (∀ n, c.serials.find e.owner = some n → n < e.serial) ∧
      (e.budget = 0 → (e.owner, e.codeh) ∈ c.endorsed) ∧ (e.budget ≠ 0 → ∀ y ∈ s.cores, (s.endorseLeft y.1 e).length < 64)) ∧
    (∃ (e : EndorseRec),
     e.form = false) ∧
    (∃ (s : State),
     s.missing s.stewardSpans.1 s.stewardSpans.2 = []) ∧
    (∃ (s : State),
     s.dbgu = true) ∧
    (∃ (s : State) (ctx : Nat),
     s.dbgu = false ∧ s.ctxs.find ctx = none) ∧
    (∃ (s : State) (ctx : Nat) (c : Ctx),
     s.ctxs.find ctx = some c ∧ c.prev = none) ∧
    (∃ (s : State) (ctx : Nat) (c : Ctx),
     s.ctxs.find ctx = some c ∧ c.prev ≠ none ∧ c.sendGen ≠ c.cur ∧ s.stalled = []) ∧
    (∃ (s : State) (ctx : Nat) (c : Ctx),
     s.ctxs.find ctx = some c ∧ c.prev ≠ none ∧ c.sendGen = c.cur) ∧
    (∃ (s : State) (base n : Nat),
     n ≠ 0 ∧ (∀ i, i < n → s.frameExists (base + i) = true)) ∧
    (∃ (gs : List Nat),
     gs.sum ≤ 3400000) ∧
    (∃ (gs : List Nat),
     3400000 < gs.sum) :=
  ⟨⟨{ ri with devn := 1024 }, by decide +kernel⟩,
   ⟨ri, by decide +kernel⟩,
   ⟨(SF cow), 0, 3, cow, by decide +kernel⟩,
   ⟨(SF cow), 0, 1, cow, by decide +kernel⟩,
   ⟨(SF cow), ⟨eb 2⟩, 3, by decide +kernel⟩,
   ⟨SF cow, e1, cow, ow, by decide +kernel, by decide +kernel, by decide +kernel, by decide +kernel, (fun n h => nomatch (show (none : Option Nat) = some n from h)), by decide +kernel, fun _ y hy => absurd hy (by rw [show (SF cow).cores = [] from rfl]; exact List.not_mem_nil)⟩,
   ⟨⟨[5]⟩, by decide +kernel⟩,
   ⟨(SF cow), by decide +kernel⟩,
   ⟨{ (SF cow) with dbgu := true }, by decide +kernel⟩,
   ⟨(SF cow), 7, by decide +kernel⟩,
   ⟨(SF cow), 0, cow, by decide +kernel⟩,
   ⟨(SF {cow with prev := some 0, cur := 1}), 0, {cow with prev := some 0, cur := 1}, by decide +kernel⟩,
   ⟨(SF {cow with prev := some 0, cur := 1, sendGen := 1}), 0, {cow with prev := some 0, cur := 1, sendGen := 1}, by decide +kernel⟩,
   ⟨(SF cow), 100, 2, by decide +kernel⟩,
   ⟨[5,6], by decide +kernel⟩,
   ⟨[5,3500000], by decide +kernel⟩⟩

theorem meets_FirmwareActs_3 :
    (∃ (s : State) (ctx slot : Nat) (c : Ctx),
     s.ctxs.find ctx = some c ∧ slot < 32) ∧
    (∃ (s : State) (ctx : Nat),
     s.ctxs.find ctx = none) ∧
    (∃ (s : State) (home : Nat),
     ((s.dupMap.find home).isSome ∨ s.dupMap.length < 65536)) ∧
    (∃ (s : State) (home : Nat), s.dupMap.find home = none ∧ 65536 ≤ s.dupMap.length) ∧
    (∃ (n m : Nat),
     n < Config.cores ∧ m < 0x1000) ∧
    (∃ (n : Nat),
     n < 6) ∧
    (∃ (s : State) (bus : Nat) (bs : List Byte) (b : Nat),
     s.memOk ∧ Memory.wf s.hostMem = true ∧ (∀ y ∈ s.hostMem, y.1 < 2 ^ 64 ∧ 2 ^ 37 ≤ s.hostOff y.1) ∧
     bus + bs.length ≤ 2 ^ 64 ∧ b < 2 ^ 64) :=
  ⟨⟨(SF c0), 0, 31, c0, by decide +kernel⟩,
   ⟨(SF c0), 9, by decide +kernel⟩,
   ⟨(SF c0), 7, by decide +kernel⟩,
   ⟨{ SF c0 with dupMap := List.replicate 65536 (1, 0) }, 0, find_replicate 65536, dup_full 65536 _⟩,
   ⟨143, 4095, by decide +kernel⟩,
   ⟨5, by decide +kernel⟩,
   ⟨(SH c0), (2 ^ 64 - 2), [1, 2], 2 ^ 64 - 1, by decide +kernel⟩⟩

end E3

/-! ## The premises of the claims about what a whole step keeps -/

namespace Z

def c0 : Core := ({} : Core)
def rg (rs : List (Nat × Nat)) (f : Group → Group) : State := let s := lab 0 f; { s with cores := [(0, rs.foldl (fun c r => c.setReg r.1 r.2) c0)], cycle := 100000000 }
def px (s : State) : Path := (s.grp.paths.headD (0, Path.none)).2
def bk (act : Nat) := rg [(0x200, 1 + 2*0 + 4*0), (0x210, 0x41004)] id
def hl := rg [] (fun g => {g with aheld := some 2})
def dbg (s : State) : State := { s with dbgu := true }
def stp := rg [] (fun g => {g with stepArmed := some 8#64, stepDrain := true})
def sps := dbg (rg [] (fun g => vreg 3 (fun l => l+4) 2 {g with stepStopped := true}))
def ap := { rg [] id with bar2 := 0x50000, glbl := [(0x500, 1#16)] }

def lsd := rg [(0x10, 0x50000), (0x18, 1)] id
def brk (act : Nat) := dbg (rg [(0x200, 32 * act + 128 + 0xFF * 2 ^ 19), (0x208, 0x41004)] (fun g => { g with paths := g.paths.map (fun e => (e.1, { e.2 with pos := 0x10401, phase := .issuing })) }))
def ph (f : Group → Group) (h : Path → Path) : State := rg [] (fun g => let u := f g; { u with paths := u.paths.map (fun e => (e.1, h e.2)) })
def wr : FxWrite := { qmask := 255, dst := .reg 3, mask := 1, vals := [1], full := true, lbl := 0, left := 2 }
def ring (r8 wp rp : Nat) : State := rg [(0, 0x4007), (8, r8), (0x10, 0x50000), (0x18, 1), (0x20, wp), (0x28, rp)] id
def bytes64 : List Byte := (List.range 64).map (fun i => BitVec.ofNat 8 (i + 1))
def ringPage : Xlat := ((ring 1 0 0).translate 0 0x50040 true).getD ⟨0, 0, true, false, false, false⟩

theorem meets_FirmwareActs_2 :
    (∃ (v : DWord),
     let m := (v &&& 0xFFFF00000000F807#64).toNat
     m % 2 = 0) ∧
    (∃ (s : State) (core : Nat) (v : DWord),
     let c := s.core core
     let m := (v &&& 0xFFFF00000000F807#64).toNat
     m % 2 = 1 ∧ c.reg 0 % 2 = 0 ∧ s.ringLeased (m / 2 ^ 48) (c.reg 0x10) (c.reg 0x18) = true) ∧
    (∃ (s : State) (core : Nat),
     let c := s.core core
     c.reg 8 % 2 = 1) ∧
    (∃ (s : State) (core k p n : Nat) (x : Path),
     let c := s.core core
     let g := s.group k
     let t := s.team (teamOf k)
     s.groups = [(k, g)] ∧ g.paths = [(p, x)] ∧ t.core = core ∧ t.state = .resident ∧ g.sched = n ∧ n < 4 ∧
     s.ctxOf k = c.reg 0 / 2 ^ 48 ∧ c.reg 0 % 2 = 1 ∧ 8 ≤ c.reg 0 / 2 ^ 11 % 32 ∧ c.reg 0 / 2 ^ 11 % 32 ≤ 20 ∧
     c.sampleAt.get 0 (40 + n) + 2 ^ (c.reg 0 / 2 ^ 11 % 32) ≤ s.cycle) ∧
    (∃ (x : Path),
     x.held.isSome) ∧
    (∃ (s : State) (k : Nat) (x : Path),
     let g := s.group k
     let t := s.team (teamOf k)
     x.held = none ∧ (g.cstopped = true ∨ t.bell.isSome)) ∧
    (∃ (s : State) (k : Nat) (x : Path) (e : Phase × Nat),
     let g := s.group k
     let t := s.team (teamOf k)
     x.held = none ∧ g.cstopped = false ∧ t.bell = none ∧
     (e ∈ [(Phase.parked, 0x0A), (.marker, 0x0B), (.awaiting, 0x07), (.fall, if g.drained x then 0x11 else 0x08)]) ∧
     x.phase = e.1) ∧
    (∃ (s : State) (k : Nat) (x : Path),
     let g := s.group k
     let t := s.team (teamOf k)
     x.held = none ∧ g.cstopped = false ∧ t.bell = none ∧ x.phase = .take ∧ g.starved x = false ∧ g.drained x = false) ∧
    (∃ (s : State) (k : Nat) (x : Path),
     let g := s.group k
     let t := s.team (teamOf k)
     x.held = none ∧ g.cstopped = false ∧ t.bell = none ∧ x.phase = .ending) ∧
    (∃ (s : State) (k : Nat) (x : Path) (e : Nat × Nat),
     let g := s.group k
     let t := s.team (teamOf k)
     x.held = none ∧ g.cstopped = false ∧ t.bell = none ∧ x.phase = .issuing ∧
     e ∈ [(1, 0x01), (2, 0x03), (3, 0x04), (4, 0x05)] ∧ x.waitc = e.1) ∧
    (∃ (s : State) (k : Nat) (x : Path),
     let g := s.group k
     let t := s.team (teamOf k)
     x.held = none ∧ g.cstopped = false ∧ t.bell = none ∧ x.phase = .issuing ∧ 5 ≤ x.waitc) ∧
    (∃ (s : State) (k : Nat) (x : Path),
     let g := s.group k
     let t := s.team (teamOf k)
     x.held = none ∧ g.cstopped = false ∧ t.bell = none ∧ g.starved x = false ∧
     (x.phase = .take ∧ g.drained x = true ∨ x.phase = .issuing ∧ x.waitc = 0) ∧
     (g.stepStopped = true ∨ g.stepDrain = true)) ∧
    (∃ (s : State) (k : Nat) (x : Path),
     let g := s.group k
     let t := s.team (teamOf k)
     x.held = none ∧ g.cstopped = false ∧ t.bell = none ∧ x.phase = .take ∧ g.starved x = true ∧
     (g.aheld.isSome ∨ g.astopped = true ∨ g.halted = true)) ∧
    (∃ (s : State) (k : Nat) (x : Path) (r1 r2 r3 : SRegNo) (lq : BitVec 2) (i1 : BitVec 14) (i2 : BitVec 20) (i3 : BitVec 12) (fc : FC) (e : Option Instr × Nat),
     let g := s.group k
     let t := s.team (teamOf k)
     x.held = none ∧ g.cstopped = false ∧ t.bell = none ∧
     let waits : List (Option Instr × Nat) := [(none, 0x01), (some (.popca r1), 0x12), (some (.vld lq r1 i1), 0x13), (some
         (.vsta r1 i1), 0x14),
         (some (.run r1 i2), 0x15), (some (.yield r1), 0x15), (some (.lds r1 r2 i1), 0x16), (some (.barwait r1 r2), 0x17),
             (some (.sigwait r1 r2), 0x17),
         (some (.waitfc fc i3), 0x17), (some (.alloc r1 r2), 0x18), (some (.resv r1 r2 r3), 0x18), (some (.unresv r1),
             0x18), (some (.trap r1 r2 r3), 0x19)]
     x.phase = .take ∧ g.starved x = true ∧ g.aheld = none ∧ g.astopped = false ∧ g.halted = false ∧
     (g.await.any (fun i => (waitNames i).any g.sHeld) = false) ∧ e ∈ waits ∧ g.await = e.1) ∧
    (∃ (s : State) (core : Nat),
     let c := s.core core
     c.reg 0x100 % 2 = 1 ∧ c.sampleAt.get 0 44 + 2 ^ (c.reg 0x100 / 2 ^ 8 % 32) * 2700 ≤ s.cycle) ∧
    (∃ (s : State) (k p n : Nat) (x : Path) (act : Nat),
     let g := s.group k
     g.paths.find p = some x ∧ x.phase = .issuing ∧ x.pass = false ∧ x.held = none ∧ g.cstopped = false ∧
     s.mayIssue k (x.waitc != 0) = true ∧ s.breakAt k (4 * x.pos) true x.qmask = some (n, act) ∧ act = 2) ∧
    (∃ (s : State) (k p n : Nat) (x : Path) (act : Nat),
     let g := s.group k
     g.paths.find p = some x ∧ x.phase = .issuing ∧ x.pass = false ∧ x.held = none ∧ g.cstopped = false ∧
     s.mayIssue k (x.waitc != 0) = true ∧ s.breakAt k (4 * x.pos) true x.qmask = some (n, act) ∧ act ≠ 2) ∧
    (∃ (s : State) (core k : Nat) (w : DWord),
     let g := s.group k
     let t := s.team (teamOf k)
     s.dbgu = true ∧ t.core = core ∧ t.state = .resident ∧ t.teamix = w.toNat / 2 ^ 32 ∧ g.gidx = w.toNat / 2 ^ 27 % 32 ∧
     s.debugOn k = true ∧ (s.groups.find k).isSome) ∧
    (∃ (s : State) (k : Nat) (v : DWord),
     let g := s.group k
     g.stepArmed = some v ∧ g.stepDrain = true ∧ v.getLsbD 0 = false ∧ v.getLsbD 1 = false) ∧
    (∃ (s : State) (k n : Nat),
     let g := s.group k
     let t := s.team (teamOf k)
     s.debugOn k = true ∧ t.state = .resident ∧ n < g.nvregs) ∧
    (∃ (off : Nat),
     off ∈ [0x10, 0x18, 0x28, 0x108, 0x110, 0x118, 0x120]) ∧
    (∃ (s : State) (off : Nat),
     s.dbgu = false ∧ off ∈ [0x200, 0x208, 0x210, 0x218, 0x220, 0x228, 0x230, 0x238, 0x280, 0x288, 0x290, 0x298]) ∧
    (∃ (s : State) (n a : Nat),
     s.bar2Ok a n = true) ∧
    (∃ (s : State) (a : Nat) (bs : List Byte),
     let la := s.bar2 + a
     s.bar2Ok a bs.length = true ∧ la % 128 + bs.length ≤ 128 ∧ s.lines.find (la / 128) = none) :=
  ⟨⟨8#64, by decide +kernel⟩,
   ⟨lsd, 0, 1#64, by decide +kernel⟩,
   ⟨(rg [(0, 5), (8, 3)] id), 0, by decide +kernel⟩,
   ⟨(rg [(0, 0x5001), (8, 3)] id), 0, 0, 0, 0, (px (rg [] id)), by decide +kernel⟩,
   ⟨(px (ph id (fun p => { p with held := some 1 }))), by decide +kernel⟩,
   ⟨(ph (fun g => { g with cstopped := true }) id), 0, (px (ph (fun g => { g with cstopped := true }) id)), by decide +kernel⟩,
   ⟨(ph id (fun p => { p with phase := .parked })), 0, (px (ph id (fun p => { p with phase := .parked }))), (.parked, 0x0A), by decide +kernel⟩,
   ⟨(ph (fun g => { g with rq := [.run 0 0], fx := [wr] }) (fun p => { p with phase := .take })), 0, (px (ph (fun g => { g with rq := [.run 0 0], fx := [wr] }) (fun p => { p with phase := .take }))), by decide +kernel⟩,
   ⟨(ph id (fun p => { p with phase := .ending })), 0, (px (ph id (fun p => { p with phase := .ending }))), by decide +kernel⟩,
   ⟨(ph id (fun p => { p with phase := .issuing, waitc := 3 })), 0, (px (ph id (fun p => { p with phase := .issuing, waitc := 3 }))), (3, 0x04), by decide +kernel⟩,
   ⟨(ph id (fun p => { p with phase := .issuing, waitc := 0x11A })), 0, (px (ph id (fun p => { p with phase := .issuing, waitc := 0x11A }))), by decide +kernel⟩,
   ⟨stp, 0, (px (bk 0)), by decide +kernel⟩,
   ⟨(ph (fun g => { g with aheld := some 1 }) (fun p => { p with phase := .take })), 0, (px (ph (fun g => { g with aheld := some 1 }) (fun p => { p with phase := .take }))), by decide +kernel⟩,
   ⟨(ph (fun g => { g with await := some (.popca 1#6) }) (fun p => { p with phase := .take })), 0, (px (ph (fun g => { g with await := some (.popca 1#6) }) (fun p => { p with phase := .take }))), 1, 2, 3, 0, 0, 0, 0, .ld, (some (.popca 1#6), 0x12), by decide +kernel⟩,
   ⟨(rg [(0x100, 5)] id), 0, by decide +kernel⟩,
   ⟨(brk 2), 0, 0, 0, (px (brk 2)), 2, by decide +kernel⟩,
   ⟨(brk 1), 0, 0, 0, (px (brk 1)), 1, by decide +kernel⟩,
   ⟨(dbg hl), 0, 0, 0, by decide +kernel⟩,
   ⟨stp, 0, 8#64, by decide +kernel⟩,
   ⟨(dbg hl), 0, 2, by decide +kernel⟩,
   ⟨0x28, by decide +kernel⟩,
   ⟨ap, 0x200, by decide +kernel⟩,
   ⟨(dbg hl), 2, 0, by decide +kernel⟩,
   ⟨ap, 0x40, [1,2,3], by decide +kernel⟩⟩

theorem meets_JumpResults_3 :
    (∃ (s : State) (core r : Nat),
     let c := s.core core
     c.reg 8 % 2 = 0 ∧ r ≠ 8) ∧
    (∃ (s : State) (core r : Nat),
     let c := s.core core
     let next := (c.reg 0x20 + 64) % (c.reg 0x18 * 65536)
     c.reg 8 % 2 = 1 ∧ next = c.reg 0x28 ∧ r ≠ 8) ∧
    (∃ (s : State) (core r : Nat),
     let c := s.core core
     let next := (c.reg 0x20 + 64) % (c.reg 0x18 * 65536)
     c.reg 8 % 2 = 1 ∧ next ≠ c.reg 0x28 ∧ r ≠ 0x20) ∧
    (∃ (s : State) (core : Nat) (bs : List Byte) (a : Xlat),
     let c := s.core core
     let next := (c.reg 0x20 + 64) % (c.reg 0x18 * 65536)
     let va := c.reg 0x10 + c.reg 0x20
     c.reg 8 % 2 = 1 ∧ next ≠ c.reg 0x28 ∧ s.translate (c.reg 0 / 2 ^ 48) va true = some a ∧ devOf a.pa = s.devn ∧
     a.line = false ∧ a.dup = false ∧ s.dieQ = [] ∧ bs.length = 64 ∧ va % 65536 + 64 ≤ 65536) ∧
    (∃ (s : State),
     let d := s.core s.tm.core
     d.reg 0 % 2 = 1 ∧ d.reg 0 / 2 ^ 48 = s.ctxOf s.cur ∧ d.reg 0 / 2 % 2 = 1) ∧
    (∃ (s : State),
     let d := s.core s.tm.core
     d.reg 0 % 2 = 1 ∧ d.reg 0 / 2 ^ 48 = s.ctxOf s.cur ∧ d.reg 0 / 4 % 2 = 1) ∧
    (∃ (s : State),
     let d := s.core s.tm.core
     d.reg 0 % 2 = 1 ∧ d.reg 0 / 2 ^ 48 = s.ctxOf s.cur ∧ d.reg 0 / 2 % 2 = 0) ∧
    (∃ (s : State),
     let d := s.core s.tm.core
     d.reg 0 % 2 = 1 ∧ d.reg 0 / 2 ^ 48 = s.ctxOf s.cur ∧ d.reg 0 / 4 % 2 = 0) ∧
    (∃ (s : State),
     let d := s.core s.tm.core
     (d.reg 0 % 2 = 0 ∨ d.reg 0 / 2 ^ 48 ≠ s.ctxOf s.cur)) :=
  ⟨⟨(ring 0 64 128), 0, 0x10, by decide +kernel⟩,
   ⟨(ring 1 64 128), 0, 0x10, by decide +kernel⟩,
   ⟨(ring 1 64 0), 0, 0x10, by decide +kernel⟩,
   ⟨(ring 1 64 0), 0, bytes64, ringPage, by decide +kernel⟩,
   ⟨(ring 0 64 128), by decide +kernel⟩,
   ⟨(ring 0 64 128), by decide +kernel⟩,
   ⟨(rg [(0, 1), (8, 1)] id), by decide +kernel⟩,
   ⟨(rg [(0, 1), (8, 1)] id), by decide +kernel⟩,
   ⟨(rg [(0, 0), (8, 1)] id), by decide +kernel⟩⟩

theorem meets_ConversionsAndFunctions_3 :
    (∃ (neg : Bool) (d e k : Nat) (f : Ty × Nat × Nat × Nat × Nat),
     0 < d ∧ 0 < e ∧
     f ∈ [(Ty.f32, 8, 23, 127, 0), (.f16, 5, 10, 15, 0), (.bf16, 8, 7, 127, 0), (.e4m3n, 4, 3, 8, 1), (.e5m2n, 5, 2, 16,
         1), (.e2m1n, 2, 1, 2, 1), (.ocp8a, 4, 3, 7, 2), (.ocp8b, 5, 2, 15, 3)] ∧
     let eb : Nat := f.2.1
     let fb : Nat := f.2.2.1
     let cls : Nat := f.2.2.2.2
     let top := if cls = 1 then 2 ^ (eb + fb) - 1 else if cls = 2 then 2 ^ (eb + fb) - 2 else (2 ^ eb - 1) * 2 ^ fb - 1
     k ≤ top ∧ ¬ (cls = 1 ∧ neg = true ∧ k = 0)) ∧
    (∃ (d e k : Nat) (f : Ty × Nat × Nat × Nat × Nat),
     0 < d ∧ 0 < e ∧
     f ∈ [(Ty.f32, 8, 23, 127, 0), (.f16, 5, 10, 15, 0), (.bf16, 8, 7, 127, 0), (.e4m3n, 4, 3, 8, 1), (.e5m2n, 5, 2, 16,
         1), (.e2m1n, 2, 1, 2, 1), (.ocp8a, 4, 3, 7, 2), (.ocp8b, 5, 2, 15, 3)] ∧
     let fb : Nat := f.2.2.1
     let cls : Nat := f.2.2.2.2
     let ieee := cls = 0 ∨ cls = 3
     ieee ∧ 0 < k ∧ k < 2 ^ fb) ∧
    (∃ (d e : Nat) (f : Ty × Nat × Nat × Nat × Nat),
     0 < d ∧ 0 < e ∧
     f ∈ [(Ty.f32, 8, 23, 127, 0), (.f16, 5, 10, 15, 0), (.bf16, 8, 7, 127, 0), (.e4m3n, 4, 3, 8, 1), (.e5m2n, 5, 2, 16,
         1), (.e2m1n, 2, 1, 2, 1), (.ocp8a, 4, 3, 7, 2), (.ocp8b, 5, 2, 15, 3)] ∧
     let cls : Nat := f.2.2.2.2
     cls = 1) ∧
    (∃ (d e : Nat) (f : Ty × Nat × Nat × Nat × Nat),
     0 < d ∧ 0 < e ∧
     f ∈ [(Ty.f32, 8, 23, 127, 0), (.f16, 5, 10, 15, 0), (.bf16, 8, 7, 127, 0), (.e4m3n, 4, 3, 8, 1), (.e5m2n, 5, 2, 16,
         1), (.e2m1n, 2, 1, 2, 1), (.ocp8a, 4, 3, 7, 2), (.ocp8b, 5, 2, 15, 3)] ∧
     let cls : Nat := f.2.2.2.2
     cls = 2) ∧
    (∃ (rm : RM) (neg : Bool) (n d e k : Nat) (f : Ty × Nat × Nat × Nat × Nat),
     0 < d ∧ 0 < e ∧
     f ∈ [(Ty.f32, 8, 23, 127, 0), (.f16, 5, 10, 15, 0), (.bf16, 8, 7, 127, 0), (.e4m3n, 4, 3, 8, 1), (.e5m2n, 5, 2, 16,
         1), (.e2m1n, 2, 1, 2, 1), (.ocp8a, 4, 3, 7, 2), (.ocp8b, 5, 2, 15, 3)] ∧
     let fb : Nat := f.2.2.1
     let bias : Nat := f.2.2.2.1
     let unit := 2 ^ (bias + fb - 1)
     let size (c : Nat) : Nat := if c < 2 ^ fb then c else (2 ^ fb + c % 2 ^ fb) * 2 ^ (c / 2 ^ fb - 1)
     size k * d ≤ n * unit ∧ n * unit < size (k + 1) * d ∧ 0 < n ∧
     let up := size k * d ≠ n * unit ∧ match rm with
         | .rtz => False
         | .rdn => neg = true
         | .rup => neg = false
         | .rne => (size k + size (k + 1)) * d < 2 * n * unit ∨ ((size k + size (k + 1)) * d = 2 * n * unit ∧ k % 2 = 1)
     ¬ up) ∧
    (∃ (rm : RM) (neg : Bool) (n d e k : Nat) (f : Ty × Nat × Nat × Nat × Nat),
     0 < d ∧ 0 < e ∧
     f ∈ [(Ty.f32, 8, 23, 127, 0), (.f16, 5, 10, 15, 0), (.bf16, 8, 7, 127, 0), (.e4m3n, 4, 3, 8, 1), (.e5m2n, 5, 2, 16,
         1), (.e2m1n, 2, 1, 2, 1), (.ocp8a, 4, 3, 7, 2), (.ocp8b, 5, 2, 15, 3)] ∧
     let fb : Nat := f.2.2.1
     let bias : Nat := f.2.2.2.1
     let unit := 2 ^ (bias + fb - 1)
     let size (c : Nat) : Nat := if c < 2 ^ fb then c else (2 ^ fb + c % 2 ^ fb) * 2 ^ (c / 2 ^ fb - 1)
     size k * d ≤ n * unit ∧ n * unit < size (k + 1) * d ∧ 0 < n ∧
     let up := size k * d ≠ n * unit ∧ match rm with
         | .rtz => False
         | .rdn => neg = true
         | .rup => neg = false
         | .rne => (size k + size (k + 1)) * d < 2 * n * unit ∨ ((size k + size (k + 1)) * d = 2 * n * unit ∧ k % 2 = 1)
     up) ∧
    (∃ (d e E : Nat),
     0 < d ∧ 0 < e ∧ E < 255) ∧
    (∃ (d e k : Nat),
     0 < d ∧ 0 < e ∧ ∀ t ∈ [Ty.s8, .s16, .s32, .s64, .z8, .z16, .z32, .z64],
       k < 2 ^ t.width) ∧
    (∃ (d m e : Nat),
     0 < d ∧ 0 < e ∧ m ≠ 0) :=
  ⟨⟨false, 16, 1, 64, (.e4m3n, 4, 3, 8, 1), by decide +kernel⟩,
   ⟨16, 1, 64, (.f16, 5, 10, 15, 0), by decide +kernel⟩,
   ⟨16, 1, (.e4m3n, 4, 3, 8, 1), by decide +kernel⟩,
   ⟨16, 1, (.ocp8a, 4, 3, 7, 2), by decide +kernel⟩,
   ⟨.rne, false, 17, 16, 1, 64, (.e4m3n, 4, 3, 8, 1), by decide +kernel⟩,
   ⟨.rup, false, 17, 16, 1, 64, (.e4m3n, 4, 3, 8, 1), by decide +kernel⟩,
   ⟨16, 1, 4, by decide +kernel⟩,
   ⟨16, 1, 64, by decide +kernel⟩,
   ⟨16, 1, 1, by decide +kernel⟩⟩

theorem meets_ConversionsAndFunctions_4 :
    (∃ (bits : Nat) (s t : Ty),
     let ints := [Ty.s8, .s16, .s32, .s64, .z8, .z16, .z32, .z64]
     let lo (t : Ty) : Int := if t ∈ [Ty.s8, .s16, .s32, .s64] then -(2 : Int) ^ (t.width - 1) else 0
     let hi (t : Ty) : Int := if t ∈ [Ty.s8, .s16, .s32, .s64] then (2 : Int) ^ (t.width - 1) - 1 else (2 : Int) ^ t.width - 1
     s ∈ ints ∧ t ∈ ints ∧ bits < 2 ^ s.width ∧
     let v : Int := if s ∈ [Ty.s8, .s16, .s32, .s64] ∧ 2 ^ (s.width - 1) ≤ bits then (bits : Int) - 2 ^ s.width else bits
     lo t ≤ v ∧ v ≤ hi t) ∧
    (∃ (bits : Nat) (s t : Ty),
     let ints := [Ty.s8, .s16, .s32, .s64, .z8, .z16, .z32, .z64]
     s ∈ ints ∧ t ∈ ints ∧ bits < 2 ^ s.width ∧ s.width < t.width) ∧
    (∃ (sat : Bool) (bits : Nat) (s t : Ty),
     let ints := [Ty.s8, .s16, .s32, .s64, .z8, .z16, .z32, .z64]
     let lo (t : Ty) : Int := if t ∈ [Ty.s8, .s16, .s32, .s64] then -(2 : Int) ^ (t.width - 1) else 0
     let hi (t : Ty) : Int := if t ∈ [Ty.s8, .s16, .s32, .s64] then (2 : Int) ^ (t.width - 1) - 1 else (2 : Int) ^ t.width - 1
     s ∈ ints ∧ t ∈ ints ∧ bits < 2 ^ s.width ∧
     let v : Int := if s ∈ [Ty.s8, .s16, .s32, .s64] ∧ 2 ^ (s.width - 1) ≤ bits then (bits : Int) - 2 ^ s.width else bits
     t.width ≤ s.width ∧ ¬ (lo t ≤ v ∧ v ≤ hi t) ∧ sat = true) ∧
    (∃ (sat : Bool) (bits : Nat) (s t : Ty),
     let ints := [Ty.s8, .s16, .s32, .s64, .z8, .z16, .z32, .z64]
     let lo (t : Ty) : Int := if t ∈ [Ty.s8, .s16, .s32, .s64] then -(2 : Int) ^ (t.width - 1) else 0
     let hi (t : Ty) : Int := if t ∈ [Ty.s8, .s16, .s32, .s64] then (2 : Int) ^ (t.width - 1) - 1 else (2 : Int) ^ t.width - 1
     s ∈ ints ∧ t ∈ ints ∧ bits < 2 ^ s.width ∧
     let v : Int := if s ∈ [Ty.s8, .s16, .s32, .s64] ∧ 2 ^ (s.width - 1) ≤ bits then (bits : Int) - 2 ^ s.width else bits
     t.width ≤ s.width ∧ ¬ (lo t ≤ v ∧ v ≤ hi t) ∧ sat = false) ∧
    (∃ (rm : RM) (neg : Bool) (n d : Nat) (z : Int) (t : Ty),
     let ints := [Ty.s8, .s16, .s32, .s64, .z8, .z16, .z32, .z64]
     let lo (t : Ty) : Int := if t ∈ [Ty.s8, .s16, .s32, .s64] then -(2 : Int) ^ (t.width - 1) else 0
     let hi (t : Ty) : Int := if t ∈ [Ty.s8, .s16, .s32, .s64] then (2 : Int) ^ (t.width - 1) - 1 else (2 : Int) ^ t.width - 1
     let x : Int := if neg then -(n : Int) else n
     let off : Int := x - z * d
     let rounds := (rm = .rtz → 0 ≤ z * x ∧ z.natAbs * d ≤ n ∧ n < (z.natAbs + 1) * d) ∧ (rm = .rdn → 0 ≤ off ∧ off < d) ∧
         (rm = .rup → off ≤ 0 ∧ -(d : Int) < off) ∧ (rm = .rne → 2 * off.natAbs ≤ d ∧ (2 * off.natAbs = d → z % 2 = 0))
     t ∈ ints ∧ 0 < d ∧ rounds ∧ lo t ≤ z ∧ z ≤ hi t) ∧
    (∃ (rm : RM) (neg : Bool) (n d : Nat) (z : Int) (t : Ty),
     let ints := [Ty.s8, .s16, .s32, .s64, .z8, .z16, .z32, .z64]
     let lo (t : Ty) : Int := if t ∈ [Ty.s8, .s16, .s32, .s64] then -(2 : Int) ^ (t.width - 1) else 0
     let hi (t : Ty) : Int := if t ∈ [Ty.s8, .s16, .s32, .s64] then (2 : Int) ^ (t.width - 1) - 1 else (2 : Int) ^ t.width - 1
     let x : Int := if neg then -(n : Int) else n
     let off : Int := x - z * d
     let rounds := (rm = .rtz → 0 ≤ z * x ∧ z.natAbs * d ≤ n ∧ n < (z.natAbs + 1) * d) ∧ (rm = .rdn → 0 ≤ off ∧ off < d) ∧
         (rm = .rup → off ≤ 0 ∧ -(d : Int) < off) ∧ (rm = .rne → 2 * off.natAbs ≤ d ∧ (2 * off.natAbs = d → z % 2 = 0))
     t ∈ ints ∧ 0 < d ∧ rounds ∧ ¬ (lo t ≤ z ∧ z ≤ hi t)) ∧
    (∃ (src dst : Ty),
     let ints := [Ty.s8, .s16, .s32, .s64, .z8, .z16, .z32, .z64]
     (src ∉ ints ∨ dst ∉ ints)) :=
  ⟨⟨0x80, .s8, .s16, by decide +kernel⟩,
   ⟨0x80, .s8, .s16, by decide +kernel⟩,
   ⟨true, 0x80, .s16, .s8, by decide +kernel⟩,
   ⟨false, 0x80, .s16, .s8, by decide +kernel⟩,
   ⟨.rne, false, 7, 2, 4, .s8, by decide +kernel⟩,
   ⟨.rne, false, 800, 2, 400, .s8, by decide +kernel⟩,
   ⟨.f32, .f16, by decide +kernel⟩⟩

end Z

/-! ## The premises of the claim that a step runs the decoded instruction -/

namespace Z2

def held (w n : Nat) : State := State.reset.withFetchWord n w
def turned (s : State) : State := s.tickTime.nextTurn.2
def moved (s : State) : State := { turned s with cur := 0 }
def later (t : Turn) (s : State) : State := { s with agenda := [t] }
def got (s : State) (va n : Nat) : State × List Byte × Label := match s.readCode 0 va n with | .ok t b l => (t, b, l) | _ => (s, [], 0)
def parcel (s : State) (va n : Nat) : State × List Word := match s.parcels 0 va n with | .ok t ws => (t, ws) | _ => (s, [])
def wordOf (b : List Byte) : Word := BitVec.ofNat 32 (ofBytes b)
def readA (s : State) : State × List Byte × Label := got (moved s) 0x40000 4
def instrOf (b : Bool) (ws : List Word) : Instr := match decodeWords b ws with | .ok i => i | .error _ => .markJoin
def errorOf (w : Word) : Reject := match decodeWords true [w] with | .error e => e | .ok _ => .fixedField
def waits : State := let s := held 0x04408300 32; s.setGroup 0 { s.group 0 with await := some (.popca 3#6) }
def halts : State := let s := held 0x04408300 32; s.setGroup 0 { s.group 0 with halted := true }
def pair (s : State) : State := { s with groups := s.groups ++ [(4, { s.group 0 with gidx := 4 })] }
def addC : State := held 0x000000000880100001220004 96
def pathC : Path := (moved addC).path
def atC : State := { turned addC with cur := 0, curPath := 0 }
def headC : State × List Word := parcel atC (pathC.pos / 32 * 128) 1
def firstC : State × List Word := parcel headC.1 (4 * pathC.pos) 1
def firstW : Word := firstC.2.headD 0#32
def restC : State × List Word := parcel firstC.1 (4 * pathC.pos + 4) (parcelLength firstW - 1)
theorem got_eq {s : State} {va n : Nat} (h : (match s.readCode 0 va n with | .ok .. => true | _ => false) = true) :
    s.readCode 0 va n = .ok (got s va n).1 (got s va n).2.1 (got s va n).2.2 := by
  unfold got; split at h <;> simp_all
theorem parcel_eq {s : State} {va n : Nat} (h : (match s.parcels 0 va n with | .ok .. => true | _ => false) = true) :
    s.parcels 0 va n = .ok (parcel s va n).1 (parcel s va n).2 := by
  unfold parcel; split at h <;> simp_all
theorem parcel_one {s : State} {va : Nat} (h : (match s.parcels 0 va 1 with | .ok _ [_] => true | _ => false) = true) :
    s.parcels 0 va 1 = .ok (parcel s va 1).1 [(parcel s va 1).2.headD 0#32] := by
  unfold parcel; split at h <;> simp_all
def none_ : Path := Path.none
def addA : State := held 0x04408300 32
def oldA : State := addA.setGroup 0 { addA.group 0 with ageA := 512 }
def badA : State := addA.writeMem 0x40000 (List.replicate 4 0xFF#8)
def litA : State := held 0x89ABCDEF2C300000 64
def litB : State × List Byte × Label := got (readA litA).1 0x40004 4
def twoA : State := later (.aWord 4) (pair oldA)
def twoE : State := later (.event (.waitfcSatisfied 4)) (pair oldA)
/-- An older group of the same class is chosen first. -/
theorem chosen_of {s : State} (h1 : s.rivals 4 = [0]) (h2 : s.canA 0 = true) (h3 : 512 ≤ (s.group 0).ageA) (h4 : 512 ≤ (s.group 4).ageA)
    (h5 : (s.team (teamOf 0)).admitted = (s.team (teamOf 4)).admitted) (h6 : (s.group 0).gidx < (s.group 4).gidx) : s.choosesA 4 = false := by
  simp only [State.choosesA, h1, List.any_cons, List.any_nil, h2, Bool.and_true, Bool.or_false, State.groupRank, h3, h4, h5]
  simp [rankLt, h6]
theorem aged_stays {s t : State} {n k a : Nat} (h : t.group k = s.agedBy n k (s.group k)) (ha : a ≤ (s.group k).ageA) : a ≤ (t.group k).ageA := by
  rw [h]
  unfold State.agedBy
  simp only
  split <;> omega
theorem first_chosen : (turned twoA).choosesA 4 = false :=
  chosen_of (by decide +kernel) (by decide +kernel) (aged_stays (s := twoA) rfl (by decide +kernel)) (aged_stays (s := twoA) rfl (by decide +kernel)) rfl (by decide +kernel)
theorem first_chosen_event : (turned twoE).choosesA 4 = false :=
  chosen_of (by decide +kernel) (by decide +kernel) (aged_stays (s := twoE) rfl (by decide +kernel)) (aged_stays (s := twoE) rfl (by decide +kernel)) rfl (by decide +kernel)
/-- The compute slice at other code: the state with a head and a first word, and with the path changed. -/
def atCode (h w : Nat) (f : Path → Path) : State :=
  let s := addC.writeMem 0x41000 (bytesOf h 4 ++ bytesOf w 4)
  s.setGroup 0 { s.group 0 with paths := (s.group 0).paths.map (fun e => (e.1, f e.2)) }
def cAt (s : State) : State := { turned s with cur := 0, curPath := 0 }
def pathOf (s : State) : Path := (moved s).path
def headOf (s : State) : State × List Word := parcel (cAt s) ((pathOf s).pos / 32 * 128) 1
def firstOf (s : State) : State × List Word := parcel (headOf s).1 (4 * (pathOf s).pos) 1
def restOf (s : State) : State × List Word := parcel (firstOf s).1 (4 * (pathOf s).pos + 4) (parcelLength ((firstOf s).2.headD 0#32) - 1)
def pastC : State := atCode 1 0x01220004 (fun p => { p with pos := p.pos + 1000 })
def reservedC : State := atCode 0x80000001 0x01220004 id
def unmarkedC : State := atCode 0 0x01220004 id
def brokenC : State := atCode 3 0x01220004 id
def undefinedC : State := atCode 1 0xB0000000 id
def longC : State := atCode 1 0x01220004 (fun p => { p with icount := 24 })
def cError (s : State) : Reject := match decodeWords false ((firstOf s).2.headD 0#32 :: (restOf s).2) with | .error e => e | .ok _ => .fixedField

theorem meets_StepRunsDecodedInstruction :
    (∃ (s s1 : State) (k va : Nat) (w : Word) (bs : List Byte) (l : Label) (i : Instr),
      let v := s.tickTime.nextTurn.2
      let u : State := { v with cur := k }
      let r := u.recOf k
      (∀ d y, i ≠ .li32 d y) ∧ u.readCode k va 4 = .ok s1 bs l ∧
      s.tickTime.nextTurn.1 = .aWord k ∧ (v.choosesA k = true ∨ v.canA k = false) ∧ u.aReady k = true ∧
      (u.group k).await = none ∧ r.acode ≤ va ∧ va + 4 ≤ r.acode + r.asize ∧ va = (u.group k).apc.toNat ∧
      w = BitVec.ofNat 32 (ofBytes bs) ∧ decodeWords true [w] = .ok i) ∧
    (∃ (s s1 s2 : State) (k va : Nat) (w lit : Word) (bs bs2 : List Byte) (l l2 : Label) (d : SRegNo),
      let v := s.tickTime.nextTurn.2
      let u : State := { v with cur := k }
      let r := u.recOf k
      u.readCode k va 4 = .ok s1 bs l ∧ s1.readCode k (va + 4) 4 = .ok s2 bs2 l2 ∧
      s.tickTime.nextTurn.1 = .aWord k ∧ (v.choosesA k = true ∨ v.canA k = false) ∧ u.aReady k = true ∧
      (u.group k).await = none ∧ r.acode ≤ va ∧ va + 4 ≤ r.acode + r.asize ∧ va = (u.group k).apc.toNat ∧
      w = BitVec.ofNat 32 (ofBytes bs) ∧ decodeWords true [w] = .ok (.li32 d 0#32) ∧
      va + 8 ≤ r.acode + r.asize ∧ lit = BitVec.ofNat 32 (ofBytes bs2)) ∧
    (∃ (s s1 : State) (k va : Nat) (w : Word) (bs : List Byte) (l : Label) (e : Reject),
      let v := s.tickTime.nextTurn.2
      let u : State := { v with cur := k }
      let r := u.recOf k
      u.readCode k va 4 = .ok s1 bs l ∧
      s.tickTime.nextTurn.1 = .aWord k ∧ (v.choosesA k = true ∨ v.canA k = false) ∧ u.aReady k = true ∧
      (u.group k).await = none ∧ r.acode ≤ va ∧ va + 4 ≤ r.acode + r.asize ∧ va = (u.group k).apc.toNat ∧
      w = BitVec.ofNat 32 (ofBytes bs) ∧ decodeWords true [w] = .error e) ∧
    (∃ (s : State) (k : Nat) (i : Instr),
     let turn := s.tickTime.nextTurn.1
     let v := s.tickTime.nextTurn.2
     let u : State := { v with cur := k }
     let g := u.group k
     let turnA : Prop := turn = .aWord k ∧ (v.choosesA k = true ∨ v.canA k = false)
     turnA ∧ u.aReady k = true ∧ g.await = some i) ∧
    (∃ (s : State) (k : Nat),
     let turn := s.tickTime.nextTurn.1
     let v := s.tickTime.nextTurn.2
     let u : State := { v with cur := k }
     turn = .aWord k ∧ u.aReady k = false) ∧
    (∃ (s : State) (k : Nat), s.tickTime.nextTurn.1 = .aWord k ∧
      s.tickTime.nextTurn.2.choosesA k = false ∧ s.tickTime.nextTurn.2.canA k = true) ∧
    (∃ (s s1 s2 s3 : State) (k p : Nat) (w h : Word) (ws : List Word) (i : Instr) (x : Path),
      let v := s.tickTime.nextTurn.2
      let c : State := { v with cur := k, curPath := p }
      let blk := x.pos / 32 * 128
      let j := x.pos % 32
      let n := parcelLength w
      c.parcels k blk 1 = .ok s1 [h] ∧ s1.parcels k (4 * x.pos) 1 = .ok s2 [w] ∧
      s2.parcels k (4 * x.pos + 4) (n - 1) = .ok s3 ws ∧
      s.tickTime.nextTurn.1 = .cIssue k p ∧ (v.chooses k p = true ∨ v.canC k p = false) ∧ c.cReady k p = true ∧
      (c.group k).paths.find p = some x ∧ (c.recOf k).ccode ≤ blk ∧ blk + 128 ≤ (c.recOf k).ccode + (c.recOf k).csize ∧
      h.getLsbD 31 = false ∧ j ≠ 0 ∧ h.getLsbD (j - 1) = true ∧ j + n ≤ 32 ∧
      (∀ m ∈ List.range (n - 1), h.getLsbD (j + m) = false) ∧ decodeWords false (w :: ws) = .ok i ∧
      (14 ≤ w.toNat / 2 ^ 28 ∨ x.icount < 24)) ∧
    (∃ (s : State) (k p : Nat) (x : Path),
      let v := s.tickTime.nextTurn.2
      let c : State := { v with cur := k, curPath := p }
      let r := c.recOf k
      let blk := x.pos / 32 * 128
      let j := x.pos % 32
      s.tickTime.nextTurn.1 = .cIssue k p ∧ (v.chooses k p = true ∨ v.canC k p = false) ∧ c.cReady k p = true ∧
      (c.group k).paths.find p = some x ∧ ¬ (r.ccode ≤ blk ∧ blk + 128 ≤ r.ccode + r.csize)) ∧
    (∃ (s s1 : State) (k p : Nat) (h : Word) (x : Path),
      let v := s.tickTime.nextTurn.2
      let c : State := { v with cur := k, curPath := p }
      let r := c.recOf k
      let blk := x.pos / 32 * 128
      let j := x.pos % 32
      c.parcels k blk 1 = .ok s1 [h] ∧
      s.tickTime.nextTurn.1 = .cIssue k p ∧ (v.chooses k p = true ∨ v.canC k p = false) ∧ c.cReady k p = true ∧
      (c.group k).paths.find p = some x ∧
      r.ccode ≤ blk ∧ blk + 128 ≤ r.ccode + r.csize ∧ h.getLsbD 31 = true) ∧
    (∃ (s s1 : State) (k p : Nat) (h : Word) (x : Path),
      let v := s.tickTime.nextTurn.2
      let c : State := { v with cur := k, curPath := p }
      let r := c.recOf k
      let blk := x.pos / 32 * 128
      let j := x.pos % 32
      c.parcels k blk 1 = .ok s1 [h] ∧
      s.tickTime.nextTurn.1 = .cIssue k p ∧ (v.chooses k p = true ∨ v.canC k p = false) ∧ c.cReady k p = true ∧
      (c.group k).paths.find p = some x ∧
      r.ccode ≤ blk ∧ blk + 128 ≤ r.ccode + r.csize ∧ h.getLsbD 31 = false ∧ ¬ (j ≠ 0 ∧ h.getLsbD (j - 1) = true)) ∧
    (∃ (s s1 s2 : State) (k p : Nat) (w h : Word) (x : Path),
      let v := s.tickTime.nextTurn.2
      let c : State := { v with cur := k, curPath := p }
      let r := c.recOf k
      let blk := x.pos / 32 * 128
      let j := x.pos % 32
      let n := parcelLength w
      c.parcels k blk 1 = .ok s1 [h] ∧ s1.parcels k (4 * x.pos) 1 = .ok s2 [w] ∧
      s.tickTime.nextTurn.1 = .cIssue k p ∧ (v.chooses k p = true ∨ v.canC k p = false) ∧ c.cReady k p = true ∧
      (c.group k).paths.find p = some x ∧
      r.ccode ≤ blk ∧ blk + 128 ≤ r.ccode + r.csize ∧ h.getLsbD 31 = false ∧ (j ≠ 0 ∧ h.getLsbD (j - 1) = true) ∧
      ¬ (j + n ≤ 32 ∧ ∀ m, m < n - 1 → h.getLsbD (j + m) = false)) ∧
    (∃ (s s1 s2 s3 : State) (k p : Nat) (w h : Word) (ws : List Word) (x : Path) (e : Reject),
      let v := s.tickTime.nextTurn.2
      let c : State := { v with cur := k, curPath := p }
      let r := c.recOf k
      let blk := x.pos / 32 * 128
      let j := x.pos % 32
      let n := parcelLength w
      c.parcels k blk 1 = .ok s1 [h] ∧ s1.parcels k (4 * x.pos) 1 = .ok s2 [w] ∧
      s2.parcels k (4 * x.pos + 4) (n - 1) = .ok s3 ws ∧
      s.tickTime.nextTurn.1 = .cIssue k p ∧ (v.chooses k p = true ∨ v.canC k p = false) ∧ c.cReady k p = true ∧
      (c.group k).paths.find p = some x ∧
      r.ccode ≤ blk ∧ blk + 128 ≤ r.ccode + r.csize ∧ h.getLsbD 31 = false ∧ (j ≠ 0 ∧ h.getLsbD (j - 1) = true) ∧
      (j + n ≤ 32 ∧ ∀ m, m < n - 1 → h.getLsbD (j + m) = false) ∧ decodeWords false (w :: ws) = .error e) ∧
    (∃ (s s1 s2 s3 : State) (k p : Nat) (w h : Word) (ws : List Word) (x : Path) (y : Instr),
      let v := s.tickTime.nextTurn.2
      let c : State := { v with cur := k, curPath := p }
      let r := c.recOf k
      let blk := x.pos / 32 * 128
      let j := x.pos % 32
      let n := parcelLength w
      c.parcels k blk 1 = .ok s1 [h] ∧ s1.parcels k (4 * x.pos) 1 = .ok s2 [w] ∧
      s2.parcels k (4 * x.pos + 4) (n - 1) = .ok s3 ws ∧
      s.tickTime.nextTurn.1 = .cIssue k p ∧ (v.chooses k p = true ∨ v.canC k p = false) ∧ c.cReady k p = true ∧
      (c.group k).paths.find p = some x ∧
      r.ccode ≤ blk ∧ blk + 128 ≤ r.ccode + r.csize ∧ h.getLsbD 31 = false ∧ (j ≠ 0 ∧ h.getLsbD (j - 1) = true) ∧
      (j + n ≤ 32 ∧ ∀ m, m < n - 1 → h.getLsbD (j + m) = false) ∧ decodeWords false (w :: ws) = .ok y ∧
      w.toNat / 2 ^ 28 < 14 ∧ 24 ≤ x.icount) ∧
    (∃ (s : State) (k p : Nat),
     let turn := s.tickTime.nextTurn.1
     let v := s.tickTime.nextTurn.2
     turn = .cIssue k p ∧ v.chooses k p = false ∧ v.canC k p = true) ∧
    (∃ (s : State) (i : Instr),
     (∀ m q, i ≠ .runStart m q) ∧
     let turn := s.tickTime.nextTurn.1
     let v := s.tickTime.nextTurn.2
     turn = .event i ∧ i.isIssued = false ∧ (∀ m, v.retriedGroup i = some m → v.choosesA m = true)) ∧
    (∃ (s : State) (i : Instr), s.tickTime.nextTurn.1 = .event i ∧ (∀ m q, i ≠ .runStart m q) ∧
      ∃ m, s.tickTime.nextTurn.2.retriedGroup i = some m ∧ s.tickTime.nextTurn.2.choosesA m = false) ∧
    (∃ (s : State) (k p : Nat),
     let turn := s.tickTime.nextTurn.1
     turn = .event (.runStart k p)) ∧
    (∃ (s : State) (i : Instr),
     let turn := s.tickTime.nextTurn.1
     turn = .event i ∧ i.isIssued = true) ∧
    (∃ (s : State) (a : Act),
     let turn := s.tickTime.nextTurn.1
     turn = .outside a) ∧
    (∃ (k : Nat) (t : State) (q e b : Nat) (f : Group → Nat),
     (t.group k).stepArmed = none) :=
  ⟨⟨addA, _, 0, 0x40000, wordOf (readA addA).2.1, _, _, .add 4#6 2#6 3#6, by rintro _ _ ⟨⟩, got_eq (by decide +kernel), by decide +kernel⟩,
   ⟨litA, _, _, 0, 0x40000, wordOf (readA litA).2.1, wordOf litB.2.1, _, _, _, _, 3#6, got_eq (by decide +kernel), got_eq (by decide +kernel), by decide +kernel⟩,
   ⟨badA, _, 0, 0x40000, wordOf (readA badA).2.1, _, _, errorOf (wordOf (readA badA).2.1), got_eq (by decide +kernel), by decide +kernel⟩,
   ⟨waits, 0, (.popca 3#6), by decide +kernel⟩,
   ⟨halts, 0, by decide +kernel⟩,
   ⟨twoA, 4, by decide +kernel, first_chosen, by decide +kernel⟩,
   ⟨addC, _, _, _, 0, 0, firstW, _, _, instrOf false (firstW :: restC.2), pathC, parcel_one (by decide +kernel), parcel_one (by decide +kernel), parcel_eq (by decide +kernel), by decide +kernel⟩,
   ⟨pastC, 0, 0, pathOf pastC, by decide +kernel⟩,
   ⟨reservedC, _, 0, 0, _, pathOf reservedC, parcel_one (by decide +kernel), by decide +kernel⟩,
   ⟨unmarkedC, _, 0, 0, _, pathOf unmarkedC, parcel_one (by decide +kernel), by decide +kernel⟩,
   ⟨brokenC, _, _, 0, 0, _, _, pathOf brokenC, parcel_one (by decide +kernel), parcel_one (by decide +kernel), by decide +kernel⟩,
   ⟨undefinedC, _, _, _, 0, 0, (firstOf undefinedC).2.headD 0#32, _, _, pathOf undefinedC, cError undefinedC, parcel_one (by decide +kernel), parcel_one (by decide +kernel), parcel_eq (by decide +kernel), by decide +kernel⟩,
   ⟨longC, _, _, _, 0, 0, (firstOf longC).2.headD 0#32, _, _, pathOf longC, instrOf false ((firstOf longC).2.headD 0#32 :: (restOf longC).2), parcel_one (by decide +kernel), parcel_one (by decide +kernel), parcel_eq (by decide +kernel), by decide +kernel⟩,
   ⟨(later (.cIssue 4 0) ((pair addC).setCurrent 0 0)), 4, 0, by decide +kernel⟩,
   ⟨(later (.event (.ldsComplete 0 0)) (held 0x04408300 32)), (.ldsComplete 0 0), by rintro _ _ ⟨⟩, by decide +kernel⟩,
   ⟨twoE, .waitfcSatisfied 4, by decide +kernel, by rintro _ _ ⟨⟩, 4, rfl, first_chosen_event⟩,
   ⟨(later (.event (.runStart 0 0)) (held 0x04408300 32)), 0, 0, by decide +kernel⟩,
   ⟨(later (.event (.add 4#6 2#6 3#6)) (held 0x04408300 32)), (.add 4#6 2#6 3#6), by decide +kernel⟩,
   ⟨(later (.outside (.contextRoot 0 0)) (held 0x04408300 32)), .contextRoot 0 0, by decide +kernel⟩,
   ⟨0, (held 0x04408300 32), 0, 3, 0, Group.aret, by decide +kernel⟩⟩

end Z2

/-! ## The premises of the claims about encoding and invariants -/

namespace Z3

/-- What the next state of an outcome is. -/
theorem after_next {o : Out} (h : (match o with | .next _ => true | _ => false) = true) : o = .next (after o) := by
  cases o <;> simp_all [after]

/-- A device that is about to run one ADD. -/
def addA : State := State.reset.withFetchWord 32 0x04408300
/-- A write of p0 that is due. -/
def toPred0 : FxWrite := { qmask := 1, dst := .pred 0, mask := 1, vals := [], full := false, lbl := 0#16, left := 1 }
theorem meets_HardwiredRegisters : ∃ w : FxWrite, w.dst = .pred 0 := ⟨toPred0, rfl⟩

theorem meets_DecodeInvertsEncode :
    (∃ i : Instr, i.aForm.isSome) ∧
    (∃ i : Instr, i.wf = true ∧ (i.cForm.isSome ∨ i.oneParcel.isSome)) ∧
    (∃ (w lit : Word) (i : Instr), decodeWords true [w, lit] = .ok i) ∧
    (∃ (w : Word) (ws : List Word) (i : Instr), decodeWords false (w :: ws) = .ok i) :=
  ⟨⟨.add 1 2 3, by decide⟩, ⟨Z2.instrOf false [0x01220004#32, 0x00088010#32], by decide +kernel⟩, ⟨0x2C300000#32, 0x89ABCDEF#32, Z2.instrOf true [0x2C300000#32, 0x89ABCDEF#32], by decide +kernel⟩,
   ⟨0x01220004#32, [0x00088010#32], Z2.instrOf false [0x01220004#32, 0x00088010#32], by decide +kernel⟩⟩

theorem meets_StepKeepsMemoryCanonical : ∃ s t : State, s.memOk ∧ Memory.wf s.hostMem = true ∧ step s = .next t :=
  ⟨addA, after (step addA), by decide +kernel, by decide +kernel, after_next (by decide +kernel)⟩

theorem meets_GranuleLabelsNeverFall : ∃ s t : State, step s = .next t ∧
    (∀ c b n, s.tickTime.nextTurn.1 ≠ .event (.frameAllocate c b n)) ∧ (∀ r, s.tickTime.nextTurn.1 ≠ .event (.deviceReset r)) := by
  have h : addA.tickTime.nextTurn.1 = .aWord 0 := by decide +kernel
  exact ⟨addA, after (step addA), after_next (by decide +kernel), by simp [h], by simp [h]⟩

end Z3

end Sys2Proof.Tests
end

section
/-! PROOFS. The hardwired registers: what p0 reads, and which writes are discarded. -/

namespace Sys2Proof.Machine

/-- p0 reads as all ones with the empty label (R12). -/
@[simp] theorem Group.pred_zero (g : Group) : g.pred 0 = { mask := BitVec.allOnes 32 } := by
  simp [Group.pred]

/-- A write to p0 is discarded (R12). -/
@[simp] theorem Group.writePred_zero (g : Group) (mask bits : Word) (full : Bool) (l : Label) :
    g.writePred 0 mask bits full l = g := by
  simp [Group.writePred]

/-- A write of fixed latency whose destination is a predicate lands as a write of that predicate (R203, R311). -/
theorem Group.land_pred (g : Group) {w : FxWrite} {k : Nat} (h : w.dst = .pred k) :
    g.land w = g.writePred k w.mask (w.vals.getD 0 0#32) w.full w.lbl := by
  simp [Group.land, h]

/-- Settles O1: s0 and p0 answer by their own branch of each read, and a write takes the branch that keeps the group. A write of
fixed latency reaches p0 only through `writePred`. -/
theorem hardwiredRegisters : Obligations.HardwiredRegisters := by
  intro g v w mask bits full l
  have landZero (h : w.dst = .pred 0) : g.land w = g := by
    rw [g.land_pred h, Group.writePred_zero]
  exact ⟨g.sreg_zero, g.setSreg_zero v, g.pred_zero, g.writePred_zero mask bits full l, landZero⟩

end Sys2Proof.Machine
end

section
/-! PROOFS. The arithmetic of the ALU group as the claims spell it, and the whole effect of each ALU word. -/

namespace Sys2Proof.Machine

open Sys2Proof

/-! ## The operations of the ALU group on values (R93, R159) -/

theorem divs64_eq (x y : DWord) :
    divs64 x y = if y = 0#64 then (if x.toInt < 0 then BitVec.intMin 64 else BitVec.intMax 64)
      else BitVec.ofInt 64 (x.toInt.tdiv y.toInt) := by
  have negative : x.slt 0#64 = true ↔ x.toInt < 0 := by simp [BitVec.slt_iff_toInt_lt]
  simp only [divs64, sdiv_eq_ofInt, negative]

theorem rems64_eq (x y : DWord) :
    rems64 x y = if y = 0#64 then x else BitVec.ofInt 64 (x.toInt.tmod y.toInt) := by
  rw [rems64, srem_eq_ofInt]

theorem divz64_eq (x y : DWord) :
    divz64 x y = if y = 0#64 then BitVec.allOnes 64 else BitVec.ofNat 64 (x.toNat / y.toNat) := by
  have quotient : x / y = BitVec.ofNat 64 (x.toNat / y.toNat) := by
    rw [← BitVec.toNat_udiv, BitVec.ofNat_toNat, BitVec.setWidth_eq]
  rw [divz64, quotient]

theorem remz64_eq (x y : DWord) :
    remz64 x y = if y = 0#64 then x else BitVec.ofNat 64 (x.toNat % y.toNat) := by
  have remainder : x % y = BitVec.ofNat 64 (x.toNat % y.toNat) := by
    rw [← BitVec.toNat_umod, BitVec.ofNat_toNat, BitVec.setWidth_eq]
  rw [remz64, remainder]

/-- A truth value as a scalar, by what the truth value decides. -/
theorem flag64_of_iff {b : Bool} {p : Prop} [Decidable p] (h : b = true ↔ p) : flag64 b = if p then 1#64 else 0#64 := by
  simp only [flag64, h]

/-- A choice made by `<` is the one made by `≤` when equal keys leave nothing to choose: so MIN and MAX may compare either way. -/
theorem ite_lt_eq_ite_le {α β : Type} [LinearOrder α] {u v : α} {a b : β} (h : u = v → a = b) :
    (if u < v then a else b) = if u ≤ v then a else b := by
  rcases lt_trichotomy u v with hlt | heq | hgt
  · rw [if_pos hlt, if_pos hlt.le]
  · rw [h heq, ite_self, ite_self]
  · rw [if_neg hgt.not_gt, if_neg hgt.not_ge]

/-- MIN and MAX compare as signed integers. -/
theorem ite_slt_eq (x y : DWord) {a b : DWord} (h : x = y → a = b) :
    (if x.slt y then a else b) = if x.toInt ≤ y.toInt then a else b := by
  simp only [BitVec.slt_iff_toInt_lt]
  exact ite_lt_eq_ite_le fun e => h (BitVec.eq_of_toInt_eq e)

/-- MINZ and MAXZ compare as unsigned integers. -/
theorem ite_ult_eq (x y : DWord) {a b : DWord} (h : x = y → a = b) :
    (if x.ult y then a else b) = if x.toNat ≤ y.toNat then a else b := by
  simp only [BitVec.ult_iff_lt, BitVec.lt_def]
  exact ite_lt_eq_ite_le fun e => h (BitVec.eq_of_toNat_eq e)

/-! ## The words of the group -/

/-- A word that runs as `alu2` of an operation with value `v` completes with `v` in its destination, and does no more (R159). -/
theorem exec_completes_of_alu2 {s : State} {d a b : SRegNo} (free : s.regsFree [a, b, d]) {i : Instr}
    {f : DWord → DWord → DWord} {v : DWord} (runs : exec i s = alu2 i f d a b s)
    (value : f (s.grp.sreg a).val (s.grp.sreg b).val = v) :
    Completes (exec i s) (fun t => ScalarResult s t d v (((s.grp.sreg a).lbl ||| (s.grp.sreg b).lbl) ||| s.grp.pA) 4) :=
  runs ▸ alu2_completes i f free value

/-- Settles O2: each of the 21 words runs as `alu2` of its own operation, which writes sd alone; what is left for a word is
that the operation gives the value of the claim and that the word holds the function code. -/
theorem scalarAluResults : Obligations.ScalarAluResults := by
  intro s d a b free x y l
  have res {i f v} := @exec_completes_of_alu2 s d a b free i f v
  simp only [List.zipIdx_cons, List.zipIdx_nil, List.forall_mem_cons, List.not_mem_nil, false_imp_iff, implies_true, and_true]
  exact ⟨⟨res (exec_add ..) rfl, rfl⟩, ⟨res (exec_sub ..) rfl, rfl⟩, ⟨res (exec_mul ..) rfl, rfl⟩,
    ⟨res (exec_mulhi ..) rfl, rfl⟩, ⟨res (exec_divs ..) (divs64_eq x y), rfl⟩, ⟨res (exec_divz ..) (divz64_eq x y), rfl⟩,
    ⟨res (exec_rems ..) (rems64_eq x y), rfl⟩, ⟨res (exec_remz ..) (remz64_eq x y), rfl⟩, ⟨res (exec_and ..) rfl, rfl⟩,
    ⟨res (exec_or ..) rfl, rfl⟩, ⟨res (exec_xor ..) rfl, rfl⟩, ⟨res (exec_shl ..) rfl, rfl⟩, ⟨res (exec_shr ..) rfl, rfl⟩,
    ⟨res (exec_sar ..) rfl, rfl⟩, ⟨res (exec_min ..) (ite_slt_eq x y id), rfl⟩,
    ⟨res (exec_max ..) (ite_slt_eq x y Eq.symm), rfl⟩, ⟨res (exec_minz ..) (ite_ult_eq x y id), rfl⟩,
    ⟨res (exec_maxz ..) (ite_ult_eq x y Eq.symm), rfl⟩, ⟨res (exec_slt ..) (flag64_of_iff BitVec.slt_iff_toInt_lt), rfl⟩,
    ⟨res (exec_sltz ..) (flag64_of_iff BitVec.ult_iff_lt), rfl⟩, ⟨res (exec_seq ..) (flag64_of_iff beq_iff_eq), rfl⟩⟩

end Sys2Proof.Machine
end

section
/-! PROOFS. The A-slice path stack under branches, LOOP, JR and RET: what is pushed, what is refused, and how the word ends. -/

namespace Sys2Proof.Machine

open Sys2Proof

/-! ## Pushing and replacing path labels (R121, R122) -/

/-- The check of R114 as the model makes it and as the claims say it. -/
theorem within_iff_labelIn (a b : Label) : a.within b = true ↔ LabelIn a b := by
  simp [Label.within]

/-- A stack that refuses a push is not empty: its top was pushed by another word, and it is full. -/
theorem not_roomToPush_iff (stack : List PathLbl) (at_ : Nat) :
    ¬ roomToPush stack at_ ↔ ∃ top rest, stack = top :: rest ∧ top.pusher ≠ some at_ ∧ 16 ≤ stack.length := by
  cases stack with
  | nil => simp
  | cons top rest => simp [and_comm]

theorem pushLabel_of_room {c l : Label} {stack : List PathLbl} {at_ : Nat} (within : LabelIn l c) (room : roomToPush stack at_) :
    pushLabel 16 c stack l at_ = .ok (pushedStack stack l at_) := by
  have hw : l.within c = true := (within_iff_labelIn l c).2 within
  cases stack with
  | nil => simp [pushLabel, pushedStack, hw]
  | cons top rest =>
    by_cases same : top.pusher = some at_
    · simp [pushLabel, pushedStack, hw, same, Label.join]
    · have short : (top :: rest).length < 16 := room.resolve_right (by simpa using same)
      simp only [pushLabel, pushedStack, hw, same, if_neg short.not_ge]
      simp

theorem pushLabel_of_not_within {c l : Label} (out : ¬ LabelIn l c) (depth : Nat) (stack : List PathLbl) (at_ : Nat) :
    pushLabel depth c stack l at_ = .error (fltBranch 0 l c) := by
  rw [← within_iff_labelIn, Bool.not_eq_true] at out
  simp [pushLabel, out]

theorem pushLabel_of_full {c l : Label} {stack : List PathLbl} {at_ : Nat} (within : LabelIn l c) (full : ¬ roomToPush stack at_) :
    pushLabel 16 c stack l at_ = .error (fltBranch 1 l c) := by
  have hw : l.within c = true := (within_iff_labelIn l c).2 within
  obtain ⟨top, rest, rfl, other, long⟩ := (not_roomToPush_iff stack at_).1 full
  simp only [pushLabel, hw, other, long]
  simp

theorem replaceLabel_of_not_within {c l : Label} {stack : List PathLbl}
    (out : ¬ LabelIn ((stack.head?.map (·.lbl)).getD 0#16 ||| l) c) (at_ : Nat) :
    replaceLabel c stack l at_ = .error (fltBranch 0 ((stack.head?.map (·.lbl)).getD 0#16 ||| l) c) := by
  rw [← within_iff_labelIn, Bool.not_eq_true] at out
  cases stack with
  | nil =>
    have union : ((([] : List PathLbl).head?.map (·.lbl)).getD 0#16 ||| l) = l := BitVec.zero_or
    rw [union] at out ⊢
    simp [replaceLabel, out]
  | cons top rest =>
    rw [List.head?_cons, Option.map_some, Option.getD_some] at out ⊢
    simp [replaceLabel, Label.join, out]

/-! ## How a word that transfers control ends (R62, R155, R163) -/

theorem branchTarget_eq (apc : DWord) {n : Nat} (i : BitVec n) : branchTarget apc i = apc + 4#64 * i.signExtend 64 := by
  rw [branchTarget, BitVec.shiftLeft_eq_mul_twoPow, BitVec.mul_comm]
  rfl

/-- A jump of the group that moves, under a new path stack, is a control transfer and nothing else. -/
theorem jump_controlResult (s : State) (stack : List PathLbl) (target : DWord) :
    ControlResult s (s.setGrp ({ s.grp with apath := stack }.jump target)) target stack := by
  refine ⟨⟨⟨rfl, fun j hj => State.group_setGrp_ne _ _ hj⟩, ?_⟩, ?_, ?_, fun r => ?_⟩ <;> rw [State.grp_setGrp] <;> rfl

/-- A branch goes to its target when its condition holds of its operands, and on when not; it pushes its labels either way. -/
theorem branch_completes (i : Instr) (cond : DWord → DWord → Bool) {s : State} {a b : SRegNo} (off : BitVec 14) {taken : Bool}
    {stack : List PathLbl} (free : s.regsFree [a, b]) (holds : cond (s.grp.sreg a).val (s.grp.sreg b).val = taken)
    (push : pushLabel 16 (s.ceil s.cur) s.grp.apath (((s.grp.sreg a).lbl ||| (s.grp.sreg b).lbl) ||| s.grp.pA) s.grp.apc.toNat
      = .ok stack) :
    Completes (branch i cond a b off s) (fun t => ControlResult s t
      (s.grp.apc + (if taken then 4#64 * off.signExtend 64 else 4#64)) stack) := by
  unfold branch
  simp only [State.whenFree_of_regsFree free, resultLabel_two, push, holds, branchTarget_eq]
  -- a branch that is not taken advances, which is a jump to the word after it
  cases taken with
  | true => exact ⟨_, rfl, jump_controlResult s stack _⟩
  | false => exact ⟨_, rfl, jump_controlResult s stack _⟩

/-- A branch whose push is refused takes the fault of the push. -/
theorem branch_of_refused (i : Instr) (cond : DWord → DWord → Bool) {s : State} {a b : SRegNo} (off : BitVec 14) {f : Flt}
    (free : s.regsFree [a, b])
    (refused : pushLabel 16 (s.ceil s.cur) s.grp.apath (((s.grp.sreg a).lbl ||| (s.grp.sreg b).lbl) ||| s.grp.pA) s.grp.apc.toNat
      = .error f) :
    branch i cond a b off s = .next (s.raiseA f) := by
  unfold branch
  simp only [State.whenFree_of_regsFree free, resultLabel_two, refused]
  rfl

/-- A LOOP whose push is refused takes the fault of the push, and does not count down. -/
theorem execLoop_of_refused {s : State} {d : SRegNo} (j : BitVec 20) {f : Flt} (free : s.regsFree [d])
    (refused : pushLabel 16 (s.ceil s.cur) s.grp.apath ((s.grp.sreg d).lbl ||| s.grp.pA) s.grp.apc.toNat = .error f) :
    execLoop d j s = .next (s.raiseA f) := by
  unfold execLoop
  simp only [State.whenFree_of_regsFree free, resultLabel_one, refused]
  rfl

theorem jumpReg_of_misaligned (i : Instr) {s : State} {a : SRegNo} (free : s.regsFree [a])
    (misaligned : (s.grp.sreg a).val.toNat % 4 ≠ 0) : jumpReg i a s = .next (s.raiseA fltIllegal) := by
  unfold jumpReg
  rw [State.whenFree_of_regsFree free, if_pos misaligned]
  rfl

theorem jumpReg_of_refused (i : Instr) {s : State} {a : SRegNo} {f : Flt} (free : s.regsFree [a])
    (aligned : (s.grp.sreg a).val.toNat % 4 = 0)
    (refused : replaceLabel (s.ceil s.cur) s.grp.apath (s.grp.sreg a).lbl s.grp.apc.toNat = .error f) :
    jumpReg i a s = .next (s.raiseA f) := by
  unfold jumpReg
  simp only [State.whenFree_of_regsFree free, aligned, refused]
  rfl

/-- A RET whose target is misaligned is not recorded by the trace unit: it is the jump alone. -/
theorem execRet_of_misaligned {s : State} {a : SRegNo} (misaligned : (s.grp.sreg a).val.toNat % 4 ≠ 0) :
    execRet a s = jumpReg (.ret a) a s := by
  simp [execRet, misaligned]

/-- Nor is a RET whose path label is refused, whatever pusher the replacement would name. -/
theorem execRet_of_refused {s : State} {a : SRegNo} {f : Flt}
    (refused : replaceLabel (s.ceil s.cur) s.grp.apath (s.grp.sreg a).lbl 0 = .error f) :
    execRet a s = jumpReg (.ret a) a s := by
  simp [execRet, refused, Except.isOk, Except.toBool]

/-- A fault that ends no grid leaves APC of the group that takes it where it was, whether it is the group's first fault or a
further one; and the group that moves stays the same (R155, R377). -/
theorem State.raiseRec_apc {s : State} {k : Nat} {r : FaultRec} (noLease : r.flt.code ≠ 0x04) :
    (s.raiseRec k r).cur = s.cur ∧ ((s.raiseRec k r).group k).apc = (s.group k).apc := by
  cases fault : (s.group k).fault with
  | none =>
    obtain ⟨same, group, -⟩ := State.raiseRec_first fault noLease
    exact ⟨by rw [same], by rw [group]⟩
  | some _ =>
    obtain ⟨same, group, -⟩ := State.raiseRec_again fault noLease
    exact ⟨by rw [same], by rw [group]⟩

theorem State.raiseA_apc (s : State) {f : Flt} (noLease : f.code ≠ 0x04) : (s.raiseA f).grp.apc = s.grp.apc := by
  obtain ⟨cur, apc⟩ := State.raiseRec_apc (s := s) (k := s.cur)
    (r := { flt := f, cslice := false, fpos := 0, fcycle := s.cycle }) noLease
  rw [State.raiseA, State.grp, cur, apc]
  rfl

/-! ## The six branches together (R163) -/

theorem State.regsFree_of_subset {s : State} {rs qs : List SRegNo} (free : s.regsFree rs) (sub : qs ⊆ rs) : s.regsFree qs :=
  fun r hr => free r (sub hr)

/-- BGE goes where BLT does not. -/
theorem not_slt_eq_decide (x y : DWord) : (!x.slt y) = decide (y.toInt ≤ x.toInt) := by
  rw [BitVec.slt_eq_decide, ← decide_not, decide_eq_decide, not_lt]

/-- BHS goes where BLO does not. -/
theorem not_ult_eq_decide (x y : DWord) : (!x.ult y) = decide (y.toNat ≤ x.toNat) := by
  rw [BitVec.ult_eq_decide, ← decide_not, decide_eq_decide, not_lt]

/-- Every branch whose push is refused takes the fault of the push. -/
theorem exec_branches_of_refused {s : State} {a b : SRegNo} (i : BitVec 14) {f : Flt} (free : s.regsFree [a, b])
    (refused : pushLabel 16 (s.ceil s.cur) s.grp.apath (((s.grp.sreg a).lbl ||| (s.grp.sreg b).lbl) ||| s.grp.pA) s.grp.apc.toNat
      = .error f) :
    ∀ e ∈ [Instr.beq a b i, .bne a b i, .blt a b i, .bge a b i, .blo a b i, .bhs a b i], exec e s = .next (s.raiseA f) := by
  have res {e cond} (runs : exec e s = branch e cond a b i s) : exec e s = .next (s.raiseA f) :=
    runs.trans (branch_of_refused e cond i free refused)
  simp only [List.forall_mem_cons, List.not_mem_nil, false_imp_iff, implies_true, and_true]
  exact ⟨res (exec_beq ..), res (exec_bne ..), res (exec_blt ..), res (exec_bge ..), res (exec_blo ..), res (exec_bhs ..)⟩

/-- Every branch whose label is within the effective ceiling, and whose push finds room, goes to its target or on. -/
theorem exec_branches_complete {s : State} {a b : SRegNo} (i : BitVec 14) (free : s.regsFree [a, b])
    (within : LabelIn (((s.grp.sreg a).lbl ||| (s.grp.sreg b).lbl) ||| s.grp.pA) (s.ceil s.cur))
    (room : roomToPush s.grp.apath s.grp.apc.toNat) :
    let x := (s.grp.sreg a).val
    let y := (s.grp.sreg b).val
    ∀ e ∈ [(Instr.beq a b i, decide (x = y)), (.bne a b i, decide (x ≠ y)), (.blt a b i, decide (x.toInt < y.toInt)),
           (.bge a b i, decide (y.toInt ≤ x.toInt)), (.blo a b i, decide (x.toNat < y.toNat)),
           (.bhs a b i, decide (y.toNat ≤ x.toNat))],
      Completes (exec e.1 s) (fun t => ControlResult s t
        (s.grp.apc + (if e.2 then 4#64 * i.signExtend 64 else 4#64))
        (pushedStack s.grp.apath (((s.grp.sreg a).lbl ||| (s.grp.sreg b).lbl) ||| s.grp.pA) s.grp.apc.toNat)) := by
  intro x y
  have res {e cond taken} (runs : exec e s = branch e cond a b i s) (holds : cond x y = taken) :
      Completes (exec e s) _ :=
    runs ▸ branch_completes e cond i free holds (pushLabel_of_room within room)
  simp only [List.forall_mem_cons, List.not_mem_nil, false_imp_iff, implies_true, and_true]
  exact ⟨res (exec_beq ..) (Bool.eq_iff_iff.2 (by simp)), res (exec_bne ..) (Bool.eq_iff_iff.2 (by simp)),
    res (exec_blt ..) (BitVec.slt_eq_decide ..), res (exec_bge ..) (not_slt_eq_decide ..),
    res (exec_blo ..) (BitVec.ult_eq_decide ..), res (exec_bhs ..) (not_ult_eq_decide ..)⟩

/-- A word of the I or B format holds its 14-bit immediate whole, below its two registers (R60). -/
theorem ofImm14_toWord (op a b : BitVec 6) (i : BitVec 14) :
    (Instr.aForm.ofImm14 op a b i).toWord = op ++ a ++ b ++ i := by
  have halves : i.extractLsb' 8 6 ++ i.extractLsb' 0 8 = i := by
    rw [BitVec.extractLsb'_append_extractLsb'_eq_extractLsb' (by rfl), BitVec.extractLsb'_eq_self]
  rw [AWord.toWord, Instr.aForm.ofImm14]
  conv_rhs => rw [← halves]
  exact BitVec.append_assoc

theorem encode_branches (a b : SRegNo) (i : BitVec 14) :
    ∀ e ∈ [(Instr.beq a b i, 0x13#6), (.bne a b i, 0x14#6), (.blt a b i, 0x15#6), (.bge a b i, 0x16#6), (.blo a b i, 0x17#6),
           (.bhs a b i, 0x18#6)], encode e.1 = [e.2 ++ a ++ b ++ i] := by
  have word (op : BitVec 6) : [(Instr.aForm.ofImm14 op a b i).toWord] = [op ++ a ++ b ++ i] :=
    congrArg ([·]) (ofImm14_toWord op a b i)
  simp only [List.forall_mem_cons, List.not_mem_nil, false_imp_iff, implies_true, and_true]
  exact ⟨word _, word _, word _, word _, word _, word _⟩

/-- Settles O4: a push is made or refused by the three cases of R122, and every branch, and LOOP, does what its push says. JR
and RET are one jump with a replacement, RET being recorded only when the jump is made; no fault of theirs ends a grid. -/
theorem branchResults : Obligations.BranchResults := by
  constructor
  · intro s a b i free x y l
    exact ⟨encode_branches a b i, exec_branches_complete i free⟩
  · intro s a b d i j free c l ld bs
    have freeAB : s.regsFree [a, b] := State.regsFree_of_subset free (by simp)
    have freeA : s.regsFree [a] := State.regsFree_of_subset free (by simp)
    have freeD : s.regsFree [d] := State.regsFree_of_subset free (by simp)
    refine ⟨?_, ?_, ?_, ?_, ?_, ?_, ?_⟩
    · intro out
      exact exec_branches_of_refused i freeAB (pushLabel_of_not_within out ..)
    · intro within full
      exact exec_branches_of_refused i freeAB (pushLabel_of_full within full)
    · intro out
      exact (exec_loop ..).trans (execLoop_of_refused j freeD (pushLabel_of_not_within out ..))
    · intro within full
      exact (exec_loop ..).trans (execLoop_of_refused j freeD (pushLabel_of_full within full))
    · intro top aligned out
      have refused (at_ : Nat) : replaceLabel c s.grp.apath (s.grp.sreg a).lbl at_ = .error (fltBranch 0 top c) :=
        replaceLabel_of_not_within out at_
      have ends (e : Instr) := jumpReg_of_refused e freeA aligned (refused _)
      simp only [List.forall_mem_cons, List.not_mem_nil, false_imp_iff, implies_true, and_true]
      exact ⟨(exec_jr ..).trans (ends _), (exec_ret ..).trans ((execRet_of_refused (refused 0)).trans (ends _))⟩
    · intro misaligned
      have ends (e : Instr) : jumpReg e a s = .next (s.raiseA fltIllegal) := jumpReg_of_misaligned e freeA misaligned
      exact ⟨(exec_jr ..).trans (ends _), (exec_ret ..).trans ((execRet_of_misaligned misaligned).trans (ends _))⟩
    · intro f code
      exact s.raiseA_apc (by omega)

end Sys2Proof.Machine
end

section
/-! PROOFS. The immediate forms, SEL, the constants and the label words: each writes its value to one register. -/

namespace Sys2Proof.Machine

open Sys2Proof

/-- An immediate form computes `f` of its source (R160, R118). -/
theorem aluImm_completes (i : Instr) (f : DWord → DWord) {s : State} {d a : SRegNo} (free : s.regsFree [a, d]) :
    Completes (aluImm i f d a s) (fun t => ScalarResult s t d (f (s.grp.sreg a).val) ((s.grp.sreg a).lbl ||| s.grp.pA) 4) := by
  unfold aluImm
  rw [State.whenFree_of_regsFree free, resultLabel_one]
  exact aWrite_completes ..

/-- LIH keeps the low 32 bits and puts its immediate above them (R162). -/
theorem lihValue_eq (x : DWord) (j : BitVec 20) :
    x &&& 0xFFFFFFFF#64 ||| (j.zeroExtend 64 <<< 32) = BitVec.ofNat 64 (x.toNat % 2 ^ 32 + 2 ^ 32 * j.toNat) := by
  have low : x.toNat &&& 0xFFFFFFFF = x.toNat % 2 ^ 32 := Nat.and_two_pow_sub_one_eq_mod x.toNat 32
  have small : x.toNat % 2 ^ 32 < 2 ^ 32 := Nat.mod_lt _ (by norm_num)
  have imm : (j.zeroExtend 64 <<< 32).toNat = 2 ^ 32 * j.toNat := by
    have := j.isLt
    rw [BitVec.toNat_shiftLeft, BitVec.zeroExtend, BitVec.toNat_setWidth, Nat.shiftLeft_eq]
    omega
  have fits := j.isLt
  apply BitVec.eq_of_toNat_eq
  rw [BitVec.toNat_or, imm, BitVec.toNat_and, BitVec.toNat_ofNat (_ + _), Nat.or_comm, Nat.add_comm]
  change 2 ^ 32 * j.toNat ||| (x.toNat &&& 0xFFFFFFFF) = _
  rw [low, ← Nat.two_pow_add_eq_or_of_lt small]
  omega

/-- LBLRD gives the label as a number (R142). -/
theorem zeroExtend_label (l : Label) : l.zeroExtend 64 = BitVec.ofNat 64 l.toNat := by
  rw [BitVec.ofNat_toNat]

/-- Settles O3: each word, once its registers are free, is the one write of its value and label. What is left is that LIH, ADDPC
and the label words spell value and label as the claim does. -/
theorem scalarImmediateResults : Obligations.ScalarImmediateResults := by
  intro s d a b c i n j w free x k la
  have freeAD : s.regsFree [a, d] := State.regsFree_of_subset free (by simp)
  have freeD : s.regsFree [d] := State.regsFree_of_subset free (by simp)
  have freeABD : s.regsFree [a, b, d] := State.regsFree_of_subset free (by simp)
  have imm {e : Instr} {f : DWord → DWord} (runs : exec e s = aluImm e f d a s) :
      Completes (exec e s) (fun t => ScalarResult s t d (f x) (la ||| k) 4) := runs ▸ aluImm_completes e f freeAD
  have write {e : Instr} {rs : List SRegNo} {v : DWord} {l : Label} {m : Nat} (fr : s.regsFree rs)
      (runs : exec e s = s.whenFree e rs (s.aWrite d v l m)) : Completes (exec e s) (fun t => ScalarResult s t d v l m) := by
    rw [runs, State.whenFree_of_regsFree fr]
    exact aWrite_completes ..
  simp only [List.forall_mem_cons, List.not_mem_nil, false_imp_iff, implies_true, and_true]
  refine ⟨⟨imm (exec_addi ..), imm (exec_andi ..), imm (exec_ori ..), imm (exec_xori ..), imm (exec_shli ..), imm (exec_shri ..),
    imm (exec_sari ..), write free ?_, write freeD ?_, write freeD ?_, write freeAD ?_, write freeABD ?_⟩, write freeD ?_⟩
  · rw [exec_sel, execSel, resultLabel_three]
  · rw [exec_lih, execLih, lihValue_eq, resultLabel_one]
  · rw [exec_addpc, execAddpc, branchTarget_eq]
  · rw [exec_lblrd, execLblrd, resultLabel_one, zeroExtend_label]
  · rw [exec_lblup, execLblup, resultLabel_three, BitVec.ofNat_toNat]
  · rfl

end Sys2Proof.Machine
end

section
/-! PROOFS. The state after reset. -/

namespace Sys2Proof.Machine

open Sys2Proof

/-- After reset every byte reads as an unlisted one does (log 5). -/
theorem State.byteAt_reset (a : Nat) : State.reset.byteAt a = 0#8 := rfl

/-- After reset every label is empty, in the host window by the window's own rule (R116; log 16). -/
theorem State.labelAt_reset (a : Nat) : State.reset.labelAt a = 0#16 := by
  unfold State.labelAt
  split <;> rfl

/-- Settles O58: field by field, the reset state is written so. -/
theorem resetState : Obligations.ResetState :=
  ⟨State.reset_memOk, rfl, rfl, rfl, rfl, rfl, rfl, rfl, rfl, rfl, rfl, rfl, rfl, rfl, State.byteAt_reset, State.labelAt_reset⟩

end Sys2Proof.Machine
end

section
/-! PROOFS. Words written out from the encoding tables decode to their instructions. -/

namespace Sys2Proof.Machine

open Sys2Proof

/-- A word that is refused decodes to no instruction. -/
theorem ne_ok_of_error {w : Except Reject Instr} (h : w.toOption = none) (i : Instr) : w ≠ .ok i := by
  rintro rfl
  cases h

/-- Settles O55: the decoder runs on each of the words. -/
theorem decodeSpecWords : Obligations.DecodeSpecWords := by
  refine ⟨by decide +kernel, by decide +kernel, fun i => ⟨ne_ok_of_error ?_ i, ne_ok_of_error ?_ i, ne_ok_of_error ?_ i⟩⟩
  · decide +kernel
  · decide +kernel
  · decide +kernel

end Sys2Proof.Machine
end

section
/-! PROOFS. Decoding inverts encoding: the fields of a word of the address stream and of the parcels of the compute stream come
back, and what decodes is what its fields say. -/

namespace Sys2Proof

open Machine

/-! ## Words of the address stream (R60 to R66) -/

/-- Cutting the word that fields make gives the fields back (R60). -/
@[simp] theorem AWord.ofWord_toWord (x : AWord) : AWord.ofWord x.toWord = x := by
  simp (disch := decide) only [AWord.ofWord, AWord.toWord, BitVec.extractLsb'_append_eq_of_le,
    BitVec.extractLsb'_append_eq_of_add_le, BitVec.extractLsb'_eq_self, Nat.reduceSub, Nat.sub_self]

/-- The fields of a word make the word (R60). -/
@[simp] theorem AWord.toWord_ofWord (w : Word) : (AWord.ofWord w).toWord = w := by
  change w.extractLsb' 26 6 ++ w.extractLsb' 20 6 ++ w.extractLsb' 14 6 ++ w.extractLsb' 8 6 ++ w.extractLsb' 0 8 = w
  iterate 4 rw [BitVec.extractLsb'_append_extractLsb'_eq_extractLsb' (by rfl)]
  exact BitVec.extractLsb'_eq_self

@[simp] theorem AWord.imm14_ofImm14 (op d a : BitVec 6) (i : BitVec 14) : (Instr.aForm.ofImm14 op d a i).imm14 = i := by
  change i.extractLsb' 8 6 ++ i.extractLsb' 0 8 = i
  rw [BitVec.extractLsb'_append_extractLsb'_eq_extractLsb' (by rfl)]
  exact BitVec.extractLsb'_eq_self

@[simp] theorem AWord.imm20_ofImm20 (op d : BitVec 6) (i : BitVec 20) : (Instr.aForm.ofImm20 op d i).imm20 = i := by
  change i.extractLsb' 14 6 ++ i.extractLsb' 8 6 ++ i.extractLsb' 0 8 = i
  iterate 2 rw [BitVec.extractLsb'_append_extractLsb'_eq_extractLsb' (by rfl)]
  exact BitVec.extractLsb'_eq_self

@[simp] theorem ofImm14_op (op d a : BitVec 6) (i : BitVec 14) : (Instr.aForm.ofImm14 op d a i).op = op := rfl
@[simp] theorem ofImm14_f25 (op d a : BitVec 6) (i : BitVec 14) : (Instr.aForm.ofImm14 op d a i).f25 = d := rfl
@[simp] theorem ofImm14_f19 (op d a : BitVec 6) (i : BitVec 14) : (Instr.aForm.ofImm14 op d a i).f19 = a := rfl
@[simp] theorem ofImm20_op (op d : BitVec 6) (i : BitVec 20) : (Instr.aForm.ofImm20 op d i).op = op := rfl
@[simp] theorem ofImm20_f25 (op d : BitVec 6) (i : BitVec 20) : (Instr.aForm.ofImm20 op d i).f25 = d := rfl

/-- The fields of the I format are those of a word with its immediate (R60). -/
theorem ofImm14_imm14 (x : AWord) : Instr.aForm.ofImm14 x.op x.f25 x.f19 x.imm14 = x := by
  simp (disch := decide) only [AWord.imm14, Instr.aForm.ofImm14, BitVec.extractLsb'_append_eq_of_le,
    BitVec.extractLsb'_append_eq_of_add_le, BitVec.extractLsb'_eq_self, Nat.sub_self]

/-- The fields of the J format are those of a word with its immediate (R60). -/
theorem ofImm20_imm20 (x : AWord) : Instr.aForm.ofImm20 x.op x.f25 x.imm20 = x := by
  simp (disch := decide) only [AWord.imm20, Instr.aForm.ofImm20, BitVec.extractLsb'_append_eq_of_le,
    BitVec.extractLsb'_append_eq_of_add_le, BitVec.extractLsb'_eq_self, Nat.reduceSub, Nat.sub_self]

@[simp] theorem whenZero_true (i : Instr) : whenZero true i = .ok i := rfl

theorem whenZero_eq_ok {z : Bool} {i j : Instr} : whenZero z i = .ok j ↔ z = true ∧ i = j := by
  cases z <;> simp [whenZero]

/-- A field whose high bits are zero is its low bits under zeros. -/
theorem zero_append_low {m n k : Nat} {x : BitVec k} (hk : k = n + m) (h : x.extractLsb' m n = 0#n) :
    0#n ++ x.extractLsb' 0 m = x.cast hk := by
  subst hk
  rw [← h, BitVec.extractLsb'_append_extractLsb'_eq_extractLsb' (by simp), BitVec.extractLsb'_eq_self]
  rfl

/-- A field whose low bits are zero is its high bits over zeros. -/
theorem high_append_zero {m n k : Nat} {x : BitVec k} (hk : k = n + m) (h : x.extractLsb' 0 m = 0#m) :
    x.extractLsb' m n ++ 0#m = x.cast hk := by
  subst hk
  rw [← h, BitVec.extractLsb'_append_extractLsb'_eq_extractLsb' (by simp), BitVec.extractLsb'_eq_self]
  rfl

theorem Scope.ofCode_code (c : Scope) : Scope.ofCode c.code.toNat = some c := by cases c <;> rfl

theorem FenceKind.ofCode_code (k : FenceKind) : FenceKind.ofCode k.code.toNat = some k := by cases k <;> rfl

theorem FC.ofCode_code (c : FC) : FC.ofCode c.code.toNat = some c := by cases c <;> rfl

theorem Scope.code_of_ofCode {b : BitVec 3} {c : Scope} (h : Scope.ofCode b.toNat = some c) : c.code = b := by
  revert b; cases c <;> decide

theorem FenceKind.code_of_ofCode {b : BitVec 2} {k : FenceKind} (h : FenceKind.ofCode b.toNat = some k) : k.code = b := by
  revert b; cases k <;> decide

theorem FC.code_of_ofCode {b : BitVec 4} {c : FC} (h : FC.ofCode b.toNat = some c) : c.code = b := by
  revert b; cases c <;> decide

/-- A field written under zeros is found again, and the zeros with it. -/
theorem whenZero_zero_append {m n : Nat} (b : BitVec m) (f : BitVec m → Instr) :
    whenZero ((0#n ++ b).extractLsb' m n == 0#n) (f ((0#n ++ b).extractLsb' 0 m)) = .ok (f b) := by
  simp [BitVec.extractLsb'_append_eq_left, BitVec.extractLsb'_append_eq_right]

/-- A field written over zeros is found again, and the zeros with it. -/
theorem whenZero_append_zero {m n : Nat} (b : BitVec m) (f : BitVec m → Instr) :
    whenZero ((b ++ 0#n).extractLsb' 0 n == 0#n) (f ((b ++ 0#n).extractLsb' n m)) = .ok (f b) := by
  simp [BitVec.extractLsb'_append_eq_left, BitVec.extractLsb'_append_eq_right]

/-- The word that an instruction of the address stream is written as decodes to it (R60 to R66). -/
theorem decodeA_of_aForm {i : Instr} {x : AWord} (h : i.aForm = some x) : decodeA x.toWord (i.aLiteral.getD 0#32) = .ok i := by
  rw [decodeA, AWord.ofWord_toWord]
  cases i
  case glbl sp a b => cases sp <;> (cases h; rfl)
  all_goals cases h
  case addi | andi | ori | xori | lds | sts | beq | bne | blt | bge | blo | bhs | vsta | pref | slipset | getsr | setsr | popca => simp
  case lih | addpc | jmp | call | loop | run | li32 => simp [Instr.aLiteral]
  case shli d a n => simpa using whenZero_zero_append n (.shli d a)
  case shri d a n => simpa using whenZero_zero_append n (.shri d a)
  case sari d a n => simpa using whenZero_zero_append n (.sari d a)
  case ldk d n => simpa using whenZero_zero_append n (.ldk d)
  case vld q a i => simpa using whenZero_zero_append q (.vld · a i)
  case sel d a b c => exact whenZero_append_zero c (.sel d a b)
  case waitfc c n => cases c <;> simpa [FC.code, FC.ofCode] using whenZero_zero_append n (.waitfc _)
  case fence c k => cases c <;> cases k <;> rfl
  all_goals rfl

@[simp] theorem ofImm14_append (op d a b : BitVec 6) (c : BitVec 8) : Instr.aForm.ofImm14 op d a (b ++ c) = ⟨op, d, a, b, c⟩ :=
  ofImm14_imm14 ⟨op, d, a, b, c⟩

@[simp] theorem ofImm20_append (op d a b : BitVec 6) (c : BitVec 8) : Instr.aForm.ofImm20 op d (a ++ b ++ c) = ⟨op, d, a, b, c⟩ :=
  ofImm20_imm20 ⟨op, d, a, b, c⟩

theorem eq_ofNat_of_toNat {n k : Nat} {b : BitVec n} (h : b.toNat = k) : b = BitVec.ofNat n k := by
  rw [← h, BitVec.ofNat_toNat, BitVec.setWidth_eq]




theorem aForm_of_decodeAlu {d a b : BitVec 6} {c : BitVec 8} {i : Instr} (h : decodeAlu ⟨0x01#6, d, a, b, c⟩ = .ok i) :
    i.aForm = some ⟨0x01#6, d, a, b, c⟩ := by
  rw [decodeAlu] at h
  split at h
  case h_22 => cases h
  all_goals
    rename_i code
    obtain rfl : c = _ := eq_ofNat_of_toNat code
    cases h
    rfl

theorem aForm_of_decodeAmos {d a b : BitVec 6} {c : BitVec 8} {i : Instr} (h : decodeAmos ⟨0x22#6, d, a, b, c⟩ = .ok i) :
    i.aForm = some ⟨0x22#6, d, a, b, c⟩ := by
  rw [decodeAmos] at h
  split at h
  case h_11 => cases h
  all_goals
    rename_i code
    obtain rfl : c = _ := eq_ofNat_of_toNat code
    cases h
    rfl

theorem aForm_of_decodeSystem {d a b : BitVec 6} {c : BitVec 8} {i : Instr} (h : decodeSystem ⟨0x1B#6, d, a, b, c⟩ = .ok i) :
    i.aForm = some ⟨0x1B#6, d, a, b, c⟩ := by
  rw [decodeSystem] at h
  dsimp only at h
  split at h
  case h_10 => cases h
  all_goals
    rename_i code
    obtain rfl : c = _ := eq_ofNat_of_toNat code
  case h_5 =>
    split at h
    case h_5 => cases h
    all_goals
      rename_i target
      obtain rfl : d = _ := eq_ofNat_of_toNat target
      cases h
      rfl
  case h_7 =>
    split at h
    case h_3 => cases h
    all_goals
      rename_i kind
      obtain rfl : b = _ := eq_ofNat_of_toNat kind
      simp only [whenZero_eq_ok, Bool.and_eq_true, beq_iff_eq] at h
      casesm* _ ∧ _
      subst_vars
      rfl
  case h_1 | h_4 | h_6 =>
    cases h
    rfl
  all_goals
    simp only [whenZero_eq_ok, Bool.and_eq_true, beq_iff_eq] at h
    casesm* _ ∧ _
    subst_vars
    rfl

theorem fence_bits {b : BitVec 6} {x : BitVec 3} {y : BitVec 2} (hx : x = b.extractLsb' 3 3) (hy : y = b.extractLsb' 1 2)
    (low : b.extractLsb' 0 1 = 0#1) : x ++ y ++ 0#1 = b := by
  rw [hx, hy, ← low, BitVec.extractLsb'_append_extractLsb'_eq_extractLsb' (by rfl),
    BitVec.extractLsb'_append_extractLsb'_eq_extractLsb' (by rfl)]
  exact BitVec.extractLsb'_eq_self

/-- A word that `decodeSync` takes holds the fields of its instruction (R66). -/
theorem aForm_of_decodeSync {d a b : BitVec 6} {c : BitVec 8} {i : Instr} (h : decodeSync ⟨0x3D#6, d, a, b, c⟩ = .ok i) :
    i.aForm = some ⟨0x3D#6, d, a, b, c⟩ := by
  rw [decodeSync] at h
  dsimp only at h
  split at h
  case h_5 => cases h
  all_goals
    rename_i code
    obtain rfl : c = _ := eq_ofNat_of_toNat code
  case h_2 =>
    cases h
    rfl
  case h_4 =>
    split at h
    · rename_i sc k hsc hk
      rw [whenZero_eq_ok] at h
      obtain ⟨zero, rfl⟩ := h
      simp only [Bool.and_eq_true, beq_iff_eq] at zero
      obtain ⟨⟨rfl, rfl⟩, low⟩ := zero
      exact congrArg (fun b => some (AWord.mk _ _ _ b _)) (fence_bits (Scope.code_of_ofCode hsc) (FenceKind.code_of_ofCode hk) low)
    · cases h
  all_goals
    simp only [whenZero_eq_ok, beq_iff_eq] at h
    casesm* _ ∧ _
    subst_vars
    rfl

theorem aForm_of_decodeA {w lit : Word} {i : Instr} (h : decodeA w lit = .ok i) : i.aForm = some (AWord.ofWord w) := by
  rw [decodeA] at h
  generalize AWord.ofWord w = x at h ⊢
  obtain ⟨op, d, a, b, c⟩ := x
  dsimp only [AWord.imm14, AWord.imm20] at h
  split at h
  case h_51 => cases h
  all_goals
    rename_i code
    obtain rfl : op = _ := eq_ofNat_of_toNat code
  case h_1 => exact aForm_of_decodeAlu h
  case h_24 => exact aForm_of_decodeSystem h
  case h_27 => exact aForm_of_decodeAmos h
  case h_48 => exact aForm_of_decodeSync h
  case h_3 | h_4 | h_5 | h_6 | h_16 | h_17 | h_18 | h_19 | h_20 | h_21 | h_25 | h_26 =>
    cases h
    exact congrArg some (ofImm14_append ..)
  case h_10 | h_12 | h_14 | h_15 | h_32 =>
    cases h
    exact congrArg some (ofImm20_append ..)
  case h_22 =>
    split at h
    case h_3 => cases h
    all_goals
      rename_i func
      obtain rfl : c = _ := eq_ofNat_of_toNat func
      simp only [whenZero_eq_ok, Bool.and_eq_true, beq_iff_eq] at h
      obtain ⟨⟨rfl, rfl⟩, rfl⟩ := h
      rfl
  case h_42 =>
    split at h
    · rename_i fc code
      simp only [whenZero_eq_ok, Bool.and_eq_true, beq_iff_eq] at h
      obtain ⟨⟨low, high⟩, rfl⟩ := h
      have counter : fc.code ++ 0#2 = d := by
        rw [FC.code_of_ofCode code]
        exact high_append_zero (n := 4) rfl low
      have number : 0#8 ++ (a ++ b ++ c).extractLsb' 0 12 = a ++ b ++ c := zero_append_low (n := 8) rfl high
      exact congrArg some ((congrArg₂ (Instr.aForm.ofImm20 0x37#6) counter number).trans (ofImm20_append ..))
    · cases h
  all_goals
    simp only [whenZero_eq_ok, Bool.and_eq_true, beq_iff_eq] at h
    obtain ⟨zero, rfl⟩ := h
  case h_13 =>
    subst zero
    exact congrArg some (ofImm20_append ..)
  case h_30 | h_31 | h_49 | h_50 =>
    subst zero
    exact congrArg some (ofImm14_append ..)
  case h_33 =>
    obtain ⟨rfl, rfl⟩ := zero
    exact congrArg some (ofImm14_append ..)
  case h_2 => exact congrArg (fun c => some (AWord.mk _ d a b c)) (high_append_zero (n := 6) rfl zero)
  case h_7 | h_8 | h_9 =>
    have imm : 0#8 ++ (b ++ c).extractLsb' 0 6 = b ++ c := zero_append_low (n := 8) rfl zero
    exact congrArg some ((congrArg (Instr.aForm.ofImm14 _ d a) imm).trans (ofImm14_append ..))
  case h_11 => exact congrArg some (zero ▸ ofImm20_append 0x0B#6 d a b c)
  case h_23 =>
    obtain ⟨rfl, zero⟩ := zero
    change some (Instr.aForm.ofImm20 0x1A#6 0#6 0#20) = _
    exact congrArg some (zero ▸ ofImm20_append 0x1A#6 0#6 a b c)
  case h_28 =>
    obtain ⟨rfl, high⟩ := zero
    have imm : 0#2 ++ (b ++ c).extractLsb' 0 12 = b ++ c := zero_append_low (n := 2) rfl high
    exact congrArg some ((congrArg (Instr.aForm.ofImm14 _ d _) imm).trans (ofImm14_append ..))
  case h_29 =>
    have queue : 0#4 ++ d.extractLsb' 0 2 = d := zero_append_low (n := 4) rfl zero
    exact congrArg some ((congrArg (Instr.aForm.ofImm14 _ · a _) queue).trans (ofImm14_append ..))
  case h_34 =>
    obtain ⟨rfl, zero⟩ := zero
    exact congrArg some (zero ▸ ofImm14_append 0x2D#6 d 0#6 b c)
  case h_39 =>
    subst zero
    rfl
  all_goals
    casesm* _ ∧ _
    subst_vars
    rfl

/-! ## Instructions of the compute stream (R67 to R81) -/

theorem RM.ofCode_code (m : RM) : RM.ofCode m.code = m := by cases m <;> rfl

theorem Ty.ofCode_code (t : Ty) : Ty.ofCode t.code = some t := by cases t <;> rfl

/-- Cutting the parcels that fields make gives the fields back (R67). -/
@[simp] theorem CRaw.ofParcels_parcels (r : CRaw) : CRaw.ofParcels r.parcel0 r.parcel1 r.parcel2 r.lit = r := by
  simp (disch := decide) only [CRaw.ofParcels, CRaw.parcel0, CRaw.parcel1, CRaw.parcel2, BitVec.extractLsb'_append_eq_of_le,
    BitVec.extractLsb'_append_eq_of_add_le, BitVec.extractLsb'_eq_self, Nat.reduceSub, Nat.sub_self]

/-- A flag comes back from its bit. -/
@[simp] theorem flagBit_eq (b : Bool) : ((if b = true then 1#1 else 0#1) == 1#1) = b := by cases b <;> rfl

/-- A constant-bank index comes back from X and SB (R72). -/
@[simp] theorem bankIndex_eq (n : BitVec 12) : n.extractLsb' 10 2 ++ n.extractLsb' 0 10 = n := by
  rw [BitVec.extractLsb'_append_extractLsb'_eq_extractLsb' (by rfl)]
  exact BitVec.extractLsb'_eq_self

/-- The decoded fields of an instruction's parcels are its fields, when those that its immediate takes over are zero (R72). -/
theorem CRaw.fields_ofFields (cls op : Nat) {f : CFields} (zero : f.canonical = true) : (CRaw.ofFields cls op f).fields f.dt = f := by
  obtain ⟨dt, pr, pn, tk, rm, sat, ru, imm, x, dst, sa, sb, sc, ext⟩ := f
  cases imm <;> simp_all [CFields.canonical, CRaw.fields, CRaw.ofFields, Imm.code, RM.ofCode_code]

/-- The fields that an immediate takes over are decoded as zero (R72). -/
theorem CRaw.fields_canonical (r : CRaw) (dt : Ty) : (r.fields dt).canonical = true := by
  rcases r with ⟨cls, op, dtc, pr, pn, tk, rm, sat, ru, imf, x, dst, sa, sb, sc, ext, lit⟩
  have codes : imf = 0#2 ∨ imf = 1#2 ∨ imf = 2#2 ∨ imf = 3#2 := by revert imf; decide
  rcases codes with rfl | rfl | rfl | rfl <;> rfl

/-- IMF is the code of the immediate that it decodes to (R67). -/
theorem CRaw.fields_imm_code (r : CRaw) (dt : Ty) : (r.fields dt).imm.code = r.imf.toNat := by
  rcases r with ⟨cls, op, dtc, pr, pn, tk, rm, sat, ru, imf, x, dst, sa, sb, sc, ext, lit⟩
  have codes : imf = 0#2 ∨ imf = 1#2 ∨ imf = 2#2 ∨ imf = 3#2 := by revert imf; decide
  rcases codes with rfl | rfl | rfl | rfl <;> rfl

/-- What a row of the opcode map promises of the instructions it builds: they stand at its class and OP value with the fields they
were built of, both numbers fit their fields, and the types it takes have DT codes of four bits (R67, R69, R79). -/
def CRow.Names (r : CRow) (cls op : Nat) : Prop :=
  (∀ f, (CRow.select (r.build f)).cForm = some (cls, op, f)) ∧ cls ≤ 9 ∧ op < 256 ∧ ∀ t ∈ r.dts, t.code < 16

/-- X selects VSTX.NOTIFY, which stands where VSTX does. -/
theorem select_vstx_cForm (f : CFields) : (CRow.select (.vstx f)).cForm = some (4, 0x01, f) := by
  unfold CRow.select
  dsimp only
  split <;> rfl

/-- EXT selects VAMO.DET, which stands where VAMO does. -/
theorem select_vamo_cForm (f : CFields) : (CRow.select (.vamo f)).cForm = some (4, 0x02, f) := by
  unfold CRow.select
  dsimp only
  split <;> rfl

/-- Every row of the opcode map builds the instructions of its own class and OP value (R79). -/
theorem cRow_names {cls op : Nat} {r : CRow} (h : cRow cls op = some r) : r.Names cls op := by
  unfold cRow at h
  split at h
  case h_5 =>
    unfold cRow4 at h
    split at h
    all_goals cases h
    case h_2 => exact ⟨select_vstx_cForm, by decide, by decide, by decide⟩
    case h_3 => exact ⟨select_vamo_cForm, by decide, by decide, by decide⟩
    all_goals exact ⟨fun _ => rfl, by decide, by decide, by decide⟩
  case h_11 => cases h
  all_goals
    delta cRow0 cRow1 cRow2 cRow3 cRow5 cRow6 cRow7 cRow8 cRow9 at h
    split at h
    all_goals cases h
    all_goals exact ⟨fun _ => rfl, by decide, by decide, by decide⟩

/-- The row's check holds the type to those that the row takes (R69). -/
theorem CRow.dt_of_check {r : CRow} {f : CFields} (h : r.check f = none) : f.dt ∈ r.dts := by
  by_contra out
  simp [CRow.check, out] at h

/-- An instruction of three or four parcels is neither a word of the address stream nor a one-parcel form (R63, R81). -/
theorem Instr.streams_of_cForm {i : Instr} {x : Nat × Nat × CFields} (h : i.cForm = some x) : i.aForm = none ∧ i.oneParcel = none := by
  cases i
  all_goals cases h
  all_goals exact ⟨rfl, rfl⟩

theorem Instr.streams_of_oneParcel {i : Instr} {w : Word} (h : i.oneParcel = some w) : i.aForm = none ∧ i.cForm = none := by
  cases i
  all_goals cases h
  all_goals exact ⟨rfl, rfl⟩

theorem encode_of_aForm {i : Instr} {x : AWord} (h : i.aForm = some x) : encode i = x.toWord :: i.aLiteral.toList := by
  simp only [encode, h]

theorem encode_of_oneParcel {i : Instr} {w : Word} (h : i.oneParcel = some w) : encode i = [w] := by
  simp only [encode, (Instr.streams_of_oneParcel h).1, h]

theorem encode_of_cForm {i : Instr} {cls op : Nat} {f : CFields} (h : i.cForm = some (cls, op, f)) :
    encode i = [(CRaw.ofFields cls op f).parcel0, (CRaw.ofFields cls op f).parcel1, (CRaw.ofFields cls op f).parcel2] ++
      (if f.imm.code == 2 then [(CRaw.ofFields cls op f).lit] else []) := by
  obtain ⟨noA, noOne⟩ := Instr.streams_of_cForm h
  simp only [encode, noA, noOne, h]

/-- What well-formedness says of an instruction of three or four parcels: its row finds nothing wrong and builds it. -/
theorem Instr.wf_of_cForm {i : Instr} {cls op : Nat} {f : CFields} (h : i.cForm = some (cls, op, f)) :
    i.wf = true ↔ ∃ r, cRow cls op = some r ∧ f.canonical = true ∧ r.check f = none ∧ CRow.select (r.build f) = i := by
  unfold Instr.wf
  split
  · cases h
  · simp only [h]
    cases cRow cls op with
    | none => simp
    | some r => simp [and_assoc]

/-- An instruction of three or four parcels decodes exactly when its row takes its fields, to what the row builds (R67 to R81). -/
theorem decodeC34_eq_ok {r : CRaw} {i : Instr} : decodeC34 r = .ok i ↔ ∃ dt row, Ty.ofCode r.dt.toNat = some dt ∧
    cRow r.cls.toNat r.op.toNat = some row ∧ row.check (r.fields dt) = none ∧ CRow.select (row.build (r.fields dt)) = i := by
  unfold decodeC34
  cases hdt : Ty.ofCode r.dt.toNat with
  | none => simp
  | some dt =>
    cases hrow : cRow r.cls.toNat r.op.toNat with
    | none => simp
    | some row =>
      cases hcheck : row.check (r.fields dt) <;> simp [hcheck]

/-- The class of parcel 0 says which form an instruction has (R68, R77, R78). -/
theorem decodeC_of_class {p0 p1 p2 p3 : Word} (h : (p0.extractLsb' 28 4).toNat ≤ 9) :
    decodeC p0 p1 p2 p3 = decodeC34 (CRaw.ofParcels p0 p1 p2 p3) := by
  unfold decodeC
  split
  · omega
  · omega
  · rw [if_pos h]

/-- The literal of an instruction without one is zero, as a parcel past its end reads. -/
theorem CRaw.ofFields_lit (cls op : Nat) (f : CFields) :
    (if f.imm.code == 2 then [(CRaw.ofFields cls op f).lit] else []).getD 0 0#32 = (CRaw.ofFields cls op f).lit := by
  cases h : f.imm <;> simp [CRaw.ofFields, Imm.code, h]

/-- The parcels that a well-formed instruction of three or four parcels is written as decode to it (R67 to R81). -/
theorem decodeWords_of_cForm {i : Instr} {cls op : Nat} {f : CFields} (h : i.cForm = some (cls, op, f)) (wf : i.wf = true) :
    decodeWords false (encode i) = .ok i := by
  obtain ⟨row, hrow, canonical, check, build⟩ := (Instr.wf_of_cForm h).1 wf
  obtain ⟨-, hcls, hop, hdts⟩ := cRow_names hrow
  have hdt := hdts _ (row.dt_of_check check)
  have clsBits : (CRaw.ofFields cls op f).cls.toNat = cls := Nat.mod_eq_of_lt (by omega)
  have opBits : (CRaw.ofFields cls op f).op.toNat = op := Nat.mod_eq_of_lt hop
  have dtBits : (CRaw.ofFields cls op f).dt.toNat = f.dt.code := Nat.mod_eq_of_lt hdt
  have fields := CRaw.fields_ofFields cls op canonical
  have parcels := CRaw.ofParcels_parcels (CRaw.ofFields cls op f)
  have class0 : ((CRaw.ofFields cls op f).parcel0.extractLsb' 28 4).toNat ≤ 9 := by
    rw [show (CRaw.ofFields cls op f).parcel0.extractLsb' 28 4 = (CRaw.ofFields cls op f).cls from congrArg CRaw.cls parcels, clsBits]
    exact hcls
  have words : decodeWords false (encode i) = decodeC34 (CRaw.ofFields cls op f) := by
    rw [encode_of_cForm h, List.cons_append, decodeWords]
    simp only [List.cons_append, List.nil_append, Bool.false_eq_true, if_false, List.getD_cons_zero, List.getD_cons_succ]
    rw [decodeC_of_class class0, CRaw.ofFields_lit, parcels]
  rw [words, decodeC34_eq_ok]
  exact ⟨f.dt, row, by rw [dtBits, Ty.ofCode_code], by rw [clsBits, opBits, hrow], by rw [fields, check], by rw [fields, build]⟩

/-! ## Trailers and NOP (R77, R78) -/

/-- Parcel 0 with class 0xE is a trailer. -/
theorem decodeC_of_trailer {p0 p1 p2 p3 : Word} (h : p0.extractLsb' 28 4 = 0xE#4) : decodeC p0 p1 p2 p3 = decodeTrailer p0 := by
  unfold decodeC
  rw [h]
  rfl

/-- The parts of a trailer's parcel come back (R77). -/
theorem trailer_parts (c : BitVec 3) (aw : BitVec 15) (arg : BitVec 10) :
    (0xE#4 ++ c ++ aw ++ arg).extractLsb' 28 4 = 0xE#4 ∧ (0xE#4 ++ c ++ aw ++ arg).extractLsb' 25 3 = c ∧
    (0xE#4 ++ c ++ aw ++ arg).extractLsb' 10 15 = aw ∧ (0xE#4 ++ c ++ aw ++ arg).extractLsb' 0 10 = arg := by
  simp (disch := decide) only [BitVec.extractLsb'_append_eq_of_le, BitVec.extractLsb'_append_eq_of_add_le,
    BitVec.extractLsb'_eq_self, Nat.reduceSub, Nat.sub_self, and_self]

/-- The two parts of a SKIP's argument come back (R77). -/
theorem skip_parts (p : BitVec 3) (n : BitVec 7) :
    (p ++ n : BitVec 10).extractLsb' 7 3 = p ∧ (p ++ n : BitVec 10).extractLsb' 0 7 = n :=
  ⟨BitVec.extractLsb'_append_eq_left, BitVec.extractLsb'_append_eq_right⟩

/-- A well-formed trailer, or NOP, decodes from the parcel it is written as (R77, R78). -/
theorem decodeWords_of_oneParcel {i : Instr} {w : Word} (h : i.oneParcel = some w) (wf : i.wf = true) :
    decodeWords false (encode i) = .ok i := by
  rw [encode_of_oneParcel h]
  change decodeC w 0#32 0#32 0#32 = .ok i
  have trailer {c : BitVec 3} {aw : BitVec 15} {arg : BitVec 10} (hw : w = 0xE#4 ++ c ++ aw ++ arg) :
      decodeC w 0#32 0#32 0#32 = decodeTrailer w ∧ w.extractLsb' 25 3 = c ∧ w.extractLsb' 10 15 = aw ∧ w.extractLsb' 0 10 = arg := by
    obtain ⟨cls, parts⟩ := trailer_parts c aw arg
    rw [hw]
    exact ⟨decodeC_of_trailer cls, parts⟩
  cases i
  all_goals cases h
  case nop => rfl
  case trlSkip aw p n =>
    obtain ⟨isTrailer, ctrl, haw, harg⟩ := trailer (c := 2#3) (aw := aw) (arg := p ++ n) BitVec.append_assoc
    obtain ⟨hp, hn⟩ := skip_parts p n
    have count : n ≠ 0#7 := by simpa [Instr.wf] using wf
    rw [isTrailer, decodeTrailer, ctrl, haw, harg]
    simp [hp, hn, count]
  all_goals
    obtain ⟨isTrailer, ctrl, haw, harg⟩ := trailer rfl
    rw [isTrailer, decodeTrailer, ctrl, haw, harg]
    rfl

/-- What decodes as a trailer is one, and well formed (R77). -/
theorem oneParcel_of_decodeTrailer {w : Word} {i : Instr} (h : decodeTrailer w = .ok i) : i.oneParcel.isSome = true ∧ i.wf = true := by
  unfold decodeTrailer at h
  dsimp only at h
  split at h
  case h_3 =>
    split at h
    · cases h
    · rename_i count
      cases h
      exact ⟨rfl, by simpa [Instr.wf] using count⟩
  case h_4 =>
    cases h
    exact ⟨rfl, rfl⟩
  case h_6 => cases h
  all_goals
    split at h
    · cases h
      exact ⟨rfl, rfl⟩
    · cases h

/-! ## What the compute stream decodes -/

/-- The encoding of an instruction has as many parcels as its parcel 0 says, whichever parcel 0 it was decoded from (R68). -/
theorem encode_length_of_cForm {i : Instr} {cls op : Nat} {f : CFields} (h : i.cForm = some (cls, op, f)) {w : Word}
    (hcls : (w.extractLsb' 28 4).toNat ≤ 9) (imf : f.imm.code = (w.extractLsb' 2 2).toNat) : (encode i).length = parcelLength w := by
  have four : (w.extractLsb' 2 2 == 2#2) = (f.imm.code == 2) := by
    rw [imf, Bool.eq_iff_iff, beq_iff_eq, beq_iff_eq, ← BitVec.toNat_inj]
    rfl
  rw [encode_of_cForm h, parcelLength, if_pos hcls, four]
  cases f.imm.code == 2 <;> rfl

/-- What the compute stream decodes is well formed, of one of its two forms, and as long as its parcel 0 says (R67 to R81). -/
theorem wf_of_decodeC {p0 p1 p2 p3 : Word} {i : Instr} (h : decodeC p0 p1 p2 p3 = .ok i) :
    i.wf = true ∧ (i.cForm.isSome ∨ i.oneParcel.isSome) ∧ (encode i).length = parcelLength p0 := by
  have oneParcel (one : i.oneParcel.isSome = true) (wf : i.wf = true) (long : ¬ (p0.extractLsb' 28 4).toNat ≤ 9) :
      i.wf = true ∧ (i.cForm.isSome ∨ i.oneParcel.isSome) ∧ (encode i).length = parcelLength p0 := by
    obtain ⟨w, hw⟩ := Option.isSome_iff_exists.1 one
    rw [encode_of_oneParcel hw, parcelLength, if_neg long]
    exact ⟨wf, .inr one, rfl⟩
  unfold decodeC at h
  split at h
  · rename_i code
    obtain ⟨one, wf⟩ := oneParcel_of_decodeTrailer h
    exact oneParcel one wf (by omega)
  · rename_i code
    cases h
    exact oneParcel rfl rfl (by omega)
  · split at h
    · rename_i c three hcls
      obtain ⟨dt, row, -, hrow, check, rfl⟩ := decodeC34_eq_ok.1 h
      have form := (cRow_names hrow).1 ((CRaw.ofParcels p0 p1 p2 p3).fields dt)
      exact ⟨(Instr.wf_of_cForm form).2 ⟨row, hrow, CRaw.fields_canonical .., check, rfl⟩, .inl (by rw [form]; rfl),
        encode_length_of_cForm form hcls (CRaw.fields_imm_code ..)⟩
    · cases h

/-- Settles O56: a word of the address stream is its fields and back, decoding sorts it to the constructor that writes those fields;
the parcels of the compute stream likewise, where the row of the opcode map joins decoder, encoder and well-formedness. -/
theorem decodeInvertsEncode : Obligations.DecodeInvertsEncode := by
  refine ⟨fun i ha => ?_, fun i wf form => ?_, fun w lit i h => ?_, fun w ws i h => wf_of_decodeC h⟩
  · obtain ⟨x, hx⟩ := Option.isSome_iff_exists.1 ha
    have literal : i.aLiteral.toList.getD 0 0#32 = i.aLiteral.getD 0#32 := by cases i.aLiteral <;> rfl
    rw [encode_of_aForm hx, decodeWords, if_pos rfl, literal]
    exact decodeA_of_aForm hx
  · rcases form with three | one
    · obtain ⟨⟨cls, op, f⟩, hf⟩ := Option.isSome_iff_exists.1 three
      exact decodeWords_of_cForm hf wf
    · obtain ⟨p, hp⟩ := Option.isSome_iff_exists.1 one
      exact decodeWords_of_oneParcel hp wf
  · have form : i.aForm = some (AWord.ofWord w) := aForm_of_decodeA h
    rw [form, encode_of_aForm form, AWord.toWord_ofWord]
    exact ⟨rfl, rfl⟩

end Sys2Proof
end

section
/-! PROOFS. What no step undoes: the canonical form of this device's memory and of the host's bytes, and the labels of granules,
which only grow. One rule for each operation that a step is made of. -/

namespace Sys2Proof.Machine

open Sys2Proof

/-- From `s` to `t` memory and the host's bytes stay in canonical form, and no label of a granule falls. -/
def State.Keeps (s t : State) : Prop :=
  (s.memOk → t.memOk) ∧ (Memory.wf s.hostMem = true → Memory.wf t.hostMem = true) ∧
    ∀ n, LabelIn (s.glbl.get 0#16 n) (t.glbl.get 0#16 n)

/-- An outcome that, when it is a next state, keeps what `State.Keeps` says. -/
def State.KeepsOut (s : State) : Out → Prop
  | .next t => s.Keeps t
  | _ => True

/-- Applying an access, when it is done, keeps it. -/
def State.KeepsApplied (s : State) : Applied → Prop
  | .ok t _ => s.Keeps t
  | _ => True

/-- Performing accesses, when it is done, keeps it. -/
def State.KeepsPerformed (s : State) : Performed → Prop
  | .ok t _ => s.Keeps t
  | _ => True

/-- A read at issue keeps it, whether it has its bytes or waits for them. -/
def State.KeepsRead (s : State) : RecRead → Prop
  | .ok t _ _ => s.Keeps t
  | .bad _ => True
  | .wait t => s.Keeps t

namespace State.Keeps

variable {s t u : State}

theorem refl (s : State) : s.Keeps s := ⟨id, id, fun _ => BitVec.or_self⟩

theorem trans (h : s.Keeps t) (h' : t.Keeps u) : s.Keeps u := by
  obtain ⟨mem, host, lbl⟩ := h
  obtain ⟨mem', host', lbl'⟩ := h'
  refine ⟨mem' ∘ mem, host' ∘ host, fun n => ?_⟩
  have union : t.glbl.get 0#16 n ||| u.glbl.get 0#16 n = u.glbl.get 0#16 n := lbl' n
  change s.glbl.get 0#16 n ||| u.glbl.get 0#16 n = u.glbl.get 0#16 n
  rw [← union, ← BitVec.or_assoc, lbl n]

/-- A change of other fields than memory, the host's bytes and the labels. -/
theorem same (h : s.Keeps t) (mem : u.mem = t.mem) (host : u.hostMem = t.hostMem) (lbl : u.glbl = t.glbl) : s.Keeps u := by
  unfold State.Keeps State.memOk at *
  rwa [mem, host, lbl]

/-- A write of memory that keeps its form. -/
theorem wrote (h : s.Keeps t) (mem : t.memOk → u.memOk) (host : u.hostMem = t.hostMem) (lbl : u.glbl = t.glbl) : s.Keeps u :=
  h.trans ⟨mem, by rw [host]; exact id, fun n => by rw [lbl]; exact BitVec.or_self⟩

theorem foldl {β : Type} {f : State → β → State} (h : s.Keeps t) (step : ∀ u b, s.Keeps u → s.Keeps (f u b)) (l : List β) :
    s.Keeps (l.foldl f t) :=
  keeps_foldl (P := s.Keeps) step l t h

/-- A fold that carries something beside the state. -/
theorem foldlFst {α β : Type} {f : State × α → β → State × α} {a : State × α} (h : s.Keeps a.1)
    (step : ∀ u b, s.Keeps u.1 → s.Keeps (f u b).1) (l : List β) : s.Keeps (l.foldl f a).1 :=
  keeps_foldl (P := fun a : State × α => s.Keeps a.1) step l a h

theorem ite {c : Prop} [Decidable c] (h : s.Keeps t) (h' : s.Keeps u) : s.Keeps (if c then t else u) := by
  split
  · exact h
  · exact h'

theorem iteFst {α : Type} {c : Prop} [Decidable c] {a b : State × α} (h : s.Keeps a.1) (h' : s.Keeps b.1) :
    s.Keeps (if c then a else b).1 := by
  split
  · exact h
  · exact h'

theorem setGroup (h : s.Keeps t) (k : Nat) (g : Group) : s.Keeps (t.setGroup k g) := h.same rfl rfl rfl

theorem setGrp (h : s.Keeps t) (g : Group) : s.Keeps (t.setGrp g) := h.same rfl rfl rfl

theorem setTeam (h : s.Keeps t) (n : Nat) (x : Team) : s.Keeps (t.setTeam n x) := h.same rfl rfl rfl

theorem setTm (h : s.Keeps t) (x : Team) : s.Keeps (t.setTm x) := h.same rfl rfl rfl

theorem setGrid (h : s.Keeps t) (n : Nat) (x : Grid) : s.Keeps (t.setGrid n x) := h.same rfl rfl rfl

theorem setCore (h : s.Keeps t) (n : Nat) (x : Core) : s.Keeps (t.setCore n x) := h.same rfl rfl rfl

/-! ## Local memory and its labels -/

theorem writeMem (h : s.Keeps t) (la : Nat) (bs : List Byte) : s.Keeps (t.writeMem la bs) :=
  h.wrote (State.writeMem_memOk la bs) rfl rfl

/-- A raise joins to the label of its granule and changes no other (R143). -/
theorem raiseLabel (h : s.Keeps t) (la : Nat) (l : Label) : s.Keeps (t.raiseLabel la l) := by
  refine h.trans ⟨id, id, fun n => ?_⟩
  change t.glbl.get 0#16 n ||| (t.glbl.set 0#16 (la / 256) _).get 0#16 n = (t.glbl.set 0#16 (la / 256) _).get 0#16 n
  rw [Tab.get_set]
  split
  · rename_i here
    rw [here, Label.join, ← BitVec.or_assoc, BitVec.or_self]
  · exact BitVec.or_self

theorem writeLine {la : Nat} {bs : List Byte} {cmp : Bool} (h : s.Keeps t) (ht : t.writeLine la bs cmp = some u) : s.Keeps u := by
  have written := h.writeMem la bs
  unfold State.writeLine at ht
  dsimp only at ht
  split at ht
  · cases ht; exact written
  · split at ht
    · cases ht; exact written.same rfl rfl rfl
    · split at ht
      · cases ht; exact written.same rfl rfl rfl
      · split at ht
        · cases ht; exact written.same rfl rfl rfl
        · cases ht

theorem signal {la : Nat} {delta : DWord} {line : Bool} (h : s.Keeps t) (ht : t.signal la delta line = some u) : s.Keeps u := by
  unfold State.signal at ht
  dsimp only at ht
  rw [Option.map_eq_some_iff] at ht
  obtain ⟨v, hv, rfl⟩ := ht
  exact Keeps.ite ((h.writeLine hv).same rfl rfl rfl) (h.writeLine hv)

/-! ## Messages and the device's own accesses -/

theorem send (h : s.Keeps t) (f : Frame) : s.Keeps (t.send f) := by
  unfold State.send
  split
  · exact h.same rfl rfl rfl
  · dsimp only
    exact Keeps.ite (h.same rfl rfl rfl) (h.same rfl rfl rfl)

theorem newTag (h : s.Keeps t) (r : TagRef) : s.Keeps (t.newTag r).1 := h.same rfl rfl rfl

theorem deviceSend (h : s.Keeps t) (dev ctx page : Nat) (f : Nat → Frame) : s.Keeps (t.deviceSend dev ctx page f) := by
  unfold State.deviceSend
  exact Keeps.ite h ((h.newTag _).send _)

theorem deviceStores (h : s.Keeps t) (ctx page dev la : Nat) (line : Bool) (l : List (List Byte)) :
    s.Keeps (t.deviceStores ctx page dev la line l) := by
  induction l generalizing t la with
  | nil => exact h
  | cons x xs ih => exact ih (h.deviceSend _ _ _ _) _

theorem deviceRaise (h : s.Keeps t) (ctx page dev la : Nat) (l : Label) : s.Keeps (t.deviceRaise ctx page dev la l) :=
  h.deviceSend _ _ _ _

theorem dupNotify (h : s.Keeps t) (r : TagRef) (ctx : Nat) (reply : Option Frame) (pa n : Nat) (line : Bool) :
    s.Keeps (t.dupNotify r ctx reply pa n line) :=
  (Keeps.foldl (h.newTag _) (fun _ _ hu => hu.send _) _).same rfl rfl rfl

theorem dieWrite {w : DieWrite} (h : s.Keeps t) (ht : t.dieWrite w = some u) : s.Keeps u := by
  unfold State.dieWrite at ht
  dsimp only at ht
  generalize (if w.delta.isSome = true then 8 else w.bytes.length) = n at ht
  split at ht
  · cases ht
  · rw [Option.map_eq_some_iff] at ht
    obtain ⟨v, hv, rfl⟩ := ht
    have written : s.Keeps v := by
      split at hv
      · exact h.signal hv
      · exact h.writeLine hv
    exact Keeps.ite (written.dupNotify ..) written

theorem deviceApply (h : s.Keeps t) (w : DieWrite) : s.Keeps (t.deviceApply w) := by
  unfold State.deviceApply
  split
  · rename_i v hv
    split at hv
    · exact h.dieWrite hv
    · cases hv
  · exact h.same rfl rfl rfl

theorem retryDie (h : s.Keeps t) : s.Keeps t.retryDie :=
  Keeps.foldl (by exact h.same rfl rfl rfl) (fun _ _ hu => hu.deviceApply _) _

theorem ownCopy (h : s.Keeps t) (ctx pa : Nat) (bs : List Byte) : s.Keeps (t.ownCopy ctx pa bs) := h.same rfl rfl rfl

theorem devicePiece (h : s.Keeps t) (ctx va : Nat) (bs : List Byte) : s.Keeps (t.devicePiece ctx va bs) := by
  unfold State.devicePiece
  split
  · exact h
  · dsimp only
    refine Keeps.ite ?_ (Keeps.ite ?_ ?_)
    · exact (h.deviceStores ..).ownCopy ..
    · exact h.writeMem _ _
    · exact Keeps.foldlFst h (fun _ _ hu => hu.deviceApply _) _

theorem deviceWrite (h : s.Keeps t) (ctx va : Nat) (bs : List Byte) : s.Keeps (t.deviceWrite ctx va bs) :=
  h.foldl (fun _ _ hu => hu.devicePiece _ _ _) _

theorem askOwn (h : s.Keeps t) (ctx sec page : Nat) : s.Keeps (t.askOwn ctx sec page) := by
  unfold State.askOwn
  exact Keeps.ite h ((h.newTag _).send _)

theorem askSpans (h : s.Keeps t) (ctx : Nat) (spans : List (Nat × Nat)) : s.Keeps (t.askSpans ctx spans) := by
  unfold State.askSpans
  exact Keeps.ite h (h.foldl (fun _ _ hu => hu.askOwn _ _ _) _)

theorem forget (h : s.Keeps t) (ctx : Nat) (away : List (Nat × Nat)) : s.Keeps (t.forget ctx away) := by
  unfold State.forget
  exact Keeps.ite h (h.same rfl rfl rfl)

theorem ownReply (h : s.Keeps t) (tag : Nat) (r : TagRef) (bs : List Byte) (lbl : Label) : s.Keeps (t.ownReply tag r bs lbl) :=
  h.same rfl rfl rfl

theorem deviceSignal (h : s.Keeps t) (ctx va : Nat) : s.Keeps (t.deviceSignal ctx va) := by
  unfold State.deviceSignal
  refine Keeps.ite h ?_
  split
  · exact Keeps.ite (h.deviceApply _) (h.deviceSend _ _ _ _)
  · exact h

theorem ownAct (h : s.Keeps t) (ctx : Nat) (a : OwnAct) : s.Keeps (t.ownAct ctx a) := by
  cases a with
  | write va bs => exact h.deviceWrite _ _ _
  | signal va => exact h.deviceSignal _ _

theorem inOrder (ctx : Nat) (l : List OwnAct) (s0 : State) (h : s.Keeps t) : s.Keeps (State.inOrder ctx l s0 t) := by
  induction l generalizing t s0 with
  | nil => exact h
  | cons a as ih =>
    unfold State.inOrder
    exact Keeps.ite (ih _ (h.ownAct ctx a)) (h.same rfl rfl rfl)

theorem ownNext (h : s.Keeps t) : s.Keeps t.ownNext := by
  unfold State.ownNext
  dsimp only
  split
  · exact h
  · exact Keeps.inOrder _ _ _ (h.same rfl rfl rfl)

theorem keepLeaf (h : s.Keeps t) (c ctx va : Nat) : s.Keeps (t.keepLeaf c ctx va) := by
  unfold State.keepLeaf
  dsimp only
  split
  · exact h
  · exact h.same rfl rfl rfl

/-! ## The end of teams and grids, and faults -/

theorem heldDone (h : s.Keeps t) (x : Held) (bad : Option Label) : s.Keeps (t.heldDone x bad) := by
  unfold State.heldDone
  split
  · exact h.send _
  · exact h.send _
  · exact h
  · dsimp only
    split
    · exact h.same rfl rfl rfl
    · exact h

theorem dropHeld (h : s.Keeps t) (n : Nat) : s.Keeps (t.dropHeld n) :=
  (h.foldl (fun _ _ hu => hu.heldDone _ _) _).same rfl rfl rfl

theorem blockWrite (h : s.Keeps t) (n off : Nat) (bs : List Byte) : s.Keeps (t.blockWrite n off bs) := by
  unfold State.blockWrite
  exact Keeps.ite (h.deviceWrite _ _ _) h

theorem leaveQueues (h : s.Keeps t) (n : Nat) : s.Keeps (t.leaveQueues n) := by
  unfold State.leaveQueues
  exact Keeps.ite (h.same rfl rfl rfl) h

theorem leaveCore (h : s.Keeps t) (n : Nat) : s.Keeps (t.leaveCore n) := by
  unfold State.leaveCore
  dsimp only
  split
  · exact (h.leaveQueues n).same rfl rfl rfl
  · exact h.leaveQueues n

theorem dropHolds (h : s.Keeps t) (w : Nat) : s.Keeps (t.dropHolds w) := h.same rfl rfl rfl

theorem endTeam (h : s.Keeps t) (n : Nat) (st : TState) : s.Keeps (t.endTeam n st) :=
  (((h.leaveCore n).blockWrite n 0 (bytesOf st.code 1)).dropHeld n).same rfl rfl rfl

theorem endGrid (h : s.Keeps t) (gr code : Nat) : s.Keeps (t.endGrid gr code) :=
  Keeps.dropHolds (Keeps.foldl (by exact h.same rfl rfl rfl) (fun _ _ hu => hu.endTeam _ _) _) _

theorem raiseRec (h : s.Keeps t) (k : Nat) (r : FaultRec) : s.Keeps (t.raiseRec k r) := by
  unfold State.raiseRec
  dsimp only
  split
  · exact Keeps.ite (Keeps.endGrid (by exact h.same rfl rfl rfl) _ _) (h.same rfl rfl rfl)
  · exact Keeps.ite (Keeps.endGrid (by exact h.same rfl rfl rfl) _ _) (h.same rfl rfl rfl)

theorem raiseA (h : s.Keeps t) (f : Flt) : s.Keeps (t.raiseA f) := h.raiseRec _ _

theorem raiseC (h : s.Keeps t) (f : Flt) : s.Keeps (t.raiseC f) := h.raiseRec _ _

theorem raiseOp (h : s.Keeps t) (k : Nat) (o : Op) (f : Flt) : s.Keeps (t.raiseOp k o f) := by
  unfold State.raiseOp
  exact Keeps.raiseRec (Keeps.ite (by exact h.same rfl rfl rfl) h) _ _

theorem settle (h : s.Keeps t) (k : Nat) : s.Keeps (t.settle k) := by
  refine Keeps.foldl (by exact h.same rfl rfl rfl) (fun u o hu => ?_) _
  split
  · exact hu.raiseOp _ _ _
  · exact hu

/-! ## Accesses -/

theorem applyGlobal (h : s.Keeps t) (clr w : Label) (setOf : Nat × Nat) (a : Acc) : s.KeepsApplied (t.applyGlobal clr w setOf a) := by
  have put (x : Option State) (f : State → Acc) :
      (∀ u, x = some u → s.Keeps u) → s.KeepsApplied (match x with | some u => .ok u (f u) | none => .blocked) := by
    intro written
    cases x with
    | none => trivial
    | some u => exact written u rfl
  unfold State.applyGlobal
  dsimp only
  split
  · trivial
  · split
    · split
      · trivial
      · exact h
    · exact put _ (fun _ => _) fun _ => h.writeLine
    · split
      · trivial
      · split
        · trivial
        · exact put _ (fun _ => _) fun _ => h.writeLine
    · split
      · trivial
      · exact put _ (fun _ => _) fun _ => h.signal
    · exact h.raiseLabel _ _
    · split
      · trivial
      · exact h.same rfl rfl rfl
    · trivial

/-- The typed buffers are apart from memory. -/
theorem applyScratch (h : s.Keeps t) (tn : Nat) (clr w : Label) (a : Acc) : s.KeepsApplied (t.applyScratch tn clr w a) := by
  have done (x : Team) (b : Acc) : s.KeepsApplied (.ok (t.setTeam tn x) b) := h.same rfl rfl rfl
  have ite {c : Prop} [Decidable c] {x y : Applied} (hx : s.KeepsApplied x) (hy : s.KeepsApplied y) :
      s.KeepsApplied (if c then x else y) := by
    split
    · exact hx
    · exact hy
  unfold State.applyScratch
  dsimp only
  split
  · trivial
  · split
    · exact ite trivial (done _ _)
    · exact ite (done _ _) (done _ _)
    · exact ite trivial (done _ _)
    · exact ite trivial (ite trivial (done _ _))
    · trivial

theorem applyAccum (h : s.Keeps t) (tn : Nat) (clr w : Label) (a : Acc) : s.KeepsApplied (t.applyAccum tn clr w a) := by
  have done (x : Team) (b : Acc) : s.KeepsApplied (.ok (t.setTeam tn x) b) := h.same rfl rfl rfl
  unfold State.applyAccum
  dsimp only
  split
  · trivial
  · split
    · split
      · trivial
      · exact done _ _
    · exact done _ _
    · exact done _ _
    · trivial

theorem applyWeight (h : s.Keeps t) (tn : Nat) (clr w : Label) (a : Acc) : s.KeepsApplied (t.applyWeight tn clr w a) := by
  unfold State.applyWeight
  dsimp only
  split
  · trivial
  · split
    · trivial
    · exact h.same rfl rfl rfl

theorem applyAcc (h : s.Keeps t) (k : Nat) (w : Label) (a : Acc) : s.KeepsApplied (t.applyAcc k w a) := by
  unfold State.applyAcc
  dsimp only
  split
  · split
    · trivial
    · exact h.applyGlobal ..
  · exact h.applyScratch ..
  · exact h.applyAccum ..
  · exact h.applyWeight ..

theorem sendAccs (h : s.Keeps t) (k : Nat) (o : Op) (n : Nat) (l : List Acc) : s.Keeps (t.sendAccs k o n l).1 := by
  induction l generalizing t n with
  | nil => exact h
  | cons a as ih =>
    unfold State.sendAccs
    dsimp only
    split
    · exact ih h _
    · exact ih ((h.newTag _).send _) _

theorem issueAccs (h : s.Keeps t) (k : Nat) (o : Op) : s.Keeps (t.issueAccs k o) := by
  have leaves : s.Keeps (o.accs.foldl (fun a x => if x.space == .global && !x.lease then a.keepLeaf (t.coreCache k) (t.ctxOf k) x.va
      else a) t) :=
    h.foldl (fun _ _ hu => Keeps.ite (hu.keepLeaf _ _ _) hu) _
  unfold State.issueAccs
  dsimp only
  exact Keeps.setGroup (Keeps.iteFst (Keeps.sendAccs (Keeps.setGroup leaves _ _) _ _ _ _) (Keeps.setGroup leaves _ _)) _ _

theorem applyAccs (h : s.Keeps t) (k : Nat) (o : Op) (pick : Nat → Bool) (n : Nat) (l : List Acc) :
    s.KeepsPerformed (t.applyAccs k o pick n l) := by
  induction l generalizing t n with
  | nil => exact h
  | cons a as ih =>
    have rest (u : State) (b : Acc) (hu : s.Keeps u) : s.KeepsPerformed (match u.applyAccs k o pick (n + 1) as with
        | .ok v l => .ok v (b :: l)
        | r => r) := by
      have := ih hu (n + 1)
      split
      · rename_i v l hv
        rwa [hv] at this
      · exact this
    unfold State.applyAccs
    dsimp only
    split
    · exact rest _ _ h
    · split
      · split
        · exact rest _ _ h
        · exact rest _ _ ((h.newTag _).send _)
      · split
        · exact rest _ _ h
        · have applied := h.applyAcc k o.lbl a
          split
          · trivial
          · trivial
          · rename_i u b hu
            rw [hu] at applied
            split
            · exact rest _ _ (Keeps.dupNotify applied ..)
            · exact rest _ _ applied

theorem performPart (h : s.Keeps t) (k : Nat) (o : Op) (part : Acc → Bool) (pick : Nat → Bool) :
    s.KeepsPerformed (t.performPart k o part pick) := by
  unfold State.performPart
  dsimp only
  split
  · trivial
  · split
    · trivial
    · exact h.applyAccs ..

theorem perform (h : s.Keeps t) (k : Nat) (o : Op) (pick : Nat → Bool) : s.KeepsPerformed (t.perform k o pick) :=
  h.performPart ..

/-! ## Reads at issue -/

theorem readDone (h : s.Keeps t) (k : Nat) (x : Op) : s.KeepsRead (t.readDone k x) := h.same rfl rfl rfl

theorem readMore (h : s.Keeps t) (k : Nat) (x : Op) : s.KeepsRead (t.readMore k x) := by
  have performed := h.perform k x (fun _ => true)
  unfold State.readMore
  split
  · exact h
  · trivial
  · rename_i u l hu
    rw [hu] at performed
    split
    · exact Keeps.readDone performed _ _
    · exact Keeps.same performed rfl rfl rfl

theorem readBytes (h : s.Keeps t) (k va n : Nat) (d : OpData) : s.KeepsRead (t.readBytes k va n d) := by
  unfold State.readBytes
  dsimp only
  split
  · trivial
  · split
    · trivial
    · split
      · exact h.readDone ..
      · exact h.readMore ..
  · split
    · exact h
    · split
      · trivial
      · split
        · trivial
        · split
          · exact h.foldl (fun _ _ hu => hu.keepLeaf _ _ _) _
          · exact h.issueAccs ..

theorem readRec (h : s.Keeps t) (k va n : Nat) : s.KeepsRead (t.readRec k va n) := h.readBytes ..

theorem readCode (h : s.Keeps t) (k va n : Nat) : s.KeepsRead (t.readCode k va n) := h.readBytes ..

/-! ## The trace unit and the counters -/

theorem traceWrite (h : s.Keeps t) (core : Nat) (bs : List Byte) : s.Keeps (t.traceWrite core bs) := by
  unfold State.traceWrite
  dsimp only
  exact Keeps.ite (h.same rfl rfl rfl) (Keeps.ite (h.same rfl rfl rfl) ((h.deviceWrite _ _ _).same rfl rfl rfl))

theorem traceA (h : s.Keeps t) (kind : Nat) (value : DWord) (l : Label) : s.Keeps (t.traceA kind value l) := by
  unfold State.traceA
  exact Keeps.ite (h.traceWrite _ _) h

theorem pmGroup (h : s.Keeps t) (k code n : Nat) : s.Keeps (t.pmGroup k code n) := by
  unfold State.pmGroup
  exact Keeps.ite (h.same rfl rfl rfl) h

theorem stepped (h : s.Keeps t) (k q b a : Nat) : s.Keeps (t.stepped k q b a) := by
  unfold State.stepped
  dsimp only
  split
  · exact h
  · exact Keeps.ite (h.same rfl rfl rfl) h

end State.Keeps

/-! ## Outcomes -/

namespace State.KeepsOut

variable {s t : State} {o : Out}

theorem next_of_eq (h : s.KeepsOut o) (ho : o = .next t) : s.Keeps t := by
  rw [ho] at h
  exact h

/-- What the next state of a later outcome keeps, it keeps of what was before. -/
theorem trans (h : s.Keeps t) (h' : t.KeepsOut o) : s.KeepsOut o := by
  cases o with
  | next u => exact Keeps.trans h h'
  | fault r => trivial
  | refused r => trivial

theorem ite {c : Prop} [Decidable c] {o' : Out} (h : s.KeepsOut o) (h' : s.KeepsOut o') : s.KeepsOut (if c then o else o') := by
  split
  · exact h
  · exact h'

theorem waits (h : s.Keeps t) (i : Instr) : s.KeepsOut (t.waits i) := Keeps.same h rfl rfl rfl

theorem whenFree (h : s.Keeps t) (i : Instr) (rs : List SRegNo) (k : s.KeepsOut o) : s.KeepsOut (t.whenFree i rs o) :=
  ite (waits h i) k

theorem whenRoom (h : s.Keeps t) (i : Instr) (full : Bool) (k : s.KeepsOut o) : s.KeepsOut (t.whenRoom i full o) :=
  ite (waits h i) k

theorem aWrite (h : s.Keeps t) (d : SRegNo) (v : DWord) (l : Label) (n : Nat) : s.KeepsOut (t.aWrite d v l n) :=
  Keeps.same h rfl rfl rfl

theorem aPass (h : s.Keeps t) : s.KeepsOut t.aPass := Keeps.same h rfl rfl rfl

theorem idle (h : s.Keeps t) : s.KeepsOut t.idle := h

theorem faultA (h : s.Keeps t) (f : Flt) : s.KeepsOut (t.faultA f) := Keeps.raiseA h f

theorem faultC (h : s.Keeps t) (f : Flt) : s.KeepsOut (t.faultC f) := Keeps.raiseC h f

theorem withOwn (h : s.Keeps t) (ctx : Nat) (spans : List (Nat × Nat)) {k : State → Out} (hk : s.KeepsOut (k t)) :
    s.KeepsOut (t.withOwn ctx spans k) := by
  unfold State.withOwn
  split
  · split
    · rename_i u hu
      exact Keeps.forget (hk.next_of_eq hu) _ _
    · exact hk
  · exact Keeps.askSpans h _ _

theorem afterIssue (h : s.KeepsOut o) (k q code before : Nat) (count : Group → Nat) :
    s.KeepsOut (Machine.afterIssue k q code before count o) := by
  cases o with
  | next u => exact Keeps.ite h (Keeps.stepped (Keeps.pmGroup (Keeps.setGroup h _ _) _ _ _) _ _ _ _)
  | fault r => trivial
  | refused r => trivial

/-- A read at issue goes on with its bytes, faults, or waits. -/
theorem ofRead {r : RecRead} (h : s.KeepsRead r) {f : State → List Byte → Label → Out} {g : Flt → Out} {w : State → Out}
    (ok : ∀ u bs l, s.Keeps u → s.KeepsOut (f u bs l)) (bad : ∀ e, s.KeepsOut (g e)) (wait : ∀ u, s.Keeps u → s.KeepsOut (w u)) :
    s.KeepsOut (match r with | .ok u bs l => f u bs l | .bad e => g e | .wait u => w u) := by
  cases r with
  | ok u bs l => exact ok u bs l h
  | bad e => exact bad e
  | wait u => exact wait u h

end State.KeepsOut

end Sys2Proof.Machine
end

section
/-! PROOFS. What a word that issues an access changes: the operation at the end of the issue order, its counter, and what sending
messages and keeping translations touches. -/

namespace Sys2Proof.Machine

open Sys2Proof

/-- Listing a value twice at a key is listing the later one. -/
theorem Tab.put_put {α : Type} (m : Tab α) (k : Nat) (v w : α) : (m.put k v).put k w = m.put k w := by
  induction m with
  | nil => simp [Tab.put]
  | cons e t ih =>
    obtain ⟨j, x⟩ := e
    rcases lt_trichotomy k j with below | rfl | above
    · simp [Tab.put, below]
    · simp [Tab.put]
    · simp [Tab.put, above.not_gt, above.ne', ih]

theorem State.setGroup_setGroup (s : State) (k : Nat) (g h : Group) : (s.setGroup k g).setGroup k h = s.setGroup k h := by
  simp only [State.setGroup, Tab.put_put]

theorem State.setGrp_setGrp (s : State) (g h : Group) : (s.setGrp g).setGrp h = s.setGrp h := State.setGroup_setGroup ..

/-! ## Sending (R402, R407, R408) -/

/-- Nothing differs but what sending messages and keeping translations touches. -/
def State.SentTo (s t : State) : Prop :=
  ∃ tlb tags nextTag out ctxs stalled,
    t = { s with tlb := tlb, tags := tags, nextTag := nextTag, out := out, ctxs := ctxs, stalled := stalled }

namespace State.SentTo

variable {s t u : State}

theorem refl (s : State) : s.SentTo s := ⟨_, _, _, _, _, _, rfl⟩

theorem trans (h : s.SentTo t) (h' : t.SentTo u) : s.SentTo u := by
  obtain ⟨_, _, _, _, _, _, rfl⟩ := h
  obtain ⟨_, _, _, _, _, _, rfl⟩ := h'
  exact ⟨_, _, _, _, _, _, rfl⟩

theorem newTag (h : s.SentTo t) (r : TagRef) : s.SentTo (t.newTag r).1 := h.trans ⟨_, _, _, _, _, _, rfl⟩

theorem send (h : s.SentTo t) (f : Frame) : s.SentTo (t.send f) := by
  refine h.trans ?_
  unfold State.send
  split
  · exact ⟨_, _, _, _, _, _, rfl⟩
  · dsimp only
    split <;> exact ⟨_, _, _, _, _, _, rfl⟩

theorem keepLeaf (h : s.SentTo t) (c ctx va : Nat) : s.SentTo (t.keepLeaf c ctx va) := by
  refine h.trans ?_
  unfold State.keepLeaf
  dsimp only
  split <;> exact ⟨_, _, _, _, _, _, rfl⟩

theorem foldl {β : Type} {f : State → β → State} (h : s.SentTo t) (step : ∀ u b, s.SentTo u → s.SentTo (f u b)) (l : List β) :
    s.SentTo (l.foldl f t) :=
  keeps_foldl (P := s.SentTo) step l t h

theorem sendAccs (h : s.SentTo t) (k : Nat) (o : Op) (n : Nat) (l : List Acc) : s.SentTo (t.sendAccs k o n l).1 := by
  induction l generalizing t n with
  | nil => exact h
  | cons a as ih =>
    unfold State.sendAccs
    dsimp only
    split
    · exact ih h _
    · exact ih ((h.newTag _).send _) _

theorem groups (h : s.SentTo t) : t.groups = s.groups := by
  obtain ⟨_, _, _, _, _, _, rfl⟩ := h
  rfl

theorem group (h : s.SentTo t) (k : Nat) : t.group k = s.group k := by
  rw [State.group, h.groups]
  rfl

theorem cur (h : s.SentTo t) : t.cur = s.cur := by
  obtain ⟨_, _, _, _, _, _, rfl⟩ := h
  rfl

end State.SentTo

/-- Sending changes no access but that it marks it as sent. -/
theorem map_sendAccs {α : Type} (p : Acc → α) (hp : ∀ a : Acc, p { a with sent := true } = p a) (s : State) (k : Nat) (o : Op) (n : Nat)
    (l : List Acc) : (s.sendAccs k o n l).2.map p = l.map p := by
  induction l generalizing s n with
  | nil => rfl
  | cons a as ih =>
    unfold State.sendAccs
    dsimp only
    split
    · simp [ih]
    · simp [ih, hp]

/-! ## Issuing (R26, R230) -/

/-- An operation as it enters the issue order: numbered, with the failure known now, and then without accesses. -/
def State.entering (s : State) (k : Nat) (o : Op) : Op :=
  let fail := o.fail.or (o.accs.findSome? (s.sendCheck k o.lbl))
  { o with id := (s.group k).nextOp, fail := fail, accs := if fail.isSome then [] else o.accs }

/-- Setting a group again after messages have been sent. -/
theorem State.SentTo.setGroup_again {s t : State} {k : Nat} {g : Group} (h : (s.setGroup k g).SentTo t) (x : Op) :
    ∃ u, s.SentTo u ∧ t.setGroup k ((t.group k).setOp x) = u.setGroup k (g.setOp x) := by
  obtain ⟨tlb, tags, nextTag, out, ctxs, stalled, rfl⟩ := h
  refine ⟨{ s with tlb := tlb, tags := tags, nextTag := nextTag, out := out, ctxs := ctxs, stalled := stalled },
    ⟨_, _, _, _, _, _, rfl⟩, ?_⟩
  have mine : (s.groups.put k g).get Group.empty k = g := Tab.get_put_self ..
  simp only [State.setGroup, State.group, Tab.put_put, mine]

/-- Issuing an operation puts it at the end of the issue order, some of its accesses sent; only messages and translations
change beside. -/
theorem State.issueAccs_eq (s : State) (k : Nat) (o : Op) :
    ∃ u accs, s.SentTo u ∧
      (∀ {α : Type} (p : Acc → α), (∀ a : Acc, p { a with sent := true } = p a) → accs.map p = (s.entering k o).accs.map p) ∧
      s.issueAccs k o = u.setGroup k (((s.group k).issueOp (s.entering k o)).setOp { s.entering k o with accs := accs }) := by
  let m := o.accs.foldl (fun a x => if x.space == .global && !x.lease then a.keepLeaf (s.coreCache k) (s.ctxOf k) x.va else a) s
  let e := s.entering k o
  let v := m.setGroup k ((s.group k).issueOp e)
  have leaves : s.SentTo m := by
    refine (State.SentTo.refl s).foldl (fun u a hu => ?_) _
    split
    · exact hu.keepLeaf ..
    · exact hu
  have ends (r : State × List Acc) (sent : v.SentTo r.1)
      (same : ∀ {α : Type} (p : Acc → α), (∀ a : Acc, p { a with sent := true } = p a) → r.2.map p = e.accs.map p) :
      ∃ u accs, s.SentTo u ∧
        (∀ {α : Type} (p : Acc → α), (∀ a : Acc, p { a with sent := true } = p a) → accs.map p = e.accs.map p) ∧
        r.1.setGroup k ((r.1.group k).setOp { e with accs := r.2 }) =
          u.setGroup k (((s.group k).issueOp e).setOp { e with accs := accs }) := by
    obtain ⟨u, hu, eq⟩ := sent.setGroup_again { e with accs := r.2 }
    exact ⟨u, r.2, leaves.trans hu, same, eq⟩
  have either (b : Bool) : v.SentTo (if b then v.sendAccs k e 0 e.accs else (v, e.accs)).1 ∧
      ∀ {α : Type} (p : Acc → α), (∀ a : Acc, p { a with sent := true } = p a) →
        (if b then v.sendAccs k e 0 e.accs else (v, e.accs)).2.map p = e.accs.map p := by
    cases b with
    | true => exact ⟨(State.SentTo.refl v).sendAccs .., fun p hp => map_sendAccs p hp ..⟩
    | false => exact ⟨.refl v, fun _ _ => rfl⟩
  obtain ⟨sent, same⟩ := either (e.accs.all (·.kind == .load) || !e.accs.any s.isLocal)
  exact ends _ sent same

/-! ## What the accessors of a group read then -/

theorem Group.issueOp_eq (g : Group) (o : Op) :
    g.issueOp o = { g with ops := g.ops ++ [{ o with id := g.nextOp }], nextOp := g.nextOp + 1, fcs := (g.issueOp o).fcs } := by
  unfold Group.issueOp
  dsimp only
  split <;> rfl

/-- Each counter has a number of its own (R66). -/
theorem FC.num_injective : Function.Injective FC.num := by
  intro a b h
  cases a <;> cases b <;> cases h
  all_goals rfl

theorem Group.fcv_raiseFc (g : Group) (c d : FC) : (g.raiseFc c).fcv d = g.fcv d + (if d = c then 1 else 0) := by
  unfold Group.raiseFc Group.fcv
  dsimp only
  rw [Tab.get_set]
  by_cases same : d = c
  · subst same
    simp
  · rw [if_neg fun e => same (FC.num_injective e), if_neg same]
    rfl

theorem Group.fcv_issueOp (g : Group) (o : Op) (c : FC) : (g.issueOp o).fcv c = g.fcv c + (if o.fc = some c then 1 else 0) := by
  unfold Group.issueOp
  dsimp only
  split
  · rename_i d hd
    rw [Group.fcv_raiseFc, hd]
    simp only [Option.some.injEq, eq_comm]
    rfl
  · rename_i none
    simp [none]
    rfl

/-! ## Words that issue one operation -/

/-- What a word of the address slice leaves that issues an operation and passes: the operation, the counter and the sending. -/
theorem State.issueAccs_advance (s : State) (o : Op) :
    ∃ u accs, s.SentTo u ∧ (s.issueAccs s.cur o).setGrp ((s.issueAccs s.cur o).grp.advance 4) =
      u.setGroup s.cur (((s.grp.issueOp (s.entering s.cur o)).setOp { s.entering s.cur o with accs := accs }).advance 4) := by
  obtain ⟨u, accs, sent, -, eq⟩ := s.issueAccs_eq s.cur o
  refine ⟨u, accs, sent, ?_⟩
  rw [show s.group s.cur = s.grp from rfl] at eq
  generalize (s.grp.issueOp (s.entering s.cur o)).setOp { s.entering s.cur o with accs := accs } = G at eq ⊢
  have cur : (u.setGroup s.cur G).cur = s.cur := sent.cur
  have mine : (u.setGroup s.cur G).grp = G := by rw [State.grp, cur, State.group_setGroup]
  rw [eq, State.setGrp, cur, mine, State.setGroup_setGroup]

/-! ## A full memory path holds back the lease check (R27, R157) -/

/-- A group whose core has 2048 loads outstanding, at an address that no lease covers in s1. -/
def fullPathGroup : Group := { Group.empty with fcs := [(0, 2048)], sregs := [(1, { val := 0x100000#64 })] }

/-- The device with this group, its team resident. -/
def fullPathState : State :=
  { State.reset with groups := [(0, fullPathGroup)], teams := [(0, { Team.empty with state := .resident })] }

/-- Refutes O7: the clause that an LDS outside the leases is LEASE at the word asks for no room on the memory paths. In
`fullPathState` they are full, and the LDS waits for a request before its address is checked. -/
theorem not_scalarAccessIssue : ¬ Obligations.ScalarAccessIssue := by
  intro h
  obtain ⟨-, -, lease, -⟩ := h.2 fullPathState 2#6 1#6 0#6 0#14 (fun r _ => Bool.and_false _)
  have fault := lease (by decide) (by decide)
  have waits : exec (.lds 2#6 1#6 0#14) fullPathState = fullPathState.waits (.lds 2#6 1#6 0#14) := rfl
  rw [waits] at fault
  have same := congrArg (fun o : Out => match o with | .next t => t.grp.fault.isSome | _ => false) fault
  exact absurd same (by decide)

end Sys2Proof.Machine
end

section
/-! PROOFS. How an operation of the address slice completes, and what an access does to the granule it goes to. -/

namespace Sys2Proof.Machine

open Sys2Proof

/-! ## Completion (R26, R155) -/

/-- An operation that is performed whole, and fails no check, completes with its result. -/
theorem completeOp_of_performs {s s1 : State} {k n : Nat} {o : Op} {accs : List Acc} (h : Performs s k n o s1 accs) {want : Op → Bool}
    (wanted : want o = true) (write : Group → Op → Group) :
    s.completeOp k n want write = .next (s1.completed k o accs (fun g => write g { o with accs := accs })) := by
  obtain ⟨found, notDone, performed, all, noFail⟩ := h
  have go : (!want o || o.doneq) = false := by rw [wanted, notDone]; rfl
  simp only [State.completeOp, State.completeWith, found, go, performed, all, Bool.false_eq_true, if_false, if_true]
  unfold State.finishOp
  rw [noFail]
  rfl

theorem all_of_all {l : List Acc} {p q : Acc → Bool} (h : l.all p = true) (imp : ∀ a, p a = true → q a = true) : l.all q = true := by
  rw [List.all_eq_true] at h ⊢
  exact fun a ha => imp a (h a ha)

/-- Settles O8: each completion is that of an operation of its own kind, with `writeScalar` for a load or an atomic and no write
for a store. -/
theorem scalarAccessCompletion : Obligations.ScalarAccessCompletion := by
  intro s s1 k n o a performs slice data
  have scalar : o.scalar = true := by simp [Op.scalar, slice, data]
  refine ⟨fun d hd load all => ?_, fun d f t hd atomic all => ?_, fun counter all unqueued => ?_, fun counter all => ?_⟩
  · rw [exec_ldsComplete, execLdsComplete, completeOp_of_performs performs (by simp only [scalar, hd, all]; rfl)]
    simp only [State.completed, writeScalar, hd, load, beq_self_eq_true, if_true]
    rfl
  · have stores : o.accs.all (·.kind.isStore) = true :=
      all_of_all all fun c hc => by rw [beq_iff_eq.1 hc]; rfl
    have notSignal : ((s.group k).op n).any (·.data == .signal) = false := by
      rw [performs.1, Option.any_some, data]
      rfl
    have notLoad : (a.kind == .load) = false := by rw [atomic]; rfl
    rw [exec_amosComplete, execAmosComplete, if_neg (by simp [notSignal]),
      completeOp_of_performs performs (by simp only [scalar, hd, stores]; rfl)]
    simp only [State.completed, writeScalar, hd, notLoad, Bool.false_eq_true, if_false]
  · have plain : o.accs.all (·.kind != .detset) = true :=
      all_of_all all fun c hc => by rw [beq_iff_eq.1 hc]; rfl
    have apart : (s.group k).saq.any (fun e => e.op == o.id) = false := by simpa using unqueued
    rw [exec_stsComplete, execStsComplete, completeOp_of_performs performs (by simp [slice, counter, data, apart, plain])]
    rfl
  · rw [exec_detsetComplete, execDetsetComplete, completeOp_of_performs performs (by simp only [scalar, counter, all]; rfl)]
    rfl

/-! ## Bytes and words -/

theorem length_bytesOf (n k : Nat) : (bytesOf n k).length = k := by
  induction k generalizing n with
  | zero => rfl
  | succ k ih => rw [bytesOf, List.length_cons, ih]

theorem getElem_bytesOf (n k i : Nat) (h : i < (bytesOf n k).length) : (bytesOf n k)[i] = BitVec.ofNat 8 (n / 2 ^ (8 * i)) := by
  induction k generalizing n i with
  | zero => simp [bytesOf] at h
  | succ k ih =>
    cases i with
    | zero => simp [bytesOf]
    | succ i =>
      have split : 2 ^ (8 * (i + 1)) = 256 * 2 ^ (8 * i) := by rw [Nat.mul_add, Nat.add_comm, Nat.pow_add]
      simp only [bytesOf, List.getElem_cons_succ, ih, split, Nat.div_div_eq_div_mul]

/-- The sign of a 64-bit word is that of its number (R92). -/
theorem signedOf_toNat (x : DWord) : signedOf 64 x.toNat = x.toInt := by
  have := x.isLt
  rw [signedOf, BitVec.toInt_eq_toNat_cond]
  have top : bitOf x.toNat (64 - 1) = decide (2 ^ 64 ≤ 2 * x.toNat) := by
    rw [bitOf, Bool.eq_iff_iff, beq_iff_eq, decide_eq_true_iff]
    omega
  rw [top, Nat.mod_eq_of_lt this]
  by_cases neg : 2 ^ 64 ≤ 2 * x.toNat
  · rw [if_pos (by simpa using neg), if_neg (by omega)]
  · rw [if_neg (by simpa using neg), if_pos (by omega)]

/-! ## An access at a granule of this device (R126, R127, R129, R130) -/

/-- What a write of a value over an access has done: its bytes, and no others. -/
theorem byteAt_writeMem (s : State) (la v n : Nat) :
    (∀ j, j < n → (s.writeMem la (bytesOf v n)).byteAt (la + j) = BitVec.ofNat 8 (v / 2 ^ (8 * j))) ∧
      ∀ x, x < la ∨ la + n ≤ x → (s.writeMem la (bytesOf v n)).byteAt x = s.byteAt x := by
  constructor
  · intro j hj
    have inside : j < (bytesOf v n).length := by rwa [length_bytesOf]
    rw [State.byteAt, State.readByte_writeMem_in s la j _ inside, getElem_bytesOf]
  · intro x hx
    exact State.readByte_writeMem_out s la x _ (by rwa [length_bytesOf])

section
variable {s : State} {w : Label} {p : Nat × Nat} {c : Label} {a : Acc}

theorem applyGlobal_of_bad {f : Flt} (host : isHost (localOf a.pa) = false) (fresh : a.chk = false)
    (check : labelCheck a.kind c w (s.labelOf (localOf a.pa) a.size) 0 a.va = some f) : s.applyGlobal c w p a = .bad f := by
  simp only [State.applyGlobal, host, fresh, Bool.false_and, Bool.or_self, Bool.false_eq_true, if_false, check]

theorem applyGlobal_load (kind : a.kind = .load) (host : isHost (localOf a.pa) = false) (fresh : a.chk = false)
    (sound : s.poisoned (localOf a.pa) a.size = false) (within : LabelIn (s.labelOf (localOf a.pa) a.size) c) :
    s.applyGlobal c w p a = .ok s { a with done := true, got := s.readNat (localOf a.pa) a.size, glbl := s.labelOf (localOf a.pa) a.size } := by
  simp only [State.applyGlobal, host, fresh, Bool.false_and, Bool.or_self, Bool.false_eq_true, if_false, kind, labelCheck,
    (within_iff_labelIn _ _).2 within, if_true, sound]

theorem applyGlobal_store (kind : a.kind = .store) (plain : a.line = false) (host : isHost (localOf a.pa) = false) (fresh : a.chk = false)
    (within : LabelIn w (s.labelOf (localOf a.pa) a.size)) :
    s.applyGlobal c w p a = .ok (s.writeMem (localOf a.pa) (bytesOf a.val a.size))
      { a with done := true, got := s.readNat (localOf a.pa) a.size, glbl := s.labelOf (localOf a.pa) a.size } := by
  simp only [State.applyGlobal, host, fresh, Bool.false_and, Bool.or_self, Bool.false_eq_true, if_false, kind, labelCheck,
    (within_iff_labelIn _ _).2 within, if_true, State.writeLine, plain, Bool.not_false]

theorem applyGlobal_atomic {f : Nat} {t : Ty} (kind : a.kind = .atomic f t) (plain : a.line = false) (host : isHost (localOf a.pa) = false)
    (fresh : a.chk = false) (sound : s.poisoned (localOf a.pa) a.size = false)
    (owners : LabelIn (s.labelOf (localOf a.pa) a.size) c) (within : LabelIn w (s.labelOf (localOf a.pa) a.size)) :
    s.applyGlobal c w p a = .ok
      (s.writeMem (localOf a.pa) (bytesOf (atomicNew f t (s.readNat (localOf a.pa) a.size) a.val a.cmp) a.size))
      { a with done := true, got := s.readNat (localOf a.pa) a.size, glbl := s.labelOf (localOf a.pa) a.size } := by
  simp only [State.applyGlobal, host, fresh, Bool.false_and, Bool.or_self, Bool.false_eq_true, if_false, kind, labelCheck, sound,
    (within_iff_labelIn _ _).2 within, (within_iff_labelIn _ _).2 owners, if_true, State.writeLine, plain, Bool.not_false, Bool.not_true]

end

/-- An access to global memory other than a raise is applied under CLR of its group and its own label. -/
theorem applyAcc_global {s : State} (k : Nat) (w : Label) {a : Acc} (space : a.space = .global) (kind : a.kind ≠ .raise) :
    s.applyAcc k w a = s.applyGlobal (s.clr k) (w ||| a.lbl) (s.devn, (s.team (teamOf k)).grid) a := by
  have other : (a.kind == AccKind.raise) = false := beq_false_of_ne kind
  simp only [State.applyAcc, space, other, Bool.false_and, Bool.false_eq_true, if_false]
  rfl

/-! ## The new values of the scalar atomics (R167) -/

theorem atomicNew_words (x b c : DWord) :
    atomicNew 0 .z64 x.toNat b.toNat c.toNat = (x + b).toNat ∧
    atomicNew 1 .z64 x.toNat b.toNat c.toNat = (x &&& b).toNat ∧
    atomicNew 2 .z64 x.toNat b.toNat c.toNat = (x ||| b).toNat ∧
    atomicNew 3 .z64 x.toNat b.toNat c.toNat = (x ^^^ b).toNat ∧
    atomicNew 4 .s64 x.toNat b.toNat c.toNat = (if x.toInt ≤ b.toInt then x else b).toNat ∧
    atomicNew 5 .s64 x.toNat b.toNat c.toNat = (if x.toInt ≤ b.toInt then b else x).toNat ∧
    atomicNew 6 .z64 x.toNat b.toNat c.toNat = min x.toNat b.toNat ∧
    atomicNew 7 .z64 x.toNat b.toNat c.toNat = max x.toNat b.toNat ∧
    atomicNew 8 .z64 x.toNat b.toNat c.toNat = b.toNat ∧
    atomicNew 9 .z64 x.toNat b.toNat c.toNat = (if x = c then b else x).toNat := by
  have le : (decide (signedOf Ty.s64.width x.toNat ≤ signedOf Ty.s64.width b.toNat) = true) = (x.toInt ≤ b.toInt) := by
    rw [decide_eq_true_iff, show Ty.s64.width = 64 from rfl, signedOf_toNat, signedOf_toNat]
  refine ⟨(BitVec.toNat_add ..).symm, (BitVec.toNat_and ..).symm, (BitVec.toNat_or ..).symm, (BitVec.toNat_xor ..).symm, ?_, ?_, ?_, ?_, rfl, ?_⟩
  · change (if (decide (signedOf Ty.s64.width x.toNat ≤ signedOf Ty.s64.width b.toNat) = true) then x.toNat else b.toNat) = _
    simp only [le]
    split <;> rfl
  · change (if (decide (signedOf Ty.s64.width x.toNat ≤ signedOf Ty.s64.width b.toNat) = true) then b.toNat else x.toNat) = _
    simp only [le]
    split <;> rfl
  · exact (min_def ..).symm
  · exact (max_def ..).symm
  · change (if x.toNat = c.toNat then b.toNat else x.toNat) = _
    simp only [← BitVec.toNat_inj]
    split <;> rfl

/-- Settles O9: the label check decides between the fault and the access, and a write puts the value's bytes in its place. -/
theorem accessAtGranule : Obligations.AccessAtGranule := by
  refine ⟨fun s k w a space plain host lbl fresh sound => ?_, atomicNew_words⟩
  intro la gl c old wrote
  have global (kind : a.kind ≠ .raise) : s.applyAcc k w a = s.applyGlobal c w (s.devn, (s.team (teamOf k)).grid) a := by
    rw [applyAcc_global k w space kind, lbl, BitVec.or_zero]
  have put (v : Nat) : wrote v (s.writeMem la (bytesOf v a.size)) { a with done := true, got := old, glbl := gl } :=
    ⟨rfl, rfl, byteAt_writeMem ..⟩
  have out {x y : Label} (h : ¬ LabelIn x y) : x.within y = false := by
    rwa [← within_iff_labelIn, Bool.not_eq_true] at h
  have bad (kind : a.kind ≠ .raise) {f : Flt} (check : labelCheck a.kind c w gl 0 a.va = some f) : s.applyAcc k w a = .bad f := by
    rw [global kind, applyGlobal_of_bad host fresh check]
  refine ⟨fun kind within => ?_, fun kind h => ?_, fun kind within => ?_, fun kind h => ?_, fun f t kind owners within => ?_,
    fun f t kind h => ?_, fun f t kind owners h => ?_⟩
  · rw [global (by simp [kind]), applyGlobal_load kind host fresh sound within]
  · exact bad (by simp [kind]) (by simp only [kind, labelCheck, out h]; rfl)
  · rw [global (by simp [kind]), applyGlobal_store kind plain host fresh within]
    exact ⟨_, _, rfl, put _⟩
  · exact bad (by simp [kind]) (by simp only [kind, labelCheck, out h]; rfl)
  · rw [global (by simp [kind]), applyGlobal_atomic kind plain host fresh sound owners within]
    exact ⟨_, _, rfl, put _⟩
  · exact bad (by simp [kind]) (by simp only [kind, labelCheck, out h]; rfl)
  · exact bad (by simp [kind]) (by simp only [kind, labelCheck, out h, (within_iff_labelIn _ _).2 owners]; rfl)

end Sys2Proof.Machine
end

section
/-! PROOFS. GLBL of a granule of this device while this device is on its own list of fenced peers. -/

namespace Sys2Proof.Machine

open Sys2Proof

/-- A launch with a writable lease of virtual page 1. -/
def onePageLaunch : Launch := { Launch.empty with leases := [{ base := 1, npg := 1, w := true }] }

/-- A group with the address of page 1 in s1. -/
def onePageGroup : Group := { Group.empty with sregs := [(1, { val := 0x10000#64 })] }

/-- A device whose page tables, at local addresses 0, 0x10000 and 0x20000, map virtual page 1 to its own frame 3, and whose list
of fenced peers names it itself. -/
def selfFencedState : State :=
  { State.reset with
    groups := [(0, onePageGroup)], teams := [(0, { Team.empty with state := .resident })],
    grids := [(0, { Grid.empty with rec_ := onePageLaunch })], ctxs := [(0, { root := 0 })], fenced := [0],
    mem := [(0, 1#8), (2, 1#8), (0x10000, 1#8), (0x10002, 2#8), (0x20008, 3#8), (0x2000A, 3#8)] }

/-- Refutes O19: the claim's premises read the fenced peers through `sendCheck`, which asks only of other devices, while GLBL asks
of every global target. In `selfFencedState` a GLBL of its own granule meets the premises and is FENCED. -/
theorem not_labelRaises : ¬ Obligations.LabelRaises := by
  intro h
  obtain ⟨-, -, -, global⟩ := h selfFencedState 1#6 0#6 (fun r _ => Bool.and_false _)
  obtain ⟨issues, -⟩ := global (by decide) (by decide) (by decide +kernel) (fun y hy here => by
    have : y = { pa := 0x30000, ord := 0, w := true, line := false, det := false, dup := false } := by
      have : selfFencedState.translateBy (some (selfFencedState.coreCache selfFencedState.cur)) (selfFencedState.ctxOf selfFencedState.cur) 0x10000 false
        = some { pa := 0x30000, ord := 0, w := true, line := false, det := false, dup := false } := by decide +kernel
      exact Option.some.inj (hy.symm.trans this)
    rw [this]
    rfl) (by decide +kernel) (by decide +kernel)
  obtain ⟨t, ht, issued⟩ := issues (by decide) (by decide +kernel) (by decide +kernel)
  have fenced : exec (.glbl .global 1#6 0#6) selfFencedState = .next (selfFencedState.raiseA { code := 0x16, faddr := 0x10000 }) := by
    rfl
  rw [fenced] at ht
  obtain rfl : selfFencedState.raiseA { code := 0x16, faddr := 0x10000 } = t := Host.Outcome.next.inj ht
  exact absurd issued.2.2.1 (by decide +kernel)

end Sys2Proof.Machine
end

section
/-! PROOFS. What the device's own accesses touch, and what faults that operations report change of groups. -/

namespace Sys2Proof.Machine

open Sys2Proof

/-- Nothing differs but what the device's own accesses touch: memory, its lines and the writes that wait, messages, and what the
device keeps of other devices. -/
def State.OwnTo (s t : State) : Prop :=
  ∃ mem lines dieQ dupWaits ctxs tags nextTag ownReads ordered out stalled msix log,
    t = { s with mem := mem, lines := lines, dieQ := dieQ, dupWaits := dupWaits, ctxs := ctxs, tags := tags, nextTag := nextTag,
                 ownReads := ownReads, ordered := ordered, out := out, stalled := stalled, msix := msix, log := log }

namespace State.OwnTo

variable {s t u : State}

theorem refl (s : State) : s.OwnTo s := ⟨_, _, _, _, _, _, _, _, _, _, _, _, _, rfl⟩

theorem trans (h : s.OwnTo t) (h' : t.OwnTo u) : s.OwnTo u := by
  obtain ⟨_, _, _, _, _, _, _, _, _, _, _, _, _, rfl⟩ := h
  obtain ⟨_, _, _, _, _, _, _, _, _, _, _, _, _, rfl⟩ := h'
  exact ⟨_, _, _, _, _, _, _, _, _, _, _, _, _, rfl⟩

theorem foldl {β : Type} {f : State → β → State} (h : s.OwnTo t) (step : ∀ u b, s.OwnTo u → s.OwnTo (f u b)) (l : List β) :
    s.OwnTo (l.foldl f t) :=
  keeps_foldl (P := s.OwnTo) step l t h

theorem ite {c : Prop} [Decidable c] (h : s.OwnTo t) (h' : s.OwnTo u) : s.OwnTo (if c then t else u) := by
  split
  · exact h
  · exact h'

theorem writeMem (h : s.OwnTo t) (la : Nat) (bs : List Byte) : s.OwnTo (t.writeMem la bs) :=
  h.trans ⟨_, _, _, _, _, _, _, _, _, _, _, _, _, rfl⟩

theorem newTag (h : s.OwnTo t) (r : TagRef) : s.OwnTo (t.newTag r).1 := h.trans ⟨_, _, _, _, _, _, _, _, _, _, _, _, _, rfl⟩

theorem send (h : s.OwnTo t) (f : Frame) : s.OwnTo (t.send f) := by
  refine h.trans ?_
  unfold State.send
  split
  · exact ⟨_, _, _, _, _, _, _, _, _, _, _, _, _, rfl⟩
  · dsimp only
    split <;> exact ⟨_, _, _, _, _, _, _, _, _, _, _, _, _, rfl⟩

theorem deviceSend (h : s.OwnTo t) (dev ctx page : Nat) (f : Nat → Frame) : s.OwnTo (t.deviceSend dev ctx page f) := by
  unfold State.deviceSend
  exact OwnTo.ite h ((h.newTag _).send _)

theorem deviceStores (h : s.OwnTo t) (ctx page dev la : Nat) (line : Bool) (l : List (List Byte)) :
    s.OwnTo (t.deviceStores ctx page dev la line l) := by
  induction l generalizing t la with
  | nil => exact h
  | cons x xs ih => exact ih (h.deviceSend _ _ _ _) _

theorem writeLine {la : Nat} {bs : List Byte} {cmp : Bool} (h : s.OwnTo t) (ht : t.writeLine la bs cmp = some u) : s.OwnTo u := by
  refine h.trans ?_
  unfold State.writeLine at ht
  dsimp only at ht
  split at ht
  · cases ht; exact ⟨_, _, _, _, _, _, _, _, _, _, _, _, _, rfl⟩
  · split at ht
    · cases ht; exact ⟨_, _, _, _, _, _, _, _, _, _, _, _, _, rfl⟩
    · split at ht
      · cases ht; exact ⟨_, _, _, _, _, _, _, _, _, _, _, _, _, rfl⟩
      · split at ht
        · cases ht; exact ⟨_, _, _, _, _, _, _, _, _, _, _, _, _, rfl⟩
        · cases ht

theorem signal {la : Nat} {delta : DWord} {line : Bool} (h : s.OwnTo t) (ht : t.signal la delta line = some u) : s.OwnTo u := by
  unfold State.signal at ht
  dsimp only at ht
  rw [Option.map_eq_some_iff] at ht
  obtain ⟨v, hv, rfl⟩ := ht
  have written := h.writeLine hv
  exact OwnTo.ite (written.trans ⟨_, _, _, _, _, _, _, _, _, _, _, _, _, rfl⟩) written

theorem dupNotify (h : s.OwnTo t) (r : TagRef) (ctx : Nat) (reply : Option Frame) (pa n : Nat) (line : Bool) :
    s.OwnTo (t.dupNotify r ctx reply pa n line) :=
  (OwnTo.foldl (h.newTag _) (fun _ _ hu => hu.send _) _).trans ⟨_, _, _, _, _, _, _, _, _, _, _, _, _, rfl⟩

theorem dieWrite {w : DieWrite} (h : s.OwnTo t) (ht : t.dieWrite w = some u) : s.OwnTo u := by
  unfold State.dieWrite at ht
  dsimp only at ht
  generalize (if w.delta.isSome = true then 8 else w.bytes.length) = n at ht
  split at ht
  · cases ht
  · rw [Option.map_eq_some_iff] at ht
    obtain ⟨v, hv, rfl⟩ := ht
    have written : s.OwnTo v := by
      split at hv
      · exact h.signal hv
      · exact h.writeLine hv
    exact OwnTo.ite (written.dupNotify ..) written

theorem deviceApply (h : s.OwnTo t) (w : DieWrite) : s.OwnTo (t.deviceApply w) := by
  unfold State.deviceApply
  split
  · rename_i v hv
    split at hv
    · exact h.dieWrite hv
    · cases hv
  · exact h.trans ⟨_, _, _, _, _, _, _, _, _, _, _, _, _, rfl⟩

theorem devicePiece (h : s.OwnTo t) (ctx va : Nat) (bs : List Byte) : s.OwnTo (t.devicePiece ctx va bs) := by
  unfold State.devicePiece
  split
  · exact h
  · dsimp only
    refine OwnTo.ite ?_ (OwnTo.ite (h.writeMem _ _) ?_)
    · exact (h.deviceStores ..).trans ⟨_, _, _, _, _, _, _, _, _, _, _, _, _, rfl⟩
    · exact keeps_foldl (P := fun a : State × Nat => s.OwnTo a.1) (fun _ _ hu => hu.deviceApply _) _ _ h

theorem deviceWrite (h : s.OwnTo t) (ctx va : Nat) (bs : List Byte) : s.OwnTo (t.deviceWrite ctx va bs) :=
  h.foldl (fun _ _ hu => hu.devicePiece _ _ _) _

theorem blockWrite (h : s.OwnTo t) (n off : Nat) (bs : List Byte) : s.OwnTo (t.blockWrite n off bs) := by
  unfold State.blockWrite
  exact OwnTo.ite (h.deviceWrite _ _ _) h

theorem groups (h : s.OwnTo t) : t.groups = s.groups := by
  obtain ⟨_, _, _, _, _, _, _, _, _, _, _, _, _, rfl⟩ := h
  rfl

end State.OwnTo

/-! ## The faults that operations report (R26, R155, R377) -/

/-- What a report can change of a group: its operations and counters, the fault record with LOST, and what stops its slices and its
queue stores. -/
def Group.Reported (g h : Group) : Prop :=
  ∃ ops fcs fault lost astop cstop sf,
    h = { g with ops := ops, fcs := fcs, fault := fault, lostFault := lost, astopped := astop, cstopped := cstop, storeFail := sf }

theorem Group.Reported.refl (g : Group) : g.Reported g := ⟨_, _, _, _, _, _, _, rfl⟩

theorem Group.Reported.trans {g h i : Group} (a : g.Reported h) (b : h.Reported i) : g.Reported i := by
  obtain ⟨_, _, _, _, _, _, _, rfl⟩ := a
  obtain ⟨_, _, _, _, _, _, _, rfl⟩ := b
  exact ⟨_, _, _, _, _, _, _, rfl⟩

/-- No group differs by more than a report. -/
def State.Reported (s t : State) : Prop := ∀ k, (s.group k).Reported (t.group k)

namespace State.Reported

variable {s t u : State}

theorem refl (s : State) : s.Reported s := fun _ => .refl _

/-- A step that leaves the groups alone. -/
theorem same (h : s.Reported t) (groups : u.groups = t.groups) : s.Reported u := fun k => by
  have : u.group k = t.group k := congrArg (Tab.get Group.empty · k) groups
  rw [this]
  exact h k

theorem ite {c : Prop} [Decidable c] (h : s.Reported t) (h' : s.Reported u) : s.Reported (if c then t else u) := by
  split
  · exact h
  · exact h'

theorem setGroup (h : s.Reported t) {k : Nat} {g : Group} (hg : (t.group k).Reported g) : s.Reported (t.setGroup k g) := fun j => by
  by_cases here : j = k
  · rw [here, State.group_setGroup]
    exact (h k).trans hg
  · rw [State.group_setGroup_ne _ _ here]
    exact h j

theorem foldl {β : Type} {f : State → β → State} (h : s.Reported t) (step : ∀ u b, s.Reported u → s.Reported (f u b)) (l : List β) :
    s.Reported (l.foldl f t) :=
  keeps_foldl (P := s.Reported) step l t h

theorem send (h : s.Reported t) (f : Frame) : s.Reported (t.send f) := h.same ((State.OwnTo.refl t).send f).groups

theorem heldDone (h : s.Reported t) (x : Held) (bad : Option Label) : s.Reported (t.heldDone x bad) := by
  unfold State.heldDone
  split
  · exact h.send _
  · exact h.send _
  · exact h
  · dsimp only
    split
    · exact h.setGroup ⟨_, _, _, _, _, _, _, rfl⟩
    · exact h

theorem dropHeld (h : s.Reported t) (n : Nat) : s.Reported (t.dropHeld n) :=
  (h.foldl (fun _ _ hu => hu.heldDone _ _) _).same rfl

theorem leaveCore (h : s.Reported t) (n : Nat) : s.Reported (t.leaveCore n) := by
  have left : s.Reported (t.leaveQueues n) := by
    unfold State.leaveQueues
    exact Reported.ite (h.same rfl) h
  unfold State.leaveCore
  dsimp only
  split
  · exact left.same rfl
  · exact left

theorem endTeam (h : s.Reported t) (n : Nat) (st : TState) : s.Reported (t.endTeam n st) := by
  have left := h.leaveCore n
  exact ((left.same ((State.OwnTo.refl _).blockWrite n 0 (bytesOf st.code 1)).groups).dropHeld n).same rfl

theorem endGrid (h : s.Reported t) (gr code : Nat) : s.Reported (t.endGrid gr code) :=
  (Reported.foldl (by exact h.same rfl) (fun _ _ hu => hu.endTeam _ _) _).same rfl

theorem raiseRec (h : s.Reported t) (k : Nat) (r : FaultRec) : s.Reported (t.raiseRec k r) := by
  have record {g : Group} (hg : (t.group k).Reported g) : s.Reported (t.setGroup k g) := h.setGroup hg
  unfold State.raiseRec
  dsimp only
  split
  · have := record (g := { t.group k with
      lostFault := true, astopped := (t.group k).astopped || !r.cslice, cstopped := (t.group k).cstopped || r.cslice })
      ⟨_, _, _, _, _, _, _, rfl⟩
    exact Reported.ite (this.endGrid _ _) this
  · have := record (g := { t.group k with
      fault := some r, astopped := (t.group k).astopped || (r.dlk || r.unpaired) || !r.cslice,
      cstopped := (t.group k).cstopped || (r.dlk || r.unpaired) || r.cslice }) ⟨_, _, _, _, _, _, _, rfl⟩
    exact Reported.ite (Reported.endGrid (by exact this.same rfl) _ _) (this.same rfl)

theorem raiseOp (h : s.Reported t) (k : Nat) (o : Op) (f : Flt) : s.Reported (t.raiseOp k o f) := by
  unfold State.raiseOp
  exact Reported.raiseRec (Reported.ite (h.setGroup ⟨_, _, _, _, _, _, _, rfl⟩) h) _ _

theorem settle (h : s.Reported t) (k : Nat) : s.Reported (t.settle k) := by
  refine Reported.foldl (h.setGroup ⟨_, _, _, _, _, _, _, rfl⟩) (fun u o hu => ?_) _
  split
  · exact hu.raiseOp _ _ _
  · exact hu

end State.Reported

end Sys2Proof.Machine
end

section
/-! PROOFS. What performing accesses touches: memory and its labels, sets, messages, and of a team its buffers alone. -/

namespace Sys2Proof.Machine

open Sys2Proof

/-- Of a team only the contents and labels of its buffers differ. -/
def Team.Buffered (x y : Team) : Prop :=
  ∃ sp spLbl acc bankLbl wmem, y = { x with sp := sp, spLbl := spLbl, acc := acc, bankLbl := bankLbl, wmem := wmem }

theorem Team.Buffered.refl (x : Team) : x.Buffered x := ⟨_, _, _, _, _, rfl⟩

theorem Team.Buffered.trans {x y z : Team} (h : x.Buffered y) (h' : y.Buffered z) : x.Buffered z := by
  obtain ⟨_, _, _, _, _, rfl⟩ := h
  obtain ⟨_, _, _, _, _, rfl⟩ := h'
  exact ⟨_, _, _, _, _, rfl⟩

/-- Nothing differs but what accesses touch. -/
def State.Accessed (s t : State) : Prop :=
  (∃ teams mem glbl detsets lines dieQ dupWaits ctxs tags nextTag ownReads ordered out stalled msix log,
    t = { s with teams := teams, mem := mem, glbl := glbl, detsets := detsets, lines := lines, dieQ := dieQ, dupWaits := dupWaits,
                 ctxs := ctxs, tags := tags, nextTag := nextTag, ownReads := ownReads, ordered := ordered, out := out,
                 stalled := stalled, msix := msix, log := log }) ∧
    ∀ n, (s.team n).Buffered (t.team n)

def State.AccessedBy (s : State) : Applied → Prop
  | .ok t _ => s.Accessed t
  | _ => True

def State.AccessedByAll (s : State) : Performed → Prop
  | .ok t _ => s.Accessed t
  | _ => True

namespace State.Accessed

variable {s t u : State}

theorem refl (s : State) : s.Accessed s := ⟨⟨_, _, _, _, _, _, _, _, _, _, _, _, _, _, _, _, rfl⟩, fun _ => .refl _⟩

theorem trans (h : s.Accessed t) (h' : t.Accessed u) : s.Accessed u := by
  obtain ⟨⟨_, _, _, _, _, _, _, _, _, _, _, _, _, _, _, _, rfl⟩, buffers⟩ := h
  obtain ⟨⟨_, _, _, _, _, _, _, _, _, _, _, _, _, _, _, _, rfl⟩, buffers'⟩ := h'
  exact ⟨⟨_, _, _, _, _, _, _, _, _, _, _, _, _, _, _, _, rfl⟩, fun n => (buffers n).trans (buffers' n)⟩

theorem own (h : s.Accessed t) (h' : t.OwnTo u) : s.Accessed u := by
  refine h.trans ?_
  obtain ⟨_, _, _, _, _, _, _, _, _, _, _, _, _, rfl⟩ := h'
  exact ⟨⟨_, _, _, _, _, _, _, _, _, _, _, _, _, _, _, _, rfl⟩, fun _ => .refl _⟩

theorem setTeam (h : s.Accessed t) {n : Nat} {x : Team} (hx : (t.team n).Buffered x) : s.Accessed (t.setTeam n x) := by
  refine h.trans ⟨⟨_, _, _, _, _, _, _, _, _, _, _, _, _, _, _, _, rfl⟩, fun m => ?_⟩
  by_cases here : m = n
  · rw [here, State.team_setTeam]
    exact hx
  · rw [State.team_setTeam_ne _ _ here]
    exact .refl _

theorem clr (h : s.Accessed t) (k : Nat) : t.clr k = s.clr k := by
  obtain ⟨⟨_, _, _, _, _, _, _, _, _, _, _, _, _, _, _, _, rfl⟩, buffers⟩ := h
  obtain ⟨_, _, _, _, _, team⟩ := buffers (teamOf k)
  unfold State.clr State.recOf State.gridOf
  rw [team]
  rfl

theorem group (h : s.Accessed t) (k : Nat) : t.group k = s.group k := by
  obtain ⟨⟨_, _, _, _, _, _, _, _, _, _, _, _, _, _, _, _, rfl⟩, -⟩ := h
  rfl

theorem applyGlobal (clr w : Label) (setOf : Nat × Nat) (a : Acc) : s.AccessedBy (s.applyGlobal clr w setOf a) := by
  have put (x : Option State) (f : State → Acc) :
      (∀ u, x = some u → s.OwnTo u) → s.AccessedBy (match x with | some u => .ok u (f u) | none => .blocked) := by
    intro written
    cases x with
    | none => trivial
    | some u => exact (refl s).own (written u rfl)
  unfold State.applyGlobal
  dsimp only
  split
  · trivial
  · split
    · split
      · trivial
      · exact refl s
    · exact put _ (fun _ => _) fun _ => (OwnTo.refl s).writeLine
    · split
      · trivial
      · split
        · trivial
        · exact put _ (fun _ => _) fun _ => (OwnTo.refl s).writeLine
    · split
      · trivial
      · exact put _ (fun _ => _) fun _ => (OwnTo.refl s).signal
    · exact ⟨⟨_, _, _, _, _, _, _, _, _, _, _, _, _, _, _, _, rfl⟩, fun _ => .refl _⟩
    · split
      · trivial
      · exact ⟨⟨_, _, _, _, _, _, _, _, _, _, _, _, _, _, _, _, rfl⟩, fun _ => .refl _⟩
    · trivial

theorem applyScratch (tn : Nat) (clr w : Label) (a : Acc) : s.AccessedBy (s.applyScratch tn clr w a) := by
  have done {x : Team} (b : Acc) (hx : (s.team tn).Buffered x) : s.AccessedBy (.ok (s.setTeam tn x) b) := (refl s).setTeam hx
  have ite {c : Prop} [Decidable c] {x y : Applied} (hx : s.AccessedBy x) (hy : s.AccessedBy y) :
      s.AccessedBy (if c then x else y) := by
    split
    · exact hx
    · exact hy
  unfold State.applyScratch
  dsimp only
  split
  · trivial
  · split
    · exact ite trivial (done _ (.refl _))
    · exact ite (done _ ⟨_, _, _, _, _, rfl⟩) (done _ ⟨_, _, _, _, _, rfl⟩)
    · exact ite trivial (done _ ⟨_, _, _, _, _, rfl⟩)
    · exact ite trivial (ite trivial (done _ ⟨_, _, _, _, _, rfl⟩))
    · trivial

theorem applyAccum (tn : Nat) (clr w : Label) (a : Acc) : s.AccessedBy (s.applyAccum tn clr w a) := by
  have done {x : Team} (b : Acc) (hx : (s.team tn).Buffered x) : s.AccessedBy (.ok (s.setTeam tn x) b) := (refl s).setTeam hx
  unfold State.applyAccum
  dsimp only
  split
  · trivial
  · split
    · split
      · trivial
      · exact done _ (.refl _)
    · exact done _ ⟨_, _, _, _, _, rfl⟩
    · exact done _ ⟨_, _, _, _, _, rfl⟩
    · trivial

theorem applyWeight (tn : Nat) (clr w : Label) (a : Acc) : s.AccessedBy (s.applyWeight tn clr w a) := by
  unfold State.applyWeight
  dsimp only
  split
  · trivial
  · split
    · trivial
    · exact (refl s).setTeam ⟨_, _, _, _, _, rfl⟩

theorem applyAcc (k : Nat) (w : Label) (a : Acc) : s.AccessedBy (s.applyAcc k w a) := by
  unfold State.applyAcc
  dsimp only
  split
  · split
    · trivial
    · exact applyGlobal ..
  · exact applyScratch ..
  · exact applyAccum ..
  · exact applyWeight ..

theorem applyAccs (h : s.Accessed t) (k : Nat) (o : Op) (pick : Nat → Bool) (n : Nat) (l : List Acc) :
    s.AccessedByAll (t.applyAccs k o pick n l) := by
  induction l generalizing t n with
  | nil => exact h
  | cons a as ih =>
    have rest (u : State) (b : Acc) (hu : s.Accessed u) : s.AccessedByAll (match u.applyAccs k o pick (n + 1) as with
        | .ok v l => .ok v (b :: l)
        | r => r) := by
      have := ih hu (n + 1)
      split
      · rename_i v l hv
        rwa [hv] at this
      · exact this
    unfold State.applyAccs
    dsimp only
    split
    · exact rest _ _ h
    · split
      · split
        · exact rest _ _ h
        · exact rest _ _ (h.own (((OwnTo.refl t).newTag _).send _))
      · split
        · exact rest _ _ h
        · have applied := applyAcc (s := t) k o.lbl a
          split
          · trivial
          · trivial
          · rename_i u b hu
            rw [hu] at applied
            split
            · exact rest _ _ ((h.trans applied).own ((OwnTo.refl u).dupNotify ..))
            · exact rest _ _ (h.trans applied)

theorem performPart (k : Nat) (o : Op) (part : Acc → Bool) (pick : Nat → Bool) : s.AccessedByAll (s.performPart k o part pick) := by
  unfold State.performPart
  dsimp only
  split
  · trivial
  · split
    · trivial
    · exact (refl s).applyAccs ..

theorem perform {k : Nat} {o : Op} {pick : Nat → Bool} {accs : List Acc} (h : s.perform k o pick = .ok t accs) : s.Accessed t := by
  have := performPart (s := s) k o (fun _ => true) pick
  unfold State.perform at h
  rwa [h] at this

end State.Accessed

end Sys2Proof.Machine
end

section
/-! PROOFS. VLD and VSTA enter their queues; what becomes of the entries of a load queue. -/

namespace Sys2Proof.Machine

open Sys2Proof

/-- An address that no check of R157 refuses. -/
theorem not_badAddr {x : DWord} {n : Nat} (range : x.toNat < 2 ^ 55) (aligned : x.toNat % n = 0) :
    ¬ ((!addrOk x || decide (x.toNat % n ≠ 0)) = true) := by
  rw [addrOk, decide_eq_true range]
  simp [aligned]

/-! ## VLD (R169, R321, R18) -/

/-- The entry that a VLD at the group's word allocates. -/
def Group.vldEntry (g : Group) (x : DWord) (l : Label) : LQEntry := { vld := g.apc, addr := x.toNat, albl := l, op := g.nextOp }

/-- A load queue with an entry more. -/
def Group.allocated (g : Group) (k : Nat) (e : LQEntry) : Group :=
  { g with lqs := g.lqs.set {} k { g.lq k with entries := (g.lq k).entries ++ [e] } }

theorem lq_allocated (g : Group) (k j : Nat) (e : LQEntry) :
    (g.allocated k e).lq j = if j = k then { g.lq k with entries := (g.lq k).entries ++ [e] } else g.lq j :=
  Tab.get_set ..

/-- The operation of a VLD. -/
def State.vldOp (s : State) (q : BitVec 2) (x : DWord) (l : Label) : Op :=
  { id := 0, fc := some .ld, pc := s.grp.apc.toNat, run := s.grp.runs, after := s.grp.caOrd, lbl := l,
    accs := (List.range 32).map (fun n => s.formAcc s.cur { lane := n, va := x.toNat + 4 * n, size := 4 }), data := .vld q.toNat x.toNat }

/-- The group with an entry allocated, which is released at once when every quad has ended. -/
def Group.vldAllocated (g : Group) (q : BitVec 2) (x : DWord) (l : Label) : Group :=
  if g.unended.isEmpty then (g.allocated q.toNat (g.vldEntry x l)).trim else g.allocated q.toNat (g.vldEntry x l)

/-- A VLD whose queue and path have room allocates its entry, issues its operation and passes. -/
theorem execVld_issues {s : State} {q : BitVec 2} {a : SRegNo} {i : BitVec 14} {x : DWord} (free : s.regsFree [a])
    (hx : (s.grp.sreg a).val + i.signExtend 64 = x) (range : x.toNat < 2 ^ 55) (aligned : x.toNat % 4 = 0)
    (room : (s.grp.lq q.toNat).entries.length < 16) (path : s.pathFull s.cur .ld = false) :
    let l := (s.grp.sreg a).lbl ||| s.grp.pA
    let s1 := s.setGrp (s.grp.vldAllocated q x l)
    let s2 := s1.issueAccs s1.cur (s.vldOp q x l)
    exec (.vld q a i) s = .next (s2.setGrp (s2.grp.advance 4)) := by
  have full : ¬ ((decide (16 ≤ (s.grp.lq q.toNat).entries.length) || s.pathFull s.cur .ld) = true) := by simp [room, path]
  rw [exec_vld]
  unfold execVld
  simp only [hx, resultLabel_one]
  rw [State.whenFree_of_regsFree free, if_neg (not_badAddr range aligned), if_neg full]
  rfl

/-- What a VLD leaves of the rest of the state, whatever group `g` it has made of its own. -/
theorem State.issueAccs_setGrp_advance (s : State) (g : Group) (o : Op) :
    ∃ u e accs, s.SentTo u ∧ e.fc = o.fc ∧ e.id = g.nextOp ∧
      ((s.setGrp g).issueAccs s.cur o).setGrp (((s.setGrp g).issueAccs s.cur o).grp.advance 4) =
        u.setGroup s.cur (((g.issueOp e).setOp { e with accs := accs }).advance 4) := by
  obtain ⟨u, accs, ⟨tlb, tags, nextTag, out, ctxs, stalled, rfl⟩, eq⟩ := (s.setGrp g).issueAccs_advance o
  have mine : (s.setGrp g).grp = g := State.grp_setGrp ..
  refine ⟨{ s with tlb := tlb, tags := tags, nextTag := nextTag, out := out, ctxs := ctxs, stalled := stalled },
    (s.setGrp g).entering s.cur o, accs, ⟨_, _, _, _, _, _, rfl⟩, rfl, ?_, ?_⟩
  · exact congrArg Group.nextOp mine
  · rw [mine] at eq
    refine Eq.trans eq ?_
    simp only [State.setGroup, State.setGrp, Tab.put_put]

theorem fcv_issueOp_setOp_advance (g : Group) (e x : Op) (n : Nat) (c : FC) :
    (((g.issueOp e).setOp x).advance n).fcv c = g.fcv c + (if e.fc = some c then 1 else 0) :=
  Group.fcv_issueOp ..

/-- Only operations, their numbers and their counters tell an issued operation. -/
theorem Group.issueOp_setOp_eq (g : Group) (e x : Op) :
    (g.issueOp e).setOp x = { g with ops := ((g.issueOp e).setOp x).ops, nextOp := g.nextOp + 1, fcs := (g.issueOp e).fcs } := by
  unfold Group.setOp Group.issueOp
  dsimp only
  split <;> rfl

/-- With no quad left, only the poisoned entries of a queue stay (R18, R331). -/
theorem lq_trim_of_ended {g : Group} (ended : g.unended = []) {j : Nat} (hj : j < 4) :
    (g.trim.lq j).entries = (g.lq j).entries.filter (fun e => e.poison.isSome) := by
  have four : j = 0 ∨ j = 1 ∨ j = 2 ∨ j = 3 := by omega
  rcases four with rfl | rfl | rfl | rfl <;> simp [Group.trim, Group.lq, ended, Tab.get_set]

theorem poison_none_of_poisons {g : Group} (none_ : g.poisons = []) {j : Nat} (hj : j < 4) :
    ∀ e ∈ (g.lq j).entries, e.poison = none := by
  intro e he
  simp only [Group.poisons, List.flatMap_eq_nil_iff, List.map_eq_nil_iff, List.filter_eq_nil_iff, List.mem_range] at none_
  simpa using none_ j hj e he

theorem vldAllocated_of_live {g : Group} (live : g.unended ≠ []) (q : BitVec 2) (x : DWord) (l : Label) :
    g.vldAllocated q x l = g.allocated q.toNat (g.vldEntry x l) := by
  simp [Group.vldAllocated, live]

/-- An entry that a VLD allocates when every quad has ended is released at once, with all that are not poisoned. -/
theorem entries_vldAllocated_of_ended {g : Group} (ended : g.unended = []) (clean : g.poisons = []) (q : BitVec 2) (x : DWord) (l : Label)
    {j : Nat} (hj : j < 4) : ((g.vldAllocated q x l).lq j).entries = [] := by
  have ended' : (g.allocated q.toNat (g.vldEntry x l)).unended = [] := ended
  rw [Group.vldAllocated, if_pos (by rw [ended]; rfl), lq_trim_of_ended ended' hj, List.filter_eq_nil_iff, lq_allocated]
  have kept := poison_none_of_poisons clean hj
  split
  · rename_i here
    intro e he
    rcases List.mem_append.1 he with he | he
    · simp [kept e (here ▸ he)]
    · rw [List.mem_singleton.1 he]
      simp [Group.vldEntry]
  · intro e he
    simp [kept e he]

/-- Nothing that a VLD or a VSTA leaves alone (R169, R170). -/
def State.QueueKept (s t : State) : Prop :=
  t.mem = s.mem ∧ t.glbl = s.glbl ∧ t.teams = s.teams ∧ t.grids = s.grids ∧ t.cores = s.cores ∧
    (∀ j, j ≠ s.cur → t.group j = s.group j) ∧ (∀ r, t.grp.sreg r = s.grp.sreg r) ∧ t.grp.apath = s.grp.apath ∧
    t.grp.apc = s.grp.apc + 4#64 ∧ t.grp.vregs = s.grp.vregs ∧ t.grp.preds = s.grp.preds ∧ t.grp.rq = s.grp.rq ∧ t.grp.ca = s.grp.ca ∧
    t.grp.sdq = s.grp.sdq ∧ t.grp.aret = s.grp.aret + 1

theorem State.SentTo.grp_setGroup {s u : State} (sent : s.SentTo u) (g : Group) : (u.setGroup s.cur g).grp = g := by
  have cur : (u.setGroup s.cur g).cur = s.cur := sent.cur
  rw [State.grp, cur, State.group_setGroup]

/-- A group that has queued an entry, issued the operation and passed the word. -/
theorem queueKept_of_eq {s u : State} {g : Group} (sent : s.SentTo u)
    (hg : ∃ lqs saq ops nextOp fcs, g = { s.grp with lqs := lqs, saq := saq, ops := ops, nextOp := nextOp, fcs := fcs }) :
    s.QueueKept (u.setGroup s.cur (g.advance 4)) := by
  have others (j : Nat) (hj : j ≠ s.cur) : (u.setGroup s.cur (g.advance 4)).group j = s.group j := by
    rw [State.group_setGroup_ne _ _ hj, sent.group]
  have grp := sent.grp_setGroup (g.advance 4)
  have field {α : Type} (p : Group → α) (hp : p (g.advance 4) = p (s.grp.advance 4)) :
      p (u.setGroup s.cur (g.advance 4)).grp = p (s.grp.advance 4) := by rw [grp, hp]
  generalize hG : g.advance 4 = G at *
  obtain ⟨_, _, _, _, _, _, rfl⟩ := sent
  obtain ⟨lqs, saq, ops, nextOp, fcs, rfl⟩ := hg
  refine ⟨rfl, rfl, rfl, rfl, rfl, others, fun r => field (fun g => g.sreg r) ?_, field Group.apath ?_, field Group.apc ?_,
    field Group.vregs ?_, field Group.preds ?_, field Group.rq ?_, field Group.ca ?_, field Group.sdq ?_, field Group.aret ?_⟩
  all_goals rw [← hG]; rfl

/-- What a word leaves that queues an entry in group `g` and issues an operation. -/
theorem queueKept_of_issued {s u : State} {g : Group} (sent : s.SentTo u) (e x : Op)
    (hg : ∃ lqs saq, g = { s.grp with lqs := lqs, saq := saq }) : s.QueueKept (u.setGroup s.cur (((g.issueOp e).setOp x).advance 4)) := by
  obtain ⟨lqs, saq, rfl⟩ := hg
  exact queueKept_of_eq sent ⟨_, _, _, _, _, Group.issueOp_setOp_eq ..⟩

/-- VLD with a quad left (R169). -/
theorem execVld_live {s : State} {q : BitVec 2} {a : SRegNo} {i : BitVec 14} {x : DWord} (free : s.regsFree [a])
    (hx : (s.grp.sreg a).val + i.signExtend 64 = x) (range : x.toNat < 2 ^ 55) (aligned : x.toNat % 4 = 0)
    (room : (s.grp.lq q.toNat).entries.length < 16) (path : s.pathFull s.cur .ld = false) (live : s.grp.unended ≠ []) :
    Completes (exec (.vld q a i) s) (fun t => s.QueueKept t ∧
      (∀ j, t.grp.lq j = (s.grp.allocated q.toNat (s.grp.vldEntry x ((s.grp.sreg a).lbl ||| s.grp.pA))).lq j) ∧ t.grp.saq = s.grp.saq ∧
      ∀ c, t.grp.fcv c = s.grp.fcv c + (if c = .ld then 1 else 0)) := by
  rw [execVld_issues free hx range aligned room path, vldAllocated_of_live live]
  obtain ⟨u, e, accs, sent, fc, -, eq⟩ := s.issueAccs_setGrp_advance
    (s.grp.allocated q.toNat (s.grp.vldEntry x ((s.grp.sreg a).lbl ||| s.grp.pA))) (s.vldOp q x ((s.grp.sreg a).lbl ||| s.grp.pA))
  refine ⟨_, congrArg _ eq, queueKept_of_issued sent _ _ ⟨_, _, rfl⟩, ?_⟩
  rw [sent.grp_setGroup]
  refine ⟨fun j => ?_, ?_, fun c => ?_⟩
  · rw [Group.issueOp_setOp_eq]; rfl
  · rw [Group.issueOp_setOp_eq]; rfl
  · rw [fcv_issueOp_setOp_advance, fc]
    simp only [State.vldOp, Option.some.injEq, @eq_comm _ FC.ld]
    rfl

/-- VLD with every quad ended (R18, R331). -/
theorem execVld_ended {s : State} {q : BitVec 2} {a : SRegNo} {i : BitVec 14} {x : DWord} (free : s.regsFree [a])
    (hx : (s.grp.sreg a).val + i.signExtend 64 = x) (range : x.toNat < 2 ^ 55) (aligned : x.toNat % 4 = 0)
    (room : (s.grp.lq q.toNat).entries.length < 16) (path : s.pathFull s.cur .ld = false) (ended : s.grp.unended = [])
    (clean : s.grp.poisons = []) :
    Completes (exec (.vld q a i) s) (fun t => (∀ j, j < 4 → (t.grp.lq j).entries = []) ∧
      ∀ c, t.grp.fcv c = s.grp.fcv c + (if c = .ld then 1 else 0)) := by
  rw [execVld_issues free hx range aligned room path]
  obtain ⟨u, e, accs, sent, fc, -, eq⟩ := s.issueAccs_setGrp_advance (s.grp.vldAllocated q x ((s.grp.sreg a).lbl ||| s.grp.pA))
    (s.vldOp q x ((s.grp.sreg a).lbl ||| s.grp.pA))
  refine ⟨_, congrArg _ eq, ?_⟩
  beta_reduce
  rw [sent.grp_setGroup]
  refine ⟨fun j hj => ?_, fun c => ?_⟩
  · rw [Group.issueOp_setOp_eq]
    exact entries_vldAllocated_of_ended ended clean q x _ hj
  · rw [fcv_issueOp_setOp_advance, fc]
    have fcs : (s.grp.vldAllocated q x ((s.grp.sreg a).lbl ||| s.grp.pA)).fcv c = s.grp.fcv c := by
      unfold Group.vldAllocated
      split <;> rfl
    rw [fcs]
    simp only [State.vldOp, Option.some.injEq, @eq_comm _ FC.ld]

/-! ## VSTA (R170, R17) -/

theorem execVsta_queues {s : State} {a : SRegNo} {i : BitVec 14} {x : DWord} (free : s.regsFree [a])
    (hx : (s.grp.sreg a).val + i.signExtend 64 = x) (range : x.toNat < 2 ^ 55) (aligned : x.toNat % 4 = 0)
    (room : s.grp.saq.length < 16) (path : s.pathFull s.cur .st = false) :
    Completes (exec (.vsta a i) s) (fun t => s.QueueKept t ∧
      t.grp.saq = s.grp.saq ++ [{ addr := x.toNat, lbl := (s.grp.sreg a).lbl ||| s.grp.pA, apc := s.grp.apc, op := s.grp.nextOp }] ∧
      t.grp.lqs = s.grp.lqs ∧ ∀ c, t.grp.fcv c = s.grp.fcv c + (if c = .st then 1 else 0)) := by
  have full : ¬ ((decide (16 ≤ s.grp.saq.length) || s.pathFull s.cur .st) = true) := by simp [room, path]
  rw [exec_vsta]
  unfold execVsta
  simp only [hx, resultLabel_one]
  rw [State.whenFree_of_regsFree free, if_neg (not_badAddr range aligned), if_neg full]
  let g : Group := { s.grp with saq := s.grp.saq ++ [{ addr := x.toNat, lbl := (s.grp.sreg a).lbl ||| s.grp.pA, apc := s.grp.apc, op := s.grp.nextOp }] }
  refine ⟨_, rfl, ?_, ?_⟩
  · exact queueKept_of_eq (u := s) (.refl s) ⟨_, _, _, _, _, Group.issueOp_eq ..⟩
  · rw [State.grp_setGrp]
    refine ⟨?_, ?_, fun c => ?_⟩
    · rw [Group.issueOp_eq]; rfl
    · rw [Group.issueOp_eq]; rfl
    · refine (Group.fcv_issueOp g _ c).trans ?_
      simp only [Option.some.injEq, @eq_comm _ FC.st]
      rfl

/-! ## What becomes of an entry (R329, R331; log 96) -/

theorem State.group_pmGroup (s : State) (k code n j : Nat) : (s.pmGroup k code n).group j = s.group j := by
  unfold State.pmGroup
  dsimp only
  split <;> rfl

/-- A VLD all of whose words have come ends with its data. -/
theorem vldEnd_of_performs {s s1 : State} {k n : Nat} {o : Op} {accs : List Acc} {q x : Nat} (h : Performs s k n o s1 accs)
    (data : o.data = .vld q x) : s.vldEnd k n = .data s1 { o with accs := accs } := by
  obtain ⟨found, notDone, performed, all, noFail⟩ := h
  have sound : o.fail = none := by
    unfold Op.failure at noFail
    simp only [Option.or_eq_none_iff] at noFail
    exact noFail.1
  rw [(State.Accessed.perform performed).clr] at noFail
  unfold State.vldEnd
  simp only [found, data]
  rw [if_neg (by simp [notDone])]
  simp only [sound, performed, all, Bool.not_true, Bool.false_eq_true, if_false] at noFail ⊢
  rw [data] at noFail
  rw [noFail]

theorem vldEnd_of_fail {s : State} {k n : Nat} {o : Op} {q x : Nat} {f : Flt} (found : (s.group k).op n = some o) (notDone : o.doneq = false)
    (fail : o.fail = some f) (data : o.data = .vld q x) : s.vldEnd k n = .cause f o := by
  simp only [State.vldEnd, found, data, notDone, fail, Bool.false_eq_true, if_false]

/-- An entry that still stands is poisoned in its place. -/
theorem poisonEntry_of_mem {g : Group} {o : Op} (f : Flt) {q x : Nat} (data : o.data = .vld q x) (stands : ∃ y ∈ (g.lq q).entries, y.op = o.id) :
    g.poisonEntry o f = g.setEntry q o.id (fun e => { e with poison := some f }) := by
  have here : (g.lq q).entries.any (fun e => e.op == o.id) = true := by simpa using stands
  simp only [Group.poisonEntry, Op.entry, data, here, if_true]

/-- An entry that has been released comes back behind the older ones. -/
theorem lq_poisonEntry_of_released {g : Group} {o : Op} (f : Flt) {q x : Nat} (data : o.data = .vld q x)
    (older : ∀ y ∈ (g.lq q).entries, y.op < o.id) :
    ((g.poisonEntry o f).lq q).entries = ((g.lq q).entries ++
      [({ vld := BitVec.ofNat 64 o.pc, addr := x, poison := some f, albl := o.lbl, op := o.id } : LQEntry)]).take 16 := by
  have gone : (g.lq q).entries.any (fun e => e.op == o.id) = false := by
    simp only [List.any_eq_false, beq_iff_eq]
    exact fun e he => (older e he).ne
  have before : (g.lq q).entries.filter (fun e => decide (e.op < o.id)) = (g.lq q).entries :=
    List.filter_eq_self.2 fun e he => decide_eq_true (older e he)
  have after : (g.lq q).entries.filter (fun e => !decide (e.op < o.id)) = [] :=
    List.filter_eq_nil_iff.2 fun e he => by simp [older e he]
  simp only [Group.poisonEntry, Op.entry, data, gone, before, after, Bool.false_eq_true, if_false, List.append_nil]
  rw [Group.lq, Tab.get_set_self]

/-- Settles O11: a VLD or VSTA with room queues its entry, issues its operation and passes; a VLD ends as `vldEnd` says, and what the
reports of other operations change leaves the queues alone. -/
theorem queueAccessIssue : Obligations.QueueAccessIssue := by
  constructor
  · intro s q a i free g x kept range aligned
    refine ⟨fun ended clean room path => execVld_ended free rfl range aligned room path ended clean, fun live room path => ?_,
      fun room path => execVsta_queues free rfl range aligned room path⟩
    obtain ⟨t, ht, queueKept, lqs, saq, fcs⟩ := execVld_live free rfl range aligned room path live
    refine ⟨t, ht, queueKept, ?_, ?_, fun j hj => ?_, saq, fcs⟩
    · rw [lqs, lq_allocated, if_pos rfl]
    · rw [lqs, lq_allocated, if_pos rfl]
      rfl
    · rw [lqs, lq_allocated, if_neg hj]
  · intro s s1 k n o accs q x f e data
    refine ⟨fun performs => ?_, fun found notDone fail stands => ?_, fun found notDone fail older hq => ?_,
      fun only noFault notYield noBell resident waiting poison => ?_⟩
    · rw [exec_vldEntryPresent, execVldEntryPresent, vldEnd_of_performs performs data]
      simp only [State.completed, State.group_pmGroup, Op.entry, data]
      rfl
    · rw [exec_vldFail, execVldFail, vldEnd_of_fail found notDone fail data]
      simp only [poisonEntry_of_mem f data stands]
      rfl
    · rw [exec_vldFail, execVldFail, vldEnd_of_fail found notDone fail data]
      refine ⟨_, rfl, ?_⟩
      have settled : ∀ {u : State}, (u.group k).Reported ((u.settle k).group k) := fun {u} => (State.Reported.refl u).settle k k
      obtain ⟨_, _, _, _, _, _, _, eq⟩ := settled
        (u := s.setGroup k (Group.setOp { (s.group k).poisonEntry o f with
          ra := some (((s.group k).poisonEntry o f).ra.getD (BitVec.ofNat 64 o.pc)) } { o with fail := none, doneq := true }))
      beta_reduce
      rw [eq, State.group_setGroup]
      exact ⟨rfl, lq_poisonEntry_of_released f data older⟩
    · have go : ((s.group k).fault.isSome || (s.group k).atYield || !((s.team (teamOf k)).state == .resident)
          || (s.team (teamOf k)).bell.isSome || !((s.group k).paths.all (fun p => p.2.phase == .parked || p.2.phase == .marker
            || (s.group k).cDeadCode p.2 != 0))) = false := by
        have paths : (s.group k).paths.all (fun p => p.2.phase == .parked || p.2.phase == .marker
            || (s.group k).cDeadCode p.2 != 0) = true := by
          rw [List.all_eq_true]
          intro p hp
          have := waiting p hp
          simpa [or_assoc] using this
        rw [noFault, notYield, noBell, resident, paths]
        rfl
      rw [exec_vldPoisonIdle]
      unfold execVldPoisonIdle
      simp only [only, List.foldl, go, Bool.false_eq_true, if_false, poison]
      rfl

end Sys2Proof.Machine
end

section
/-! PROOFS. STORE_APPLY of an SPST, whose lanes act together. -/

namespace Sys2Proof.Machine

open Sys2Proof

/-- A lane store of one word at the start of the scratchpad region (R242). -/
def spstOp : Op := { id := 0, fc := some .sp, cslice := true, accs := [{ space := .scratch, kind := .store }] }

/-- A device with a group that has this operation in flight. -/
def spstState : State := { State.reset with groups := [(0, { Group.empty with ops := [spstOp], nextOp := 1 })] }

/-- Refutes O12: its clause on STORE_APPLY is about every store whose access may be performed, and the lanes of an SPST act
together (R244): STORE_APPLY leaves it as it is, where the clause has its access made. -/
theorem not_queueSupplies : ¬ Obligations.QueueSupplies := by
  intro h
  obtain ⟨-, -, apply_, -⟩ := h
  have idle : exec (.storeApply 0 0 0) spstState = .next spstState := rfl
  cases performed : spstState.perform 0 spstOp (· == 0) with
  | blocked => cases performed
  | bad f => cases performed
  | ok s1 accs =>
    have made := apply_ spstState s1 0 0 0 spstOp accs rfl rfl rfl (by decide) performed
    rw [idle] at made
    have same : (spstState.group 0).ops = ((s1.setGroup 0 ((s1.group 0).setOp { spstOp with accs := accs })).group 0).ops :=
      congrArg (fun o : Out => match o with | .next t => (t.group 0).ops | _ => []) made
    cases performed
    exact absurd same (by decide)

end Sys2Proof.Machine
end

section
/-! PROOFS. Jumps, markers and trace records; the special registers. -/

namespace Sys2Proof.Machine

open Sys2Proof

/-! ## Jumps and markers (R121, R164, R193) -/

/-- A write of a scalar register and a jump, under a new path stack. -/
theorem writeJump_scalar (s : State) (d : SRegNo) (v : SVal) (stack : List PathLbl) (target : DWord) :
    let t := s.setGrp ({ s.grp.setSreg d v with apath := stack }.jump target)
    OnlyScalar s t ∧ t.grp.apc = target ∧ t.grp.apath = stack ∧ ScalarWrote s t d v.val v.lbl := by
  refine ⟨⟨⟨rfl, fun j hj => State.group_setGrp_ne _ _ hj⟩, ?_⟩, ?_, ?_, fun r => ?_⟩
  · rw [State.grp_setGrp]
    unfold Group.setSreg
    split <;> rfl
  · rw [State.grp_setGrp]; rfl
  · rw [State.grp_setGrp]; rfl
  · rw [State.grp_setGrp, Group.sreg_jump]
    exact Group.sreg_setSreg ..

theorem execLoop_completes {s : State} {d : SRegNo} (i : BitVec 20) (free : s.regsFree [d])
    (within : LabelIn ((s.grp.sreg d).lbl ||| s.grp.pA) (s.ceil s.cur)) (room : roomToPush s.grp.apath s.grp.apc.toNat) :
    let n := (s.grp.sreg d).val - 1#64
    let l := (s.grp.sreg d).lbl ||| s.grp.pA
    Completes (exec (.loop d i) s) (fun t => OnlyScalar s t ∧
      t.grp.apc = s.grp.apc + (if n = 0#64 then 4#64 else 4#64 * i.signExtend 64) ∧
      t.grp.apath = pushedStack s.grp.apath l s.grp.apc.toNat ∧ ScalarWrote s t d n l) := by
  intro n l
  -- a loop that is done advances, which is a jump to the word after it
  have lands (g : Group) (hg : g.apc = s.grp.apc) :
      (if n = 0#64 then g.advance 4 else g.jump (s.grp.apc + 4#64 * i.signExtend 64)) =
        g.jump (s.grp.apc + (if n = 0#64 then 4#64 else 4#64 * i.signExtend 64)) := by
    split
    · rw [← hg]; rfl
    · rfl
  rw [exec_loop]
  unfold execLoop
  simp only [State.whenFree_of_regsFree free, resultLabel_one, pushLabel_of_room within room, branchTarget_eq]
  exact ⟨_, congrArg (fun g => Host.Outcome.next (s.setGrp g)) (lands _ (Group.setSreg_apc ..)),
    writeJump_scalar s d { val := n, lbl := l } (pushedStack s.grp.apath l s.grp.apc.toNat) _⟩

theorem replaceLabel_of_within {c l : Label} {stack top : List PathLbl} {at_ : Nat}
    (htop : top = match stack with | p :: r => { p with lbl := p.lbl ||| l } :: r | [] => [{ lbl := l, pusher := some at_ }])
    (within : LabelIn ((top.head?.map (·.lbl)).getD 0#16) c) : replaceLabel c stack l at_ = .ok top := by
  rw [← within_iff_labelIn] at within
  cases stack with
  | nil =>
    subst htop
    have : l.within c = true := within
    simp [replaceLabel, this]
  | cons p r =>
    subst htop
    have : (p.lbl ||| l).within c = true := within
    simp only [replaceLabel, Label.join, this, if_true]

/-- Whether a replacement is made does not depend on who pushes. -/
theorem isOk_replaceLabel {c l : Label} {stack top : List PathLbl} {at_ : Nat} (h : replaceLabel c stack l at_ = .ok top) (other : Nat) :
    (replaceLabel c stack l other).isOk = true := by
  unfold replaceLabel at *
  split at h
  · dsimp only at h
    split at h
    · rename_i within
      simp only [within, if_true]
      rfl
    · cases h
  · split at h
    · rename_i within
      simp only [within, if_true]
      rfl
    · cases h

theorem jumpReg_completes (i : Instr) {s : State} {a : SRegNo} {top : List PathLbl} (free : s.regsFree [a])
    (aligned : (s.grp.sreg a).val.toNat % 4 = 0)
    (replaced : replaceLabel (s.ceil s.cur) s.grp.apath (s.grp.sreg a).lbl s.grp.apc.toNat = .ok top) :
    Completes (jumpReg i a s) (fun t => ControlResult s t (s.grp.sreg a).val top) := by
  unfold jumpReg
  simp only [State.whenFree_of_regsFree free, aligned, replaced]
  exact ⟨_, rfl, jump_controlResult s top _⟩

/-! ## The trace unit (R440, R441) -/

theorem Core.reg_setReg (c : Core) (off v r : Nat) : (c.setReg off v).reg r = if r = off then v % 2 ^ 64 else c.reg r := by
  unfold Core.setReg Core.reg
  dsimp only
  rw [Tab.get_set]
  split
  · exact BitVec.toNat_ofNat ..
  · rfl

theorem Core.reg_lt (c : Core) (r : Nat) : c.reg r < 2 ^ 64 := BitVec.isLt _

/-- LOSTN after a lost record: one more, up to its greatest value. -/
def Core.lostCount (c : Core) : Nat := if c.reg 8 / 2 ^ 32 = 2 ^ 32 - 1 then c.reg 8 else c.reg 8 + 2 ^ 32

theorem Core.lostCount_lt (c : Core) : c.lostCount < 2 ^ 64 := by
  have := c.reg_lt 8
  unfold Core.lostCount
  split <;> omega

theorem Core.reg_lostRecord (c : Core) (r : Nat) : c.lostRecord.reg r = if r = 8 then c.lostCount else c.reg r := by
  have := c.lostCount_lt
  rw [show c.lostRecord = c.setReg 8 c.lostCount from rfl, Core.reg_setReg, Nat.mod_eq_of_lt this]

/-- What the unit's own write leaves: memory and messages, but no group, team or grid. -/
theorem State.OwnTo.setCore_grp {s t : State} (h : s.OwnTo t) (n : Nat) (c : Core) :
    (t.setCore n c).grp = s.grp ∧ (t.setCore n c).cur = s.cur ∧ (t.setCore n c).ceil s.cur = s.ceil s.cur := by
  obtain ⟨_, _, _, _, _, _, _, _, _, _, _, _, _, rfl⟩ := h
  exact ⟨rfl, rfl, rfl⟩

theorem traceWrite_grp (s : State) (core : Nat) (bs : List Byte) :
    (s.traceWrite core bs).grp = s.grp ∧ (s.traceWrite core bs).cur = s.cur ∧ (s.traceWrite core bs).ceil s.cur = s.ceil s.cur := by
  unfold State.traceWrite
  dsimp only
  split
  · exact (State.OwnTo.refl s).setCore_grp ..
  · split
    · exact (State.OwnTo.refl s).setCore_grp ..
    · exact ((State.OwnTo.refl s).deviceWrite ..).setCore_grp ..

theorem traceA_grp (s : State) (kind : Nat) (v : DWord) (l : Label) :
    (s.traceA kind v l).grp = s.grp ∧ (s.traceA kind v l).cur = s.cur ∧ (s.traceA kind v l).ceil s.cur = s.ceil s.cur := by
  cases on : s.tracing s.tm.core (s.ctxOf s.cur) (if kind = 2 then 1 else 2)
  · simp only [State.traceA, on, Bool.false_eq_true, if_false, and_self]
  · simp only [State.traceA, on, if_true]
    exact traceWrite_grp ..


/-! ## The bytes of a record (R441) -/

theorem ofBytes_bytesOf (n k : Nat) : ofBytes (bytesOf n k) = n % 256 ^ k := by
  induction k generalizing n with
  | zero => simp [bytesOf, ofBytes, Nat.mod_one]
  | succ k ih =>
    have low : (BitVec.ofNat 8 n).toNat = n % 256 := BitVec.toNat_ofNat ..
    rw [bytesOf, ofBytes, ih, low, Nat.pow_succ', Nat.mod_mul]

/-- A record as its fields, each a number and its bytes, stand one after another. -/
def layout (fields : List (Nat × Nat)) : List Byte := fields.flatMap (fun e => bytesOf e.1 e.2)

theorem length_layout (fields : List (Nat × Nat)) : (layout fields).length = (fields.map (·.2)).sum := by
  simp [layout, List.length_flatMap, length_bytesOf]

/-- A field of a record reads as its number, behind the bytes of the fields before it. -/
theorem fieldAt_layout {fields : List (Nat × Nat)} {i v n off : Nat} (field : fields[i]? = some (v, n))
    (place : ((fields.take i).map (·.2)).sum = off) : fieldAt (layout fields) off n = v % 256 ^ n := by
  obtain ⟨hi, hv⟩ := List.getElem?_eq_some_iff.1 field
  have parts : layout fields = layout (fields.take i) ++ (bytesOf v n ++ layout (fields.drop (i + 1))) := by
    conv_lhs => rw [← List.take_append_drop i fields, List.drop_eq_getElem_cons hi, hv]
    simp [layout]
  rw [parts, ← place, ← length_layout, fieldAt, List.drop_left, List.take_left' (length_bytesOf v n), ofBytes_bytesOf]

theorem traceBytes_fields (kind core who pidx sfl ix lmask ppos apc cyc value : Nat) :
    let b := traceBytes kind core who pidx sfl ix lmask ppos apc cyc value
    b.length = 64 ∧ fieldAt b 0 1 = kind % 256 ∧ fieldAt b 1 1 = core % 256 ∧ fieldAt b 2 1 = who % 256 ∧ fieldAt b 3 1 = pidx % 256 ∧
      fieldAt b 4 1 = sfl % 256 ∧ fieldAt b 5 3 = 0 ∧ fieldAt b 8 4 = ix % 2 ^ 32 ∧ fieldAt b 12 4 = lmask % 2 ^ 32 ∧
      fieldAt b 16 8 = ppos % 2 ^ 64 ∧ fieldAt b 24 8 = apc % 2 ^ 64 ∧ fieldAt b 32 8 = cyc % 2 ^ 64 ∧ fieldAt b 40 8 = value % 2 ^ 64 ∧
      fieldAt b 48 8 = 0 ∧ fieldAt b 56 8 = 0 := by
  have parts : traceBytes kind core who pidx sfl ix lmask ppos apc cyc value = layout [(kind, 1), (core, 1), (who, 1), (pidx, 1), (sfl, 1),
      (0, 3), (ix, 4), (lmask, 4), (ppos, 8), (apc, 8), (cyc, 8), (value, 8), (0, 8), (0, 8)] := by
    simp [layout, traceBytes, bytesOf]
  have words : (2 : Nat) ^ 32 = 256 ^ 4 ∧ (2 : Nat) ^ 64 = 256 ^ 8 ∧ 0 = 0 % 256 ^ 3 ∧ 0 = 0 % 256 ^ 8 := by norm_num
  obtain ⟨four, eight, zero3, zero8⟩ := words
  have at_ (i v n off : Nat) (field : [(kind, 1), (core, 1), (who, 1), (pidx, 1), (sfl, 1), (0, 3), (ix, 4), (lmask, 4), (ppos, 8),
      (apc, 8), (cyc, 8), (value, 8), (0, 8), (0, 8)][i]? = some (v, n))
      (place : (([1, 1, 1, 1, 1, 3, 4, 4, 8, 8, 8, 8, 8, 8] : List Nat).take i).sum = off) :
      fieldAt (traceBytes kind core who pidx sfl ix lmask ppos apc cyc value) off n = v % 256 ^ n := by
    rw [parts]
    refine fieldAt_layout field (Eq.trans ?_ place)
    rw [List.map_take]
    rfl
  intro b
  refine ⟨(congrArg List.length parts).trans (length_layout _), at_ 0 _ 1 _ rfl rfl, at_ 1 _ 1 _ rfl rfl, at_ 2 _ 1 _ rfl rfl, at_ 3 _ 1 _ rfl rfl,
    at_ 4 _ 1 _ rfl rfl, (at_ 5 0 3 _ rfl rfl).trans zero3.symm, ?_, ?_, ?_, ?_, ?_, ?_, (at_ 12 0 8 _ rfl rfl).trans zero8.symm,
    (at_ 13 0 8 _ rfl rfl).trans zero8.symm⟩
  · rw [four]; exact at_ 6 _ _ _ rfl rfl
  · rw [four]; exact at_ 7 _ _ _ rfl rfl
  · rw [eight]; exact at_ 8 _ _ _ rfl rfl
  · rw [eight]; exact at_ 9 _ _ _ rfl rfl
  · rw [eight]; exact at_ 10 _ _ _ rfl rfl
  · rw [eight]; exact at_ 11 _ _ _ rfl rfl

/-! ## What the unit does with a record (R440) -/

theorem bitOf_zero_iff (v : Nat) : bitOf v 0 = true ↔ v % 2 = 1 := by
  simp [bitOf]

theorem core_setCore (s : State) (n : Nat) (c : Core) : (s.setCore n c).core n = c := State.core_setCore ..

/-- A unit that does not run counts the record as lost. -/
theorem traceWrite_of_stopped {s : State} {core : Nat} (bs : List Byte) (off : (s.core core).reg 8 % 2 = 0) :
    s.traceWrite core bs = s.setCore core (s.core core).lostRecord := by
  have stopped : bitOf ((s.core core).reg 8) 0 = false := by simp [bitOf, off]
  simp only [State.traceWrite, stopped, Bool.not_false, if_true]

/-- A unit whose ring is full drops the record. -/
theorem traceWrite_of_full {s : State} {core : Nat} (bs : List Byte) (on : (s.core core).reg 8 % 2 = 1)
    (full : ((s.core core).reg 0x20 + 64) % ((s.core core).reg 0x18 * 65536) = (s.core core).reg 0x28) :
    s.traceWrite core bs = s.setCore core ((s.core core).lostRecord.setReg 8 ((s.core core).lostRecord.reg 8 ||| 4)) := by
  have runs : bitOf ((s.core core).reg 8) 0 = true := (bitOf_zero_iff _).2 on
  simp only [State.traceWrite, runs, Bool.not_true, Bool.false_eq_true, if_false, full, if_true]

/-- A unit with room writes the record and moves on. -/
theorem traceWrite_of_room {s : State} {core : Nat} (bs : List Byte) (on : (s.core core).reg 8 % 2 = 1)
    (room : ((s.core core).reg 0x20 + 64) % ((s.core core).reg 0x18 * 65536) ≠ (s.core core).reg 0x28) :
    s.traceWrite core bs = (s.deviceWrite ((s.core core).reg 0 / 2 ^ 48) ((s.core core).reg 0x10 + (s.core core).reg 0x20) bs).setCore core
      ((s.core core).setReg 0x20 (((s.core core).reg 0x20 + 64) % ((s.core core).reg 0x18 * 65536))) := by
  have runs : bitOf ((s.core core).reg 8) 0 = true := (bitOf_zero_iff _).2 on
  simp only [State.traceWrite, runs, Bool.not_true, Bool.false_eq_true, if_false, room]

/-- The device's own write of bytes that lie in one page of this device, which is neither compressed nor duplicated, with none that
waits: the bytes change and nothing else. -/
theorem deviceWrite_of_plain {s : State} {ctx va : Nat} {bs : List Byte} {x : Xlat} (goes : s.translate ctx va true = some x)
    (here : devOf x.pa = s.devn) (line : x.line = false) (dup : x.dup = false) (free : s.dieQ = [])
    (one : va % 65536 + bs.length ≤ 65536) : s.deviceWrite ctx va bs = s.writeMem (localOf x.pa) bs := by
  have cut : pageCuts va bs = [(va, bs)] := by
    have none_ : (bs.length - (65536 - va % 65536) + 65535) / 65536 = 0 := by omega
    unfold pageCuts
    dsimp only
    rw [none_, List.take_of_length_le (by omega)]
    rfl
  rw [State.deviceWrite, cut]
  simp only [List.foldl, State.devicePiece, goes, here, line, dup, free, ne_eq, not_true_eq_false, if_false, Bool.not_false,
    List.isEmpty_nil, Bool.and_self, if_true]

theorem byteAt_writeMem_all (s : State) (la : Nat) (bs : List Byte) (i : Nat) :
    (s.writeMem la bs).byteAt i = if la ≤ i ∧ i < la + bs.length then bs.getD (i - la) 0#8 else s.byteAt i := by
  split
  · rename_i inside
    obtain ⟨j, rfl⟩ := Nat.exists_eq_add_of_le inside.1
    have hj : j < bs.length := by omega
    rw [State.byteAt, State.readByte_writeMem_in s la j bs hj, Nat.add_sub_cancel_left, List.getD_eq_getElem _ _ hj]
  · exact State.readByte_writeMem_out s la i bs (by omega)


/-- A record of the group that moves, of a core that traces its context and has the kind turned on (R164, R193, R441). -/
theorem traceA_of_on {s : State} {kind : Nat} (v : DWord) (l : Label)
    (on : s.tracing s.tm.core (s.ctxOf s.cur) (if kind = 2 then 1 else 2) = true) :
    s.traceA kind v l = s.traceWrite s.tm.core (traceBytes kind s.tm.core (s.grp.sched + 4 * s.grp.gidx) 0
      (if s.grp.pA = 0#16 ∧ l = 0#16 then 0 else 64) s.tm.teamix 0 0 (if s.grp.pA = 0#16 then s.grp.apc.toNat else 0) s.cycle
      (if (s.grp.pA = 0#16 ∧ l = 0#16) ∨ kind ≠ 2 then v.toNat else 0)) := by
  simp only [State.traceA, on, if_true]
  by_cases path : s.grp.pA = 0#16 <;> by_cases label : l = 0#16 <;> by_cases user : kind = 2 <;> simp [path, label, user]

theorem traceA_of_off {s : State} {kind : Nat} (v : DWord) (l : Label)
    (off : s.tracing s.tm.core (s.ctxOf s.cur) (if kind = 2 then 1 else 2) = false) : s.traceA kind v l = s := by
  simp only [State.traceA, off, Bool.false_eq_true, if_false]

theorem tracing_iff (s : State) (core ctx bit : Nat) : s.tracing core ctx bit = true ↔
    ((s.core core).reg 0 % 2 = 1 ∧ (s.core core).reg 0 / 2 ^ bit % 2 = 1) ∧ (s.core core).reg 0 / 2 ^ 48 = ctx := by
  simp [State.tracing, bitOf]

/-! ## The whole of it -/

/-- A stopped unit and a full ring raise LOSTN, the latter with FULL set; no memory changes. -/
theorem traceWrite_stopped {s : State} {core : Nat} (bs : List Byte) (off : (s.core core).reg 8 % 2 = 0) :
    (s.traceWrite core bs).mem = s.mem ∧ ((s.traceWrite core bs).core core).reg 8 = (s.core core).lostCount ∧
      ∀ r, r ≠ 8 → ((s.traceWrite core bs).core core).reg r = (s.core core).reg r := by
  rw [traceWrite_of_stopped bs off, core_setCore]
  refine ⟨rfl, ?_, fun r hr => ?_⟩
  · rw [Core.reg_lostRecord, if_pos rfl]
  · rw [Core.reg_lostRecord, if_neg hr]

theorem traceWrite_full {s : State} {core : Nat} (bs : List Byte) (on : (s.core core).reg 8 % 2 = 1)
    (full : ((s.core core).reg 0x20 + 64) % ((s.core core).reg 0x18 * 65536) = (s.core core).reg 0x28) :
    (s.traceWrite core bs).mem = s.mem ∧ ((s.traceWrite core bs).core core).reg 8 = (s.core core).lostCount ||| 4 ∧
      ∀ r, r ≠ 8 → ((s.traceWrite core bs).core core).reg r = (s.core core).reg r := by
  have small : (s.core core).lostCount ||| 4 < 2 ^ 64 := Nat.or_lt_two_pow (Core.lostCount_lt _) (by norm_num)
  rw [traceWrite_of_full bs on full, core_setCore]
  refine ⟨rfl, ?_, fun r hr => ?_⟩
  · rw [Core.reg_setReg, if_pos rfl, Core.reg_lostRecord, if_pos rfl, Nat.mod_eq_of_lt small]
  · rw [Core.reg_setReg, if_neg hr, Core.reg_lostRecord, if_neg hr]

/-- A ring with room takes the record: TRCWP moves on, and the record's bytes are written at it. -/
theorem traceWrite_room {s : State} {core : Nat} (bs : List Byte) (on : (s.core core).reg 8 % 2 = 1)
    (room : ((s.core core).reg 0x20 + 64) % ((s.core core).reg 0x18 * 65536) ≠ (s.core core).reg 0x28) (x : Xlat) :
    let va := (s.core core).reg 0x10 + (s.core core).reg 0x20
    ((s.traceWrite core bs).core core).reg 0x20 = ((s.core core).reg 0x20 + 64) % ((s.core core).reg 0x18 * 65536) % 2 ^ 64 ∧
    (∀ r, r ≠ 0x20 → ((s.traceWrite core bs).core core).reg r = (s.core core).reg r) ∧
    (s.translate ((s.core core).reg 0 / 2 ^ 48) va true = some x → devOf x.pa = s.devn → x.line = false → x.dup = false → s.dieQ = [] →
      bs.length = 64 → va % 65536 + 64 ≤ 65536 → ∀ i, (s.traceWrite core bs).byteAt i =
        if localOf x.pa ≤ i ∧ i < localOf x.pa + 64 then bs.getD (i - localOf x.pa) 0#8 else s.byteAt i) := by
  intro va
  rw [traceWrite_of_room bs on room, core_setCore]
  refine ⟨?_, fun r hr => ?_, fun goes here line dup free len one i => ?_⟩
  · rw [Core.reg_setReg, if_pos rfl]
  · rw [Core.reg_setReg, if_neg hr]
  · have written := deviceWrite_of_plain (bs := bs) goes here line dup free (by omega)
    change State.byteAt (State.deviceWrite s _ va bs) i = _
    rw [written, byteAt_writeMem_all, len]

theorem jumps_complete {s : State} {a d : SRegNo} (i : BitVec 20) (free : s.regsFree [a, d]) :
    Completes (exec (.jmp i) s) (fun t => ControlResult s t (s.grp.apc + 4#64 * i.signExtend 64) s.grp.apath) ∧
    Completes (exec (.call d i) s) (fun t => OnlyScalar s t ∧ t.grp.apc = s.grp.apc + 4#64 * i.signExtend 64 ∧
      t.grp.apath = s.grp.apath ∧ ScalarWrote s t d (s.grp.apc + 4#64) s.grp.pA) := by
  have freeD : s.regsFree [d] := State.regsFree_of_subset free (by simp)
  constructor
  · rw [exec_jmp, execJmp, branchTarget_eq]
    exact ⟨_, rfl, jump_controlResult s s.grp.apath _⟩
  · have same : ({ s.grp.setSreg d { val := s.grp.apc + 4#64, lbl := s.grp.pA } with apath := s.grp.apath } : Group) =
        s.grp.setSreg d { val := s.grp.apc + 4#64, lbl := s.grp.pA } := by
      unfold Group.setSreg
      split <;> rfl
    have goes := writeJump_scalar s d { val := s.grp.apc + 4#64, lbl := s.grp.pA } s.grp.apath (s.grp.apc + 4#64 * i.signExtend 64)
    rw [same] at goes
    rw [exec_call, execCall, branchTarget_eq]
    simp only [State.whenFree_of_regsFree freeD]
    exact ⟨_, rfl, goes⟩

/-- RET is the jump of JR after the trace unit's record of it, which changes no group. -/
theorem execRet_completes {s : State} {a : SRegNo} {top : List PathLbl} (free : s.regsFree [a])
    (aligned : (s.grp.sreg a).val.toNat % 4 = 0)
    (replaced : replaceLabel (s.ceil s.cur) s.grp.apath (s.grp.sreg a).lbl s.grp.apc.toNat = .ok top) :
    Completes (exec (.ret a) s) (fun t => ControlResult (s.traceA 3 (s.grp.sreg a).val 0#16) t (s.grp.sreg a).val top) := by
  have taken : (!([a].any s.grp.sHeld) && (s.grp.sreg a).val.toNat % 4 == 0 &&
      (replaceLabel (s.ceil s.cur) s.grp.apath (s.grp.sreg a).lbl 0).isOk) = true := by
    have held : [a].any s.grp.sHeld = false := by simp [free a (by simp)]
    rw [held, aligned, isOk_replaceLabel replaced 0]
    rfl
  obtain ⟨grp, cur, ceil⟩ := traceA_grp s 3 (s.grp.sreg a).val 0#16
  rw [exec_ret, execRet]
  simp only [taken, if_true]
  have goes := jumpReg_completes (.ret a) (s := s.traceA 3 (s.grp.sreg a).val 0#16) (a := a) (top := top)
    (by intro r hr; rw [grp]; exact free r hr) (by rw [grp]; exact aligned) (by rw [grp, cur, ceil]; exact replaced)
  rwa [grp] at goes

theorem markers_complete {s : State} {a : SRegNo} (i : BitVec 14) (free : s.regsFree [a]) :
    Completes (exec .markJoin s) (fun t => ControlResult s t (s.grp.apc + 4#64) (s.grp.apath.drop 1)) ∧
    Completes (exec (.pref a i) s) (fun t => ControlResult s t (s.grp.apc + 4#64) s.grp.apath) ∧
    Completes (exec (.markUser a) s) (fun t =>
      ControlResult (s.traceA 2 (s.grp.sreg a).val (s.grp.sreg a).lbl) t (s.grp.apc + 4#64) s.grp.apath) := by
  have passes (u : State) : ControlResult u (u.setGrp (u.grp.advance 4)) (u.grp.apc + 4#64) u.grp.apath :=
    jump_controlResult u u.grp.apath (u.grp.apc + 4#64)
  refine ⟨?_, ?_, ?_⟩
  · rw [exec_markJoin, execMarkJoin, ← List.drop_one]
    exact ⟨_, rfl, jump_controlResult s (s.grp.apath.drop 1) (s.grp.apc + 4#64)⟩
  · rw [exec_pref, execPref, State.whenFree_of_regsFree free]
    exact ⟨_, rfl, passes s⟩
  · obtain ⟨grp, -, -⟩ := traceA_grp s 2 (s.grp.sreg a).val (s.grp.sreg a).lbl
    have goes := passes (s.traceA 2 (s.grp.sreg a).val (s.grp.sreg a).lbl)
    rw [exec_markUser, execMarkUser, State.whenFree_of_regsFree free]
    refine ⟨_, rfl, ?_⟩
    rw [grp] at goes ⊢
    exact goes

/-- Settles O5: each word ends as its jump says, RET after the record that changes no group; a record is laid out field by field,
and the unit writes, drops or loses it by the three cases of R440. -/
theorem jumpResults : Obligations.JumpResults := by
  refine ⟨fun s a d i free => ?_, fun s a i free => markers_complete i free, ?_⟩
  · intro g c la ld n top
    have freeA : s.regsFree [a] := State.regsFree_of_subset free (by simp)
    obtain ⟨jmp, call⟩ := jumps_complete i free
    refine ⟨jmp, call, execLoop_completes i (State.regsFree_of_subset free (by simp)), fun aligned within => ?_, ?_⟩
    · have replaced : replaceLabel c g.apath la g.apc.toNat = .ok top := replaceLabel_of_within rfl within
      exact ⟨exec_jr a s ▸ jumpReg_completes (.jr a) freeA aligned replaced, execRet_completes freeA aligned replaced⟩
    · exact ⟨_, exec_halt s, ⟨rfl, fun j hj => State.group_setGrp_ne _ _ hj⟩, State.grp_setGrp ..⟩
  · intro s core kind who pidx sfl ix lmask ppos apc cyc value bs v l x c b next lost u va g d plain rec_
    refine ⟨traceBytes_fields .., traceWrite_stopped bs, traceWrite_full bs, fun on room => traceWrite_room bs on room x,
      fun on ctx => ?_, fun off => ?_⟩
    · have traced (bit : Nat) (b : Bool) (h : (s.core s.tm.core).reg 0 / 2 ^ bit % 2 = if b then 1 else 0) :
          s.tracing s.tm.core (s.ctxOf s.cur) bit = b := by
        rw [Bool.eq_iff_iff, tracing_iff, h]
        cases b with
        | true => exact ⟨fun _ => rfl, fun _ => ⟨⟨on, rfl⟩, ctx⟩⟩
        | false => simp
      refine ⟨fun kindOn => ?_, fun kindOn => ?_, fun kindOff => ?_, fun kindOff => ?_⟩
      · rw [traceA_of_on (kind := 2) v l (traced 1 true kindOn)]
        simp only [rec_, plain, ite_not, not_true_eq_false, ne_eq, or_false]
        rfl
      · rw [traceA_of_on (kind := 3) v 0#16 (traced 2 true kindOn)]
        have user : s.grp.pA = 0#16 ∧ 0#16 = 0#16 ∨ 3 ≠ 2 := .inr (by decide)
        rw [if_pos user]
        simp only [rec_, plain, ite_not, and_true]
        rfl
      · exact traceA_of_off (kind := 2) v l (traced 1 false kindOff)
      · exact traceA_of_off (kind := 3) v l (traced 2 false kindOff)
    · refine traceA_of_off v l ?_
      rw [← Bool.not_eq_true, tracing_iff]
      rintro ⟨⟨on, -⟩, ctx⟩
      rcases off with off | off
      · have even : (s.core s.tm.core).reg 0 % 2 = 0 := off
        omega
      · exact off ctx

end Sys2Proof.Machine
end

section
/-! PROOFS. The special registers: what GETSR reads, what SETSR and SLIPSET write, and the constants of LDK. -/

namespace Sys2Proof.Machine

open Sys2Proof

/-! ## Masks made of a predicate on positions -/

theorem maskOf_succ (n : Nat) (p : Nat → Bool) : maskOf (n + 1) p = maskOf n p + (if p n then 2 ^ n else 0) := by
  unfold maskOf
  rw [List.range_succ, List.foldl_append]
  simp only [List.foldl]
  split <;> simp

theorem maskOf_lt (n : Nat) (p : Nat → Bool) : maskOf n p < 2 ^ n := by
  induction n with
  | zero => simp [maskOf]
  | succ n ih =>
    rw [maskOf_succ, Nat.pow_succ]
    split <;> omega

theorem testBit_maskOf (n : Nat) (p : Nat → Bool) (i : Nat) : (maskOf n p).testBit i = (decide (i < n) && p i) := by
  induction n with
  | zero => simp [maskOf]
  | succ n ih =>
    have small := maskOf_lt n p
    rw [maskOf_succ]
    by_cases here : i = n
    · subst here
      have low : (maskOf i p).testBit i = false := Nat.testBit_lt_two_pow small
      cases hp : p i
      · simp [low]
      · rw [if_pos rfl, Nat.add_comm, Nat.testBit_two_pow_add_eq, low]
        simp
    · have iff_ : (i < n + 1) ↔ (i < n) := by omega
      cases hp : p n
      · rw [if_neg (by simp), Nat.add_zero, ih]
        simp only [iff_]
      · rw [if_pos rfl, Nat.add_comm]
        rcases lt_or_gt_of_ne here with below | above
        · rw [Nat.testBit_two_pow_add_gt below, ih]
          simp only [iff_]
        · have big : 2 ^ n + maskOf n p < 2 ^ i := by
            calc 2 ^ n + maskOf n p < 2 ^ (n + 1) := by rw [Nat.pow_succ]; omega
              _ ≤ 2 ^ i := Nat.pow_le_pow_right (by norm_num) above
          rw [Nat.testBit_lt_two_pow big]
          simp [show ¬ i < n + 1 by omega]

/-! ## Reading (R34 to R40) -/

/-- No number beyond 0x010 names a special register (R35). -/
theorem special_of_gt (s : State) {n : Nat} (h : 0x010 < n) : s.special n = none := by
  unfold State.special
  dsimp only
  split
  case h_18 => rfl
  all_goals omega

theorem ofNat_toNat_of_lt {v : Nat} (h : v < 2 ^ 64) : (BitVec.ofNat 64 v).toNat = v := by
  rw [BitVec.toNat_ofNat, Nat.mod_eq_of_lt h]

/-- The word that a special register is read as is the number of its fields modulo 2^64. -/
theorem toNat_of_special {v : DWord} {n : Nat} (h : some (BitVec.ofNat 64 n) = some v) : v.toNat = n % 2 ^ 64 := by
  rw [← Option.some.inj h, BitVec.toNat_ofNat]

theorem execGetsr_completes {s : State} {d : SRegNo} {i : BitVec 14} {v : DWord} (free : s.regsFree [d]) (reads : s.special i.toNat = some v) :
    Completes (exec (.getsr d i) s) (fun t => ScalarResult s t d v
      (s.grp.pA ||| (if i.toNat ∈ [0x00A, 0x00B, 0x00C, 0x00E] then s.ceil s.cur else 0#16)) 4) := by
  have label : (if [0x00A, 0x00B, 0x00C, 0x00E].contains i.toNat then s.grp.pA.join (s.ceil s.cur) else s.grp.pA) =
      s.grp.pA ||| (if i.toNat ∈ [0x00A, 0x00B, 0x00C, 0x00E] then s.ceil s.cur else 0#16) := by
    simp only [List.contains_iff_mem]
    split
    · rfl
    · exact BitVec.or_zero.symm
  rw [exec_getsr, execGetsr, State.whenFree_of_regsFree free, reads]
  dsimp only
  rw [label]
  exact aWrite_completes ..

/-- The words of the special registers, field by field. -/
theorem special_words {s : State} {n : Nat} {v : DWord} (reads : s.special n = some v) :
    let r := s.recOf s.cur
    let g := s.grp
    let t := s.tm
    let dx := r.xyz.toNat % 2 ^ 21
    let dy := r.xyz.toNat / 2 ^ 21 % 2 ^ 21
    let ix := t.teamix
    let cl := r.cw * r.ch
    (n = 0x000 → t.core < 144 → v.toNat = t.core * 2 ^ 16 + t.core / 72 * 2 ^ 8 + t.core % 72 / 8 * 2 ^ 4 + t.core % 8) ∧
    (n = 0x001 → v.toNat = (g.gidx + 2 ^ 5 * r.gcount + 2 ^ 11 * g.slot + 2 ^ 14 * g.sched + 2 ^ 16 * g.role + 2 ^ 18 * g.nvregs
      + 2 ^ 32 * g.lanes) % 2 ^ 64) ∧
    (n = 0x004 → v.toNat = if r.decomp then (ix % dx + 2 ^ 21 * (ix / dx % dy) + 2 ^ 42 * (ix / (dx * dy))) % 2 ^ 64 else 0) ∧
    (n = 0x005 → v = if r.decomp then r.xyz else 0#64) ∧
    (n = 0x006 → v.toNat = (ix % cl / r.cw + 2 ^ 4 * (ix % cl % r.cw) + 2 ^ 8 * r.ch + 2 ^ 12 * r.cw + 2 ^ 32 * (ix / cl)) % 2 ^ 64) ∧
    ((∀ c, g.fcv c < 2 ^ 12) →
      (n = 0x00A → v.toNat = g.fcv .ld + 2 ^ 12 * g.fcv .gx + 2 ^ 24 * g.fcv .st + 2 ^ 36 * g.fcv .sp + 2 ^ 48 * g.fcv .po) ∧
      (n = 0x00B → v.toNat = g.fcv .mx + 2 ^ 12 * g.fcv .cl + 2 ^ 24 * g.fcv .xf + 2 ^ 36 * g.fcv .wa)) ∧
    (n = 0x00C → g.rq.length ≤ 32 → (∀ q, (g.lq q).entries.length ≤ 16) → g.saq.length ≤ 16 → g.sdq.length ≤ 16 → g.ca.length ≤ 8 →
      v.toNat = g.rq.length + 2 ^ 6 * (g.lq 0).entries.length + 2 ^ 11 * (g.lq 1).entries.length + 2 ^ 16 * (g.lq 2).entries.length
        + 2 ^ 21 * (g.lq 3).entries.length + 2 ^ 26 * g.saq.length + 2 ^ 31 * g.sdq.length + 2 ^ 36 * g.ca.length) ∧
    (n = 0x00E → ∀ k, k < 64 → (v.getLsbD k = true ↔ k < 8 ∧ (t.whand.find k).isSome)) ∧
    (n = 0x002 → v.toNat = s.tm.teamix % 2 ^ 64) ∧ (n = 0x003 → v.toNat = (s.recOf s.cur).n % 2 ^ 64) ∧
    (n = 0x007 → v.toNat = (s.clr s.cur).toNat + 2 ^ 16 * (s.ceil s.cur).toNat) ∧
    (n = 0x008 → v.toNat = (s.grp.pA.toNat + 2 ^ 16 * s.grp.apath.length) % 2 ^ 64) ∧
    (n = 0x00F → v.toNat = (s.gridOf s.cur).lrec % 2 ^ 64) ∧
    (n = 0x009 → v.toNat = s.grp.slip % 2 ^ 64) ∧ (n = 0x00D → v.toNat = s.cycle % 2 ^ 64) ∧
    (n = 0x010 → v.toNat = (s.recOf s.cur).kbank % 2 ^ 64) := by
  intro r g t dx dy ix cl
  refine ⟨?_, ?_, ?_, ?_, ?_, fun small => ⟨?_, ?_⟩, ?_, ?_, ?_, ?_, ?_, ?_, ?_, ?_, ?_, ?_⟩
  · rintro rfl core
    rw [toNat_of_special reads]
    simp only [t] at core ⊢
    omega
  · rintro rfl
    exact toNat_of_special reads
  · rintro rfl
    rw [← Option.some.inj reads, teamXyz]
    cases hd : r.decomp
    · simp
    · simp only [Bool.not_true, Bool.false_eq_true, if_false, if_true, BitVec.toNat_ofNat, bitsOf, Nat.pow_zero, Nat.div_one]
      rfl
  · rintro rfl
    exact (Option.some.inj reads).symm
  · rintro rfl
    exact toNat_of_special reads
  · rintro rfl
    have := small .ld
    have := small .gx
    have := small .st
    have := small .sp
    have := small .po
    rw [← Option.some.inj reads, Group.fca, ofNat_toNat_of_lt]
    simp only [g] at *
    omega
  · rintro rfl
    have := small .mx
    have := small .cl
    have := small .xf
    have := small .wa
    rw [← Option.some.inj reads, Group.fcb, ofNat_toNat_of_lt]
    simp only [g] at *
    omega
  · rintro rfl rq lq saq sdq ca
    have := lq 0
    have := lq 1
    have := lq 2
    have := lq 3
    rw [← Option.some.inj reads, Group.qocc, ofNat_toNat_of_lt]
    · norm_num [g]
    · simp only [g] at *
      omega
  · rintro rfl k hk
    rw [← Option.some.inj reads, Team.whnd, BitVec.getLsbD_ofNat, testBit_maskOf]
    simp [hk, t]
  · rintro rfl
    exact toNat_of_special reads
  · rintro rfl
    exact toNat_of_special reads
  · rintro rfl
    have := (s.clr s.cur).isLt
    have := (s.ceil s.cur).isLt
    refine (toNat_of_special reads).trans (Nat.mod_eq_of_lt ?_)
    change (s.clr s.cur).toNat + 2 ^ 16 * (s.ceil s.cur).toNat < 2 ^ 64
    omega
  · rintro rfl
    exact toNat_of_special reads
  · rintro rfl
    exact toNat_of_special reads
  · rintro rfl
    exact toNat_of_special reads
  · rintro rfl
    exact toNat_of_special reads
  · rintro rfl
    exact toNat_of_special reads

/-! ## SLIP (R35, R37, R173) -/

theorem setSlip_completes {s : State} {v : Nat} (low : 1 ≤ v) (high : v ≤ 32) :
    Completes (setSlip v 0#16 s) (fun t => OnlyGroup s.cur s t ∧
      t.grp = { s.grp with slip := v, apc := s.grp.apc + 4#64, aret := s.grp.aret + 1, await := none, apass := false, ageA := 0 }) := by
  rw [setSlip, if_neg (by omega), if_neg (by simp)]
  exact ⟨_, rfl, ⟨rfl, fun j hj => State.group_setGrp_ne _ _ hj⟩, State.grp_setGrp ..⟩

theorem setSlip_of_label {s : State} {v : Nat} {l : Label} (low : 1 ≤ v) (high : v ≤ 32) (labelled : l ≠ 0#16) :
    setSlip v l s = .next (s.raiseA { code := 0x06, sub := 1, flbl := l }) := by
  rw [setSlip, if_neg (by omega), if_pos labelled]
  rfl

theorem setSlip_of_out {s : State} {v : Nat} {l : Label} (out : ¬ (1 ≤ v ∧ v ≤ 32)) : setSlip v l s = .next (s.raiseA { code := 0x01 }) := by
  rw [setSlip, if_pos (by omega)]
  rfl

/-- Settles O6: GETSR writes what `special` names, whose words are read off field by field; SETSR and SLIPSET set SLIP under its
limits and the label check; LDK writes the word that was read. -/
theorem specialRegisterReads : Obligations.SpecialRegisterReads := by
  refine ⟨fun s d i v free reads => ⟨execGetsr_completes free reads, special_words reads⟩, fun s a d i free => ?_,
    fun s s1 d n bs l free read => ?_⟩
  · intro n l wrote
    have freeA : s.regsFree [a] := State.regsFree_of_subset free (by simp)
    have freeD : s.regsFree [d] := State.regsFree_of_subset free (by simp)
    have setsr (named : i.toNat = 0x009) : exec (.setsr a i) s = setSlip n l s := by
      rw [exec_setsr, execSetsr, State.whenFree_of_regsFree freeA]
      rw [if_neg (not_not.2 named), resultLabel_one]
    refine ⟨fun named low high bare => ?_, fun named low high labelled => ?_, fun named out => ?_, fun other => ?_, fun beyond => ?_,
      fun low high bare => ?_, fun low high labelled => ?_, fun out => ?_⟩
    · rw [setsr named, bare]
      exact setSlip_completes low high
    · rw [setsr named, setSlip_of_label low high labelled]
    · rw [setsr named, setSlip_of_out out]
    · rw [exec_setsr, execSetsr, State.whenFree_of_regsFree freeA]
      rw [if_pos other]
      rfl
    · rw [exec_getsr, execGetsr, State.whenFree_of_regsFree freeD, special_of_gt s beyond]
      rfl
    · rw [exec_slipset, execSlipset, bare]
      exact setSlip_completes low high
    · rw [exec_slipset, execSlipset, setSlip_of_label low high labelled]
    · rw [exec_slipset, execSlipset, setSlip_of_out out]
  · rw [exec_ldk, execLdk, State.whenFree_of_regsFree free, read]
    exact aWrite_completes ..

end Sys2Proof.Machine
end


section
/-! PROOFS. Words that wait: how a word passes, waits or is tried again, and RUN, POPCA, YIELD, WAITFC and FENCE. -/

namespace Sys2Proof.Machine

/-- Replacing the group that moves changes no other group and nothing beside groups. -/
theorem setGrp_onlyGroup (s : State) (g : Group) : OnlyGroup s.cur s (s.setGrp g) :=
  ⟨rfl, fun _ hj => State.group_setGrp_ne _ _ hj⟩

/-- A step that replaces the group that moves by `g` completes so. -/
theorem setGrp_completes (s : State) (g : Group) : Completes (.next (s.setGrp g)) (fun t => OnlyGroup s.cur s t ∧ t.grp = g) :=
  ⟨_, rfl, setGrp_onlyGroup s g, State.grp_setGrp ..⟩

/-- A word that waits only says so in its group. -/
theorem waits_completes (s : State) (i : Instr) :
    Completes (s.waits i) (fun t => OnlyGroup s.cur s t ∧ t.grp = { s.grp with await := some i }) := setGrp_completes s _

/-- A word that passes lets APC move on, and does no more. -/
theorem aPass_completes (s : State) : Completes s.aPass (fun t => OnlyGroup s.cur s t ∧
    t.grp = { s.grp with apc := s.grp.apc + 4#64, aret := s.grp.aret + 1, await := none, apass := false, ageA := 0 }) :=
  setGrp_completes s _

/-- A word at which a ready group waits is issued again, and counts like any word when it goes on (R158). -/
theorem State.retry_of_awaits {s : State} {k : Nat} {f : Instr → Option (State → Out)} {i : Instr} {go : State → Out}
    (awaits : (s.group k).await = some i) (ready : s.aReady k = true) (word : f i = some go) :
    s.retry k f = afterIssue k 0 0x03 (s.group k).aret Group.aret (go (s.on k)) := by
  simp [State.retry, awaits, ready, word]

/-! ## RUN and POPCA (R172, R174) -/

/-- The base parcel of a register, by division. -/
theorem bitsOf_two (x : Nat) : bitsOf x 2 53 = x / 4 % 2 ^ 53 := rfl

theorem execRun_eq {s : State} {d : SRegNo} (i : BitVec 20) (free : s.regsFree [d]) :
    exec (.run d i) s =
      if s.grp.unended.isEmpty then .next (s.raiseA { code := 0x01 })
      else if !((s.grp.sreg d).lbl ||| s.grp.pA).within (s.ceil s.cur) then
        .next (s.raiseA { code := 0x07, sub := 2, flbl := (s.grp.sreg d).lbl ||| s.grp.pA, clbl := s.ceil s.cur })
      else if s.grp.slip ≤ s.grp.outstanding ∨ 32 ≤ s.grp.rq.length then s.waits (.run d i)
      else .next (s.setGrp (({ s.grp with
        rq := s.grp.rq ++ [RQEntry.run (((if d = 0#6 then (s.recOf s.cur).ccode / 4 else (s.grp.sreg d).val.toNat / 4 % 2 ^ 53)
          + i.toNat) % 2 ^ 53) ((s.grp.sreg d).lbl ||| s.grp.pA)],
        runs := s.grp.runs + 1 } : Group).advance 4)) := by
  rw [exec_run, execRun]
  simp only [State.whenFree_of_regsFree free, resultLabel_one, bitsOf_two]
  rfl

theorem execPopca_some {s : State} {d : SRegNo} {e : CAEntry} {es : List CAEntry} (free : s.regsFree [d]) (head : s.grp.ca = e :: es) :
    Completes (exec (.popca d) s) (fun t => OnlyGroup s.cur s t ∧ ScalarWrote s t d e.val (e.lbl ||| s.grp.pA) ∧
      t.grp = { s.grp with apc := s.grp.apc + 4#64, aret := s.grp.aret + 1, await := none, apass := false, ageA := 0,
                           sregs := t.grp.sregs, ca := es, caOrd := t.grp.caOrd }) := by
  rw [exec_popca, execPopca]
  simp only [State.whenFree_of_regsFree free, head]
  refine ⟨_, rfl, setGrp_onlyGroup s _, fun r => ?_, ?_⟩ <;> rw [State.grp_setGrp]
  · rw [Group.sreg_advance, Group.sreg_setSreg]
    rfl
  · unfold Group.setSreg
    split <;> rfl

theorem execPopca_none {s : State} {d : SRegNo} (free : s.regsFree [d]) (empty : s.grp.ca = []) (ended : s.grp.unended = []) :
    exec (.popca d) s = .next (s.raiseA { code := 0x0D }) := by
  rw [exec_popca, execPopca]
  simp only [State.whenFree_of_regsFree free, empty, ended]
  rfl

/-! ## YIELD (R190) -/

/-- With every quad ended, the marker just pushed is taken: its hint stands, and RQ is empty. -/
theorem endYield_trim {g : Group} (ended : g.unended = []) (rq : List RQEntry) (h : Hint) (pending : Bool) :
    let u := ((({ g with rq := rq ++ [.marker h] } : Group).endYield pending).trim)
    u.rq = [] ∧ u.hint = some h ∧ u.atYield = (pending || g.atYield) ∧
      u = { g with rq := u.rq, rqBase := u.rqBase, lqs := u.lqs, hint := u.hint, atYield := u.atYield } := by
  have ended' : ({ g with rq := rq ++ [.marker h] } : Group).unended = [] := ended
  have last : (({ g with rq := rq ++ [.marker h] } : Group).endYield pending) =
      { g with rq := rq ++ [.marker h], hint := some h, atYield := pending || g.atYield } := by
    simp [Group.endYield, ended']
  have ended'' : ({ g with rq := rq ++ [.marker h], hint := some h, atYield := pending || g.atYield } : Group).unended = [] := ended
  intro u
  have hu : u = ({ g with rq := rq ++ [.marker h], hint := some h, atYield := pending || g.atYield } : Group).trim :=
    congrArg Group.trim last
  rw [hu]
  refine ⟨?_, rfl, rfl, rfl⟩
  simp only [Group.trim, ended'', List.map_nil, List.min?_nil]
  exact List.drop_length

/-- The hint of a YIELD, which a label leaves without its bitmap. -/
def Group.yieldHint (g : Group) (a : SRegNo) : Hint := if (g.sreg a).lbl ||| g.pA = 0#16 then .inline (g.sreg a).val else .all

theorem execYield_eq {s : State} {a : SRegNo} (free : s.regsFree [a]) :
    exec (.yield a) s = if 32 ≤ s.grp.rq.length then s.waits (.yield a) else s.pushMarker (s.grp.yieldHint a) := by
  rw [exec_yield, execYield]
  simp only [State.whenFree_of_regsFree free, resultLabel_one]
  rfl

/-- A quad that has not ended takes a marker later; it only enters RQ. -/
theorem pushMarker_of_live {s : State} (h : Hint) (live : s.grp.unended ≠ []) :
    s.pushMarker h = .next (s.setGrp (({ s.grp with rq := s.grp.rq ++ [.marker h] } : Group).advance 4)) := by
  have some_ : ({ s.grp with rq := s.grp.rq ++ [.marker h] } : Group).unended.isEmpty = false := by
    rw [List.isEmpty_eq_false_iff]
    exact live
  simp only [State.pushMarker, some_, Bool.false_eq_true, if_false]

/-- With every quad ended a marker is taken at once, and counts as a yield point reached. -/
theorem pushMarker_of_ended {s : State} (h : Hint) (ended : s.grp.unended = []) :
    s.pushMarker h = .next ((s.setGrp (((({ s.grp with rq := s.grp.rq ++ [.marker h] } : Group).endYield s.tm.pending).trim.advance 4))).pmGroup
      s.cur 0x0E 1) := by
  have none_ : ({ s.grp with rq := s.grp.rq ++ [.marker h] } : Group).unended.isEmpty = true := by
    rw [List.isEmpty_iff]
    exact ended
  simp only [State.pushMarker, none_, if_true]

theorem execYield_ended {s : State} {a : SRegNo} (free : s.regsFree [a]) (ended : s.grp.unended = []) (room : s.grp.rq.length < 32) :
    Completes (exec (.yield a) s) (fun t => ∃ u : State, OnlyGroup s.cur s u ∧ t = u.pmGroup s.cur 0x0E 1 ∧
      u.grp.rq = [] ∧ u.grp.hint = some (s.grp.yieldHint a) ∧ u.grp.atYield = (s.tm.pending || s.grp.atYield) ∧
      u.grp = { s.grp with apc := s.grp.apc + 4#64, aret := s.grp.aret + 1, await := none, apass := false, ageA := 0,
                           rq := u.grp.rq, rqBase := u.grp.rqBase, lqs := u.grp.lqs, hint := u.grp.hint, atYield := u.grp.atYield }) := by
  rw [execYield_eq free, if_neg room.not_ge, pushMarker_of_ended _ ended]
  refine ⟨_, rfl, _, setGrp_onlyGroup s _, rfl, ?_⟩
  obtain ⟨rq, hint, atYield, same⟩ := endYield_trim ended s.grp.rq (s.grp.yieldHint a) s.tm.pending
  rw [State.grp_setGrp]
  exact ⟨rq, hint, atYield, congrArg (·.advance 4) same⟩

theorem execYieldRec_live {s s1 : State} {a : SRegNo} {bs : List Byte} {l : Label} {h : Hint} (free : s.regsFree [a])
    (low : (s.grp.sreg a).val.toNat < 2 ^ 55) (aligned : (s.grp.sreg a).val.toNat % 64 = 0) (room : s.grp.rq.length < 32)
    (read : s.readRec s.cur (s.grp.sreg a).val.toNat 256 = .ok s1 bs l) (within : LabelIn l (s.clr s.cur))
    (parsed : parseLiveness bs (s.recOf s.cur).spsize = some h) :
    exec (.yieldRec a) s = s1.pushMarker (if ((s.grp.sreg a).lbl ||| l) ||| s.grp.pA = 0#16 then h else .all) := by
  have good : (!addrOk (s.grp.sreg a).val || decide ((s.grp.sreg a).val.toNat % 64 ≠ 0)) = false :=
    Bool.not_eq_true _ ▸ not_badAddr low aligned
  rw [exec_yieldRec, execYieldRec]
  simp only [State.whenFree_of_regsFree free, resultLabel_two, good, read, (within_iff_labelIn ..).2 within, parsed, room.not_ge,
    Bool.false_eq_true, if_false, Bool.not_true]

/-- Settles O10: each word is unfolded once, to its stops and its effect; a YIELD with every quad ended takes its own marker. -/
theorem runAndQueueWords : Obligations.RunAndQueueWords := by
  constructor
  · intro s d a i free g base rl passed
    have freeD : s.regsFree [d] := State.regsFree_of_subset free (by simp)
    have freeA : s.regsFree [a] := State.regsFree_of_subset free (by simp)
    refine ⟨fun live within slip room => ?_, fun ended => ?_, fun live out => ?_, fun e es head => execPopca_some freeD head,
      execPopca_none freeD, ?_⟩
    · rw [execRun_eq i freeD, if_neg (by simpa using live), if_neg (by simpa [within_iff_labelIn] using within),
        if_neg (not_or.2 ⟨slip.not_ge, room.not_ge⟩)]
      exact setGrp_completes s _
    · rw [execRun_eq i freeD, if_pos (by simpa using ended)]
    · rw [execRun_eq i freeD, if_neg (by simpa using live), if_pos (by simpa [← within_iff_labelIn] using out)]
    · intro hint
      refine ⟨fun live room => ?_, fun ended room => execYield_ended freeA ended room, fun full => ?_⟩
      · rw [execYield_eq freeA, if_neg room.not_ge, pushMarker_of_live _ live]
        exact setGrp_completes s _
      · rw [execYield_eq freeA, if_pos full]
        exact waits_completes s _
  · intro s s1 a bs l h free x low aligned room read within parsed live
    rw [execYieldRec_live free low aligned room read within parsed, pushMarker_of_live _ live]

/-! ## WAITFC and FENCE (R187, R188) -/

/-- Settles O15: each word is its test, and a waiting one is tried again as it stands. -/
theorem countersAndFences : Obligations.CountersAndFences := by
  intro s c n sc f k
  have waitfc : exec (.waitfc c n) s = if s.grp.fcv c ≤ n.toNat then s.aPass else s.waits (.waitfc c n) := exec_waitfc ..
  have fence : exec (.fence sc f) s = if s.grp.fenceReady then
      .next ((s.setGrp ((s.grp.fence f true (s.soleIn sc s.cur)).advance 4)).settle s.cur) else s.waits (.fence sc f) := exec_fence ..
  refine ⟨fun low => ?_, fun high => ?_, fun ready => ?_, fun busy => ?_, fun ready awaits => ?_, fun ready awaits => ?_⟩
  · rw [waitfc, if_pos low]
    exact ⟨_, rfl, jump_controlResult s s.grp.apath _⟩
  · rw [waitfc, if_neg high.not_ge]
    exact waits_completes s _
  · rw [fence, if_pos ready]
  · rw [fence, if_neg (by simp [busy])]
    exact waits_completes s _
  · rw [exec_waitfcSatisfied, exec_waitfc]
    exact State.retry_of_awaits awaits ready rfl
  · rw [exec_fenceComplete, exec_fence]
    exact State.retry_of_awaits awaits ready rfl

end Sys2Proof.Machine
end


section
/-! PROOFS. SIGADD while the memory paths of its core are full. -/

namespace Sys2Proof.Machine

open Sys2Proof

/-- The device of `selfFencedState` with no peer fenced, and with a second group of the team that has all 2048 requests of the core's
memory paths outstanding. -/
def busySignalState : State :=
  { selfFencedState with fenced := [], groups := [(0, onePageGroup), (1, { Group.empty with fcs := [(0, 2048)] })] }

/-- Refutes O16: the clause that a SIGADD completes asks for no room on the memory paths. In `busySignalState` another group has filled
them, and the SIGADD waits for a request. -/
theorem not_signalWords : ¬ Obligations.SignalWords := by
  intro h
  obtain ⟨adds, -⟩ := (h.1 busySignalState busySignalState 1#6 0#6 [] 0#16 0 (fun r _ => by revert r; decide)) (by decide) (by decide)
  have updates : (busySignalState.signal 0x30000 0#64 false).isSome = true := by decide +kernel
  obtain ⟨u, hu⟩ := Option.isSome_iff_exists.1 updates
  obtain ⟨t, ht, -, -, passed⟩ := adds u (Eq.trans (by decide +kernel) hu) (by decide +kernel) (by decide +kernel) (by decide +kernel)
    (by decide +kernel) (by decide +kernel) (by decide +kernel) (by decide +kernel) (by decide +kernel) (by decide +kernel) (fun o ho => nomatch ho)
  have waits : exec (.sigadd 1#6 0#6) busySignalState = busySignalState.waits (.sigadd 1#6 0#6) := by rfl
  rw [waits] at ht
  obtain rfl := Host.Outcome.next.inj ht
  exact absurd (congrArg Group.await passed) (by decide +kernel)

end Sys2Proof.Machine
end


section
/-! PROOFS. Faults and BRK, LAUNCH, EARLY and the engine commands, and the requests to the runtime and the Weighhouse. -/

namespace Sys2Proof.Machine

open Sys2Proof

/-! ## Taking a fault (R155, R375 to R377, R381) -/

/-- A further fault of the address slice, other than LEASE, marks the group and does no more. -/
theorem raiseA_again {s : State} {f : Flt} (again : s.grp.fault ≠ none) (noLease : f.code ≠ 0x04) :
    s.raiseA f = s.setGrp { s.grp with lostFault := true, astopped := true } := by
  obtain ⟨x, hx⟩ := Option.ne_none_iff_exists'.1 again
  have hx' : (s.group s.cur).fault = some x := hx
  simp only [State.raiseA, State.raiseRec, hx', noLease, if_false, Bool.not_false, Bool.or_true, Bool.or_false]
  rw [← hx']
  rfl

/-- A first fault of the address slice, other than LEASE, writes the record, stops the slice and rings the bell. -/
theorem raiseA_first {s : State} {f : Flt} (first : s.grp.fault = none) (noLease : f.code ≠ 0x04) :
    let t := s.raiseA f
    t.grp = { s.grp with fault := some { flt := f, cslice := false, fpos := 0, fcycle := s.cycle }, astopped := true } ∧
      t.tm.bell = some (s.tm.bell.getD s.cycle) ∧ (∀ j, j ≠ s.cur → t.group j = s.group j) ∧ t.mem = s.mem ∧
      ∀ j, j ≠ teamOf s.cur → t.team j = s.team j := by
  obtain ⟨same, group, others, team, teams⟩ := State.raiseRec_first (s := s) (k := s.cur)
    (r := { flt := f, cslice := false, fpos := 0, fcycle := s.cycle }) first noLease
  have cur : (s.raiseA f).cur = s.cur := (congrArg State.cur same :)
  refine ⟨?_, ?_, others, (congrArg State.mem same :), teams⟩
  · rw [State.grp, cur]
    refine Eq.trans group ?_
    simp only [Bool.or_false, Bool.not_false, Bool.or_true]
    rfl
  · rw [State.tm, cur]
    exact congrArg Team.bell team

/-- Settles O22: the first and a later fault are the two cases of the fault record; a resumption clears it. -/
theorem takingAFault : Obligations.TakingAFault := by
  intro s c f g r code k t
  have noLease : f.code ≠ 0x04 := fun h => code (by simp [h])
  refine ⟨rfl, fun first => raiseA_first first noLease, fun again => raiseA_again again noLease, fun fault => ?_⟩
  cases brk : r.brk <;> cases cslice : r.cslice <;> simp [Group.resumeSlices, fault, brk, cslice]

/-! ## LAUNCH and EARLY (R184, R185, R362) -/

theorem execLaunch_eq {s : State} {a : SRegNo} (free : s.regsFree [a]) (low : (s.grp.sreg a).val.toNat < 2 ^ 55)
    (aligned : (s.grp.sreg a).val.toNat % 256 = 0) :
    exec (.launch a) s =
      if (s.grp.sreg a).lbl ||| s.grp.pA ≠ 0#16 then
        .next (s.raiseA { code := 0x08, sub := 2, flbl := (s.grp.sreg a).lbl ||| s.grp.pA, faddr := (s.grp.sreg a).val.toNat })
      else if !s.grp.released false then s.waits (.launch a)
      else
        match s.readRec s.cur (s.grp.sreg a).val.toNat 256 with
        | .bad f => s.faultA f
        | .wait s1 => s1.waits (.launch a)
        | .ok s1 bs l =>
          if l ≠ 0#16 then .next (s.raiseA { code := 0x08, sub := 2, flbl := l, faddr := (s.grp.sreg a).val.toNat })
          else if !launchOk bs then .next (s.raiseA { code := 0x01, faddr := (s.grp.sreg a).val.toNat })
          else (s1.newGrid (readLaunch bs) (s.grp.sreg a).val.toNat (s.ctxOf s.cur)).aPass := by
  rw [exec_launch, execLaunch]
  simp only [State.whenFree_of_regsFree free, resultLabel_one, if_neg (not_badAddr low aligned)]
  rfl

theorem execPort_ok {s s1 : State} {a : SRegNo} {c : PortCmd} {l : Label} (free : s.regsFree [a]) (copies : s.grp.role = 0)
    (read : s.portRead (s.grp.sreg a).val.toNat = .ok s1 c l)
    (passes : s1.portCheck c (((s.grp.sreg a).lbl ||| l) ||| s.grp.pA) = none) (room : s1.pathFull s.cur .po = false) :
    exec (.port a) s = .next (s1.setGrp ((s1.grp.issueOp
      { id := 0, fc := some .po, pc := s.grp.apc.toNat, run := s.grp.runs, after := s.grp.caOrd,
        lbl := ((s.grp.sreg a).lbl ||| l) ||| s.grp.pA, data := .port c 0 0#16 }).advance 4)) := by
  rw [exec_port, execPort]
  simp only [State.whenFree_of_regsFree free, if_neg (not_not_intro copies), read, resultLabel_two, passes, room,
    Bool.false_eq_true, if_false]

theorem execColl_ok {s s1 : State} {a : SRegNo} {c : CollCmd} {l : Label} (free : s.regsFree [a]) (copies : s.grp.role = 0)
    (read : s.collRead (s.grp.sreg a).val.toNat = .ok s1 c l)
    (passes : s1.collMsg s1.cur c (((s.grp.sreg a).lbl ||| l) ||| s.grp.pA) = none) (room : s1.pathFull s.cur .cl = false) :
    exec (.coll a) s = .next (s1.setGrp ((s1.grp.issueOp
      { id := 0, fc := some .cl, pc := s.grp.apc.toNat, run := s.grp.runs, after := s.grp.caOrd,
        lbl := ((s.grp.sreg a).lbl ||| l) ||| s.grp.pA, data := .coll c 0 [] [] }).advance 4)) := by
  rw [exec_coll, execColl]
  simp only [State.whenFree_of_regsFree free, if_neg (not_not_intro copies), read, resultLabel_two, passes, room,
    Bool.false_eq_true, if_false]

/-- An engine command of a group of another role takes ROLE (R28). -/
theorem engines_of_role {s : State} {a : SRegNo} (free : s.regsFree [a]) (other : s.grp.role ≠ 0) :
    exec (.port a) s = .next (s.raiseA { code := 0x02 }) ∧ exec (.coll a) s = .next (s.raiseA { code := 0x02 }) := by
  rw [exec_port, execPort, exec_coll, execColl, State.whenFree_of_regsFree free, State.whenFree_of_regsFree free, if_pos other, if_pos other]
  exact ⟨rfl, rfl⟩

/-- Settles O18: each word is its checks in order, the last of them the record's, and then its effect. -/
theorem launchAndEarly : Obligations.LaunchAndEarly := by
  constructor
  · intro s s1 a bs l free
    dsimp only
    refine ⟨fun low aligned plain ready read => ⟨fun empty good => ?_, fun labelled => ?_, fun empty bad => ?_⟩,
      fun low aligned labelled => ?_, fun empty ready => ?_, fun labelled => ?_⟩
    · rw [execLaunch_eq free low aligned, if_neg (not_not_intro plain), if_neg (by simp [ready])]
      simp only [read, if_neg (not_not_intro empty), good, Bool.not_true, Bool.false_eq_true, if_false]
    · rw [execLaunch_eq free low aligned, if_neg (not_not_intro plain), if_neg (by simp [ready])]
      simp only [read, if_pos labelled]
    · rw [execLaunch_eq free low aligned, if_neg (not_not_intro plain), if_neg (by simp [ready])]
      simp only [read, if_neg (not_not_intro empty), bad, Bool.not_false, if_true]
    · rw [execLaunch_eq free low aligned, if_pos labelled]
    · rw [exec_early, execEarly]
      simp only [if_neg (not_not_intro empty), ready, Bool.not_true, Bool.false_eq_true, if_false]
    · rw [exec_early, execEarly]
      simp only [if_pos labelled]
      rfl
  · intro s s1 a c e l free g x w
    exact ⟨execPort_ok free, execColl_ok free, engines_of_role free⟩

end Sys2Proof.Machine
end


section
/-! PROOFS. Requests to the Weighhouse and to the runtime. -/

namespace Sys2Proof.Machine

open Sys2Proof

/-! ## DCLS (R148 to R150) -/

/-- The label that a declassification leaves, as the claims spell it. -/
theorem without_join (l x la kl : Label) : (l.without x).join (la.join kl) = (l &&& ~~~ x) ||| (la ||| kl) := rfl

/-- An entry of the table endorses an owner: its own, with this code, budget left, and the new label within its release label. -/
def Endorse.endorses (e : Endorse) (h : BitVec 512) (n : Label) (i : Nat) : Bool :=
  e.owner == i && e.codeh == h && decide (0 < e.budget) && n.within e.rlbl

theorem endorses_iff (e : Endorse) (h : BitVec 512) (n : Label) (i : Nat) :
    e.endorses h n i = true ↔ e.owner = i ∧ e.codeh = h ∧ 0 < e.budget ∧ LabelIn n e.rlbl := by
  simp [Endorse.endorses, within_iff_labelIn, and_assoc]

/-- A declassification fails exactly when some owner asked for has no endorsing entry. -/
theorem declassify_missing_iff (es : List Endorse) (h : BitVec 512) (n need : Label) :
    (((List.range 16).filter (fun o => need.getLsbD o)).map (fun o => es.findIdx? (fun e => e.endorses h n o))).any (·.isNone) = true ↔
      ¬ ∀ i, i < 16 → need.getLsbD i = true → ∃ e ∈ es, e.owner = i ∧ e.codeh = h ∧ 0 < e.budget ∧ LabelIn n e.rlbl := by
  have none_iff (i : Nat) : (es.findIdx? (fun e => e.endorses h n i)).isNone = true ↔
      ¬ ∃ e ∈ es, e.owner = i ∧ e.codeh = h ∧ 0 < e.budget ∧ LabelIn n e.rlbl := by
    simp only [← endorses_iff, Option.isNone_iff_eq_none, List.findIdx?_eq_none_iff, not_exists, not_and, Bool.not_eq_true]
  simp only [List.any_map, List.any_eq_true, List.mem_filter, List.mem_range, Function.comp, none_iff]
  push Not
  exact ⟨fun ⟨i, ⟨lt, asked⟩, no⟩ => ⟨i, lt, asked, no⟩, fun ⟨i, lt, asked, no⟩ => ⟨i, ⟨lt, asked⟩, no⟩⟩

theorem declassify_answers (es : List Endorse) (h : BitVec 512) (l x la kl : Label) :
    let n := (l &&& ~~~ x) ||| (la ||| kl)
    let ok := ∀ i, i < 16 → (l &&& x).getLsbD i = true → ∃ e ∈ es, e.owner = i ∧ e.codeh = h ∧ 0 < e.budget ∧ LabelIn n e.rlbl
    (ok → (declassify es h l x la kl).1 = true ∧ (declassify es h l x la kl).2.1 = n) ∧
      (¬ ok → declassify es h l x la kl = (false, l, es)) := by
  intro n ok
  have missing := declassify_missing_iff es h n (l &&& x)
  refine ⟨fun yes => ?_, fun no => ?_⟩
  · have found := mt missing.1 (not_not_intro yes)
    have answer : declassify es h l x la kl = (true, n, _) := if_neg found
    rw [answer]
    exact ⟨rfl, rfl⟩
  · exact if_pos (missing.2 no)

theorem group_setCore (s : State) (n k : Nat) (c : Core) : (s.setCore n c).group k = s.group k := rfl

/-- Settles O21: a request enters the queue, the head's answer is the declassify function's, and that asks for an entry of each
owner. -/
theorem declassifyHolds : Obligations.Declassify := by
  intro s d a b k o x lx es h l la kl asked n
  refine ⟨fun free => ?_, fun op data head => ?_, declassify_answers es h l x la kl⟩
  · rw [exec_dcls, execDcls, State.whenFree_of_regsFree (State.regsFree_of_subset free (by simp))]
  · intro r
    have first : ¬ (s.weighWaiters (s.team (teamOf k)).core).head? ≠ some (k, o.id) := not_not_intro head
    rw [exec_weighhouseAnswer, execWeighhouseAnswer]
    simp only [group_setCore, op, data, if_neg first, List.drop_one]
    rfl

/-! ## TRAP and its reply (R189, R383) -/

/-- Registers a to a+3 of a TRAP, and the label of its request. -/
theorem execTrap_bad_range {s : State} {d a c : SRegNo} (free : s.regsFree [a, a + 1#6, a + 2#6, a + 3#6]) (high : 60 < a.toNat) :
    exec (.trap d a c) s = .next (s.raiseA { code := 0x01, kcode := c.toNat }) := by
  rw [exec_trap, execTrap]
  simp only [State.whenFree_of_regsFree free, if_pos high]
  rfl

/-- The label of four operands, in the order of the claims. -/
theorem resultLabel_four (k a b c d : Label) : resultLabel k [a, b, c, d] = (a ||| b ||| c ||| d) ||| k := by
  simp only [resultLabel, Label.joinAll, Label.join, List.foldl]
  simp [BitVec.or_comm]

/-- TRAP below its range checks: the label, then the slot, then the release, then the request. -/
theorem execTrap_eq {s : State} {d a c : SRegNo} (free : s.regsFree [a, a + 1#6, a + 2#6, a + 3#6]) (range : a.toNat ≤ 60)
    (serves : (s.recOf s.cur).syssig ≠ 0) :
    let r (i : Nat) : SVal := s.grp.sreg (a + BitVec.ofNat 6 i)
    let l := ((r 0).lbl ||| (r 1).lbl ||| (r 2).lbl ||| (r 3).lbl) ||| s.grp.pA
    let epl := (s.ctx (s.ctxOf s.cur)).eplRuntime
    exec (.trap d a c) s =
      if !l.within epl then .next (s.raiseA { code := 0x08, sub := 3, flbl := l, clbl := epl, kcode := c.toNat })
      else if s.grp.ops.any (fun o => o.data == .syscall && !o.cslice) then s.waits (.trap d a c)
      else if s.grp.sHeld d then s.waits (.trap d a c)
      else if !s.slotRead s.cur || s.sstate s.cur ≠ 0 then (s.askSlot s.cur).waits (.trap d a c)
      else if !s.grp.released false then s.waits (.trap d a c)
      else
        let s1 := s.postRequest s.cur 1 c.toNat ([0, 1, 2, 3].flatMap (fun i => bytesOf (r i).val.toNat 8) ++ bytesOf l.toNat 2)
        (s1.setGrp ({ s1.grp with ageA := 0 }.issueOp
          { id := 0, fc := none, pc := s.grp.apc.toNat, adst := some d, lbl := l, data := .syscall })).waits (.trap d a c) := by
  rw [exec_trap, execTrap]
  simp only [State.whenFree_of_regsFree free, if_neg range.not_gt, if_neg serves, resultLabel_four]
  rfl

/-- Settles O20: TRAP is its checks in order and then its request; a poll reads the slot, where nothing of it is held elsewhere, and
writes the reply. -/
theorem systemCall : Obligations.SystemCall := by
  intro s d a c k o free
  dsimp only
  have passed (h : a.toNat ≤ 60 ∧ (s.recOf s.cur).syssig ≠ 0 ∧ LabelIn (((s.grp.sreg (a + BitVec.ofNat 6 0)).lbl |||
      (s.grp.sreg (a + BitVec.ofNat 6 1)).lbl ||| (s.grp.sreg (a + BitVec.ofNat 6 2)).lbl ||| (s.grp.sreg (a + BitVec.ofNat 6 3)).lbl) |||
      s.grp.pA) (s.ctx (s.ctxOf s.cur)).eplRuntime ∧ (∀ p ∈ s.grp.ops, p.data = .syscall → p.cslice = true) ∧ s.grp.sHeld d = false) :
      exec (.trap d a c) s =
        if !s.slotRead s.cur || s.sstate s.cur ≠ 0 then (s.askSlot s.cur).waits (.trap d a c)
        else if !s.grp.released false then s.waits (.trap d a c)
        else
          let l := ((s.grp.sreg (a + BitVec.ofNat 6 0)).lbl ||| (s.grp.sreg (a + BitVec.ofNat 6 1)).lbl |||
            (s.grp.sreg (a + BitVec.ofNat 6 2)).lbl ||| (s.grp.sreg (a + BitVec.ofNat 6 3)).lbl) ||| s.grp.pA
          let s1 := s.postRequest s.cur 1 c.toNat ([0, 1, 2, 3].flatMap (fun i => bytesOf (s.grp.sreg (a + BitVec.ofNat 6 i)).val.toNat 8)
            ++ bytesOf l.toNat 2)
          (s1.setGrp ({ s1.grp with ageA := 0 }.issueOp
            { id := 0, fc := none, pc := s.grp.apc.toNat, adst := some d, lbl := l, data := .syscall })).waits (.trap d a c) := by
    obtain ⟨range, serves, within, alone, free_d⟩ := h
    have none_ : s.grp.ops.any (fun o => o.data == .syscall && !o.cslice) = false := by
      simp only [List.any_eq_false, Bool.and_eq_true, beq_iff_eq, Bool.not_eq_true', not_and, Bool.not_eq_false]
      exact alone
    rw [execTrap_eq free range serves]
    simp only [(within_iff_labelIn ..).2 within, none_, free_d, Bool.not_true, Bool.false_eq_true, if_false]
  refine ⟨fun open_ read empty ready => ?_, fun open_ busy => ?_, execTrap_bad_range free, fun range serves out => ?_, ?_, ?_⟩
  · rw [passed open_, if_neg (by simp [read, empty]), if_neg (by simp [ready])]
    simp only [State.waits, State.grp_setGrp, State.setGrp_setGrp]
  · rw [passed open_, if_pos (by simpa using busy)]
    rfl
  · rw [execTrap_eq free range serves, if_pos (by simpa [← within_iff_labelIn] using out)]
  · rintro ⟨find, address, resident⟩ here reply replied stands running draining held
    rw [exec_syscallSlotPoll, execSyscallSlotPoll]
    simp only [find, resident, bne_self_eq_false, Bool.false_eq_true, if_false, State.withOwn_here here, if_neg (not_not_intro replied),
      address, State.withOwn_here reply, stands, running, draining, held, Bool.not_true, Bool.false_or, Option.isSome_none]
  · rintro ⟨find, address, resident⟩ missing
    rw [exec_syscallSlotPoll, execSyscallSlotPoll]
    simp only [find, resident, bne_self_eq_false, Bool.false_eq_true, if_false]
    exact State.withOwn_missing missing _

end Sys2Proof.Machine
end


section
/-! PROOFS. Accumulator banks and weight reservations. -/

namespace Sys2Proof.Machine

open Sys2Proof

/-- A table of which only some keys are kept reads as before at those, and as its default elsewhere. -/
theorem Tab.get_filter_key {α : Type} (d : α) (q : Nat → Bool) (m : Tab α) (x : Nat) :
    Tab.get d (m.filter (fun e => q e.1)) x = if q x then Tab.get d m x else d := by
  induction m with
  | nil => simp [Tab.get]
  | cons e t ih =>
    by_cases here : e.1 = x
    · cases kept : q x with
      | true => simp [Tab.get_cons, here, kept]
      | false => simp [here, kept, ih]
    · cases keeps : q e.1 with
      | true => rw [List.filter_cons, keeps, if_pos rfl, Tab.get_cons, if_neg here, ih, Tab.get_cons, if_neg here]
      | false => rw [List.filter_cons, keeps, if_neg (by simp), ih, Tab.get_cons, if_neg here]

/-! ## ALLOC and FREE (R176, R177, R372) -/

/-- Only the team and the group differ where a word changes its team and passes. -/
theorem setTm_aPass_completes (s : State) (x : Team) : Completes (s.setTm x).aPass (fun u => OnlyTeam s u ∧ u.tm = x ∧
    u.grp = { s.grp with apc := s.grp.apc + 4#64, aret := s.grp.aret + 1, await := none, apass := false, ageA := 0 }) := by
  refine ⟨_, rfl, ⟨rfl, fun j hj => State.group_setGrp_ne _ _ hj, fun j hj => State.team_setTeam_ne _ _ hj⟩, State.tm_setTm .., ?_⟩
  exact State.grp_setGrp ..

theorem execFree_completes {s : State} {a : SRegNo} (free : s.regsFree [a])
    (held : (s.grp.sreg a).val &&& ~~~ s.tm.banks = 0#64) (loose : s.tm.boundIn (s.grp.sreg a).val = false)
    (idle : s.banksBusy (teamOf s.cur) (s.grp.sreg a).val = false) :
    Completes (exec (.free a) s) (fun u => OnlyTeam s u ∧ u.tm = { s.tm with banks := s.tm.banks &&& ~~~ (s.grp.sreg a).val } ∧
      u.grp = { s.grp with apc := s.grp.apc + 4#64, aret := s.grp.aret + 1, await := none, apass := false, ageA := 0 }) := by
  rw [exec_free, execFree]
  simp only [State.whenFree_of_regsFree free, if_neg (not_not_intro held), loose, idle, Bool.false_eq_true, if_false]
  split
  · rename_i none_
    refine ⟨_, rfl, ⟨rfl, fun j hj => State.group_setGrp_ne _ _ hj, fun j _ => rfl⟩, ?_, State.grp_setGrp ..⟩
    rw [none_, BitVec.not_zero, BitVec.and_allOnes]
    rfl
  · exact setTm_aPass_completes s _

theorem execAlloc_completes {s : State} {d a : SRegNo} (free : s.regsFree [a, d]) (some_ : (s.grp.sreg a).val.toNat ≠ 0)
    (fits : (bankList s.tm.banks).length + (s.grp.sreg a).val.toNat ≤ (s.recOf s.cur).accpeak)
    (turn : s.allocWaiters s.tm.core = [] ∨ (s.allocWaiters s.tm.core).head? = some s.cur)
    (room : (s.grp.sreg a).val.toNat ≤ (bankList (~~~ s.banksTaken s.tm.core)).length) :
    let take := (bankList (~~~ s.banksTaken s.tm.core)).take (s.grp.sreg a).val.toNat
    Completes (exec (.alloc d a) s) (fun u => u.tm = s.tm.grantBanks take ∧
      ScalarWrote s u d (bankMask take) ((s.grp.sreg a).lbl ||| s.grp.pA) ∧ u.grp.apc = s.grp.apc + 4#64 ∧
      u.grp.apath = s.grp.apath ∧ u.mem = s.mem ∧ (∀ j, j ≠ s.cur → u.group j = s.group j) ∧
      ∀ j, j ≠ teamOf s.cur → u.team j = s.team j) := by
  intro take
  have first : ((s.allocWaiters s.tm.core).isEmpty || (s.allocWaiters s.tm.core).head? == some s.cur) = true := by
    simpa [List.isEmpty_iff] using turn
  rw [exec_alloc, execAlloc]
  simp only [State.whenFree_of_regsFree free, if_neg some_, if_neg fits.not_gt, first, decide_eq_true room, Bool.true_and, if_true,
    resultLabel_one]
  refine ⟨_, rfl, State.tm_setTm .., fun r => ?_, ?_, ?_, rfl, fun j hj => State.group_setGrp_ne _ _ hj,
    fun j hj => State.team_setTeam_ne _ _ hj⟩ <;> rw [State.grp_setGrp]
  · rw [Group.sreg_advance, Group.sreg_setSreg]
    rfl
  · simp only [Group.advance, Group.setSreg]
    split <;> rfl
  · simp only [Group.advance, Group.setSreg]
    split <;> rfl

/-- Settles O13: each word by its checks in order; a waiting one is tried again as it stands. -/
theorem accumulatorBanks : Obligations.AccumulatorBanks := by
  intro s d a c k free g t n m q take
  have freeAD : s.regsFree [a, d] := State.regsFree_of_subset free (by simp)
  have freeA : s.regsFree [a] := State.regsFree_of_subset free (by simp)
  refine ⟨execAlloc_completes freeAD, fun x => ?_, fun x => ?_, fun none_ => ?_, fun some_ tooMany => ?_, execFree_completes freeA,
    fun other => ?_, fun ks waiters awaits ready => ?_, fun awaits ready => ?_⟩
  · refine (Tab.get_filter_key 0#32 (fun i => !take.contains (i / 32768)) t.acc x).trans ?_
    by_cases granted : x / 32768 ∈ take <;> simp [granted]
  · refine (Tab.get_filter_key 0#16 (fun i => !take.contains i) t.bankLbl x).trans ?_
    by_cases granted : x ∈ take <;> simp [granted]
  · rw [exec_alloc, execAlloc]
    simp only [State.whenFree_of_regsFree freeAD]
    rw [if_pos none_]
    rfl
  · rw [exec_alloc, execAlloc]
    simp only [State.whenFree_of_regsFree freeAD]
    rw [if_neg some_, if_pos tooMany]
    rfl
  · rw [exec_free, execFree]
    simp only [State.whenFree_of_regsFree freeA]
    rw [if_pos other]
    rfl
  · rw [exec_allocGrant, execAllocGrant, waiters, exec_alloc]
    exact State.retry_of_awaits awaits ready rfl
  · rw [exec_bankFree, exec_free]
    exact State.retry_of_awaits awaits ready rfl

/-! ## RESV and UNRESV (R178, R179) -/

/-- A team in which handle `h` is bound to a region that reads zero. -/
def Team.bindResv (t : Team) (h off : Nat) (r : Resv) : Team :=
  { t with resv := t.resv.put h { r with off := off },
           wmem := t.wmem.filter (fun e => decide (e.1 < off) || decide (off + r.size ≤ e.1)),
           wBad := t.wBad.filter (fun e => decide (e.1 * 4 < off) || decide (off + r.size ≤ e.1 * 4)) }

theorem wmem_bindResv (t : Team) (h off : Nat) (r : Resv) (i : Nat) :
    (t.bindResv h off r).wmem.get 0#8 i = if i < off ∨ off + r.size ≤ i then t.wmem.get 0#8 i else 0#8 :=
  (Tab.get_filter_key 0#8 (fun i => decide (i < off) || decide (off + r.size ≤ i)) t.wmem i).trans (by simp)

theorem execResv_completes {s s1 : State} {d a b : SRegNo} {bs : List Byte} {l : Label} {r : Resv} {off : Nat}
    (free : s.regsFree [a, b, d]) (low : (s.grp.sreg a).val.toNat < 2 ^ 55) (aligned : (s.grp.sreg a).val.toNat % 64 = 0)
    (handle : (s.grp.sreg b).val.toNat ≤ 15) (unbound : s.tm.resv.find (s.grp.sreg b).val.toNat = none)
    (read : s.readRec s.cur (s.grp.sreg a).val.toNat 64 = .ok s1 bs l) (within : LabelIn l (s.clr s.cur))
    (parsed : parseResv bs 0 (((s.grp.sreg a).lbl ||| (s.grp.sreg b).lbl ||| l) ||| s.grp.pA) = some r)
    (room : s.tm.freeRegion r.size ((s.recOf s.cur).wres * 4096) = some off) :
    exec (.resv d a b) s = (s1.setTm (s.tm.bindResv (s.grp.sreg b).val.toNat off r)).aWrite d (BitVec.ofNat 64 (s.tm.wBase + off))
      (((s.grp.sreg a).lbl ||| (s.grp.sreg b).lbl ||| l) ||| s.grp.pA) 4 := by
  have usable : ¬ (decide (15 < (s.grp.sreg b).val.toNat) || (s.tm.resv.find (s.grp.sreg b).val.toNat).isSome) = true := by
    simp [unbound, handle]
  rw [exec_resv, execResv]
  simp only [State.whenFree_of_regsFree free, if_neg (not_badAddr low aligned), if_neg usable, read, (within_iff_labelIn ..).2 within,
    resultLabel_three, parsed, room, Bool.not_true, Bool.false_eq_true, if_false]
  rfl

/-- Settles O14: RESV past its checks binds the lowest free region and writes its offset; UNRESV past its own removes the handle. -/
theorem weightReservations : Obligations.WeightReservations := by
  intro s s1 d a b bs l r off k free
  dsimp only
  have freeABD : s.regsFree [a, b, d] := State.regsFree_of_subset free (by simp)
  have freeA : s.regsFree [a] := State.regsFree_of_subset free (by simp)
  refine ⟨fun low aligned handle unbound read within parsed room => ?_, fun low aligned bad => ?_, fun handle bound idle => ?_,
    fun awaits ready => ?_⟩
  · rw [execResv_completes freeABD low aligned handle unbound read within parsed room]
    refine ⟨_, rfl, ?_⟩
    beta_reduce
    rw [State.grp_setGrp, State.tm_setGrp, State.tm_setTm]
    refine ⟨Tab.find_put_self .., fun j hj => Tab.find_put_ne _ _ hj, fun i inside => ?_, fun i outside => ?_, fun q => ?_, rfl⟩
    · rw [wmem_bindResv, if_neg (by omega)]
    · rw [wmem_bindResv, if_pos outside]
    · rw [Group.sreg_advance, Group.sreg_setSreg]
      rfl
  · rw [exec_resv, execResv]
    simp only [State.whenFree_of_regsFree freeABD, if_neg (not_badAddr low aligned)]
    rw [if_pos (by simpa using bad)]
    rfl
  · have usable : ¬ (decide (15 < (s.grp.sreg a).val.toNat) || (s.tm.resv.find (s.grp.sreg a).val.toNat).isNone) = true := by
      simpa [handle, Option.isSome_iff_ne_none] using bound
    rw [exec_unresv, execUnresv]
    simp only [State.whenFree_of_regsFree freeA, if_neg usable, idle, Bool.false_eq_true, if_false]
    exact setTm_aPass_completes s _
  · rw [exec_resvRelease, exec_unresv]
    exact State.retry_of_awaits awaits ready rfl

end Sys2Proof.Machine
end


section
/-! PROOFS. Barrier objects in their cells, and the words that act on them. -/

namespace Sys2Proof.Machine

open Sys2Proof

/-! ## A barrier object in its cell (R337) -/

/-- Both counts of a barrier object fit their fields. -/
def Barrier.InRange (b : Barrier) : Prop := b.arr < 2 ^ 16 ∧ b.exp < 2 ^ 16

theorem Barrier.ofNat_toNat {b : Barrier} (range : b.InRange) : Barrier.ofNat b.toNat = b := by
  obtain ⟨lbl, err, phase, arr, exp⟩ := b
  obtain ⟨harr, hexp⟩ := range
  have hlbl : lbl.toNat < 2 ^ 16 := lbl.isLt
  simp only [Barrier.toNat, Barrier.ofNat, bitsOf, bitOf, Barrier.mk.injEq] at *
  refine ⟨BitVec.eq_of_toNat_eq ?_, ?_, ?_, ?_, ?_⟩
  · rw [BitVec.toNat_ofNat]
    cases err <;> cases phase <;> simp <;> omega
  · cases err <;> cases phase <;> simp <;> omega
  · cases err <;> cases phase <;> simp <;> omega
  · cases err <;> cases phase <;> simp <;> omega
  · cases err <;> cases phase <;> simp <;> omega

theorem Barrier.toNat_lt {b : Barrier} (range : b.InRange) : b.toNat < 256 ^ 16 := by
  obtain ⟨lbl, err, phase, arr, exp⟩ := b
  obtain ⟨harr, hexp⟩ := range
  have hlbl : lbl.toNat < 2 ^ 16 := lbl.isLt
  simp only [Barrier.toNat] at *
  cases err <;> cases phase <;> simp <;> omega

/-- What is read from a cell is in range. -/
theorem Team.barrier_inRange (t : Team) (off : Nat) : (t.barrier off).InRange :=
  ⟨Nat.mod_lt _ (by norm_num), Nat.mod_lt _ (by norm_num)⟩

/-- An arrival that does not pass the expected count leaves a barrier in range. -/
theorem Barrier.inRange_arrive {b : Barrier} (range : b.InRange) (n : Nat) (err : Bool) : (b.arrive n err).InRange := by
  obtain ⟨-, hexp⟩ := range
  unfold Barrier.arrive
  dsimp only
  split
  · exact ⟨by norm_num, hexp⟩
  · exact ⟨by dsimp only; omega, hexp⟩

/-- Bytes written to the region are read back. -/
theorem Team.readSp_writeSp (t : Team) (off : Nat) (bs : List Byte) : (t.writeSp off bs).readSp off bs.length = bs := by
  refine List.ext_getElem (by simp [Team.readSp, Tab.getFrom]) fun i h1 h2 => ?_
  simp only [Team.readSp, Tab.getFrom, List.getElem_map, List.getElem_range]
  exact Tab.get_setFrom_in 0#8 bs t.sp off i h2

theorem Team.sp_setBarrier_out (t : Team) (off : Nat) (b : Barrier) (x : Nat) (out : x < off ∨ off + 16 ≤ x) :
    (t.setBarrier off b).sp.get 0#8 x = t.sp.get 0#8 x :=
  Tab.get_setFrom_out 0#8 _ t.sp off x (by rwa [length_bytesOf])

theorem Team.barrier_setBarrier (t : Team) (off : Nat) {b : Barrier} (range : b.InRange) : (t.setBarrier off b).barrier off = b := by
  have cell := t.readSp_writeSp off (bytesOf b.toNat 16)
  rw [length_bytesOf] at cell
  rw [Team.barrier, Team.setBarrier, cell, ofBytes_bytesOf, Nat.mod_eq_of_lt (Barrier.toNat_lt range), Barrier.ofNat_toNat range]

/-- A cell marked and given a barrier object. -/
def Team.initBarrier (t : Team) (off : Nat) (b : Barrier) : Team :=
  { t.setBarrier off b with spMark := t.spMark.set false (off / 16) true }

theorem Team.marked_initBarrier (t : Team) (off : Nat) (b : Barrier) : (t.initBarrier off b).marked? off = true :=
  Tab.get_set_self false t.spMark (off / 16) true

theorem Team.barrier_initBarrier (t : Team) (off : Nat) {b : Barrier} (range : b.InRange) : (t.initBarrier off b).barrier off = b :=
  t.barrier_setBarrier off range

/-! ## BARINIT and BARARV (R186, R337, R411) -/

/-- Where no arrival is held for a team, none is applied. -/
theorem applyHeld_of_none {s : State} {t : Nat} (pick : Held → Bool) (none_ : ∀ h ∈ s.held, h.isFor (s.team t) = false) :
    s.applyHeld t pick = s := by
  have mine : s.held.filter (fun h => h.isFor (s.team t) && (s.team t).marked? h.off && pick h) = [] :=
    List.filter_eq_nil_iff.2 fun h hh => by simp [none_ h hh]
  have others : s.held.filter (fun h => !(h.isFor (s.team t) && (s.team t).marked? h.off && pick h)) = s.held :=
    List.filter_eq_self.2 fun h hh => by simp [none_ h hh]
  unfold State.applyHeld
  dsimp only
  rw [mine, others]
  rfl

theorem barOk_of_fits {r : Launch} {n : Nat} (fits : n % 16 = 0 ∧ n + 16 ≤ r.spsize) : barOk r n = true := by
  simp [barOk, fits]

theorem execBarinit_completes {s : State} {a b : SRegNo} (free : s.regsFree [a, b])
    (fits : (s.grp.sreg a).val.toNat % 16 = 0 ∧ (s.grp.sreg a).val.toNat + 16 ≤ (s.recOf s.cur).spsize)
    (some_ : 1 ≤ (s.grp.sreg b).val.toNat) (counts : (s.grp.sreg b).val.toNat ≤ 65535)
    (fresh : s.tm.marked? (s.grp.sreg a).val.toNat = false ∨ (s.tm.barrier (s.grp.sreg a).val.toNat).arr = 0)
    (none_ : ∀ h ∈ s.held, h.isFor s.tm = false) :
    let n := (s.grp.sreg a).val.toNat
    Completes (exec (.barinit a b) s) (fun u => u.tm.marked? n = true ∧
      u.tm.barrier n = { lbl := (if s.tm.marked? n then (s.tm.barrier n).lbl else 0#16) ||| (((s.grp.sreg a).lbl ||| (s.grp.sreg b).lbl) ||| s.grp.pA),
                         err := false, phase := false, arr := 0, exp := (s.grp.sreg b).val.toNat } ∧
      (∀ x, x < n ∨ n + 16 ≤ x → u.tm.sp.get 0#8 x = s.tm.sp.get 0#8 x) ∧ u.mem = s.mem ∧ u.grp.apc = s.grp.apc + 4#64) := by
  intro n
  have good : ¬ (!barOk (s.recOf s.cur) n || decide ((s.grp.sreg b).val.toNat = 0) || decide (65535 < (s.grp.sreg b).val.toNat)) = true := by
    simp [barOk_of_fits fits, n]
    omega
  have quiet : ¬ (s.tm.marked? n && decide ((s.tm.barrier n).arr ≠ 0)) = true := by
    rcases fresh with h | h <;> simp [n, h]
  let x : Team := s.tm.initBarrier n { lbl := (if s.tm.marked? n then (s.tm.barrier n).lbl else 0#16) |||
    (((s.grp.sreg a).lbl ||| (s.grp.sreg b).lbl) ||| s.grp.pA), err := false, phase := false, arr := 0, exp := (s.grp.sreg b).val.toNat }
  have runs : exec (.barinit a b) s = .next (((s.setTm x).applyHeld (teamOf s.cur) (fun h => h.off == n)).setGrp
      (((s.setTm x).applyHeld (teamOf s.cur) (fun h => h.off == n)).grp.advance 4)) := by
    rw [exec_barinit, execBarinit]
    simp only [State.whenFree_of_regsFree free, resultLabel_two]
    rw [if_neg good, if_neg quiet]
    rfl
  have apply_ : (s.setTm x).applyHeld (teamOf s.cur) (fun h => h.off == n) = s.setTm x :=
    applyHeld_of_none _ fun h hh => by
      rw [State.setTm, State.team_setTeam]
      exact none_ h hh
  rw [runs, apply_]
  refine ⟨_, rfl, ?_⟩
  beta_reduce
  rw [State.tm_setGrp, State.tm_setTm, State.grp_setGrp]
  refine ⟨s.tm.marked_initBarrier n _, s.tm.barrier_initBarrier n ?_, fun y hy => ?_, rfl, rfl⟩
  · exact ⟨by norm_num, Nat.lt_of_le_of_lt counts (by norm_num)⟩
  · exact s.tm.sp_setBarrier_out n _ y hy

theorem execBararv_completes {s : State} {d a b : SRegNo} (free : s.regsFree [a, b, d])
    (fits : (s.grp.sreg a).val.toNat % 16 = 0 ∧ (s.grp.sreg a).val.toNat + 16 ≤ (s.recOf s.cur).spsize)
    (some_ : 1 ≤ (s.grp.sreg b).val.toNat) (counts : (s.grp.sreg b).val.toNat ≤ 65535)
    (marked : s.tm.marked? (s.grp.sreg a).val.toNat = true) (ready : s.grp.released false = true)
    (within : LabelIn (((s.grp.sreg a).lbl ||| (s.grp.sreg b).lbl) ||| s.grp.pA) (s.tm.barrier (s.grp.sreg a).val.toNat).lbl) :
    let n := (s.grp.sreg a).val.toNat
    let bar := s.tm.barrier n
    Completes (exec (.bararv d a b) s) (fun u => u.tm.barrier n = bar.arrive (s.grp.sreg b).val.toNat false ∧
      ScalarWrote s u d (if bar.phase then 0#64 else 1#64) (bar.lbl ||| (((s.grp.sreg a).lbl ||| (s.grp.sreg b).lbl) ||| s.grp.pA)) ∧
      u.grp.apc = s.grp.apc + 4#64 ∧ (∀ x, x < n ∨ n + 16 ≤ x → u.tm.sp.get 0#8 x = s.tm.sp.get 0#8 x) ∧ u.mem = s.mem) := by
  intro n bar
  have good : ¬ (!barOk (s.recOf s.cur) n || decide ((s.grp.sreg b).val.toNat = 0) || decide (65535 < (s.grp.sreg b).val.toNat)
      || !s.tm.marked? n) = true := by
    simp [barOk_of_fits fits, n, marked]
    omega
  have arrives : s.tm.arrive n (s.grp.sreg b).val.toNat (((s.grp.sreg a).lbl ||| (s.grp.sreg b).lbl) ||| s.grp.pA) false =
      some (s.tm.setBarrier n (bar.arrive (s.grp.sreg b).val.toNat false)) := by
    rw [Team.arrive, if_pos ((within_iff_labelIn ..).2 within)]
  rw [exec_bararv, execBararv]
  simp only [State.whenFree_of_regsFree free, resultLabel_two, ready, Bool.not_true, Bool.false_eq_true, if_false]
  rw [if_neg good, arrives]
  refine ⟨_, rfl, ?_⟩
  beta_reduce
  refine ⟨?_, fun r => ?_, ?_, fun x hx => ?_, rfl⟩
  · rw [State.tm_setGrp, State.tm_setTm]
    exact Team.barrier_setBarrier _ _ (Barrier.inRange_arrive (Team.barrier_inRange ..) ..)
  · rw [State.grp_setGrp, Group.sreg_advance, Group.sreg_setSreg]
    rfl
  · rw [State.grp_setGrp]
    simp
  · rw [State.tm_setGrp, State.tm_setTm]
    exact Team.sp_setBarrier_out _ _ _ x hx

/-- Settles O17: each word by its checks in order, an arrival by where the count comes to stand. -/
theorem barrierWords : Obligations.BarrierWords := by
  intro s d a b k o m err free
  dsimp only
  have freeAB : s.regsFree [a, b] := State.regsFree_of_subset free (by simp)
  have freeABD : s.regsFree [a, b, d] := State.regsFree_of_subset free (by simp)
  have freeAD : s.regsFree [a, d] := State.regsFree_of_subset free (by simp)
  refine ⟨execBarinit_completes freeAB, fun fits some_ counts marked busy => ?_, execBararv_completes freeABD,
    fun fits marked within phase clean => ?_, fun fits marked within phase bad => ?_, fun below => ?_, fun meets => ?_, fun past => ?_,
    fun awaits ready => ?_⟩
  · have good : ¬ (!barOk (s.recOf s.cur) (s.grp.sreg a).val.toNat || decide ((s.grp.sreg b).val.toNat = 0)
        || decide (65535 < (s.grp.sreg b).val.toNat)) = true := by
      simp [barOk_of_fits fits]
      omega
    rw [exec_barinit, execBarinit]
    simp only [State.whenFree_of_regsFree freeAB, if_neg good, marked, decide_eq_true busy, Bool.and_self, if_true]
    rfl
  · rw [exec_barwait, execBarwait]
    simp only [State.whenFree_of_regsFree freeAD, barOk_of_fits fits, marked, (within_iff_labelIn ..).2 within, phase, clean,
      bne_self_eq_false, Bool.not_true, Bool.or_self, Bool.false_eq_true, if_false]
  · rw [exec_barwait, execBarwait]
    simp only [State.whenFree_of_regsFree freeAD, barOk_of_fits fits, marked, (within_iff_labelIn ..).2 within, phase, bad,
      bne_self_eq_false, Bool.not_true, Bool.or_self, Bool.false_eq_true, if_false, if_true]
    rfl
  · simp only [Barrier.arrive, if_neg below.not_ge]
  · simp [Barrier.arrive, meets]
  · simp [Barrier.arrive, past, past.le]
  · rw [exec_barwaitSatisfied, exec_barwait]
    exact State.retry_of_awaits awaits ready rfl

end Sys2Proof.Machine
end


section
/-! PROOFS. Elements of lane words, the integers they stand for, and the element-wise integer instructions. -/

namespace Sys2Proof.Machine

open Sys2Proof

/-! ## Words from elements (R197) -/

/-- The number whose digits in base `B` are given, lowest first. -/
def digitSum (B : Nat) (g : Nat → Nat) (n : Nat) : Nat := (List.range n).foldl (fun a i => a + g i % B * B ^ i) 0

theorem digitSum_succ (B : Nat) (g : Nat → Nat) (n : Nat) : digitSum B g (n + 1) = digitSum B g n + g n % B * B ^ n := by
  simp [digitSum, List.range_succ]

theorem digitSum_lt {B : Nat} (hB : 0 < B) (g : Nat → Nat) (n : Nat) : digitSum B g n < B ^ n := by
  induction n with
  | zero => simp [digitSum]
  | succ n ih =>
    have digit : g n % B + 1 ≤ B := Nat.mod_lt _ hB
    have := Nat.mul_le_mul_right (B ^ n) digit
    rw [digitSum_succ, pow_succ']
    nlinarith

/-- A digit of the number is the digit given. -/
theorem digitSum_digit {B : Nat} (hB : 0 < B) (g : Nat → Nat) {n j : Nat} (h : j < n) : digitSum B g n / B ^ j % B = g j % B := by
  induction n with
  | zero => omega
  | succ n ih =>
    rw [digitSum_succ]
    rcases Nat.lt_succ_iff_lt_or_eq.1 h with lower | rfl
    · have split : B ^ n = B ^ j * (B * B ^ (n - j - 1)) := by
        rw [← pow_succ', ← pow_add]
        congr 1
        omega
      rw [split, show g n % B * (B ^ j * (B * B ^ (n - j - 1))) = B ^ j * (B * (g n % B * B ^ (n - j - 1))) by ring,
        Nat.add_mul_div_left _ _ (Nat.pow_pos hB), Nat.add_mul_mod_self_left, ih lower]
    · rw [Nat.add_mul_div_right _ _ (Nat.pow_pos hB), Nat.div_eq_of_lt (digitSum_lt hB g j), zero_add, Nat.mod_mod]

/-- An element of a word made from elements is the one given, cut to its width. -/
theorem elemOf_elems {w : Nat} (g : Nat → Nat) {j : Nat} (hj : j < 32 / w) : elemOf w (elems w g) j = g j % 2 ^ w := by
  have sum : (List.range (32 / w)).foldl (fun a i => a + g i % 2 ^ w * 2 ^ (w * i)) 0 = digitSum (2 ^ w) g (32 / w) := by
    simp only [digitSum, pow_mul]
  have fits : digitSum (2 ^ w) g (32 / w) < 2 ^ 32 := by
    refine (digitSum_lt (by positivity) g _).trans_le ?_
    rw [← pow_mul]
    exact Nat.pow_le_pow_right (by norm_num) (Nat.mul_div_le 32 w)
  rw [elemOf, elems, sum, BitVec.toNat_ofNat, Nat.mod_eq_of_lt fits, pow_mul]
  exact digitSum_digit (by positivity) g hj

theorem elemOf_map1 {w : Nat} (g : Nat → Nat) (a : Word) {j : Nat} (hj : j < 32 / w) :
    elemOf w (map1 w g a) j = g (elemOf w a j) % 2 ^ w := elemOf_elems _ hj

theorem elemOf_map2 {w : Nat} (g : Nat → Nat → Nat) (a b : Word) {j : Nat} (hj : j < 32 / w) :
    elemOf w (map2 w g a b) j = g (elemOf w a j) (elemOf w b j) % 2 ^ w := elemOf_elems _ hj

theorem elemOf_map3 {w : Nat} (g : Nat → Nat → Nat → Nat) (a b c : Word) {j : Nat} (hj : j < 32 / w) :
    elemOf w (map3 w g a b c) j = g (elemOf w a j) (elemOf w b j) (elemOf w c j) % 2 ^ w := elemOf_elems _ hj

theorem elemOf_lt (w : Nat) (x : Word) (j : Nat) : elemOf w x j < 2 ^ w := Nat.mod_lt _ (by positivity)

/-! ## The integers that elements stand for (R92) -/

/-- The sign bit of `w` bits. -/
theorem bitOf_top {w n : Nat} (hw : 0 < w) (hn : n < 2 ^ w) : bitOf n (w - 1) = decide (2 ^ (w - 1) ≤ n) := by
  have double : 2 ^ w = 2 * 2 ^ (w - 1) := by
    rw [← pow_succ']
    congr 1
    omega
  have lt : n / 2 ^ (w - 1) < 2 := Nat.div_lt_of_lt_mul (by rw [mul_comm, ← double]; exact hn)
  have iff_ : 2 ^ (w - 1) ≤ n ↔ 1 ≤ n / 2 ^ (w - 1) := by
    rw [Nat.le_div_iff_mul_le (by positivity), one_mul]
  rw [bitOf, Bool.eq_iff_iff, decide_eq_true_iff, iff_, beq_iff_eq]
  generalize n / 2 ^ (w - 1) = q at lt
  omega

theorem signedOf_eq {w n : Nat} (hw : 0 < w) (hn : n < 2 ^ w) :
    signedOf w n = if 2 ^ (w - 1) ≤ n then (n : Int) - 2 ^ w else n := by
  simp only [signedOf, bitOf_top hw hn, decide_eq_true_iff, Nat.mod_eq_of_lt hn]
  push_cast
  rfl

theorem width_pos (t : Ty) : 0 < t.width := by cases t <;> decide

theorem intVal_eq {t : Ty} {n : Nat} (hn : n < 2 ^ t.width) : intVal t n = valueOf t n := by
  unfold intVal valueOf
  rw [signedOf_eq (width_pos t) hn, Nat.mod_eq_of_lt hn]
  by_cases signed : t.isSigned = true <;> simp [signed]

theorem wrapTo_cast (w : Nat) (z : Int) : (wrapTo w z : Int) = z % 2 ^ w := by
  have : 0 ≤ z % (2 ^ w : Nat) := Int.emod_nonneg _ (by positivity)
  rw [wrapTo, Int.toNat_of_nonneg this]
  push_cast
  rfl

/-- A wrapped element reads as the exact result modulo 2^w. -/
theorem wrapTo_mod (w : Nat) (z : Int) : ((wrapTo w z % 2 ^ w : Nat) : Int) = z % 2 ^ w := by
  push_cast
  rw [wrapTo_cast, Int.emod_emod_of_dvd _ dvd_rfl]

/-- An element is the value it stands for, modulo 2^w. -/
theorem valueOf_mod (t : Ty) (n : Nat) : valueOf t n % 2 ^ t.width = (n : Int) % 2 ^ t.width := by
  unfold valueOf
  split
  · exact Int.sub_emod_right _ _
  · rfl

theorem clamp_eq (t : Ty) (z : Int) :
    t.clamp z = max (if t.isSigned then -(2 ^ (t.width - 1)) else 0) (min (if t.isSigned then 2 ^ (t.width - 1) - 1 else 2 ^ t.width - 1) z) := by
  unfold Ty.clamp Ty.minInt Ty.maxInt
  by_cases signed : t.isSigned = true <;> simp [signed]

/-! ## The instructions (R201, R202) -/

/-- An element-wise instruction of two operands whose elements are right is right. -/
theorem elements_of_bin {s s1 : State} {f : CFields} {r : CRow} {x : CIn} {i : Instr} {lat : Nat} {g : Nat → Nat → Nat}
    {e : Nat → Nat → Int} (runs : exec i s = vbin i f lat (map2 f.dt.width g) s)
    (right : ∀ l j, ((g (elemOf f.dt.width (x.a.at l) j) (elemOf f.dt.width (x.b.at l) j) % 2 ^ f.dt.width : Nat) : Int)
      = e l j % 2 ^ f.dt.width) (h : Issues i r { imm := some f.dt, free := true } s x s1) :
    ∃ v, Writes i r s s1 x lat v ∧ ∀ l j, j < 32 / f.dt.width → (elemOf f.dt.width (v l) j : Int) = e l j % 2 ^ f.dt.width :=
  ⟨_, writes_of_lanes runs h, fun l j hj => by rw [elemOf_map2 _ _ _ hj, right]⟩

/-- The same for one operand. -/
theorem elements_of_un {s s1 : State} {f : CFields} {r : CRow} {x : CIn} {i : Instr} {lat : Nat} {g : Nat → Nat}
    {e : Nat → Nat → Int} (runs : exec i s = vun i lat (map1 f.dt.width g) s)
    (right : ∀ l j, ((g (elemOf f.dt.width (x.a.at l) j) % 2 ^ f.dt.width : Nat) : Int) = e l j % 2 ^ f.dt.width)
    (h : Issues i r { imm := none, free := true } s x s1) :
    ∃ v, Writes i r s s1 x lat v ∧ ∀ l j, j < 32 / f.dt.width → (elemOf f.dt.width (v l) j : Int) = e l j % 2 ^ f.dt.width :=
  ⟨_, writes_of_lanes runs h, fun l j hj => by rw [elemOf_map1 _ _ hj, right]⟩

/-- Settles O23: each instruction is a function of elements, whose result is the exact one modulo 2^w. -/
theorem vectorIntegerElements : Obligations.VectorIntegerElements := by
  intro s s1 f r x w a b c ua sa n lo hi pos narrow
  have va (l j : Nat) : intVal f.dt (elemOf w (x.a.at l) j) = a l j := intVal_eq (elemOf_lt _ _ _)
  have vb (l j : Nat) : intVal f.dt (elemOf w (x.b.at l) j) = b l j := intVal_eq (elemOf_lt _ _ _)
  have vs (l j : Nat) : signedOf w (elemOf w (x.a.at l) j) = sa l j := signedOf_eq pos (elemOf_lt _ _ _)
  have ma (l j : Nat) : a l j % 2 ^ w = (ua l j : Int) % 2 ^ w := valueOf_mod _ _
  have mb (l j : Nat) : b l j % 2 ^ w = (elemOf w (x.b.at l) j : Int) % 2 ^ w := valueOf_mod _ _
  have mc (l j : Nat) : c l j % 2 ^ w = (elemOf w (x.c.at l) j : Int) % 2 ^ w := valueOf_mod _ _
  simp only [List.forall_mem_cons, List.not_mem_nil, false_imp_iff, implies_true, and_true]
  refine ⟨elements_of_bin (exec_vadd f s) fun l j => ?_, elements_of_bin (exec_vsub f s) fun l j => ?_,
    elements_of_bin (exec_vmul f s) fun l j => ?_, elements_of_bin (exec_vmulhi f s) fun l j => ?_, fun h => ?_,
    elements_of_bin (exec_vadds f s) fun l j => ?_, elements_of_bin (exec_vsubs f s) fun l j => ?_,
    elements_of_bin (exec_vshl f s) fun l j => ?_, elements_of_bin (exec_vshr f s) fun l j => ?_,
    elements_of_bin (exec_vsar f s) fun l j => ?_, elements_of_bin (exec_vmin f s) fun l j => ?_,
    elements_of_bin (exec_vmax f s) fun l j => ?_, elements_of_un (exec_vabs f s) fun l j => ?_,
    elements_of_un (exec_vneg f s) fun l j => ?_⟩
  · rw [wrapTo_mod, va, vb]
  · rw [wrapTo_mod, va, vb]
  · rw [wrapTo_mod, va, vb]
  · rw [mulHigh, wrapTo_mod, va, vb]
    push_cast
    rfl
  · refine ⟨_, writes_of_lanes (exec_vmad f s) h, fun l j hj => ?_⟩
    rw [elemOf_map3 _ _ _ _ hj]
    push_cast
    rw [Int.emod_emod_of_dvd _ dvd_rfl, Int.add_emod, Int.mul_emod, ← mb, ← mc, show ((elemOf f.dt.width (x.a.at l) j : Nat) : Int) % 2 ^ w = _ from (ma l j).symm,
      ← Int.mul_emod, ← Int.add_emod]
  · rw [wrapTo_mod, clamp_eq, va, vb]
  · rw [wrapTo_mod, clamp_eq, va, vb]
  · push_cast
    rfl
  · push_cast
    rfl
  · rw [wrapTo_mod, vs]
    push_cast
    rfl
  · rw [va, vb, min_def]
    split
    · exact ma l j ▸ Int.natCast_emod ..
    · exact mb l j ▸ Int.natCast_emod ..
  · rw [va, vb, max_def]
    split
    · exact mb l j ▸ Int.natCast_emod ..
    · exact ma l j ▸ Int.natCast_emod ..
  · rw [wrapTo_mod, vs, Int.abs_eq_natAbs]
  · rw [wrapTo_mod, vs]

end Sys2Proof.Machine
end


section
/-! PROOFS. The whole-lane instructions: counts, bit fields, packing. -/

namespace Sys2Proof.Machine

open Sys2Proof

/-! ## Counts (R201) -/

/-- The leading zeros of a word bound it between two powers of two. -/
theorem clz_bounds (a : Word) :
    let z := (BitVec.ofNat 32 (if a = 0#32 then 32 else 31 - a.toNat.log2)).toNat
    z ≤ 32 ∧ a.toNat < 2 ^ (32 - z) ∧ (a ≠ 0#32 → 2 ^ (31 - z) ≤ a.toNat) := by
  intro z
  by_cases zero : a = 0#32
  · have hz : z = 32 := by simp [z, zero]
    rw [hz, zero]
    exact ⟨le_refl _, by decide, fun h => absurd rfl h⟩
  · have pos : a.toNat ≠ 0 := fun h => zero (BitVec.eq_of_toNat_eq h)
    have top : a.toNat.log2 < 32 := (Nat.log2_lt pos).2 a.isLt
    have hz : z = 31 - a.toNat.log2 := by
      simp only [z, if_neg zero, BitVec.toNat_ofNat]
      omega
    rw [hz, show 32 - (31 - a.toNat.log2) = a.toNat.log2 + 1 by omega, show 31 - (31 - a.toNat.log2) = a.toNat.log2 by omega]
    exact ⟨by omega, Nat.lt_log2_self, fun _ => Nat.log2_self_le pos⟩

/-! ## Bit fields (R205) -/

theorem fieldOf_eq (b : Word) : fieldOf b = (b.toNat % 32, min (b.toNat / 256 % 64) (32 - b.toNat % 32)) := by
  simp [fieldOf, bitsOf]

theorem testBit_bitsOf (x p n k : Nat) : (bitsOf x p n).testBit k = (decide (k < n) && x.testBit (p + k)) := by
  rw [bitsOf, Nat.testBit_mod_two_pow, Nat.testBit_div_two_pow, Nat.add_comm k p]

/-- The bits of a field that is zero-extended. -/
theorem getLsbD_field (a : Word) (p n k : Nat) (hk : k < 32) :
    (BitVec.ofNat 32 (bitsOf a.toNat p n)).getLsbD k = if k < n then a.getLsbD (p + k) else false := by
  rw [BitVec.getLsbD_ofNat, testBit_bitsOf, decide_eq_true hk, Bool.true_and, BitVec.getLsbD]
  split <;> simp [*]

/-- A number read as signed is the integer of the bits. -/
theorem signedOf_ofNat {n v : Nat} (hn : 0 < n) (hv : v < 2 ^ n) : signedOf n v = (BitVec.ofNat n v).toInt := by
  have double : 2 ^ n = 2 * 2 ^ (n - 1) := by
    rw [← pow_succ']
    congr 1
    omega
  rw [signedOf_eq hn hv, BitVec.toInt_eq_toNat_cond, BitVec.toNat_ofNat, Nat.mod_eq_of_lt hv, double]
  by_cases high : 2 ^ (n - 1) ≤ v
  · rw [if_pos high, if_neg (by omega)]
    have double' : (2 : Int) ^ n = 2 * 2 ^ (n - 1) := by exact_mod_cast double
    push_cast
    rw [double']
  · rw [if_neg high, if_pos (by omega)]

/-- The bits of a field that is sign-extended: those of the field, and its highest above them. -/
theorem getLsbD_signedField (a : Word) (p n k : Nat) (hn : n ≠ 0) (hk : k < 32) :
    (BitVec.ofInt 32 (signedOf n (bitsOf a.toNat p n))).getLsbD k = if k < n then a.getLsbD (p + k) else a.getLsbD (p + n - 1) := by
  have small : bitsOf a.toNat p n < 2 ^ n := Nat.mod_lt _ (by positivity)
  rw [signedOf_ofNat (Nat.pos_of_ne_zero hn) small]
  change ((BitVec.ofNat n (bitsOf a.toNat p n)).signExtend 32).getLsbD k = _
  rw [BitVec.getLsbD_signExtend, decide_eq_true hk, Bool.true_and]
  split
  · rename_i low
    rw [BitVec.getLsbD_ofNat, testBit_bitsOf, decide_eq_true low]
    rfl
  · rw [BitVec.msb_eq_getLsbD_last, BitVec.getLsbD_ofNat, testBit_bitsOf, decide_eq_true (by omega : n - 1 < n),
      show p + (n - 1) = p + n - 1 by omega]
    rfl

theorem getLsbD_bfe (s32 : Prop) [Decidable s32] (a : Word) (p n k : Nat) (hk : k < 32) :
    (if n = 0 then 0#32 else if s32 then BitVec.ofInt 32 (signedOf n (bitsOf a.toNat p n))
      else BitVec.ofNat 32 (bitsOf a.toNat p n)).getLsbD k =
    if k < n then a.getLsbD (p + k) else if s32 ∧ n ≠ 0 then a.getLsbD (p + n - 1) else false := by
  by_cases none_ : n = 0
  · simp [none_]
  · by_cases signed : s32
    · simp only [none_, signed, if_false, if_true, ne_eq, not_false_eq_true, and_self]
      exact getLsbD_signedField a p n k none_ hk
    · simp only [none_, signed, if_false, false_and]
      exact getLsbD_field a p n k hk

/-- A number with a field of it replaced: what stands above the field, the field, and what stands below. -/
theorem replaceField_eq (c f p n : Nat) :
    c - bitsOf c p n * 2 ^ p + f * 2 ^ p = 2 ^ p * (2 ^ n * (c / 2 ^ (p + n)) + f) + c % 2 ^ p := by
  have parts : c = 2 ^ p * (2 ^ n * (c / 2 ^ (p + n)) + bitsOf c p n) + c % 2 ^ p := by
    rw [bitsOf, pow_add, ← Nat.div_div_eq_div_mul, Nat.div_add_mod, Nat.div_add_mod]
  have spread (y : Nat) : 2 ^ p * (2 ^ n * (c / 2 ^ (p + n)) + y) = 2 ^ p * (2 ^ n * (c / 2 ^ (p + n))) + y * 2 ^ p := by ring
  rw [spread] at parts ⊢
  omega

theorem getLsbD_bfi (a c : Word) (p n k : Nat) (hk : k < 32) :
    (BitVec.ofNat 32 (c.toNat - bitsOf c.toNat p n * 2 ^ p + bitsOf a.toNat 0 n * 2 ^ p)).getLsbD k =
      if p ≤ k ∧ k < p + n then a.getLsbD (k - p) else c.getLsbD k := by
  have low : c.toNat % 2 ^ p < 2 ^ p := Nat.mod_lt _ (by positivity)
  have field : bitsOf a.toNat 0 n < 2 ^ n := Nat.mod_lt _ (by positivity)
  rw [BitVec.getLsbD_ofNat, decide_eq_true hk, Bool.true_and, replaceField_eq, Nat.testBit_two_pow_mul_add _ low,
    Nat.testBit_two_pow_mul_add _ field, Nat.testBit_mod_two_pow, testBit_bitsOf, Nat.testBit_div_two_pow]
  by_cases below : k < p
  · rw [if_pos below, if_neg (by omega), decide_eq_true below]
    rfl
  · rw [if_neg below]
    by_cases inside : k - p < n
    · rw [if_pos inside, if_pos (by omega), decide_eq_true inside, zero_add]
      rfl
    · rw [if_neg inside, if_neg (by omega), show k - p - n + (p + n) = k by omega]
      rfl

/-! ## Packing (R206, R207) -/

/-- The conversion of VPACK, from a type of twice the width. -/
theorem intToInt_mod {src dst : Ty} (narrower : dst.width ≤ src.width) (sat : Bool) {n : Nat} (hn : n < 2 ^ src.width) :
    ((intToInt src dst sat n % 2 ^ dst.width : Nat) : Int) =
      (if sat then max dst.minInt (min dst.maxInt (valueOf src n)) else valueOf src n) % 2 ^ dst.width := by
  have value : (if src.isSigned then signedOf src.width n else (n % 2 ^ src.width : Nat) : Int) = valueOf src n := intVal_eq hn
  simp only [intToInt, value, wrapTo_mod, decide_eq_true narrower, Bool.and_true]
  rfl

theorem widerTy_width {t : Ty} (h : t.width = 8 ∨ t.width = 16) : 2 * t.width ≤ (widerTy t).width := by
  revert h
  cases t <;> decide

/-- The lane of a VUNPK: byte elements widened. -/
def unpackBytes (f : CFields) (a : Word) : Word :=
  elems f.dt.width (fun i =>
    let b := elemAt 8 a (f.x.toNat * (32 / f.dt.width) + i)
    if f.dt.isSigned then wrapTo f.dt.width (signedOf 8 b) else b)

theorem exec_vunpk_un (f : CFields) (s : State) : exec (.vunpk f) s = vun (.vunpk f) 2 (unpackBytes f) s := rfl

theorem writes_of_un {s s1 : State} {r : CRow} {x : CIn} {i : Instr} {lat : Nat} {g : Word → Word}
    (runs : exec i s = vun i lat g s) (h : Issues i r { imm := none, free := true } s x s1) :
    Writes i r s s1 x lat (fun l => g (x.a.at l)) :=
  writes_of_lanes (v := fun x _ l => g (x.a.at l)) runs h

theorem writes_of_bin32 {s s1 : State} {r : CRow} {x : CIn} {i : Instr} {g : Word → Word → Word}
    (runs : exec i s = vbin32 i g s) (h : Issues i r { imm := none, free := true } s x s1) :
    Writes i r s s1 x 2 (fun l => g (x.a.at l) (x.b.at l)) :=
  writes_of_lanes (v := fun x _ l => g (x.a.at l) (x.b.at l)) runs h

/-- Settles O24: each instruction is a function of its lanes' words; what the bits of its result are is said above. -/
theorem vectorWordResults : Obligations.VectorWordResults := by
  intro s s1 f r x i A B C w p n h
  refine ⟨?_, ?_, ?_, ?_, ?_, ?_, ?_, ?_, ?_, ?_, ?_⟩ <;> rintro rfl
  · exact writes_of_bin32 (exec_vand f s) h
  · exact writes_of_bin32 (exec_vor f s) h
  · exact writes_of_bin32 (exec_vxor f s) h
  · exact writes_of_un (exec_vnot f s) h
  · exact writes_of_lanes (v := fun x _ l => x.b.at l) (exec_vmov f s) h
  · exact writes_of_un (g := fun a => BitVec.ofNat 32 ((List.range 32).countP a.getLsbD)) (exec_vpopc f s) h
  · exact ⟨_, writes_of_un (exec_vclz f s) h, fun l => clz_bounds (A l)⟩
  · refine ⟨_, writes_of_lanes (exec_vbfe f s) h, fun l k hk => ?_⟩
    dsimp only
    rw [fieldOf_eq]
    exact getLsbD_bfe (f.dt = .s32) (A l) (p l) (n l) k hk
  · refine ⟨_, writes_of_lanes (exec_vbfi f s) h, fun l k hk => ?_⟩
    dsimp only
    rw [fieldOf_eq]
    exact getLsbD_bfi (A l) (C l) (p l) (n l) k hk
  · intro width
    refine ⟨_, writes_of_lanes (exec_vpack f s) h, fun l j hj => ?_⟩
    rw [elemOf_elems _ hj]
    have wide := widerTy_width (t := f.dt) width
    refine intToInt_mod (by omega) f.sat ?_
    have small (y : Word) (j : Nat) : elemOf (2 * w) y j < 2 ^ (widerTy f.dt).width :=
      (elemOf_lt _ _ _).trans_le (Nat.pow_le_pow_right (by norm_num) wide)
    split
    · exact small _ _
    · exact small _ _
  · intro width
    refine ⟨_, writes_of_un (exec_vunpk_un f s) h, fun l j hj => ?_⟩
    have byte : elemOf 8 (A l) (f.x.toNat * (32 / w) + j) < 2 ^ 8 := elemOf_lt ..
    rw [unpackBytes, elemOf_elems _ hj]
    by_cases signed : f.dt.isSigned = true
    · simp only [signed, if_true, true_and]
      rw [wrapTo_mod]
      exact congrArg (· % (2 : Int) ^ w) (signedOf_eq (by norm_num) byte)
    · simp only [signed]
      push_cast
      rfl

end Sys2Proof.Machine
end


section
/-! PROOFS. Compares, selection and votes: bits of a predicate, and the participating lanes of a tile. -/

namespace Sys2Proof.Machine

open Sys2Proof

/-- An instruction of fixed latency that writes once, and has no cost on a path without lanes, completes with that write. -/
theorem completes_of_fxWrite {i : Instr} {r : CRow} {sp : CSpec} {s s1 : State} {x : CIn} {body : CIn → State → CRes} {lat : Nat} {d : Dst}
    {vals : List Word} {lbl : Label} (h : Issues i r sp s x s1) (free : sp.free = true)
    (writes : body x s1 = .done (s1.fxWrite x lat d vals lbl) 1) :
    Completes (cIssue i sp body s) (fun t => Passed s (s1.setGrp (s1.grp.schedule
      { x.later (s1.laneLat lat) d lbl (fun _ => 0#32) with vals := vals })) t x (oneCycle r s x)) := by
  have done := completes_of_done h writes
  rw [free, Bool.true_and] at done
  exact done

/-! ## Compares (R203, R210) -/

/-- The bits of a compare: those of the lanes in which the condition holds of every element. -/
def compareBits (w : Nat) (c : Nat → Nat → Bool) (x : CIn) : Word :=
  BitVec.ofNat 32 (maskOf 32 (fun l => (List.range (32 / w)).all (fun j => c (elemAt w (x.a.at l) j) (elemAt w (x.b.at l) j))))

/-- Bit `l` of a compare's predicate says that the condition holds of every element of lane `l`. -/
theorem compares_of {s s1 : State} {f : CFields} {r : CRow} {x : CIn} {i : Instr} {c : Nat → Nat → Nat → Bool}
    {holds : Nat → Nat → Prop} (runs : exec i s = vcompare i f c s)
    (same : ∀ l j, c (f.dst.toNat / 8) (elemOf f.dt.width (x.a.at l) j) (elemOf f.dt.width (x.b.at l) j) = true ↔ holds l j)
    (h : Issues i r { imm := some f.dt, free := true } s x s1) :
    ∃ bits : Word, (∀ l, l < 32 → (bits.getLsbD l = true ↔ ∀ j, j < 32 / f.dt.width → holds l j)) ∧
      Completes (exec i s) (fun t => Passed s (s1.setGrp (s1.grp.schedule
        { x.later (s1.laneLat 2) (.pred (f.dst.toNat % 8)) x.joined (fun _ => 0#32) with vals := [bits] })) t x (oneCycle r s x)) := by
  refine ⟨compareBits f.dt.width (c (f.dst.toNat / 8)) x, fun l hl => ?_, ?_⟩
  · rw [compareBits, BitVec.getLsbD_ofNat, testBit_maskOf, decide_eq_true hl, Bool.true_and, Bool.true_and, List.all_eq_true]
    simp only [List.mem_range]
    exact forall₂_congr fun j _ => same l j
  · rw [runs, vcompare, ← CIn.label_joined]
    exact completes_of_fxWrite h rfl rfl

theorem intCond_iff (c : Nat) (a b : Int) : intCond c a b = true ↔ match c with
    | 0 => a = b | 1 => a ≠ b | 2 => a < b | 3 => a ≤ b | 4 => b < a | _ => b ≤ a := by
  unfold intCond
  split <;> simp

theorem floatCond_iff (c : Nat) (a b : FV) : floatCond c a b = true ↔ match c with
    | 0 => a.eq b = true | 1 => ¬ a.eq b = true | 2 => a.lt b = true | 3 => a.lt b = true ∨ a.eq b = true | 4 => b.lt a = true
    | 5 => b.lt a = true ∨ a.eq b = true | _ => a = .nan ∨ b = .nan := by
  unfold floatCond
  split <;> simp

/-! ## Votes (R221) -/

/-- The lanes of a vote: those of the lane's tile that participate. -/
def voters (t : Nat) (written : Word) (l : Nat) : List Nat :=
  ((List.range t).map (fun j => l - l % t + j)).filter (fun m => written.getLsbD m)

theorem mem_voters {t l : Nat} (ht : t ∈ [2, 4, 8, 16, 32]) (hl : l < 32) (written : Word) (m : Nat) :
    m ∈ voters t written l ↔ m ∈ (List.range 32).filter (fun m => m / t == l / t && written.getLsbD m) := by
  have inTile : (∃ j, j < t ∧ l - l % t + j = m) ↔ m < 32 ∧ m / t = l / t := by
    simp only [List.mem_cons, List.not_mem_nil, or_false] at ht
    constructor
    · rintro ⟨j, hj, rfl⟩
      rcases ht with rfl | rfl | rfl | rfl | rfl <;> omega
    · rintro ⟨hm, same⟩
      refine ⟨m - (l - l % t), ?_, ?_⟩ <;> rcases ht with rfl | rfl | rfl | rfl | rfl <;> omega
  simp only [voters, List.mem_filter, List.mem_map, List.mem_range, inTile, Bool.and_eq_true, beq_iff_eq, and_assoc]

/-- What a vote answers of the lanes that vote. -/
def voteOf (x : Nat) (ls : List Nat) (p : Word) : Word :=
  match x with
  | 0 => if ls.all (fun m => p.getLsbD m) then 1#32 else 0#32
  | 1 => if ls.any (fun m => p.getLsbD m) then 1#32 else 0#32
  | 2 => BitVec.ofNat 32 (maskOf 32 (fun m => ls.contains m && p.getLsbD m))
  | _ => if ls.all (fun m => p.getLsbD m) || !ls.any (fun m => p.getLsbD m) then 1#32 else 0#32

/-- A vote that is a truth value, by what the truth value decides. -/
theorem vote_congr {b : Bool} {p : Prop} [Decidable p] (h : b = true ↔ p) :
    (if b then 1#32 else 0#32) = if p then 1#32 else 0#32 := by simp only [h]

theorem voteOf_spec {ls tile : List Nat} (same : ∀ m, m ∈ ls ↔ m ∈ tile) (p : Word) :
    (voteOf 0 ls p = if ∀ m ∈ tile, p.getLsbD m = true then 1#32 else 0#32) ∧
    (voteOf 1 ls p = if ∃ m ∈ tile, p.getLsbD m = true then 1#32 else 0#32) ∧
    (∀ m, m < 32 → ((voteOf 2 ls p).getLsbD m = true ↔ m ∈ tile ∧ p.getLsbD m = true)) ∧
    (voteOf 3 ls p = if ∀ m ∈ tile, ∀ q ∈ tile, p.getLsbD m = p.getLsbD q then 1#32 else 0#32) := by
  refine ⟨vote_congr ?_, vote_congr ?_, fun m hm => ?_, vote_congr ?_⟩
  · simp only [List.all_eq_true, same]
  · simp only [List.any_eq_true, same]
  · rw [voteOf, BitVec.getLsbD_ofNat, testBit_maskOf, decide_eq_true hm, Bool.true_and, Bool.true_and, Bool.and_eq_true,
      List.contains_iff_mem, same]
  · simp only [Bool.or_eq_true, Bool.not_eq_true', List.all_eq_true, List.any_eq_false, same, Bool.not_eq_true]
    constructor
    · rintro (all | none_) m hm q hq
      · rw [all m hm, all q hq]
      · rw [none_ m hm, none_ q hq]
    · intro equal
      by_cases some_ : ∃ m ∈ tile, p.getLsbD m = true
      · obtain ⟨m, hm, set⟩ := some_
        exact .inl fun q hq => equal q hq m hm ▸ set
      · exact .inr fun m hm => Bool.eq_false_iff.2 fun set => some_ ⟨m, hm, set⟩

theorem execVvote_completes {s s1 : State} {f : CFields} {r : CRow} {x : CIn} (h : Issues (.vvote f) r { free := true } s x s1) :
    Completes (exec (.vvote f) s) (fun t => Passed s (s1.setGrp (s1.grp.schedule (x.later (s1.laneLat 4) (.reg f.dst.toNat)
      (x.k ||| (s1.grp.pred f.sa.toNat).lbl)
      (fun l => voteOf f.x.toNat (voters s1.grp.tilew x.written l) (s1.grp.pred f.sa.toNat).mask)))) t x (oneCycle r s x)) := by
  rw [exec_vvote, execVvote]
  exact completes_of_fxWrite (vals := lanesOf (fun l => voteOf f.x.toNat (voters s1.grp.tilew x.written l)
    (s1.grp.pred f.sa.toNat).mask)) h rfl rfl

/-- Settles O25: a compare is its condition on every element, VSEL a choice per lane, a vote a statement about the tile's lanes. -/
theorem comparisonsAndVotes : Obligations.ComparisonsAndVotes := by
  intro s s1 f r x i w ea eb a b fa fb cond icond fcond compares pa pc tile
  refine ⟨?_, ?_, ?_, ?_⟩ <;> rintro rfl h
  · refine compares_of (exec_vcmp f s) (fun l j => ?_) h
    rw [intVal_eq (elemOf_lt ..), intVal_eq (elemOf_lt ..)]
    exact intCond_iff ..
  · exact compares_of (exec_vfcmp f s) (fun l j => floatCond_iff ..) h
  · rw [exec_vsel, execVsel, ← CIn.label_joined]
    exact completes_of_fxWrite h rfl rfl
  · intro ht
    refine ⟨_, execVvote_completes h, fun l hl => ?_⟩
    obtain ⟨all, any, ballot, equal⟩ := voteOf_spec (mem_voters ht hl x.written) pa.mask
    refine ⟨fun mode => ?_, fun mode => ?_, fun mode => ?_, fun mode => ?_⟩ <;> rw [mode]
    · exact all
    · exact any
    · exact ballot
    · exact equal

end Sys2Proof.Machine
end


section
/-! PROOFS. The floating instructions: one rounding of the exact result, the order of MIN and MAX, the sign bit, and the classes. -/

namespace Sys2Proof.Machine

open Sys2Proof

/-- The type is one of the three formats of the floating instructions (R208). -/
def Ty.isIeee (t : Ty) : Prop := t ∈ [Ty.f32, .f16, .bf16]

/-- The fraction and exponent bits and the canonical NaN of the three formats (R82). -/
def fracBits (t : Ty) : Nat := if t = .f32 then 23 else if t = .f16 then 10 else 7

def expBits (t : Ty) : Nat := if t = .f16 then 5 else 8

def canonicalNan (t : Ty) : Nat := if t = .f32 then 0x7FC00000 else if t = .f16 then 0x7E00 else 0x7FC0

/-- Each of the three is the IEEE-like format of these parameters. -/
theorem ofTy_of_ieee {t : Ty} (h : Ty.isIeee t) : ∃ F : Fmt, Fmt.ofTy t = some F ∧ F.eb = expBits t ∧ F.fb = fracBits t ∧ F.kind = .ieee ∧
    F.cnan = canonicalNan t ∧ t.width = 1 + F.eb + F.fb := by
  simp only [Ty.isIeee, List.mem_cons, List.not_mem_nil, or_false] at h
  rcases h with rfl | rfl | rfl <;> exact ⟨_, rfl, rfl, rfl, rfl, rfl, rfl⟩

/-! ## Codes of an IEEE-like format (R82, R85, R211) -/

/-- The sign bit of a code. -/
theorem sign_bit {n e : Nat} (h : n < 2 ^ (1 + e)) : bitOf n e = decide (2 ^ (1 + e - 1) ≤ n) := by
  have := bitOf_top (w := 1 + e) (by omega) h
  rwa [show 1 + e - 1 = e by omega] at this ⊢

theorem dyadic_fin (neg : Bool) (m : Nat) (x : Int) : ∃ n d, FV.dyadic neg m x = .fin neg n d := by
  unfold FV.dyadic
  split
  · exact ⟨_, _, rfl⟩
  · exact ⟨_, _, rfl⟩

/-- A code decodes to NaN exactly when its exponent is all ones and its fraction is not zero; otherwise its sign bit is the
sign of its value. -/
theorem decodeFmt_ieee {F : Fmt} (kind : F.kind = .ieee) (z : Nat) :
    (decodeFmt F z = .nan ↔ z / 2 ^ F.fb % 2 ^ F.eb = 2 ^ F.eb - 1 ∧ z % 2 ^ F.fb ≠ 0) ∧
      (decodeFmt F z ≠ .nan → (decodeFmt F z).isNeg = bitOf z (F.eb + F.fb)) := by
  have exponent : z % 2 ^ (F.eb + F.fb) / 2 ^ F.fb = z / 2 ^ F.fb % 2 ^ F.eb := by
    rw [Nat.add_comm, pow_add, Nat.mod_mul_right_div_self]
  have fraction : z % 2 ^ (F.eb + F.fb) % 2 ^ F.fb = z % 2 ^ F.fb :=
    Nat.mod_mod_of_dvd _ (pow_dvd_pow 2 (by omega))
  simp only [decodeFmt, kind, exponent, fraction]
  split
  · split
    · simp_all [FV.isNeg]
    · simp_all
  · rename_i low
    split
    · obtain ⟨n, d, e⟩ := dyadic_fin (bitOf z (F.eb + F.fb)) (z % 2 ^ F.fb) (1 - (F.bias : Int) - F.fb)
      rw [e]
      simp [low, FV.isNeg]
    · obtain ⟨n, d, e⟩ := dyadic_fin (bitOf z (F.eb + F.fb)) (2 ^ F.fb + z % 2 ^ F.fb)
        (((z / 2 ^ F.fb % 2 ^ F.eb : Nat) : Int) - F.bias - F.fb)
      rw [e]
      simp [low, FV.isNeg]

/-- A code of one of the three formats names no number. -/
def isNanCode (t : Ty) (z : Nat) : Bool :=
  z / 2 ^ fracBits t % 2 ^ expBits t == 2 ^ expBits t - 1 && z % 2 ^ fracBits t != 0

/-- A code is below another, −0 below +0, as the claims say it by sign bits. -/
def codeBelow (t : Ty) (y z : Nat) : Bool :=
  (decodeTy t y).lt (decodeTy t z) ||
    ((decodeTy t y).eq (decodeTy t z) && decide (2 ^ (t.width - 1) ≤ y) && !decide (2 ^ (t.width - 1) ≤ z))

theorem decodeTy_ieee {t : Ty} (h : Ty.isIeee t) {z : Nat} (hz : z < 2 ^ t.width) :
    (decodeTy t z = .nan ↔ isNanCode t z = true) ∧ (decodeTy t z ≠ .nan → (decodeTy t z).isNeg = decide (2 ^ (t.width - 1) ≤ z)) := by
  obtain ⟨F, ofTy, eb, fb, kind, -, width⟩ := ofTy_of_ieee h
  have decode : decodeTy t z = decodeFmt F z := by simp only [decodeTy, ofTy]
  obtain ⟨nan, neg⟩ := decodeFmt_ieee kind z
  rw [decode]
  refine ⟨?_, fun num => ?_⟩
  · rw [nan, isNanCode, ← eb, ← fb, Bool.and_eq_true, beq_iff_eq, bne_iff_ne]
  · rw [width, Nat.add_assoc] at hz ⊢
    rw [neg num, sign_bit hz]

theorem below_codes {t : Ty} (h : Ty.isIeee t) {y z : Nat} (hy : y < 2 ^ t.width) (hz : z < 2 ^ t.width) (ny : decodeTy t y ≠ .nan)
    (nz : decodeTy t z ≠ .nan) : (decodeTy t y).below (decodeTy t z) = codeBelow t y z := by
  rw [FV.below, (decodeTy_ieee h hy).2 ny, (decodeTy_ieee h hz).2 nz, codeBelow]

/-- MIN and MAX of codes: the other operand for one NaN, the canonical NaN for two, and otherwise by the order of codes. -/
theorem minMaxNum_eq {t : Ty} (h : Ty.isIeee t) (mx : Bool) {y z : Nat} (hy : y < 2 ^ t.width) (hz : z < 2 ^ t.width) :
    minMaxNum t mx y z = if isNanCode t y then (if isNanCode t z then canonicalNan t else z) else if isNanCode t z then y
      else if mx then (if codeBelow t y z then z else y) else if codeBelow t z y then z else y := by
  obtain ⟨F, ofTy, -, -, -, cnan, -⟩ := ofTy_of_ieee h
  have nanY := (decodeTy_ieee h hy).1
  have nanZ := (decodeTy_ieee h hz).1
  unfold minMaxNum
  simp only [ofTy]
  split
  · rename_i ey ez
    rw [if_pos (nanY.1 ey), if_pos (nanZ.1 ez), cnan]
  · rename_i ey ez
    rw [if_pos (nanY.1 ey), if_neg (fun n => ez (nanZ.2 n))]
  · rename_i ez ey
    rw [if_neg (fun n => ey (nanY.2 n)), if_pos (nanZ.1 ez)]
  · rename_i ey ez _
    have ny : decodeTy t y ≠ .nan := ey
    have nz : decodeTy t z ≠ .nan := ez
    rw [if_neg (fun n => ny (nanY.2 n)), if_neg (fun n => nz (nanZ.2 n)), below_codes h hy hz ny nz, below_codes h hz hy nz ny]

/-- The class of a code, as the claims say it. -/
def classOf (t : Ty) (z : Nat) : Nat :=
  let e := z / 2 ^ fracBits t % 2 ^ expBits t
  let m := z % 2 ^ fracBits t
  let neg := decide (2 ^ (t.width - 1) ≤ z)
  if e = 2 ^ expBits t - 1 then (if m = 0 then (if neg then 2 ^ 0 else 2 ^ 7) else if m < 2 ^ (fracBits t - 1) then 2 ^ 8 else 2 ^ 9)
  else if e = 0 then (if m = 0 then (if neg then 2 ^ 3 else 2 ^ 4) else if neg then 2 ^ 2 else 2 ^ 5)
  else if neg then 2 ^ 1 else 2 ^ 6

theorem fClass_eq {t : Ty} (h : Ty.isIeee t) {z : Nat} (hz : z < 2 ^ t.width) :
    (match Fmt.ofTy t with | some F => fClass F z | none => 0) = classOf t z := by
  obtain ⟨F, ofTy, eb, fb, -, -, width⟩ := ofTy_of_ieee h
  have exponent : z % 2 ^ (F.eb + F.fb) / 2 ^ F.fb = z / 2 ^ F.fb % 2 ^ F.eb := by
    rw [Nat.add_comm, pow_add, Nat.mod_mul_right_div_self]
  have fraction : z % 2 ^ (F.eb + F.fb) % 2 ^ F.fb = z % 2 ^ F.fb :=
    Nat.mod_mod_of_dvd _ (pow_dvd_pow 2 (by omega))
  have sign : bitOf z (F.eb + F.fb) = decide (2 ^ (t.width - 1) ≤ z) := by
    rw [width, Nat.add_assoc] at hz ⊢
    exact sign_bit hz
  simp only [ofTy, fClass, exponent, fraction, sign, classOf, ← eb, ← fb]
  split_ifs <;> rfl

/-! ## The sign bit alone (R209) -/

theorem flipSign_eq {w n : Nat} (hw : 0 < w) (hn : n < 2 ^ w) :
    (n + 2 ^ (w - 1)) % 2 ^ w = if n < 2 ^ (w - 1) then n + 2 ^ (w - 1) else n - 2 ^ (w - 1) := by
  have double : 2 ^ w = 2 * 2 ^ (w - 1) := by
    rw [← pow_succ']
    congr 1
    omega
  rw [double] at hn ⊢
  split
  · exact Nat.mod_eq_of_lt (by omega)
  · rw [Nat.mod_eq_sub_mod (by omega), Nat.mod_eq_of_lt (by omega)]
    omega

/-! ## The instructions (R208 to R211, R215) -/

/-- An element-wise instruction of two operands whose codes are right is right. -/
theorem codes_of_bin {s s1 : State} {f : CFields} {r : CRow} {x : CIn} {i : Instr} {lat : Nat} {g : Nat → Nat → Nat}
    {e : Nat → Nat → Nat} (runs : exec i s = vbin i f lat (map2 f.dt.width g) s)
    (right : ∀ l j, g (elemOf f.dt.width (x.a.at l) j) (elemOf f.dt.width (x.b.at l) j) = e l j)
    (h : Issues i r { imm := some f.dt, free := true } s x s1) :
    ∃ v, Writes i r s s1 x lat v ∧ ∀ l j, j < 32 / f.dt.width → elemOf f.dt.width (v l) j = e l j % 2 ^ f.dt.width :=
  ⟨_, writes_of_lanes runs h, fun l j hj => by rw [elemOf_map2 _ _ _ hj, right]⟩

/-- The same for one operand. -/
theorem codes_of_un {s s1 : State} {f : CFields} {r : CRow} {x : CIn} {i : Instr} {lat : Nat} {g : Nat → Nat}
    {e : Nat → Nat → Nat} (runs : exec i s = vun i lat (map1 f.dt.width g) s)
    (right : ∀ l j, g (elemOf f.dt.width (x.a.at l) j) = e l j) (h : Issues i r { imm := none, free := true } s x s1) :
    ∃ v, Writes i r s s1 x lat v ∧ ∀ l j, j < 32 / f.dt.width → elemOf f.dt.width (v l) j = e l j % 2 ^ f.dt.width :=
  ⟨_, writes_of_lanes runs h, fun l j hj => by rw [elemOf_map1 _ _ hj, right]⟩

/-- Settles O26: every element is the model's function of its operands' elements, which is the exact result rounded once, or is said
by the code's bits. -/
theorem vectorFloatElements : Obligations.VectorFloatElements := by
  intro s s1 f r x w ea eb ec a b c rnd xb fb cnan nan neg below pick cls scale ieee
  have codeA (l j : Nat) : ea l j < 2 ^ w := elemOf_lt ..
  have codeB (l j : Nat) : eb l j < 2 ^ w := elemOf_lt ..
  simp only [List.forall_mem_cons, List.not_mem_nil, false_imp_iff, implies_true, and_true]
  refine ⟨codes_of_bin (exec_vfadd f s) fun l j => rfl, codes_of_bin (exec_vfsub f s) fun l j => rfl,
    codes_of_bin (exec_vfmul f s) fun l j => rfl, fun h => ?_,
    codes_of_bin (exec_vfmin f s) fun l j => minMaxNum_eq ieee false (codeA l j) (codeB l j),
    codes_of_bin (exec_vfmax f s) fun l j => minMaxNum_eq ieee true (codeA l j) (codeB l j),
    codes_of_un (exec_vfabs f s) fun l j => rfl, codes_of_un (exec_vfneg f s) fun l j => flipSign_eq (width_pos _) (codeA l j),
    codes_of_un (exec_vfclass f s) fun l j => fClass_eq ieee (codeA l j), fun h => ?_⟩
  · exact ⟨_, writes_of_lanes (exec_vfma f s) h, fun l j hj => elemOf_map3 _ _ _ _ hj⟩
  · refine ⟨_, writes_of_lanes (exec_vscalb f s) h, fun l j hj => ?_⟩
    rw [elemOf_map2 _ _ _ hj, fScalb, signedOf_eq (width_pos _) (codeB l j)]

end Sys2Proof.Machine
end


section
/-! PROOFS. Cross-lane instructions: which lane of its tile a shuffle reads, the tree of a reduction, and scans. -/

namespace Sys2Proof.Machine

open Sys2Proof

/-! ## The tree of R108 -/

theorem length_pairUp (f : Word → Word → Word) : ∀ (n : Nat) (xs : List Word), xs.length = 2 * n → (pairUp f xs).length = n
  | 0, xs, h => by
    have : xs = [] := List.length_eq_zero_iff.1 (by omega)
    simp [this, pairUp]
  | n + 1, a :: b :: xs, h => by
    simp only [List.length_cons] at h
    simp [pairUp, length_pairUp f n xs (by omega)]

theorem pairUp_append (f : Word → Word → Word) : ∀ (n : Nat) (xs ys : List Word), xs.length = 2 * n →
    pairUp f (xs ++ ys) = pairUp f xs ++ pairUp f ys
  | 0, xs, ys, h => by
    have : xs = [] := List.length_eq_zero_iff.1 (by omega)
    simp [this, pairUp]
  | n + 1, a :: b :: xs, ys, h => by
    simp only [List.length_cons] at h
    simp [pairUp, pairUp_append f n xs ys (by omega)]

/-- The root over 2^(n+1) values combines the roots over the two halves. -/
theorem treeNode_append (f : Word → Word → Word) (n : Nat) (xs ys : List Word) (hx : xs.length = 2 ^ n) (hy : ys.length = 2 ^ n) :
    treeNode f (n + 1) (xs ++ ys) = f (treeNode f n xs) (treeNode f n ys) := by
  induction n generalizing xs ys with
  | zero =>
    obtain ⟨a, rfl⟩ := List.length_eq_one_iff.1 hx
    obtain ⟨b, rfl⟩ := List.length_eq_one_iff.1 hy
    rfl
  | succ n ih =>
    rw [pow_succ'] at hx hy
    rw [treeNode, pairUp_append f _ xs ys hx, ih _ _ (length_pairUp f _ xs hx) (length_pairUp f _ ys hy)]
    rfl

/-- The scan of R109, one binary digit of the count at a time. -/
def scanStep (f : Word → Word → Word) (xs : List Word) (n : Nat) (a : Option Word × Nat) (j : Nat) : Option Word × Nat :=
  if bitOf n j then
    (some (match a.1 with | none => treeNode f j ((xs.drop a.2).take (2 ^ j)) | some v => f v (treeNode f j ((xs.drop a.2).take (2 ^ j)))),
      a.2 + 2 ^ j)
  else a

theorem scanAt_eq (f : Word → Word → Word) (xs : List Word) (i : Nat) :
    scanAt f xs i = ([5, 4, 3, 2, 1, 0].foldl (scanStep f xs (i + 1)) (none, 0)).1.getD 0#32 := rfl

/-- The scan at the last of 2^n values is the root over them. -/
theorem scanAt_last (f : Word → Word → Word) (n : Nat) (xs : List Word) (hn : n ≤ 5) (hx : xs.length = 2 ^ n) :
    scanAt f xs (2 ^ n - 1) = treeNode f n xs := by
  have whole : xs.take (2 ^ n) = xs := List.take_of_length_le hx.le
  rw [scanAt_eq, Nat.sub_add_cancel Nat.one_le_two_pow]
  interval_cases n <;> exact congrArg (treeNode f _) whole

section
variable {f : Word → Word → Word} {e : Word} (assoc : ∀ a b c, f (f a b) c = f a (f b c)) (left : ∀ a, f e a = a) (right : ∀ a, f a e = a)
include assoc left right

omit left in
/-- A fold of an associative operation with an identity goes over an append. -/
theorem foldl_append_assoc (xs ys : List Word) : (xs ++ ys).foldl f e = f (xs.foldl f e) (ys.foldl f e) := by
  have pull (a b : Word) (zs : List Word) : zs.foldl f (f a b) = f a (zs.foldl f b) := by
    induction zs generalizing b with
    | nil => rfl
    | cons z zs ih => rw [List.foldl_cons, assoc, ih, List.foldl_cons]
  rw [List.foldl_append, ← pull, right]

/-- The tree of an associative operation is its fold. -/
theorem treeNode_eq_foldl (n : Nat) (xs : List Word) (hx : xs.length = 2 ^ n) : treeNode f n xs = xs.foldl f e := by
  induction n generalizing xs with
  | zero =>
    obtain ⟨a, rfl⟩ := List.length_eq_one_iff.1 hx
    exact (left a).symm
  | succ n ih =>
    have len : xs.length = 2 ^ n + 2 ^ n := by rw [hx, pow_succ]; omega
    have first : (xs.take (2 ^ n)).length = 2 ^ n := by rw [List.length_take]; omega
    have second : (xs.drop (2 ^ n)).length = 2 ^ n := by rw [List.length_drop]; omega
    have root := treeNode_append f n _ _ first second
    rw [List.take_append_drop, ih _ first, ih _ second, ← foldl_append_assoc assoc right, List.take_append_drop] at root
    exact root

/-- After the digits of a count from `J` up, the scan has folded the values that they count. -/
def ScannedTo (f : Word → Word → Word) (e : Word) (xs : List Word) (n J : Nat) (a : Option Word × Nat) : Prop :=
  a.2 = n / 2 ^ J * 2 ^ J ∧ (a.2 = 0 → a.1 = none) ∧ (a.2 ≠ 0 → a.1 = some ((xs.take a.2).foldl f e))

theorem scanStep_scanned {xs : List Word} {n J : Nat} {a : Option Word × Nat} (enough : n ≤ xs.length)
    (h : ScannedTo f e xs n (J + 1) a) : ScannedTo f e xs n J (scanStep f xs n a J) := by
  obtain ⟨pos, none_, some_⟩ := h
  have digit : n / 2 ^ J * 2 ^ J = a.2 + n / 2 ^ J % 2 * 2 ^ J := by
    rw [pos, pow_succ, ← Nat.div_div_eq_div_mul]
    have := Nat.div_add_mod (n / 2 ^ J) 2
    generalize n / 2 ^ J = q at *
    calc q * 2 ^ J = (2 * (q / 2) + q % 2) * 2 ^ J := by rw [this]
      _ = _ := by ring
  have le : n / 2 ^ J * 2 ^ J ≤ n := Nat.div_mul_le_self ..
  unfold scanStep
  split
  · rename_i set
    have one : n / 2 ^ J % 2 = 1 := by simpa [bitOf] using set
    rw [one, one_mul] at digit
    have len : ((xs.drop a.2).take (2 ^ J)).length = 2 ^ J := by
      rw [List.length_take, List.length_drop]
      omega
    have pos' : 0 < 2 ^ J := by positivity
    refine ⟨digit.symm, fun zero => absurd zero (by simp), fun _ => congrArg some ?_⟩
    dsimp only
    rw [List.take_add, foldl_append_assoc assoc right, treeNode_eq_foldl assoc left right J _ len]
    by_cases zero : a.2 = 0
    · rw [none_ zero, zero]
      exact (left _).symm
    · rw [some_ zero]
  · rename_i clear
    have zero : n / 2 ^ J % 2 = 0 := by
      have : ¬ n / 2 ^ J % 2 = 1 := by simpa [bitOf] using clear
      omega
    rw [zero, zero_mul, add_zero] at digit
    exact ⟨digit.symm, none_, some_⟩

/-- The inclusive scan of an associative operation is the fold of the values up to there. -/
theorem scanAt_eq_foldl {xs : List Word} {i : Nat} (small : i < 32) (enough : i < xs.length) :
    scanAt f xs i = (xs.take (i + 1)).foldl f e := by
  have step {J a} := scanStep_scanned assoc left right (xs := xs) (n := i + 1) (J := J) (a := a) enough
  have start : ScannedTo f e xs (i + 1) 6 (none, 0) := ⟨by norm_num; omega, fun _ => rfl, fun h => absurd rfl h⟩
  obtain ⟨pos, -, some_⟩ := step (step (step (step (step (step start)))))
  rw [pow_zero, Nat.div_one, Nat.mul_one] at pos
  rw [scanAt_eq]
  simp only [List.foldl]
  rw [some_ (by omega), pos]
  rfl

end

/-! ## The operators on integers (R110, R222) -/

theorem intVal_s32 (a : Word) : intVal .s32 a.toNat = a.toInt := by
  refine (signedOf_ofNat (n := 32) (by norm_num) a.isLt).trans ?_
  rw [BitVec.ofNat_toNat, BitVec.setWidth_eq]

theorem intVal_z32 (a : Word) : intVal .z32 a.toNat = (a.toNat : Int) :=
  congrArg Nat.cast (Nat.mod_eq_of_lt a.isLt)

/-- Words of an integer type are told apart by their values. -/
theorem intVal_inj {t : Ty} (ht : t ∈ [Ty.s32, .z32]) {a b : Word} (h : intVal t a.toNat = intVal t b.toNat) : a = b := by
  simp only [List.mem_cons, List.not_mem_nil, or_false] at ht
  rcases ht with rfl | rfl
  · rw [intVal_s32, intVal_s32] at h
    exact BitVec.eq_of_toInt_eq h
  · rw [intVal_z32, intVal_z32] at h
    exact BitVec.eq_of_toNat_eq (by exact_mod_cast h)

section
variable {t : Ty} (ht : t ∈ [Ty.s32, .z32]) (rm : RM) {op : Nat} (hop : op ≤ 5)
include ht

theorem not_f32 : t ≠ .f32 := by
  rintro rfl
  simp at ht

/-- The greatest and the least value of an integer type are the identities of MIN and MAX. -/
theorem identity_bounds (a : Word) : intVal t a.toNat ≤ intVal t (redIdentity t 1).toNat ∧ intVal t (redIdentity t 2).toNat ≤ intVal t a.toNat := by
  have lo := BitVec.le_toInt a
  have hi := BitVec.toInt_lt (x := a)
  have lt := a.isLt
  simp only [List.mem_cons, List.not_mem_nil, or_false] at ht
  rcases ht with rfl | rfl
  · rw [intVal_s32, intVal_s32, intVal_s32, show (redIdentity .s32 1).toInt = 2147483647 by decide, show (redIdentity .s32 2).toInt = -2147483648 by decide]
    norm_num at lo hi
    omega
  · rw [intVal_z32, intVal_z32, intVal_z32, show (redIdentity .z32 1).toNat = 4294967295 by decide, show (redIdentity .z32 2).toNat = 0 by decide]
    omega

include hop

theorem redOp_assoc (a b c : Word) : redOp t rm op (redOp t rm op a b) c = redOp t rm op a (redOp t rm op b c) := by
  interval_cases op <;> simp only [redOp, not_f32 ht, if_false]
  · exact BitVec.add_assoc ..
  · split_ifs <;> simp_all <;> omega
  · split_ifs <;> simp_all <;> omega
  · exact BitVec.and_assoc ..
  · exact BitVec.or_assoc ..
  · exact BitVec.xor_assoc ..

theorem redOp_left (a : Word) : redOp t rm op (redIdentity t op) a = a := by
  obtain ⟨hi, lo⟩ := identity_bounds ht a
  interval_cases op <;> simp only [redOp, not_f32 ht, if_false]
  · simp [redIdentity, not_f32 ht]
  · split
    · rename_i le
      exact intVal_inj ht (le_antisymm le hi)
    · rfl
  · exact if_pos lo
  · exact BitVec.allOnes_and
  · simp [redIdentity]
  · simp [redIdentity]

theorem redOp_right (a : Word) : redOp t rm op a (redIdentity t op) = a := by
  obtain ⟨hi, lo⟩ := identity_bounds ht a
  interval_cases op <;> simp only [redOp, not_f32 ht, if_false]
  · simp [redIdentity, not_f32 ht]
  · exact if_pos hi
  · split
    · rename_i le
      exact intVal_inj ht (le_antisymm lo le)
    · rfl
  · exact BitVec.and_allOnes
  · simp [redIdentity]
  · simp [redIdentity]

end

/-! ## Tiles (R218, R220) -/

/-- The widths of a tile. -/
abbrev IsTile (t : Nat) : Prop := t ∈ [2, 4, 8, 16, 32]

theorem tile_power {t : Nat} (ht : IsTile t) : ∃ n, n ≤ 5 ∧ t = 2 ^ n ∧ t.log2 = n := by
  simp only [IsTile, List.mem_cons, List.not_mem_nil, or_false] at ht
  rcases ht with rfl | rfl | rfl | rfl | rfl
  exacts [⟨1, by decide⟩, ⟨2, by decide⟩, ⟨3, by decide⟩, ⟨4, by decide⟩, ⟨5, by decide⟩]

/-- The first lane of a lane's tile. -/
theorem tile_base (t l : Nat) : l - l % t = l / t * t := by
  have := Nat.div_add_mod l t
  rw [Nat.mul_comm] at this
  omega

theorem shuffle_up {t : Nat} (ht : IsTile t) (l b : Nat) : (l % t + t - b % t) % t = (l + t - b % t) % t := by
  simp only [IsTile, List.mem_cons, List.not_mem_nil, or_false] at ht
  rcases ht with rfl | rfl | rfl | rfl | rfl <;> omega

/-- Within a tile the exclusive or of positions is that of lanes. -/
theorem shuffle_xor {t : Nat} (ht : IsTile t) (l b : Nat) : l / t * t + (l % t).xor b % t = l / t * t + l % t ^^^ b % t := by
  obtain ⟨n, -, rfl, -⟩ := tile_power ht
  have high : (l ^^^ b % 2 ^ n) / 2 ^ n = l / 2 ^ n := by
    rw [Nat.xor_div_two_pow, Nat.div_eq_of_lt (Nat.mod_lt b (by positivity)), Nat.xor_zero]
  have low : (l ^^^ b % 2 ^ n) % 2 ^ n = (l % 2 ^ n ^^^ b) % 2 ^ n := by
    rw [Nat.xor_mod_two_pow, Nat.xor_mod_two_pow, Nat.mod_mod, Nat.mod_mod]
  have parts := Nat.div_add_mod (l ^^^ b % 2 ^ n) (2 ^ n)
  rw [high, low, Nat.mul_comm] at parts
  rw [Nat.mul_comm (l / 2 ^ n), Nat.div_add_mod, ← parts, Nat.mul_comm (2 ^ n)]
  rfl

/-! ## The instructions (R218 to R222) -/

/-- The word that a cross-lane read finds. -/
theorem laneWord_eq (g : Group) (o : Operand) (l : Nat) :
    g.laneWord o l = if l < g.lanes ∧ l < 32 ∧ (g.quad (l / 4)).st ≠ .ended then o.at l else 0#32 := by
  have launched : g.launched.getLsbD l = true ↔ l < 32 ∧ l < g.lanes := by
    rw [Group.launched, BitVec.getLsbD_ofNat, Nat.testBit_two_pow_sub_one]
    simp
  rw [Group.laneWord]
  refine if_congr ?_ rfl rfl
  rw [Bool.and_eq_true, launched, bne_iff_ne]
  tauto

/-- An instruction that writes one register from words that are right in every lane completes with that write. -/
theorem writes_lanes {i : Instr} {r : CRow} {sp : CSpec} {s s1 : State} {x : CIn} {body : CIn → State → CRes} {lat d : Nat}
    {u v : Nat → Word} (h : Issues i r sp s x s1) (free : sp.free = true) (runs : exec i s = cIssue i sp body s)
    (writes : body x s1 = .done (s1.fxWrite x lat (.reg d) (lanesOf u) x.label) 1) (right : ∀ l, l < 32 → u l = v l) :
    ∃ u : Nat → Word, (∀ l, l < 32 → u l = v l) ∧ Completes (exec i s) (fun t => Passed s
      (s1.setGrp (s1.grp.schedule (x.later (s1.laneLat lat) (.reg d) x.joined u))) t x (oneCycle r s x)) := by
  refine ⟨u, right, ?_⟩
  rw [runs, ← CIn.label_joined]
  exact completes_of_fxWrite h free writes

theorem shuffle_writes {i : Instr} {r : CRow} {s s1 : State} {x : CIn} {f : CFields} {src : Nat → Nat → Word → Nat} {v : Nat → Nat}
    (h : Issues i r { free := true, qa := 255 } s x s1) (fields : i.cForm.map (·.2.2) = some f) (runs : exec i s = shuffle i src s)
    (right : ∀ l, l < 32 → l / s1.grp.tilew * s1.grp.tilew + src s1.grp.tilew (l % s1.grp.tilew) (x.b.at l) % s1.grp.tilew = v l) :
    ∃ u : Nat → Word, (∀ l, l < 32 → u l = if v l < s1.grp.lanes ∧ v l < 32 ∧ (s1.grp.quad (v l / 4)).st ≠ .ended then x.a.at (v l) else 0#32) ∧
      Completes (exec i s) (fun t => Passed s
        (s1.setGrp (s1.grp.schedule (x.later (s1.laneLat 4) (.reg f.dst.toNat) x.joined u))) t x (oneCycle r s x)) := by
  have same : x.f = f := by
    obtain ⟨cls, op, s0, b, hf, -⟩ := h
    rw [hf] at fields
    exact Option.some.inj fields
  rw [← same]
  refine writes_lanes h rfl (runs.trans rfl) rfl fun l hl => ?_
  rw [tile_base, right l hl, laneWord_eq]

theorem tileValues_length (x : CIn) (t base : Nat) (e : Word) : (tileValues x t base e).length = t := by
  simp [tileValues]

/-- The lanes of a reduction. -/
def redLanes (f : CFields) (x : CIn) (s1 : State) (l : Nat) : Word :=
  let t := s1.grp.tilew
  treeNode (redOp f.dt f.rm (f.ext.toNat % 8)) t.log2 (tileValues x t (l - l % t) (redIdentity f.dt (f.ext.toNat % 8)))

theorem exec_vred_lanes (f : CFields) (s : State) : exec (.vred f) s = cIssue (.vred f) { free := true, qa := 255 } (fun x s1 =>
    .done (s1.fxWrite x (redLatency f.dt) (.reg f.dst.toNat) (lanesOf (redLanes f x s1)) x.label) 1) s := rfl

/-- The lanes of a scan. -/
def scanLanes (f : CFields) (x : CIn) (s1 : State) (l : Nat) : Word :=
  let t := s1.grp.tilew
  let xs := tileValues x t (l - l % t) (redIdentity f.dt (f.ext.toNat % 8))
  if f.x = 0#2 then scanAt (redOp f.dt f.rm (f.ext.toNat % 8)) xs (l % t)
  else if l % t = 0 then redIdentity f.dt (f.ext.toNat % 8) else scanAt (redOp f.dt f.rm (f.ext.toNat % 8)) xs (l % t - 1)

theorem exec_vscan_lanes (f : CFields) (s : State) : exec (.vscan f) s = cIssue (.vscan f) { free := true, qa := 255 } (fun x s1 =>
    .done (s1.fxWrite x (redLatency f.dt) (.reg f.dst.toNat) (lanesOf (scanLanes f x s1)) x.label) 1) s := rfl

/-- Settles O28: a shuffle reads the lane that its arithmetic names; a tree or a scan of an associative operation is a fold; the tree
splits in halves. -/
theorem crossLaneResults : Obligations.CrossLaneResults := by
  constructor
  · intro s s1 f r x g t op word b base f2 id0 tile lat writes
    have tileIs (l : Nat) : tileValues x t (l - l % t) id0 = tile l := by rw [tile_base]; rfl
    have position (ht : IsTile t) {l : Nat} (hl : l < 32) : l % t < 32 ∧ ∀ m, l % t < (tile m).length := by
      obtain ⟨n, hn, pow, -⟩ := tile_power ht
      have pos : 0 < t := by rw [pow]; positivity
      refine ⟨(Nat.mod_le ..).trans_lt hl, fun m => ?_⟩
      rw [← tileIs m, tileValues_length]
      exact Nat.mod_lt _ pos
    refine ⟨fun h ht _ => ?_, fun mode h ht _ => ?_, fun mode h ht _ => ?_, fun mode h ht _ => ?_, fun h ht _ => ?_, fun int hop => ?_,
      fun f32 => ?_⟩
    · exact shuffle_writes h rfl (exec_vshuf f s) fun l _ => rfl
    · refine shuffle_writes h rfl (exec_vshfl f s) fun l _ => ?_
      simp only [mode, if_true]
      rw [shuffle_up ht]
    · refine shuffle_writes h rfl (exec_vshfl f s) fun l _ => ?_
      simp only [mode, show ¬ (1#2 = 0#2) by decide, if_false, if_true]
      rw [Nat.mod_add_mod]
    · refine shuffle_writes h rfl (exec_vshfl f s) fun l _ => ?_
      simp only [mode, show ¬ (2#2 = 0#2) by decide, show ¬ (2#2 = 1#2) by decide, if_false]
      exact shuffle_xor ht l _
    · refine writes_lanes h rfl (exec_vbcast f s) rfl fun l hl => ?_
      rw [laneWord_eq, tile_base]
    · have fold (n : Nat) (xs : List Word) (hx : xs.length = 2 ^ n) : treeNode f2 n xs = xs.foldl f2 id0 :=
        treeNode_eq_foldl (redOp_assoc int f.rm hop) (redOp_left int f.rm hop) (redOp_right int f.rm hop) n xs hx
      have scan {xs : List Word} {i : Nat} (small : i < 32) (enough : i < xs.length) : scanAt f2 xs i = (xs.take (i + 1)).foldl f2 id0 :=
        scanAt_eq_foldl (redOp_assoc int f.rm hop) (redOp_left int f.rm hop) (redOp_right int f.rm hop) small enough
      refine ⟨fun h ht _ => ?_, fun mode h ht _ => ?_, fun mode h ht _ => ?_⟩
      · refine writes_lanes h rfl (exec_vred_lanes f s) rfl fun l hl => ?_
        obtain ⟨n, -, pow, log⟩ := tile_power ht
        rw [redLanes, log]
        exact (fold n _ ((tileValues_length ..).trans pow)).trans (congrArg (List.foldl f2 id0) (tileIs l))
      · refine writes_lanes h rfl (exec_vscan_lanes f s) rfl fun l hl => ?_
        simp only [scanLanes, mode, if_true]
        rw [show tileValues x s1.grp.tilew (l - l % s1.grp.tilew) _ = tile l from tileIs l]
        exact scan (position ht hl).1 ((position ht hl).2 l)
      · refine writes_lanes h rfl (exec_vscan_lanes f s) rfl fun l hl => ?_
        simp only [scanLanes, mode, show ¬ (1#2 = 0#2) by decide, if_false]
        rw [show tileValues x s1.grp.tilew (l - l % s1.grp.tilew) _ = tile l from tileIs l]
        split
        · rename_i first
          rw [show l % t = 0 from first]
          rfl
        · rename_i later
          have pos : 0 < l % t := Nat.pos_of_ne_zero later
          have lt : l % t - 1 < (tile l).length := (Nat.sub_le ..).trans_lt ((position ht hl).2 l)
          refine (scan ((Nat.sub_le ..).trans_lt (position ht hl).1) lt).trans ?_
          rw [Nat.sub_add_cancel pos]
    · refine ⟨fun h ht _ => ?_, fun mode h ht _ => ?_, fun mode h ht _ => ?_⟩
      · refine writes_lanes h rfl (exec_vred_lanes f s) rfl fun l hl => ?_
        rw [redLanes, show tileValues x s1.grp.tilew (l - l % s1.grp.tilew) _ = tile l from tileIs l]
      · refine writes_lanes h rfl (exec_vscan_lanes f s) rfl fun l hl => ?_
        simp only [scanLanes, mode, if_true]
        rw [show tileValues x s1.grp.tilew (l - l % s1.grp.tilew) _ = tile l from tileIs l]
      · refine writes_lanes h rfl (exec_vscan_lanes f s) rfl fun l hl => ?_
        simp only [scanLanes, mode, show ¬ (1#2 = 0#2) by decide, if_false]
        rw [show tileValues x s1.grp.tilew (l - l % s1.grp.tilew) _ = tile l from tileIs l]
  · intro f n xs ys hx hy
    exact ⟨treeNode_append f n xs ys hx hy, fun x => rfl, fun hn => scanAt_last f n xs hn hx⟩

end Sys2Proof.Machine
end


section
/-! PROOFS. Conversion instructions, and the special functions at the operands that are worked out beside the model. -/

namespace Sys2Proof.Machine

open Sys2Proof

/-! ## The instructions (R212 to R214, R216) -/

/-- The lane of a VCVT: as many elements converted as both types have, and zeros above. -/
def convertLane (f : CFields) (a : Word) : Word :=
  let src := (Ty.ofCode (f.ext.toNat % 32)).getD .f32
  elems f.dt.width (fun i => if i < 32 / max src.width f.dt.width then convertTy src f.dt f.rm f.sat (elemAt src.width a i) else 0)

theorem exec_vcvt_un (f : CFields) (s : State) : exec (.vcvt f) s = vun (.vcvt f) 4 (convertLane f) s := rfl

theorem elemOf_convertLane (f : CFields) (a : Word) {j : Nat} (hj : j < 32 / f.dt.width) :
    elemOf f.dt.width (convertLane f a) j = if j < 32 / max ((Ty.ofCode (f.ext.toNat % 32)).getD .f32).width f.dt.width then
      convertTy ((Ty.ofCode (f.ext.toNat % 32)).getD .f32) f.dt f.rm f.sat (elemOf ((Ty.ofCode (f.ext.toNat % 32)).getD .f32).width a j)
        % 2 ^ f.dt.width else 0 := by
  rw [convertLane, elemOf_elems _ hj]
  split
  · rfl
  · exact Nat.zero_mod _

/-- The only element of 32 bits of a word is the word. -/
theorem elemOf_whole (a : Word) : elemOf 32 a 0 = a.toNat := by
  rw [elemOf, Nat.mul_zero, pow_zero, Nat.div_one, Nat.mod_eq_of_lt a.isLt]

theorem execVqnt_writes {s s1 : State} {f : CFields} {r : CRow} {x : CIn} (h : Issues (.vqnt f) r { imm := some .f32, free := true } s x s1) :
    Writes (.vqnt f) r s s1 x 12 (fun l => BitVec.ofNat 32 (encodeTy f.dt f.rm f.sat
      ((decodeTy .f32 (elemOf 32 (x.a.at l) 0)).div (decodeTy .f32 (x.b.at l).toNat)))) := by
  simp only [elemOf_whole]
  exact writes_of_lanes (v := fun x _ l => BitVec.ofNat 32 (encodeTy f.dt f.rm f.sat
    ((decodeTy .f32 (x.a.at l).toNat).div (decodeTy .f32 (x.b.at l).toNat)))) (exec_vqnt f s) h

theorem execVdqnt_writes {s s1 : State} {f : CFields} {r : CRow} {x : CIn} (h : Issues (.vdqnt f) r { imm := some .f32, free := true } s x s1) :
    Writes (.vdqnt f) r s s1 x 4 (fun l => BitVec.ofNat 32 (encodeTy (if f.x = 0#2 then .f32 else if f.x = 1#2 then .f16 else .bf16) f.rm false
      ((decodeTy f.dt (elemOf f.dt.width (x.a.at l) 0)).mul (decodeTy .f32 (x.b.at l).toNat)))) :=
  writes_of_lanes (v := fun x _ l => BitVec.ofNat 32 (encodeTy (if f.x = 0#2 then .f32 else if f.x = 1#2 then .f16 else .bf16) f.rm false
    ((decodeTy f.dt (elemAt f.dt.width (x.a.at l) 0)).mul (decodeTy .f32 (x.b.at l).toNat)))) (exec_vdqnt f s) h

theorem special_writes {s s1 : State} {f : CFields} {r : CRow} {x : CIn} :
    ∀ e ∈ [(Instr.vexp2 f, SFun.exp2, 14), (.vlog2 f, .log2, 14), (.vrcp f, .rcp, 14), (.vrsq f, .rsq, 14), (.vsqrt f, .sqrt, 14),
           (.vtanh f, .tanh, 20), (.vsin f, .sin, 20), (.vcos f, .cos, 20)],
      Issues e.1 r { imm := none, free := true } s x s1 → Writes e.1 r s s1 x e.2.2 (fun l => specialF32 e.2.1 f.rm (x.a.at l)) := by
  have res {i g lat} (runs : exec i s = sfun i f lat g s) (h : Issues i r { imm := none, free := true } s x s1) :
      Writes i r s s1 x lat (fun l => specialF32 g f.rm (x.a.at l)) := writes_of_un (g := specialF32 g f.rm) runs h
  simp only [List.forall_mem_cons, List.not_mem_nil, false_imp_iff, implies_true, and_true]
  exact ⟨res (exec_vexp2 f s), res (exec_vlog2 f s), res (exec_vrcp f s), res (exec_vrsq f s), res (exec_vsqrt f s), res (exec_vtanh f s),
    res (exec_vsin f s), res (exec_vcos f s)⟩

/-! ## Special functions (R111) -/

/-- A NaN gives the canonical NaN under every function. -/
theorem special_nan (g : SFun) (rm : RM) {x : Word} (nan : decodeTy .f32 x.toNat = .nan) : specialF32 g rm x = 0x7FC00000#32 := by
  have value : sfunVal g .nan = .exact .nan := by cases g <;> rfl
  rw [specialF32, nan, value]
  rfl

/-- The reciprocal is the quotient of 1. -/
theorem special_rcp (rm : RM) (x : Word) :
    specialF32 .rcp rm x = BitVec.ofNat 32 (encodeTy .f32 rm false ((FV.fin false 1 1).div (decodeTy .f32 x.toNat))) := by
  rw [specialF32]
  cases decodeTy .f32 x.toNat with
  | nan => rfl
  | inf neg => cases neg <;> rfl
  | fin neg n d =>
    have value : sfunVal .rcp (.fin neg n d) = .exact ((FV.fin false 1 1).div (.fin neg n d)) := by
      by_cases zero : n = 0 <;> simp [sfunVal, FV.div, zero]
    rw [value]

end Sys2Proof.Machine
end


section
/-! PROOFS. What codes of floating formats are worth, and the one rounding function: the code below the exact value, and whether the
value is rounded to it or to the next. -/

namespace Sys2Proof.Machine

open Sys2Proof

/-! ## Powers of two as rationals -/

theorem two_zpow_natCast (n : Nat) : (2 : ℚ) ^ (n : Int) = ((2 ^ n : Nat) : ℚ) := by
  rw [zpow_natCast]
  push_cast
  rfl

/-- The integer part of log2 of a fraction bounds it between two powers of two. -/
theorem floorLog2_bounds {n d : Nat} (hn : 0 < n) (hd : 0 < d) :
    (2 : ℚ) ^ floorLog2 n d ≤ (n : ℚ) / d ∧ (n : ℚ) / d < 2 ^ (floorLog2 n d + 1) := by
  have dpos : (0 : ℚ) < d := by exact_mod_cast hd
  have nlo : (2 : ℚ) ^ (n.log2 : Int) ≤ n := by
    rw [two_zpow_natCast]
    exact_mod_cast Nat.log2_self_le hn.ne'
  have nhi : (n : ℚ) < 2 ^ ((n.log2 : Int) + 1) := by
    have := Nat.lt_log2_self (n := n)
    rw [show (n.log2 : Int) + 1 = ((n.log2 + 1 : Nat) : Int) by push_cast; rfl, two_zpow_natCast]
    exact_mod_cast this
  have dlo : (2 : ℚ) ^ (d.log2 : Int) ≤ d := by
    rw [two_zpow_natCast]
    exact_mod_cast Nat.log2_self_le hd.ne'
  have dhi : (d : ℚ) < 2 ^ ((d.log2 : Int) + 1) := by
    have := Nat.lt_log2_self (n := d)
    rw [show (d.log2 : Int) + 1 = ((d.log2 + 1 : Nat) : Int) by push_cast; rfl, two_zpow_natCast]
    exact_mod_cast this
  have two : (2 : ℚ) ≠ 0 := by norm_num
  generalize he0 : (n.log2 : Int) - d.log2 = e0
  have below : (2 : ℚ) ^ (e0 - 1) ≤ n / d := by
    rw [le_div_iff₀ dpos]
    calc (2 : ℚ) ^ (e0 - 1) * d ≤ 2 ^ (e0 - 1) * 2 ^ ((d.log2 : Int) + 1) := by gcongr
      _ = 2 ^ (n.log2 : Int) := by
        rw [← zpow_add₀ two]
        congr 1
        omega
      _ ≤ n := nlo
  have above : (n : ℚ) / d < 2 ^ (e0 + 1) := by
    rw [div_lt_iff₀ dpos]
    calc (n : ℚ) < 2 ^ ((n.log2 : Int) + 1) := nhi
      _ = 2 ^ (e0 + 1) * 2 ^ (d.log2 : Int) := by
        rw [← zpow_add₀ two]
        congr 1
        omega
      _ ≤ 2 ^ (e0 + 1) * d := by gcongr
  have test : (if 0 ≤ e0 then decide (d * 2 ^ e0.toNat ≤ n) else decide (d ≤ n * 2 ^ (-e0).toNat)) = true ↔ (2 : ℚ) ^ e0 ≤ n / d := by
    rw [le_div_iff₀ dpos]
    split
    · rename_i pos
      obtain ⟨m, rfl⟩ := Int.eq_ofNat_of_zero_le pos
      rw [decide_eq_true_iff, Int.toNat_natCast, two_zpow_natCast, mul_comm d]
      exact_mod_cast Iff.rfl
    · rename_i neg
      obtain ⟨m, hm⟩ := Int.eq_ofNat_of_zero_le (a := -e0) (by omega)
      obtain rfl : e0 = -(m : Int) := by omega
      rw [decide_eq_true_iff, neg_neg, Int.toNat_natCast, zpow_neg, two_zpow_natCast, inv_mul_le_iff₀ (by positivity), mul_comm _ (n : ℚ)]
      exact_mod_cast Iff.rfl
  unfold floorLog2
  simp only [he0]
  by_cases ge : (2 : ℚ) ^ e0 ≤ n / d
  · rw [if_pos (test.2 ge)]
    exact ⟨ge, above⟩
  · rw [if_neg (fun h => ge (test.1 h)), sub_add_cancel]
    exact ⟨below, not_le.1 ge⟩

/-! ## The sizes of codes (R82) -/

/-- What a code is worth, counted in the format's least spacing: `fb` fraction bits, the exponent unbounded above. -/
def codeSize (fb c : Nat) : Nat := if c < 2 ^ fb then c else (2 ^ fb + c % 2 ^ fb) * 2 ^ (c / 2 ^ fb - 1)

/-- The code of significand `q` in the `E`-th binade. -/
theorem codeSize_binade {fb E q : Nat} (normal : E ≠ 0 → 2 ^ fb ≤ q) (top : q ≤ 2 ^ (fb + 1)) :
    codeSize fb (E * 2 ^ fb + q) = q * 2 ^ E := by
  have pos : 0 < 2 ^ fb := by positivity
  rw [pow_succ] at top
  unfold codeSize
  by_cases sub : q < 2 ^ fb
  · have : E = 0 := by
      by_contra h
      exact absurd (normal h) sub.not_ge
    subst this
    rw [zero_mul, zero_add, if_pos sub, pow_zero, mul_one]
  · obtain ⟨m, rfl⟩ := Nat.exists_eq_add_of_le (not_lt.1 sub)
    have big : ¬ E * 2 ^ fb + (2 ^ fb + m) < 2 ^ fb := by omega
    rw [if_neg big]
    by_cases inside : m < 2 ^ fb
    · have hm : (E * 2 ^ fb + (2 ^ fb + m)) % 2 ^ fb = m := by
        rw [show E * 2 ^ fb + (2 ^ fb + m) = m + (E + 1) * 2 ^ fb by ring, Nat.add_mul_mod_self_right, Nat.mod_eq_of_lt inside]
      have hd : (E * 2 ^ fb + (2 ^ fb + m)) / 2 ^ fb = E + 1 := by
        rw [show E * 2 ^ fb + (2 ^ fb + m) = m + (E + 1) * 2 ^ fb by ring, Nat.add_mul_div_right _ _ pos, Nat.div_eq_of_lt inside, zero_add]
      rw [hm, hd, Nat.add_sub_cancel]
    · have : m = 2 ^ fb := by omega
      subst this
      have hm : (E * 2 ^ fb + (2 ^ fb + 2 ^ fb)) % 2 ^ fb = 0 := by
        rw [show E * 2 ^ fb + (2 ^ fb + 2 ^ fb) = (E + 2) * 2 ^ fb by ring, Nat.mul_mod_left]
      have hd : (E * 2 ^ fb + (2 ^ fb + 2 ^ fb)) / 2 ^ fb = E + 2 := by
        rw [show E * 2 ^ fb + (2 ^ fb + 2 ^ fb) = (E + 2) * 2 ^ fb by ring, Nat.mul_div_cancel _ pos]
      rw [hm, hd, show E + 2 - 1 = E + 1 by omega, pow_succ]
      ring

/-- Every code stands in a binade. -/
theorem exists_binade (fb c : Nat) : ∃ E q, c = E * 2 ^ fb + q ∧ (E ≠ 0 → 2 ^ fb ≤ q) ∧ q < 2 ^ (fb + 1) := by
  have pos : 0 < 2 ^ fb := by positivity
  have parts := Nat.div_add_mod c (2 ^ fb)
  have low := Nat.mod_lt c pos
  rw [pow_succ]
  rcases Nat.eq_zero_or_pos (c / 2 ^ fb) with zero | some_
  · exact ⟨0, c, by omega, fun h => absurd rfl h, by rw [zero, mul_zero] at parts; omega⟩
  · obtain ⟨E, hE⟩ := Nat.exists_eq_add_of_lt some_
    refine ⟨E, 2 ^ fb + c % 2 ^ fb, ?_, fun _ => by omega, by omega⟩
    rw [hE, zero_add, Nat.mul_succ] at parts
    rw [mul_comm]
    omega

theorem codeSize_strictMono (fb : Nat) : StrictMono (codeSize fb) := by
  refine strictMono_nat_of_lt_succ fun c => ?_
  obtain ⟨E, q, rfl, normal, top⟩ := exists_binade fb c
  rw [codeSize_binade normal top.le, Nat.add_assoc, codeSize_binade (fun h => (normal h).trans (Nat.le_succ q)) top]
  exact Nat.mul_lt_mul_of_pos_right (Nat.lt_succ_self q) (by positivity)

/-- The code below a value is the only one. -/
theorem code_unique {fb k c v : Nat} {d : Nat} (lo : codeSize fb k * d ≤ v) (hi : v < codeSize fb (k + 1) * d)
    (lo' : codeSize fb c * d ≤ v) (hi' : v < codeSize fb (c + 1) * d) : k = c := by
  have step {a b : Nat} (l : codeSize fb a * d ≤ v) (h : v < codeSize fb (b + 1) * d) : a ≤ b := by
    have : codeSize fb a < codeSize fb (b + 1) := lt_of_mul_lt_mul_right (l.trans_lt h) (Nat.zero_le d)
    exact Nat.lt_succ_iff.1 ((codeSize_strictMono fb).lt_iff_lt.1 this)
  exact le_antisymm (step lo hi') (step lo' hi)

/-! ## Rounding (R94) -/

/-- The exponent of the least significand bit that rounding keeps, for a value n/d. -/
def Fmt.lastBit (F : Fmt) (n d : Nat) : Int := max (floorLog2 n d) (1 - (F.bias : Int)) - F.fb

/-- The value counted in its last bit, as a fraction. -/
def Fmt.scaledNum (F : Fmt) (n d : Nat) : Nat := if 0 ≤ F.lastBit n d then n else n * 2 ^ (-F.lastBit n d).toNat

def Fmt.scaledDen (F : Fmt) (n d : Nat) : Nat := if 0 ≤ F.lastBit n d then d * 2 ^ (F.lastBit n d).toNat else d

/-- The binade of the value, the subnormal one being number 0. -/
def Fmt.binade (F : Fmt) (n d : Nat) : Nat := (max (floorLog2 n d) (1 - (F.bias : Int)) - (1 - (F.bias : Int))).toNat

/-- The format's least spacing, inverted. -/
def Fmt.unit (F : Fmt) : Nat := 2 ^ (F.bias + F.fb - 1)

section
variable {F : Fmt} {n d : Nat} (hn : 0 < n) (hd : 0 < d)
include hd

theorem scaledDen_pos : 0 < F.scaledDen n d := by
  unfold Fmt.scaledDen
  split
  · positivity
  · exact hd

theorem scaled_eq : (F.scaledNum n d : ℚ) / F.scaledDen n d = n / d * 2 ^ (-F.lastBit n d) := by
  have dne : (d : ℚ) ≠ 0 := by exact_mod_cast hd.ne'
  unfold Fmt.scaledNum Fmt.scaledDen
  by_cases pos : 0 ≤ F.lastBit n d
  · obtain ⟨m, hm⟩ := Int.eq_ofNat_of_zero_le pos
    rw [if_pos pos, if_pos pos, hm, Int.toNat_natCast, zpow_neg, zpow_natCast]
    push_cast
    field_simp
  · obtain ⟨m, hm⟩ := Int.eq_ofNat_of_zero_le (a := -F.lastBit n d) (by omega)
    rw [if_neg pos, if_neg pos, hm, Int.toNat_natCast, zpow_natCast]
    push_cast
    field_simp

/-- Counted in the least spacing and in the last bit, the value is the same. -/
theorem scaled_cross (bias : 1 ≤ F.bias + F.fb) :
    F.scaledNum n d * 2 ^ F.binade n d * d = n * F.unit * F.scaledDen n d := by
  have dne : (d : ℚ) ≠ 0 := by exact_mod_cast hd.ne'
  have d1ne : (F.scaledDen n d : ℚ) ≠ 0 := by exact_mod_cast (scaledDen_pos hd).ne'
  have two : (2 : ℚ) ≠ 0 := by norm_num
  have power : (2 : ℚ) ^ (-F.lastBit n d) * 2 ^ (F.binade n d : Int) = 2 ^ ((F.bias + F.fb - 1 : Nat) : Int) := by
    rw [← zpow_add₀ two]
    congr 1
    unfold Fmt.lastBit Fmt.binade
    rw [Int.toNat_of_nonneg (by omega), Nat.cast_sub bias]
    push_cast
    ring
  have same := scaled_eq (F := F) (n := n) hd
  rw [div_eq_iff d1ne] at same
  rw [zpow_natCast, zpow_natCast] at power
  have goal : (F.scaledNum n d : ℚ) * 2 ^ F.binade n d * d = n * 2 ^ (F.bias + F.fb - 1) * F.scaledDen n d := by
    rw [same, ← power]
    field_simp
  rw [Fmt.unit]
  exact_mod_cast goal

include hn

/-- The significand that is kept has at most fb + 1 bits, and all of them where the value is not subnormal. -/
theorem scaled_bounds : F.scaledNum n d / F.scaledDen n d < 2 ^ (F.fb + 1) ∧
    (F.binade n d ≠ 0 → 2 ^ F.fb ≤ F.scaledNum n d / F.scaledDen n d) := by
  obtain ⟨lo, hi⟩ := floorLog2_bounds hn hd
  have d1pos := scaledDen_pos (F := F) (n := n) hd
  have d1posQ : (0 : ℚ) < F.scaledDen n d := by exact_mod_cast d1pos
  have two : (2 : ℚ) ≠ 0 := by norm_num
  have same := scaled_eq (F := F) (n := n) hd
  refine ⟨?_, fun normal => ?_⟩
  · rw [Nat.div_lt_iff_lt_mul d1pos]
    have : (F.scaledNum n d : ℚ) / F.scaledDen n d < 2 ^ ((F.fb + 1 : Nat) : Int) := by
      rw [same]
      calc (n : ℚ) / d * 2 ^ (-F.lastBit n d) < 2 ^ (floorLog2 n d + 1) * 2 ^ (-F.lastBit n d) := by gcongr
        _ = 2 ^ (floorLog2 n d + 1 + -F.lastBit n d) := (zpow_add₀ two ..).symm
        _ ≤ 2 ^ ((F.fb + 1 : Nat) : Int) := by
          refine zpow_le_zpow_right₀ (by norm_num) ?_
          unfold Fmt.lastBit
          push_cast
          omega
    rw [div_lt_iff₀ d1posQ, two_zpow_natCast] at this
    exact_mod_cast this
  · have large : 1 - (F.bias : Int) < floorLog2 n d := by
      unfold Fmt.binade at normal
      omega
    rw [Nat.le_div_iff_mul_le d1pos]
    have : (2 : ℚ) ^ (F.fb : Int) ≤ (F.scaledNum n d : ℚ) / F.scaledDen n d := by
      rw [same]
      calc (2 : ℚ) ^ (F.fb : Int) = 2 ^ (floorLog2 n d + -F.lastBit n d) := by
            congr 1
            unfold Fmt.lastBit
            omega
        _ = 2 ^ floorLog2 n d * 2 ^ (-F.lastBit n d) := zpow_add₀ two ..
        _ ≤ n / d * 2 ^ (-F.lastBit n d) := by gcongr
    rw [le_div_iff₀ d1posQ, two_zpow_natCast] at this
    exact_mod_cast this

end

/-- The code of a significand in the value's binade. -/
theorem code_eq {F : Fmt} {n d q : Nat} (normal : F.binade n d ≠ 0 → 2 ^ F.fb ≤ q) :
    (if q < 2 ^ F.fb then q else (F.lastBit n d + F.fb + F.bias).toNat * 2 ^ F.fb + (q - 2 ^ F.fb)) = F.binade n d * 2 ^ F.fb + q := by
  have exponent : (F.lastBit n d + F.fb + F.bias).toNat = F.binade n d + 1 := by
    unfold Fmt.lastBit Fmt.binade
    omega
  split
  · rename_i sub
    have : F.binade n d = 0 := by
      by_contra h
      exact absurd (normal h) sub.not_ge
    rw [this, zero_mul, zero_add]
  · rw [exponent, Nat.succ_mul]
    omega

/-- Whether the value goes up from the code below it to the next (R94). -/
def goesUp (rm : RM) (neg : Bool) (fb k d v : Nat) : Prop :=
  codeSize fb k * d ≠ v ∧ match rm with
    | .rtz => False
    | .rdn => neg = true
    | .rup => neg = false
    | .rne => (codeSize fb k + codeSize fb (k + 1)) * d < 2 * v ∨ ((codeSize fb k + codeSize fb (k + 1)) * d = 2 * v ∧ k % 2 = 1)

/-- A fraction q + r/d1 rounds up as the value does between its two codes. -/
theorem roundsUp_iff {rm : RM} {neg : Bool} {fb E q r d d1 v : Nat} (hfb : 1 ≤ fb) (hd : 0 < d) (hd1 : 0 < d1)
    (normal : E ≠ 0 → 2 ^ fb ≤ q) (top : q < 2 ^ (fb + 1)) (value : (q * d1 + r) * 2 ^ E * d = v * d1) :
    roundsUp rm neg q r d1 = true ↔ goesUp rm neg fb (E * 2 ^ fb + q) d v := by
  have size : codeSize fb (E * 2 ^ fb + q) = q * 2 ^ E := codeSize_binade normal top.le
  have size' : codeSize fb (E * 2 ^ fb + q + 1) = (q + 1) * 2 ^ E := by
    rw [Nat.add_assoc]
    exact codeSize_binade (fun h => (normal h).trans (Nat.le_succ q)) top
  have pos : 0 < 2 ^ E * d := by positivity
  have exact_ : codeSize fb (E * 2 ^ fb + q) * d ≠ v ↔ r ≠ 0 := by
    rw [size, not_iff_not]
    constructor
    · rintro rfl
      have : r * (2 ^ E * d) = 0 := by nlinarith
      exact (Nat.mul_eq_zero.1 this).resolve_right pos.ne'
    · rintro rfl
      exact Nat.eq_of_mul_eq_mul_right hd1 (by rw [← value]; ring)
  have middle : (codeSize fb (E * 2 ^ fb + q) + codeSize fb (E * 2 ^ fb + q + 1)) * d * d1 = (2 * q * d1 + d1) * (2 ^ E * d) := by
    rw [size, size']
    ring
  have double : 2 * v * d1 = (2 * q * d1 + 2 * r) * (2 ^ E * d) := by
    rw [mul_assoc, ← value]
    ring
  have above : (codeSize fb (E * 2 ^ fb + q) + codeSize fb (E * 2 ^ fb + q + 1)) * d < 2 * v ↔ d1 < 2 * r := by
    rw [← Nat.mul_lt_mul_right hd1, middle, double, Nat.mul_lt_mul_right pos]
    omega
  have tie : (codeSize fb (E * 2 ^ fb + q) + codeSize fb (E * 2 ^ fb + q + 1)) * d = 2 * v ↔ 2 * r = d1 := by
    rw [← Nat.mul_left_inj hd1.ne', middle, double, Nat.mul_left_inj pos.ne']
    omega
  have parity : (E * 2 ^ fb + q) % 2 = q % 2 := by
    obtain ⟨m, rfl⟩ := Nat.exists_eq_add_of_le hfb
    rw [pow_add, pow_one, show E * (2 * 2 ^ m) + q = q + 2 * (E * 2 ^ m) by ring, Nat.add_mul_mod_self_left]
  unfold goesUp
  rw [exact_]
  cases rm with
  | rne =>
    simp only [roundsUp, above, tie, parity, Bool.or_eq_true, Bool.and_eq_true, decide_eq_true_iff]
    omega
  | rtz => simp [roundsUp]
  | rdn => simp [roundsUp, and_comm]
  | rup => simp [roundsUp, and_comm]

end Sys2Proof.Machine
end


section
/-! PROOFS. The formats one by one: the worth of their codes, and their rounding with its overflow. -/

namespace Sys2Proof.Machine

open Sys2Proof

/-- Rounding gives the code below the value or the next, past the largest finite one the overflow. -/
theorem roundFmt_fin {F : Fmt} (rm : RM) (sat neg : Bool) {n d k : Nat} (hn : 0 < n) (hd : 0 < d) (hfb : 1 ≤ F.fb)
    (lo : codeSize F.fb k * d ≤ n * F.unit) (hi : n * F.unit < codeSize F.fb (k + 1) * d) :
    ∃ c, (goesUp rm neg F.fb k d (n * F.unit) → c = k + 1) ∧ (¬ goesUp rm neg F.fb k d (n * F.unit) → c = k) ∧
      roundFmt F rm sat (.fin neg n d) = if F.maxFin < c then F.overflow rm sat neg else if c = 0 then F.zero neg else F.sign neg + c := by
  obtain ⟨top, normal⟩ := scaled_bounds (F := F) hn hd
  have d1pos := scaledDen_pos (F := F) (n := n) hd
  have cross := scaled_cross (F := F) (n := n) hd (by omega)
  set n1 := F.scaledNum n d with hn1
  set d1 := F.scaledDen n d with hd1
  set E := F.binade n d with hE
  have parts : n1 / d1 * d1 + n1 % d1 = n1 := by rw [mul_comm]; exact Nat.div_add_mod ..
  have rest : n1 % d1 < d1 := Nat.mod_lt _ d1pos
  have value : (n1 / d1 * d1 + n1 % d1) * 2 ^ E * d = n * F.unit * d1 := by rw [parts, cross]
  have pos : 0 < 2 ^ E * d := by positivity
  have here : k = E * 2 ^ F.fb + n1 / d1 := by
    refine code_unique lo hi ?_ ?_
    · rw [codeSize_binade normal top.le]
      refine Nat.le_of_mul_le_mul_right ?_ d1pos
      rw [← value]
      calc n1 / d1 * 2 ^ E * d * d1 = n1 / d1 * d1 * (2 ^ E * d) := by ring
        _ ≤ (n1 / d1 * d1 + n1 % d1) * (2 ^ E * d) := Nat.mul_le_mul_right _ (Nat.le_add_right ..)
        _ = (n1 / d1 * d1 + n1 % d1) * 2 ^ E * d := by ring
    · rw [Nat.add_assoc, codeSize_binade (fun h => (normal h).trans (Nat.le_succ _)) top]
      refine Nat.lt_of_mul_lt_mul_right (a := d1) ?_
      rw [← value]
      calc (n1 / d1 * d1 + n1 % d1) * 2 ^ E * d = (n1 / d1 * d1 + n1 % d1) * (2 ^ E * d) := by ring
        _ < (n1 / d1 * d1 + d1) * (2 ^ E * d) := Nat.mul_lt_mul_of_pos_right (Nat.add_lt_add_left rest _) pos
        _ = (n1 / d1 + 1) * 2 ^ E * d * d1 := by ring
  have up := roundsUp_iff (rm := rm) (neg := neg) hfb hd d1pos normal top value
  rw [← here] at up
  refine ⟨k + (if roundsUp rm neg (n1 / d1) (n1 % d1) d1 then 1 else 0), fun h => ?_, fun h => ?_, ?_⟩
  · rw [if_pos (up.2 h)]
  · rw [if_neg (fun h' => h (up.1 h'))]
    rfl
  · have code : (if roundDiv rm neg n1 d1 < 2 ^ F.fb then roundDiv rm neg n1 d1
        else (F.lastBit n d + F.fb + F.bias).toNat * 2 ^ F.fb + (roundDiv rm neg n1 d1 - 2 ^ F.fb)) =
        k + (if roundsUp rm neg (n1 / d1) (n1 % d1) d1 then 1 else 0) := by
      rw [code_eq (q := roundDiv rm neg n1 d1) (fun h => (normal h).trans (Nat.le_add_right ..)), here, roundDiv, Nat.add_assoc]
    rw [← code]
    exact if_neg hn.ne'

/-! ## What a code is worth (R82, R86, R88) -/

theorem dyadic_worth (neg : Bool) (m a b : Nat) {x : Int} (h : x = (b : Int) - a) :
    ∃ i j, FV.dyadic neg m x = .fin neg i j ∧ 0 < j ∧ i * 2 ^ a = m * 2 ^ b * j := by
  unfold FV.dyadic
  split
  · rename_i pos
    refine ⟨_, _, rfl, one_pos, ?_⟩
    obtain ⟨c, rfl⟩ := Nat.exists_eq_add_of_le (show a ≤ b by omega)
    have : x.toNat = c := by omega
    rw [this, pow_add]
    ring
  · rename_i neg_
    refine ⟨_, _, rfl, by positivity, ?_⟩
    obtain ⟨c, rfl⟩ := Nat.exists_eq_add_of_le (show b ≤ a by omega)
    have : (-x).toNat = c := by omega
    rw [this, pow_add]
    ring

/-- Sign and magnitude of a code. -/
theorem signed_code (e : Nat) (neg : Bool) {k : Nat} (hk : k < 2 ^ e) :
    ((if neg then 2 ^ e else 0) + k) % 2 ^ e = k ∧ bitOf ((if neg then 2 ^ e else 0) + k) e = neg := by
  have pos : 0 < 2 ^ e := by positivity
  cases neg with
  | true =>
    rw [if_pos rfl, Nat.add_mod_left, Nat.mod_eq_of_lt hk]
    refine ⟨rfl, ?_⟩
    rw [bitOf, Nat.add_div_left _ pos, Nat.div_eq_of_lt hk]
    rfl
  | false =>
    rw [if_neg (by simp), zero_add, Nat.mod_eq_of_lt hk]
    refine ⟨rfl, ?_⟩
    rw [bitOf, Nat.div_eq_of_lt hk]
    rfl

/-- The number that a format reads in a code's exponent and fraction, whatever its top exponent means. -/
def Fmt.number (F : Fmt) (neg : Bool) (k : Nat) : FV :=
  if k / 2 ^ F.fb = 0 then FV.dyadic neg (k % 2 ^ F.fb) (1 - (F.bias : Int) - F.fb)
  else FV.dyadic neg (2 ^ F.fb + k % 2 ^ F.fb) (((k / 2 ^ F.fb : Nat) : Int) - F.bias - F.fb)

theorem decodeFmt_eq (F : Fmt) (neg : Bool) {k : Nat} (hk : k < 2 ^ (F.eb + F.fb)) :
    decodeFmt F (F.sign neg + k) = match F.kind with
      | .ieee | .ocpB => if k / 2 ^ F.fb = 2 ^ F.eb - 1 then (if k % 2 ^ F.fb = 0 then .inf neg else .nan) else F.number neg k
      | .narrow => if neg ∧ k = 0 then .nan else F.number neg k
      | .ocpA => if k = 0x7F then .nan else F.number neg k := by
  obtain ⟨magnitude, sign⟩ := signed_code (F.eb + F.fb) neg hk
  unfold decodeFmt
  rw [show F.sign neg = if neg then 2 ^ (F.eb + F.fb) else 0 from rfl, magnitude, sign]
  rfl

theorem number_worth (F : Fmt) (neg : Bool) (k : Nat) (bias : 1 ≤ F.bias + F.fb) :
    ∃ i j, F.number neg k = .fin neg i j ∧ 0 < j ∧ i * F.unit = codeSize F.fb k * j := by
  unfold Fmt.number Fmt.unit codeSize
  by_cases sub : k / 2 ^ F.fb = 0
  · have small : k < 2 ^ F.fb := (Nat.div_eq_zero_iff_lt (by positivity)).1 sub
    obtain ⟨i, j, value, pos, worth⟩ := dyadic_worth neg (k % 2 ^ F.fb) (F.bias + F.fb - 1) 0 (x := 1 - (F.bias : Int) - F.fb) (by omega)
    rw [if_pos sub, if_pos small]
    exact ⟨i, j, value, pos, by rw [worth, Nat.mod_eq_of_lt small, pow_zero, mul_one]⟩
  · have big : ¬ k < 2 ^ F.fb := fun h => sub (Nat.div_eq_of_lt h)
    obtain ⟨e, he⟩ := Nat.exists_eq_succ_of_ne_zero sub
    obtain ⟨i, j, value, pos, worth⟩ := dyadic_worth neg (2 ^ F.fb + k % 2 ^ F.fb) (F.bias + F.fb - 1) e
      (x := ((e + 1 : Nat) : Int) - F.bias - F.fb) (by omega)
    rw [if_neg sub, if_neg big, he]
    exact ⟨i, j, value, pos, worth⟩

/-! ## The four kinds of formats (R82, R86, R88, R95, R97) -/

/-- The greatest finite code without its sign, by the kind of the format: 0 the IEEE-like ones, 1 the narrow ones, 2 and 3 those of OCP. -/
def Fmt.topOf (F : Fmt) (cls : Nat) : Nat :=
  if cls = 1 then 2 ^ (F.eb + F.fb) - 1 else if cls = 2 then 2 ^ (F.eb + F.fb) - 2 else (2 ^ F.eb - 1) * 2 ^ F.fb - 1

def Fmt.nanOf (F : Fmt) (cls : Nat) : Nat :=
  if cls = 1 then 2 ^ (F.eb + F.fb) else if cls = 2 then 2 ^ (F.eb + F.fb) - 1 else (2 ^ F.eb - 1) * 2 ^ F.fb + 2 ^ (F.fb - 1)

def kindOf (cls : Nat) : FKind := if cls = 0 then .ieee else if cls = 1 then .narrow else if cls = 2 then .ocpA else .ocpB

/-- A type's format is of a kind. -/
structure HasFormat (t : Ty) (F : Fmt) (cls : Nat) : Prop where
  ofTy : Fmt.ofTy t = some F
  cls_lt : cls < 4
  eb : 2 ≤ F.eb
  fb : 1 ≤ F.fb
  kind : F.kind = kindOf cls
  maxFin : F.maxFin = F.topOf cls
  cnan : F.cnan = F.nanOf cls
  width : t.width = 1 + F.eb + F.fb
  ocpA : cls = 2 → F.eb + F.fb = 7

section
variable {t : Ty} {F : Fmt} {cls : Nat} (is : HasFormat t F cls)
include is

theorem decodeTy_of_format (z : Nat) : decodeTy t z = decodeFmt F z := by simp only [decodeTy, is.ofTy]

theorem encodeTy_of_format (rm : RM) (sat : Bool) (v : FV) : encodeTy t rm sat v = roundFmt F rm sat v := by
  simp only [encodeTy, is.ofTy]

/-- Finite codes stay below the infinity, and the infinity below the sign bit. -/
theorem top_bounds : F.topOf cls < 2 ^ (F.eb + F.fb) ∧ (cls = 0 ∨ cls = 3 → F.topOf cls < (2 ^ F.eb - 1) * 2 ^ F.fb) := by
  have pos : 0 < 2 ^ (F.eb + F.fb) := by positivity
  have infPos : 0 < (2 ^ F.eb - 1) * 2 ^ F.fb := by
    have := Nat.pow_lt_pow_right (a := 2) (by norm_num) (show 0 < F.eb by have := is.eb; omega)
    exact Nat.mul_pos (by omega) (by positivity)
  have infLt : (2 ^ F.eb - 1) * 2 ^ F.fb ≤ 2 ^ (F.eb + F.fb) := by
    rw [pow_add]
    exact Nat.mul_le_mul_right _ (Nat.sub_le ..)
  unfold Fmt.topOf
  refine ⟨by split_ifs <;> omega, ?_⟩
  rintro (rfl | rfl)
  · rw [if_neg (by decide), if_neg (by decide)]; omega
  · rw [if_neg (by decide), if_neg (by decide)]; omega

/-- A finite code decodes to its worth. -/
theorem decode_finite (neg : Bool) {k : Nat} (hk : k ≤ F.topOf cls) (one_zero : ¬ (cls = 1 ∧ neg = true ∧ k = 0)) :
    ∃ i j, decodeTy t (F.sign neg + k) = .fin neg i j ∧ 0 < j ∧ i * F.unit = codeSize F.fb k * j := by
  obtain ⟨lt, below⟩ := top_bounds is
  have number := number_worth F neg k (by have := is.fb; omega)
  have value : decodeTy t (F.sign neg + k) = F.number neg k := by
    rw [decodeTy_of_format is, decodeFmt_eq F neg (hk.trans_lt lt), is.kind]
    have cases_ : cls = 0 ∨ cls = 3 ∨ cls = 1 ∨ cls = 2 := by have := is.cls_lt; omega
    have notTop (h : cls = 0 ∨ cls = 3) : ¬ k / 2 ^ F.fb = 2 ^ F.eb - 1 := by
      have := Nat.div_lt_of_lt_mul (show k < 2 ^ F.fb * (2 ^ F.eb - 1) by rw [mul_comm]; exact hk.trans_lt (below h))
      omega
    rcases cases_ with h | h | h | h
    · simp only [kindOf, h, if_neg (notTop (.inl h)), if_true]
    · simp only [kindOf, h, if_neg (notTop (.inr h))]
      simp
    · have : ¬ (neg = true ∧ k = 0) := fun both => one_zero ⟨h, both⟩
      simp [kindOf, h, this]
    · have : k ≠ 0x7F := by
        have := is.ocpA h
        have le : k ≤ 2 ^ (F.eb + F.fb) - 2 := by
          have := hk
          rwa [Fmt.topOf, if_neg (by omega), if_pos h] at this
        rw [is.ocpA h] at le
        omega
      simp [kindOf, h, this]
  rw [value]
  exact number

/-- The codes of infinity and of NaN. -/
theorem decode_special (neg : Bool) (k : Nat) :
    (cls = 0 ∨ cls = 3 → decodeTy t (F.sign neg + (2 ^ F.eb - 1) * 2 ^ F.fb) = .inf neg ∧
      (0 < k → k < 2 ^ F.fb → decodeTy t (F.sign neg + (2 ^ F.eb - 1) * 2 ^ F.fb + k) = .nan)) ∧
    (cls = 1 → decodeTy t (F.nanOf cls) = .nan) ∧ (cls = 2 → decodeTy t (F.sign neg + F.nanOf cls) = .nan) := by
  have pos : 0 < 2 ^ F.fb := by positivity
  have full (m : Nat) (hm : m < 2 ^ F.fb) : (2 ^ F.eb - 1) * 2 ^ F.fb + m < 2 ^ (F.eb + F.fb) ∧
      ((2 ^ F.eb - 1) * 2 ^ F.fb + m) / 2 ^ F.fb = 2 ^ F.eb - 1 ∧ ((2 ^ F.eb - 1) * 2 ^ F.fb + m) % 2 ^ F.fb = m := by
    have one : 1 ≤ 2 ^ F.eb := Nat.one_le_two_pow
    refine ⟨?_, ?_, ?_⟩
    · rw [pow_add, Nat.sub_mul, one_mul]
      have := Nat.mul_le_mul_right (2 ^ F.fb) one
      omega
    · rw [Nat.add_comm, Nat.add_mul_div_right _ _ pos, Nat.div_eq_of_lt hm, zero_add]
    · rw [Nat.add_comm, Nat.add_mul_mod_self_right, Nat.mod_eq_of_lt hm]
  have decoded (h : cls = 0 ∨ cls = 3) (m : Nat) (hm : m < 2 ^ F.fb) :
      decodeTy t (F.sign neg + ((2 ^ F.eb - 1) * 2 ^ F.fb + m)) = if m = 0 then .inf neg else .nan := by
    obtain ⟨lt, exponent, fraction⟩ := full m hm
    rw [decodeTy_of_format is, decodeFmt_eq F neg lt, is.kind, exponent, fraction]
    rcases h with rfl | rfl <;> simp [kindOf]
  refine ⟨fun h => ⟨?_, fun some_ small => ?_⟩, fun h => ?_, fun h => ?_⟩
  · exact (decoded h 0 pos).trans (if_pos rfl)
  · rw [Nat.add_assoc, decoded h k small, if_neg some_.ne']
  · have := decodeFmt_eq F true (k := 0) (by positivity)
    rw [is.kind] at this
    rw [Fmt.nanOf, if_pos h, decodeTy_of_format is]
    refine Eq.trans this ?_
    simp [kindOf, h]
  · have bits := is.ocpA h
    have nan : F.nanOf cls = 0x7F := by
      rw [Fmt.nanOf, if_neg (by omega), if_pos h, bits]
      rfl
    rw [nan, decodeTy_of_format is, decodeFmt_eq F neg (by rw [bits]; norm_num), is.kind]
    simp [kindOf, h]

end

end Sys2Proof.Machine
end


section
/-! PROOFS. Rounding to each kind of format, exact arithmetic, and conversions to and between integers. -/

namespace Sys2Proof.Machine

open Sys2Proof

/-! ## Rounding past the largest finite code (R95, R97) -/

/-- What stands for a value that is too large where the kind of the format saturates or has no infinity. -/
def Fmt.mostOf (F : Fmt) (cls : Nat) (sat neg : Bool) : Nat := if sat then F.sign neg + F.topOf cls else F.nanOf cls

/-- What an overflow gives. -/
def Fmt.pastOf (F : Fmt) (cls : Nat) (rm : RM) (sat neg : Bool) : Nat :=
  if cls = 0 ∨ (cls = 3 ∧ sat = false) then
    (if rm = .rne ∨ rm = .rdn ∧ neg = true ∨ rm = .rup ∧ neg = false then F.sign neg + (2 ^ F.eb - 1) * 2 ^ F.fb else F.sign neg + F.topOf cls)
  else F.mostOf cls sat neg

section
variable {t : Ty} {F : Fmt} {cls : Nat} (is : HasFormat t F cls)
include is

theorem kind_cases : cls = 0 ∨ cls = 1 ∨ cls = 2 ∨ cls = 3 := by
  have := is.cls_lt
  omega

theorem overflow_eq (rm : RM) (sat neg : Bool) : F.overflow rm sat neg = F.pastOf cls rm sat neg := by
  have kind := is.kind
  unfold Fmt.overflow Fmt.pastOf Fmt.mostOf
  rw [is.maxFin, is.cnan]
  rcases kind_cases is with h | h | h | h <;> rw [h] at kind ⊢ <;>
    simp only [kind, kindOf, Fmt.infCode] <;> cases sat <;> cases rm <;> cases neg <;> simp

theorem infinite_eq (sat neg : Bool) : F.infinite sat neg =
    if cls = 0 ∨ (cls = 3 ∧ sat = false) then F.sign neg + (2 ^ F.eb - 1) * 2 ^ F.fb else F.mostOf cls sat neg := by
  have kind := is.kind
  unfold Fmt.infinite Fmt.mostOf
  rw [is.maxFin, is.cnan]
  rcases kind_cases is with h | h | h | h <;> rw [h] at kind ⊢ <;> simp only [kind, kindOf, Fmt.infCode] <;> cases sat <;> simp

theorem zero_eq (neg : Bool) : F.zero neg = if cls = 1 then 0 else F.sign neg := by
  have kind := is.kind
  unfold Fmt.zero
  rcases kind_cases is with h | h | h | h <;> rw [h] at kind ⊢ <;> simp [kind, kindOf]

/-- The value is rounded to the code below it or to the next, and past the largest finite code overflows. -/
theorem encode_fin (rm : RM) (sat neg : Bool) {n d k : Nat} (hn : 0 < n) (hd : 0 < d)
    (lo : codeSize F.fb k * d ≤ n * F.unit) (hi : n * F.unit < codeSize F.fb (k + 1) * d) :
    (¬ goesUp rm neg F.fb k d (n * F.unit) → encodeTy t rm sat (.fin neg n d) =
      if F.topOf cls < k then F.pastOf cls rm sat neg else if k = 0 then (if cls = 1 then 0 else F.sign neg) else F.sign neg + k) ∧
    (goesUp rm neg F.fb k d (n * F.unit) → encodeTy t rm sat (.fin neg n d) =
      if F.topOf cls ≤ k then F.pastOf cls rm sat neg else F.sign neg + (k + 1)) := by
  obtain ⟨c, up, down, value⟩ := roundFmt_fin (F := F) rm sat neg hn hd is.fb lo hi
  rw [encodeTy_of_format is, value, is.maxFin, overflow_eq is, zero_eq is]
  refine ⟨fun h => ?_, fun h => ?_⟩
  · rw [down h]
  · rw [up h, if_neg (Nat.succ_ne_zero k)]
    simp only [Nat.lt_succ_iff]

end

/-! ## Exact arithmetic (R82, R90, R100, R208) -/

/-- A signed magnitude as an integer. -/
def signedInt (s : Bool) (i : Nat) : Int := if s then -(i : Int) else i

theorem add_fin (rm : RM) (a b : Bool) {n d m e : Nat} (hd : 0 < d) (he : 0 < e) :
    ∃ s i j, (FV.fin a n d).add rm (.fin b m e) = .fin s i j ∧ 0 < j ∧
      signedInt s i * ((d * e : Nat) : Int) = (signedInt a (n * e) + signedInt b (m * d)) * (j : Int) ∧
      (i = 0 → s = if a = b then a else decide (rm = .rdn)) := by
  have sum : (FV.fin a n d).add rm (.fin b m e) =
      if signedInt a (n * e) + signedInt b (m * d) = 0 then .fin (if n = 0 ∧ m = 0 ∧ a = b then a else decide (rm = .rdn)) 0 1
      else .fin (decide (signedInt a (n * e) + signedInt b (m * d) < 0)) (signedInt a (n * e) + signedInt b (m * d)).natAbs (d * e) := rfl
  rw [sum]
  by_cases zero : signedInt a (n * e) + signedInt b (m * d) = 0
  · rw [if_pos zero]
    refine ⟨_, 0, 1, rfl, one_pos, ?_, fun _ => ?_⟩
    · rw [zero]
      cases (if n = 0 ∧ m = 0 ∧ a = b then a else decide (rm = .rdn)) <;> simp [signedInt]
    · by_cases same : a = b
      · have none_ : n = 0 ∧ m = 0 := by
          subst same
          have : n * e = 0 ∧ m * d = 0 := by
            generalize n * e = p at *
            generalize m * d = q at *
            cases a <;> simp [signedInt] at zero <;> omega
          exact ⟨(Nat.mul_eq_zero.1 this.1).resolve_right he.ne', (Nat.mul_eq_zero.1 this.2).resolve_right hd.ne'⟩
        rw [if_pos same, if_pos ⟨none_.1, none_.2, same⟩]
      · rw [if_neg same, if_neg (fun h => same h.2.2)]
  · rw [if_neg zero]
    refine ⟨_, _, _, rfl, Nat.mul_pos hd he, ?_, fun h => absurd (Int.natAbs_eq_zero.1 h) zero⟩
    congr 1
    generalize signedInt a (n * e) + signedInt b (m * d) = x at *
    unfold signedInt
    by_cases neg : x < 0
    · rw [decide_eq_true neg, if_pos rfl]; omega
    · rw [decide_eq_false neg, if_neg (by simp)]; omega

/-! ## Conversions to integers (R92, R98, R99) -/

/-- Rounding to an integer under each mode: `z` is the integer that n/d, with its sign, is rounded to. -/
def RoundsTo (rm : RM) (neg : Bool) (n d : Nat) (z : Int) : Prop :=
  let x := signedInt neg n
  let off := x - z * d
  (rm = .rtz → 0 ≤ z * x ∧ z.natAbs * d ≤ n ∧ n < (z.natAbs + 1) * d) ∧ (rm = .rdn → 0 ≤ off ∧ off < d) ∧
    (rm = .rup → off ≤ 0 ∧ -(d : Int) < off) ∧ (rm = .rne → 2 * off.natAbs ≤ d ∧ (2 * off.natAbs = d → z % 2 = 0))

/-- A multiple of d that is smaller than d is zero. -/
theorem mul_lt_self {a : Int} {d : Nat} (lo : -(d : Int) < a * d) (hi : a * d < d) : a = 0 := by
  have pos : (0 : Int) < d := by
    by_contra h
    omega
  by_contra h
  rcases lt_or_gt_of_ne h with neg | big
  · have := mul_le_mul_of_nonneg_right (show a ≤ -1 by omega) pos.le
    omega
  · have := mul_le_mul_of_nonneg_right (show 1 ≤ a by omega) pos.le
    omega

/-- The integer is the only one. -/
theorem roundsTo_unique {rm : RM} {neg : Bool} {n d : Nat} (hd : 0 < d) {z z' : Int} (h : RoundsTo rm neg n d z) (h' : RoundsTo rm neg n d z') :
    z = z' := by
  obtain ⟨rtz, rdn, rup, rne⟩ := h
  obtain ⟨rtz', rdn', rup', rne'⟩ := h'
  have diff : (z' - z) * d = (signedInt neg n - z * d) - (signedInt neg n - z' * d) := by ring
  cases rm with
  | rtz =>
    obtain ⟨sign, lo, hi⟩ := rtz rfl
    obtain ⟨sign', lo', hi'⟩ := rtz' rfl
    have size : z.natAbs = z'.natAbs := by
      have q : n / d = z.natAbs := Nat.div_eq_of_lt_le lo hi
      have q' : n / d = z'.natAbs := Nat.div_eq_of_lt_le lo' hi'
      omega
    rcases Int.natAbs_eq_natAbs_iff.1 size with same | opposite
    · exact same
    · rw [opposite] at sign
      have zero : z' * signedInt neg n = 0 := by nlinarith
      rcases mul_eq_zero.1 zero with h0 | h0
      · omega
      · have : n = 0 := by
          cases neg <;> simp [signedInt] at h0 <;> omega
        rw [this] at lo
        have : z.natAbs = 0 := (Nat.mul_eq_zero.1 (Nat.le_zero.1 lo)).resolve_right hd.ne'
        omega
  | rdn =>
    have := mul_lt_self (a := z' - z) (d := d) (by rw [diff]; have := rdn rfl; have := rdn' rfl; omega)
      (by rw [diff]; have := rdn rfl; have := rdn' rfl; omega)
    omega
  | rup =>
    have := mul_lt_self (a := z' - z) (d := d) (by rw [diff]; have := rup rfl; have := rup' rfl; omega)
      (by rw [diff]; have := rup rfl; have := rup' rfl; omega)
    omega
  | rne =>
    obtain ⟨near, even⟩ := rne rfl
    obtain ⟨near', even'⟩ := rne' rfl
    by_contra other
    have one : (z' - z) = 1 ∨ (z' - z) = -1 := by
      have pos : (0 : Int) < d := by omega
      have hi : (z' - z) * d ≤ d := by rw [diff]; omega
      have lo : -(d : Int) ≤ (z' - z) * d := by rw [diff]; omega
      have : z' - z ≤ 1 := by
        by_contra h
        have := mul_le_mul_of_nonneg_right (show 2 ≤ z' - z by omega) pos.le
        omega
      have : -1 ≤ z' - z := by
        by_contra h
        have := mul_le_mul_of_nonneg_right (show z' - z ≤ -2 by omega) pos.le
        omega
      omega
    have ties : 2 * (signedInt neg n - z * d).natAbs = d ∧ 2 * (signedInt neg n - z' * d).natAbs = d := by
      rcases one with h | h <;> rw [h] at diff <;> omega
    have := even ties.1
    have := even' ties.2
    omega

/-- How far a rounded magnitude is from the value. -/
theorem roundDiv_off (rm : RM) (neg : Bool) (n d : Nat) :
    signedInt neg n - signedInt neg (roundDiv rm neg n d) * d =
      (if neg then -1 else 1) * ((n % d : Nat) - (if roundsUp rm neg (n / d) (n % d) d then (d : Int) else 0)) := by
  have parts : ((n / d : Nat) : Int) * d + (n % d : Nat) = n := by
    rw [mul_comm]
    exact_mod_cast Nat.div_add_mod n d
  unfold roundDiv
  rw [show signedInt neg n = signedInt neg (n / d * d + n % d) by rw [mul_comm, Nat.div_add_mod]]
  cases neg <;> cases roundsUp rm _ (n / d) (n % d) d <;> simp only [signedInt] <;> push_cast <;> simp <;> ring

theorem natAbs_signedInt (s : Bool) (i : Nat) : (signedInt s i).natAbs = i := by cases s <;> simp [signedInt]

/-- The model's rounding of a magnitude rounds the signed value. -/
theorem roundsTo_roundDiv (rm : RM) (neg : Bool) {n d : Nat} (hd : 0 < d) : RoundsTo rm neg n d (signedInt neg (roundDiv rm neg n d)) := by
  have off := roundDiv_off rm neg n d
  have rest : n % d < d := Nat.mod_lt _ hd
  unfold RoundsTo
  dsimp only
  rw [off]
  refine ⟨?_, ?_, ?_, ?_⟩ <;> rintro rfl
  · have size : (signedInt neg (roundDiv .rtz neg n d)).natAbs = n / d := natAbs_signedInt neg (n / d)
    refine ⟨?_, by rw [size]; exact Nat.div_mul_le_self .., by rw [size, mul_comm]; exact Nat.lt_mul_div_succ n hd⟩
    cases neg <;> simp only [signedInt] <;> simp <;> positivity
  · generalize n % d = r at *
    cases neg <;> (simp only [roundsUp]; split <;> simp_all <;> omega)
  · generalize n % d = r at *
    cases neg <;> (simp only [roundsUp]; split <;> simp_all <;> omega)
  · have parity : signedInt neg (roundDiv .rne neg n d) % 2 = 0 ↔ roundDiv .rne neg n d % 2 = 0 := by
      cases neg <;> simp only [signedInt] <;> simp <;> omega
    rw [parity, roundDiv]
    generalize n % d = r at *
    generalize n / d = q at *
    have up : roundsUp .rne neg q r d = true ↔ d < 2 * r ∨ (2 * r = d ∧ q % 2 = 1) := by simp [roundsUp]
    by_cases h : roundsUp .rne neg q r d = true
    · rw [if_pos h, if_pos h]
      have := up.1 h
      cases neg <;> simp <;> omega
    · rw [if_neg h, if_neg h]
      have := mt up.2 h
      cases neg <;> simp <;> omega

/-! ## Integers as codes (R92) -/

/-- The integer types. -/
def intTypes : List Ty := [.s8, .s16, .s32, .s64, .z8, .z16, .z32, .z64]

def signedTypes : List Ty := [.s8, .s16, .s32, .s64]

/-- The range of an integer type, and the value it gives where none is right (R98). -/
def leastOf (t : Ty) : Int := if t ∈ signedTypes then -(2 : Int) ^ (t.width - 1) else 0

def greatestOf (t : Ty) : Int := if t ∈ signedTypes then (2 : Int) ^ (t.width - 1) - 1 else (2 : Int) ^ t.width - 1

def indefiniteOf (t : Ty) : Int := if t ∈ signedTypes then leastOf t else greatestOf t

/-- `r` is the code of the integer `v`. -/
def IsCode (t : Ty) (r : Nat) (v : Int) : Prop := r < 2 ^ t.width ∧ (r : Int) = if v < 0 then v + (2 : Int) ^ t.width else v

theorem signed_iff (t : Ty) : t.isSigned = true ↔ t ∈ signedTypes := by cases t <;> decide

theorem minInt_eq (t : Ty) : t.minInt = leastOf t := by
  unfold Ty.minInt leastOf
  simp only [signed_iff]
  push_cast
  rfl

theorem maxInt_eq (t : Ty) : t.maxInt = greatestOf t := by
  unfold Ty.maxInt greatestOf
  simp only [signed_iff]
  push_cast
  rfl

theorem indefinite_eq (t : Ty) : t.indefinite = indefiniteOf t := by
  unfold Ty.indefinite indefiniteOf
  simp only [signed_iff, minInt_eq, maxInt_eq]

theorem width_double (t : Ty) : (2 : Int) ^ t.width = 2 * 2 ^ (t.width - 1) := by
  have := width_pos t
  rw [← pow_succ']
  congr 1
  omega

/-- A type's range holds zero, and spans 2^w integers. -/
theorem range_bounds (t : Ty) : leastOf t ≤ 0 ∧ 0 ≤ greatestOf t ∧ -(2 : Int) ^ t.width ≤ leastOf t ∧ greatestOf t < 2 ^ t.width ∧
    greatestOf t = leastOf t + 2 ^ t.width - 1 := by
  have pos : (0 : Int) < 2 ^ (t.width - 1) := by positivity
  have double := width_double t
  unfold leastOf greatestOf
  split_ifs <;> omega

theorem clamp_of_range (t : Ty) (z : Int) : t.clamp z = if z < leastOf t then leastOf t else if greatestOf t < z then greatestOf t else z := by
  obtain ⟨lo, hi, -⟩ := range_bounds t
  rw [Ty.clamp, minInt_eq, maxInt_eq]
  split_ifs <;> omega

/-- The low bits of an integer of the range are its code. -/
theorem isCode_wrapTo {t : Ty} {v : Int} (lo : leastOf t ≤ v) (hi : v ≤ greatestOf t) : IsCode t (wrapTo t.width v) v := by
  obtain ⟨-, -, low, high, -⟩ := range_bounds t
  have pos : (0 : Int) < 2 ^ t.width := by positivity
  have cast := wrapTo_cast t.width v
  have lt : (wrapTo t.width v : Int) < 2 ^ t.width := by
    rw [cast]
    exact Int.emod_lt_of_pos _ pos
  refine ⟨by exact_mod_cast lt, ?_⟩
  rw [cast]
  split
  · rw [← Int.add_emod_right]
    exact Int.emod_eq_of_lt (by omega) (by omega)
  · exact Int.emod_eq_of_lt (by omega) (by omega)

/-- The clamped value and the indefinite one are in range. -/
theorem isCode_clamp (t : Ty) (z : Int) : IsCode t (wrapTo t.width (t.clamp z)) (t.clamp z) := by
  obtain ⟨lo, hi, -⟩ := range_bounds t
  rw [clamp_of_range]
  refine isCode_wrapTo ?_ ?_ <;> split_ifs <;> omega

theorem isCode_indefinite (t : Ty) : IsCode t (wrapTo t.width (indefiniteOf t)) (indefiniteOf t) := by
  obtain ⟨lo, hi, -⟩ := range_bounds t
  unfold indefiniteOf
  split
  · exact isCode_wrapTo le_rfl (by omega)
  · exact isCode_wrapTo (by omega) le_rfl

/-! ## Conversions to an integer type (R98) -/

theorem encodeTy_int {t : Ty} (ht : t ∈ intTypes) (rm : RM) (sat : Bool) (v : FV) : encodeTy t rm sat v = toIntTy t rm sat v := by
  simp only [intTypes, List.mem_cons, List.not_mem_nil, or_false] at ht
  rcases ht with rfl | rfl | rfl | rfl | rfl | rfl | rfl | rfl <;> rfl

theorem encode_int_fin {t : Ty} (ht : t ∈ intTypes) {rm : RM} (sat : Bool) {neg : Bool} {n d : Nat} {z : Int} (hd : 0 < d)
    (rounds : RoundsTo rm neg n d z) :
    (leastOf t ≤ z → z ≤ greatestOf t → IsCode t (encodeTy t rm sat (.fin neg n d)) z) ∧
    (¬ (leastOf t ≤ z ∧ z ≤ greatestOf t) → IsCode t (encodeTy t rm sat (.fin neg n d))
      (if sat then (if z < leastOf t then leastOf t else greatestOf t) else indefiniteOf t)) := by
  have rounded : signedInt neg (roundDiv rm neg n d) = z := roundsTo_unique hd (roundsTo_roundDiv rm neg hd) rounds
  have value : encodeTy t rm sat (.fin neg n d) =
      wrapTo t.width (if leastOf t ≤ z ∧ z ≤ greatestOf t then z else if sat then t.clamp z else indefiniteOf t) := by
    rw [encodeTy_int ht, ← rounded, ← minInt_eq, ← maxInt_eq, ← indefinite_eq]
    rfl
  rw [value]
  refine ⟨fun lo hi => ?_, fun out => ?_⟩
  · rw [if_pos ⟨lo, hi⟩]
    exact isCode_wrapTo lo hi
  · rw [if_neg out]
    cases sat with
    | true =>
      have clamped := isCode_clamp t z
      have same : t.clamp z = if z < leastOf t then leastOf t else greatestOf t := by
        rw [clamp_of_range]
        split_ifs <;> omega
      rw [same] at clamped
      rw [if_pos rfl, if_pos rfl, same]
      exact clamped
    | false => exact isCode_indefinite t

theorem encode_int_special {t : Ty} (ht : t ∈ intTypes) (rm : RM) (sat neg : Bool) :
    IsCode t (encodeTy t rm sat (.inf neg)) (if sat then (if neg then leastOf t else greatestOf t) else indefiniteOf t) ∧
    IsCode t (encodeTy t rm sat .nan) (if sat then 0 else indefiniteOf t) := by
  obtain ⟨lo, hi, -⟩ := range_bounds t
  rw [encodeTy_int ht, encodeTy_int ht]
  simp only [toIntTy, minInt_eq, maxInt_eq, indefinite_eq]
  cases sat with
  | true => cases neg with
    | true => exact ⟨isCode_wrapTo le_rfl (by simp; omega), isCode_wrapTo (by simp; omega) (by simp; omega)⟩
    | false => exact ⟨isCode_wrapTo (by simp; omega) le_rfl, isCode_wrapTo (by simp; omega) (by simp; omega)⟩
  | false => exact ⟨isCode_indefinite t, isCode_indefinite t⟩

end Sys2Proof.Machine
end


section
/-! PROOFS. Conversions between integers, and the formats and conversions together. -/

namespace Sys2Proof.Machine

open Sys2Proof

/-! ## Conversions between integer types (R99) -/

theorem isInt_iff (t : Ty) : t.isInt = true ↔ t ∈ intTypes := by cases t <;> decide

/-- The integer that a code of an integer type stands for. -/
def intOf (s : Ty) (bits : Nat) : Int := if s ∈ signedTypes ∧ 2 ^ (s.width - 1) ≤ bits then (bits : Int) - 2 ^ s.width else bits

theorem valueOf_eq (s : Ty) (bits : Nat) : valueOf s bits = intOf s bits := by
  unfold valueOf intOf
  simp only [signed_iff]

theorem convertTy_int {s t : Ty} (hs : s ∈ intTypes) (ht : t ∈ intTypes) (rm : RM) (sat : Bool) {bits : Nat} (small : bits < 2 ^ s.width) :
    convertTy s t rm sat bits = wrapTo t.width (if sat && decide (t.width ≤ s.width) then t.clamp (intOf s bits) else intOf s bits) := by
  have value : (if s.isSigned then signedOf s.width bits else (bits % 2 ^ s.width : Nat) : Int) = intOf s bits :=
    (intVal_eq small).trans (valueOf_eq s bits)
  rw [convertTy, (isInt_iff s).2 hs, (isInt_iff t).2 ht, Bool.and_self, if_pos rfl, intToInt, value]

/-- A conversion that leaves the integers is a rounding of the exact value. -/
theorem convertTy_other {s t : Ty} (other : s ∉ intTypes ∨ t ∉ intTypes) (rm : RM) (sat : Bool) (bits : Nat) :
    convertTy s t rm sat bits = encodeTy t rm sat (decodeTy s bits) := by
  rw [convertTy, if_neg]
  rw [Bool.and_eq_true, isInt_iff, isInt_iff]
  tauto

theorem intOf_bounds {s : Ty} {bits : Nat} (small : bits < 2 ^ s.width) : -(2 : Int) ^ (s.width - 1) ≤ intOf s bits ∧ intOf s bits < 2 ^ s.width := by
  have smallZ : (bits : Int) < 2 ^ s.width := by exact_mod_cast small
  have double := width_double s
  have pos : (0 : Int) < 2 ^ (s.width - 1) := by positivity
  unfold intOf
  split
  · rename_i h
    have : (2 : Int) ^ (s.width - 1) ≤ bits := by exact_mod_cast h.2
    omega
  · omega

theorem convert_ints {s t : Ty} (hs : s ∈ intTypes) (ht : t ∈ intTypes) (rm : RM) (sat : Bool) {bits : Nat} (small : bits < 2 ^ s.width) :
    (leastOf t ≤ intOf s bits → intOf s bits ≤ greatestOf t → IsCode t (convertTy s t rm sat bits) (intOf s bits)) ∧
    (s.width < t.width → convertTy s t rm sat bits = if intOf s bits < 0 then 2 ^ t.width - 2 ^ s.width + bits else bits) ∧
    (t.width ≤ s.width → ¬ (leastOf t ≤ intOf s bits ∧ intOf s bits ≤ greatestOf t) →
      (sat = true → IsCode t (convertTy s t rm sat bits) (if intOf s bits < leastOf t then leastOf t else greatestOf t)) ∧
      (sat = false → convertTy s t rm sat bits = bits % 2 ^ t.width)) := by
  rw [convertTy_int hs ht rm sat small]
  obtain ⟨low, high⟩ := intOf_bounds small
  have smallZ : (bits : Int) < 2 ^ s.width := by exact_mod_cast small
  refine ⟨fun lo hi => ?_, fun wider => ?_, fun narrower out => ⟨fun clamps => ?_, fun keeps => ?_⟩⟩
  · have same : t.clamp (intOf s bits) = intOf s bits := by
      rw [clamp_of_range, if_neg (by omega), if_neg (by omega)]
    rw [same, ite_self]
    exact isCode_wrapTo lo hi
  · rw [decide_eq_false (by omega), Bool.and_false, if_neg (by simp)]
    have pow : (2 : Int) ^ s.width < 2 ^ t.width := pow_lt_pow_right₀ (by norm_num) wider
    have powN : 2 ^ s.width < 2 ^ t.width := Nat.pow_lt_pow_right (by norm_num) wider
    have double := width_double s
    have cast := wrapTo_cast t.width (intOf s bits)
    split
    · rename_i neg
      have value : intOf s bits = bits - 2 ^ s.width := by
        unfold intOf at neg ⊢
        split at neg
        · rename_i h
          rw [if_pos h]
        · omega
      rw [← Int.add_emod_right, Int.emod_eq_of_lt (by omega) (by omega), value] at cast
      rw [value]
      zify [powN.le]
      rw [cast]
      ring
    · rename_i pos
      have value : intOf s bits = bits := by
        unfold intOf at pos ⊢
        split at pos
        · omega
        · rename_i h
          rw [if_neg h]
      rw [Int.emod_eq_of_lt (by omega) (by omega), value] at cast
      rw [value]
      exact_mod_cast cast
  · have same : t.clamp (intOf s bits) = if intOf s bits < leastOf t then leastOf t else greatestOf t := by
      rw [clamp_of_range]
      split_ifs <;> omega
    have clamped := isCode_clamp t (intOf s bits)
    rw [clamps, decide_eq_true narrower, Bool.and_true, if_pos rfl]
    rwa [same] at clamped ⊢
  · have divides : (2 : Int) ^ t.width ∣ 2 ^ s.width := pow_dvd_pow 2 narrower
    have cast := wrapTo_cast t.width (intOf s bits)
    have modulo : intOf s bits % 2 ^ t.width = (bits : Int) % 2 ^ t.width := by
      unfold intOf
      split
      · rw [Int.sub_emod, Int.emod_eq_zero_of_dvd divides, sub_zero, Int.emod_emod_of_dvd _ dvd_rfl]
      · rfl
    rw [modulo] at cast
    rw [keeps, Bool.false_and, if_neg (by simp)]
    exact_mod_cast cast

/-- The exact value of a code of an integer type. -/
theorem decodeTy_int {t : Ty} (ht : t ∈ intTypes) {k : Nat} (small : k < 2 ^ t.width) :
    decodeTy t k = if t ∈ signedTypes ∧ 2 ^ (t.width - 1) ≤ k then .fin true (2 ^ t.width - k) 1 else .fin false k 1 := by
  have value : decodeTy t k = FV.ofInt (intOf t k) := by
    rw [← valueOf_eq, ← intVal_eq small]
    simp only [intTypes, List.mem_cons, List.not_mem_nil, or_false] at ht
    rcases ht with rfl | rfl | rfl | rfl | rfl | rfl | rfl | rfl <;> rfl
  have smallZ : (k : Int) < 2 ^ t.width := by exact_mod_cast small
  rw [value, FV.ofInt, intOf]
  by_cases neg : t ∈ signedTypes ∧ 2 ^ (t.width - 1) ≤ k
  · rw [if_pos neg, if_pos neg, decide_eq_true (by omega)]
    have below : (k : Int) - 2 ^ t.width = -((2 ^ t.width - k : Nat) : Int) := by
      push_cast [small.le]
      ring
    rw [below, Int.natAbs_neg, Int.natAbs_natCast]
  · rw [if_neg neg, if_neg neg, decide_eq_false (by omega), Int.natAbs_natCast]

/-! ## A format's clause -/

/-- `goesUp` of a value that is a product, as R97 has its comparison with the middle. -/
def goesUpOf (rm : RM) (neg : Bool) (fb k d n unit : Nat) : Prop :=
  codeSize fb k * d ≠ n * unit ∧ match rm with
    | .rtz => False
    | .rdn => neg = true
    | .rup => neg = false
    | .rne => (codeSize fb k + codeSize fb (k + 1)) * d < 2 * n * unit ∨
        ((codeSize fb k + codeSize fb (k + 1)) * d = 2 * n * unit ∧ k % 2 = 1)

theorem goesUpOf_iff (rm : RM) (neg : Bool) (fb k d n unit : Nat) : goesUpOf rm neg fb k d n unit ↔ goesUp rm neg fb k d (n * unit) := by
  cases rm <;> simp only [goesUpOf, goesUp, Nat.mul_assoc]

theorem format_holds {t : Ty} {F : Fmt} {cls : Nat} (is : HasFormat t F cls) (rm : RM) (sat neg : Bool) (n d k : Nat) (hd : 0 < d) :
    (t.width = 1 + F.eb + F.fb ∧ (k ≤ F.topOf cls → ¬ (cls = 1 ∧ neg = true ∧ k = 0) →
        ∃ i j, decodeTy t (F.sign neg + k) = .fin neg i j ∧ 0 < j ∧ i * F.unit = codeSize F.fb k * j) ∧
      (cls = 0 ∨ cls = 3 → decodeTy t (F.sign neg + (2 ^ F.eb - 1) * 2 ^ F.fb) = .inf neg ∧
        (0 < k → k < 2 ^ F.fb → decodeTy t (F.sign neg + (2 ^ F.eb - 1) * 2 ^ F.fb + k) = .nan)) ∧
      (cls = 1 → decodeTy t (F.nanOf cls) = .nan) ∧ (cls = 2 → decodeTy t (F.sign neg + F.nanOf cls) = .nan)) ∧
    encodeTy t rm sat .nan = F.nanOf cls ∧
    encodeTy t rm sat (.inf neg) =
      (if cls = 0 ∨ (cls = 3 ∧ sat = false) then F.sign neg + (2 ^ F.eb - 1) * 2 ^ F.fb else F.mostOf cls sat neg) ∧
    encodeTy t rm sat (.fin neg 0 d) = (if cls = 1 then 0 else F.sign neg) ∧
    (codeSize F.fb k * d ≤ n * F.unit → n * F.unit < codeSize F.fb (k + 1) * d → 0 < n →
      (¬ goesUpOf rm neg F.fb k d n F.unit → encodeTy t rm sat (.fin neg n d) =
        if F.topOf cls < k then F.pastOf cls rm sat neg else if k = 0 then (if cls = 1 then 0 else F.sign neg) else F.sign neg + k) ∧
      (goesUpOf rm neg F.fb k d n F.unit → encodeTy t rm sat (.fin neg n d) =
        if F.topOf cls ≤ k then F.pastOf cls rm sat neg else F.sign neg + (k + 1))) := by
  obtain ⟨special, narrow, ocp⟩ := decode_special is neg k
  simp only [goesUpOf_iff]
  refine ⟨⟨is.width, decode_finite is neg, special, narrow, ocp⟩, ?_, ?_, ?_, fun lo hi hn => encode_fin is rm sat neg hn hd lo hi⟩
  · rw [encodeTy_of_format is, ← is.cnan]
    rfl
  · rw [encodeTy_of_format is, ← infinite_eq is]
    rfl
  · rw [encodeTy_of_format is, ← zero_eq is]
    rfl

theorem format_f32 : HasFormat .f32 ⟨8, 23, 127, .ieee, 0x7F7FFFFF, 0x7FC00000⟩ 0 :=
  ⟨rfl, by decide, by decide, by decide, rfl, by decide, by decide, rfl, by decide⟩
theorem format_f16 : HasFormat .f16 ⟨5, 10, 15, .ieee, 0x7BFF, 0x7E00⟩ 0 :=
  ⟨rfl, by decide, by decide, by decide, rfl, by decide, by decide, rfl, by decide⟩
theorem format_bf16 : HasFormat .bf16 ⟨8, 7, 127, .ieee, 0x7F7F, 0x7FC0⟩ 0 :=
  ⟨rfl, by decide, by decide, by decide, rfl, by decide, by decide, rfl, by decide⟩
theorem format_e4m3n : HasFormat .e4m3n ⟨4, 3, 8, .narrow, 0x7F, 0x80⟩ 1 :=
  ⟨rfl, by decide, by decide, by decide, rfl, by decide, by decide, rfl, by decide⟩
theorem format_e5m2n : HasFormat .e5m2n ⟨5, 2, 16, .narrow, 0x7F, 0x80⟩ 1 :=
  ⟨rfl, by decide, by decide, by decide, rfl, by decide, by decide, rfl, by decide⟩
theorem format_e2m1n : HasFormat .e2m1n ⟨2, 1, 2, .narrow, 0x7, 0x8⟩ 1 :=
  ⟨rfl, by decide, by decide, by decide, rfl, by decide, by decide, rfl, by decide⟩
theorem format_ocp8a : HasFormat .ocp8a ⟨4, 3, 7, .ocpA, 0x7E, 0x7F⟩ 2 :=
  ⟨rfl, by decide, by decide, by decide, rfl, by decide, by decide, rfl, by decide⟩
theorem format_ocp8b : HasFormat .ocp8b ⟨5, 2, 15, .ocpB, 0x7B, 0x7E⟩ 3 :=
  ⟨rfl, by decide, by decide, by decide, rfl, by decide, by decide, rfl, by decide⟩

/-! ## The obligation -/

theorem mul_fin (a b : Bool) {n d m e : Nat} (hd : 0 < d) (he : 0 < e) :
    ∃ i j, (FV.fin a n d).mul (.fin b m e) = .fin (a != b) i j ∧ 0 < j ∧ i * (d * e) = n * m * j :=
  ⟨n * m, d * e, rfl, Nat.mul_pos hd he, rfl⟩

theorem div_fin (a b : Bool) {n d m e : Nat} (hd : 0 < d) (hm : m ≠ 0) :
    ∃ i j, (FV.fin a n d).div (.fin b m e) = .fin (a != b) i j ∧ 0 < j ∧ i * (d * m) = n * e * j :=
  ⟨n * e, d * m, by simp [FV.div, hm], Nat.mul_pos hd (Nat.pos_of_ne_zero hm), rfl⟩

/-- A shared exponent below the last code is its power of two (R88). -/
theorem scale_worth {E : Nat} (low : E < 255) : ∃ i j, decodeTy .e8m0 E = .fin false i j ∧ 0 < j ∧ i * 2 ^ 127 = 2 ^ E * j := by
  have value : decodeTy .e8m0 E = FV.dyadic false 1 ((E : Int) - (127 : Nat)) := by
    rw [show decodeTy .e8m0 E = decodeE8M0 E from rfl, decodeE8M0, Nat.mod_eq_of_lt (by omega), if_neg (by omega)]
    rfl
  obtain ⟨i, j, same, pos, worth⟩ := dyadic_worth false 1 127 E (x := (E : Int) - (127 : Nat)) rfl
  exact ⟨i, j, value.trans same, pos, worth.trans (by rw [Nat.one_mul])⟩

/-- NaN is the answer of every operation with one. -/
theorem nan_operand (rm : RM) (v : FV) :
    FV.nan.add rm v = .nan ∧ v.add rm .nan = .nan ∧ FV.nan.mul v = .nan ∧ v.mul .nan = .nan ∧ FV.nan.div v = .nan ∧ v.div .nan = .nan := by
  cases v <;> exact ⟨rfl, rfl, rfl, rfl, rfl, rfl⟩

theorem special_tables (rm : RM) :
    (∀ e ∈ [(SFun.exp2, 0x7F800000#32, 0x7F800000#32), (.exp2, 0xFF800000#32, 0#32), (.exp2, 0#32, 0x3F800000#32),
            (.log2, 0x7F800000#32, 0x7F800000#32), (.log2, 0xFF800000#32, 0x7FC00000#32), (.log2, 0#32, 0xFF800000#32),
            (.log2, 0x80000000#32, 0xFF800000#32), (.log2, 0xBF800000#32, 0x7FC00000#32), (.log2, 0x3F800000#32, 0#32),
            (.rcp, 0#32, 0x7F800000#32), (.rcp, 0x80000000#32, 0xFF800000#32), (.rcp, 0xFF800000#32, 0x80000000#32),
            (.rsq, 0#32, 0x7F800000#32), (.rsq, 0x80000000#32, 0xFF800000#32), (.rsq, 0x7F800000#32, 0#32),
            (.rsq, 0xBF800000#32, 0x7FC00000#32), (.sqrt, 0x80000000#32, 0x80000000#32), (.sqrt, 0xBF800000#32, 0x7FC00000#32),
            (.sqrt, 0x7F800000#32, 0x7F800000#32), (.tanh, 0x7F800000#32, 0x3F800000#32), (.tanh, 0x80000000#32, 0x80000000#32),
            (.sin, 0x7F800000#32, 0x7FC00000#32), (.sin, 0x80000000#32, 0x80000000#32), (.cos, 0xFF800000#32, 0x7FC00000#32),
            (.cos, 0#32, 0x3F800000#32)], specialF32 e.1 rm e.2.1 = e.2.2) := by
  cases rm <;> decide +kernel

/-- Settles O27: the instructions write what their lanes' functions give; a format's codes are counted by `codeSize`, and a value rounds
to one of the two codes about it; integers are the codes of their range. -/
theorem conversionsAndFunctions : Obligations.ConversionsAndFunctions := by
  unfold Obligations.ConversionsAndFunctions
  refine ⟨?instructions, ?special, ?formats, ?integers⟩
  case instructions =>
    intro s s1 f r x
    refine ⟨fun h _ => ⟨fun l => convertLane f (x.a.at l), writes_of_un (g := convertLane f) (exec_vcvt_un f s) h,
      fun l j hj => elemOf_convertLane f (x.a.at l) hj⟩, execVqnt_writes, execVdqnt_writes, special_writes⟩
  case special =>
    intro rm x
    exact ⟨fun g => special_nan g rm, special_tables rm, by decide +kernel, special_rcp rm x⟩
  case formats =>
    intro rm sat neg a b n d m e k E _ hd he
    refine ⟨?_, fun low => ?_, rfl, fun t ht => decodeTy_int ht, add_fin rm a b hd he, ?_, rfl, rfl, mul_fin a b hd he, rfl, rfl,
      div_fin a b hd, rfl, rfl, rfl, rfl, nan_operand rm⟩
    · exact List.forall_mem_cons.2 ⟨format_holds format_f32 rm sat neg n d k hd, 
        List.forall_mem_cons.2 ⟨format_holds format_f16 rm sat neg n d k hd, 
        List.forall_mem_cons.2 ⟨format_holds format_bf16 rm sat neg n d k hd, 
        List.forall_mem_cons.2 ⟨format_holds format_e4m3n rm sat neg n d k hd, 
        List.forall_mem_cons.2 ⟨format_holds format_e5m2n rm sat neg n d k hd, 
        List.forall_mem_cons.2 ⟨format_holds format_e2m1n rm sat neg n d k hd, 
        List.forall_mem_cons.2 ⟨format_holds format_ocp8a rm sat neg n d k hd, 
        List.forall_mem_cons.2 ⟨format_holds format_ocp8b rm sat neg n d k hd, fun _ none => absurd none List.not_mem_nil⟩⟩⟩⟩⟩⟩⟩⟩
    · exact scale_worth low
    · rfl
  case integers =>
    intro rm sat neg n d bits z src
    refine ⟨fun s hs t ht small => convert_ints hs ht rm sat small, fun t ht hd => ⟨fun rounds => encode_int_fin ht sat hd rounds,
      (encode_int_special ht rm sat neg).1, (encode_int_special ht rm sat neg).2⟩, fun dst other => convertTy_other other rm sat bits,
      by decide +kernel, ?_, ?_, ?_, ?_⟩
    · cases rm <;> decide +kernel
    · cases rm <;> decide +kernel
    · cases sat <;> decide +kernel
    · cases rm <;> decide +kernel

end Sys2Proof.Machine
end


section
/-! PROOFS. Tile width, random numbers and the label words of the compute stream. -/

namespace Sys2Proof.Machine

open Sys2Proof

theorem settw_fits {n w : Nat} {ws : List Nat} (one : n ≤ 1) (width : w ∈ ws) : ¬ ((decide (1 < n) || !ws.contains w) = true) := by
  simp [one, width]

theorem execSettw_completes {s s1 : State} {f : CFields} {r : CRow} {x : CIn} (h : Issues (.settw f) r { free := true, qb := 1 } s x s1)
    (one : s.grp.paths.length ≤ 1) (width : (x.b.at 0).toNat ∈ [2, 4, 8, 16, 32]) (plain : x.joined = 0#16) :
    Completes (exec (.settw f) s) (fun t => Passed s (s1.setGrp (s1.grp.schedule
      { x.later (s1.laneLat 2) .tilew 0#16 (fun _ => 0#32) with vals := [BitVec.ofNat 32 (x.b.at 0).toNat] })) t x (oneCycle r s x)) := by
  rw [exec_settw, execSettw]
  refine completes_of_fxWrite h rfl ?_
  rw [if_neg, if_neg]
  · rw [CIn.label_joined, plain]
    simp
  · exact settw_fits one width

theorem execSettw_illegal {s s1 : State} {f : CFields} {r : CRow} {x : CIn} (h : Issues (.settw f) r { free := true, qb := 1 } s x s1)
    (bad : 1 < s.grp.paths.length ∨ (x.b.at 0).toNat ∉ [2, 4, 8, 16, 32]) : exec (.settw f) s = .next (s.raiseC { code := 0x01 }) := by
  rw [exec_settw, execSettw, cIssue_of_issues _ h]
  dsimp only
  rw [if_pos (by simpa using bad)]
  rfl

theorem execSettw_labelled {s s1 : State} {f : CFields} {r : CRow} {x : CIn} (h : Issues (.settw f) r { free := true, qb := 1 } s x s1)
    (one : s.grp.paths.length ≤ 1) (width : (x.b.at 0).toNat ∈ [2, 4, 8, 16, 32]) (labelled : x.joined ≠ 0#16) :
    exec (.settw f) s = .next (s.raiseC { code := 0x06, sub := 1, flbl := x.joined }) := by
  rw [exec_settw, execSettw, cIssue_of_issues _ h]
  dsimp only
  rw [if_neg (settw_fits one width), CIn.label_joined, if_pos labelled]
  rfl

/-- What VRAND reads of a lane that may not be launched. -/
theorem launched_key (g : Group) (o : Operand) (l : Nat) :
    (if g.launched.getLsbD l then o.at l else 0#32) = if l < g.lanes ∧ l < 32 then o.at l else 0#32 := by
  refine if_congr ?_ rfl rfl
  rw [Group.launched, BitVec.getLsbD_ofNat, Nat.testBit_two_pow_sub_one]
  simp [and_comm]

/-- The random words of a lane (R112, R225). -/
def randOf (s1 : State) (f : CFields) (x : CIn) (l : Nat) : Word × Word × Word × Word :=
  let lane (o : Operand) (l : Nat) : Word := if l < s1.grp.lanes ∧ l < 32 then o.at l else 0#32
  let lit : Word := match f.imm with | .lit v => v | _ => 0#32
  philox 10 (lane x.c 0, lane x.c 1, BitVec.ofNat 32 l, lit) (lane x.a 0) (lane x.a 1)

theorem execVrand_completes {s s1 : State} {f : CFields} {r : CRow} {x : CIn} {d : Nat} (hd : d = f.dst.toNat)
    (h : Issues (.vrand f) r { static := fun v => decide (d + 3 < v), free := true, qa := 1, qc := 1,
                               writes := [.reg (d + 1), .reg (d + 2), .reg (d + 3)] } s x s1) :
    let lr := x.a.lbl ||| x.c.lbl ||| x.k
    let put (u : State) (n : Nat) (v : Nat → Word) : State := u.setGrp (u.grp.schedule (x.later (u.laneLat 10) (.reg n) lr v))
    Completes (exec (.vrand f) s) (fun t => Passed s (put (put (put (put s1 d (fun l => (randOf s1 f x l).1))
      (d + 1) (fun l => (randOf s1 f x l).2.1)) (d + 2) (fun l => (randOf s1 f x l).2.2.1)) (d + 3) (fun l => (randOf s1 f x l).2.2.2))
      t x (oneCycle r s x)) := by
  subst hd
  rw [exec_vrand, execVrand]
  have done (lb : Label) (lanes : Nat → Word × Word × Word × Word) (body : CIn → State → CRes)
      (runs : body x s1 = .done (((((s1.fxWrite x 10 (.reg f.dst.toNat) (lanesOf (fun l => (lanes l).1)) lb).fxWrite x 10 (.reg (f.dst.toNat + 1))
        (lanesOf (fun l => (lanes l).2.1)) lb).fxWrite x 10 (.reg (f.dst.toNat + 2)) (lanesOf (fun l => (lanes l).2.2.1)) lb)).fxWrite x 10
        (.reg (f.dst.toNat + 3)) (lanesOf (fun l => (lanes l).2.2.2)) lb) 1) := completes_of_done h runs
  exact done (x.a.lbl ||| x.c.lbl ||| x.k) (randOf s1 f x) _ (by simp only [launched_key, resultLabel_two]; rfl)

theorem execVlblrd_completes {s s1 : State} {f : CFields} {r : CRow} {x : CIn} (h : Issues (.vlblrd f) r { free := true } s x s1) :
    Completes (exec (.vlblrd f) s) (fun t => Passed s (s1.setGrp (s1.grp.schedule (x.later (s1.laneLat 2) (.reg f.dst.toNat)
      (if x.written = 0#32 then x.k else x.joined) (fun _ => x.a.lbl.zeroExtend 32)))) t x (oneCycle r s x)) := by
  rw [exec_vlblrd, execVlblrd, ← CIn.label_joined]
  exact completes_of_fxWrite h rfl rfl

/-- The 32 lanes of an operand, read one by one. -/
theorem lanes_eq_map (o : Operand) (full : o.lanes.length = 32) : o.lanes = (List.range 32).map o.at := by
  refine List.ext_getElem (by rw [full]; rfl) fun n hn _ => ?_
  rw [List.getElem_map, List.getElem_range, Operand.at, laneAt]
  simp [hn]

theorem execVlblup_completes {s s1 : State} {f : CFields} {r : CRow} {x : CIn} (h : Issues (.vlblup f) r { imm := some .z32, free := true, qb := 1 } s x s1)
    (full : x.a.lanes.length = 32) :
    Completes (exec (.vlblup f) s) (fun t => Passed s (s1.setGrp (s1.grp.schedule (x.later (s1.laneLat 2) (.reg f.dst.toNat)
      (if x.written = 0#32 then x.k else x.joined ||| BitVec.ofNat 16 (x.b.at 0).toNat) x.a.at))) t x (oneCycle r s x)) := by
  rw [exec_vlblup, execVlblup, ← CIn.label_joined]
  have done {body : CIn → State → CRes} (runs : body x s1 = .done (s1.fxWrite x 2 (.reg f.dst.toNat) x.a.lanes
      (x.readLabel (x.label.join ((x.b.at 0).truncate 16)))) 1) := completes_of_fxWrite h rfl runs
  rw [lanes_eq_map x.a full] at done
  exact done (by rw [← lanes_eq_map x.a full])

theorem philox_step (n : Nat) (c : Word × Word × Word × Word) (k0 k1 : Word) :
    philox (n + 1) c k0 k1 = philox n (philoxRound c k0 k1) (k0 + 0x9E3779B9#32) (k1 + 0xBB67AE85#32) := by
  delta philox
  exact rfl

theorem philox_succ (n : Nat) (c0 c1 c2 c3 k0 k1 : Word) : philox (n + 1) (c0, c1, c2, c3) k0 k1 =
    philox n (BitVec.ofNat 32 (0xCD9E8D57 * c2.toNat / 2 ^ 32) ^^^ c1 ^^^ k0, 0xCD9E8D57#32 * c2,
              BitVec.ofNat 32 (0xD2511F53 * c0.toNat / 2 ^ 32) ^^^ c3 ^^^ k1, 0xD2511F53#32 * c0) (k0 + 0x9E3779B9#32) (k1 + 0xBB67AE85#32) := by
  have low (m : Nat) (c : Word) : BitVec.ofNat 32 (m * c.toNat) = BitVec.ofNat 32 m * c := by
    rw [BitVec.ofNat_mul, BitVec.ofNat_toNat, BitVec.setWidth_eq]
  rw [philox_step, ← low, ← low]
  unfold philoxRound
  dsimp only

/-- Settles O29: each instruction makes the write that it names; Philox's known answers are computed. -/
theorem tileWidthRandomAndLabels : Obligations.TileWidthRandomAndLabels := by
  unfold Obligations.TileWidthRandomAndLabels
  refine ⟨fun s s1 f r x => ?_, by decide +kernel, by decide +kernel, philox_succ⟩
  exact ⟨fun h => ⟨execSettw_completes h, execSettw_illegal h, execSettw_labelled h⟩, execVrand_completes rfl, execVlblrd_completes,
    execVlblup_completes⟩

end Sys2Proof.Machine
end


section
/-! PROOFS. Declassification requests, requests to the runtime and breakpoints of the compute stream. -/

namespace Sys2Proof.Machine

open Sys2Proof

/-- The registers of a VSYS as they are read (R258). -/
def vsysRegs (f : CFields) (s1 : State) : List Operand :=
  (List.range (f.x.toNat + 1)).map (fun i => s1.grp.readCode 0 0 0 0 (f.sa.toNat + i))

/-- The label of a VSYS and of its reply (R137). -/
def vsysLabel (f : CFields) (x : CIn) (s1 : State) : Label := Label.joinAll ((vsysRegs f s1).map (·.lbl)) ||| x.k

def vsysOp (f : CFields) (x : CIn) (s1 : State) : Op :=
  { id := 0, fc := some .cl, dsts := [.reg f.dst.toNat], lbl := vsysLabel f x s1, data := .syscall }

/-- What VSYS does once it issues. -/
def vsysBody (f : CFields) (s : State) (x : CIn) (s1 : State) : CRes :=
  let epl := (s.ctx (s.ctxOf s.cur)).eplRuntime
  if (s.recOf s.cur).syssig = 0 then .fault fltIllegal false
  else if x.written = 0#32 then .done (s1.issueLanes x (vsysOp f x s1)) 1
  else if !(vsysLabel f x s1).within epl then .fault (fltMsg 3 (vsysLabel f x s1) epl 0) false
  else if s1.grp.ops.any (fun y => y.data == .syscall && !y.doneq) then .wait 0x119
  else if !s.slotRead s.cur || s.sstate s.cur ≠ 0 then .asks (s.askSlot s.cur) 0x119
  else if !s1.grp.quadsReleased x.qmask then .wait 0x119
  else .done ((s1.issueLanes x (vsysOp f x s1)).postRequest s.cur 0 0
    (vsysRecord x s1.grp.gidx s.tm.teamix s.path.pos (vsysLabel f x s1) (vsysRegs f s1))) 1

def vsysSpec (f : CFields) : CSpec :=
  { static := fun v => decide (f.sa.toNat + (f.x.toNat + 1) ≤ v),
    reads := (List.range (f.x.toNat + 1)).map (fun i => .reg (f.sa.toNat + i)), fc := some .cl }

theorem exec_vsys_body (f : CFields) (s : State) : exec (.vsys f) s = cIssue (.vsys f) (vsysSpec f) (vsysBody f s) s := by
  have regs (s1 : State) : ((List.range (f.x.toNat + 1)).map (f.sa.toNat + ·)).map (s1.grp.readCode 0 0 0 0) = vsysRegs f s1 := by
    rw [List.map_map]
    rfl
  have label (x : CIn) (s1 : State) : resultLabel x.k ((vsysRegs f s1).map (·.lbl)) = vsysLabel f x s1 := BitVec.or_comm ..
  have reads : ((List.range (f.x.toNat + 1)).map (f.sa.toNat + ·)).map Dst.reg = (vsysSpec f).reads := by
    rw [List.map_map]
    rfl
  rw [exec_vsys, execVsys]
  simp only [regs, label, reads]
  rfl

section
variable {s s1 : State} {f : CFields} {r : CRow} {x : CIn} (h : Issues (.vsys f) r (vsysSpec f) s x s1) (serves : (s.recOf s.cur).syssig ≠ 0)
include h serves

theorem vsys_without_lanes (none : x.written = 0#32) :
    Completes (exec (.vsys f) s) (fun t => Passed s (s1.issueLanes x (vsysOp f x s1)) t x 1) := by
  rw [exec_vsys_body]
  exact completes_of_done h (by rw [vsysBody, if_neg serves, if_pos none])

variable (some : x.written ≠ 0#32)
include some

theorem vsys_label (out : ¬ LabelIn (vsysLabel f x s1) (s.ctx (s.ctxOf s.cur)).eplRuntime) :
    exec (.vsys f) s = .next (s.raiseC { code := 0x08, sub := 3, flbl := vsysLabel f x s1, clbl := (s.ctx (s.ctxOf s.cur)).eplRuntime }) := by
  rw [exec_vsys_body, cIssue_of_issues _ h, vsysBody, if_neg serves, if_neg some, if_pos (by simpa [← within_iff_labelIn] using out)]
  rfl

variable (within : LabelIn (vsysLabel f x s1) (s.ctx (s.ctxOf s.cur)).eplRuntime)
  (alone : ∀ y ∈ s1.grp.ops, y.data = .syscall → y.doneq = true)
include within alone

omit h in
/-- Below the checks of its label and of an older request. -/
theorem vsysBody_open : vsysBody f s x s1 =
    if !s.slotRead s.cur || s.sstate s.cur ≠ 0 then .asks (s.askSlot s.cur) 0x119
    else if !s1.grp.quadsReleased x.qmask then .wait 0x119
    else .done ((s1.issueLanes x (vsysOp f x s1)).postRequest s.cur 0 0
      (vsysRecord x s1.grp.gidx s.tm.teamix s.path.pos (vsysLabel f x s1) (vsysRegs f s1))) 1 := by
  have none_ : ¬ s1.grp.ops.any (fun y => y.data == .syscall && !y.doneq) = true := by
    simp only [List.any_eq_true, Bool.and_eq_true, beq_iff_eq, Bool.not_eq_true', not_exists, not_and, Bool.not_eq_false]
    exact alone
  rw [vsysBody, if_neg serves, if_neg some, if_neg (by simpa [within_iff_labelIn] using within), if_neg none_]

theorem vsys_asks (busy : s.slotRead s.cur = false ∨ s.sstate s.cur ≠ 0) : exec (.vsys f) s = (s.askSlot s.cur).cWait 0x119 := by
  rw [exec_vsys_body, cIssue_of_issues _ h, vsysBody_open serves some within alone, if_pos (by simpa using busy)]

theorem vsys_posts (read : s.slotRead s.cur = true) (empty : s.sstate s.cur = 0) (released : s1.grp.quadsReleased x.qmask = true) :
    Completes (exec (.vsys f) s) (fun t => Passed s ((s1.issueLanes x (vsysOp f x s1)).postRequest s.cur 0 0
      (vsysRecord x s1.grp.gidx s.tm.teamix s.path.pos (vsysLabel f x s1) (vsysRegs f s1))) t x 1) := by
  rw [exec_vsys_body]
  refine completes_of_done h ?_
  rw [vsysBody_open serves some within alone, if_neg (by simp [read, empty]), if_neg (by simp [released])]

end

theorem vsysRecord_eq (f : CFields) (x : CIn) (s1 : State) (gidx teamix pos : Nat) (l : Label) :
    vsysRecord x gidx teamix pos l (vsysRegs f s1) = bytesOf x.written.toNat 4 ++ bytesOf (f.x.toNat + 1) 1 ++ bytesOf gidx 1 ++ bytesOf l.toNat 2
      ++ bytesOf teamix 4 ++ bytesOf 0 4 ++ bytesOf pos 8 ++ bytesOf 0 40
      ++ (vsysRegs f s1).flatMap (fun r => (List.range 32).flatMap (fun l => bytesOf (if x.written.getLsbD l then (r.at l).toNat else 0) 4)) := by
  rw [vsysRecord, show (vsysRegs f s1).length = f.x.toNat + 1 by rw [vsysRegs, List.length_map, List.length_range]]

theorem execVdcls_completes {s s1 : State} {f : CFields} {r : CRow} {x : CIn} (flag : List Dst)
    (hflag : flag = if f.sc.toNat % 8 = 0 then [] else [.pred (f.sc.toNat % 8)])
    (h : Issues (.vdcls f) r { imm := some .z32, writes := flag, qb := 1 } s x s1) :
    Completes (exec (.vdcls f) s) (fun t => Passed s ((if x.written = 0#32 then s1 else s1.askWeigh s.cur s1.grp.nextOp).issueLanes x
      { id := 0, fc := none, dsts := .reg f.dst.toNat :: flag, lbl := x.k,
        data := .vdcls (f.sc.toNat % 8) x.a.lanes x.a.lbl (BitVec.ofNat 16 (x.b.at 0).toNat) x.b.lbl }) t x 1) := by
  subst hflag
  rw [exec_vdcls, execVdcls]
  exact completes_of_done (cost := 1) h rfl

theorem execVbrk_passes {s s1 : State} {f : CFields} {r : CRow} {x : CIn} (h : Issues (.vbrk f) r { free := true } s x s1)
    (idle : s.grp.active s.path = 0#32) : Completes (exec (.vbrk f) s) (fun t => Passed s s1 t x (oneCycle r s x)) := by
  rw [exec_vbrk, execVbrk]
  have done := completes_of_done (cost := 1) (s2 := s1) (body := fun _ s1 => if s.grp.active s.path = 0#32 then CRes.done s1 1
    else .fault { code := 0x11, kcode := f.ext.toNat % 2 ^ 16 } true) h (by rw [if_pos idle])
  rw [Bool.true_and] at done
  exact done

theorem execVbrk_breaks {s s1 : State} {f : CFields} {r : CRow} {x : CIn} (h : Issues (.vbrk f) r { free := true } s x s1)
    (busy : s.grp.active s.path ≠ 0#32) : exec (.vbrk f) s = .next (s.raiseRec s.cur
      { flt := { code := 0x11, kcode := f.ext.toNat % 65536 }, cslice := true, fpos := s.path.pos, fcycle := s.cycle,
        fpath := some s.curPath, brk := true }) := by
  rw [exec_vbrk, execVbrk, cIssue_of_issues _ h]
  simp only [if_neg busy]
  rfl

/-- Settles O30: VDCLS enters its queue; VSYS is its checks in order and then its request; VBRK breaks or passes. -/
theorem vectorSystemInstructions : Obligations.VectorSystemInstructions := by
  intro s s1 f r x
  refine ⟨execVdcls_completes _ rfl, fun h serves => ⟨vsys_without_lanes h serves, fun lanes within alone read empty released => ?_,
    fun lanes within alone busy => vsys_asks h serves lanes within alone busy, vsys_label h serves⟩, fun h => ⟨execVbrk_passes h, execVbrk_breaks h⟩⟩
  have posts := vsys_posts h serves lanes within alone read empty released
  rw [vsysRecord_eq] at posts
  exact posts

end Sys2Proof.Machine
end


section
/-! PROOFS. The issue of a lane operation, of whatever kind. -/

namespace Sys2Proof.Machine

open Sys2Proof

/-- A group with its eight quads and nothing in flight. -/
def quietState : State := State.reset.setGrp { State.reset.grp with quads := List.replicate 8 {} }

def idleFields : CFields :=
  { dt := .z32, pr := 0#3, pn := false, tk := 0#4, rm := .rne, sat := false, ru := false, imm := .none, x := 0#2, dst := 0#10,
    sa := 0#10, sb := 0#10, sc := 0#10, ext := 0#20 }

/-- An issue without lanes. -/
def noLanes : CIn := { f := idleFields, qmask := 1, written := 0#32, full := true, k := 0#16, a := ⟨[], 0#16⟩, b := ⟨[], 0#16⟩, c := ⟨[], 0#16⟩ }

/-- Refutes O31: the statement speaks of every operation under a counter, a fence among them, which leaves the issue order without its
counter falling. -/
theorem not_laneOperationIssue : ¬ Obligations.LaneOperationIssue := by
  intro h
  have counter := (h quietState noLanes { id := 0, fc := some .st, data := .fence .acq false false } .st rfl rfl rfl).2 rfl rfl |>.2.2.2.1
  exact absurd counter (by decide +kernel)

end Sys2Proof.Machine
end


section
/-! PROOFS. Lane accesses to global memory. -/

namespace Sys2Proof.Machine

open Sys2Proof

/-! ## What reading an immediate leaves -/

/-- A read at issue that has its bytes has changed nothing but groups, translations and what accesses touch; the group that moves is
the same. -/
theorem State.cur_readBytes {s t : State} {k va n : Nat} {d : OpData} {bs : List Byte} {l : Label} (h : s.readBytes k va n d = .ok t bs l) :
    t.cur = s.cur := by
  have done {u : State} {x : Op} (hu : u.readDone k x = .ok t bs l) : t.cur = u.cur := by
    cases hu
    rfl
  have leaves (l : List Acc) : (l.foldl (fun x a => x.keepLeaf (s.coreCache k) (s.ctxOf k) a.va) s).cur = s.cur := by
    obtain ⟨_, _, _, _, _, _, eq⟩ := (State.SentTo.refl s).foldl (f := fun x a => x.keepLeaf (s.coreCache k) (s.ctxOf k) a.va)
      (fun u a hu => hu.keepLeaf ..) l
    rw [eq]
  unfold State.readBytes at h
  dsimp only at h
  split at h
  · cases h
  · split at h
    · cases h
    · split at h
      · exact done h
      · unfold State.readMore at h
        split at h
        · cases h
        · cases h
        · rename_i u accs performed
          split at h
          · obtain ⟨⟨_, _, _, _, _, _, _, _, _, _, _, _, _, _, _, _, eq⟩, -⟩ := State.Accessed.perform performed
            exact (done h).trans (by rw [eq])
          · cases h
  · split at h
    · cases h
    · split at h
      · cases h
      · split at h
        · cases h
        · split at h
          · cases h
            exact leaves _
          · cases h

/-- The group that moves is the same once an instruction has read its operands and made its pops. -/
theorem cur_of_issues {i : Instr} {r : CRow} {sp : CSpec} {s s1 : State} {x : CIn} (h : Issues i r sp s x s1) : s1.cur = s.cur := by
  obtain ⟨cls, op, s0, b, hf, hr, hcodes, hstatic, hrole, htk, hheld, hread, hfc, hpops, hb, hx, rfl⟩ := h
  change s0.cur = s.cur
  unfold State.readB at hb
  dsimp only at hb
  split at hb
  · cases hb
    rfl
  · cases hb
    rfl
  · cases hb
    rfl
  · split at hb
    · rename_i read
      cases hb
      exact State.cur_readBytes read
    · cases hb
    · cases hb

/-! ## Addresses of lanes -/

theorem CIn.badLane_none {x : CIn} {addr : Nat → Nat} {ok : Nat → Bool} (good : ∀ l ∈ x.laneList, ok (addr l) = true) :
    x.badLane addr ok = none := by
  rw [CIn.badLane, List.find?_eq_none.2 (fun l hl => by simp [good l hl])]
  rfl

theorem CIn.badLane_some {x : CIn} {addr : Nat → Nat} {ok : Nat → Bool} {l : Nat}
    (bad : x.laneList.find? (fun l => !ok (addr l)) = some l) : x.badLane addr ok = some (fltIllegalAt (addr l)) := by
  rw [CIn.badLane, bad]
  rfl

/-- The address of a lane's pair and offset (R229). -/
def CIn.pairOf (x : CIn) (h : Operand) (off : Nat → Int) (l : Nat) : Nat :=
  (((h.at l).toNat * 2 ^ 32 + (x.a.at l).toNat + off l) % 2 ^ 64 : Int).toNat

theorem CIn.pairAddr_eq (x : CIn) (h : Operand) (off : Nat → Int) : x.pairAddr h off = x.pairOf h off := by
  funext l
  rw [CIn.pairAddr, CIn.pairOf, wrapTo]
  push_cast
  rfl

theorem CIn.offS32_eq (x : CIn) : x.offS32 = fun l => (x.b.at l).toInt := by
  funext l
  rw [CIn.offS32, signedOf_ofNat (by decide) (x.b.at l).isLt, BitVec.ofNat_toNat, BitVec.setWidth_eq]

theorem laneOk_iff (n a : Nat) : laneOk n a = true ↔ a < 2 ^ 55 ∧ a % n = 0 := by
  rw [laneOk, Bool.and_eq_true, decide_eq_true_iff, beq_iff_eq]

/-! ## The instructions (R229, R233 to R238) -/

section
variable {s s1 : State} {f : CFields} {r : CRow} {x : CIn} {i : Instr} {c : FC} (h : Issues i r (pairSpec f c) s x s1)
include h

theorem illegal_lane {body : CIn → State → CRes} {e : Flt} (runs : exec i s = cIssue i (pairSpec f c) body s)
    (bad : body x s1 = .fault e false) : exec i s = .next (s.raiseRec s.cur
      { flt := e, cslice := true, fpos := s.path.pos, fcycle := s.cycle, fpath := some s.curPath }) := by
  rw [runs, cIssue_of_issues _ h, bad]
  rfl

end

section
variable {s s1 : State} {f : CFields} {r : CRow} {x : CIn} {off : Nat → Int} {n : Nat}

/-- The accesses of a load, a store or an atomic. -/
def laneAccs (s1 : State) (f : CFields) (x : CIn) (off : Nat → Int) (n : Nat) (kind : AccKind) (val cmp : Nat → Nat) : List Acc :=
  x.laneList.map (fun l => s1.formAcc s1.cur { lane := l, va := x.pairOf (s1.pairHi f) off l, size := n, kind := kind, val := val l, cmp := cmp l })

theorem vstxBody_good (f : CFields) (s1 : State) (data : OpData) (more : Label)
    (good : ∀ l ∈ x.laneList, laneOk (f.dt.width / 8) (x.pairOf (s1.pairHi f) (fun l => (x.b.at l).toInt) l) = true) :
    vstxBody f x s1 data more = .done (s1.issueLanes x
      { id := 0, fc := some .st, data := data, lbl := resultLabel x.k [x.a.lbl, (s1.pairHi f).lbl, x.b.lbl, x.c.lbl, more],
        accs := laneAccs s1 f x (fun l => (x.b.at l).toInt) (f.dt.width / 8) .store (fun l => (x.c.at l).toNat % 2 ^ (8 * (f.dt.width / 8))) (fun _ => 0) }) 1 := by
  rw [vstxBody]
  simp only [CIn.pairAddr_eq, CIn.offS32_eq]
  rw [CIn.badLane_none good]
  rfl

theorem vstxBody_bad (f : CFields) (s1 : State) (data : OpData) (more : Label) {l : Nat}
    (bad : x.laneList.find? (fun l => !laneOk (f.dt.width / 8) (x.pairOf (s1.pairHi f) (fun l => (x.b.at l).toInt) l)) = some l) :
    vstxBody f x s1 data more = .fault (fltIllegalAt (x.pairOf (s1.pairHi f) (fun l => (x.b.at l).toInt) l)) false := by
  rw [vstxBody]
  simp only [CIn.pairAddr_eq, CIn.offS32_eq]
  rw [CIn.badLane_some bad]

theorem vamoBody_good (f : CFields) (s1 : State) (dsts : List Dst) (det : Bool)
    (good : ∀ l ∈ x.laneList, laneOk 4 (x.pairOf (s1.pairHi f) (fun _ => 0) l) = true) :
    vamoBody f x s1 dsts det = .done (s1.issueLanes x
      { id := 0, fc := some .gx, dsts := dsts, ety := f.dt,
        accs := (laneAccs s1 f x (fun _ => 0) 4 (.atomic (f.ext.toNat % 16) f.dt) (fun l => (x.b.at l).toNat) (fun l => (x.c.at l).toNat)).map
          (fun a => if det && a.det then { a with kind := .contrib } else a),
        lbl := resultLabel x.k [x.a.lbl, (s1.pairHi f).lbl, x.b.lbl, x.c.lbl] }) 1 := by
  rw [vamoBody]
  simp only [CIn.pairAddr_eq, laneAccs, List.map_map]
  rw [CIn.badLane_none good]
  rfl

theorem vamoBody_bad (f : CFields) (s1 : State) (dsts : List Dst) (det : Bool) {l : Nat}
    (bad : x.laneList.find? (fun l => !laneOk 4 (x.pairOf (s1.pairHi f) (fun _ => 0) l)) = some l) :
    vamoBody f x s1 dsts det = .fault (fltIllegalAt (x.pairOf (s1.pairHi f) (fun _ => 0) l)) false := by
  rw [vamoBody]
  simp only [CIn.pairAddr_eq]
  rw [CIn.badLane_some bad]

end

/-- What VLDX does with its operands. -/
def vldxBody (f : CFields) (x : CIn) (s1 : State) : CRes :=
  match x.badLane (x.pairOf (s1.pairHi f) (fun l => (x.b.at l).toInt)) (laneOk (f.dt.width / 8)) with
  | some e => .fault e false
  | none =>
    .done (s1.issueLanes x { id := 0, fc := some .gx, dsts := [.reg f.dst.toNat], ety := f.dt,
                             lbl := resultLabel x.k [x.a.lbl, (s1.pairHi f).lbl, x.b.lbl],
                             accs := laneAccs s1 f x (fun l => (x.b.at l).toInt) (f.dt.width / 8) .load (fun _ => 0) (fun _ => 0) }) 1

theorem exec_vldx_body (f : CFields) (s : State) : exec (.vldx f) s = cIssue (.vldx f) (pairSpec f .gx) (vldxBody f) s := by
  rw [exec_vldx, execVldx]
  simp only [CIn.pairAddr_eq, CIn.offS32_eq]
  rfl

/-- The label of a load's address and offset, and that of a store's data beside. -/
theorem label_lb (k a h b : Label) : resultLabel k [a, h, b] = a ||| h ||| b ||| k := resultLabel_three ..

theorem label_lc (k a h b c : Label) : resultLabel k [a, h, b, c] = a ||| h ||| b ||| k ||| c := by
  rw [resultLabel_four]
  ac_rfl

theorem label_ld (k a h b c d : Label) : resultLabel k [a, h, b, c, d] = a ||| h ||| b ||| k ||| c ||| d := by
  simp only [resultLabel, Label.joinAll, Label.join, List.foldl, BitVec.zero_or]
  ac_rfl

/-- Settles O32: each instruction makes the accesses of its lanes when every lane's address is acceptable, and faults at the first that
is not. -/
theorem globalLaneAccesses : Obligations.GlobalLaneAccesses := by
  intro s s1 f r x i
  dsimp only
  have good {n : Nat} {off : Nat → Int} (ok : ∀ l ∈ (List.range 32).filter x.written.getLsbD,
      x.pairOf (s1.pairHi f) off l < 2 ^ 55 ∧ x.pairOf (s1.pairHi f) off l % n = 0) :
      ∀ l ∈ x.laneList, laneOk n (x.pairOf (s1.pairHi f) off l) = true := fun l hl => (laneOk_iff ..).2 (ok l hl)
  refine ⟨fun h => ?_, fun h => ?_⟩
  · have cur := cur_of_issues h
    refine ⟨?_, ?_, ?_, ?_, ?_⟩
    · rintro rfl ok
      rw [exec_vldx_body]
      refine completes_of_done h ?_
      rw [vldxBody, CIn.badLane_none (good ok), label_lb, laneAccs, cur]
      rfl
    · rintro rfl ok
      rw [exec_vamo, execVamo]
      refine completes_of_done h ?_
      rw [vamoBody_good f s1 _ _ (good ok), label_lc, laneAccs, cur, List.map_map]
      rfl
    · rintro rfl ok
      rw [exec_vamoDet, execVamoDet]
      refine completes_of_done h ?_
      rw [vamoBody_good f s1 _ _ (good ok), label_lc, laneAccs, cur, List.map_map]
      rfl
    · rintro rfl l bad
      refine illegal_lane h (exec_vldx_body f s) ?_
      rw [vldxBody, CIn.badLane_some bad]
      rfl
    · rintro (rfl | rfl) l bad
      · exact illegal_lane h (exec_vamo f s) (vamoBody_bad f s1 _ _ bad)
      · exact illegal_lane h (exec_vamoDet f s) (vamoBody_bad f s1 _ _ bad)
  · have cur := cur_of_issues h
    refine ⟨?_, ?_, ?_⟩
    · rintro rfl ok
      rw [exec_vstx, execVstx]
      refine completes_of_done h ?_
      rw [vstxBody_good f s1 _ _ (good ok), label_ld, BitVec.or_zero, laneAccs, cur]
      rfl
    · rintro rfl ok
      rw [exec_vstxNotify, execVstxNotify]
      refine completes_of_done h ?_
      rw [vstxBody_good f s1 _ _ (good ok), label_ld, laneAccs, cur]
      rfl
    · rintro (rfl | rfl) l bad
      · exact illegal_lane h (exec_vstx f s) (vstxBody_bad f s1 _ _ bad)
      · exact illegal_lane h (exec_vstxNotify f s) (vstxBody_bad f s1 _ _ bad)

end Sys2Proof.Machine
end


section
/-! PROOFS. Lane accesses to the scratchpad and to accumulator memory. -/

namespace Sys2Proof.Machine

open Sys2Proof

section
variable {f : CFields} {x : CIn} {s1 : State} {kind : AccKind} {dsts : List Dst} {val : Nat → Nat}

theorem CIn.laneList_eq (x : CIn) : x.laneList = (List.range 32).filter x.written.getLsbD := rfl

theorem CIn.bufOff_sum (x : CIn) : x.bufOff true = fun l => ((x.a.at l).toNat + (x.b.at l).toNat) % 2 ^ 32 := rfl

theorem CIn.bufOff_alone (x : CIn) : x.bufOff false = fun l => (x.a.at l).toNat := funext fun l => Nat.mod_eq_of_lt (x.a.at l).isLt

/-- The passes of an access by its lanes' offsets. -/
def passesOf (lanes : List Nat) (off : Nat → Nat) : Nat :=
  ((List.range 32).map (fun b => ((lanes.map (fun l => off l / 4)).eraseDups).countP (fun w => w % 32 == b))).foldl max 1

theorem bankPasses_map (lanes : List Nat) (off : Nat → Nat) : bankPasses (lanes.map off) = passesOf lanes off := by
  rw [bankPasses, List.map_map]
  rfl

/-- A scratchpad access whose lanes lie in the region (R239, R240). -/
theorem spBody_good {useB : Bool} {off : Nat → Nat} (hoff : x.bufOff useB = off)
    (inside : ∀ l ∈ (List.range 32).filter x.written.getLsbD, off l + f.dt.width / 8 ≤ (s1.recOf s1.cur).spsize ∧ off l % (f.dt.width / 8) = 0) :
    spBody f x s1 kind useB dsts val = .done ((s1.issueLanes x
      { id := 0, fc := some .sp, dsts := dsts, ety := f.dt, lbl := x.joined,
        accs := ((List.range 32).filter x.written.getLsbD).map (fun l => { lane := l, space := .scratch, kind := kind, va := off l, pa := off l, size := f.dt.width / 8, val := val l, cmp := (x.c.at l).toNat }) }).pmGroup s1.cur 0x09
      (passesOf ((List.range 32).filter x.written.getLsbD) off - 1)) (passesOf ((List.range 32).filter x.written.getLsbD) off) := by
  rw [spBody, hoff]
  dsimp only
  rw [CIn.badLane_none (fun l hl => by simpa using inside l hl), CIn.label_joined, x.laneList_eq, bankPasses_map]

variable {off : Nat → Nat} (hoff : x.bufOff true = off) (inside : ∀ l ∈ (List.range 32).filter x.written.getLsbD, off l < 8388608 ∧ off l % 4 = 0 ∧
  s1.tm.banks.getLsbD (off l / 131072) = true)
include hoff inside

/-- An access to accumulator memory whose lanes name words of banks that no handle binds (R247, R295). -/
theorem acBody_good (free : ∀ l ∈ (List.range 32).filter x.written.getLsbD, ¬ ∃ h ∈ s1.tm.whand, h.2.bank ≤ off l / 131072 ∧ off l / 131072 < h.2.bank + h.2.nb) :
    acBody x s1 kind dsts val = .done (s1.issueLanes x
      { id := 0, fc := some .sp, dsts := dsts, ety := .z32, lbl := x.joined,
        accs := ((List.range 32).filter x.written.getLsbD).map (fun l => { lane := l, space := .acc, kind := kind, va := off l, pa := off l, val := val l }) }) 1 := by
  rw [acBody, hoff]
  dsimp only
  rw [CIn.badLane_none (fun l hl => by simpa [and_assoc] using inside l hl), List.find?_eq_none.2 (fun l hl => by simpa using free l hl),
    CIn.label_joined, x.laneList_eq]

theorem acBody_bound {l : Nat} (lane : l ∈ (List.range 32).filter x.written.getLsbD)
    (bound : ∃ h ∈ s1.tm.whand, h.2.bank ≤ off l / 131072 ∧ off l / 131072 < h.2.bank + h.2.nb)
    (first : ∀ m ∈ (List.range 32).filter x.written.getLsbD, m < l → ¬ ∃ h ∈ s1.tm.whand, h.2.bank ≤ off m / 131072 ∧ off m / 131072 < h.2.bank + h.2.nb) :
    acBody x s1 kind dsts val = .fault { code := 0x18, faddr := off l } false := by
  have found : ((List.range 32).filter x.written.getLsbD).find? (fun l => s1.tm.whand.any (fun h => decide (h.2.bank ≤ off l / 131072) &&
      decide (off l / 131072 < h.2.bank + h.2.nb))) = some l := by
    rw [List.mem_filter] at lane
    simp only [List.mem_filter] at first
    rw [List.find?_filter, List.find?_range_eq_some]
    refine ⟨by simpa [lane.2] using bound, lane.1, fun m hm => ?_⟩
    by_cases written : x.written.getLsbD m = true
    · simpa [written] using first m ⟨List.mem_range.2 (hm.trans (List.mem_range.1 lane.1)), written⟩ hm
    · simp [written]
  rw [acBody, hoff]
  dsimp only
  rw [CIn.badLane_none (fun l hl => by simpa [and_assoc] using inside l hl), x.laneList_eq, found]

end

/-- An instruction whose cycles a path without lanes takes as well (R324). -/
theorem completes_counted {i : Instr} {r : CRow} {sp : CSpec} {s s1 s2 : State} {x : CIn} {cost : Nat} {body : CIn → State → CRes}
    (h : Issues i r sp s x s1) (counted : sp.free = false) (hb : body x s1 = .done s2 cost) :
    Completes (cIssue i sp body s) (fun t => Passed s s2 t x cost) := by
  have done := completes_of_done h hb
  rw [counted, Bool.false_and, Bool.false_and, if_neg Bool.false_ne_true] at done
  exact done

/-- Settles O33: the accesses of the lanes are made when every lane lies in its buffer, and the lowest lane in a bound bank faults. -/
theorem bufferLaneAccesses : Obligations.BufferLaneAccesses := by
  intro s s1 f r x i
  dsimp only
  refine ⟨fun h => ⟨?_, ?_, ?_, ?_⟩, ?_⟩
  · rintro rfl inside
    rw [exec_spld, execSpld]
    exact completes_counted h rfl (spBody_good x.bufOff_sum inside)
  · rintro rfl inside
    rw [exec_spst, execSpst]
    exact completes_counted h rfl (spBody_good x.bufOff_sum inside)
  · refine fun inside free => ⟨?_, ?_⟩
    · rintro rfl
      rw [exec_acld, execAcld]
      exact completes_counted h rfl (acBody_good x.bufOff_sum inside free)
    · rintro rfl
      rw [exec_acst, execAcst]
      exact completes_counted h rfl (acBody_good x.bufOff_sum inside free)
  · rintro l lane inside bound first (rfl | rfl)
    · rw [exec_acld, execAcld, cIssue_of_issues _ h, acBody_bound x.bufOff_sum inside lane bound first]
      rfl
    · rw [exec_acst, execAcst, cIssue_of_issues _ h, acBody_bound x.bufOff_sum inside lane bound first]
      rfl
  · rintro h rfl inside
    rw [exec_spamo, execSpamo]
    exact completes_counted h rfl (spBody_good x.bufOff_alone inside)

end Sys2Proof.Machine
end


section
/-! PROOFS. Barrier waits of the compute slice, and the arrival of a whole gang. -/

namespace Sys2Proof.Machine

open Sys2Proof

/-! ## Quads -/

theorem bitOf_eq_testBit (n i : Nat) : bitOf n i = n.testBit i := by
  rw [bitOf, Nat.testBit_eq_decide_div_mod_eq]
  rfl

theorem Group.quad_mapQuads (g : Group) (m : Nat) (f : Nat → Quad → Quad) (q : Nat) :
    (g.mapQuads m f).quad q = if q < g.quads.length ∧ bitOf m q = true then f q (g.quad q) else g.quad q := by
  unfold Group.mapQuads Group.quad
  simp only [List.getD_eq_getElem?_getD, List.getElem?_map, List.getElem?_zipIdx]
  by_cases small : q < g.quads.length
  · by_cases mine : bitOf m q = true <;> simp [small, mine]
  · simp [small]

theorem Group.unended_mapQuads (g : Group) (m : Nat) {f : Nat → Quad → Quad} (keeps : ∀ q x, (f q x).st = x.st) :
    (g.mapQuads m f).unended = g.unended := by
  unfold Group.unended Group.mapQuads
  refine List.filter_congr fun q _ => ?_
  simp only [List.getElem?_map, List.getElem?_zipIdx]
  cases g.quads[q]? with
  | none => rfl
  | some x =>
    by_cases mine : bitOf m q = true <;> simp [mine, keeps]

theorem bitOf_two_pow (q r : Nat) : bitOf (2 ^ q) r = true ↔ q = r := by
  rw [bitOf_eq_testBit, Nat.testBit_two_pow, decide_eq_true_iff]

/-- The quads of a mask are the bits of the sum of their powers. -/
theorem bitOf_sum_quadSet {m q : Nat} (mem : q ∈ quadSet m) : bitOf ((quadSet m).map (2 ^ ·)).sum q = true := by
  have sorted : (quadSet m).SortedLT := (List.pairwise_lt_range.filter _).sortedLT
  rw [bitOf_eq_testBit, ← Nat.mem_bitIndices, Nat.bitIndices_sum_map_two_pow sorted]
  exact mem

theorem nodup_quadSet (m : Nat) : (quadSet m).Nodup := List.nodup_range.filter _

/-! ## The parts of one arrival (R251) -/

/-- What a group holds once the quads `ds` have supplied their parts of the next arrival. -/
structure Group.Supplied (g h : Group) (off pos : Nat) (l : Label) (ds : List Nat) : Prop where
  base : h.carvBase = g.carvBase
  unended : h.unended = g.unended
  parts : h.carv = if ds = [] then [] else [{ off := off, quads := (ds.map (2 ^ ·)).sum, lbl := l, pos := pos }]
  others : ∀ q, q ∉ ds → (h.quad q).carvCnt = (g.quad q).carvCnt

theorem Group.Supplied.add {g h : Group} {off pos q : Nat} {l : Label} {ds : List Nat} (supplied : g.Supplied h off pos l ds)
    (new : q ∉ ds) (next : (g.quad q).carvCnt = g.carvBase) : g.Supplied (h.carvAdd off pos l q) off pos l (ds ++ [q]) := by
  obtain ⟨base, unended, parts, others⟩ := supplied
  have first : (h.quad q).carvCnt - h.carvBase = 0 := by
    rw [others q new, next, base]
    exact Nat.sub_self _
  refine ⟨base, ?_, ?_, fun r hr => ?_⟩
  · exact (Group.unended_mapQuads h (2 ^ q) (f := fun _ y => { y with carvCnt := y.carvCnt + 1 }) (fun _ _ => rfl)).trans unended
  · rw [if_neg (by simp), List.map_append, List.sum_append]
    unfold Group.carvAdd
    dsimp only
    rw [first, parts]
    by_cases none_ : ds = []
    · subst none_
      simp [Label.join]
    · rw [if_neg none_]
      simp [Label.join]
  · rw [List.mem_append, List.mem_singleton, not_or] at hr
    have untouched : ((h.carvAdd off pos l q).quad r).carvCnt = (h.quad r).carvCnt := by
      change ((h.mapQuads (2 ^ q) (fun _ y => { y with carvCnt := y.carvCnt + 1 })).quad r).carvCnt = _
      rw [Group.quad_mapQuads, if_neg]
      rw [bitOf_two_pow]
      exact fun both => hr.2 both.2.symm
    exact untouched.trans (others r hr.1)

theorem Group.Supplied.all {g : Group} {off pos : Nat} {l : Label} (qs : List Nat) {h : Group} {ds : List Nat}
    (supplied : g.Supplied h off pos l ds) (nodup : (ds ++ qs).Nodup) (next : ∀ q ∈ qs, (g.quad q).carvCnt = g.carvBase) :
    g.Supplied (qs.foldl (fun h q => h.carvAdd off pos l q) h) off pos l (ds ++ qs) := by
  induction qs generalizing h ds with
  | nil => rwa [List.append_nil]
  | cons q qs ih =>
    have new : q ∉ ds := fun mem => by
      have := (List.nodup_append.1 nodup).2.2 q mem q (List.mem_cons_self ..)
      exact this rfl
    have step := supplied.add new (next q (List.mem_cons_self ..))
    rw [List.foldl_cons, show ds ++ q :: qs = (ds ++ [q]) ++ qs by simp]
    refine ih step ?_ fun r hr => next r (List.mem_cons_of_mem _ hr)
    simpa using nodup

/-- The one arrival that the quads of a mask make together. -/
theorem Group.carved {g : Group} {m : Nat} (off pos : Nat) (l : Label) (none_ : g.carv = []) (some_ : quadSet m ≠ [])
    (next : ∀ q ∈ quadSet m, (g.quad q).carvCnt = g.carvBase) :
    let h := (quadSet m).foldl (fun h q => h.carvAdd off pos l q) g
    h.carvBase = g.carvBase ∧ h.unended = g.unended ∧
      h.carv = [{ off := off, quads := ((quadSet m).map (2 ^ ·)).sum, lbl := l, pos := pos }] := by
  obtain ⟨base, unended, parts, -⟩ := Group.Supplied.all (g := g) (off := off) (pos := pos) (l := l) (quadSet m)
    (h := g) (ds := []) ⟨rfl, rfl, none_, fun _ _ => rfl⟩ (nodup_quadSet m) next
  rw [List.nil_append, if_neg some_] at parts
  exact ⟨base, unended, parts⟩

/-- Flushing one arrival that every quad has supplied. -/
theorem carvFlush_one {s : State} {k : Nat} {off quads pos : Nat} {l : Label} (only : (s.group k).carv = [{ off := off, quads := quads, lbl := l, pos := pos }])
    (all : ∀ q ∈ (s.group k).unended, bitOf quads q = true) (within : l.within ((s.team (teamOf k)).barrier off).lbl = true) :
    State.carvFlush k 1 s = (s.setGroup k { s.group k with carv := [], carvBase := (s.group k).carvBase + 1 }).setTeam (teamOf k)
      ((s.team (teamOf k)).setBarrier off (((s.team (teamOf k)).barrier off).arrive 1 false)) := by
  unfold State.carvFlush
  dsimp only
  rw [only]
  dsimp only
  rw [if_neg (by simpa using all)]
  have arrives : ((s.setGroup k { s.group k with carv := [], carvBase := (s.group k).carvBase + 1 }).team (teamOf k)).arrive off 1 l false =
      some ((s.team (teamOf k)).setBarrier off (((s.team (teamOf k)).barrier off).arrive 1 false)) := by
    rw [Team.arrive]
    exact if_pos within
  rw [arrives]
  rfl

/-! ## CWAIT and CARV -/

/-- A barrier offset of an operand word that names a marked cell (R249, R251). -/
theorem barrierRef_eq (s : State) (w n : Nat) : s.barrierRef w 20 n =
    if w / 2 ^ 20 % 2 ^ n = 0 ∧ w % 2 ^ 20 % 16 = 0 ∧ w % 2 ^ 20 + 16 ≤ (s.recOf s.cur).spsize ∧ s.tm.marked? (w % 2 ^ 20) = true
    then .ok (w % 2 ^ 20) else .error (fltIllegalAt (w % 2 ^ 20)) := by
  rw [State.barrierRef, bitsOf]
  generalize w / 2 ^ 20 % 2 ^ n = high
  generalize w % 2 ^ 20 = off
  rw [← ite_not]
  refine if_congr ?_ rfl rfl
  simp only [barOk, Bool.or_eq_true, Bool.not_eq_true', ← Bool.not_eq_true, Bool.and_eq_true, beq_iff_eq, decide_eq_true_iff]
  tauto

/-- The phase that a CWAIT awaits. -/
def cwaitWant (f : CFields) (x : CIn) : Bool := f.x.getLsbD 0 != decide (2 ^ 31 ≤ (x.b.at 0).toNat)

theorem cwaitWant_eq (f : CFields) (x : CIn) : (bitOf f.x.toNat 0 != bitOf (x.b.at 0).toNat 31) = cwaitWant f x := by
  have top : bitOf (x.b.at 0).toNat 31 = decide (2 ^ 31 ≤ (x.b.at 0).toNat) := bitOf_top (by decide) (x.b.at 0).isLt
  rw [cwaitWant, top, bitOf_eq_testBit]
  rfl

/-- The operation that a CWAIT leaves in flight. -/
def cwaitOp (f : CFields) (s : State) (x : CIn) (s1 : State) (d : OpData) : Op :=
  { id := 0, fc := none, cslice := true, quads := x.qmask, pc := s.path.pos, run := s1.grp.runOf x.qmask, tk := f.tk.toNat, data := d }

/-- What CWAIT does at a marked cell. -/
def cwaitAt (f : CFields) (s : State) (x : CIn) (s1 : State) (off : Nat) : CRes :=
  let o := s.tm.barrier off
  if !o.lbl.within (s.clr s.cur) then .fault (fltLoad 2 o.lbl (s.clr s.cur) off) false
  else if f.tk = 0#4 then
    if o.phase != cwaitWant f x then .wait 0x109
    else if o.err then .fault (fltClobber off) false
    else .done ((s1.setGrp (s1.grp.issueOp (cwaitOp f s x s1 (.fence .acq false (s1.soleIn .team s.cur))))).settle s.cur) 1
  else .done (s1.setGrp ((s1.grp.setTickets x.qmask f.tk.toNat 1).issueOp (cwaitOp f s x s1 (.cwait off (cwaitWant f x))))) 1

theorem exec_cwait_at (f : CFields) (s : State) : exec (.cwait f) s = cIssue (.cwait f) { imm := some .z32, qb := 1 } (fun x s1 =>
    match s.barrierRef (x.b.at 0).toNat 20 11 with
    | .error e => .fault e false
    | .ok off => cwaitAt f s x s1 off) s := by
  rw [exec_cwait, execCwait]
  simp only [cwaitWant_eq]
  rfl

/-- What CARV does at a marked cell. -/
def carvAt (s : State) (x : CIn) (s1 : State) (off : Nat) : CRes :=
  let g := s1.grp
  let other (q : Nat) : Bool := match g.carv[(g.quad q).carvCnt - g.carvBase]? with
    | some c => c.off != off
    | none => false
  if (quadSet x.qmask).any other then .fault (fltIllegalAt off) false
  else if !g.quadsReleased x.qmask then .wait 0x109
  else
    let g1 := (quadSet x.qmask).foldl (fun h q => h.carvAdd off s.path.pos (x.b.lbl.join x.k) q) g
    .done (State.carvFlush s.cur g1.carv.length (s1.setGrp g1)) 1

theorem exec_carv_at (f : CFields) (s : State) : exec (.carv f) s = cIssue (.carv f) { imm := some .z32, qb := 1 } (fun x s1 =>
    match s.barrierRef (x.b.at 0).toNat 20 12 with
    | .error e => .fault e false
    | .ok off => carvAt s x s1 off) s := rfl

/-- Without a part of an arrival that stands, none has another offset. -/
theorem carvAt_fresh {s : State} {x : CIn} {s1 : State} {off : Nat} (none_ : s1.grp.carv = []) :
    carvAt s x s1 off = if !s1.grp.quadsReleased x.qmask then .wait 0x109 else
      .done (State.carvFlush s.cur ((quadSet x.qmask).foldl (fun h q => h.carvAdd off s.path.pos (x.b.lbl.join x.k) q) s1.grp).carv.length
        (s1.setGrp ((quadSet x.qmask).foldl (fun h q => h.carvAdd off s.path.pos (x.b.lbl.join x.k) q) s1.grp))) 1 := by
  rw [carvAt]
  dsimp only
  rw [if_neg (by simp [none_])]

section
variable {s s1 : State} {f : CFields} {r : CRow} {x : CIn}

/-- The state after the one arrival of a whole gang. -/
theorem carvAt_arrives {off : Nat} (cur : s1.cur = s.cur) (none_ : s1.grp.carv = []) (some_ : quadSet x.qmask ≠ [])
    (next : ∀ q ∈ quadSet x.qmask, (s1.grp.quad q).carvCnt = s1.grp.carvBase) (gang : ∀ q ∈ s1.grp.unended, q ∈ quadSet x.qmask)
    (released : s1.grp.quadsReleased x.qmask = true) (within : LabelIn (x.b.lbl ||| x.k) (s1.tm.barrier off).lbl) :
    ∃ s2, carvAt s x s1 off = .done s2 1 ∧ s2.tm.barrier off = (s1.tm.barrier off).arrive 1 false ∧
      (∀ y, y < off ∨ off + 16 ≤ y → s2.tm.sp.get 0#8 y = s1.tm.sp.get 0#8 y) ∧ s2.mem = s1.mem ∧
      s2.grp.carv = [] ∧ s2.grp.carvBase = s1.grp.carvBase + 1 := by
  obtain ⟨base, unended, parts⟩ := Group.carved off s.path.pos (x.b.lbl ||| x.k) none_ some_ next
  let h := (quadSet x.qmask).foldl (fun h q => h.carvAdd off s.path.pos (x.b.lbl ||| x.k) q) s1.grp
  let u := s1.setGrp h
  have mine : u.group s1.cur = h := s1.grp_setGrp h
  have flushed := carvFlush_one (s := u) (k := s1.cur) (by rw [mine]; exact parts)
    (fun q hq => bitOf_sum_quadSet (gang q (by rw [mine] at hq; rwa [← unended]))) ((within_iff_labelIn ..).2 within)
  refine ⟨(u.setGrp { h with carv := [], carvBase := h.carvBase + 1 }).setTm (s1.tm.setBarrier off ((s1.tm.barrier off).arrive 1 false)),
    ?_, ?_, fun y out => ?_, rfl, ?_, ?_⟩
  · rw [carvAt_fresh none_, if_neg (by simp [released]), ← cur]
    refine congrArg (CRes.done · 1) ?_
    rw [mine] at flushed
    exact (congrArg (fun n => State.carvFlush s1.cur n u) (congrArg List.length parts)).trans flushed
  · rw [State.tm_setTm, Team.barrier_setBarrier _ _ (Barrier.inRange_arrive (Team.barrier_inRange ..) ..)]
  · rw [State.tm_setTm, Team.sp_setBarrier_out _ _ _ _ out]
  · rw [State.grp_setTm, State.grp_setGrp]
  · rw [State.grp_setTm, State.grp_setGrp, ← base]

end

/-- Settles O34: a barrier wait is its checks in order at a marked cell; the quads of a whole gang make one arrival together. -/
theorem barrierWaits : Obligations.BarrierWaits := by
  refine ⟨fun s s1 f r x k n p o2 want2 => ⟨fun h => ?_, ?_⟩, fun s s1 f r x h => ?_⟩
  · have issued := cIssue_of_issues (i := .cwait f) (s := s) (fun x s1 => match s.barrierRef (x.b.at 0).toNat 20 11 with
      | .error e => CRes.fault e false
      | .ok off => cwaitAt f s x s1 off) h
    rw [← exec_cwait_at, barrierRef_eq] at issued
    refine ⟨fun bad => ?_, fun good out => ?_, fun good within bare other => ?_, fun good within bare same err => ?_,
      fun good within bare same fine => ?_, fun good within ticket => ?_⟩
    · rw [if_neg bad] at issued
      exact issued
    · rw [if_pos good] at issued
      dsimp only at issued
      rw [cwaitAt, if_pos (by simpa [← within_iff_labelIn] using out)] at issued
      exact issued
    · rw [if_pos good] at issued
      dsimp only at issued
      rw [cwaitAt, if_neg (by simpa [within_iff_labelIn] using within), if_pos bare, if_pos (bne_iff_ne.2 (show _ ≠ cwaitWant f x from other))] at issued
      exact issued
    · rw [if_pos good] at issued
      dsimp only at issued
      rw [cwaitAt, if_neg (by simpa [within_iff_labelIn] using within), if_pos bare, if_neg (fun ne => bne_iff_ne.1 ne (show _ = cwaitWant f x from same)), if_pos err] at issued
      exact issued
    · rw [exec_cwait_at]
      refine completes_counted h rfl ?_
      beta_reduce
      rw [barrierRef_eq, if_pos good]
      dsimp only
      rw [cwaitAt, if_neg (by simpa [within_iff_labelIn] using within), if_pos bare, if_neg (fun ne => bne_iff_ne.1 ne (show _ = cwaitWant f x from same)), if_neg (Bool.eq_false_iff.1 fine)]
      rfl
    · rw [exec_cwait_at]
      refine completes_counted h rfl ?_
      beta_reduce
      rw [barrierRef_eq, if_pos good]
      dsimp only
      rw [cwaitAt, if_neg (by simpa [within_iff_labelIn] using within), if_neg ticket]
      rfl
  · intro find data open_ resident phase
    rw [exec_cwaitSatisfied, execCwaitSatisfied]
    dsimp only
    rw [find]
    dsimp only
    rw [data]
    dsimp only
    rw [if_neg (by simp [open_, resident, phase])]
    simp only [Label.within, Bool.not_eq_true', beq_eq_false_iff_ne]
    rfl
  · have issued := cIssue_of_issues (i := .carv f) (s := s) (fun x s1 => match s.barrierRef (x.b.at 0).toNat 20 12 with
      | .error e => CRes.fault e false
      | .ok off => carvAt s x s1 off) h
    rw [← exec_carv_at, barrierRef_eq] at issued
    refine ⟨fun bad => ?_, fun good none_ held => ?_, fun good gang released some_ within => ?_⟩
    · rw [if_neg bad] at issued
      exact issued
    · rw [if_pos good] at issued
      dsimp only at issued
      rw [carvAt_fresh none_, if_pos (by simp [held])] at issued
      exact issued
    · obtain ⟨parts, none_, inside⟩ := gang
      have mem (q : Nat) (hq : q ∈ s1.grp.unended) : q ∈ quadSet x.qmask :=
        List.mem_filter.2 ⟨(List.mem_filter.1 hq).1, (parts q hq).1⟩
      obtain ⟨s2, arrives, after⟩ := carvAt_arrives (cur_of_issues h) none_ some_ (fun q hq => (parts q (inside q hq)).2) mem released within
      rw [exec_carv_at]
      have done := completes_counted (s2 := s2) (cost := 1) (body := fun x s1 => match s.barrierRef (x.b.at 0).toNat 20 12 with
        | .error e => CRes.fault e false
        | .ok off => carvAt s x s1 off) h rfl (by
          rw [barrierRef_eq, if_pos good]
          exact arrives)
      obtain ⟨t, ht, passed⟩ := done
      exact ⟨t, ht, s2, passed, after⟩

end Sys2Proof.Machine
end


section
/-! PROOFS. The transform pipe: its commands, its reply, and what XUNPK, XDEC and XLUT answer. -/

namespace Sys2Proof.Machine

open Sys2Proof

/-! ## The commands and the reply (R230, R252) -/

/-- The bytes of the region that a command needs, if it names any. -/
def pipeSize (f : CFields) : Instr → Option Nat
  | .xdec _ => some 8
  | .xlut _ => some (2 ^ (f.ext.toNat % 8 + 1) * (f.dt.width / 8))
  | _ => none

/-- The stream or table lies in the region, where a lane is written. -/
def PipeFits (s : State) (x : CIn) (size : Option Nat) : Prop :=
  x.written = 0#32 ∨ ∀ m, size = some m → (x.b.at 0).toNat % 4 = 0 ∧ (x.b.at 0).toNat + m ≤ (s.recOf s.cur).spsize

def pipeBad (s : State) (x : CIn) : Option Nat → Bool
  | some n => x.written ≠ 0#32 && ((x.b.at 0).toNat % 4 ≠ 0 || (s.recOf s.cur).spsize < (x.b.at 0).toNat + n)
  | none => false

theorem pipeBad_iff (s : State) (x : CIn) (size : Option Nat) : pipeBad s x size = true ↔ ¬ PipeFits s x size := by
  cases size with
  | none => simp [pipeBad, PipeFits]
  | some n =>
    simp only [pipeBad, PipeFits, Option.some.injEq, forall_eq', Bool.and_eq_true, Bool.or_eq_true, decide_eq_true_iff, not_or, not_and, not_le]
    tauto

theorem xIssue_eq (i : Instr) (f : CFields) (size : Option Nat) (s : State) : xIssue i f size s =
    cIssue i { role := some 2, imm := some .z32, qb := if size.isSome then 1 else 0, fc := some .xf } (fun x s1 =>
      if pipeBad s x size then .fault (fltIllegalAt (x.b.at 0).toNat) false
      else .done (s1.issueLanes x { id := 0, fc := some .xf, dsts := [.reg f.dst.toNat], lbl := x.label,
                                    data := .xform i x.a.lanes x.b.lanes }) 1) s := by
  cases size <;> rfl

theorem xIssue_spec {s s1 : State} {f : CFields} {r : CRow} {x : CIn} {i : Instr} {size : Option Nat} (runs : exec i s = xIssue i f size s)
    (h : Issues i r { role := some 2, imm := some .z32, qb := if size.isSome then 1 else 0, fc := some .xf } s x s1) :
    (PipeFits s x size → Completes (exec i s) (fun t => Passed s (s1.issueLanes x
      { id := 0, fc := some .xf, dsts := [.reg f.dst.toNat], lbl := x.joined, data := .xform i x.a.lanes x.b.lanes }) t x 1)) ∧
    (¬ PipeFits s x size → exec i s = .next (s.raiseRec s.cur
      { flt := { code := 0x01, faddr := (x.b.at 0).toNat }, cslice := true, fpos := s.path.pos, fcycle := s.cycle, fpath := some s.curPath })) := by
  rw [runs, xIssue_eq]
  refine ⟨fun fits => completes_counted h rfl ?_, fun bad => ?_⟩
  · rw [if_neg (fun b => (pipeBad_iff s x size).1 b fits), CIn.label_joined]
  · rw [cIssue_of_issues _ h, if_pos ((pipeBad_iff s x size).2 bad)]
    rfl

theorem transformReply_spec {s : State} {k n d : Nat} {o : Op} {j : Instr} {a b : List Word} (find : (s.group k).op n = some o)
    (data : o.data = .xform j a b) (open_ : o.doneq = false) (resident : (s.team (teamOf k)).state = .resident)
    (ready : (s.group k).engineReady o = true) (dst : o.dsts = [.reg d]) :
    (∀ v l, (s.team (teamOf k)).xform (s.recOf k) j a b = .ok v l → exec (.transformReply k n) s = .next ((s.setGroup k
      ((((s.group k).doneTickets o.quads o.tk).writeVreg d o.mask v o.full (o.lbl ||| l)).setOp { o with doneq := true })).settle k)) ∧
    (∀ e, (s.team (teamOf k)).xform (s.recOf k) j a b = .bad e → exec (.transformReply k n) s = .next ((s.setGroup k
      (((s.group k).doneTickets o.quads o.tk).setOp { o with doneq := true, fail := some e })).settle k)) := by
  have runs : exec (.transformReply k n) s = match (s.team (teamOf k)).xform (s.recOf k) j a b with
      | .bad f => .next ((s.setGroup k (((s.group k).doneTickets o.quads o.tk).setOp { o with doneq := true, fail := some f })).settle k)
      | .ok v l => .next ((s.setGroup k ((((s.group k).doneTickets o.quads o.tk).writeVreg d o.mask v o.full (o.lbl.join l)).setOp
          { o with doneq := true })).settle k) := by
    rw [exec_transformReply, execTransformReply]
    dsimp only
    rw [find]
    dsimp only
    rw [data]
    dsimp only
    rw [if_neg (by simp [open_, resident, ready]), dst] <;> rfl
  refine ⟨fun v l answer => ?_, fun e answer => ?_⟩ <;> rw [runs, answer] <;> rfl

/-! ## XUNPK (R253) -/

theorem signedOf_field {n v : Nat} (hn : 0 < n) (hv : v < 2 ^ n) : signedOf n v = if 2 ^ (n - 1) ≤ v then (v : Int) - 2 ^ n else v := by
  rw [signedOf, bitOf_top hn hv, Nat.mod_eq_of_lt hv]
  simp only [decide_eq_true_iff]
  push_cast
  rfl

theorem wrapTo_lt (w : Nat) (z : Int) : wrapTo w z < 2 ^ w := by
  have bound : (wrapTo w z : Int) < 2 ^ w := by
    rw [wrapTo_cast]
    exact Int.emod_lt_of_pos _ (by positivity)
  exact_mod_cast bound

theorem unpackLane_elem {t : Ty} (ht : t ∈ [Ty.s8, .z8, .s16, .z16, .s32, .z32, .f16, .bf16]) (ext : Nat) (a b : Word)
    (hw : 0 < ext % 32) (fits : ext % 32 ≤ t.width) {j : Nat} (hj : j < 32 / t.width) :
    let field := (b.toNat * 2 ^ 32 + a.toNat) / 2 ^ (ext / 32 % 32 + ext % 32 * j) % 2 ^ (ext % 32)
    elemOf t.width (unpackLane t ext a b) j =
      (if t ∈ [Ty.f16, .bf16] then field * 2 ^ (16 - ext % 32)
       else if t.isSigned ∧ 2 ^ (ext % 32 - 1) ≤ field then 2 ^ t.width - 2 ^ (ext % 32) + field else field) := by
  intro field
  have elem : elemOf t.width (unpackLane t ext a b) j = unpackElem t (b.toNat * 2 ^ 32 + a.toNat) (ext % 32) (ext / 32 % 32) j % 2 ^ t.width :=
    elemOf_elems _ hj
  have small : field < 2 ^ (ext % 32) := Nat.mod_lt _ (by positivity)
  have within : 2 ^ (ext % 32) ≤ 2 ^ t.width := Nat.pow_le_pow_right (by norm_num) fits
  rw [elem]
  by_cases float : t ∈ [Ty.f16, .bf16]
  · have value : unpackElem t (b.toNat * 2 ^ 32 + a.toNat) (ext % 32) (ext / 32 % 32) j = field * 2 ^ (16 - ext % 32) ∧ t.width = 16 := by
      simp only [List.mem_cons, List.not_mem_nil, or_false] at float
      rcases float with rfl | rfl <;> exact ⟨rfl, rfl⟩
    rw [if_pos float, value.1, value.2]
    refine Nat.mod_eq_of_lt ?_
    calc field * 2 ^ (16 - ext % 32) < 2 ^ (ext % 32) * 2 ^ (16 - ext % 32) := Nat.mul_lt_mul_of_pos_right small (by positivity)
      _ = 2 ^ 16 := by rw [← pow_add]; congr 1; have := value.2 ▸ fits; omega
  · have value : unpackElem t (b.toNat * 2 ^ 32 + a.toNat) (ext % 32) (ext / 32 % 32) j =
        if t.isSigned then wrapTo t.width (signedOf (ext % 32) field) else field := by
      simp only [List.mem_cons, List.not_mem_nil, or_false] at float ht
      rcases ht with rfl | rfl | rfl | rfl | rfl | rfl | rfl | rfl
      exacts [rfl, rfl, rfl, rfl, rfl, rfl, absurd (Or.inl rfl) float, absurd (Or.inr rfl) float]
    have widths : (2 : Int) ^ (ext % 32) ≤ 2 ^ t.width := by exact_mod_cast within
    rw [if_neg float, value]
    by_cases signed : t.isSigned = true
    · rw [if_pos signed, signedOf_field hw small]
      by_cases high : 2 ^ (ext % 32 - 1) ≤ field
      · rw [if_pos high, if_pos ⟨signed, high⟩, Nat.mod_eq_of_lt (wrapTo_lt ..)]
        have cast := wrapTo_cast t.width (field - 2 ^ (ext % 32))
        have smallZ : (field : Int) < 2 ^ (ext % 32) := by exact_mod_cast small
        rw [← Int.add_emod_right, Int.emod_eq_of_lt (by omega) (by omega)] at cast
        zify [within]
        rw [cast]
        ring
      · rw [if_neg high, if_neg (fun h => high h.2), Nat.mod_eq_of_lt (wrapTo_lt ..)]
        have cast := wrapTo_cast t.width (field : Int)
        rw [Int.emod_eq_of_lt (by positivity) (by exact_mod_cast small.trans_le within)] at cast
        exact_mod_cast cast
    · rw [if_neg signed, if_neg (fun h => signed h.1), Nat.mod_eq_of_lt (small.trans_le within)]

/-! ## Numbers in the scratchpad (R254, R255) -/

/-- The number of `n` bytes at place `i` of a stream at `off`. -/
def Team.number (t : Team) (off i n : Nat) : Nat := ((List.range n).map (fun j => (t.sp.get 0#8 (off + (i + j))).toNat * 256 ^ j)).sum

theorem ofBytes_map_range (g : Nat → Byte) (n : Nat) : ofBytes ((List.range n).map g) = ((List.range n).map (fun j => (g j).toNat * 256 ^ j)).sum := by
  induction n generalizing g with
  | zero => rfl
  | succ n ih =>
    rw [List.range_succ_eq_map, List.map_cons, List.map_map, ofBytes, ih, List.map_cons, List.sum_cons, List.map_map, ← List.sum_map_mul_left]
    simp only [Function.comp_def, pow_zero, mul_one, pow_succ]
    refine congrArg (_ + ·) (congrArg List.sum (List.map_congr_left fun j _ => ?_))
    rw [Nat.succ_eq_add_one]
    ring

theorem Team.number_lt (t : Team) (off i n : Nat) : t.number off i n < 256 ^ n := by
  induction n generalizing i with
  | zero => simp [Team.number]
  | succ n ih =>
    have low := ih i
    rw [Team.number] at low ⊢
    rw [List.range_succ, List.map_append, List.sum_append, List.map_singleton, List.sum_singleton, pow_succ]
    have := (t.sp.get 0#8 (off + (i + n))).isLt
    nlinarith [Nat.pow_pos (n := n) (show 0 < 256 by norm_num)]

theorem Team.ofBytes_readSp (t : Team) (off i n : Nat) : ofBytes (t.readSp (off + i) n) = t.number off i n := by
  rw [Team.readSp, Tab.getFrom, ofBytes_map_range]
  simp only [Team.number, Nat.add_assoc]

theorem Team.fieldAt_readSp (t : Team) (off : Nat) {i n size : Nat} (fits : i + n ≤ size) : fieldAt (t.readSp off size) i n = t.number off i n := by
  have part : ((t.readSp off size).drop i).take n = t.readSp (off + i) n := by
    refine List.ext_getElem (by simp [Team.readSp, Tab.getFrom]; omega) fun j _ _ => ?_
    simp [Team.readSp, Tab.getFrom, Nat.add_assoc]
  rw [fieldAt, part, t.ofBytes_readSp]

theorem Team.number_one (t : Team) (off i : Nat) : t.number off i 1 = (t.sp.get 0#8 (off + i)).toNat := by
  simp [Team.number]

/-! ## The elements of a delta stream (R254) -/

/-- A running sum, modulo the width. -/
theorem runningSums_getD (w : Nat) (ds : List Int) (v j : Nat) (hj : j ≤ ds.length) :
    (((v :: runningSums w v ds).getD j 0 : Nat) : Int) % 2 ^ w = (v + (ds.take j).sum) % 2 ^ w := by
  induction ds generalizing v j with
  | nil =>
    obtain rfl : j = 0 := by simpa using hj
    simp
  | cons d ds ih =>
    cases j with
    | zero => simp
    | succ j =>
      rw [List.getD_cons_succ, runningSums, ih _ j (by simpa using hj), wrapTo_cast, List.take_succ_cons, List.sum_cons, Int.emod_add_emod, add_assoc]

/-- The size of a delta, by the byte of the header. -/
def Team.deltaBytes (t : Team) (off : Nat) : Nat := if (t.sp.get 0#8 (off + 4)).toNat = 3 then 4 else (t.sp.get 0#8 (off + 4)).toNat

/-- Delta `j` of a stream, signed. -/
def Team.delta (t : Team) (off j : Nat) : Int :=
  let d := t.deltaBytes off
  let z := t.number off (8 + d * j) d
  if 0 < d ∧ 2 ^ (8 * d - 1) ≤ z then (z : Int) - 2 ^ (8 * d) else z

/-- Element `j` of a stream, before it is cut to its width. -/
def Team.element (t : Team) (off form j : Nat) : Int :=
  (t.number off 0 4 : Int) + if form = 0 then t.delta off j else ((List.range j).map (t.delta off)).sum

def Team.streamBytes (t : Team) (off form : Nat) (ty : Ty) : Nat := 8 + (32 * (32 / ty.width) - form) * t.deltaBytes off

theorem streamSize_eq (t : Team) (off : Nat) (ty : Ty) {form : Nat} (hform : form ≤ 1) :
    streamSize ty form (t.readSp off 8) = t.streamBytes off form ty := by
  rw [streamSize, t.fieldAt_readSp off (by norm_num), t.number_one, Team.streamBytes, perLane]
  interval_cases form <;> rfl

/-- A delta as the pipe reads it. -/
theorem delta_read (t : Team) (off size j : Nat) (inside : 8 + t.deltaBytes off * j + t.deltaBytes off ≤ size) :
    (if t.deltaBytes off = 0 then 0 else signedOf (8 * t.deltaBytes off) (fieldAt (t.readSp off size) (8 + t.deltaBytes off * j) (t.deltaBytes off))) =
      t.delta off j := by
  have small := t.number_lt off (8 + t.deltaBytes off * j) (t.deltaBytes off)
  rw [show (256 : Nat) = 2 ^ 8 by norm_num, ← pow_mul] at small
  rw [t.fieldAt_readSp off inside, Team.delta]
  by_cases none_ : t.deltaBytes off = 0
  · rw [if_pos none_, if_neg (fun h => by omega), none_]
    rfl
  · rw [if_neg none_, signedOf_field (by omega) small]
    refine if_congr ?_ rfl rfl
    simp [Nat.pos_of_ne_zero none_]

theorem decodeStream_getD (t : Team) (off : Nat) (ty : Ty) {form j : Nat} (hform : form ≤ 1) (hj : j < 32 * (32 / ty.width)) :
    (((decodeStream ty form (t.readSp off (t.streamBytes off form ty))).getD j 0 : Nat) : Int) % 2 ^ ty.width = t.element off form j % 2 ^ ty.width := by
  have size : 8 ≤ t.streamBytes off form ty := Nat.le_add_right ..
  have inside (i : Nat) (hi : i < 32 * (32 / ty.width) - form) :
      8 + t.deltaBytes off * i + t.deltaBytes off ≤ t.streamBytes off form ty := by
    have : t.deltaBytes off * (i + 1) ≤ t.deltaBytes off * (32 * (32 / ty.width) - form) := Nat.mul_le_mul_left _ hi
    rw [Team.streamBytes, Nat.mul_comm (_ - _)]
    rw [Nat.mul_add, Nat.mul_one] at this
    omega
  have base : fieldAt (t.readSp off (t.streamBytes off form ty)) 0 4 = t.number off 0 4 := t.fieldAt_readSp off (by omega)
  have bytes : deltaSize (fieldAt (t.readSp off (t.streamBytes off form ty)) 4 1) = t.deltaBytes off := by
    rw [t.fieldAt_readSp off (by omega), t.number_one]
    rfl
  unfold decodeStream perLane
  dsimp only
  rw [base, bytes, Team.element]
  by_cases zero : form = 0
  · rw [if_pos zero, if_pos zero]
    rw [List.getD_eq_getElem _ _ (by simpa using hj), List.getElem_map, List.getElem_range, delta_read t off _ j (inside j (by omega)), wrapTo_cast,
      Int.emod_emod_of_dvd _ dvd_rfl]
    push_cast
    rw [Int.emod_add_emod]
  · rw [if_neg zero, if_neg zero, runningSums_getD _ _ _ _ (by simp; omega), ← List.map_take, List.take_range, Nat.min_eq_left (by omega)]
    have sums : (List.range j).map (fun j => if t.deltaBytes off = 0 then 0 else signedOf (8 * t.deltaBytes off)
        (fieldAt (t.readSp off (t.streamBytes off form ty)) (8 + t.deltaBytes off * j) (t.deltaBytes off))) = (List.range j).map (t.delta off) :=
      List.map_congr_left fun i hi => delta_read t off _ i (inside i (by have := List.mem_range.1 hi; omega))
    rw [sums]
    push_cast
    rw [Int.emod_add_emod]

/-! ## The answers of the pipe (R126, R254, R255) -/

theorem pipeRead_ok {t : Team} {clr : Label} {off n : Nat} (k : Label → XReply) (within : LabelIn (t.rangeLabel off n) clr)
    (good : t.rangeBad off n = false) : t.pipeRead clr off n k = k (t.rangeLabel off n) := by
  rw [Team.pipeRead]
  rw [if_neg (by simpa [within_iff_labelIn] using within), if_neg (Bool.eq_false_iff.1 good)]

theorem pipeRead_label {t : Team} {clr : Label} {off n : Nat} (k : Label → XReply) (out : ¬ LabelIn (t.rangeLabel off n) clr) :
    t.pipeRead clr off n k = .bad (fltLoad 1 (t.rangeLabel off n) clr off) := by
  rw [Team.pipeRead]
  rw [if_pos (by simpa [← within_iff_labelIn] using out)]

/-- The lanes that the pipe packs have the elements it packed. -/
theorem packed_elems (w : Nat) (e : Nat → Nat → Nat) : (lanesOf (fun q => packElems w (32 / w) (e q))).length = 32 ∧
    ∀ q, q < 32 → ∀ j, j < 32 / w → elemOf w (laneAt (lanesOf (fun q => packElems w (32 / w) (e q))) q) j = e q j % 2 ^ w := by
  refine ⟨by simp [lanesOf], fun q hq j hj => ?_⟩
  have lane : laneAt (lanesOf (fun q => packElems w (32 / w) (e q))) q = elems w (e q) := by
    simp [laneAt, lanesOf, hq]
    rfl
  rw [lane]
  exact elemOf_elems _ hj

/-- The header that a stream has (R254). -/
def Team.goodHeader (t : Team) (r : Launch) (off form : Nat) (ty : Ty) : Prop :=
  (t.sp.get 0#8 (off + 4)).toNat ≤ 3 ∧ t.number off 5 3 = 0 ∧ off + t.streamBytes off form ty ≤ r.spsize

theorem xdec_eq {t : Team} {r : Launch} {f : CFields} (a b : List Word) (form1 : f.ext.toNat % 4 ≤ 1)
    (within : LabelIn (t.rangeLabel (laneAt b 0).toNat 8) r.clr) (good : t.rangeBad (laneAt b 0).toNat 8 = false) :
    let off := (laneAt b 0).toNat
    let form := f.ext.toNat % 4
    (t.goodHeader r off form f.dt → t.xform r (.xdec f) a b = t.pipeRead r.clr off (t.streamBytes off form f.dt) (fun l =>
      .ok (lanesOf (fun q => packElems f.dt.width (32 / f.dt.width) (fun i =>
        (decodeStream f.dt form (t.readSp off (t.streamBytes off form f.dt))).getD (32 / f.dt.width * q + i) 0))) l)) ∧
    (¬ t.goodHeader r off form f.dt → t.xform r (.xdec f) a b = .bad (fltIllegalAt off)) := by
  intro off form
  have runs : t.xform r (.xdec f) a b = if 3 < (t.sp.get 0#8 (off + 4)).toNat || t.number off 5 3 ≠ 0 || r.spsize < off + t.streamBytes off form f.dt
      then .bad (fltIllegalAt off) else t.pipeRead r.clr off (t.streamBytes off form f.dt) (fun l =>
      .ok (lanesOf (fun q => packElems f.dt.width (32 / f.dt.width) (fun i =>
        (decodeStream f.dt form (t.readSp off (t.streamBytes off form f.dt))).getD (32 / f.dt.width * q + i) 0))) l) := by
    rw [← t.number_one, ← t.fieldAt_readSp off (size := 8) (by norm_num), ← t.fieldAt_readSp off (size := 8) (by norm_num),
      ← streamSize_eq t off f.dt form1]
    unfold Team.xform
    dsimp only
    exact pipeRead_ok _ within good
  have bad : (3 < (t.sp.get 0#8 (off + 4)).toNat || t.number off 5 3 ≠ 0 || r.spsize < off + t.streamBytes off form f.dt) = true ↔
      ¬ t.goodHeader r off form f.dt := by
    simp only [Team.goodHeader, Bool.or_eq_true, decide_eq_true_iff]
    omega
  exact ⟨fun h => by rw [runs, if_neg (fun b => bad.1 b h)], fun h => by rw [runs, if_pos (bad.2 h)]⟩

/-- Settles O35: a command issues or is refused by its place in the region; the pipe's reply is written or reported; and the elements of
each answer are read off the lanes and streams they come from. -/
theorem transformCommands : Obligations.TransformCommands := by
  refine ⟨fun s s1 f r x i k n o j a b d => ⟨?_, ?_⟩, fun t ext a b ht hw fits j hj => unpackLane_elem ht ext a b hw fits hj,
    fun t r f a b width => ⟨?_, ?_⟩⟩
  · rintro h (rfl | rfl | rfl)
    · exact xIssue_spec (size := none) rfl h
    · exact xIssue_spec (size := some 8) rfl h
    · exact xIssue_spec (size := some (2 ^ (f.ext.toNat % 8 + 1) * (f.dt.width / 8))) rfl h
  · exact fun find data open_ resident ready dst => transformReply_spec find data open_ resident ready dst
  · intro _ _ _ _ _ _ form1 ⟨within, good⟩
    obtain ⟨goodHeader, badHeader⟩ := xdec_eq (t := t) (r := r) (f := f) a b form1 within good
    refine ⟨fun header ⟨within', good'⟩ => ?_, fun header out => ?_, fun header => ⟨_, badHeader header, rfl⟩⟩
    · obtain ⟨length, elem⟩ := packed_elems f.dt.width (fun q i => (decodeStream f.dt (f.ext.toNat % 4)
        (t.readSp (laneAt b 0).toNat (t.streamBytes (laneAt b 0).toNat (f.ext.toNat % 4) f.dt))).getD (32 / f.dt.width * q + i) 0)
      refine ⟨_, (goodHeader header).trans (pipeRead_ok _ within' good'), length, fun q hq j hj => ?_⟩
      refine (congrArg (Nat.cast (R := Int)) (elem q hq j hj)).trans ?_
      push_cast
      refine decodeStream_getD t _ f.dt form1 ?_
      calc 32 / f.dt.width * q + j < 32 / f.dt.width * (q + 1) := by rw [Nat.mul_succ]; omega
        _ ≤ 32 / f.dt.width * 32 := Nat.mul_le_mul_left _ hq
        _ = 32 * (32 / f.dt.width) := Nat.mul_comm ..
    · exact (goodHeader header).trans (pipeRead_label _ out)
  · refine ⟨fun ⟨within, good⟩ => ?_, fun out => pipeRead_label _ out⟩
    obtain ⟨length, elem⟩ := packed_elems f.dt.width (fun q i => ofBytes (t.readSp ((laneAt b 0).toNat +
      bitsOf (laneAt a q).toNat ((f.ext.toNat % 8 + 1) * i) (f.ext.toNat % 8 + 1) * (f.dt.width / 8)) (f.dt.width / 8)))
    refine ⟨_, pipeRead_ok _ within good, length, fun q hq j hj => ?_⟩
    refine (congrArg (Nat.cast (R := Int)) (elem q hq j hj)).trans ?_
    rw [t.ofBytes_readSp, Int.natCast_mod, Int.natCast_pow]
    rfl

end Sys2Proof.Machine
end


section
/-! PROOFS. The window instructions enter the window sequence. -/

namespace Sys2Proof.Machine

open Sys2Proof

/-- Only the writes of fixed latency differ where labels alone are to land. -/
theorem labelOnly_eq (g : Group) (qmask : Nat) (k : Label) (ds : List Dst) : ∃ fx, g.labelOnly qmask k ds = { g with fx := fx } := by
  induction ds generalizing g with
  | nil => exact ⟨g.fx, rfl⟩
  | cons d ds ih =>
    obtain ⟨fx, eq⟩ := ih (g.schedule { qmask := qmask, dst := d, mask := 0#32, vals := [], full := false, lbl := k, left := 0 })
    exact ⟨fx, eq⟩

/-- Only the quads differ where tickets are set. -/
theorem setTickets_eq (g : Group) (qmask tk v : Nat) : ∃ quads, g.setTickets qmask tk v = { g with quads := quads } := by
  unfold Group.setTickets
  split
  · exact ⟨g.quads, rfl⟩
  · exact ⟨_, rfl⟩

/-- What a window operation is in the issue order. -/
def windowOp (s : State) (x : CIn) (dsts : List Dst) : Op :=
  { id := 0, fc := some .wa, cslice := true, quads := x.qmask, pc := s.path.pos, run := s.grp.runOf x.qmask,
    tk := if s.grp.active s.path = 0#32 then 0 else x.f.tk.toNat, dsts := if s.grp.active s.path = 0#32 then [] else dsts,
    mask := x.written, full := x.full, lbl := x.k, data := .window }

/-- A window operation that issues is the youngest of the team's sequence and of its group. -/
structure EntersWindow (s s2 : State) (x : CIn) (h : Nat) (dsts : List Dst) (kind : WinKind) : Prop where
  team : s2.tm = { s.tm with wq := s.tm.wq ++ [{ seq := s.tm.wseq, g := s.cur, op := s.grp.nextOp, handle := h, k := x.k, kind := kind }],
                             wseq := s.tm.wseq + 1 }
  counter : s2.grp.fcv .wa = s.grp.fcv .wa + 1
  next : s2.grp.nextOp = s.grp.nextOp + 1
  vregs : s2.grp.vregs = s.grp.vregs
  mem : s2.mem = s.mem
  youngest : ∃ o, s2.grp.ops = s.grp.ops ++ [o] ∧ o.dsts = (if s.grp.active s.path = 0#32 then [] else dsts) ∧ o.data = .window ∧ o.mask = x.written

theorem issueWindow_enters (s : State) (x : CIn) (h : Nat) (dsts : List Dst) (kind : WinKind) :
    EntersWindow s (s.issueWindow x h dsts kind) x h dsts kind := by
  have issued (g g1 : Group) (v : Nat) (hg : g.fcs = s.grp.fcs ∧ g.ops = s.grp.ops ∧ g.nextOp = s.grp.nextOp ∧ g.vregs = s.grp.vregs)
      (hg1 : g1 = (g.issueOp (windowOp s x dsts)).setTickets x.qmask x.f.tk.toNat v) :
      EntersWindow s ((s.setGrp g1).setTm { s.tm with
        wq := s.tm.wq ++ [{ seq := s.tm.wseq, g := s.cur, op := s.grp.nextOp, handle := h, k := x.k, kind := kind }], wseq := s.tm.wseq + 1 })
        x h dsts kind := by
    obtain ⟨fcs, ops, nextOp, vregs⟩ := hg
    obtain ⟨quads, eq⟩ := setTickets_eq (g.issueOp (windowOp s x dsts)) x.qmask x.f.tk.toNat v
    have counter : (g.issueOp (windowOp s x dsts)).fcv .wa = s.grp.fcv .wa + 1 := by
      rw [Group.fcv_issueOp, Group.fcv, fcs]
      rfl
    refine ⟨?_, ?_, ?_, ?_, rfl, { windowOp s x dsts with id := g.nextOp }, ?_, rfl, rfl, rfl⟩
    · rw [State.tm_setTm]
    · rw [State.grp_setTm, State.grp_setGrp, hg1, eq]
      exact counter
    · rw [State.grp_setTm, State.grp_setGrp, hg1, eq, ← nextOp]
      rfl
    · rw [State.grp_setTm, State.grp_setGrp, hg1, eq, ← vregs]
      rfl
    · rw [State.grp_setTm, State.grp_setGrp, hg1, eq, ← ops]
      rfl
  unfold State.issueWindow
  dsimp only
  refine issued (if s.grp.active s.path = 0#32 then s.grp.labelOnly x.qmask x.k dsts else s.grp) _ _ ?_ rfl
  split
  · obtain ⟨fx, eq⟩ := labelOnly_eq s.grp x.qmask x.k dsts
    rw [eq]
    exact ⟨rfl, rfl, rfl, rfl⟩
  · exact ⟨rfl, rfl, rfl, rfl⟩

/-- A window instruction completes with its operation at the end of the sequence. -/
theorem window_goes {s s1 : State} {i : Instr} {r : CRow} {sp : CSpec} {x : CIn} {body : CIn → State → CRes} {h : Nat} {dsts : List Dst} {kind : WinKind}
    (issues : Issues i r sp s x s1) (counted : sp.free = false)
    (enters : body x s1 = .done (s1.issueWindow x h dsts kind) 1) :
    Completes (cIssue i sp body s) (fun t => ∃ s2, Passed s s2 t x 1 ∧
      s2.tm = { s1.tm with wq := s1.tm.wq ++ [{ seq := s1.tm.wseq, g := s1.cur, op := s1.grp.nextOp, handle := h, k := x.k, kind := kind }],
                           wseq := s1.tm.wseq + 1 } ∧
      s2.grp.fcv .wa = s1.grp.fcv .wa + 1 ∧ s2.grp.nextOp = s1.grp.nextOp + 1 ∧ s2.grp.vregs = s1.grp.vregs ∧
      s2.mem = s1.mem ∧ ∃ o, s2.grp.ops = s1.grp.ops ++ [o] ∧ o.dsts = (if s1.grp.active s1.path = 0#32 then [] else dsts) ∧
        o.data = .window ∧ o.mask = x.written) := by
  obtain ⟨t, ht, passed⟩ := completes_counted issues counted enters
  obtain ⟨team, counter, next, vregs, mem, youngest⟩ := issueWindow_enters s1 x h dsts kind
  exact ⟨t, ht, _, passed, team, counter, next, vregs, mem, youngest⟩

section
variable {s s1 : State} {f : CFields} {r : CRow} {x : CIn} {i : Instr} {kind : CIn → Except Flt WinKind}
  (issues : Issues i r { role := some 2, qb := 1, fc := some .wa } s x s1)
include issues

/-- A window instruction that acts once for the group. -/
theorem windowOnce_many (many : 1 < s.grp.paths.length) : windowOnce i f kind s = .next (s.raiseC { code := 0x01 }) := by
  rw [windowOnce, cIssue_of_issues _ issues, if_pos many]
  rfl

theorem windowOnce_illegal (one : s.grp.paths.length ≤ 1) (bad : kind x = .error fltIllegal) : windowOnce i f kind s = .next (s.raiseC { code := 0x01 }) := by
  rw [windowOnce, cIssue_of_issues _ issues, if_neg one.not_gt, bad]
  rfl

theorem windowOnce_enters {k : WinKind} (one : s.grp.paths.length ≤ 1) (good : kind x = .ok k) :
    Completes (windowOnce i f kind s) (fun t => ∃ s2, Passed s s2 t x 1 ∧
      s2.tm = { s1.tm with wq := s1.tm.wq ++ [{ seq := s1.tm.wseq, g := s1.cur, op := s1.grp.nextOp, handle := f.ext.toNat % 8, k := x.k, kind := k }],
                           wseq := s1.tm.wseq + 1 } ∧
      s2.grp.fcv .wa = s1.grp.fcv .wa + 1 ∧ s2.grp.nextOp = s1.grp.nextOp + 1 ∧ s2.grp.vregs = s1.grp.vregs ∧
      s2.mem = s1.mem ∧ ∃ o, s2.grp.ops = s1.grp.ops ++ [o] ∧ o.dsts = (if s1.grp.active s1.path = 0#32 then [] else []) ∧
        o.data = .window ∧ o.mask = x.written) := by
  refine window_goes issues rfl ?_
  rw [if_neg one.not_gt, good]
  rfl

end

/-- What WINIT and WSETW ask of the window unit (R303, R306). -/
def winitKind (f : CFields) (x : CIn) : Except Flt WinKind :=
  let op := f.ext.toNat / 8 % 16
  let w := f.ext.toNat / 128 % 1024 + 1
  let b := (x.b.at 0).toNat
  if 63 < b || 63 < b + winBanks op w - 1 then .error fltIllegal else .ok (.init op f.dt f.rm w b (x.b.lbl ||| x.k))

theorem winitKind_eq (f : CFields) (x : CIn) : winitKind f x =
    if (x.b.at 0).toNat ≤ 63 ∧ (x.b.at 0).toNat + ((f.ext.toNat / 128 % 1024 + 1) * (if 7 ≤ f.ext.toNat / 8 % 16 then 8 else 4) + 2047) / 2048 ≤ 64
    then .ok (.init (f.ext.toNat / 8 % 16) f.dt f.rm (f.ext.toNat / 128 % 1024 + 1) (x.b.at 0).toNat (x.b.lbl ||| x.k)) else .error fltIllegal := by
  rw [winitKind, ← ite_not]
  refine if_congr ?_ rfl rfl
  simp only [winBanks, winSize, winPair, decide_eq_true_iff, Bool.or_eq_true]
  omega

def wsetwKind (x : CIn) : Except Flt WinKind :=
  let w := (x.b.at 0).toNat
  if w = 0 || 1024 < w then .error fltIllegal else .ok (.setw w x.b.lbl)

theorem exec_winit_once (f : CFields) (s : State) : exec (.winit f) s = windowOnce (.winit f) f (winitKind f) s := rfl

theorem exec_wsetw_once (f : CFields) (s : State) : exec (.wsetw f) s = windowOnce (.wsetw f) f wsetwKind s := rfl

/-- Settles O36: each instruction issues its operation at the end of the window sequence; those that act once have one path, and their
limits, first. -/
theorem windowInstructions : Obligations.WindowInstructions := by
  intro s s1 f r x i
  dsimp only
  refine ⟨fun issues => ⟨?_, ?_, ?_, ?_, ?_, ?_, ?_, ?_⟩, ?_⟩
  · rintro rfl one fits low
    rw [exec_winit_once]
    exact windowOnce_enters issues one ((winitKind_eq f x).trans (if_pos ⟨low, fits⟩))
  · rintro rfl one out
    rw [exec_winit_once]
    exact windowOnce_illegal issues one ((winitKind_eq f x).trans (if_neg fun h => out.not_ge h.2))
  · rintro rfl
    rw [if_pos (.inl rfl)] at issues
    rw [exec_wpush, execWpush]
    exact window_goes issues rfl rfl
  · rintro rfl one low high
    rw [exec_wsetw_once]
    exact windowOnce_enters issues one (if_neg (by simp only [Bool.or_eq_true, decide_eq_true_iff]; omega))
  · rintro rfl one out
    rw [exec_wsetw_once]
    exact windowOnce_illegal issues one (if_pos (by simpa only [Bool.or_eq_true, decide_eq_true_iff] using out))
  · rintro rfl one
    rw [exec_wfree, execWfree]
    exact windowOnce_enters issues one rfl
  · rintro (rfl | rfl | rfl) many
    · rw [exec_winit_once, windowOnce_many issues many]
    · rw [exec_wsetw_once, windowOnce_many issues many]
    · rw [exec_wfree, execWfree, windowOnce_many issues many]
  · rintro rfl
    rw [if_pos (.inr rfl)] at issues
    rw [exec_wstat, execWstat, show f.ext.toNat / 8 % 4 = f.ext.toNat / 8 % 16 % 4 by omega]
    exact window_goes issues rfl rfl
  · rintro issues rfl
    rw [exec_wqry, execWqry]
    exact window_goes issues rfl rfl

end Sys2Proof.Machine
end


section
/-! PROOFS. The two stacks of a window, and the operators of the window unit. -/

namespace Sys2Proof.Machine

open Sys2Proof

/-! ## The two stacks (R296) -/

namespace WHandle

variable (h : WHandle)

/-- The elements folded from the right, as the front stack holds them. -/
def suffix (es : List WElem) : Option WElem := es.foldr (fun e a => some (match a with | none => e | some y => h.combine e y)) none

/-- The elements folded from the left, as the back stack's aggregate is. -/
def earlier (es : List WElem) : Option WElem := es.foldl (fun a e => some (match a with | none => e | some y => h.combine y e)) none

/-- The answer of an empty window. -/
def nil : WElem := (h.identity.1, h.identity.2, 0#16)

/-- The front holds the suffix aggregates of the n oldest elements, the back the others, newest first. -/
def Shape (n : Nat) (l : WLane) (es : List WElem) : Prop :=
  n ≤ es.length ∧ l.back = (es.drop n).reverse ∧ l.front.length = n ∧ (∀ k, k < n → l.front[k]? = h.suffix ((es.take n).drop k)) ∧
    l.agg = h.earlier (es.drop n)

theorem suffix_cons (e : WElem) (es : List WElem) :
    h.suffix (e :: es) = some (match h.suffix es with | none => e | some y => h.combine e y) := rfl

theorem earlier_concat (es : List WElem) (e : WElem) :
    h.earlier (es ++ [e]) = some (match h.earlier es with | none => e | some y => h.combine y e) := by
  rw [earlier, List.foldl_append]
  rfl

theorem suffix_eq_none {es : List WElem} : h.suffix es = none ↔ es = [] := by
  cases es with
  | nil => exact ⟨fun _ => rfl, fun _ => rfl⟩
  | cons e es => exact ⟨fun no => absurd no (by rw [suffix_cons]; exact Option.some_ne_none _), fun no => absurd no (List.cons_ne_nil _ _)⟩

variable {h} {n : Nat} {l : WLane} {es : List WElem}

theorem Shape.count (shape : h.Shape n l es) : l.count = es.length := by
  obtain ⟨le, back, front, -, -⟩ := shape
  rw [WLane.count, front, back, List.length_reverse, List.length_drop]
  omega

theorem Shape.ask (shape : h.Shape n l es) : h.ask l = (match h.suffix (es.take n), h.earlier (es.drop n) with
    | some y, some z => h.combine y z
    | some y, none => y
    | none, some z => z
    | none, none => h.nil) := by
  obtain ⟨le, -, front, suffixes, agg⟩ := shape
  rw [WHandle.ask, agg]
  cases n with
  | zero =>
    rw [List.eq_nil_of_length_eq_zero front]
    cases h.earlier (es.drop 0) <;> rfl
  | succ n =>
    cases hf : l.front with
    | nil => rw [hf] at front; exact absurd front (Nat.succ_ne_zero n).symm
    | cons y f =>
      have top := suffixes 0 (Nat.succ_pos n)
      rw [hf, List.drop_zero, List.getElem?_cons_zero] at top
      rw [← top] <;> cases h.earlier (es.drop (n + 1)) <;> rfl

/-- A push onto a window that is not full. -/
theorem Shape.push (shape : h.Shape n l es) (x : WElem) (room : es.length ≠ h.w) : h.Shape n (h.push l x) (es ++ [x]) := by
  have count := shape.count
  obtain ⟨le, back, front, suffixes, agg⟩ := shape
  have pushed : h.push l x = { l with back := x :: l.back, agg := some (match l.agg with | none => x | some b => h.combine b x) } := by
    rw [WHandle.push, if_neg (by rwa [count])] <;> rfl
  rw [pushed]
  refine ⟨by rw [List.length_append]; omega, ?_, front, fun k hk => ?_, ?_⟩
  · rw [List.drop_append_of_le_length le, List.reverse_append, back]
    rfl
  · rw [List.take_append_of_le_length le]
    exact suffixes k hk
  · rw [List.drop_append_of_le_length le, earlier_concat, ← agg]
    rfl

/-- The aggregates that a flip makes: the back stack, newest first, becomes the suffixes. -/
theorem flip_suffixes (es : List WElem) :
    let f := es.reverse.foldl (fun f e => match f with | [] => [e] | t :: _ => h.combine e t :: f) []
    f.length = es.length ∧ ∀ k, k < es.length → f[k]? = h.suffix (es.drop k) := by
  induction es with
  | nil => exact ⟨rfl, fun k hk => absurd hk (Nat.not_lt_zero k)⟩
  | cons e es ih =>
    obtain ⟨length, suffixes⟩ := ih
    rw [List.reverse_cons, List.foldl_append]
    generalize es.reverse.foldl (fun f e => match f with | [] => [e] | t :: _ => h.combine e t :: f) [] = f at length suffixes ⊢
    refine ⟨?_, fun k hk => ?_⟩
    · cases f <;> exact congrArg Nat.succ length
    · cases k with
      | zero =>
        rw [List.drop_zero, suffix_cons]
        cases f with
        | nil =>
          rw [List.eq_nil_of_length_eq_zero length.symm]
          rfl
        | cons t f =>
          have top := suffixes 0 (by rw [← length]; exact Nat.succ_pos _)
          rw [List.drop_zero] at top
          rw [← top]
          rfl
      | succ k =>
        rw [List.drop_succ_cons, ← suffixes k (Nat.lt_of_succ_lt_succ hk)]
        cases f with
        | nil =>
          rw [List.length_nil] at length
          rw [List.length_cons, ← length] at hk
          omega
        | cons t f => rfl

/-- The expiry of the oldest element, after a flip where the front is empty. -/
theorem Shape.expire (shape : h.Shape n l es) (some_ : es ≠ []) : h.Shape ((if n = 0 then es.length else n) - 1) (h.expire l) es.tail := by
  obtain ⟨le, back, front, suffixes, agg⟩ := shape
  have pos : 0 < es.length := List.length_pos_iff.2 some_
  have drops (m : Nat) (hm : 0 < m) : es.tail.drop (m - 1) = es.drop m := by
    rw [List.drop_tail]
    congr 1
    omega
  have takes (m k : Nat) (hm : 0 < m) : (es.tail.take (m - 1)).drop k = (es.take m).drop (k + 1) := by
    cases es with
    | nil => exact absurd rfl some_
    | cons e es =>
      obtain ⟨m, rfl⟩ : ∃ i, m = i + 1 := ⟨m - 1, by omega⟩
      simp
  by_cases none_ : n = 0
  · obtain rfl := none_
    obtain ⟨length, flipped⟩ := flip_suffixes (h := h) es
    have empty : l.front = [] := List.eq_nil_of_length_eq_zero front
    rw [List.drop_zero] at back
    have fronts : (h.expire l).front = (es.reverse.foldl (fun f e => match f with | [] => [e] | t :: _ => h.combine e t :: f) []).tail := by
      rw [WHandle.expire, empty, ← back]
      rfl
    have backs : (h.expire l).back = [] ∧ (h.expire l).agg = none := by
      rw [WHandle.expire, empty]
      exact ⟨rfl, rfl⟩
    rw [if_pos rfl]
    refine ⟨by rw [List.length_tail], ?_, ?_, fun k hk => ?_, ?_⟩
    · rw [backs.1, drops _ pos, List.drop_length]
      rfl
    · rw [fronts, List.length_tail, length]
    · rw [fronts, List.getElem?_tail, flipped (k + 1) (by omega), takes _ k pos, List.take_length]
    · rw [backs.2, drops _ pos, List.drop_length]
      rfl
  · have notEmpty : l.front.isEmpty = false := by
      rw [List.isEmpty_eq_false_iff]
      exact fun no => none_ (by rw [← front, no]; rfl)
    have expired : h.expire l = { l with front := l.front.tail } := by
      rw [WHandle.expire, notEmpty]
      rfl
    rw [if_neg none_, expired]
    refine ⟨by rw [List.length_tail]; omega, ?_, ?_, fun k hk => ?_, ?_⟩
    · rw [drops n (by omega)]
      exact back
    · rw [List.length_tail, front]
    · rw [takes n k (by omega), ← suffixes (k + 1) (by omega)]
      exact List.getElem?_tail
    · rw [drops n (by omega)]
      exact agg

/-- A push onto a full window expires the oldest. -/
theorem Shape.push_full (shape : h.Shape n l es) (x : WElem) (wide : 1 ≤ h.w) (full : es.length = h.w) :
    h.Shape ((if n = 0 then es.length else n) - 1) (h.push l x) (es.tail ++ [x]) := by
  have some_ : es ≠ [] := fun no => by rw [no, List.length_nil] at full; omega
  have expired := shape.expire some_
  have same : h.push l x = h.push (h.expire l) x := by
    have shorter : (h.expire l).count ≠ h.w := by
      rw [expired.count, List.length_tail]
      omega
    rw [WHandle.push, WHandle.push, if_pos (shape.count.trans full), if_neg shorter]
  rw [same]
  exact expired.push x (by rw [List.length_tail]; omega)

end WHandle

end Sys2Proof.Machine
end


section
/-! PROOFS. What the operators of the window unit make of two elements, and the fold that associative ones answer. -/

namespace Sys2Proof.Machine

open Sys2Proof

namespace WHandle

variable {h : WHandle}

/-- An operator on single elements that is associative, with the answer of an empty window as its identity. -/
structure Folds (h : WHandle) (f : Word → Word → Word) : Prop where
  combine : ∀ x y, h.combine x y = (f x.1 y.1, 0#32, x.2.2 ||| y.2.2)
  assoc : ∀ a b c, f (f a b) c = f a (f b c)
  left : ∀ a, f h.identity.1 a = a
  right : ∀ a, f a h.identity.1 = a
  single : h.identity.2 = 0#32

theorem slt_iff (a b : Word) : BitVec.slt a b = true ↔ a.toInt < b.toInt := by rw [BitVec.slt_iff_toInt_lt]

theorem least_le (a : Word) : (0x80000000#32).toInt ≤ a.toInt := BitVec.le_toInt a

theorem le_greatest (a : Word) : a.toInt ≤ (0x7FFFFFFF#32).toInt := Int.lt_add_one_iff.1 (BitVec.toInt_lt (x := a))

/-- The least word is the one that nothing is below, and the greatest the one that is below nothing. -/
theorem least_word {a : Word} (le : ¬ (0x80000000#32).toInt < a.toInt) : a = 0x80000000#32 :=
  BitVec.eq_of_toInt_eq (le_antisymm (not_lt.1 le) (least_le a))

theorem greatest_word {a : Word} (le : ¬ a.toInt < (0x7FFFFFFF#32).toInt) : a = 0x7FFFFFFF#32 :=
  BitVec.eq_of_toInt_eq (le_antisymm (le_greatest a) (not_lt.1 le))

/-- AND, OR and XOR, and ADD, MAX and MIN of integers. -/
theorem folds_of (op : h.op ∈ [4, 5, 6] ∨ (h.op ∈ [0, 2, 3] ∧ h.ty = .s32)) : ∃ f, h.Folds f := by
  obtain ⟨o, ty, rm, w, bank, nb, hc, stall, lanes⟩ := h
  simp only [List.mem_cons, List.not_mem_nil, or_false] at op
  rcases op with (rfl | rfl | rfl) | ⟨rfl | rfl | rfl, rfl⟩
  · exact ⟨(· &&& ·), fun _ _ => rfl, fun _ _ _ => BitVec.and_assoc .., fun _ => BitVec.allOnes_and, fun _ => BitVec.and_allOnes, rfl⟩
  · exact ⟨(· ||| ·), fun _ _ => rfl, fun _ _ _ => BitVec.or_assoc .., fun _ => BitVec.zero_or, fun _ => BitVec.or_zero, rfl⟩
  · exact ⟨(· ^^^ ·), fun _ _ => rfl, fun _ _ _ => BitVec.xor_assoc .., fun _ => BitVec.zero_xor, fun _ => BitVec.xor_zero, rfl⟩
  · exact ⟨(· + ·), fun _ _ => rfl, fun _ _ _ => BitVec.add_assoc .., fun _ => BitVec.zero_add _, fun _ => BitVec.add_zero _, rfl⟩
  · refine ⟨fun a b => if BitVec.slt a b then b else a, fun _ _ => rfl, fun a b c => ?_, fun a => ?_, fun a => ?_, rfl⟩
    · simp only [slt_iff]
      grind
    · exact ite_eq_left_iff.2 fun le => (least_word fun lt => le ((slt_iff ..).2 lt)).symm
    · exact if_neg fun lt => (least_le a).not_gt ((slt_iff ..).1 lt)
  · refine ⟨fun a b => if BitVec.slt a b then a else b, fun _ _ => rfl, fun a b c => ?_, fun a => ?_, fun a => ?_, rfl⟩
    · simp only [slt_iff]
      grind
    · exact if_neg fun lt => (le_greatest a).not_gt ((slt_iff ..).1 lt)
    · exact ite_eq_left_iff.2 fun le => (greatest_word fun lt => le ((slt_iff ..).2 lt)).symm

variable {f : Word → Word → Word} (folds : h.Folds f)
include folds

theorem Folds.combine_assoc (x y z : WElem) : h.combine (h.combine x y) z = h.combine x (h.combine y z) := by
  simp only [folds.combine, folds.assoc, BitVec.or_assoc]

theorem Folds.nil_combine {x : WElem} (single : x.2.1 = 0#32) : h.combine h.nil x = x := by
  rw [folds.combine, nil, folds.left, BitVec.zero_or, ← single]

theorem Folds.combine_nil {x : WElem} (single : x.2.1 = 0#32) : h.combine x h.nil = x := by
  rw [folds.combine, nil, folds.right, BitVec.or_zero, ← single]

/-- The fold of single elements is a single element. -/
theorem Folds.single_foldl (es : List WElem) : (es.foldl h.combine h.nil).2.1 = 0#32 := by
  induction es using List.reverseRecOn with
  | nil => exact folds.single
  | append_singleton es e ih => rw [List.foldl_concat, folds.combine]

theorem Folds.foldl_combine (es : List WElem) (x y : WElem) : es.foldl h.combine (h.combine x y) = h.combine x (es.foldl h.combine y) := by
  induction es generalizing y with
  | nil => rfl
  | cons e es ih => rw [List.foldl_cons, List.foldl_cons, folds.combine_assoc, ih]

theorem Folds.foldl_append (es fs : List WElem) :
    (es ++ fs).foldl h.combine h.nil = h.combine (es.foldl h.combine h.nil) (fs.foldl h.combine h.nil) := by
  rw [List.foldl_append, ← folds.foldl_combine, folds.combine_nil (folds.single_foldl es)]

theorem Folds.suffix_eq {es : List WElem} (singles : ∀ e ∈ es, e.2.1 = 0#32) (some_ : es ≠ []) : h.suffix es = some (es.foldl h.combine h.nil) := by
  induction es with
  | nil => exact absurd rfl some_
  | cons e es ih =>
    have first : e.2.1 = 0#32 := singles e (List.mem_cons_self ..)
    have split : (e :: es).foldl h.combine h.nil = h.combine e (es.foldl h.combine h.nil) := by
      rw [show e :: es = [e] ++ es from rfl, folds.foldl_append, List.foldl_cons, List.foldl_nil, folds.nil_combine first]
    rw [suffix_cons, split]
    cases es with
    | nil => exact congrArg some (folds.combine_nil first).symm
    | cons e' es => rw [ih (fun x hx => singles x (List.mem_cons_of_mem _ hx)) (List.cons_ne_nil _ _)]

theorem Folds.earlier_eq {es : List WElem} (singles : ∀ e ∈ es, e.2.1 = 0#32) (some_ : es ≠ []) : h.earlier es = some (es.foldl h.combine h.nil) := by
  induction es using List.reverseRecOn with
  | nil => exact absurd rfl some_
  | append_singleton es e ih =>
    rw [earlier_concat, List.foldl_concat]
    by_cases none_ : es = []
    · subst none_
      exact congrArg some (folds.nil_combine (singles e (by simp))).symm
    · rw [ih (fun x hx => singles x (by simp [hx])) none_]

/-- The answer of a window under an associative operator is the fold of its elements. -/
theorem Folds.ask_eq {n : Nat} {l : WLane} {es : List WElem} (shape : h.Shape n l es) (singles : ∀ e ∈ es, e.2.1 = 0#32) :
    h.ask l = es.foldl h.combine h.nil := by
  have front := folds.suffix_eq (es := es.take n) (fun e he => singles e (List.mem_of_mem_take he))
  have back := folds.earlier_eq (es := es.drop n) (fun e he => singles e (List.mem_of_mem_drop he))
  have parts := folds.foldl_append (es.take n) (es.drop n)
  rw [List.take_append_drop] at parts
  rw [shape.ask, parts]
  by_cases noFront : es.take n = []
  · by_cases noBack : es.drop n = []
    · rw [noFront, noBack]
      exact (folds.combine_nil folds.single).symm
    · rw [back noBack, noFront]
      exact (folds.nil_combine (folds.single_foldl _)).symm
  · by_cases noBack : es.drop n = []
    · rw [front noFront, noBack]
      exact (folds.combine_nil (folds.single_foldl _)).symm
    · rw [front noFront, back noBack]

end WHandle

/-! ## What each operator makes of two elements (R85, R134, R294) -/

/-- The order of two FP32 words, −0 below +0. -/
theorem codeBelow_self (z : Nat) : codeBelow .f32 z z = false := by
  have irrefl (v : FV) : v.lt v = false := by
    cases v with
    | nan => rfl
    | inf neg => cases neg <;> rfl
    | fin neg n d => simp [FV.lt]
  rw [codeBelow, irrefl]
  cases decide (2 ^ (Ty.f32.width - 1) ≤ z) <;> simp

theorem minMax_f32 (mx : Bool) (a b : Word) : BitVec.ofNat 32 (minMaxNum .f32 mx a.toNat b.toNat) =
    if isNanCode .f32 a.toNat then (if isNanCode .f32 b.toNat then 0x7FC00000#32 else b) else if isNanCode .f32 b.toNat then a
    else if (if mx then codeBelow .f32 a.toNat b.toNat else codeBelow .f32 b.toNat a.toNat) then b else a := by
  have word (w : Word) : BitVec.ofNat 32 w.toNat = w := by rw [BitVec.ofNat_toNat, BitVec.setWidth_eq]
  rw [minMaxNum_eq (t := .f32) (by simp [Ty.isIeee]) mx a.isLt b.isLt]
  cases mx <;> split_ifs <;> simp [word, canonicalNan]

/-- Whether the younger supplies the payload: it does not where it is NaN, it does where the older alone is, and otherwise where it
wins. -/
theorem argPicksY_eq (mx : Bool) (a b : Word) : argPicksY mx a b =
    if isNanCode .f32 a.toNat then !isNanCode .f32 b.toNat
    else !isNanCode .f32 b.toNat && (if mx then codeBelow .f32 a.toNat b.toNat else codeBelow .f32 b.toNat a.toNat) := by
  have nan (w : Word) : (decodeTy .f32 w.toNat == .nan) = isNanCode .f32 w.toNat := by
    rw [Bool.eq_iff_iff, beq_iff_eq]
    exact (decodeTy_ieee (t := .f32) (by simp [Ty.isIeee]) w.isLt).1
  rw [argPicksY, nan, nan, minMaxNum_eq (t := .f32) (by simp [Ty.isIeee]) mx a.isLt b.isLt]
  cases ha : isNanCode .f32 a.toNat with
  | true => cases isNanCode .f32 b.toNat <;> rfl
  | false =>
    cases hb : isNanCode .f32 b.toNat with
    | true => rfl
    | false =>
      by_cases same : a = b
      · subst same
        cases mx <;> simp [codeBelow_self]
      · have differ : a.toNat ≠ b.toNat := fun eq => same (BitVec.eq_of_toNat_eq eq)
        have picks (c : Bool) : (a != b && (if c = true then b.toNat else a.toNat) == b.toNat) = c := by
          cases c <;> simp [differ, bne_iff_ne.2 same]
        cases mx
        · exact picks (codeBelow .f32 b.toNat a.toNat)
        · exact picks (codeBelow .f32 a.toNat b.toNat)

/-- What an operator on pairs takes of the payloads. -/
theorem payload_eq (mx : Bool) (x y : WElem) : (if argPicksY mx x.1 y.1 then y.2.1 else x.2.1) =
    if (if isNanCode .f32 x.1.toNat then !isNanCode .f32 y.1.toNat
      else !isNanCode .f32 y.1.toNat && (if mx then codeBelow .f32 x.1.toNat y.1.toNat else codeBelow .f32 y.1.toNat x.1.toNat))
    then y.2.1 else x.2.1 := by rw [argPicksY_eq]

theorem max_slt (a b : Word) : (if BitVec.slt a b then b else a).toInt = max a.toInt b.toInt := by
  rw [apply_ite BitVec.toInt, max_def]
  simp only [BitVec.slt_iff_toInt_lt]
  split_ifs <;> omega

theorem min_slt (a b : Word) : (if BitVec.slt a b then a else b).toInt = min a.toInt b.toInt := by
  rw [apply_ite BitVec.toInt, min_def]
  simp only [BitVec.slt_iff_toInt_lt]
  split_ifs <;> omega

/-- Settles O37: the two stacks keep their shape, whose answer under an associative operator is the fold; and each operator of the window
unit is what its row of the table says. -/
theorem windowAnswers : Obligations.WindowAnswers := by
  refine ⟨fun h l x n es wide => ?_, fun h x y => ?_⟩
  · intro nil suffix earlier shape m holds
    have holds : h.Shape n l es := holds
    refine ⟨holds.count, holds.ask, fun room => holds.push x room, fun full => holds.push_full x wide full, fun some_ => holds.expire some_,
      fun op singles => ?_⟩
    obtain ⟨f, folds⟩ := WHandle.folds_of op
    exact folds.ask_eq holds singles
  · obtain ⟨o, ty, rm, w, bank, nb, hc, stall, lanes⟩ := h
    have integer (s32 : ty ≠ .f32) : (ty == Ty.f32) = false := beq_eq_false_iff_ne.2 s32
    refine ⟨?_, ?_, ?_, ?_, ?_, ?_, ?_, ?_, ?_, ?_, ?_, ?_, ?_, ?_⟩
    · rw [WHandle.combine]
      dsimp only
      split <;> rfl
    · rintro rfl s32
      exact ⟨⟨if_neg (Bool.eq_false_iff.1 (integer s32)), rfl⟩, congrArg (·, 0#32) (if_neg (Bool.eq_false_iff.1 (integer s32)))⟩
    · rintro rfl rfl
      exact ⟨⟨rfl, rfl⟩, rfl⟩
    · rintro rfl
      exact ⟨⟨rfl, rfl⟩, rfl⟩
    · rintro rfl s32
      exact ⟨(congrArg BitVec.toInt (if_neg (Bool.eq_false_iff.1 (integer s32)))).trans (max_slt x.1 y.1), rfl,
        congrArg (·, 0#32) (if_neg (Bool.eq_false_iff.1 (integer s32)))⟩
    · rintro rfl rfl
      exact ⟨⟨minMax_f32 true x.1 y.1, rfl⟩, rfl⟩
    · rintro rfl s32
      exact ⟨(congrArg BitVec.toInt (if_neg (Bool.eq_false_iff.1 (integer s32)))).trans (min_slt x.1 y.1), rfl,
        congrArg (·, 0#32) (if_neg (Bool.eq_false_iff.1 (integer s32)))⟩
    · rintro rfl rfl
      exact ⟨⟨minMax_f32 false x.1 y.1, rfl⟩, rfl⟩
    · rintro rfl
      exact ⟨⟨rfl, rfl⟩, rfl⟩
    · rintro rfl
      exact ⟨⟨rfl, rfl⟩, rfl⟩
    · rintro rfl
      exact ⟨⟨rfl, rfl⟩, rfl⟩
    · rintro rfl
      exact ⟨⟨minMax_f32 true x.1 y.1, payload_eq true x y⟩, rfl⟩
    · rintro rfl
      exact ⟨⟨minMax_f32 false x.1 y.1, payload_eq false x y⟩, rfl⟩
    · rintro rfl
      exact ⟨⟨rfl, rfl⟩, rfl⟩

end Sys2Proof.Machine
end


section
/-! PROOFS. The window unit performs the operation at the head of its team's sequence. -/

namespace Sys2Proof.Machine

open Sys2Proof

/-! ## What completing an operation leaves alone (R26, R227) -/

theorem doneTickets_eq (g : Group) (qmask tk : Nat) : ∃ quads, g.doneTickets qmask tk = { g with quads := quads } := by
  unfold Group.doneTickets
  split
  · exact ⟨g.quads, rfl⟩
  · exact ⟨_, rfl⟩

theorem land_eq (g : Group) (w : FxWrite) : ∃ vregs temps preds tilew,
    g.land w = { g with vregs := vregs, temps := temps, preds := preds, tilew := tilew } := by
  unfold Group.land
  split
  · split
    · exact ⟨_, _, _, _, rfl⟩
    · exact ⟨_, _, _, _, rfl⟩
  · unfold Group.writePred
    split
    · exact ⟨_, _, _, _, rfl⟩
    · exact ⟨_, _, _, _, rfl⟩
  · exact ⟨_, _, _, _, rfl⟩

/-- Landing writes changes registers, predicates and the tile width alone. -/
theorem tick_eq (g : Group) (qmask n : Nat) : ∃ vregs temps preds tilew fx,
    g.tick qmask n = { g with vregs := vregs, temps := temps, preds := preds, tilew := tilew, fx := fx } := by
  have lands (ws : List FxWrite) (h : Group) : ∃ vregs temps preds tilew,
      ws.foldl Group.land h = { h with vregs := vregs, temps := temps, preds := preds, tilew := tilew } := by
    induction ws generalizing h with
    | nil => exact ⟨_, _, _, _, rfl⟩
    | cons w ws ih =>
      obtain ⟨vregs, temps, preds, tilew, eq⟩ := land_eq h w
      obtain ⟨vregs', temps', preds', tilew', eq'⟩ := ih (h.land w)
      rw [List.foldl_cons, eq', eq]
      exact ⟨_, _, _, _, rfl⟩
  obtain ⟨vregs, temps, preds, tilew, eq⟩ := lands _ { g with fx := _ }
  exact ⟨vregs, temps, preds, tilew, _, eq⟩

/-- Without a write that waits, cycles pass without effect. -/
theorem tick_of_none {g : Group} (none_ : g.fx = []) (qmask n : Nat) : g.tick qmask n = g := by
  unfold Group.tick
  rw [none_]
  exact congrArg (fun fx => { g with fx := fx }) none_.symm

theorem retireOps_quiet (blocked : List Nat) (first : Bool) (fcs : Tab Nat) {os : List Op} (quiet : ∀ o ∈ os, o.fail = none) :
    (retireOps blocked first fcs os).2.2 = [] := by
  induction os generalizing blocked first fcs with
  | nil => rfl
  | cons o os ih =>
    have rest := fun b f c => ih b f c (fun p hp => quiet p (List.mem_cons_of_mem _ hp))
    have none_ : o.fail.isSome = false := by rw [quiet o (List.mem_cons_self ..)]; rfl
    unfold retireOps
    simp only [none_, rest]
    split
    · split <;> rfl
    · rfl
    · rfl
    · split
      · split <;> rfl
      · split <;> rfl

/-- Where no operation has failed, what settles takes no fault. -/
theorem settle_quiet {s : State} {k : Nat} (quiet : ∀ o ∈ (s.group k).ops, o.fail = none) :
    ∃ ops fcs, s.settle k = s.setGroup k { s.group k with ops := ops, fcs := fcs } := by
  unfold State.settle
  dsimp only
  rw [retireOps_quiet _ _ _ quiet]
  exact ⟨_, _, rfl⟩

/-! ## An operation of the unit (R298, R301) -/

/-- The group of a window operation that has been performed, its tickets done and its cycles passed. -/
def windowDone (g : Group) (o : Op) (cost : Nat) : Group := ((g.doneTickets o.quads o.tk).setOp { o with doneq := true }).tick o.quads cost

/-- The state after an operation of the unit. -/
def State.windowAfter (s : State) (tn : Nat) (w : WinOp) (t1 : Team) (g : Group) (o : Op) (cost : Nat) : State :=
  (((s.setTeam tn t1).setGroup w.g (windowDone g o cost)).pmGroup w.g 0x0A cost).settle w.g

theorem ops_windowDone (g : Group) (o : Op) (cost : Nat) : (windowDone g o cost).ops = g.ops.map (fun x => if x.id == o.id then { o with doneq := true } else x) := by
  obtain ⟨quads, tickets⟩ := doneTickets_eq g o.quads o.tk
  rw [windowDone, tickets]
  obtain ⟨vregs, temps, preds, tilew, fx, eq⟩ := tick_eq (({ g with quads := quads } : Group).setOp { o with doneq := true }) o.quads cost
  rw [eq]
  rfl

theorem vregs_windowDone {g : Group} (none_ : g.fx = []) (o : Op) (cost : Nat) : (windowDone g o cost).vregs = g.vregs := by
  obtain ⟨quads, tickets⟩ := doneTickets_eq g o.quads o.tk
  rw [windowDone, tickets, tick_of_none (g := ({ g with quads := quads } : Group).setOp { o with doneq := true }) none_]
  rfl

section
variable {s : State} {tn : Nat} {w : WinOp} {g : Group} {o : Op}

/-- Only the team that the operation gives, and its group, are changed, and what counts its cycles. -/
theorem windowAfter_spec (t1 : Team) (cost : Nat) (mine : o.fail = none) (quiet : ∀ p ∈ g.ops, p.fail = none) :
    let u := s.windowAfter tn w t1 g o cost
    u.team tn = t1 ∧ u.mem = s.mem ∧ (u.group w.g).vregs = (windowDone g o cost).vregs := by
  let v := ((s.setTeam tn t1).setGroup w.g (windowDone g o cost)).pmGroup w.g 0x0A cost
  have group : v.group w.g = windowDone g o cost := (State.group_pmGroup ..).trans (Tab.get_put_self ..)
  have team : v.team tn = t1 ∧ v.mem = s.mem := by
    have put : ((s.setTeam tn t1).setGroup w.g (windowDone g o cost)).team tn = t1 := Tab.get_put_self ..
    change (State.pmGroup _ _ _ _).team tn = t1 ∧ (State.pmGroup _ _ _ _).mem = s.mem
    unfold State.pmGroup
    dsimp only
    split
    · exact ⟨put, rfl⟩
    · exact ⟨put, rfl⟩
  obtain ⟨ops, fcs, settled⟩ := settle_quiet (s := v) (k := w.g) (by
    rw [group, ops_windowDone]
    intro p hp
    obtain ⟨x, hx, rfl⟩ := List.mem_map.1 hp
    split
    · exact mine
    · exact quiet x hx)
  intro u
  have after : u = v.setGroup w.g { v.group w.g with ops := ops, fcs := fcs } := settled
  rw [after]
  refine ⟨team.1, team.2, ?_⟩
  rw [show (v.setGroup w.g { v.group w.g with ops := ops, fcs := fcs }).group w.g = { v.group w.g with ops := ops, fcs := fcs } from
    Tab.get_put_self .., ← group]

/-- The state after an operation of the unit that failed. -/
def State.windowFails (s : State) (tn : Nat) (w : WinOp) (ws : List WinOp) (o : Op) (f : Flt) : State :=
  ((s.setTeam tn { s.team tn with wq := ws }).setGroup w.g
    (((s.group w.g).doneTickets o.quads o.tk).setOp { o with fail := some f, doneq := true })).settle w.g

variable {ws : List WinOp} (head : (s.team tn).wq = w :: ws) (find : (s.group w.g).op w.op = some o) (resident : (s.team tn).state = .resident)
include head find resident

/-- The unit performs the head operation. -/
theorem windowOpPerform_eq : exec (.windowOpPerform tn) s =
    match (match w.kind with
      | .init op ty rm n b l => ({ s.team tn with wq := ws } : Team).winInit (s.group w.g) w.handle op ty rm n b l
      | k =>
        match (s.team tn).whand.find w.handle with
        | none => .bad fltWindow
        | some h => if k.reads && (s.team tn).windowBad h then .bad { code := 0x0E }
          else ({ s.team tn with wq := ws } : Team).winAct (s.group w.g) w.handle h w.k k) with
    | .bad f => .next (s.windowFails tn w ws o f)
    | .ok t1 g1 cost => .next (s.windowAfter tn w t1 (if o.dsts.isEmpty then s.group w.g else g1) o cost) := by
  rw [exec_windowOpPerform, execWindowOpPerform]
  dsimp only
  rw [head]
  dsimp only
  rw [find]
  dsimp only
  rw [if_neg (by simp [resident])]
  rfl

end

/-! ## The operations (R134, R296 to R308) -/

/-- Lanes of a handle that an operation has changed. -/
theorem lane_onLanes (h : WHandle) (pick : Nat → Bool) (flips : WLane → Nat) (f : Nat → WLane → WLane) {l : Nat} (hl : l < 32) :
    (h.onLanes pick flips f).1.lane l = if pick l then f l (h.lane l) else h.lane l := by
  have folded (ls : List Nat) (t : Tab WLane) : (ls.foldl (fun t l => t.set {} l (f l (h.lane l))) t).get {} l =
      if l ∈ ls then f l (h.lane l) else t.get {} l := by
    induction ls generalizing t with
    | nil => simp
    | cons m ls ih =>
      rw [List.foldl_cons, ih, Tab.get_set]
      by_cases mine : l = m
      · subst mine
        simp
      · simp [mine]
  rw [WHandle.onLanes, WHandle.lane, folded]
  refine if_congr ?_ rfl rfl
  simp [hl]

/-- A register after a write of some lanes. -/
theorem writeVreg_lanes (g : Group) (d : Nat) (mask : Word) (v : Nat → Word) (full : Bool) (lbl : Label) :
    (∀ l, l < 32 → mask.getLsbD l = true → laneAt ((g.writeVreg d mask (lanesOf v) full lbl).vregs.get {} d).lanes l = v l) ∧
    (full = true → ((g.writeVreg d mask (lanesOf v) full lbl).vregs.get {} d).lbl = lbl) ∧
    ∀ j, j ≠ d → (g.writeVreg d mask (lanesOf v) full lbl).vregs.get {} j = g.vregs.get {} j := by
  refine ⟨fun l hl written => ?_, fun hf => ?_, fun j hj => Tab.get_set_ne _ _ _ hj⟩
  · rw [Group.writeVreg, Tab.get_set_self]
    simp [mergeLanes, laneAt, lanesOf, hl, written]
  · rw [Group.writeVreg, Tab.get_set_self]
    simp [writtenLabel, hf]

theorem Tab.find_del_self {α : Type} (m : Tab α) (k : Nat) : (m.del k).find k = none := by
  induction m with
  | nil => rfl
  | cons e m ih =>
    obtain ⟨k', v⟩ := e
    rw [Tab.del, List.filter_cons] at *
    by_cases same : k' = k
    · simpa [same] using ih
    · simpa [same, Tab.find] using ih

/-- The banks that a WINIT asks for are the team's and bound to no handle. -/
theorem winInit_free (t : Team) (b : Nat) : (t.banks.getLsbD b && !t.whand.any (fun h => decide (h.2.bank ≤ b) && decide (b < h.2.bank + h.2.nb))) = true ↔
    t.banks.getLsbD b = true ∧ ∀ y ∈ t.whand, b < y.2.bank ∨ y.2.bank + y.2.nb ≤ b := by
  simp only [Bool.and_eq_true, Bool.not_eq_true', List.any_eq_false, decide_eq_true_iff, not_and, not_lt]
  refine and_congr_right fun _ => forall₂_congr fun y _ => ?_
  omega

/-- WINIT binds its banks, or fails. -/
theorem winInit_eq (t : Team) (g : Group) (n op : Nat) (ty : Ty) (rm : RM) (w bank : Nat) (l : Label) :
    let nb := (w * (if 7 ≤ op then 8 else 4) + 2047) / 2048
    let good := t.whand.find n = none ∧ ∀ b ∈ (List.range nb).map (bank + ·), t.banks.getLsbD b = true ∧ ∀ y ∈ t.whand, b < y.2.bank ∨ y.2.bank + y.2.nb ≤ b
    (good → t.winInit g n op ty rm w bank l =
      .ok { t with whand := t.whand.put n { op := op, ty := ty, rm := rm, w := w, bank := bank, nb := nb, hc := l } } g 0) ∧
    (¬ good → t.winInit g n op ty rm w bank l = .bad fltWindow) := by
  intro nb good
  have banks : winBanks op w = nb := by simp only [winBanks, winSize, winPair, decide_eq_true_iff]; rfl
  have bad : ((t.whand.find n).isSome || !((List.range nb).map (bank + ·)).all (fun b => t.banks.getLsbD b &&
      !t.whand.any (fun h => decide (h.2.bank ≤ b) && decide (b < h.2.bank + h.2.nb)))) = true ↔ ¬ good := by
    rw [Bool.or_eq_true, Option.isSome_iff_ne_none, Bool.not_eq_true', ← Bool.not_eq_true, List.all_eq_true]
    simp only [winInit_free, good]
    tauto
  refine ⟨fun h => ?_, fun h => ?_⟩
  · rw [Team.winInit, banks]
    exact if_neg fun b => bad.1 b h
  · rw [Team.winInit, banks]
    exact if_pos (bad.2 h)

section
variable {s : State} {tn : Nat} {w : WinOp} {o : Op} {ws : List WinOp} (head : (s.team tn).wq = w :: ws)
  (find : (s.group w.g).op w.op = some o) (resident : (s.team tn).state = .resident)
include head find resident

theorem window_unbound (other : ∀ op ty rm n b l, w.kind ≠ .init op ty rm n b l) (unbound : (s.team tn).whand.find w.handle = none) :
    exec (.windowOpPerform tn) s = .next (s.windowFails tn w ws o fltWindow) := by
  rw [windowOpPerform_eq head find resident, unbound]
  cases hk : w.kind with
  | init op ty rm n b l => exact absurd hk (other op ty rm n b l)
  | _ => rfl

variable {h : WHandle} (bound : (s.team tn).whand.find w.handle = some h)
include bound

theorem window_poison (reads : w.kind.reads = true) (bad : (s.team tn).windowBad h = true) :
    exec (.windowOpPerform tn) s = .next (s.windowFails tn w ws o { code := 0x0E }) := by
  rw [windowOpPerform_eq head find resident, bound]
  cases hk : w.kind with
  | init op ty rm n b l =>
    rw [hk] at reads
    exact absurd reads Bool.false_ne_true
  | _ =>
    rw [hk] at reads
    dsimp only
    rw [reads, bad]
    rfl

theorem window_acts (other : ∀ op ty rm n b l, w.kind ≠ .init op ty rm n b l)
    (sound : w.kind.reads = false ∨ (s.team tn).windowBad h = false) {t1 : Team} {g1 : Group} {cost : Nat}
    (acts : ({ s.team tn with wq := ws } : Team).winAct (s.group w.g) w.handle h w.k w.kind = .ok t1 g1 cost) :
    exec (.windowOpPerform tn) s = .next (s.windowAfter tn w t1 (if o.dsts.isEmpty then s.group w.g else g1) o cost) := by
  have readable : ¬ (w.kind.reads && (s.team tn).windowBad h) = true := by
    rcases sound with h | h <;> simp [h]
  rw [windowOpPerform_eq head find resident, bound]
  cases hk : w.kind with
  | init op ty rm n b l => exact absurd hk (other op ty rm n b l)
  | _ =>
    rw [hk] at acts readable
    dsimp only
    rw [if_neg readable, acts]

end

/-- The lanes after a push, and its cycles (R296, R297, R304). -/
def pushed (h : WHandle) (k : Label) (mask : Word) (a c : List Word) (la lc : Label) : WHandle × Nat :=
  h.onLanes mask.getLsbD (fun l => if l.count = h.w then l.flipCost else 0) (fun i l =>
    h.push l (if winPair h.op then (laneAt a i, laneAt c i, la ||| lc ||| k) else (laneAt a i, 0#32, la ||| k)))

/-- The lanes after a WSETW, and its cycles (R306). -/
def narrowed (h : WHandle) (m : Nat) : WHandle × Nat :=
  h.onLanes (fun _ => true) (fun x => if x.count ≤ m then 0 else if x.count - x.front.length ≤ m then 0 else x.back.length)
    (fun _ x => h.shrink m x.count x)

theorem lane_pushed (h : WHandle) (k : Label) (mask : Word) (a c : List Word) (la lc : Label) {l : Nat} (hl : l < 32) :
    (pushed h k mask a c la lc).1.lane l = if mask.getLsbD l then
      h.push (h.lane l) (if 7 ≤ h.op then (laneAt a l, laneAt c l, la ||| lc ||| k) else (laneAt a l, 0#32, la ||| k)) else h.lane l := by
  refine (lane_onLanes h mask.getLsbD _ _ hl).trans (if_congr Iff.rfl ?_ rfl)
  simp only [winPair, decide_eq_true_iff]

theorem lane_narrowed (h : WHandle) (m : Nat) {l : Nat} (hl : l < 32) :
    (narrowed h m).1.lane l = h.shrink m ((h.lane l).front.length + (h.lane l).back.length) (h.lane l) :=
  (lane_onLanes h (fun _ => true) _ _ hl).trans (if_pos rfl)

/-- What WSTAT gives of a lane (R308). -/
def statOf (h : WHandle) (sel l : Nat) : Nat :=
  match sel with
  | 0 => (h.lane l).count
  | 1 => h.w
  | 2 => (h.lane l).flips
  | _ => h.stall

/-- The registers after a WQRY (R305). -/
def asked (g : Group) (h : WHandle) (k : Label) (mask : Word) (d : Nat) (full : Bool) : Group :=
  let lb := h.hc ||| k ||| Label.joinAll (((List.range 32).filter mask.getLsbD).map (fun l => (h.ask (h.lane l)).2.2))
  let g1 := g.writeVreg d mask (lanesOf (fun l => (h.ask (h.lane l)).1)) full lb
  if winPair h.op then g1.writeVreg (d + 1) mask (lanesOf (fun l => (h.ask (h.lane l)).2.1)) full lb else g1

theorem asked_spec (g : Group) (h : WHandle) (k : Label) (mask : Word) (d : Nat) (full : Bool) :
    let u := asked g h k mask d full
    u.ops = g.ops ∧ u.fx = g.fx ∧
      (∀ l, l < 32 → mask.getLsbD l = true → laneAt (u.vregs.get {} d).lanes l = (h.ask (h.lane l)).1) ∧
      (7 ≤ h.op → ∀ l, l < 32 → mask.getLsbD l = true → laneAt (u.vregs.get {} (d + 1)).lanes l = (h.ask (h.lane l)).2.1) ∧
      (full = true → (u.vregs.get {} d).lbl = h.hc ||| k |||
        Label.joinAll (((List.range 32).filter mask.getLsbD).map (fun l => (h.ask (h.lane l)).2.2))) ∧
      ∀ j, j ≠ d → (7 ≤ h.op → j ≠ d + 1) → u.vregs.get {} j = g.vregs.get {} j := by
  let lb := h.hc ||| k ||| Label.joinAll (((List.range 32).filter mask.getLsbD).map (fun l => (h.ask (h.lane l)).2.2))
  let g1 := g.writeVreg d mask (lanesOf (fun l => (h.ask (h.lane l)).1)) full lb
  obtain ⟨lanes, label, others⟩ := writeVreg_lanes g d mask (fun l => (h.ask (h.lane l)).1) full lb
  obtain ⟨lanes', -, others'⟩ := writeVreg_lanes g1 (d + 1) mask (fun l => (h.ask (h.lane l)).2.1) full lb
  have next : d ≠ d + 1 := Nat.ne_of_lt (Nat.lt_succ_self d)
  by_cases pair : 7 ≤ h.op
  · have isPair : winPair h.op = true := decide_eq_true pair
    rw [asked, isPair, if_pos rfl]
    refine ⟨rfl, rfl, fun l hl hm => ?_, fun _ => lanes', fun hf => ?_, fun j hj hj' => ?_⟩
    · exact (congrArg (fun r => laneAt r.lanes l) (others' d next)).trans (lanes l hl hm)
    · exact (congrArg VReg.lbl (others' d next)).trans (label hf)
    · exact (others' j (hj' pair)).trans (others j hj)
  · have single : winPair h.op = false := decide_eq_false pair
    rw [asked, single, if_neg Bool.false_ne_true]
    exact ⟨rfl, rfl, lanes, fun p => absurd p pair, label, fun j hj _ => others j hj⟩

/-- Settles O38: the head operation is performed by its kind, and what it gives is the team, its group's registers and its tickets. -/
theorem windowUnit : Obligations.WindowUnit := by
  intro s tn w ws o h
  dsimp only
  intro head find resident quiet
  have mine : o.fail = none := quiet o (List.mem_of_find?_eq_some find)
  have after (t1 : Team) (g1 : Group) (cost : Nat) (ops : g1.ops = (s.group w.g).ops) :
      let u := s.windowAfter tn w t1 (if o.dsts.isEmpty then s.group w.g else g1) o cost
      u.team tn = t1 ∧ u.mem = s.mem ∧
        (u.group w.g).vregs = (windowDone (if o.dsts.isEmpty then s.group w.g else g1) o cost).vregs := by
    refine windowAfter_spec t1 cost mine ?_
    split
    · exact quiet
    · rwa [ops]
  have untouched (t1 : Team) (cost : Nat) : (s.windowAfter tn w t1 (if o.dsts.isEmpty then s.group w.g else s.group w.g) o cost).team tn = t1 ∧
      (s.windowAfter tn w t1 (if o.dsts.isEmpty then s.group w.g else s.group w.g) o cost).mem = s.mem :=
    ⟨(after t1 _ cost rfl).1, (after t1 _ cost rfl).2.1⟩
  refine ⟨fun op ty rm n b l kind => ?_, window_unbound head find resident, fun bound => window_poison head find resident bound,
    fun bound sound => ⟨fun mask a c la lc kind => ?_, fun mask d full kind small quietFx => ?_, fun m l kind fits => ?_, fun kind => ?_,
      fun mask sel d full kind quietFx => ?_⟩⟩
  · obtain ⟨binds, fails⟩ := winInit_eq { s.team tn with wq := ws } (s.group w.g) w.handle op ty rm n b l
    have runs := windowOpPerform_eq head find resident
    rw [kind] at runs
    dsimp only at runs
    refine ⟨fun unbound free => ?_, fun bad => ?_⟩
    · rw [binds ⟨unbound, free⟩] at runs
      obtain ⟨team, mem⟩ := untouched _ 0
      refine ⟨_, runs, ?_, ?_, mem⟩
      · rw [team]
        exact Tab.find_put_self ..
      · rw [team]
    · rw [fails] at runs
      · exact runs
      · rintro ⟨unbound, free⟩
        rcases bad with ⟨y, hy⟩ | ⟨x, hx, out⟩
        · exact absurd (unbound.symm.trans hy) (Option.some_ne_none y).symm
        · exact out (free x hx)
  · have acts : ({ s.team tn with wq := ws } : Team).winAct (s.group w.g) w.handle h w.k w.kind =
        .ok { s.team tn with wq := ws, whand := (s.team tn).whand.put w.handle { (pushed h w.k mask a c la lc).1 with hc := h.hc ||| w.k } }
          (s.group w.g) (pushed h w.k mask a c la lc).2 := by rw [kind]; rfl
    refine ⟨_, window_acts head find resident bound (by simp [kind]) sound acts, ?_⟩
    beta_reduce
    rw [(untouched _ _).1]
    refine ⟨rfl, _, Tab.find_put_self .., rfl, fun l hl => ?_⟩
    exact lane_pushed h w.k mask a c la lc hl
  · have acts : ({ s.team tn with wq := ws } : Team).winAct (s.group w.g) w.handle h w.k w.kind =
        .ok { s.team tn with wq := ws } (asked (s.group w.g) h w.k mask d full) 0 := by rw [kind]; rfl
    obtain ⟨ops, fx, first, second, label, others⟩ := asked_spec (s.group w.g) h w.k mask d full
    refine ⟨_, window_acts head find resident bound (by simp [kind]) sound acts, ?_⟩
    obtain ⟨team, -, vregs⟩ := after { s.team tn with wq := ws } _ 0 ops
    rw [team, vregs]
    refine ⟨rfl, rfl, fun none_ => ?_, fun some_ => ?_⟩
    · rw [none_]
      exact vregs_windowDone quietFx o 0
    · have written : o.dsts.isEmpty = false := List.isEmpty_eq_false_iff.2 some_
      rw [written, if_neg Bool.false_ne_true, vregs_windowDone (fx.trans quietFx)]
      exact ⟨fun l hl lane => ⟨first l hl lane, fun pair => second pair l hl lane⟩, label, others⟩
  · have acts : ({ s.team tn with wq := ws } : Team).winAct (s.group w.g) w.handle h w.k w.kind =
        .ok { s.team tn with wq := ws, whand := (s.team tn).whand.put w.handle { (narrowed h m).1 with w := m, hc := h.hc ||| w.k ||| l } }
          (s.group w.g) (narrowed h m).2 := by
      have room : ¬ h.nb * 2048 / winSize h.op < m := by
        simp only [winSize, winPair, decide_eq_true_iff]
        omega
      rw [kind, Team.winAct, if_neg room]
      rfl
    refine ⟨_, window_acts head find resident bound (by simp [kind]) sound acts, ?_⟩
    beta_reduce
    rw [(untouched _ _).1]
    exact ⟨rfl, _, Tab.find_put_self .., rfl, rfl, fun j hj => lane_narrowed h m hj⟩
  · have acts : ({ s.team tn with wq := ws } : Team).winAct (s.group w.g) w.handle h w.k w.kind =
        .ok { s.team tn with wq := ws, whand := (s.team tn).whand.del w.handle, acc := (s.team tn).acc.filter (fun e =>
          !(decide (h.bank ≤ e.1 / 32768) && decide (e.1 / 32768 < h.bank + h.nb))) } (s.group w.g) 0 := by rw [kind]; rfl
    refine ⟨_, window_acts head find resident bound (by simp [kind]) sound acts, ?_⟩
    beta_reduce
    rw [(untouched _ _).1]
    refine ⟨Tab.find_del_self .., fun x => ?_⟩
    have kept := Tab.get_filter_key 0#32 (fun n => !(decide (h.bank ≤ n / 32768) && decide (n / 32768 < h.bank + h.nb))) (s.team tn).acc x
    refine kept.trans ?_
    rw [← ite_not]
    refine if_congr ?_ rfl rfl
    simp
  · have acts : ({ s.team tn with wq := ws } : Team).winAct (s.group w.g) w.handle h w.k w.kind =
        .ok { s.team tn with wq := ws } ((s.group w.g).writeVreg d mask (lanesOf (fun l => BitVec.ofNat 32 (statOf h sel l))) full (h.hc ||| w.k)) 0 := by
      rw [kind]
      rfl
    obtain ⟨lanes, label, others⟩ := writeVreg_lanes (s.group w.g) d mask (fun l => BitVec.ofNat 32 (statOf h sel l)) full (h.hc ||| w.k)
    refine ⟨_, window_acts head find resident bound (by simp [kind]) sound acts, ?_⟩
    obtain ⟨team, -, vregs⟩ := after { s.team tn with wq := ws }
      ((s.group w.g).writeVreg d mask (lanesOf (fun l => BitVec.ofNat 32 (statOf h sel l))) full (h.hc ||| w.k)) 0 rfl
    rw [team, vregs]
    refine ⟨rfl, rfl, fun none_ => ?_, fun some_ => ?_⟩
    · rw [none_]
      exact vregs_windowDone quietFx o 0
    · have written : o.dsts.isEmpty = false := List.isEmpty_eq_false_iff.2 some_
      rw [written, if_neg Bool.false_ne_true, vregs_windowDone (g := (s.group w.g).writeVreg d mask
        (lanesOf (fun l => BitVec.ofNat 32 (statOf h sel l))) full (h.hc ||| w.k)) quietFx]
      exact ⟨lanes, label, others⟩

end Sys2Proof.Machine
end


section
/-! PROOFS. ACCVT over two pitches whose heads differ in their work. -/

namespace Sys2Proof.Machine

open Sys2Proof

/-- A status read that names both pitches. -/
def statusEntry : MxEntry :=
  { g := 0, op := 0, both := true, caddr := 0, started := true, work := .cvt .z32 .rne false 0 1 1 false .f32 0#32 }

/-- A resident team that heads pitch 0 with `statusEntry`, and pitch 1 with an entry of the same operation which zeroes a tile of a
labelled bank. -/
def oddPitchState : State :=
  (State.reset.setTeam 0 { State.reset.team 0 with
      state := .resident, bankLbl := [(0, 1#16)],
      pitches := [(0, { queue := [statusEntry] }), (1, { queue := [{ statusEntry with work := .zero }] })] }).setGroup 0
    { State.reset.group 0 with ops := [{ id := 0, fc := some .mx, dsts := [.reg 0], data := .matrix }] }

/-- The state that a step leaves. -/
def nextOf : Out → Option State
  | .next u => some u
  | _ => none

/-- Refutes O41: the statement fixes the work of the entry at the head of the first pitch alone. In `oddPitchState` the entry that leaves
the second pitch has a tile, whose bank joins the status label, though the mode read is 1. -/
theorem not_conversionsOfTheArray : ¬ Obligations.ConversionsOfTheArray := by
  intro h
  obtain ⟨u, hu, -, -, status⟩ := (h oddPitchState 0 0 [0, 1] statusEntry { id := 0, fc := some .mx, dsts := [.reg 0], data := .matrix } 0
    .z32 .f32 .rne false false 0 1 1 0#32 [] rfl rfl (by decide +kernel) rfl rfl rfl (by decide +kernel) rfl).2 (.inl rfl) (by decide)
  have unlabelled := (status 1 (by decide)).2
  have joined : (nextOf (exec (.accvtComplete 0 0) oddPitchState)).map (fun u => ((u.team 0).pitch 1).slbl) = some 1#16 := by rfl
  rw [hu] at joined
  exact absurd ((Option.some.inj joined).symm.trans unlabelled) (by decide +kernel)

end Sys2Proof.Machine
end


section
/-! PROOFS. A table of teams that lists one team twice. -/

namespace Sys2Proof.Machine

open Sys2Proof

/-- An MXZERO that has started on one pitch. -/
def zeroEntry : MxEntry := { g := 0, op := 0, both := false, caddr := 0, started := true, work := .zero }

/-- Its operation, which another device has refused for its lease. -/
def refusedOp : Op := { id := 0, fc := none, dsts := [], data := .matrix, fail := some { code := 0x04 } }

/-- Team 0 is resident, and a second line of the table of teams, which no lookup reaches, has it saved. -/
def twiceListedState : State :=
  State.setGroup { State.reset with
    teams := [(0, { State.reset.team 0 with state := .resident, pitches := [(0, { queue := [zeroEntry, zeroEntry] })] }),
              (0, { State.reset.team 0 with state := .saved })] } 0
    { State.reset.group 0 with ops := [refusedOp] }

/-- Refutes O40: the statement speaks of every state, one whose table of teams lists a team twice among them. In `twiceListedState` the
operation of the completed entry takes LEASE, which ends the grid and each of its saved teams, and with them the pitch queue that the
statement says is left. -/
theorem not_pitchSteps : ¬ Obligations.PitchSteps := by
  intro h
  obtain ⟨-, -, -, zero⟩ := h.1 twiceListedState 0 0 zeroEntry [zeroEntry] refusedOp
    { fmt := .f32, grp := 0, sfmt := 0, size := 0, scoff := 0, zpoff := 0, off := 0, lbl := 0#16 } rfl rfl rfl rfl rfl
  obtain ⟨u, hu, left⟩ := zero rfl rfl
  have gone : (nextOf (exec (.pitchEntryComplete 0 0) twiceListedState)).map (fun u => ((u.team 0).pitch 0).queue) = some [] := by rfl
  rw [hu] at gone
  exact absurd ((Option.some.inj gone).symm.trans left) (by decide)

end Sys2Proof.Machine
end


section
/-! PROOFS. The matrix instructions enter the queues of the pitches they name. -/

namespace Sys2Proof.Machine

open Sys2Proof

theorem Team.pitch_setPitch (t : Team) (p q : Nat) (y : Pitch) : (t.setPitch p y).pitch q = if q = p then y else t.pitch q :=
  Tab.get_put ..

/-- An entry at the end of a pitch's queue. -/
def Team.enqueue (t : Team) (p : Nat) (e : MxEntry) : Team := t.setPitch p { t.pitch p with queue := (t.pitch p).queue ++ [e] }

theorem queue_enqueue (t : Team) (p q : Nat) (e : MxEntry) :
    ((t.enqueue p e).pitch q).queue = (t.pitch q).queue ++ (if q = p then [e] else []) := by
  rw [Team.enqueue, Team.pitch_setPitch]
  split
  · next h => rw [h]
  · rw [List.append_nil]

theorem queue_enqueue_all (e : Nat → MxEntry) (ps : List Nat) (nodup : ps.Nodup) (t : Team) (q : Nat) :
    ((ps.foldl (fun t p => t.enqueue p (e p)) t).pitch q).queue = (t.pitch q).queue ++ (if q ∈ ps then [e q] else []) := by
  induction ps generalizing t with
  | nil => simp
  | cons p ps ih =>
    obtain ⟨new, nodup⟩ := List.nodup_cons.1 nodup
    rw [List.foldl_cons, ih nodup, queue_enqueue, List.append_assoc]
    by_cases h : q = p
    · subst h
      simp [new]
    · simp [h]

theorem acc_enqueue_all (e : Nat → MxEntry) (ps : List Nat) (t : Team) : (ps.foldl (fun t p => t.enqueue p (e p)) t).acc = t.acc := by
  induction ps generalizing t with
  | nil => rfl
  | cons p ps ih => rw [List.foldl_cons, ih]; rfl

theorem nodup_pitchesOf (x : BitVec 2) : (pitchesOf x).Nodup := by
  unfold pitchesOf
  split
  · simp
  · split <;> simp

/-- Nothing is discarded where no pitch has stopped. -/
theorem enterPitches_running (s : State) (o : Op) (ps : List Nat) (entry : Nat → MxEntry) (running : ∀ p ∈ ps, (s.tm.pitch p).stopped = false) :
    s.enterPitches o ps entry = (s.setGrp (s.grp.issueOp o)).setTm
      (ps.foldl (fun t p => t.enqueue p { entry p with g := s.cur, op := s.grp.nextOp }) s.tm) := by
  unfold State.enterPitches
  dsimp only
  rw [if_neg]
  · rfl
  · rw [List.any_eq_true]
    rintro ⟨p, hp, stopped⟩
    rw [State.tm_setGrp, running p hp] at stopped
    exact Bool.false_ne_true stopped

/-- A matrix instruction completes with its entry at the end of each queue it names. -/
def GoesMatrix (s s1 : State) (x : CIn) (ps : List Nat) (e : Nat → MxEntry) (out : Out) : Prop :=
  Completes out (fun u => ∃ s2, Passed s s2 u x 1 ∧
    (∀ p, (s2.tm.pitch p).queue = (s1.tm.pitch p).queue ++ (if p ∈ ps then [{ e p with op := s1.grp.nextOp }] else [])) ∧
    s2.tm.acc = s1.tm.acc ∧ s2.mem = s1.mem ∧ s2.grp.fcv .mx = s1.grp.fcv .mx + 1 ∧ s2.grp.vregs = s1.grp.vregs ∧
    s2.grp.nextOp = s1.grp.nextOp + 1)

/-- Two states alike in what the entry of a matrix instruction changes. -/
structure MatrixAlike (s u : State) : Prop where
  cur : u.cur = s.cur
  team : u.tm = s.tm
  mem : u.mem = s.mem
  fcs : u.grp.fcs = s.grp.fcs
  vregs : u.grp.vregs = s.grp.vregs
  nextOp : u.grp.nextOp = s.grp.nextOp

theorem matrix_goes {s s1 u : State} {i : Instr} {r : CRow} {sp : CSpec} {x : CIn} {body : CIn → State → CRes} {o : Op} {ps : List Nat}
    {e : Nat → MxEntry} (issues : Issues i r sp s x s1) (counted : sp.free = false) (enters : body x s1 = .done (u.enterPitches o ps e) 1)
    (alike : MatrixAlike s1 u) (counter : o.fc = some .mx) (nodup : ps.Nodup) (running : ∀ p ∈ ps, (s1.tm.pitch p).stopped = false)
    (owned : ∀ p, (e p).g = s.cur) : GoesMatrix s s1 x ps e (cIssue i sp body s) := by
  obtain ⟨cur, team, mem, fcs, vregs, nextOp⟩ := alike
  obtain ⟨t, ht, passed⟩ := completes_counted issues counted enters
  rw [enterPitches_running u o ps e (by rwa [team])] at passed
  have same (p : Nat) : ({ e p with g := u.cur, op := u.grp.nextOp } : MxEntry) = { e p with op := s1.grp.nextOp } := by
    rw [nextOp, cur, cur_of_issues issues, ← owned p]
  refine ⟨t, ht, _, passed, fun p => ?_, ?_, mem, ?_, ?_, ?_⟩
  · rw [State.tm_setTm, queue_enqueue_all _ ps nodup, team, same]
  · rw [State.tm_setTm, acc_enqueue_all, team]
  · rw [State.grp_setTm, State.grp_setGrp, Group.fcv_issueOp, if_pos counter, Group.fcv, fcs]
    rfl
  · rw [State.grp_setTm, State.grp_setGrp, Group.issueOp_eq, ← vregs]
  · rw [State.grp_setTm, State.grp_setGrp, Group.issueOp_eq, ← nextOp]

/-- Each queue named has a free entry. -/
theorem queuesFull_of_room {t : Team} {ps : List Nat} (room : ∀ p ∈ ps, (t.pitch p).queue.length < 8 ∧ (t.pitch p).stopped = false) :
    t.queuesFull ps = false := by
  rw [Team.queuesFull, List.any_eq_false]
  intro p hp
  rw [decide_eq_true_iff]
  exact (room p hp).1.not_ge

theorem pitchMissing_none {s : State} {x : BitVec 2} (held : ∀ p ∈ pitchesOf x, p < (s.recOf s.cur).pitches) : s.pitchMissing x = none := by
  have missing : (pitchesOf x).find? (fun p => decide ((s.recOf s.cur).pitches ≤ p)) = none := by
    rw [List.find?_eq_none]
    intro p hp
    rw [decide_eq_true_iff]
    exact (held p hp).not_ge
  rw [State.pitchMissing, missing]

theorem Group.held_flatMap {α : Type} (g : Group) (qmask : Nat) (l : List α) (f : α → List Dst) (free : ∀ a ∈ l, ∀ d ∈ f a, g.held qmask [d] = false) :
    g.held qmask (l.flatMap f) = false := by
  rw [Group.held, List.any_eq_false]
  intro o ho hit
  rw [Bool.and_eq_true, List.any_eq_true] at hit
  obtain ⟨open_, d, hd, here⟩ := hit
  obtain ⟨a, ha, hd⟩ := List.mem_flatMap.1 hd
  have := free a ha d hd
  rw [Group.held, List.any_eq_false] at this
  refine this o ho ?_
  rw [Bool.and_eq_true]
  exact ⟨open_, by simpa using here⟩

/-- The entry that an instruction which reads the registers of A leaves on a pitch. -/
def MxAsk.entry (a : MxAsk) (t : Team) (g : Group) (k : Nat) (p : Nat) : MxEntry :=
  { g := k, op := 0, both := decide (a.x = 2#2), caddr := tileOn a.x a.caddr p, albl := a.aLabel t g p,
    latched := (t.pitch p).latchNext.isSome, work := .steps a.t a.abase a.inc a.n a.ks a.ra a.ru (a.rows p) a.binc a.acc }

/-- Its operation. -/
def loopOp (s s1 : State) (x : CIn) : Op :=
  { id := 0, fc := some .mx, cslice := true, quads := x.qmask, pc := s.path.pos, run := s1.grp.runOf x.qmask, lbl := x.k, data := .matrix }

theorem MxAsk.enter_done {a : MxAsk} {x : CIn} {s s1 : State} (sound : a.fault s1.tm s1.grp (s.clr s.cur) = none)
    (allowed : a.denied s1.tm s1.grp = none) (room : ∀ p ∈ a.ps, (s1.tm.pitch p).queue.length < 8 ∧ (s1.tm.pitch p).stopped = false)
    (free : ∀ p ∈ a.ps, (s1.tm.pitch p).latchNext = none → ∀ q ∈ a.aRegs p, s1.grp.held 255 [.reg q] = false) :
    a.enter x s s1 = .done (s1.enterPitches (loopOp s s1 x) a.ps (a.entry s1.tm s1.grp s.cur)) 1 := by
  have unheld : s1.grp.held 255 ((a.ps.filter (fun p => !(s1.tm.pitch p).latchNext.isSome)).flatMap (fun p => (a.aRegs p).map Dst.reg)) = false := by
    refine Group.held_flatMap _ _ _ _ fun p hp d hd => ?_
    obtain ⟨hp, unlatched⟩ := List.mem_filter.1 hp
    obtain ⟨q, hq, rfl⟩ := List.mem_map.1 hd
    exact free p hp (by simpa using unlatched) q hq
  unfold MxAsk.enter
  dsimp only
  rw [sound]
  dsimp only
  rw [unheld, if_neg Bool.false_ne_true, allowed]
  dsimp only
  rw [queuesFull_of_room room]
  rfl

theorem MatrixAlike.refl (s : State) : MatrixAlike s s := ⟨rfl, rfl, rfl, rfl, rfl, rfl⟩

section
variable {s s1 : State} {f : CFields} {r : CRow} {x : CIn} {v : Resv}

/-- An instruction that reads registers of A and passes the checks of R283. -/
theorem ask_goes {i : Instr} {sp : CSpec} {body : CIn → State → CRes} {a : MxAsk} (issues : Issues i r sp s x s1) (counted : sp.free = false)
    (asks : body x s1 = a.enter x s s1) (nodup : a.ps.Nodup) (sound : a.fault s1.tm s1.grp (s.clr s.cur) = none)
    (allowed : a.denied s1.tm s1.grp = none) (room : ∀ p ∈ a.ps, (s1.tm.pitch p).queue.length < 8 ∧ (s1.tm.pitch p).stopped = false)
    (free : ∀ p ∈ a.ps, (s1.tm.pitch p).latchNext = none → ∀ q ∈ a.aRegs p, s1.grp.held 255 [.reg q] = false) :
    GoesMatrix s s1 x a.ps (a.entry s1.tm s1.grp s.cur) (cIssue i sp body s) :=
  matrix_goes issues counted (asks.trans (MxAsk.enter_done sound allowed room free)) (.refl s1) rfl nodup (fun p hp => (room p hp).2) fun _ => rfl

theorem mxloop_asks (one : s.grp.paths.length ≤ 1) (held : ∀ p ∈ pitchesOf f.x, p < (s.recOf s.cur).pitches) (flags : (x.b.at 3).toNat ≤ 1)
    (bound : s1.tm.resv.find (f.ext.toNat / 16 % 16) = some v) (pair : pairOk f.dt v.fmt = true) :
    ∃ body, exec (.mxloop f) s = cIssue (.mxloop f) { role := some 1, qb := 1, fc := some .mx } body s ∧
      body x s1 = MxAsk.enter
        { ps := pitchesOf f.x, x := f.x, t := f.dt, ru := f.ru, abase := f.sa.toNat, inc := f.sc.toNat,
          n := f.ext.toNat / 256 % 4096 + 1, ks := stepLen f.dt v.fmt,
          rows := fun _ => [{ row0 := 0, nrows := 64, hnd := f.ext.toNat / 16 % 16, boff := (x.b.at 0).toNat }],
          binc := (x.b.at 1).toInt, acc := (x.b.at 3).toNat == 1, caddr := (x.b.at 2).toNat, lbl := x.b.lbl ||| x.k, src := 0#16 }
        x s s1 := by
  refine Exists.intro _ ⟨by rw [exec_mxloop, execMxloop], ?_⟩
  dsimp only
  rw [if_neg one.not_gt, pitchMissing_none held]
  dsimp only
  rw [if_neg flags.not_gt, bound]
  dsimp only
  rw [pair]
  rfl

/-- The rows of a table that name something. -/
def tableRows (t : Team) (off n : Nat) : List (Nat × Nat × Nat) :=
  ((List.range n).filterMap (fun i => tableRow (t.readSp (off + 16 * i) 16))).filter (fun e => e.1 != 0)

/-- Reservations of one kind. -/
def Resv.Like (v y : Resv) : Prop := y.fmt = v.fmt ∧ y.grp = v.grp ∧ y.sfmt = v.sfmt

/-- The reservations that rows name, when each is bound to one like `v`. -/
theorem rows_bound {t : Team} {es : List (Nat × Nat × Nat)} (some_ : es ≠ []) (bound : ∀ e ∈ es, ∃ y, t.resv.find e.2.1 = some y ∧ v.Like y) :
    ∃ y ys, es.filterMap (fun e => t.resv.find e.2.1) = y :: ys ∧ ∀ z ∈ y :: ys, v.Like z := by
  have like (z : Resv) (hz : z ∈ es.filterMap (fun e => t.resv.find e.2.1)) : v.Like z := by
    obtain ⟨e, he, found⟩ := List.mem_filterMap.1 hz
    obtain ⟨y, hy, same⟩ := bound e he
    rw [found] at hy
    exact Option.some.inj hy ▸ same
  obtain ⟨e, es', rfl⟩ := List.exists_cons_of_ne_nil some_
  obtain ⟨y, hy, -⟩ := bound e List.mem_cons_self
  have first := List.filterMap_cons_some (f := fun e : Nat × Nat × Nat => t.resv.find e.2.1) (l := es') hy
  exact ⟨y, _, first, fun z hz => like z (first ▸ hz)⟩

theorem mxgrp_asks (one : s.grp.paths.length ≤ 1) (held : ∀ p ∈ pitchesOf f.x, p < (s.recOf s.cur).pitches) (flags : (x.b.at 3).toNat ≤ 1)
    (aligned : (x.b.at 0).toNat % 16 = 0) (least : 1 ≤ (x.b.at 1).toNat) (most : (x.b.at 1).toNat ≤ 64)
    (inside : (x.b.at 0).toNat + 16 * (x.b.at 1).toNat ≤ (s.recOf s.cur).spsize)
    (good : s1.tm.rangeBad (x.b.at 0).toNat (16 * (x.b.at 1).toNat) = false)
    (rows : ∀ n, n < (x.b.at 1).toNat → (tableRow (s1.tm.readSp ((x.b.at 0).toNat + 16 * n) 16)).isSome)
    (fits : ((tableRows s1.tm (x.b.at 0).toNat (x.b.at 1).toNat).map (·.1)).foldl (· + ·) 0 ≤ 64 * (pitchesOf f.x).length)
    (pair : pairOk f.dt v.fmt = true) (some_ : tableRows s1.tm (x.b.at 0).toNat (x.b.at 1).toNat ≠ [])
    (bound : ∀ e ∈ tableRows s1.tm (x.b.at 0).toNat (x.b.at 1).toNat, ∃ y, s1.tm.resv.find e.2.1 = some y ∧ v.Like y) :
    ∃ body, exec (.mxgrp f) s = cIssue (.mxgrp f) { role := some 1, qb := 3, fc := some .mx } body s ∧
      body x s1 = MxAsk.enter
        { ps := pitchesOf f.x, x := f.x, t := f.dt, ru := f.ru, abase := f.sa.toNat, inc := f.sc.toNat,
          n := f.ext.toNat / 256 % 4096 + 1, ks := stepLen f.dt v.fmt,
          rows := fun p => rowsOn (if f.x = 2#2 then p else 0) 0 (tableRows s1.tm (x.b.at 0).toNat (x.b.at 1).toNat),
          binc := (x.b.at 4).toInt, acc := (x.b.at 3).toNat == 1, caddr := (x.b.at 2).toNat,
          lbl := (x.b.lbl ||| x.k) ||| s1.tm.rangeLabel (x.b.at 0).toNat (16 * (x.b.at 1).toNat),
          src := s1.tm.rangeLabel (x.b.at 0).toNat (16 * (x.b.at 1).toNat) }
        x s s1 := by
  obtain ⟨y, ys, bound_eq, like⟩ := rows_bound some_ bound
  have table : (((List.range (x.b.at 1).toNat).map (fun i => tableRow (s1.tm.readSp ((x.b.at 0).toNat + 16 * i) 16))).filterMap id).filter
      (fun e => e.1 != 0) = tableRows s1.tm (x.b.at 0).toNat (x.b.at 1).toNat := by
    rw [List.filterMap_map]
    rfl
  have limits : (decide (1 < (x.b.at 3).toNat) || decide ((x.b.at 0).toNat % 16 ≠ 0) || decide ((x.b.at 1).toNat = 0) || decide (64 < (x.b.at 1).toNat)
      || decide ((s.recOf s.cur).spsize < (x.b.at 0).toNat + 16 * (x.b.at 1).toNat)) = false := by
    simp only [Bool.or_eq_false_iff, decide_eq_false_iff_not]
    omega
  have whole : ((List.range (x.b.at 1).toNat).map (fun i => tableRow (s1.tm.readSp ((x.b.at 0).toNat + 16 * i) 16))).any (·.isNone) = false := by
    rw [List.any_eq_false]
    intro o ho
    obtain ⟨n, hn, rfl⟩ := List.mem_map.1 ho
    rw [Option.isNone_iff_eq_none, ← Option.not_isSome_iff_eq_none, Classical.not_not]
    exact rows n (List.mem_range.1 hn)
  have alike : ys.any (fun z => !(z.fmt == y.fmt && z.grp == y.grp && z.sfmt == y.sfmt)) = false := by
    rw [List.any_eq_false]
    intro z hz
    obtain ⟨fmt, grp, sfmt⟩ := like z (List.mem_cons_of_mem _ hz)
    obtain ⟨fmt', grp', sfmt'⟩ := like y List.mem_cons_self
    simp [fmt, grp, sfmt, fmt', grp', sfmt']
  have fit : (false || decide (64 * (pitchesOf f.x).length < ((tableRows s1.tm (x.b.at 0).toNat (x.b.at 1).toNat).map (·.1)).foldl (· + ·) 0)
      || ys.any (fun z => !(z.fmt == y.fmt && z.grp == y.grp && z.sfmt == y.sfmt))) = false := by
    rw [alike, decide_eq_false fits.not_gt]
    rfl
  have found : (tableRows s1.tm (x.b.at 0).toNat (x.b.at 1).toNat).any (fun e => (s1.tm.resv.find e.2.1).isNone) = false := by
    rw [List.any_eq_false]
    intro e he
    obtain ⟨z, hz, -⟩ := bound e he
    rw [hz]
    exact Bool.false_ne_true
  have paired : (y :: ys).any (fun z => !pairOk f.dt z.fmt) = false := by
    rw [List.any_eq_false]
    intro z hz
    rw [(like z hz).1, pair]
    exact Bool.false_ne_true
  refine Exists.intro _ ⟨by rw [exec_mxgrp, execMxgrp], ?_⟩
  dsimp only
  rw [if_neg one.not_gt, pitchMissing_none held]
  dsimp only
  rw [limits, if_neg Bool.false_ne_true, good, if_neg Bool.false_ne_true, table, whole, bound_eq]
  dsimp only
  refine (if_neg fun h => Bool.false_ne_true (fit.symm.trans h)).trans ?_
  rw [found, if_neg Bool.false_ne_true, paired, if_neg Bool.false_ne_true, (like y List.mem_cons_self).1]
  rfl

/-- The operation of an MXZERO. -/
def zeroOp (s : State) (x : CIn) : Op :=
  { id := 0, fc := some .mx, cslice := true, quads := x.qmask, pc := s.path.pos, run := s.grp.runOf x.qmask, lbl := x.k, data := .matrix }

/-- MXZERO passes its checks. -/
theorem mxzero_goes (issues : Issues (.mxzero f) r { role := some 1, imm := some .z32, qb := 1, fc := some .mx } s x s1)
    (one : s.grp.paths.length ≤ 1) (held : ∀ p ∈ pitchesOf f.x, p < (s.recOf s.cur).pitches)
    (tiles : ∀ p ∈ pitchesOf f.x, s1.tm.tileFault (tileOn f.x (x.b.at 0).toNat p) = none)
    (within : ∀ p ∈ pitchesOf f.x, LabelIn (x.b.lbl ||| x.k) (s1.tm.tileLabel (tileOn f.x (x.b.at 0).toNat p)))
    (room : ∀ p ∈ pitchesOf f.x, (s1.tm.pitch p).queue.length < 8 ∧ (s1.tm.pitch p).stopped = false) :
    GoesMatrix s s1 x (pitchesOf f.x) (fun p => { g := s.cur, op := 0, both := decide (f.x = 2#2), caddr := tileOn f.x (x.b.at 0).toNat p, work := .zero })
      (exec (.mxzero f) s) := by
  have sound : ((pitchesOf f.x).map (tileOn f.x (x.b.at 0).toNat)).findSome? s1.tm.tileFault = none := by
    rw [List.findSome?_eq_none_iff]
    intro c hc
    obtain ⟨p, hp, rfl⟩ := List.mem_map.1 hc
    exact tiles p hp
  have allowed : (pitchesOf f.x).find? (fun p => !(x.b.lbl.join x.k).within (s1.tm.tileLabel (tileOn f.x (x.b.at 0).toNat p))) = none := by
    rw [List.find?_eq_none]
    intro p hp
    have := within p hp
    rw [← within_iff_labelIn] at this
    rw [show (x.b.lbl.join x.k).within _ = true from this]
    exact Bool.false_ne_true
  rw [exec_mxzero, execMxzero]
  refine matrix_goes (o := zeroOp s x) issues rfl ?_ (.refl s1) rfl (nodup_pitchesOf f.x) (fun p hp => (room p hp).2) fun _ => rfl
  dsimp only
  rw [if_neg one.not_gt, pitchMissing_none held, sound]
  dsimp only [Option.or]
  rw [allowed]
  dsimp only
  rw [queuesFull_of_room room]
  rfl

/-- The registers that an ACCVT covers, and what it leaves on a pitch. -/
def cvtCover (f : CFields) (x : CIn) : Nat :=
  if (x.b.at 3).toNat % 4 = 0 then (pitchesOf f.x).length * (x.b.at 2).toNat * f.dt.width / 4 else 1

def cvtRegs (f : CFields) (x : CIn) : List Dst := (List.range (cvtCover f x)).map (fun n => .reg (f.dst.toNat + n))

def cvtEntry (f : CFields) (x : CIn) (k p : Nat) : MxEntry :=
  { g := k, op := 0, both := decide (f.x = 2#2), caddr := tileOn f.x (x.b.at 0).toNat p,
    work := .cvt f.dt f.rm f.sat (x.b.at 1).toNat (x.b.at 2).toNat ((x.b.at 3).toNat % 4) (bitOf (x.b.at 3).toNat 8)
      (if f.ext.toNat = 8 then .f32 else if f.ext.toNat = 9 then .f16 else .e8m0) (x.a.at 0) }

def cvtOp (s s1 : State) (f : CFields) (x : CIn) : Op :=
  { id := 0, fc := some .mx, dsts := cvtRegs f x, ety := f.dt, data := .matrix,
    lbl := if (x.b.at 3).toNat % 4 = 0 then x.label else x.k.join x.b.lbl, cslice := true, quads := x.qmask, pc := s.path.pos,
    run := s1.grp.runOf x.qmask, tk := f.tk.toNat, mask := x.written, full := x.full }

/-- ACCVT passes its checks. -/
theorem accvt_goes (issues : Issues (.accvt f) r { role := some 1, qa := 1, qb := 1, fc := some .mx } s x s1)
    (held : ∀ p ∈ pitchesOf f.x, p < (s.recOf s.cur).pitches) (row : (x.b.at 1).toNat ≤ 63) (least : 1 ≤ (x.b.at 2).toNat)
    (most : (x.b.at 1).toNat + (x.b.at 2).toNat ≤ 64) (mode : (x.b.at 3).toNat % 4 ≠ 3) (high : (x.b.at 3).toNat / 512 = 0)
    (low : (x.b.at 3).toNat / 4 % 64 = 0) (fits : f.dst.toNat + cvtCover f x ≤ s1.grp.nvregs)
    (tiles : (x.b.at 3).toNat % 4 = 0 → ∀ p ∈ pitchesOf f.x, s1.tm.tileFault (tileOn f.x (x.b.at 0).toNat p) = none ∧
      LabelIn (s1.tm.tileLabel (tileOn f.x (x.b.at 0).toNat p)) (s.clr s.cur))
    (room : ∀ p ∈ pitchesOf f.x, (s1.tm.pitch p).queue.length < 8 ∧ (s1.tm.pitch p).stopped = false)
    (lanes : s1.grp.active s.path ≠ 0#32) (free : s1.grp.held x.qmask (cvtRegs f x) = false) (unread : s1.readHeld s.cur (cvtRegs f x) = false) :
    GoesMatrix s s1 x (pitchesOf f.x) (cvtEntry f x s.cur) (exec (.accvt f) s) := by
  have sound : (if (x.b.at 3).toNat % 4 = 0 then (pitchesOf f.x).map (tileOn f.x (x.b.at 0).toNat) else []).findSome? s1.tm.tileFault = none := by
    rw [List.findSome?_eq_none_iff]
    intro c hc
    split at hc
    · next convert =>
      obtain ⟨p, hp, rfl⟩ := List.mem_map.1 hc
      exact (tiles convert p hp).1
    · nomatch hc
  have allowed : ((if (x.b.at 3).toNat % 4 = 0 then (pitchesOf f.x).map (tileOn f.x (x.b.at 0).toNat) else []).map s1.tm.tileLabel).findSome?
      (fun l => if l.within (s.clr s.cur) then none else some (fltLoad 1 l (s.clr s.cur) (x.b.at 0).toNat)) = none := by
    rw [List.findSome?_eq_none_iff]
    intro l hl
    obtain ⟨c, hc, rfl⟩ := List.mem_map.1 hl
    split at hc
    · next convert =>
      obtain ⟨p, hp, rfl⟩ := List.mem_map.1 hc
      have := (tiles convert p hp).2
      rw [← within_iff_labelIn] at this
      rw [if_pos this]
    · nomatch hc
  have limits : (decide (63 < (x.b.at 1).toNat) || decide ((x.b.at 2).toNat = 0) || decide (64 - (x.b.at 1).toNat < (x.b.at 2).toNat)
      || decide ((x.b.at 3).toNat % 4 = 3) || decide ((x.b.at 3).toNat / 512 ≠ 0) || decide (bitsOf (x.b.at 3).toNat 2 6 ≠ 0)
      || decide (s1.grp.nvregs < f.dst.toNat + cvtCover f x)) = false := by
    have middle : bitsOf (x.b.at 3).toNat 2 6 = 0 := low
    simp only [Bool.or_eq_false_iff, decide_eq_false_iff_not, middle]
    omega
  obtain ⟨quads, ticketed⟩ := setTickets_eq s1.grp x.qmask f.tk.toNat 1
  rw [exec_accvt, execAccvt]
  refine matrix_goes (o := cvtOp s s1 f x) issues rfl ?_ (u := s1.setGrp (s1.grp.setTickets x.qmask f.tk.toNat 1)) ⟨rfl, rfl, rfl, ?_, ?_, ?_⟩
    rfl (nodup_pitchesOf f.x) (fun p hp => (room p hp).2) fun _ => rfl
  · dsimp only
    rw [pitchMissing_none held]
    dsimp only
    refine (if_neg fun h => Bool.false_ne_true (limits.symm.trans h)).trans ?_
    rw [sound, allowed]
    dsimp only [Option.or]
    refine (if_neg fun h => Bool.false_ne_true (free.symm.trans h)).trans ?_
    rw [if_neg lanes, queuesFull_of_room room, if_neg Bool.false_ne_true]
    refine (if_neg fun h => Bool.false_ne_true (unread.symm.trans h)).trans ?_
    rfl
  all_goals rw [State.grp_setGrp, ticketed]

end

/-- Settles O39: each instruction puts its entry at the end of the queues it names, once its checks are passed. -/
theorem matrixInstructions : Obligations.MatrixInstructions := by
  intro s s1 f r x i v
  dsimp only
  intro issues held
  refine ⟨?_, ?_, ?_, ?_⟩
  · rintro rfl one flags bound pair sound allowed room free
    obtain ⟨body, runs, asks⟩ := mxloop_asks (s1 := s1) (x := x) one held flags bound pair
    rw [runs]
    exact ask_goes issues rfl asks (nodup_pitchesOf f.x) sound allowed room free
  · rintro rfl one flags aligned least most inside good rows fits pair some_ bound sound allowed room free
    rw [if_pos rfl] at issues
    obtain ⟨body, runs, asks⟩ := mxgrp_asks (s1 := s1) (x := x) one held flags aligned least most inside good rows fits pair some_ bound
    rw [runs]
    exact ask_goes issues rfl asks (nodup_pitchesOf f.x) sound allowed room free
  · rintro rfl one tiles within room
    rw [if_pos rfl] at issues
    exact mxzero_goes issues one held tiles within room
  · rintro rfl row least most mode high low fits tiles room lanes free unread
    rw [if_pos rfl] at issues
    exact accvt_goes issues held row least most mode high low fits tiles room lanes free unread

end Sys2Proof.Machine
end


section
/-! PROOFS. REGANG on a path that still names an ended quad. -/

namespace Sys2Proof.Machine

open Sys2Proof

/-- A path over quads 0 and 1. -/
def twoQuadPath : Path := { pos := 1, qmask := 3, lmask := 0#32, phase := .issuing }

/-- A group with this path alone. Quad 1 has ended, its head of RQ past that of quad 0. -/
def endedQuadState : State :=
  State.reset.setGroup 0 { State.reset.group 0 with
    quads := {} :: { st := .ended, rqHead := 1 } :: List.replicate 6 { st := .ended }, paths := [(0, twoQuadPath)] }

/-- Refutes O43: the statement asks of the quads that have not ended, not of every quad of the path, that their heads of RQ are the same.
In `endedQuadState` REGANG parks the ended quad as well, and the merge of the two finds their heads different. -/
theorem not_regangParksAndMerges : ¬ Obligations.RegangParksAndMerges := by
  intro h
  obtain ⟨merges, -⟩ := h endedQuadState 0#15 1#10 twoQuadPath twoQuadPath 1 rfl (by decide) rfl rfl rfl rfl
  obtain ⟨t, ht, -, live, -⟩ := merges rfl (by decide) (by decide +kernel)
  have faults : (nextOf (exec (.trlRegang 0#15 1#10) endedQuadState)).map (fun u => (u.grp.quad 0).passed) = some 0 := by rfl
  rw [ht] at faults
  obtain ⟨-, -, passed⟩ := live 0 (by decide +kernel)
  exact absurd ((Option.some.inj faults).symm.trans passed) (by decide +kernel)

end Sys2Proof.Machine
end


section
/-! PROOFS. The ends of quads and groups, the deadlocks, and the stops. -/

namespace Sys2Proof.Machine

open Sys2Proof

/-! ## QUAD_END -/

theorem endYield_eq (g : Group) (pending : Bool) : ∃ hint atYield, g.endYield pending = { g with hint := hint, atYield := atYield } := by
  unfold Group.endYield
  split <;> exact ⟨_, _, rfl⟩

/-- Without a path there is no yield point to reach. -/
theorem yieldPoint_of_none {g : Group} (none_ : g.paths = []) (pending : Bool) : g.yieldPoint pending = g := by
  unfold Group.yieldPoint Group.allAtMarker
  rw [none_]
  rfl

/-- The one quad of a path is left out of the mask. -/
theorem maskOf_others (q : Nat) : maskOf 8 (fun r => bitOf (2 ^ q) r && r != q) = 0 := by
  refine Nat.eq_of_testBit_eq fun i => ?_
  rw [testBit_maskOf, Nat.zero_testBit]
  by_cases h : bitOf (2 ^ q) i = true
  · simp [((bitOf_two_pow q i).1 h)]
  · simp [h]

theorem trim_eq (g : Group) : ∃ rqBase rq lqs, g.trim = { g with rqBase := rqBase, rq := rq, lqs := lqs } := ⟨_, _, _, rfl⟩

/-- The group without its one path, quad `q` ended. -/
def Group.dropQuad (g : Group) (q : Nat) : Group :=
  { g.mapQuads (2 ^ q) (fun _ y => { y with st := .ended, tickets := [] }) with paths := [] }

/-- The group once quad `q`, the last of its path, has ended. -/
def Group.endQuad (g : Group) (q : Nat) (pending : Bool) : Group := (((g.dropQuad q).endYield pending).trim).yieldPoint pending

theorem endQuad_eq (g : Group) (q : Nat) (pending : Bool) : ∃ hint atYield rqBase rq lqs, g.endQuad q pending =
    { g.dropQuad q with hint := hint, atYield := atYield, rqBase := rqBase, rq := rq, lqs := lqs } := by
  obtain ⟨hint, atYield, eq⟩ := endYield_eq (g.dropQuad q) pending
  obtain ⟨rqBase, rq, lqs, eq'⟩ := trim_eq ((g.dropQuad q).endYield pending)
  refine ⟨hint, atYield, rqBase, rq, lqs, ?_⟩
  rw [Group.endQuad, eq', eq]
  exact yieldPoint_of_none rfl pending

theorem quad_endQuad (g : Group) (q r : Nat) (pending : Bool) : (g.endQuad q pending).quad r =
    if r < g.quads.length ∧ bitOf (2 ^ q) r = true then { g.quad r with st := .ended, tickets := [] } else g.quad r := by
  obtain ⟨hint, atYield, rqBase, rq, lqs, eq⟩ := endQuad_eq g q pending
  exact (congrArg (fun l : List Quad => l.getD r { st := .ended }) (congrArg Group.quads eq)).trans
    (Group.quad_mapQuads g (2 ^ q) (fun _ y => { y with st := .ended, tickets := [] }) r)

theorem paths_endQuad (g : Group) (q : Nat) (pending : Bool) : (g.endQuad q pending).paths = [] := by
  obtain ⟨hint, atYield, rqBase, rq, lqs, eq⟩ := endQuad_eq g q pending
  exact congrArg Group.paths eq

theorem carv_endQuad (g : Group) (q : Nat) (pending : Bool) : (g.endQuad q pending).carv = g.carv := by
  obtain ⟨hint, atYield, rqBase, rq, lqs, eq⟩ := endQuad_eq g q pending
  exact (congrArg Group.carv eq).trans rfl

theorem merge_of_none {g : Group} (none_ : g.paths = []) (key : Nat) : g.merge key = .ok g := by
  unfold Group.merge
  rw [none_]
  rfl

theorem mem_pmGroup (s : State) (k code n : Nat) : (s.pmGroup k code n).mem = s.mem := by
  unfold State.pmGroup
  dsimp only
  split <;> rfl

/-- What QUAD_END leaves once the arrivals that waited are made. -/
def quadDone (s : State) (k : Nat) (s1 : State) : Out :=
  match (s1.group k).merge (s1.group k).lastParked with
  | .ok g4 => .next (s1.setGroup k g4)
  | .error f =>
    .next (s1.raiseRec k { flt := f, cslice := true, fpos := ((s1.group k).paths.get Path.none (s1.group k).lastParked).pos, fcycle := s.cycle,
                           fpath := some (s1.group k).lastParked })

theorem quadDone_of_none {s s1 : State} {k : Nat} (none_ : (s1.group k).paths = []) : quadDone s k s1 = .next (s1.setGroup k (s1.group k)) := by
  rw [quadDone, merge_of_none none_]

/-- The last quad of the group's one path ends. -/
theorem quadEnd_ends {s : State} {k p q : Nat} {x : Path} (one : (s.group k).paths = [(p, x)]) (ending : x.phase = .ending)
    (alone : x.qmask = 2 ^ q) (done : ∀ i, i < 16 → ((s.group k).quad q).ticket i ≠ 1) (carv : (s.group k).carv = []) :
    ∃ s1 : State, (∀ j, s1.group j = (s.setGroup k ((s.group k).endQuad q (s.team (teamOf k)).pending)).group j) ∧ s1.mem = s.mem ∧
      exec (.quadEnd k q) s = .next (s1.setGroup k ((s.group k).endQuad q (s.team (teamOf k)).pending)) := by
  have found : [(p, x)].find? (fun e => e.2.phase == .ending && bitOf e.2.qmask q) = some (p, x) := by
    rw [List.find?_cons_of_pos]
    rw [Bool.and_eq_true, beq_iff_eq]
    exact ⟨ending, by rw [alone, bitOf_two_pow]⟩
  have settled : (List.range 16).any (fun t => ((s.group k).quad q).ticket t == 1) = false := by
    rw [List.any_eq_false]
    intro i hi
    rw [beq_iff_eq]
    exact done i (List.mem_range.1 hi)
  have gone (m : Nat) (f : Nat → Quad → Quad) : ((s.group k).mapQuads m f).paths.del p = [] := by
    change (s.group k).paths.del p = []
    rw [one]
    simp [Tab.del]
  rw [exec_quadEnd, execQuadEnd]
  dsimp only
  rw [one, found]
  dsimp only
  rw [settled, if_neg Bool.false_ne_true, alone, maskOf_others, if_pos rfl, gone]
  have counted (n : Nat) : ∃ s0 : State, (∀ j, s0.group j = (s.setGroup k ((s.group k).endQuad q (s.team (teamOf k)).pending)).group j) ∧
      s0.mem = s.mem ∧ (if n = 0 then s.setGroup k ((s.group k).endQuad q (s.team (teamOf k)).pending) else
        (s.setGroup k ((s.group k).endQuad q (s.team (teamOf k)).pending)).pmGroup k 0x0E n) = s0 := by
    refine ⟨_, fun j => ?_, ?_, rfl⟩
    · split
      · rfl
      · exact State.group_pmGroup ..
    · split
      · rfl
      · exact mem_pmGroup ..
  obtain ⟨s0, same, mem, eq⟩ := counted (Group.yields { (((s.group k).dropQuad q).endYield (s.team (teamOf k)).pending).trim with
    rq := ((s.group k).mapQuads (2 ^ q) (fun _ y => { y with st := .ended, tickets := [] })).rq })
  have own : s0.group k = (s.group k).endQuad q (s.team (teamOf k)).pending := (same k).trans (State.group_setGroup ..)
  have flushed (n : Nat) : State.carvFlush k n s0 = s0 := by
    cases n with
    | zero => rfl
    | succ n => rw [State.carvFlush, own, carv_endQuad, carv]
  have ends := quadDone_of_none (s := s) (s1 := State.carvFlush k (((s.group k).dropQuad q).endYield (s.team (teamOf k)).pending).trim.carv.length s0)
    (by rw [flushed, own, paths_endQuad])
  refine ⟨s0, same, mem, ?_⟩
  subst eq
  refine Eq.trans ?_ (ends.trans ?_)
  · rfl
  · rw [flushed, own]

/-! ## The deadlocks (R10, R174, R326, R327, R372) -/

theorem groupFinish_finishes {s : State} {k : Nat} (halted : (s.group k).halted = true) (ended : (s.group k).unended = []) (saq : (s.group k).saq = [])
    (sdq : (s.group k).sdq = []) (sound : (s.group k).fault = none) (open_ : (s.group k).finished = false)
    (resident : (s.team (teamOf k)).state = .resident) :
    exec (.groupFinish k) s = .next ((s.setGroup k { s.group k with finished := true }).earlyRelease (s.team (teamOf k)).grid) := by
  rw [exec_groupFinish, execGroupFinish]
  dsimp only
  rw [halted, ended, saq, sdq, sound, open_, resident]
  rfl

/-- A VSTA that waits for room in SAQ. -/
theorem aDeadCode_vsta {g : Group} {a : SRegNo} {i : BitVec 14} (waits : g.await = some (.vsta a i)) (free : g.sHeld a = false) (full : 16 ≤ g.saq.length) :
    g.aDeadCode = 0x12 := by
  rw [Group.aDeadCode, waits]
  dsimp only
  rw [free, decide_eq_true full]
  rfl

theorem unpairedDeadlock_faults {s : State} {k : Nat} (stuck : (s.group k).halted = true ∨ (s.group k).aDeadCode = 0x12) (ended : (s.group k).unended = [])
    (stands : s.standsA k = true) (open_ : (s.group k).finished = false) (unpaired : (s.group k).saq.isEmpty ≠ (s.group k).sdq.isEmpty) :
    exec (.unpairedDeadlock k) s =
      .next (s.raiseRec k { flt := { code := 0x0D }, cslice := false, fpos := 0, fcycle := s.cycle, dlk := false, unpaired := true }) := by
  have stuck' : ((s.group k).halted || (s.group k).aDeadCode == 0x12) = true := by
    rw [Bool.or_eq_true, beq_iff_eq]
    exact stuck
  rw [exec_unpairedDeadlock, execUnpairedDeadlock]
  rw [stuck', ended, stands, open_, bne_iff_ne.2 unpaired]
  rfl

theorem popcaDeadlock_faults {s : State} {k : Nat} {d : SRegNo} (waits : (s.group k).await = some (.popca d)) (empty : (s.group k).ca = [])
    (free : (s.group k).sHeld d = false) (stands : s.standsA k = true) (going : (s.group k).atYield = false)
    (parked : ∀ e ∈ (s.group k).paths, e.2.phase = .parked ∨ e.2.phase = .marker) :
    exec (.popcaDeadlock k) s = .next ((s.on k).raiseA { code := 0x0D }) := by
  have parked' : (s.group k).paths.all (fun p => p.2.phase == .parked || p.2.phase == .marker) = true := by
    rw [List.all_eq_true]
    intro e he
    rw [Bool.or_eq_true, beq_iff_eq, beq_iff_eq]
    exact parked e he
  rw [exec_popcaDeadlock, execPopcaDeadlock]
  rw [waits]
  dsimp only
  rw [empty, free, stands, going, parked']
  rfl

theorem decoupleDeadlock_faults {s : State} {k : Nat} (waits : (s.group k).aDeadCode ≠ 0) (stands : s.standsA k = true)
    (going : (s.group k).halted = false) (running : (s.group k).cstopped = false)
    (live : ∃ e ∈ (s.group k).paths, e.2.phase ≠ .parked ∧ e.2.phase ≠ .marker)
    (dead : ∀ e ∈ (s.group k).paths, e.2.phase = .parked ∨ e.2.phase = .marker ∨ (s.group k).cDeadCode e.2 ≠ 0) :
    exec (.decoupleDeadlockDetect k) s =
      .next (s.raiseRec k { flt := { code := 0x0D }, cslice := false, fpos := 0, fcycle := s.cycle, dlk := true, unpaired := false }) := by
  have isLive (e : Nat × Path) : (e.2.phase != .parked && e.2.phase != .marker) = true ↔ e.2.phase ≠ .parked ∧ e.2.phase ≠ .marker := by
    rw [Bool.and_eq_true, bne_iff_ne, bne_iff_ne]
  have some_ : ((s.group k).paths.filter (fun p => p.2.phase != .parked && p.2.phase != .marker)).isEmpty = false := by
    obtain ⟨e, he, phase⟩ := live
    rw [List.isEmpty_eq_false_iff]
    exact List.ne_nil_of_mem (List.mem_filter.2 ⟨he, (isLive e).2 phase⟩)
  have all : ((s.group k).paths.filter (fun p => p.2.phase != .parked && p.2.phase != .marker)).all (fun p => (s.group k).cDeadCode p.2 != 0) = true := by
    rw [List.all_eq_true]
    intro e he
    obtain ⟨he, phase⟩ := List.mem_filter.1 he
    obtain ⟨parked, marker⟩ := (isLive e).1 phase
    rw [bne_iff_ne]
    exact ((dead e he).resolve_left parked).resolve_left marker
  rw [exec_decoupleDeadlockDetect, execDecoupleDeadlockDetect]
  rw [going, bne_iff_ne.2 waits, some_, all, stands, running]
  rfl

theorem Tab.mem_of_find {α : Type} {m : Tab α} {k : Nat} {v : α} (h : m.find k = some v) : (k, v) ∈ m := by
  induction m with
  | nil => nomatch h
  | cons e m ih =>
    obtain ⟨k', v'⟩ := e
    rw [Tab.find] at h
    split at h
    · next same =>
      rw [← same, ← Option.some.inj h]
      exact List.mem_cons_self
    · exact List.mem_cons_of_mem _ (ih h)

/-- One waiter, whose team holds banks. -/
theorem allocDeadlock_faults {s : State} {n k : Nat} {d a : SRegNo} (waiter : s.allocWaiters n = [k]) (waits : (s.group k).await = some (.alloc d a))
    (short : (bankList (~~~ s.banksTaken n)).length < ((s.group k).sreg a).val.toNat) (listed : s.teams.find (teamOf k) = some (s.team (teamOf k)))
    (resident : (s.team (teamOf k)).state = .resident) (here : (s.team (teamOf k)).core = n) (holds : (s.team (teamOf k)).banks ≠ 0#64)
    (stuck : ∀ y ∈ s.groups, y.2.finished = true ∨ (s.standsA y.1 = true ∧ ∃ d a, (s.group y.1).await = some (.alloc d a))) :
    exec (.allocDeadlockDetect n) s = .next ((s.on k).raiseA { code := 0x0A }) := by
  have holder : (s.teams.filter (fun e => e.2.state == .resident && e.2.core == n && e.2.banks != 0#64)).any (fun e => e.1 == teamOf k) = true := by
    rw [List.any_eq_true]
    refine ⟨_, List.mem_filter.2 ⟨Tab.mem_of_find listed, ?_⟩, beq_self_eq_true _⟩
    simp [resident, here, holds]
  have cand : [k].filter (fun k => (s.teams.filter (fun e => e.2.state == .resident && e.2.core == n && e.2.banks != 0#64)).any
      (fun e => e.1 == teamOf k)) = [k] := by
    rw [List.filter_cons, if_pos holder]
    rfl
  have none_ (t : Nat) : s.groups.all (fun x => teamOf x.1 != t || x.2.finished || (s.standsA x.1 && (match (s.group x.1).await with
      | some (.alloc ..) => true | _ => false))) = true := by
    rw [List.all_eq_true]
    intro y hy
    rcases stuck y hy with finished | ⟨stands, d', a', waits'⟩
    · rw [finished, Bool.or_true, Bool.true_or]
    · rw [stands, waits', Bool.and_self, Bool.or_true]
  rw [exec_allocDeadlockDetect, execAllocDeadlockDetect]
  dsimp only
  rw [waiter]
  dsimp only
  rw [if_neg, cand]
  · rfl
  · rw [Bool.not_eq_true', Bool.not_eq_false, Bool.and_eq_true, decide_eq_true_iff, waits]
    exact ⟨short, List.all_eq_true.2 fun e _ => none_ e.1⟩

/-! ## SLICE_STOP (R376) -/

theorem sliceStop_stops {s : State} {k c n : Nat} (bell : (s.team (teamOf k)).bell = some c) (most : n ≤ 48) (reached : c + n ≤ s.cycle)
    (least : (s.group k).lastIssue ≤ c + n) (waiting : (s.group k).waiting = true → n = (s.group k).lastIssue - c)
    (running : (s.group k).astopped = false ∨ (s.group k).cstopped = false) (resident : (s.team (teamOf k)).state = .resident) :
    Completes (exec (.sliceStop k n) s) (fun u =>
      u.group k = { s.group k with astopped := true, cstopped := true, skid := if (s.group k).fault.isSome then 0 else n } ∧
      (∀ j, j ≠ k → u.group j = s.group j) ∧ u.mem = s.mem ∧ k ∉ (u.core (s.team (teamOf k)).core).allocq) := by
  have due : (decide (48 < n) || decide (s.cycle < c + n) || decide (n < (s.group k).lastIssue - c)
      || ((s.group k).waiting && n != (s.group k).lastIssue - c) || ((s.group k).astopped && (s.group k).cstopped)
      || (s.team (teamOf k)).state != .resident) = false := by
    have exact_ : ((s.group k).waiting && n != (s.group k).lastIssue - c) = false := by
      rw [Bool.and_eq_false_imp]
      intro h
      rw [← waiting h, bne_self_eq_false]
    have open_ : ((s.group k).astopped && (s.group k).cstopped) = false := by
      rcases running with h | h <;> simp [h]
    rw [exact_, open_, resident, decide_eq_false most.not_gt, decide_eq_false reached.not_gt, decide_eq_false (by omega)]
    rfl
  rw [exec_sliceStop, execSliceStop]
  dsimp only
  rw [bell]
  dsimp only
  rw [due]
  refine ⟨_, rfl, ?_, fun j hj => ?_, rfl, ?_⟩
  · rw [group_setCore, State.group_setGroup]
  · rw [group_setCore, State.group_setGroup_ne _ _ hj]
  · rw [State.core_setCore]
    simp

/-- Settles O45: each of the events acts once its conditions stand. -/
theorem endsDeadlocksAndStops : Obligations.EndsDeadlocksAndStops := by
  intro s k p q c n x d a
  dsimp only
  refine ⟨?_, ?_, ?_, ?_, ?_, ?_, ⟨?_, ?_⟩, ?_⟩
  · intro one ending alone listed done carv
    obtain ⟨s1, same, mem, ends⟩ := quadEnd_ends one ending alone done carv
    refine ⟨_, ends, fun j hj => ?_, ?_, ?_, fun r other _ => ?_, mem⟩
    · rw [State.group_setGroup_ne _ _ hj, same, State.group_setGroup_ne _ _ hj]
    · rw [State.group_setGroup, paths_endQuad]
    · rw [State.group_setGroup, quad_endQuad, if_pos ⟨listed, (bitOf_two_pow q q).2 rfl⟩]
    · rw [State.group_setGroup, quad_endQuad, if_neg]
      rw [bitOf_two_pow]
      exact fun both => other both.2.symm
  · exact groupFinish_finishes
  · intro stuck ended stands open_ unpaired
    refine unpairedDeadlock_faults (stuck.imp_right ?_) ended stands open_ unpaired
    rintro ⟨a, i, waits, free, full⟩
    exact aDeadCode_vsta waits free full
  · exact popcaDeadlock_faults
  · exact decoupleDeadlock_faults
  · exact allocDeadlock_faults
  · intro aged
    rw [exec_ageCounterAged, execAgeCounterAged]
    rw [if_pos rfl, if_pos aged]
  · intro aged
    rw [exec_ageCounterAged, execAgeCounterAged]
    rw [if_neg Bool.false_ne_true, if_pos aged]
  · exact sliceStop_stops

end Sys2Proof.Machine
end


section
/-! PROOFS. What a compute-stream instruction asks before it issues. -/

namespace Sys2Proof.Machine

open Sys2Proof

/-- An outcome is that of an issue with these rules beside the slots'. -/
def IssuesWith (o : Out) (i : Instr) (s : State) (static : Nat → Bool) (role : Option Nat) : Prop :=
  ∃ sp body, o = cIssue i sp body s ∧ sp.static = static ∧ sp.role = role

theorem cIssue_with (i : Instr) (sp : CSpec) (body : CIn → State → CRes) (s : State) : IssuesWith (cIssue i sp body s) i s sp.static sp.role :=
  ⟨sp, body, rfl, rfl, rfl⟩

/-- A query of a handle that will be bound to an operator on pairs. -/
def queriesPair (s : State) (f : CFields) : Bool := (s.tm.operatorOf (f.ext.toNat % 8)).any winPair

/-- The second register, or the last, that an instruction names beside its slots. -/
def staticOf (s : State) (f : CFields) : Instr → Nat → Bool
  | .vldx _ | .vstx _ | .vstxNotify _ | .vamo _ | .vamoDet _ => fun n => decide (f.sa.toNat + 1 < n)
  | .vrand _ => fun n => decide (f.dst.toNat + 3 < n)
  | .vsys _ => fun n => decide (f.sa.toNat + (f.x.toNat + 1) ≤ n)
  | .wqry _ => fun n => !queriesPair s f || decide (f.dst.toNat + 1 < n)
  | _ => fun _ => true

/-- The role that a class of instructions asks for. -/
def roleOfClass (cls : Nat) : Option Nat := if cls = 6 then some 1 else if cls = 7 ∨ cls = 8 then some 2 else none

section
variable {s : State} {i : Instr} {op : Nat} {f : CFields}

theorem issues_class0 (form : i.cForm = some (0, op, f)) : IssuesWith (exec i s) i s (staticOf s f i) (roleOfClass 0) := by
  cases i <;> cases form <;> dsimp only [
    exec_vadd, exec_vsub, exec_vmul, exec_vmulhi, exec_vmad, exec_vadds, exec_vsubs, exec_vand, exec_vor, exec_vxor, exec_vnot,
    exec_vshl, exec_vshr, exec_vsar, exec_vmin, exec_vmax, exec_vabs, exec_vneg, exec_vcmp, exec_vsel, exec_vpopc, exec_vclz, exec_vbfe,
    exec_vbfi, exec_vpack, exec_vunpk, execVadd, execVsub, execVmul, execVmulhi, execVmad, execVadds, execVsubs, execVand, execVor,
    execVxor, execVnot, execVshl, execVshr, execVsar, execVmin, execVmax, execVabs, execVneg, execVcmp, execVsel, execVpopc, execVclz,
    execVbfe, execVbfi, execVpack, execVunpk, vbin, vbin32, vun, vcompare, cLanes] <;>
    exact cIssue_with ..

theorem issues_class1 (form : i.cForm = some (1, op, f)) : IssuesWith (exec i s) i s (staticOf s f i) (roleOfClass 1) := by
  cases i <;> cases form <;> dsimp only [
    exec_vfadd, exec_vfsub, exec_vfmul, exec_vfma, exec_vfmin, exec_vfmax, exec_vfabs, exec_vfneg, exec_vfcmp, exec_vfclass, exec_vcvt,
    exec_vqnt, exec_vdqnt, exec_vscalb, execVfadd, execVfsub, execVfmul, execVfma, execVfmin, execVfmax, execVfabs, execVfneg, execVfcmp,
    execVfclass, execVcvt, execVqnt, execVdqnt, execVscalb, vbin, vun, vcompare, cLanes] <;>
    exact cIssue_with ..

theorem issues_class2 (form : i.cForm = some (2, op, f)) : IssuesWith (exec i s) i s (staticOf s f i) (roleOfClass 2) := by
  cases i <;> cases form <;> dsimp only [
    exec_vexp2, exec_vlog2, exec_vrcp, exec_vrsq, exec_vsqrt, exec_vtanh, exec_vsin, exec_vcos, execVexp2, execVlog2, execVrcp, execVrsq,
    execVsqrt, execVtanh, execVsin, execVcos, sfun, vun, cLanes] <;>
    exact cIssue_with ..

theorem issues_class3 (form : i.cForm = some (3, op, f)) : IssuesWith (exec i s) i s (staticOf s f i) (roleOfClass 3) := by
  cases i <;> cases form <;> dsimp only [
    exec_vshuf, exec_vshfl, exec_vvote, exec_vred, exec_vscan, exec_vbcast, exec_settw, exec_vmov, exec_vrand, execVshuf, execVshfl,
    execVvote, execVred, execVscan, execVbcast, execSettw, execVmov, execVrand, shuffle, cLanes] <;>
    exact cIssue_with ..

theorem issues_class4 (form : i.cForm = some (4, op, f)) : IssuesWith (exec i s) i s (staticOf s f i) (roleOfClass 4) := by
  cases i <;> cases form <;> dsimp only [
    exec_vldx, exec_vstx, exec_vstxNotify, exec_vamo, exec_vamoDet, exec_spld, exec_spst, exec_spamo, exec_std, exec_senda, exec_acld,
    exec_acst, execVldx, execVstx, execVstxNotify, execVamo, execVamoDet, execSpld, execSpst, execSpamo, execStd, execSenda, execAcld,
    execAcst, pairSpec] <;>
    exact cIssue_with ..

theorem issues_class5 (form : i.cForm = some (5, op, f)) : IssuesWith (exec i s) i s (staticOf s f i) (roleOfClass 5) := by
  cases i <;> cases form <;> dsimp only [
    exec_cwait, exec_carv, execCwait, execCarv] <;>
    exact cIssue_with ..

theorem issues_class6 (form : i.cForm = some (6, op, f)) : IssuesWith (exec i s) i s (staticOf s f i) (roleOfClass 6) := by
  cases i <;> cases form <;> dsimp only [
    exec_mxloop, exec_mxgrp, exec_mxzero, exec_accvt, execMxloop, execMxgrp, execMxzero, execAccvt] <;>
    exact cIssue_with ..

theorem issues_class8 (form : i.cForm = some (8, op, f)) : IssuesWith (exec i s) i s (staticOf s f i) (roleOfClass 8) := by
  cases i <;> cases form <;> dsimp only [
    exec_xunpk, exec_xdec, exec_xlut, execXunpk, execXdec, execXlut, xIssue] <;>
    exact cIssue_with ..

theorem issues_class9 (form : i.cForm = some (9, op, f)) : IssuesWith (exec i s) i s (staticOf s f i) (roleOfClass 9) := by
  cases i <;> cases form <;> dsimp only [
    exec_vdcls, exec_vlblrd, exec_vlblup, exec_vsys, exec_vbrk, execVdcls, execVlblrd, execVlblup, execVsys, execVbrk] <;>
    exact cIssue_with ..

theorem issues_wqry (f : CFields) (s : State) : IssuesWith (exec (.wqry f) s) (.wqry f) s (staticOf s f (.wqry f)) (some 2) := by
  have static (b : Bool) (h : b = queriesPair s f) : (fun v => !b || decide (f.dst.toNat + 1 < v)) = staticOf s f (.wqry f) := by
    rw [h]
    rfl
  rw [exec_wqry, execWqry]
  refine ⟨_, _, rfl, static _ ?_, rfl⟩
  unfold queriesPair CFields.handle
  cases s.tm.operatorOf (f.ext.toNat % 8) <;> rfl

theorem issues_class7 (form : i.cForm = some (7, op, f)) : IssuesWith (exec i s) i s (staticOf s f i) (roleOfClass 7) := by
  cases i with
  | wqry f' => cases form; exact issues_wqry f s
  | winit f' => cases form; rw [exec_winit, execWinit, windowOnce]; exact cIssue_with ..
  | wpush f' => cases form; rw [exec_wpush, execWpush]; exact cIssue_with ..
  | wsetw f' => cases form; rw [exec_wsetw, execWsetw, windowOnce]; exact cIssue_with ..
  | wfree f' => cases form; rw [exec_wfree, execWfree, windowOnce]; exact cIssue_with ..
  | wstat f' => cases form; rw [exec_wstat, execWstat]; exact cIssue_with ..
  | _ => nomatch form

theorem issues_with {cls : Nat} (form : i.cForm = some (cls, op, f)) : IssuesWith (exec i s) i s (staticOf s f i) (roleOfClass cls) :=
  match cls, form with
  | 0, form => issues_class0 form
  | 1, form => issues_class1 form
  | 2, form => issues_class2 form
  | 3, form => issues_class3 form
  | 4, form => issues_class4 form
  | 5, form => issues_class5 form
  | 6, form => issues_class6 form
  | 7, form => issues_class7 form
  | 8, form => issues_class8 form
  | 9, form => issues_class9 form
  | n + 10, form => by cases i <;> nomatch form

end

/-! ## The stops of an issue, in order (R80) -/

section
variable {s : State} {i : Instr} {cls op : Nat} {f : CFields} {r : CRow} {sp : CSpec} {body : CIn → State → CRes}
  (form : i.cForm = some (cls, op, f)) (row : cRow cls op = some r)
include form row

theorem cIssue_illegal (bad : (r.codesOk f s.grp.nvregs && sp.static s.grp.nvregs) = false) : cIssue i sp body s = .next (s.raiseC { code := 0x01 }) := by
  unfold cIssue
  rw [form]
  dsimp only
  rw [row]
  dsimp only
  rw [bad]
  rfl

variable (named : (r.codesOk f s.grp.nvregs && sp.static s.grp.nvregs) = true)
include named

theorem cIssue_role (other : sp.role.any (· != s.grp.role) = true) : cIssue i sp body s = .next (s.raiseC { code := 0x02 }) := by
  unfold cIssue
  rw [form]
  dsimp only
  rw [row]
  dsimp only
  rw [named, other]
  rfl

variable (mine : sp.role.any (· != s.grp.role) = false)
include mine

theorem cIssue_ticket (taken : (f.tk.toNat != 0 && (quadSet s.path.qmask).any (fun q => (s.grp.quad q).ticket f.tk.toNat != 0)) = true) :
    cIssue i sp body s = .next (s.raiseC { code := 0x19, kcode := f.tk.toNat }) := by
  unfold cIssue
  rw [form]
  dsimp only
  rw [row]
  dsimp only
  rw [named, mine, taken]
  rfl

theorem cIssue_poison (free : (f.tk.toNat != 0 && (quadSet s.path.qmask).any (fun q => (s.grp.quad q).ticket f.tk.toNat != 0)) = false)
    (idle : s.grp.ops = []) (unread : ∀ e ∈ s.tm.pitches, e.2.queue = []) (room : ∀ c, s.pathFull s.cur c = false) {q : Nat} {e : LQEntry}
    (pops : s.grp.popsOf s.path.qmask (r.sources f) = .poison q e) : cIssue i sp body s = s.faultPoison q e := by
  have held (ds : List Dst) : s.grp.held s.path.qmask ds = false := by rw [Group.held, idle]; rfl
  have kept (ds : List Dst) : s.readHeld s.cur ds = false := by
    rw [State.readHeld, List.any_eq_false]
    intro p hp
    rw [unread p hp]
    exact Bool.false_ne_true
  have passes : sp.fc.any (s.pathFull s.cur) = false := by
    cases sp.fc with
    | none => rfl
    | some c => exact room c
  unfold cIssue
  rw [form]
  dsimp only
  rw [row]
  dsimp only
  rw [named, mine, free, held, kept, passes, pops]
  rfl

end

theorem codesOk_iff (r : CRow) (f : CFields) (n : Nat) : r.codesOk f n = true ↔ (∀ c ∈ r.sources f, c < n ∨ 768 ≤ c) ∧
    (r.slotD f ∈ [DSlot.fixedLatency, .vectorOnly, .source] → f.dst.toNat < n ∨ 768 ≤ f.dst.toNat) := by
  unfold CRow.codesOk
  simp only [Bool.and_eq_true, List.all_eq_true, Bool.or_eq_true, decide_eq_true_iff]
  cases r.slotD f <;> simp

/-- The order of the stops, `more` being what the instruction asks beside its slots. -/
theorem issue_stops {s : State} {i : Instr} {cls op : Nat} {f : CFields} {r : CRow} {more : Prop} (form : i.cForm = some (cls, op, f))
    (row : cRow cls op = some r) (static : staticOf s f i s.grp.nvregs = true ↔ more) :
    let named : Prop := (∀ c ∈ r.sources f, c < s.grp.nvregs ∨ 768 ≤ c) ∧
      (r.slotD f ∈ [DSlot.fixedLatency, .vectorOnly, .source] → f.dst.toNat < s.grp.nvregs ∨ 768 ≤ f.dst.toNat) ∧ more
    let free : Prop := f.tk.toNat = 0 ∨ ∀ q ∈ quadSet s.path.qmask, (s.grp.quad q).ticket f.tk.toNat = 0
    let role : Prop := (cls = 6 → s.grp.role = 1) ∧ (cls = 7 ∨ cls = 8 → s.grp.role = 2)
    (¬ named → exec i s = .next (s.raiseC { code := 0x01 })) ∧
    (named → ¬ role → exec i s = .next (s.raiseC { code := 0x02 })) ∧
    (named → role → ¬ free → exec i s = .next (s.raiseC { code := 0x19, kcode := f.tk.toNat })) ∧
    (named → role → free → s.grp.ops = [] → (∀ e ∈ s.tm.pitches, e.2.queue = []) → (∀ c, s.pathFull s.cur c = false) →
      ∀ q e c, s.grp.popsOf s.path.qmask (r.sources f) = .poison q e → e.poison = some c →
        exec i s = .next ((s.setGrp { s.grp with ra := some e.vld }).raiseRec s.cur
          { flt := c, cslice := true, fpos := s.path.pos, fcycle := s.cycle, pq := q, fpath := some s.curPath })) := by
  intro named free role
  obtain ⟨sp, body, runs, static', role'⟩ := issues_with (s := s) form
  have named_iff : (r.codesOk f s.grp.nvregs && sp.static s.grp.nvregs) = true ↔ named := by
    rw [Bool.and_eq_true, codesOk_iff, static', static, and_assoc]
  have role_iff : sp.role.any (· != s.grp.role) = false ↔ role := by
    rw [role']
    unfold roleOfClass
    by_cases six : cls = 6
    · subst six
      rw [if_pos rfl, Option.any_some, bne_eq_false_iff_eq]
      exact ⟨fun h => ⟨fun _ => h.symm, fun h => absurd h (by decide)⟩, fun h => (h.1 rfl).symm⟩
    · rw [if_neg six]
      by_cases wx : cls = 7 ∨ cls = 8
      · rw [if_pos wx, Option.any_some, bne_eq_false_iff_eq]
        exact ⟨fun h => ⟨fun h => absurd h six, fun _ => h.symm⟩, fun h => (h.2 wx).symm⟩
      · rw [if_neg wx]
        exact ⟨fun _ => ⟨fun h => absurd h six, fun h => absurd h wx⟩, fun _ => rfl⟩
  have free_iff : (f.tk.toNat != 0 && (quadSet s.path.qmask).any (fun q => (s.grp.quad q).ticket f.tk.toNat != 0)) = false ↔ free := by
    rw [Bool.and_eq_false_iff, List.any_eq_false]
    simp [free]
  rw [runs]
  refine ⟨fun bad => ?_, fun good bad => ?_, fun good mine bad => ?_, fun good mine unused idle unread room q e c pops cause => ?_⟩
  · exact cIssue_illegal form row (Bool.eq_false_iff.2 fun h => bad (named_iff.1 h))
  · exact cIssue_role form row (named_iff.2 good) (by rw [← Bool.not_eq_false, role_iff]; exact bad)
  · exact cIssue_ticket form row (named_iff.2 good) (role_iff.2 mine) (by rw [← Bool.not_eq_false, free_iff]; exact bad)
  · rw [cIssue_poison form row (named_iff.2 good) (role_iff.2 mine) (free_iff.2 unused) idle unread room pops, State.faultPoison, cause]
    rfl

end Sys2Proof.Machine
end


section
/-! PROOFS. What a path does between its instructions: NOP, the runs it takes and begins, and the writes that land. -/

namespace Sys2Proof.Machine

open Sys2Proof

/-! ## NOP (R78, R267, R324) -/

theorem nop_moves (s : State) : Completes (exec .nop s) (fun t => OnlyGroup s.cur s t ∧ t.grp.cret = s.grp.cret + 1 ∧
    t.grp.paths = s.grp.paths.put s.curPath { s.path with pos := nextPos s.path.pos 1, waitc := 0, pass := false } ∧
    t.grp.sregs = s.grp.sregs ∧ t.grp.ops = s.grp.ops ∧ t.grp.quads = s.grp.quads) := by
  rw [exec_nop, execNop]
  dsimp only [State.setPath]
  rw [State.grp_setGrp, State.setGrp_setGrp]
  obtain ⟨vregs, temps, preds, tilew, fx, eq⟩ := tick_eq
    { { s.grp with paths := s.grp.paths.put s.curPath { s.path with pos := nextPos s.path.pos 1, waitc := 0, pass := false } } with
      cret := s.grp.cret + 1, ageC := 0 } s.path.qmask (if s.grp.active s.path = 0#32 then 0 else 1)
  obtain ⟨t, ht, only, grp⟩ := setGrp_completes s (Group.tick
    { { s.grp with paths := s.grp.paths.put s.curPath { s.path with pos := nextPos s.path.pos 1, waitc := 0, pass := false } } with
      cret := s.grp.cret + 1, ageC := 0 } s.path.qmask (if s.grp.active s.path = 0#32 then 0 else 1))
  refine ⟨t, ht, only, ?_⟩
  rw [grp, eq]
  exact ⟨rfl, rfl, rfl, rfl, rfl⟩

/-! ## TAKE_ENTRY (R119, R190, R265) -/

section
variable {s : State} {k p : Nat} {x : Path} (waits : x.phase = .take) (moves : s.mayIssue k true = true ∧ (s.group k).cstopped = false)
include waits moves

theorem takeEntry_run {pos : Nat} {rl : Label} (path : (s.group k).paths.find p = some x) (head : (s.group k).rqEntry x.qmask = some (.run pos rl)) :
    exec (.takeEntry k p) s = .next ((s.setGroup k ((((s.group k).takeHead x.qmask).mapQuads x.qmask (fun _ q => { q with rl := rl })).setPath p
      { x with pos := pos, phase := .fall })).pmGroup k 0x04 1) := by
  rw [exec_takeEntry, execTakeEntry]
  dsimp only
  rw [path]
  dsimp only
  rw [waits, moves.1, moves.2, head]
  rfl

/-- The group with the marker at the head of RQ taken by the quads of path `p`. -/
def Group.takeMarker (g : Group) (p : Nat) (x : Path) (h : Hint) : Group :=
  { ((g.takeHead x.qmask).mapQuads x.qmask (fun _ q => { q with rl := 0#16 })).setPath p { x with phase := .marker } with hint := some h }

theorem takeEntry_marker {h : Hint} (path : (s.group k).paths.find p = some x) (head : (s.group k).rqEntry x.qmask = some (.marker h)) :
    ∃ u, exec (.takeEntry k p) s = .next u ∧ u.group k = ((s.group k).takeMarker p x h).yieldPoint (s.team (teamOf k)).pending := by
  rw [exec_takeEntry, execTakeEntry]
  dsimp only
  rw [path]
  dsimp only
  rw [waits, moves.1, moves.2, head]
  refine ⟨_, rfl, ?_⟩
  split
  · rw [State.group_pmGroup, State.group_setGroup]
    rfl
  · rw [State.group_setGroup]
    rfl

end

theorem Group.quad_trim (g : Group) (q : Nat) : g.trim.quad q = g.quad q := rfl

theorem Group.quad_takeHead (g : Group) (m q : Nat) : (g.takeHead m).quad q =
    if q < g.quads.length ∧ bitOf m q = true then { g.quad q with rqHead := (g.quad q).rqHead + 1 } else g.quad q := by
  rw [Group.takeHead, Group.quad_trim]
  exact Group.quad_mapQuads ..

theorem Group.length_mapQuads (g : Group) (m : Nat) (f : Nat → Quad → Quad) : (g.mapQuads m f).quads.length = g.quads.length := by
  simp [Group.mapQuads]

/-- The quads of the mask take what is at their head of RQ, under label `rl`. -/
theorem Group.quad_taken (g : Group) (m : Nat) (rl : Label) {q : Nat} (listed : q < g.quads.length) :
    ((g.takeHead m).mapQuads m (fun _ q => { q with rl := rl })).quad q =
      if bitOf m q then { g.quad q with rl := rl, rqHead := (g.quad q).rqHead + 1 } else g.quad q := by
  have length : (g.takeHead m).quads.length = g.quads.length := Group.length_mapQuads g m (fun _ q => { q with rqHead := q.rqHead + 1 })
  rw [Group.quad_mapQuads, Group.quad_takeHead, length]
  by_cases mine : bitOf m q = true
  · rw [if_pos ⟨listed, mine⟩, if_pos ⟨listed, mine⟩, if_pos mine]
  · rw [if_neg (fun h => mine h.2), if_neg (fun h => mine h.2), if_neg mine]

theorem takeMarker_paths {g : Group} {p : Nat} {x : Path} (one : g.paths = [(p, x)]) (h : Hint) :
    (g.takeMarker p x h).paths = [(p, { x with phase := .marker })] := by
  change g.paths.put p _ = _
  rw [one]
  simp [Tab.put]

theorem hint_takeMarker (g : Group) (p : Nat) (x : Path) (h : Hint) : (g.takeMarker p x h).hint = some h := rfl

theorem atYield_takeMarker (g : Group) (p : Nat) (x : Path) (h : Hint) : (g.takeMarker p x h).atYield = g.atYield := by
  dsimp only [Group.takeMarker, Group.setPath, Group.takeHead, Group.trim, Group.mapQuads]

theorem quad_takeMarker (g : Group) (p : Nat) (x : Path) (h : Hint) (q : Nat) :
    (g.takeMarker p x h).quad q = ((g.takeHead x.qmask).mapQuads x.qmask (fun _ q => { q with rl := 0#16 })).quad q := by
  dsimp only [Group.takeMarker, Group.setPath, Group.quad]

theorem quad_atYield (g : Group) (b : Bool) (q : Nat) : ({ g with atYield := b } : Group).quad q = g.quad q := rfl

theorem allAtMarker_takeMarker {g : Group} {p : Nat} {x : Path} (one : g.paths = [(p, x)]) (h : Hint) : (g.takeMarker p x h).allAtMarker = true := by
  rw [Group.allAtMarker, takeMarker_paths one]
  rfl

theorem yieldPoint_pending {g : Group} (all : g.allAtMarker = true) : g.yieldPoint true = { g with atYield := true } := by
  rw [Group.yieldPoint, all]
  rfl

theorem yieldPoint_going {g : Group} (all : g.allAtMarker = true) :
    g.yieldPoint false = { g with paths := g.paths.mapVals (fun _ p => { p with phase := .take }) } := by
  rw [Group.yieldPoint, all]
  rfl

/-! ## RUN_START (R14, R309, R315) -/

theorem drained_of {g : Group} {x : Path} (h : x.nodrain = true ∨ ∀ w ∈ g.fx, w.qmask &&& x.qmask = 0) : g.drained x = true := by
  rw [Group.drained, Bool.or_eq_true, Bool.not_eq_true', List.any_eq_false]
  refine h.imp_right fun landed w hw => ?_
  rw [FxWrite.ofPath, landed w hw]
  decide

theorem runStart_begins {s : State} {k p : Nat} {x : Path} (path : (s.group k).paths.find p = some x) (waits : x.phase = .fall)
    (moves : s.mayIssue k false = true) (running : (s.group k).cstopped = false) (drained : (s.group k).drained x = true) :
    exec (.runStart k p) s = .next ((s.setCurrent k p).setGroup k ({ (s.group k).freshTemps x.qmask with runSeq := (s.group k).runSeq + 1 }.setPath p
      { x with phase := .issuing, icount := 0, waitc := 0, began := (s.group k).runSeq + 1 })) := by
  rw [exec_runStart, execRunStart]
  dsimp only
  rw [path]
  dsimp only
  rw [waits, moves, running, drained]
  rfl

theorem current_setCurrent (s : State) (k p : Nat) {g : Group} (same : g.sched = (s.group k).sched) :
    ((s.setCurrent k p).setGroup k g).current k = some (k, p) := by
  change (((s.setCurrent k p).core (s.team (teamOf k)).core).current.get none (State.group ((s.setCurrent k p).setGroup k g) k).sched) = _
  rw [State.group_setGroup, same, State.setCurrent, State.core_setCore, Tab.get_set_self]

theorem temps_freshTemps (g : Group) (m n : Nat) : (g.freshTemps m).temps.get {} n = if bitOf m (n % 8) then {} else g.temps.get {} n := by
  refine (Tab.get_filter_key {} (fun n => !bitOf m (n % 8)) g.temps n).trans ?_
  cases bitOf m (n % 8) <;> rfl

/-- What is still to land in a run temporary is for other quads. -/
theorem fx_freshTemps {g : Group} {m : Nat} {w : FxWrite} (hw : w ∈ (g.freshTemps m).fx) {c : Nat} (dst : w.dst = .reg c) (temp : 768 ≤ c)
    {q : Nat} (mine : bitOf m q = true) : bitOf w.qmask q = false := by
  obtain ⟨hw, -⟩ := List.mem_filter.1 hw
  obtain ⟨v, -, rfl⟩ := List.mem_map.1 hw
  have isTemp (y : FxWrite) (h : y.dst = .reg c) : (match y.dst with | .reg c => decide (768 ≤ c) | _ => false) = true := by
    rw [h]
    exact decide_eq_true temp
  split at dst
  · next h =>
    rw [if_pos h, bitOf_eq_testBit, testBit_maskOf, mine, Bool.not_true, Bool.and_false, Bool.and_false]
  · next h => exact absurd (isTemp v dst) h

/-! ## Writes of fixed latency (R25, R120, R311) -/

theorem land_reg {g : Group} {w : FxWrite} {n : Nat} (low : n < 768) (dst : w.dst = .reg n) :
    g.land w = g.writeVreg n w.mask w.vals w.full w.lbl := by
  rw [Group.land, dst]
  exact if_pos low

theorem land_pred {g : Group} {w : FxWrite} {n : Nat} (dst : w.dst = .pred n) : g.land w = g.writePred n w.mask (w.vals.getD 0 0#32) w.full w.lbl := by
  rw [Group.land, dst]

theorem writeVreg_one (g : Group) (n : Nat) (mask : Word) (vals : List Word) (full : Bool) (lbl : Label) :
    (∀ j, j ≠ n → (g.writeVreg n mask vals full lbl).vregs.get {} j = g.vregs.get {} j) ∧
    ((g.writeVreg n mask vals full lbl).vregs.get {} n).lbl = (if full then lbl else (g.vregs.get {} n).lbl ||| lbl) ∧
    ∀ l, l < 32 → laneAt ((g.writeVreg n mask vals full lbl).vregs.get {} n).lanes l =
      if mask.getLsbD l then laneAt vals l else laneAt (g.vregs.get {} n).lanes l := by
  refine ⟨fun j hj => Tab.get_set_ne _ _ _ hj, ?_, fun l hl => ?_⟩
  · rw [Group.writeVreg, Tab.get_set_self]
    rfl
  · rw [Group.writeVreg, Tab.get_set_self]
    simp [mergeLanes, laneAt, lanesOf, hl]

theorem writePred_one {g : Group} {n : Nat} (some_ : n ≠ 0) (mask bits : Word) (full : Bool) (lbl : Label) :
    ((g.writePred n mask bits full lbl).pred n).lbl = (if full then lbl else (g.pred n).lbl ||| lbl) ∧
    ∀ l, l < 32 → ((g.writePred n mask bits full lbl).pred n).mask.getLsbD l = if mask.getLsbD l then bits.getLsbD l else (g.pred n).mask.getLsbD l := by
  have reads : (g.writePred n mask bits full lbl).pred n =
      { mask := ((g.pred n).mask &&& ~~~ mask) ||| (bits &&& mask), lbl := writtenLabel full (g.pred n).lbl lbl } := by
    rw [Group.writePred, if_neg some_]
    dsimp only
    rw [Group.pred, if_neg some_]
    exact Tab.get_set_self ..
  rw [reads]
  refine ⟨rfl, fun l hl => ?_⟩
  cases h : mask[l] <;> simp [hl, h]

theorem writePred_other (g : Group) {n j : Nat} (other : j ≠ n) (mask bits : Word) (full : Bool) (lbl : Label) :
    (g.writePred n mask bits full lbl).pred j = g.pred j := by
  unfold Group.writePred
  split
  · rfl
  · unfold Group.pred
    split
    · rfl
    · exact Tab.get_set_ne _ _ _ other

/-- One write of the path that moves, a cycle later. -/
theorem tick_one {g : Group} {w : FxWrite} {m : Nat} (one : g.fx = [w]) (mine : w.qmask &&& m ≠ 0) : g.tick m 1 =
    if w.left ≤ 1 then ({ g with fx := [] } : Group).land { w with left := 0 } else { g with fx := [{ w with left := w.left - 1 }] } := by
  have own (l : Nat) : ({ w with left := l } : FxWrite).ofPath m = true := bne_iff_ne.2 mine
  unfold Group.tick
  rw [one]
  split
  · next due =>
    have zero : w.left - 1 = 0 := by omega
    simp [own, zero]
  · next left =>
    have later : w.left - 1 ≠ 0 := by omega
    simp [own, later]

theorem fixedLatencyWrite_ticks {s : State} {k p : Nat} {x : Path} (path : (s.group k).paths.find p = some x) (stands : x.waitc ≠ 0) :
    exec (.fixedLatencyWrite k p) s = .next (s.setGroup k ((s.group k).tick x.qmask 1)) := by
  rw [exec_fixedLatencyWrite, execFixedLatencyWrite]
  dsimp only
  rw [path]
  dsimp only
  rw [bne_iff_ne.2 stands, Bool.or_true, Bool.true_or, Bool.true_or, Bool.true_or, Bool.true_or, Bool.true_or, if_pos rfl]


/-! ## The claims (O44) -/

theorem find_setPath (g : Group) (p : Nat) (x : Path) : (g.setPath p x).paths.find p = some x := Tab.find_put_self ..

theorem quad_setPath (g : Group) (p : Nat) (x : Path) (q : Nat) : (g.setPath p x).quad q = g.quad q := rfl

section
variable {s : State} {k p : Nat} {x : Path}

theorem takeEntry_takes {pos : Nat} {rl : Label} (path : (s.group k).paths.find p = some x) (waits : x.phase = .take)
    (moves : s.mayIssue k true = true ∧ (s.group k).cstopped = false) (head : (s.group k).rqEntry x.qmask = some (.run pos rl)) :
    Completes (exec (.takeEntry k p) s) (fun t => (∀ j, j ≠ k → t.group j = s.group j) ∧ t.mem = s.mem ∧
      (t.group k).paths.find p = some { x with pos := pos, phase := .fall } ∧
      ∀ q, q < (s.group k).quads.length → (t.group k).quad q =
        if bitOf x.qmask q then { (s.group k).quad q with rl := rl, rqHead := ((s.group k).quad q).rqHead + 1 } else (s.group k).quad q) := by
  rw [takeEntry_run waits moves path head]
  refine ⟨_, rfl, fun j hj => ?_, mem_pmGroup .., ?_, fun q listed => ?_⟩
  · rw [State.group_pmGroup, State.group_setGroup_ne _ _ hj]
  · rw [State.group_pmGroup, State.group_setGroup, find_setPath]
  · rw [State.group_pmGroup, State.group_setGroup, quad_setPath, Group.quad_taken _ x.qmask rl listed]

variable (one : (s.group k).paths = [(p, x)]) (waits : x.phase = .take) (moves : s.mayIssue k true = true ∧ (s.group k).cstopped = false)
  {h : Hint} (head : (s.group k).rqEntry x.qmask = some (.marker h))
include one waits moves head

theorem takeEntry_stands (pending : (s.team (teamOf k)).pending = true) :
    Completes (exec (.takeEntry k p) s) (fun t => (t.group k).atYield = true ∧ (t.group k).hint = some h ∧
      (t.group k).paths = [(p, { x with phase := .marker })] ∧
      ∀ q, q < (s.group k).quads.length → bitOf x.qmask q = true → ((t.group k).quad q).rl = 0#16) := by
  have path : (s.group k).paths.find p = some x := by
    rw [one]
    exact if_pos rfl
  obtain ⟨u, hu, own⟩ := takeEntry_marker waits moves path head
  rw [pending, yieldPoint_pending (allAtMarker_takeMarker one h)] at own
  refine ⟨u, hu, ?_, ?_, ?_, fun q listed mine => ?_⟩ <;> rw [own]
  · dsimp only
    exact hint_takeMarker ..
  · dsimp only
    exact takeMarker_paths one h
  · rw [quad_atYield, quad_takeMarker, Group.quad_taken (s.group k) x.qmask 0#16 listed, if_pos mine]

theorem takeEntry_goes (going : (s.team (teamOf k)).pending = false) :
    Completes (exec (.takeEntry k p) s) (fun t => (t.group k).atYield = (s.group k).atYield ∧ (t.group k).paths = [(p, x)]) := by
  have path : (s.group k).paths.find p = some x := by
    rw [one]
    exact if_pos rfl
  obtain ⟨u, hu, own⟩ := takeEntry_marker waits moves path head
  rw [going, yieldPoint_going (allAtMarker_takeMarker one h)] at own
  refine ⟨u, hu, ?_, ?_⟩ <;> rw [own] <;> dsimp only
  · exact atYield_takeMarker ..
  · rw [takeMarker_paths one h, ← waits]
    rfl

end

theorem runStart_completes {s : State} {k p : Nat} {x : Path} (path : (s.group k).paths.find p = some x) (waits : x.phase = .fall)
    (moves : s.mayIssue k false = true) (running : (s.group k).cstopped = false)
    (landed : x.nodrain = true ∨ ∀ w ∈ (s.group k).fx, w.qmask &&& x.qmask = 0) : Completes (exec (.runStart k p) s) (fun t =>
      (∀ j, j ≠ k → t.group j = s.group j) ∧ t.mem = s.mem ∧ t.teams = s.teams ∧ t.current k = some (k, p) ∧
      (t.group k).paths = (s.group k).paths.put p { x with phase := .issuing, icount := 0, waitc := 0, began := (s.group k).runSeq + 1 } ∧
      (t.group k).runSeq = (s.group k).runSeq + 1 ∧ (t.group k).vregs = (s.group k).vregs ∧ (t.group k).preds = (s.group k).preds ∧
      (∀ n, (t.group k).temps.get {} n = if bitOf x.qmask (n % 8) then {} else (s.group k).temps.get {} n) ∧
      ∀ w ∈ (t.group k).fx, ∀ c, w.dst = .reg c → 768 ≤ c → ∀ q, q < 8 → bitOf x.qmask q = true → bitOf w.qmask q = false) := by
  rw [runStart_begins path waits moves running (drained_of landed)]
  refine ⟨_, rfl, fun j hj => State.group_setGroup_ne _ _ hj, rfl, rfl, current_setCurrent s k p rfl, ?_⟩
  rw [State.group_setGroup]
  exact ⟨rfl, rfl, rfl, rfl, temps_freshTemps (s.group k) x.qmask, fun w hw c dst temp q _ mine => fx_freshTemps hw dst temp mine⟩

/-- How a write of fixed latency lands. -/
theorem runSequence_lands (g : Group) (w : FxWrite) :
    (∀ n, n < 768 → w.dst = .reg n → g.land w = { g with vregs := (g.land w).vregs } ∧
      (∀ j, j ≠ n → (g.land w).vregs.get {} j = g.vregs.get {} j) ∧
      ((g.land w).vregs.get {} n).lbl = (if w.full then w.lbl else (g.vregs.get {} n).lbl ||| w.lbl) ∧
      ∀ l, l < 32 → laneAt ((g.land w).vregs.get {} n).lanes l = if w.mask.getLsbD l then laneAt w.vals l else laneAt (g.vregs.get {} n).lanes l) ∧
    (∀ n, w.dst = .pred n → g.land w = { g with preds := (g.land w).preds } ∧ (n = 0 → g.land w = g) ∧
      (∀ j, j ≠ n → (g.land w).pred j = g.pred j) ∧
      (n ≠ 0 → ((g.land w).pred n).lbl = (if w.full then w.lbl else (g.pred n).lbl ||| w.lbl) ∧
        ∀ l, l < 32 → ((g.land w).pred n).mask.getLsbD l =
          if w.mask.getLsbD l then (w.vals.getD 0 0#32).getLsbD l else (g.pred n).mask.getLsbD l)) ∧
    (w.dst = .tilew → g.land w = { g with tilew := (w.vals.getD 0 0#32).toNat }) := by
  refine ⟨fun n low dst => ?_, fun n dst => ?_, fun dst => ?_⟩
  · rw [land_reg low dst]
    exact ⟨rfl, writeVreg_one ..⟩
  · rw [land_pred dst]
    refine ⟨?_, fun zero => if_pos zero, fun j hj => writePred_other g hj .., fun some_ => writePred_one some_ ..⟩
    unfold Group.writePred
    split <;> rfl
  · rw [Group.land, dst]

/-- A query of a pair writes the register after D as well. -/
theorem wqry_static (s : State) (f : CFields) (n : Nat) : (!queriesPair s f || decide (f.dst.toNat + (1 + 1) ≤ n)) = true ↔
    ((∃ q, s.tm.operatorOf (f.ext.toNat % 8) = some q ∧ 7 ≤ q) → f.dst.toNat + (1 + 1) ≤ n) := by
  have pair : queriesPair s f = true ↔ ∃ q, s.tm.operatorOf (f.ext.toNat % 8) = some q ∧ 7 ≤ q := by
    rw [queriesPair, Option.any_eq_true]
    simp [winPair]
  rw [Bool.or_eq_true, Bool.not_eq_true', decide_eq_true_iff, ← pair, imp_iff_not_or, Bool.not_eq_true]

/-- Settles O44: NOP, the taking and start of a run, the landing of writes, and the order in which an issue stops. -/
theorem runSequence : Obligations.RunSequence := by
  refine ⟨fun s k p x pos rl h => ⟨nop_moves s, takeEntry_takes, fun one waits moves head => takeEntry_stands one waits moves head,
      fun one waits moves head => takeEntry_goes one waits moves head, runStart_completes⟩,
    fun g w s k p x => ?_, fun s i cls op f r form row => ?_⟩
  · obtain ⟨reg, pred, tilew⟩ := runSequence_lands g w
    refine ⟨reg, pred, tilew, fun path one mine stands => ?_⟩
    rw [fixedLatencyWrite_ticks path stands, tick_one one mine]
  · refine issue_stops form row ?_
    cases i <;> cases form <;> simp only [staticOf, decide_eq_true_iff, Nat.lt_iff_add_one_le, add_assoc]
    exact wqry_static s f _

end Sys2Proof.Machine
end


section
/-! PROOFS. A Porter copy to an unaligned place. -/

namespace Sys2Proof.Machine

open Sys2Proof

/-- Eight bytes from offset 0 to offset 1 of the scratchpad: three bytes, a whole word, and one byte more. -/
def unalignedCopy : PortCmd :=
  { opc := 0, sspace := 1, dspace := 1, hnd := 0, notify := false, src := 0, dst := 1, len := 8, ntfy := 0#64, pat := 0#32, st := none, dt := none }

def copyOp : Op := { id := 0, fc := some .po, data := .port unalignedCopy 0 0#16 }

/-- The copy has just been issued; the first byte of the source is 1. -/
def unalignedCopyState : State :=
  (State.reset.setTeam 0 { State.reset.team 0 with state := .resident, sp := [(0, 1#8)] }).setGroup 0
    { State.reset.group 0 with ops := [copyOp] }

/-- Refutes O47: the statement has one step write every byte of the destination. Of the copy in `unalignedCopyState` the first step writes the
whole word alone; the bytes at the edges come with a later one. -/
theorem not_engineCompletion : ¬ Obligations.EngineCompletion := by
  intro h
  obtain ⟨copies, -⟩ := h unalignedCopyState 0 0 copyOp unalignedCopy
    { op := 0, ety := 0, rop := 0, mode := 0, npeer := 0, rank := 0, cid := 0, reddev := 0, src := 0, dst := 0, peers := [], count := 0,
      gbase := 0, glen := 0, segl := 0, chunk := 0, bar := 0 } [] fltIllegal rfl rfl (.inl rfl) rfl (by decide +kernel) (by decide +kernel)
  obtain ⟨u, hu, -, bytes, -⟩ := copies rfl rfl rfl rfl rfl (by decide) rfl rfl rfl (by decide +kernel)
  have left : (nextOf (exec (.porterComplete 0 0) unalignedCopyState)).map (fun u => (u.team 0).sp.get 0#8 1) = some 0#8 := by rfl
  rw [hu] at left
  exact absurd ((Option.some.inj left).symm.trans (bytes 0 (by decide))) (by decide +kernel)

end Sys2Proof.Machine
end


section
/-! PROOFS. A path that awaits its trailer's tickets. -/

namespace Sys2Proof.Machine

open Sys2Proof

/-- A path that has issued a trailer and awaits its tickets; its grid has no code section of the compute stream. -/
def awaitingPath : Path := { pos := 0, qmask := 1, lmask := 0#32, phase := .awaiting, trail := some .nop }

/-- The turn of this path is next, and it has nothing left to await. -/
def awaitingState : State :=
  { (State.reset.setTeam 0 { State.reset.team 0 with state := .resident }).setGroup 0 { State.reset.group 0 with cstopped := false, paths := [(0, awaitingPath)] } with
    agenda := [.cIssue 0 0] }

/-- Refutes O57: the statement has every path that may go on fetch at its position. The path of `awaitingState` goes on with the trailer that
it keeps and reads no code, so it takes no RUN_ENTRY. -/
theorem not_stepRunsDecodedInstruction : ¬ Obligations.StepRunsDecodedInstruction := by
  intro h
  obtain ⟨-, -, -, -, -, stops, -⟩ := h awaitingState awaitingState awaitingState awaitingState 0 0 .nop 0#32 0#32 0#32 0#6 [] [] 0#16 0#16 [] awaitingPath
  have entry := (stops ⟨rfl, .inr rfl⟩ rfl rfl).1 (by decide +kernel)
  have passes : (nextOf (step awaitingState)).map (fun t => (t.group 0).fault.isSome) = some false := by rfl
  rw [entry] at passes
  exact absurd passes (by decide +kernel)

end Sys2Proof.Machine
end


section
/-! PROOFS. What the steps of the address slice keep of memory and its labels. -/

namespace Sys2Proof.Machine

open Sys2Proof

/-- What a VLD's read comes to keeps it. -/
def State.KeepsVld (s : State) : VldEnd → Prop
  | .data t _ => s.Keeps t
  | _ => True

namespace State.Keeps

variable {s t : State}

theorem finishOp (h : s.Keeps t) (k : Nat) (o : Op) (w : Group → Op → Group) : s.Keeps (t.finishOp k o w) := by
  unfold State.finishOp
  dsimp only
  split
  · exact (h.setGroup _ _).settle _
  · exact (h.setGroup _ _).settle _

theorem signalEnd (h : s.Keeps t) (k : Nat) (o : Op) : s.Keeps (t.signalEnd k o) := by
  unfold State.signalEnd
  dsimp only
  split
  · exact (h.setGroup _ _).raiseRec _ _
  · exact ((h.setGroup _ _).pmGroup _ _ _).stepped _ _ _ _

theorem vldEnd (h : s.Keeps t) (k op : Nat) : s.KeepsVld (t.vldEnd k op) := by
  unfold State.vldEnd
  split
  · trivial
  · rename_i o _
    split
    · split
      · trivial
      · split
        · trivial
        · have performed := h.perform k o (fun _ => true)
          split
          · trivial
          · trivial
          · rename_i u accs hu
            rw [hu] at performed
            dsimp only
            split
            · trivial
            · split
              · trivial
              · exact performed
    · trivial

theorem raiseIdle (h : s.Keeps t) (k q : Nat) (vld : DWord) (f : Flt) : s.Keeps (t.raiseIdle k q vld f) :=
  (h.setGroup _ _).raiseRec _ _

theorem raiseQueue (h : s.Keeps t) (k : Nat) (a : SAEntry) (d : SDEntry) (f : Flt) : s.Keeps (t.raiseQueue k a d f) :=
  (h.setGroup _ _).raiseRec _ _

theorem on (h : s.Keeps t) (k : Nat) : s.Keeps (t.on k) := h.same rfl rfl rfl

theorem applyHeld (h : s.Keeps t) (n : Nat) (pick : Held → Bool) : s.Keeps (t.applyHeld n pick) := by
  refine Keeps.same (Keeps.foldl h (fun u x hu => ?_) _) rfl rfl rfl
  split
  · exact (hu.setTeam _ _).heldDone _ _
  · exact hu.heldDone _ _

theorem newGrid (h : s.Keeps t) (r : Launch) (lrec ctx : Nat) : s.Keeps (t.newGrid r lrec ctx) := h.same rfl rfl rfl

theorem earlyRelease (h : s.Keeps t) (gr : Nat) : s.Keeps (t.earlyRelease gr) := by
  unfold State.earlyRelease
  exact Keeps.ite ((h.setGrid _ _).deviceSignal _ _) h

theorem askSlot (h : s.Keeps t) (k : Nat) : s.Keeps (t.askSlot k) := by
  unfold State.askSlot
  exact Keeps.ite (h.forget _ _) (h.askSpans _ _)

theorem postRequest (h : s.Keeps t) (k kind tcode : Nat) (req : List Byte) : s.Keeps (t.postRequest k kind tcode req) :=
  (Keeps.inOrder _ _ _ ((h.deviceWrite _ _ _).deviceWrite _ _ _)).forget _ _

theorem askWeigh (h : s.Keeps t) (k op : Nat) : s.Keeps (t.askWeigh k op) := h.setCore _ _

end State.Keeps

namespace State.KeepsOut

variable {s t : State} {o : Out}

theorem completeWith (h : s.Keeps t) (k id : Nat) (want : Op → Bool) {finish : State → Op → State}
    (hf : ∀ u o, s.Keeps u → s.Keeps (finish u o)) : s.KeepsOut (t.completeWith k id want finish) := by
  unfold State.completeWith
  split
  · exact h
  · rename_i o _
    refine ite h ?_
    have performed := h.perform k o (fun _ => true)
    split
    · exact h
    · exact ite (hf _ _ h) (h.setGroup _ _)
    · rename_i u accs hu
      rw [hu] at performed
      exact ite (hf _ _ performed) (Keeps.setGroup performed _ _)

theorem completeOp (h : s.Keeps t) (k id : Nat) (want : Op → Bool) (w : Group → Op → Group) :
    s.KeepsOut (t.completeOp k id want w) :=
  completeWith h _ _ _ fun _ _ hu => hu.finishOp _ _ _

theorem retry (h : s.Keeps t) (k : Nat) (f : Instr → Option (State → Out)) (hf : ∀ i go, f i = some go → s.KeepsOut (go (t.on k))) :
    s.KeepsOut (t.retry k f) := by
  unfold State.retry
  split
  · exact h
  · refine ite h ?_
    split
    · rename_i go hgo
      exact (hf _ _ hgo).afterIssue _ _ _ _ _
    · exact h

/-! ## Scalar memory and the queues -/

theorem scalarAccess (h : s.Keeps t) (a : Acc) (w : Label) (fc : Option FC) (d : Option SRegNo) : s.KeepsOut (t.scalarAccess a w fc d) := by
  unfold State.scalarAccess
  exact ite (faultA h _) (Keeps.setGrp (h.issueAccs _ _) _)

theorem lds (h : s.Keeps t) (d a : SRegNo) (i : BitVec 14) : s.KeepsOut (execLds d a i t) :=
  whenFree h _ _ (ite (faultA h _) (whenRoom h _ _ (scalarAccess h _ _ _ _)))

theorem sts (h : s.Keeps t) (d a : SRegNo) (i : BitVec 14) : s.KeepsOut (execSts d a i t) :=
  whenFree h _ _ (ite (faultA h _) (whenRoom h _ _ (scalarAccess h _ _ _ _)))

theorem amos (h : s.Keeps t) (i : Instr) (f : Nat) (ty : Ty) (d a b : SRegNo) : s.KeepsOut (Machine.amos i f ty d a b t) :=
  whenFree h _ _ (ite (faultA h _) (whenRoom h _ _ (scalarAccess h _ _ _ _)))

theorem amosComplete (h : s.Keeps t) (k op : Nat) : s.KeepsOut (execAmosComplete k op t) := by
  unfold execAmosComplete
  exact ite (completeWith h _ _ _ fun _ _ hu => hu.signalEnd _ _) (completeOp h _ _ _ _)

theorem storeApply (h : s.Keeps t) (k op i : Nat) : s.KeepsOut (execStoreApply k op i t) := by
  unfold execStoreApply
  split
  · exact h
  · rename_i o _
    refine ite h ?_
    have performed := h.perform k o (· == i)
    split
    · exact h
    · exact h.setGroup _ _
    · rename_i u accs hu
      rw [hu] at performed
      exact Keeps.setGroup performed _ _

theorem vld (h : s.Keeps t) (q : BitVec 2) (a : SRegNo) (i : BitVec 14) : s.KeepsOut (execVld q a i t) :=
  whenFree h _ _ (ite (faultA h _) (ite (waits h _) (((h.setGrp _).issueAccs _ _).setGrp _)))

theorem vldEntryPresent (h : s.Keeps t) (k op : Nat) : s.KeepsOut (execVldEntryPresent k op t) := by
  have ended := h.vldEnd k op
  unfold execVldEntryPresent
  split
  · rename_i u o hu
    rw [hu] at ended
    exact Keeps.settle (Keeps.setGroup (Keeps.pmGroup ended _ _ _) _ _) _
  · exact h

theorem vldFail (h : s.Keeps t) (k op : Nat) : s.KeepsOut (execVldFail k op t) := by
  unfold execVldFail
  split
  · exact (h.setGroup _ _).settle _
  · exact h

theorem vldPoisonIdle (h : s.Keeps t) (k : Nat) : s.KeepsOut (execVldPoisonIdle k t) := by
  unfold execVldPoisonIdle
  dsimp only
  split
  · exact h
  · exact ite h (h.raiseIdle _ _ _ _)

theorem vsta (h : s.Keeps t) (a : SRegNo) (i : BitVec 14) : s.KeepsOut (execVsta a i t) :=
  whenFree h _ _ (ite (faultA h _) (ite (waits h _) (h.setGrp _)))

theorem queueStore (h : s.Keeps t) (k : Nat) (apart : Bool) : s.KeepsOut (t.queueStore k apart) := by
  unfold State.queueStore
  dsimp only
  split
  · split
    · exact h
    · refine ite h ?_
      split
      · exact h.raiseQueue _ _ _ _
      · generalize hr : t.perform k _ _ = r
        have performed : s.KeepsPerformed r := hr ▸ h.perform k _ _
        cases r with
        | blocked => exact h
        | bad f => exact h.raiseQueue _ _ _ _
        | ok u l => exact Keeps.settle (Keeps.setGroup performed _ _) _
  · exact h

theorem detset (h : s.Keeps t) (a b : SRegNo) : s.KeepsOut (execDetset a b t) :=
  whenFree h _ _ (ite (faultA h _) (ite (faultA h _) (ite (faultA h _) (ite (faultA h _) (ite (waits h _) (scalarAccess h _ _ _ _))))))

theorem raiseAccess (h : s.Keeps t) (i : Instr) (a : Acc) (own : Label) : s.KeepsOut (t.raiseAccess i a own) :=
  ite (faultA h _) (ite (faultA h _) (ite (waits h _) ((h.issueAccs _ _).setGrp _)))

theorem glbl (h : s.Keeps t) (sp : GSpace) (a b : SRegNo) : s.KeepsOut (execGlbl sp a b t) := by
  unfold execGlbl
  dsimp only
  refine whenFree h _ _ ?_
  cases sp with
  | global =>
    refine ite (faultA h _) ?_
    split
    · exact faultA h _
    · exact ite (faultA h _) (ite (faultA h _) (ite (faultA h _) (raiseAccess h _ _ _)))
  | scratch => exact ite (faultA h _) (raiseAccess h _ _ _)
  | acc => exact ite (faultA h _) (ite (faultA h _) (raiseAccess h _ _ _))
  | barrier => exact ite (faultA h _) (raiseAccess h _ _ _)

/-! ## Scalar registers and control flow -/

theorem alu2 (h : s.Keeps t) (i : Instr) (f : DWord → DWord → DWord) (d a b : SRegNo) : s.KeepsOut (Machine.alu2 i f d a b t) :=
  whenFree h _ _ (aWrite h _ _ _ _)

theorem aluImm (h : s.Keeps t) (i : Instr) (f : DWord → DWord) (d a : SRegNo) : s.KeepsOut (Machine.aluImm i f d a t) :=
  whenFree h _ _ (aWrite h _ _ _ _)

theorem ldk (h : s.Keeps t) (d : SRegNo) (n : BitVec 12) : s.KeepsOut (execLdk d n t) := by
  unfold execLdk
  refine whenFree h _ _ ?_
  generalize hr : t.readCode _ _ 4 = r
  have read : s.KeepsRead r := hr ▸ h.readCode _ _ _
  cases r with
  | ok u bs l => exact aWrite read _ _ _ _
  | bad f => exact faultA h _
  | wait u => exact waits read _

theorem branch (h : s.Keeps t) (i : Instr) (c : DWord → DWord → Bool) (a b : SRegNo) (off : BitVec 14) :
    s.KeepsOut (Machine.branch i c a b off t) := by
  refine whenFree h _ _ ?_
  split
  · exact faultA h _
  · exact h.setGrp _

theorem loop (h : s.Keeps t) (d : SRegNo) (i : BitVec 20) : s.KeepsOut (execLoop d i t) := by
  refine whenFree h _ _ ?_
  split
  · exact faultA h _
  · exact h.setGrp _

theorem jumpReg (h : s.Keeps t) (i : Instr) (a : SRegNo) : s.KeepsOut (Machine.jumpReg i a t) := by
  refine whenFree h _ _ (ite (faultA h _) ?_)
  split
  · exact faultA h _
  · exact h.setGrp _

theorem ret (h : s.Keeps t) (a : SRegNo) : s.KeepsOut (execRet a t) := jumpReg (Keeps.ite (h.traceA _ _ _) h) _ _

theorem markUser (h : s.Keeps t) (a : SRegNo) : s.KeepsOut (execMarkUser a t) := whenFree h _ _ (aPass (h.traceA _ _ _))

theorem getsr (h : s.Keeps t) (d : SRegNo) (i : BitVec 14) : s.KeepsOut (execGetsr d i t) := by
  refine whenFree h _ _ ?_
  split
  · exact faultA h _
  · exact aWrite h _ _ _ _

theorem setSlip (h : s.Keeps t) (v : Nat) (l : Label) : s.KeepsOut (Machine.setSlip v l t) :=
  ite (faultA h _) (ite (faultA h _) (h.setGrp _))

theorem setsr (h : s.Keeps t) (a : SRegNo) (i : BitVec 14) : s.KeepsOut (execSetsr a i t) :=
  whenFree h _ _ (ite (faultA h _) (setSlip h _ _))

/-! ## Runs, waits and barriers -/

theorem run (h : s.Keeps t) (d : SRegNo) (i : BitVec 20) : s.KeepsOut (execRun d i t) :=
  whenFree h _ _ (ite (faultA h _) (ite (faultA h _) (ite (waits h _) (h.setGrp _))))

theorem popca (h : s.Keeps t) (d : SRegNo) : s.KeepsOut (execPopca d t) := by
  refine whenFree h _ _ ?_
  split
  · exact h.setGrp _
  · exact ite (faultA h _) (waits h _)

theorem popcaDeadlock (h : s.Keeps t) (k : Nat) : s.KeepsOut (execPopcaDeadlock k t) := by
  unfold execPopcaDeadlock
  dsimp only
  split
  · exact ite ((h.on k).raiseA _) h
  · exact h

theorem unpairedDeadlock (h : s.Keeps t) (k : Nat) : s.KeepsOut (execUnpairedDeadlock k t) := ite (h.raiseRec _ _) h

theorem decoupleDeadlockDetect (h : s.Keeps t) (k : Nat) : s.KeepsOut (execDecoupleDeadlockDetect k t) := ite (h.raiseRec _ _) h

theorem pushMarker (h : s.Keeps t) (x : Hint) : s.KeepsOut (t.pushMarker x) := ite ((h.setGrp _).pmGroup _ _ _) (h.setGrp _)

theorem yield (h : s.Keeps t) (a : SRegNo) : s.KeepsOut (execYield a t) := whenFree h _ _ (ite (waits h _) (pushMarker h _))

theorem yieldRec (h : s.Keeps t) (a : SRegNo) : s.KeepsOut (execYieldRec a t) := by
  unfold execYieldRec
  refine whenFree h _ _ (ite (faultA h _) (ite (waits h _) ?_))
  generalize hr : t.readRec _ _ _ = r
  have read : s.KeepsRead r := hr ▸ h.readRec _ _ _
  cases r with
  | bad f => exact faultA h _
  | wait u => exact waits read _
  | ok u bs l =>
    refine ite (faultA h _) ?_
    split
    · exact faultA h _
    · exact pushMarker read _

theorem waitfc (h : s.Keeps t) (c : FC) (n : BitVec 12) : s.KeepsOut (execWaitfc c n t) := ite (aPass h) (waits h _)

theorem fence (h : s.Keeps t) (sc : Scope) (k : FenceKind) : s.KeepsOut (execFence sc k t) :=
  ite ((h.setGrp _).settle _) (waits h _)

theorem barinit (h : s.Keeps t) (a b : SRegNo) : s.KeepsOut (execBarinit a b t) :=
  whenFree h _ _ (ite (faultA h _) (ite (faultA h _) (((h.setTm _).applyHeld _ _).setGrp _)))

theorem bararv (h : s.Keeps t) (d a b : SRegNo) : s.KeepsOut (execBararv d a b t) := by
  refine whenFree h _ _ (ite (faultA h _) (ite (waits h _) ?_))
  dsimp only
  split
  · exact faultA h _
  · exact aWrite (h.setTm _) _ _ _ _

theorem barwait (h : s.Keeps t) (d a : SRegNo) : s.KeepsOut (execBarwait d a t) :=
  whenFree h _ _ (ite (faultA h _) (ite (faultA h _) (ite (waits h _) (ite (faultA h _) ((h.setGrp _).settle _)))))

/-! ## Banks and reservations -/

theorem alloc (h : s.Keeps t) (d a : SRegNo) : s.KeepsOut (execAlloc d a t) :=
  whenFree h _ _ (ite (faultA h _) (ite (faultA h _) (ite (aWrite ((h.setTm _).setCore _ _) _ _ _ _) (waits (h.setCore _ _) _))))

theorem allocDeadlockDetect (h : s.Keeps t) (core : Nat) : s.KeepsOut (execAllocDeadlockDetect core t) := by
  unfold execAllocDeadlockDetect
  dsimp only
  split
  · exact h
  · refine ite h ?_
    split
    · exact h
    · exact (h.on _).raiseA _

theorem free (h : s.Keeps t) (a : SRegNo) : s.KeepsOut (execFree a t) :=
  whenFree h _ _ (ite (faultA h _) (ite (aPass h) (ite (faultA h _) (ite (waits h _) (aPass (h.setTm _))))))

theorem resv (h : s.Keeps t) (d a b : SRegNo) : s.KeepsOut (execResv d a b t) := by
  unfold execResv
  refine whenFree h _ _ (ite (faultA h _) (ite (faultA h _) ?_))
  generalize hr : t.readRec _ _ _ = r
  have read : s.KeepsRead r := hr ▸ h.readRec _ _ _
  cases r with
  | bad f => exact faultA h _
  | wait u => exact waits read _
  | ok u bs l =>
    refine ite (faultA h _) ?_
    split
    · exact faultA h _
    · split
      · exact faultA h _
      · exact aWrite (Keeps.setTm read _) _ _ _ _

theorem unresv (h : s.Keeps t) (a : SRegNo) : s.KeepsOut (execUnresv a t) :=
  whenFree h _ _ (ite (faultA h _) (ite (waits h _) (aPass (h.setTm _))))

/-! ## Signals, LAUNCH, EARLY, TRAP and DCLS -/

theorem signalUpdate (h : s.Keeps t) (i : Instr) (delta : DWord) (a b : SRegNo) : s.KeepsOut (Machine.signalUpdate i delta a b t) := by
  unfold Machine.signalUpdate
  refine whenFree h _ _ (ite (faultA h _) (ite (waits h _) (ite (faultA h _) ?_)))
  split
  · exact faultA h _
  · dsimp only
    generalize hr : (State.issueAccs t _ _).perform _ _ _ = r
    have performed : s.KeepsPerformed r := hr ▸ (h.issueAccs _ _).perform _ _ _
    cases r with
    | blocked => exact waits h _
    | bad f => exact faultA h _
    | ok u l => exact ite (aPass (Keeps.setGrp performed _)) (waits (Keeps.setGrp performed _) _)

theorem sigwait (h : s.Keeps t) (a b : SRegNo) : s.KeepsOut (execSigwait a b t) := by
  unfold execSigwait
  refine whenFree h _ _ (ite (faultA h _) ?_)
  generalize hr : t.readRec _ _ _ = r
  have read : s.KeepsRead r := hr ▸ h.readRec _ _ _
  cases r with
  | bad f => exact faultA h _
  | wait u => exact waits read _
  | ok u bs l => exact ite (faultA h _) (ite (waits read _) (Keeps.settle (Keeps.setGrp read _) _))

theorem launch (h : s.Keeps t) (a : SRegNo) : s.KeepsOut (execLaunch a t) := by
  unfold execLaunch
  refine whenFree h _ _ (ite (faultA h _) (ite (faultA h _) (ite (waits h _) ?_)))
  generalize hr : t.readRec _ _ _ = r
  have read : s.KeepsRead r := hr ▸ h.readRec _ _ _
  cases r with
  | bad f => exact faultA h _
  | wait u => exact waits read _
  | ok u bs l => exact ite (faultA h _) (ite (faultA h _) (aPass (Keeps.newGrid read _ _ _)))

theorem early (h : s.Keeps t) : s.KeepsOut (execEarly t) :=
  ite (faultA h _) (ite (waits h _) ((h.setGrp _).earlyRelease _))

theorem trap (h : s.Keeps t) (d a c : SRegNo) : s.KeepsOut (execTrap d a c t) :=
  whenFree h _ _ (ite (faultA h _) (ite (faultA h _) (ite (faultA h _) (ite (waits h _) (ite (waits h _) (ite (waits (h.askSlot _) _)
    (ite (waits h _) (waits ((h.postRequest _ _ _ _).setGrp _) _))))))))

theorem dcls (h : s.Keeps t) (d a b : SRegNo) : s.KeepsOut (execDcls d a b t) := whenFree h _ _ ((h.askWeigh _ _).setGrp _)

/-! ## Retries -/

theorem waitfcSatisfied (h : s.Keeps t) (k : Nat) : s.KeepsOut (execWaitfcSatisfied k t) := by
  refine retry h k _ fun i go hgo => ?_
  split at hgo
  · cases hgo; exact waitfc (h.on k) _ _
  · cases hgo

theorem fenceComplete (h : s.Keeps t) (k : Nat) : s.KeepsOut (execFenceComplete k t) := by
  refine retry h k _ fun i go hgo => ?_
  split at hgo
  · cases hgo; exact fence (h.on k) _ _
  · cases hgo

theorem barwaitSatisfied (h : s.Keeps t) (k : Nat) : s.KeepsOut (execBarwaitSatisfied k t) := by
  refine retry h k _ fun i go hgo => ?_
  split at hgo
  · cases hgo; exact barwait (h.on k) _ _
  · cases hgo

theorem allocGrant (h : s.Keeps t) (core : Nat) : s.KeepsOut (execAllocGrant core t) := by
  unfold execAllocGrant
  split
  · exact h
  · refine retry h _ _ fun i go hgo => ?_
    split at hgo
    · cases hgo; exact alloc (h.on _) _ _
    · cases hgo

theorem bankFree (h : s.Keeps t) (k : Nat) : s.KeepsOut (execBankFree k t) := by
  refine retry h k _ fun i go hgo => ?_
  split at hgo
  · cases hgo; exact free (h.on k) _
  · cases hgo

theorem resvRelease (h : s.Keeps t) (k : Nat) : s.KeepsOut (execResvRelease k t) := by
  refine retry h k _ fun i go hgo => ?_
  split at hgo
  · cases hgo; exact unresv (h.on k) _
  · cases hgo

theorem sigwaitReread (h : s.Keeps t) (k : Nat) : s.KeepsOut (execSigwaitReread k t) := by
  refine retry h k _ fun i go hgo => ?_
  split at hgo
  · cases hgo; exact sigwait (h.on k) _ _
  · cases hgo

end State.KeepsOut

end Sys2Proof.Machine
end


section
/-! PROOFS. What the issue of compute instructions, lane accesses, barriers and the Porter keep of memory and its labels. -/

namespace Sys2Proof.Machine

open Sys2Proof

/-- What a body of a compute instruction gives keeps it. -/
def State.KeepsRes (s : State) : CRes → Prop
  | .asks t _ => s.Keeps t
  | .done t _ => s.Keeps t
  | _ => True

/-- An arrival that is made or held keeps it. -/
def State.KeepsArrival (s : State) : Arrival → Prop
  | .ok t => s.Keeps t
  | _ => True

/-- A notify arrival that is made, held or sent keeps it. -/
def State.KeepsNotified (s : State) : Notified → Prop
  | .ok t => s.Keeps t
  | _ => True

/-- Reading a Porter command keeps it. -/
def State.KeepsPort (s : State) : PortRead → Prop
  | .ok t _ _ => s.Keeps t
  | .bad _ => True
  | .wait t => s.Keeps t

namespace State.Keeps

variable {s t : State}

theorem setPath (h : s.Keeps t) (p : Path) : s.Keeps (t.setPath p) := h.same rfl rfl rfl

theorem setCurrent (h : s.Keeps t) (k p : Nat) : s.Keeps (t.setCurrent k p) := h.setCore _ _

theorem clearCurrent (h : s.Keeps t) (k : Nat) : s.Keeps (t.clearCurrent k) := h.setCore _ _

theorem fxWrite (h : s.Keeps t) (x : CIn) (lat : Nat) (d : Dst) (vals : List Word) (lbl : Label) :
    s.Keeps (t.fxWrite x lat d vals lbl) := h.setGrp _

theorem issueLanes (h : s.Keeps t) (x : CIn) (o : Op) : s.Keeps (t.issueLanes x o) := by
  unfold State.issueLanes
  exact Keeps.ite ((h.setGrp _).settle _) ((h.setGrp _).issueAccs _ _)

/-! ## Lane accesses -/

theorem finishLanes (h : s.Keeps t) (k : Nat) (o : Op) : s.Keeps (t.finishLanes k o) := (h.setGroup _ _).settle _

theorem arriveAt (h : s.Keeps t) (a : Held) : s.KeepsArrival (t.arriveAt a) := by
  have hold : s.KeepsArrival (if 4096 ≤ t.held.length then .wait else .ok { t with held := t.held ++ [a] }) := by
    split
    · trivial
    · exact h.same rfl rfl rfl
  unfold State.arriveAt
  dsimp only
  split
  · trivial
  · split
    · exact hold
    · split
      · exact h.heldDone _ _
      · exact h.heldDone _ _
      · split
        · split
          · exact (h.setTeam _ _).heldDone _ _
          · trivial
        · exact hold
      · exact hold

theorem notifyRef (h : s.Keeps t) (k : Nat) (o : Op) (ref : DWord) (n : Nat) (l : Label) (err : Bool) :
    s.KeepsNotified (t.notifyRef k o ref n l err) := by
  unfold State.notifyRef
  dsimp only
  split
  · trivial
  · split
    · generalize ha : t.arriveAt _ = a
      have arrived : s.KeepsArrival a := ha ▸ h.arriveAt _
      cases a with
      | wait => trivial
      | rejected => trivial
      | badLabel c => trivial
      | ok u => exact arrived
    · split
      · trivial
      · split
        · trivial
        · split
          · trivial
          · exact (h.newTag _).send _

theorem endLanes (h : s.Keeps t) (k : Nat) (o : Op) : s.Keeps (t.endLanes k o) := by
  unfold State.endLanes
  split
  · split
    · exact Keeps.ite (h.setGroup _ _) (h.finishLanes _ _)
    · generalize hr : t.notifyRef _ _ _ _ _ _ = r
      have notified : s.KeepsNotified r := hr ▸ h.notifyRef _ _ _ _ _ _
      cases r with
      | wait => exact h.setGroup _ _
      | bad f => exact h.finishLanes _ _
      | ok u => exact Keeps.ite (Keeps.setGroup notified _ _) (Keeps.finishLanes notified _ _)
  · exact h.finishLanes _ _

theorem contribute (h : s.Keeps t) (key : Nat × Nat) (la : Nat) (v : Word) (line : Bool) (va : Nat) :
    s.KeepsApplied (t.contribute key la v line va) := by
  unfold State.contribute
  dsimp only
  split
  · trivial
  · split
    · trivial
    · split
      · trivial
      · split
        · exact h.same rfl rfl rfl
        · split
          · trivial
          · split
            · rename_i u hu
              exact (h.writeLine hu).same rfl rfl rfl
            · trivial

theorem contributed {u : State} (h : s.Keeps u) (k i : Nat) (o : Op) (a : Acc) : s.Keeps (t.contributed u k i o a) := by
  unfold State.contributed
  exact Keeps.ite ((h.dupNotify _ _ _ _ _ _).setGroup _ _) (h.setGroup _ _)

theorem carvFlush (h : s.Keeps t) (k n : Nat) : s.Keeps (State.carvFlush k n t) := by
  induction n generalizing t with
  | zero => exact h
  | succ n ih =>
    unfold State.carvFlush
    dsimp only
    split
    · exact h
    · refine Keeps.ite h (ih ?_)
      split
      · exact (h.setGroup _ _).setTeam _ _
      · exact (h.setGroup _ _).raiseRec _ _

/-! ## The Porter -/

theorem engineRec (h : s.Keeps t) (va n : Nat) : s.KeepsRead (t.engineRec va n) := by
  unfold State.engineRec
  split
  · trivial
  · generalize hr : t.readRec _ _ _ = r
    have read : s.KeepsRead r := hr ▸ h.readRec _ _ _
    cases r with
    | bad f => trivial
    | wait u => exact read
    | ok u bs l =>
      dsimp only
      split
      · exact read
      · trivial

theorem portTensors (h : s.Keeps t) (c : PortCmd) (l : Label) : s.KeepsPort (t.portTensors c l) := by
  unfold State.portTensors
  generalize hr : t.engineRec _ _ = r
  have read : s.KeepsRead r := hr ▸ h.engineRec _ _
  cases r with
  | bad f => trivial
  | wait u => exact read
  | ok u bs la =>
    dsimp only
    generalize hr : u.engineRec _ _ = r
    have read : s.KeepsRead r := hr ▸ Keeps.engineRec read _ _
    cases r with
    | bad f => trivial
    | wait v => exact read
    | ok v bs' lb =>
      dsimp only
      split
      · split
        · exact read
        · trivial
      · trivial

theorem portRead (h : s.Keeps t) (va : Nat) : s.KeepsPort (t.portRead va) := by
  unfold State.portRead
  generalize hr : t.engineRec _ _ = r
  have read : s.KeepsRead r := hr ▸ h.engineRec _ _
  cases r with
  | bad f => trivial
  | wait u => exact read
  | ok u bs l =>
    dsimp only
    split
    · trivial
    · split
      · exact Keeps.portTensors read _ _
      · exact read

theorem putOp (h : s.Keeps t) (k : Nat) (o : Op) : s.Keeps (t.putOp k o) := h.setGroup _ _

theorem endEngine (h : s.Keeps t) (k : Nat) (o : Op) : s.Keeps (t.endEngine k o) := (h.putOp _ _).settle _

theorem portEnd (h : s.Keeps t) (k : Nat) (o : Op) (c : PortCmd) (ph : Nat) (l : Label) : s.Keeps (t.portEnd k o c ph l) := by
  unfold State.portEnd
  refine Keeps.ite (h.endEngine _ _) (Keeps.ite (Keeps.ite (h.putOp _ _) (h.endEngine _ _)) ?_)
  generalize hr : t.notifyRef _ _ _ _ _ _ = r
  have notified : s.KeepsNotified r := hr ▸ h.notifyRef _ _ _ _ _ _
  cases r with
  | wait => exact h.putOp _ _
  | bad f => exact h.endEngine _ _
  | ok u => exact Keeps.ite (Keeps.putOp notified _ _) (Keeps.endEngine notified _ _)

theorem performAlone (h : s.Keeps t) (k : Nat) (o : Op) (l : List Nat) : s.Keeps (t.performAlone k o l).1 := by
  induction l generalizing t o with
  | nil => exact h
  | cons i is ih =>
    unfold State.performAlone
    split
    · exact ih h _
    · refine Keeps.iteFst (ih h _) ?_
      generalize hr : t.applyAcc _ _ _ = r
      have applied : s.KeepsApplied r := hr ▸ h.applyAcc _ _ _
      cases r with
      | ok u a => exact ih applied _
      | blocked => exact ih h _
      | bad f => exact ih h _

theorem enginePerform (h : s.Keeps t) {k : Nat} {o o' : Op} {u : State} (hu : t.enginePerform k o = some (u, o')) : s.Keeps u := by
  have performed := h.perform k o (fun i => !(o.accs[i]?).any o.edge)
  unfold State.enginePerform at hu
  split at hu
  · cases hu
  · cases hu
    exact h.performAlone _ _ _
  · rename_i v l hv
    rw [hv] at performed
    cases hu
    exact performed

theorem engineAccs (h : s.Keeps t) (k : Nat) (o : Op) (l : List Acc) : s.Keeps (t.engineAccs k o l).1 :=
  h.foldl (fun _ _ hu => Keeps.ite hu (hu.keepLeaf _ _ _)) _

theorem portPart (h : s.Keeps t) (k : Nat) (o : Op) (c : PortCmd) : s.Keeps (t.portPart k o c) := h.performAlone _ _ _

theorem portStart (h : s.Keeps t) (k : Nat) (o : Op) (c : PortCmd) (l : Label) : s.Keeps (t.portStart k o c l).1 :=
  Keeps.engineAccs (h.foldl (fun _ _ hu => hu.keepLeaf _ _ _) _) k o _

theorem portTurn (h : s.Keeps t) (k : Nat) (o : Op) (c : PortCmd) : s.Keeps (t.portTurn k o c) := by
  unfold State.portTurn
  dsimp only
  split
  · exact (h.portPart _ _ _).portEnd _ _ _ _ _
  · split
    · exact (h.portPart _ _ _).portEnd _ _ _ _ _
    · exact (h.engineAccs _ _ _).putOp _ _

theorem portReads (h : s.Keeps t) (k : Nat) (o : Op) (c : PortCmd) : s.Keeps (t.portReads k o c) := by
  unfold State.portReads
  split
  · exact h
  · rename_i u o' hu
    exact Keeps.ite ((h.enginePerform hu).portTurn _ _ _) ((h.enginePerform hu).putOp _ _)

theorem portWrites (h : s.Keeps t) (k : Nat) (o : Op) (c : PortCmd) (l : Label) : s.Keeps (t.portWrites k o c l) := by
  unfold State.portWrites
  split
  · exact h
  · rename_i u o' hu
    exact Keeps.ite ((h.enginePerform hu).portEnd _ _ _ _ _) ((h.enginePerform hu).putOp _ _)

end State.Keeps

namespace State.KeepsOut

variable {s t : State} {o : Out}

theorem cWait (h : s.Keeps t) (code : Nat) : s.KeepsOut (t.cWait code) := h.setPath _

theorem cDone (h : s.Keeps t) (n cost : Nat) : s.KeepsOut (t.cDone n cost) := (h.setPath _).setGrp _

theorem faultBrk (h : s.Keeps t) (f : Flt) (brk : Bool) : s.KeepsOut (t.faultBrk f brk) := h.raiseRec _ _

/-- A compute instruction keeps it when its body does. -/
theorem cIssue (h : s.Keeps t) (i : Instr) (x : CSpec) {body : CIn → State → CRes} (hb : ∀ c u, s.Keeps u → s.KeepsRes (body c u)) :
    s.KeepsOut (Machine.cIssue i x body t) := by
  unfold Machine.cIssue
  split
  · exact h
  · split
    · exact faultC h _
    · dsimp only
      refine ite (faultC h _) (ite (faultC h _) (ite (faultC h _) (ite (cWait h _) (ite (cWait h _) (ite (cWait h _) ?_)))))
      split
      · exact h.setPath _
      · exact (h.setGrp _).raiseRec _ _
      · split
        · exact faultC h _
        · rename_i u hu
          refine cWait ?_ _
          unfold State.readB at hu
          split at hu
          · cases hu
          · cases hu
          · cases hu
          · generalize hr : t.readCode _ _ _ = r at hu
            have read : s.KeepsRead r := hr ▸ h.readCode _ _ _
            cases r <;> cases hu
            exact read
        · rename_i u b hu
          have read : s.Keeps u := by
            unfold State.readB at hu
            split at hu
            · cases hu; exact h
            · cases hu; exact h
            · cases hu; exact h
            · generalize hr : t.readCode _ _ _ = r at hu
              have read : s.KeepsRead r := hr ▸ h.readCode _ _ _
              cases r <;> cases hu
              exact read
          generalize hr : body _ _ = r
          have acts : s.KeepsRes r := hr ▸ hb _ _ (read.setGrp _)
          cases r with
          | fault e brk => exact faultBrk h _ _
          | wait c => exact cWait h _
          | asks v c => exact cWait acts _
          | done v cost => exact cDone (Keeps.ite (Keeps.pmGroup acts _ _ _) acts) _ _

theorem cLanes (h : s.Keeps t) (i : Instr) (imm : Option Ty) (lat : Nat) (v : CIn → State → Nat → Word) :
    s.KeepsOut (Machine.cLanes i imm lat v t) :=
  cIssue h _ _ fun _ _ hu => hu.fxWrite _ _ _ _ _

/-! ## Lane accesses and queues -/

theorem vldx (h : s.Keeps t) (f : CFields) : s.KeepsOut (execVldx f t) := by
  refine cIssue h _ _ fun x u hu => ?_
  dsimp only
  split
  · trivial
  · exact hu.issueLanes _ _

theorem vstxBody (h : s.Keeps t) (f : CFields) (x : CIn) (data : OpData) (more : Label) : s.KeepsRes (Machine.vstxBody f x t data more) := by
  unfold Machine.vstxBody
  dsimp only
  split
  · trivial
  · exact h.issueLanes _ _

theorem vamoBody (h : s.Keeps t) (f : CFields) (x : CIn) (dsts : List Dst) (det : Bool) : s.KeepsRes (Machine.vamoBody f x t dsts det) := by
  unfold Machine.vamoBody
  dsimp only
  split
  · trivial
  · exact h.issueLanes _ _

theorem spBody (h : s.Keeps t) (f : CFields) (x : CIn) (kind : AccKind) (useB : Bool) (dsts : List Dst) (val : Nat → Nat) :
    s.KeepsRes (Machine.spBody f x t kind useB dsts val) := by
  unfold Machine.spBody
  dsimp only
  split
  · trivial
  · exact (h.issueLanes _ _).pmGroup _ _ _

theorem acBody (h : s.Keeps t) (x : CIn) (kind : AccKind) (dsts : List Dst) (val : Nat → Nat) :
    s.KeepsRes (Machine.acBody x t kind dsts val) := by
  unfold Machine.acBody
  dsimp only
  split
  · trivial
  · split
    · trivial
    · exact h.issueLanes _ _

theorem detContribution (h : s.Keeps t) (k op i : Nat) : s.KeepsOut (execDetContribution k op i t) := by
  unfold execDetContribution
  split
  · exact h
  · split
    · exact h
    · refine ite h ?_
      dsimp only
      split
      · exact h.setGroup _ _
      · generalize hr : t.contribute _ _ _ _ _ = r
        have applied : s.KeepsApplied r := hr ▸ h.contribute _ _ _ _ _
        cases r with
        | blocked => exact h
        | bad f => exact h.setGroup _ _
        | ok u a => exact Keeps.contributed applied _ _ _ _

theorem std (h : s.Keeps t) (f : CFields) : s.KeepsOut (execStd f t) := by
  refine cIssue h _ _ fun x u hu => ?_
  dsimp only
  split
  · trivial
  · exact hu.setGrp _

theorem senda (h : s.Keeps t) (f : CFields) : s.KeepsOut (execSenda f t) := by
  refine cIssue h _ _ fun x u hu => ?_
  dsimp only
  split
  · trivial
  · split
    · exact hu.setGrp _
    · exact hu

/-! ## Barriers of the compute slice -/

theorem cwait (h : s.Keeps t) (f : CFields) : s.KeepsOut (execCwait f t) := by
  refine cIssue h _ _ fun x u hu => ?_
  dsimp only
  split
  · trivial
  · split
    · trivial
    · split
      · split
        · trivial
        · split
          · trivial
          · exact (hu.setGrp _).settle _
      · exact hu.setGrp _

theorem cwaitSatisfied (h : s.Keeps t) (k op : Nat) : s.KeepsOut (execCwaitSatisfied k op t) := by
  unfold execCwaitSatisfied
  split
  · exact h
  · split
    · exact ite h ((h.setGroup _ _).settle _)
    · exact h

theorem carv (h : s.Keeps t) (f : CFields) : s.KeepsOut (execCarv f t) := by
  refine cIssue h _ _ fun x u hu => ?_
  dsimp only
  split
  · trivial
  · split
    · trivial
    · split
      · trivial
      · exact (hu.setGrp _).carvFlush _ _

/-! ## The Porter -/

theorem port (h : s.Keeps t) (a : SRegNo) : s.KeepsOut (execPort a t) := by
  unfold execPort
  refine whenFree h _ _ (ite (faultA h _) ?_)
  generalize hr : t.portRead _ = r
  have read : s.KeepsPort r := hr ▸ h.portRead _
  cases r with
  | bad f => exact faultA h _
  | wait u => exact waits read _
  | ok u c l =>
    dsimp only
    split
    · exact faultA h _
    · exact ite (waits read _) (Keeps.setGrp read _)

theorem porterComplete (h : s.Keeps t) (k op : Nat) : s.KeepsOut (execPorterComplete k op t) := by
  unfold execPorterComplete
  extract_lets ready read
  have reads (o : Op) : s.Keeps (read o) := by
    dsimp only [read]
    split
    · exact ((h.portStart _ _ _ _).putOp _ _).portReads _ _ _
    · exact h.portReads _ _ _
    · exact h
  clear_value read ready
  split
  · exact h
  · rename_i o _
    split
    · refine ite h ?_
      extract_lets u o1
      have read : s.Keeps u := reads o
      clear_value u o1
      split
      · exact read.portWrites _ _ _ _
      · exact read.portEnd _ _ _ _ _
      · exact read
    · exact h

end State.KeepsOut

end Sys2Proof.Machine
end


section
/-! PROOFS. What the vector, matrix and collective steps keep of memory and its labels. -/

namespace Sys2Proof.Machine

open Sys2Proof

/-- Reading a collective command keeps it. -/
def State.KeepsColl (s : State) : CollRead → Prop
  | .ok t _ _ => s.Keeps t
  | .bad _ => True
  | .wait t => s.Keeps t

namespace State.Keeps

variable {s t : State}

/-! ## The matrix array -/

theorem mxDone (h : s.Keeps t) (ids : List (Nat × Nat)) : s.Keeps (t.mxDone ids) := by
  refine Keeps.foldl h (fun u i hu => ?_) _
  dsimp only
  split
  · exact (hu.setGroup _ _).settle _
  · exact hu

theorem enterPitches (h : s.Keeps t) (o : Op) (ps : List Nat) (entry : Nat → MxEntry) : s.Keeps (t.enterPitches o ps entry) := by
  unfold State.enterPitches
  exact Keeps.ite ((h.setGrp _).mxDone _) ((h.setGrp _).setTm _)

/-! ## Collectives -/

theorem collRead (h : s.Keeps t) (va : Nat) : s.KeepsColl (t.collRead va) := by
  unfold State.collRead
  generalize hr : t.engineRec _ _ = r
  have read : s.KeepsRead r := hr ▸ h.engineRec _ _
  cases r with
  | bad f => trivial
  | wait u => exact read
  | ok u bs l =>
    dsimp only
    split
    · trivial
    · generalize hr : u.readRec _ _ _ = r
      have read : s.KeepsRead r := hr ▸ Keeps.readRec read _ _ _
      cases r with
      | bad f => trivial
      | wait v => exact read
      | ok v ps lp =>
        dsimp only
        split
        · trivial
        · split
          · trivial
          · exact read

theorem writeChunk (h : s.Keeps t) (k : Nat) (o : Op) (c : CollCmd) (ps : List Piece) (es : List ChunkEnd) (i : Nat) (l : Label) :
    s.Keeps (t.writeChunk k o c ps es i l) := by
  unfold State.writeChunk
  dsimp only
  split
  · exact h.putOp _ _
  · exact h.putOp _ _

theorem chunkStores (h : s.Keeps t) (k id i : Nat) : s.Keeps (t.chunkStores k id i) := by
  unfold State.chunkStores
  split
  · exact h
  · split
    · dsimp only
      generalize hr : t.performPart _ _ _ _ = r
      have performed : s.KeepsPerformed r := hr ▸ h.performPart _ _ _ _
      cases r with
      | blocked => exact h
      | bad f => exact h.putOp _ _
      | ok u l => exact Keeps.putOp performed _ _
    · exact h

theorem resultIn (h : s.Keeps t) (f : Frame) : s.Keeps (t.resultIn f) := by
  unfold State.resultIn
  dsimp only
  split
  · exact h
  · split
    · exact Keeps.ite h (Keeps.ite (h.putOp _ _) (Keeps.ite (h.writeChunk _ _ _ _ _ _ _) (h.putOp _ _)))
    · exact h

theorem chunkArrive (h : s.Keeps t) (k id : Nat) (e : ChunkEnd) : s.Keeps (t.chunkArrive k id e) := by
  unfold State.chunkArrive
  split
  · exact h
  · dsimp only
    split
    · refine Keeps.ite h ?_
      generalize ha : t.arriveAt _ = a
      have arrived : s.KeepsArrival a := ha ▸ h.arriveAt _
      cases a with
      | wait => exact h
      | rejected => exact h.putOp _ _
      | badLabel b => exact h.putOp _ _
      | ok u => exact Keeps.putOp arrived _ _
    · exact h

theorem chunkArrivals (h : s.Keeps t) (k id : Nat) : s.Keeps (t.chunkArrivals k id) := by
  unfold State.chunkArrivals
  split
  · exact h.foldl (fun _ _ hu => (hu.chunkStores _ _ _).chunkArrive _ _ _) _
  · exact h

theorem reduce (h : s.Keeps t) (r : Reducer) : s.Keeps (t.reduce r) :=
  Keeps.foldl (Keeps.foldl (by exact h.same rfl rfl rfl) (fun _ _ hu => hu.send _) _) (fun _ _ hu => hu.resultIn _) _

theorem contribIn {u : State} {f : Frame} {folded : Bool} (h : s.Keeps t) (hu : t.contribIn f folded = some u) : s.Keeps u := by
  unfold State.contribIn at hu
  obtain ⟨r, -, rfl⟩ := Option.map_eq_some_iff.1 hu
  exact h.reduce _

theorem contribsIn {u : State} {fs : List Frame} (h : s.Keeps t) (hu : t.contribsIn fs = some u) : s.Keeps u := by
  induction fs generalizing t with
  | nil => cases hu; exact h
  | cons f fs ih =>
    unfold State.contribsIn at hu
    split at hu
    · rename_i v hv
      exact ih (h.contribIn hv) hu
    · cases hu

theorem contribBad {u : State} {f : Frame} {folded : Bool} (h : s.Keeps t) (hu : t.contribBad f folded = some u) : s.Keeps u := by
  unfold State.contribBad at hu
  obtain ⟨r, -, rfl⟩ := Option.map_eq_some_iff.1 hu
  exact h.reduce _

theorem collFail (h : s.Keeps t) (k : Nat) (o : Op) (c : CollCmd) (f : Flt) : s.Keeps (t.collFail k o c f) :=
  (h.putOp _ _).chunkArrivals _ _

theorem collStart (h : s.Keeps t) (k : Nat) (o : Op) (c : CollCmd) : s.Keeps (t.collStart k o c).1 := h.engineAccs k o _

theorem collSend {u : State} {k : Nat} {o : Op} {c : CollCmd} (h : s.Keeps t) (hu : t.collSend k o c = some u) : s.Keeps u := by
  unfold State.collSend at hu
  dsimp only at hu
  split at hu
  · cases hu
    exact h.collFail _ _ _ _
  · split at hu
    · exact (h.putOp _ _).contribsIn hu
    · cases hu
      exact (h.putOp _ _).foldl (fun _ _ hu => hu.send _) _

end State.Keeps

namespace State.KeepsOut

variable {s t : State}

/-- Either result keeps it. -/
theorem iteRes {c : Prop} [Decidable c] {a b : CRes} (ha : s.KeepsRes a) (hb : s.KeepsRes b) : s.KeepsRes (if c then a else b) := by
  split
  · exact ha
  · exact hb

/-! ## Vector instructions -/

theorem vcompare (h : s.Keeps t) (i : Instr) (f : CFields) (c : Nat → Nat → Nat → Bool) : s.KeepsOut (Machine.vcompare i f c t) := by
  unfold Machine.vcompare
  dsimp only
  refine cIssue h _ _ fun x u hu => ?_
  exact hu.fxWrite _ _ _ _ _

theorem vsel (h : s.Keeps t) (f : CFields) : s.KeepsOut (execVsel f t) := cIssue h _ _ fun _ _ hu => hu.fxWrite _ _ _ _ _

theorem shuffle (h : s.Keeps t) (i : Instr) (src : Nat → Nat → Word → Nat) : s.KeepsOut (Machine.shuffle i src t) :=
  cIssue h _ _ fun _ _ hu => hu.fxWrite _ _ _ _ _

theorem vbcast (h : s.Keeps t) (f : CFields) : s.KeepsOut (execVbcast f t) := cIssue h _ _ fun _ _ hu => hu.fxWrite _ _ _ _ _

theorem vvote (h : s.Keeps t) (f : CFields) : s.KeepsOut (execVvote f t) := cIssue h _ _ fun _ _ hu => hu.fxWrite _ _ _ _ _

theorem vred (h : s.Keeps t) (f : CFields) : s.KeepsOut (execVred f t) := by
  unfold execVred
  dsimp only
  refine cIssue h _ _ fun x u hu => ?_
  exact hu.fxWrite _ _ _ _ _

theorem vscan (h : s.Keeps t) (f : CFields) : s.KeepsOut (execVscan f t) := by
  unfold execVscan
  dsimp only
  refine cIssue h _ _ fun x u hu => ?_
  exact hu.fxWrite _ _ _ _ _

theorem settw (h : s.Keeps t) (f : CFields) : s.KeepsOut (execSettw f t) := by
  refine cIssue h _ _ fun x u hu => ?_
  dsimp only
  split
  · trivial
  · split
    · trivial
    · exact hu.fxWrite _ _ _ _ _

theorem vrand (h : s.Keeps t) (f : CFields) : s.KeepsOut (execVrand f t) := by
  unfold execVrand
  dsimp only
  refine cIssue h _ _ fun x u hu => ?_
  exact (((hu.fxWrite _ _ _ _ _).fxWrite _ _ _ _ _).fxWrite _ _ _ _ _).fxWrite _ _ _ _ _

/-! ## The matrix array -/

theorem mxEnter (h : s.Keeps t) (a : MxAsk) (x : CIn) (u : State) : s.KeepsRes (a.enter x u t) := by
  unfold MxAsk.enter
  dsimp only
  split
  · trivial
  · split
    · trivial
    · split
      · trivial
      · split
        · trivial
        · exact h.enterPitches _ _ _

theorem mxloop (h : s.Keeps t) (f : CFields) : s.KeepsOut (execMxloop f t) := by
  refine cIssue h _ _ fun x u hu => ?_
  dsimp only
  split
  · trivial
  · split
    · trivial
    · split
      · trivial
      · split
        · trivial
        · split
          · trivial
          · exact mxEnter hu _ _ _

theorem mxgrp (h : s.Keeps t) (f : CFields) : s.KeepsOut (execMxgrp f t) := by
  refine cIssue h _ _ fun x u hu => ?_
  dsimp only
  refine iteRes trivial ?_
  split
  · trivial
  · exact iteRes trivial (iteRes trivial (iteRes trivial (iteRes trivial (iteRes trivial (mxEnter hu _ _ _)))))

theorem mxzero (h : s.Keeps t) (f : CFields) : s.KeepsOut (execMxzero f t) := by
  refine cIssue h _ _ fun x u hu => ?_
  dsimp only
  split
  · trivial
  · split
    · trivial
    · split
      · trivial
      · split
        · trivial
        · exact hu.enterPitches _ _ _

theorem accvt (h : s.Keeps t) (f : CFields) : s.KeepsOut (execAccvt f t) := by
  refine cIssue h _ _ fun x u hu => ?_
  dsimp only
  split
  · trivial
  · refine iteRes trivial ?_
    split
    · trivial
    · refine iteRes trivial (iteRes ?_ (iteRes trivial (iteRes trivial ?_)))
      · exact hu.issueLanes _ _
      · exact (hu.setGrp _).enterPitches _ _ _

theorem pitchEntryStart (h : s.Keeps t) (tn p : Nat) : s.KeepsOut (execPitchEntryStart tn p t) := by
  unfold execPitchEntryStart
  dsimp only
  split
  · exact h
  · exact ite h (h.setTeam _ _)

theorem matrixStep (h : s.Keeps t) (tn p : Nat) : s.KeepsOut (execMatrixStep tn p t) := by
  unfold execMatrixStep
  dsimp only
  split
  · exact h
  · split
    · refine ite h ?_
      split
      · exact ((h.setTeam _ _).raiseOp _ _ _).mxDone _
      · exact (h.setTeam _ _).pmGroup _ _ _
    · exact h

theorem pitchEntryComplete (h : s.Keeps t) (tn p : Nat) : s.KeepsOut (execPitchEntryComplete tn p t) := by
  unfold execPitchEntryComplete
  dsimp only
  split
  · exact h
  · exact ite h ((h.setTeam _ _).mxDone _)

theorem accvtComplete (h : s.Keeps t) (tn p : Nat) : s.KeepsOut (execAccvtComplete tn p t) := by
  unfold execAccvtComplete
  dsimp only
  split
  · exact h
  · split
    · split
      · exact h
      · exact ite h (((h.setTeam _ _).setGroup _ _).settle _)
    · exact h

/-! ## Collectives -/

theorem coll (h : s.Keeps t) (a : SRegNo) : s.KeepsOut (execColl a t) := by
  unfold execColl
  refine whenFree h _ _ (ite (faultA h _) ?_)
  generalize hr : t.collRead _ = r
  have read : s.KeepsColl r := hr ▸ h.collRead _
  cases r with
  | bad f => exact faultA h _
  | wait u => exact waits read _
  | ok u c l =>
    dsimp only
    split
    · exact faultA h _
    · exact ite (waits read _) (Keeps.setGrp read _)

theorem collComplete (h : s.Keeps t) (k op : Nat) : s.KeepsOut (execCollComplete k op t) := by
  unfold execCollComplete
  split
  · exact h
  · rename_i o _
    split
    · refine ite h ?_
      dsimp only
      have made := h.chunkArrivals k op
      generalize t.chunkArrivals k op = u at made
      split
      · split
        · exact ite (made.endEngine _ _) made
        · exact made
      · exact made
    · rename_i c ph _ _ _ _
      refine ite h ?_
      have starts : s.Keeps (if ph = 0 then t.collStart k o c else (t, o)).1 := Keeps.iteFst (h.collStart _ _ _) h
      generalize (if ph = 0 then t.collStart k o c else (t, o)) = x at starts
      dsimp only
      split
      · exact h
      · rename_i u o2 hu
        have performed := starts.enginePerform hu
        refine ite (performed.putOp _ _) ?_
        split
        · rename_i v hv
          exact performed.collSend hv
        · exact performed.putOp _ _
    · exact h

end State.KeepsOut

end Sys2Proof.Machine
end


section
/-! PROOFS. What the firmware's acts and the frames of other devices keep of memory and its labels. -/

namespace Sys2Proof.Machine

open Sys2Proof

namespace State.Keeps

variable {s t : State}

/-! ## Frames -/

theorem refuse (h : s.Keeps t) (f : Frame) (reason : Nat) (lbl : Label) : s.Keeps (t.refuse f reason lbl) := h.send _

theorem writeBytes {u : State} {line : Bool} {la : Nat} {l : List (List Byte)} (h : s.Keeps t)
    (hu : t.writeBytes line la l = some u) : s.Keeps u := by
  induction l generalizing t la with
  | nil => cases hu; exact h
  | cons c cs ih =>
    unfold State.writeBytes at hu
    split at hu
    · rename_i v hv
      exact ih (h.writeLine hv) hu
    · cases hu

theorem homeWrite (h : s.Keeps t) (f : Frame) (la n : Nat) (reply : Frame) : s.Keeps (t.homeWrite f la n reply) :=
  Keeps.ite (h.send _) (h.dupNotify _ _ _ _ _ _)

theorem freeTag (h : s.Keeps t) (tag : Nat) : s.Keeps (t.freeTag tag) := h.same rfl rfl rfl

theorem answered (h : s.Keeps t) (tag : Nat) (r : TagRef) (fail : Option Flt) (upd : Acc → Acc) :
    s.Keeps (t.answered tag r fail upd) := by
  unfold State.answered
  dsimp only
  split
  · exact h.freeTag _
  · exact (h.freeTag _).putOp _ _

theorem dupDone (h : s.Keeps t) (w : DupWait) : s.Keeps (t.dupDone w) := by
  have fewer : s.Keeps { t with dupWaits := t.dupWaits.filter (fun x => x.tag != w.tag) } := h.same rfl rfl rfl
  unfold State.dupDone
  dsimp only
  split
  · exact ((fewer.freeTag _).send _).retryDie
  · exact (fewer.answered _ _ _ _).retryDie

theorem dupHeard (h : s.Keeps t) (w : DupWait) (dev : Nat) : s.Keeps (t.dupHeard w dev) :=
  Keeps.ite (h.dupDone w) (h.same rfl rfl rfl)

/-! ## Shoot-downs and fences -/

theorem shootDone (h : s.Keeps t) (x : Shoot) : s.Keeps (t.shootDone x) := by
  unfold State.shootDone
  split
  · exact h.send _
  · exact h.same rfl rfl rfl

theorem shootAsk (h : s.Keeps t) (x : Shoot) (devs : List Nat) : s.Keeps (t.shootAsk x devs) :=
  h.foldl (fun _ _ hu => hu.send _) _

theorem shoot (h : s.Keeps t) (ctx base npg root : Nat) (parent : Option Nat) : s.Keeps (t.shoot ctx base npg root parent) := by
  have asked (x : Shoot) (devs : List Nat) : s.Keeps ((t.invalidate ctx base npg).shootAsk x devs) :=
    Keeps.shootAsk (by exact h.same rfl rfl rfl) _ _
  exact Keeps.ite ((asked _ _).shootDone _) ((asked _ _).same rfl rfl rfl)

theorem shootPut (h : s.Keeps t) (i : Nat) (x : Shoot) : s.Keeps (t.shootPut i x) :=
  Keeps.ite (Keeps.shootDone (by exact h.same rfl rfl rfl) _) (h.same rfl rfl rfl)

theorem shootHeard (h : s.Keeps t) (i dev n : Nat) : s.Keeps (t.shootHeard i dev n) := by
  unfold State.shootHeard
  split
  · exact h
  · exact h.shootPut _ _

theorem shootFenced (h : s.Keeps t) (i dev : Nat) : s.Keeps (t.shootFenced i dev) := by
  unfold State.shootFenced
  split
  · exact h
  · exact (h.shootAsk _ _).shootPut _ _

theorem failTags (h : s.Keeps t) (dev : Nat) : s.Keeps (t.failTags dev) := h.foldl (fun _ _ hu => hu.answered _ _ _ _) _

theorem fenceLocal (h : s.Keeps t) (dev : Nat) : s.Keeps (t.fenceLocal dev) := by
  have failed : s.Keeps (State.failTags { t with fenced := t.fenced ++ [dev] } dev) := Keeps.failTags (by exact h.same rfl rfl rfl) dev
  exact Keeps.ite h (Keeps.foldl (Keeps.foldl (by exact failed.same rfl rfl rfl) (fun _ _ hu => hu.dupHeard _ _) _)
    (fun _ _ hu => hu.shootFenced _ _) _)

theorem fenceDev (h : s.Keeps t) (ctx dev : Nat) : s.Keeps (t.fenceDev ctx dev) :=
  Keeps.fenceLocal (h.foldl (fun _ _ hu => hu.send _) _) _

end State.Keeps

namespace State.KeepsOut

variable {s t : State}

/-! ## Acts of the firmware -/

theorem ownerRegister (h : s.Keeps t) (ctx slot : Nat) (key : BitVec 4096) : s.KeepsOut (execOwnerRegister ctx slot key t) := by
  unfold execOwnerRegister
  split
  · exact h
  · exact ite h (Keeps.same h rfl rfl rfl)

theorem endorsementInstall (h : s.Keeps t) (r : EndorseRec) : s.KeepsOut (execEndorsementInstall r t) := by
  unfold execEndorsementInstall
  split
  · exact Keeps.same h rfl rfl rfl
  · dsimp only
    exact Keeps.same (Keeps.foldl h (fun _ _ hu => hu.setCore _ _) _) rfl rfl rfl

theorem evidenceRequest (h : s.Keeps t) (nonce : BitVec 512) (ctx : Nat) : s.KeepsOut (execEvidenceRequest nonce ctx t) :=
  withOwn h _ _ (Keeps.same h rfl rfl rfl)

theorem firmwareUpdate (h : s.Keeps t) (w : FwImage) (image : List Byte) : s.KeepsOut (execFirmwareUpdate w image t) := by
  cases w with
  | trusted => exact Keeps.same h rfl rfl rfl
  | untrusted => exact Keeps.same h rfl rfl rfl

theorem debugUnlock (h : s.Keeps t) (ok : Bool) : s.KeepsOut (execDebugUnlock ok t) := ite (Keeps.same h rfl rfl rfl) h

theorem protectedContextCreate (h : s.Keeps t) (ctx root : Nat) : s.KeepsOut (execProtectedContextCreate ctx root t) :=
  ite h (Keeps.same h rfl rfl rfl)

theorem keyRotate (h : s.Keeps t) (ctx : Nat) : s.KeepsOut (execKeyRotate ctx t) := by
  unfold execKeyRotate
  split
  · exact h
  · refine ite (Keeps.same h rfl rfl rfl) (ite ?_ (Keeps.same h rfl rfl rfl))
    have switched (mine : List Frame) (u : State) (hu : s.Keeps u) : s.KeepsOut (.next (mine.foldl State.send u)) :=
      Keeps.foldl hu (fun _ _ hv => hv.send _) _
    exact switched _ _ (h.same rfl rfl rfl)

theorem powerRedivide (h : s.Keeps t) (grants : List Nat) : s.KeepsOut (execPowerRedivide grants t) :=
  ite (Keeps.same h rfl rfl rfl) h

/-! ## Frames of other devices -/

theorem receive {k : State → Out} (h : s.Keeps t) (ty : FrameType) (f : Frame) (hk : s.KeepsOut (k t)) :
    s.KeepsOut (t.receive ty f k) := ite h (ite hk (Keeps.same h rfl rfl rfl))

theorem loadRequest (h : s.Keeps t) (f : Frame) : s.KeepsOut (execLoadRequest f t) :=
  receive h _ _ (ite (Keeps.refuse h _ _ _) (Keeps.send h _))

theorem storeFrame (h : s.Keeps t) (f : Frame) : s.KeepsOut (execStoreFrame f t) := by
  refine receive h _ _ (ite (Keeps.refuse h _ _ _) ?_)
  split
  · exact Keeps.refuse h _ _ _
  · refine ite h ?_
    split
    · exact h
    · rename_i u hu
      exact Keeps.homeWrite (h.writeBytes hu) _ _ _ _

theorem atomicFrame (h : s.Keeps t) (f : Frame) : s.KeepsOut (execAtomicFrame f t) := by
  refine receive h _ _ ?_
  dsimp only
  have dropped (u : State) (hu : s.Keeps u) (a : Frame) : s.KeepsOut (.next (u.send a)) := Keeps.send hu a
  refine ite (dropped _ (by exact h.same rfl rfl rfl) _) (ite (Keeps.refuse h _ _ _) (ite (Keeps.refuse h _ _ _) ?_))
  generalize State.labelOf t f.la f.size = gl
  generalize (if (f.kind == AccKind.contrib) = true then t.contribCheck _ _ _ else labelCheck _ _ _ _ _ _) = check
  cases check with
  | some e => exact Keeps.refuse h _ _ _
  | none =>
    refine ite h ?_
    generalize hr : (if (f.kind == AccKind.contrib) = true then t.contribute _ _ _ _ _ else t.applyGlobal _ _ _ _) = r
    have applied : s.KeepsApplied r := by
      rw [← hr]
      split
      · exact h.contribute _ _ _ _ _
      · exact h.applyGlobal _ _ _ _
    cases r with
    | blocked => exact h
    | bad x => exact Keeps.send h _
    | ok u b => exact ite (Keeps.send applied _) (Keeps.homeWrite applied _ _ _ _)

theorem notifyArrival (h : s.Keeps t) (f : Frame) : s.KeepsOut (execNotifyArrival f t) := by
  refine receive h _ _ ?_
  dsimp only
  split
  · exact Keeps.refuse h _ _ _
  · refine ite (Keeps.refuse h _ _ _) ?_
    generalize ha : t.arriveAt _ = a
    have arrived : s.KeepsArrival a := ha ▸ h.arriveAt _
    cases a with
    | wait => exact h
    | rejected => exact Keeps.refuse h _ _ _
    | badLabel l => exact Keeps.refuse h _ _ _
    | ok u => exact arrived

theorem loadReply (h : s.Keeps t) (f : Frame) : s.KeepsOut (execLoadReply f t) := by
  refine receive h _ _ ?_
  split
  · exact h
  · exact ite (Keeps.ownReply h _ _ _ _) (ite (Keeps.answered h _ _ _ _) (Keeps.answered h _ _ _ _))

theorem acknowledgement (h : s.Keeps t) (f : Frame) : s.KeepsOut (execAcknowledgement f t) := by
  refine receive h _ _ ?_
  split
  · exact h
  · exact Keeps.answered h _ _ _ _

theorem atomicReply (h : s.Keeps t) (f : Frame) : s.KeepsOut (execAtomicReply f t) := by
  refine receive h _ _ ?_
  split
  · exact h
  · exact Keeps.answered h _ _ _ _

theorem rejection (h : s.Keeps t) (f : Frame) : s.KeepsOut (execRejection f t) := by
  refine receive h _ _ ?_
  split
  · exact h
  · exact ite (Keeps.ownReply h _ _ _ _) (Keeps.answered h _ _ _ _)

theorem dupUpdate (h : s.Keeps t) (f : Frame) : s.KeepsOut (execDupUpdate f t) := by
  refine receive h _ _ ?_
  dsimp only
  split
  · exact Keeps.send h _
  · split
    · rename_i u hu
      exact Keeps.send (Keeps.foldl (h.writeBytes hu) (fun _ _ hv => hv.raiseLabel _ _) _) _
    · exact h

theorem dupAcknowledgement (h : s.Keeps t) (f : Frame) : s.KeepsOut (execDupAcknowledgement f t) := by
  refine receive h _ _ ?_
  split
  · exact h
  · exact Keeps.dupHeard h _ _

theorem shootdownRequest (h : s.Keeps t) (ctx base npg : Nat) : s.KeepsOut (execShootdownRequest ctx base npg t) :=
  ite (Keeps.shoot h _ _ _ _ _) h

theorem invalidation (h : s.Keeps t) (f : Frame) : s.KeepsOut (execInvalidation f t) :=
  receive h _ _ (ite (Keeps.shoot h _ _ _ _ _) h)

theorem invalidationAcknowledgement (h : s.Keeps t) (f : Frame) : s.KeepsOut (execInvalidationAcknowledgement f t) := by
  refine receive h _ _ ?_
  split
  · exact h
  · exact Keeps.shootHeard h _ _ _

theorem fenceNotice (h : s.Keeps t) (f : Frame) : s.KeepsOut (execFenceNotice f t) := receive h _ _ (Keeps.fenceLocal h _)

theorem shootdownTimeout (h : s.Keeps t) : s.KeepsOut (execShootdownTimeout t) := by
  unfold execShootdownTimeout
  split
  · exact h
  · exact Keeps.foldl h (fun _ _ hu => hu.fenceDev _ _) _

theorem replyTimeout (h : s.Keeps t) (tag : Nat) : s.KeepsOut (execReplyTimeout tag t) := by
  unfold execReplyTimeout
  split
  · exact h
  · exact ite h (Keeps.fenceDev h _ _)

theorem dupAckTimeout (h : s.Keeps t) (tag : Nat) : s.KeepsOut (execDupAckTimeout tag t) := by
  unfold execDupAckTimeout
  split
  · exact ite h (Keeps.foldl h (fun _ _ hu => hu.fenceDev _ _) _)
  · exact h

theorem fenceClear (h : s.Keeps t) (dev : Nat) : s.KeepsOut (execFenceClear dev t) := Keeps.same h rfl rfl rfl

/-! ## Collectives and compressed lines -/

theorem receiveContribution (h : s.Keeps t) (ty : FrameType) (f : Frame) (folded : Bool) :
    s.KeepsOut (t.receiveContribution ty f folded) := by
  have put (x : Option State) :
      (∀ u, x = some u → s.Keeps u) → s.KeepsOut (match x with | some u => .next u | none => t.idle) := by
    intro hx
    cases x with
    | none => exact h
    | some u => exact hx u rfl
  have counted : s.KeepsOut (.next t.discard) := Keeps.same h rfl rfl rfl
  unfold State.receiveContribution
  refine ite h ?_
  dsimp only
  split
  · exact counted
  · exact ite counted (ite (put _ fun _ hu => h.contribBad hu) (ite counted (put _ fun _ hu => h.contribIn hu)))

theorem resultChunk (h : s.Keeps t) (f : Frame) : s.KeepsOut (execResultChunk f t) := by
  refine receive h _ _ ?_
  dsimp only
  split
  · exact Keeps.chunkArrivals (h.resultIn f) _ _
  · exact h.resultIn f

theorem lineRelocation (h : s.Keeps t) (n : Nat) : s.KeepsOut (execLineRelocation n t) := by
  unfold execLineRelocation
  split
  · exact ite (Keeps.retryDie (Keeps.same h rfl rfl rfl)) h
  · exact h

end State.KeepsOut

end Sys2Proof.Machine
end


section
/-! PROOFS. What trailers, a group's own units, the debug block, the host's aperture, the distributor and the saving of teams keep
of memory and its labels. -/

namespace Sys2Proof.Machine

open Sys2Proof

namespace State.Keeps

variable {s t : State}

theorem writeLines {u : State} {la : Nat} {bs : List Byte} (h : s.Keeps t) (hu : t.writeLines la bs = some u) : s.Keeps u := by
  have fold {β : Type} {f : State → β → Option State} (step : ∀ u v b, s.Keeps u → f u b = some v → s.Keeps v) (l : List β) :
      ∀ a : Option State, (∀ v, a = some v → s.Keeps v) → ∀ v, l.foldl (fun a b => a.bind (fun x => f x b)) a = some v → s.Keeps v := by
    induction l with
    | nil => exact fun a ha v hv => ha v hv
    | cons b bs ih =>
      refine fun a ha => ih _ fun v hv => ?_
      obtain ⟨x, hx, hv⟩ := Option.bind_eq_some_iff.1 hv
      exact step x v b (ha x hx) hv
  refine fold (fun _ _ _ hx hv => hx.writeLine hv) _ _ (fun v hv => ?_) u hu
  cases hv
  exact h

theorem releaseHold (h : s.Keeps t) (core n : Nat) : s.Keeps (t.releaseHold core n) := h.same rfl rfl rfl

theorem placeGroups (h : s.Keeps t) (k : Nat) (slots : List (Nat × Nat)) (f : Nat → Nat × Nat → Group) :
    s.Keeps (t.placeGroups k slots f) := h.same rfl rfl rfl

theorem labelBlock (h : s.Keeps t) (ctx base pages : Nat) (clr : Label) : s.Keeps (t.labelBlock ctx base pages clr) := by
  unfold State.labelBlock
  refine Keeps.ite h (Keeps.foldl h (fun u i hu => ?_) _)
  split
  · exact Keeps.ite (hu.raiseLabel _ _) (hu.deviceRaise _ _ _ _ _)
  · exact hu

theorem startTeam (h : s.Keeps t) (gr core : Nat) : s.Keeps (t.startTeam gr core) := by
  unfold State.startTeam
  extract_lets x r n room block tm s1 s2 s3
  have started : s.Keeps s1 := by
    refine Keeps.setGrid ?_ _ _
    refine Keeps.setTeam ?_ _ _
    exact h.same rfl rfl rfl
  have placed : s.Keeps s2 := started.placeGroups _ _ _
  have labelled : s.Keeps s3 := placed.labelBlock _ _ _ _
  exact labelled.blockWrite _ _ _

theorem writeRecords (h : s.Keeps t) (n : Nat) : s.Keeps (t.writeRecords n) := h.foldl (fun _ _ hu => hu.blockWrite _ _ _) _

theorem writeHeader (h : s.Keeps t) (n : Nat) : s.Keeps (t.writeHeader n) := h.blockWrite _ _ _

theorem saveTeam (h : s.Keeps t) (n : Nat) (hints : Bool) (st : TState) : s.Keeps (t.saveTeam n hints st) := by
  unfold State.saveTeam
  extract_lets rs s1 s2 x y s3 s4 s5
  have left : s.Keeps s1 := h.leaveCore n
  have landed : s.Keeps s2 := left.same rfl rfl rfl
  have kept : s.Keeps s3 := landed.setTeam _ _
  have written : s.Keeps s4 := kept.foldl (fun _ _ hu => hu.blockWrite _ _ _) _
  have stamped : s.Keeps s5 := written.blockWrite _ _ _
  exact stamped.setTeam _ _

theorem failTeam (h : s.Keeps t) (n code : Nat) : s.Keeps (t.failTeam n code) := ((h.setGrid _ _).endTeam _ _).earlyRelease _

theorem dropSets (h : s.Keeps t) (gr : Nat) : s.Keeps (t.dropSets gr) :=
  Keeps.foldl (by exact h.same rfl rfl rfl) (fun _ _ hu => hu.deviceSend _ _ _ _) _

theorem retryPoison (h : s.Keeps t) (k : Nat) : s.Keeps (t.retryPoison k) :=
  h.foldl (fun _ _ hu => (hu.setGroup _ _).issueAccs _ _) _

theorem resumeOn (h : s.Keeps t) (n core : Nat) : s.Keeps (t.resumeOn n core) := by
  unfold State.resumeOn
  extract_lets x room s1 s2 s3
  have resident : s.Keeps s1 := by
    refine Keeps.setTeam ?_ _ _
    exact h.same rfl rfl rfl
  have placed : s.Keeps s2 := resident.placeGroups _ _ _
  have retried : s.Keeps s3 := Keeps.ite (placed.foldl (fun _ _ hu => hu.retryPoison _) _) placed
  exact ((retried.writeHeader _).applyHeld _ _).dropHolds _

end State.Keeps

namespace State.KeepsOut

variable {s t : State}

/-! ## Trailers and the group's own units -/

theorem trailer {act : Path → State → Except Flt State} (h : s.Keeps t) (i : Instr) (aw : BitVec 15)
    (hact : ∀ p u v, s.Keeps u → act p u = .ok v → s.Keeps v) : s.KeepsOut (Machine.trailer i aw act t) := by
  unfold Machine.trailer
  dsimp only
  refine ite (cWait h _) (ite (Keeps.setGrp (h.setPath _) _) (ite h ?_))
  split
  · exact faultC h _
  · rename_i u hu
    exact hact _ _ u ((h.setGrp _).settle _) hu

theorem trlTake (h : s.Keeps t) (aw : BitVec 15) : s.KeepsOut (execTrlTake aw t) := by
  refine trailer h _ _ fun p u v hu hv => ?_
  cases hv
  exact (hu.setGrp _).setPath _

theorem trlFall (h : s.Keeps t) (aw : BitVec 15) : s.KeepsOut (execTrlFall aw t) := by
  refine trailer h _ _ fun p u v hu hv => ?_
  cases hv
  exact hu.setPath _

theorem trlEnd (h : s.Keeps t) (aw : BitVec 15) : s.KeepsOut (execTrlEnd aw t) := by
  refine trailer h _ _ fun p u v hu hv => ?_
  cases hv
  exact (hu.setGrp _).setPath _

theorem skipSplit {u : State} {k : BitVec 3} {n : BitVec 7} {p : Path} (h : s.Keeps t) (hu : Machine.skipSplit k n p t = .ok u) :
    s.Keeps u := by
  unfold Machine.skipSplit at hu
  dsimp only at hu
  split at hu
  · cases hu
  · split at hu
    · cases hu
    · split at hu
      · cases hu
        exact (h.setGrp _).setPath _
      · split at hu
        · cases hu
          exact (h.setGrp _).setPath _
        · cases hu
          exact ((h.setGrp _).setPath _).setGrp _

theorem trlSkip (h : s.Keeps t) (aw : BitVec 15) (p : BitVec 3) (n : BitVec 7) : s.KeepsOut (execTrlSkip aw p n t) :=
  ite (cWait h _) (trailer h _ _ fun _ _ _ hu hv => skipSplit hu hv)

theorem trlRegang (h : s.Keeps t) (aw : BitVec 15) (id : BitVec 10) : s.KeepsOut (execTrlRegang aw id t) := by
  refine trailer h _ _ fun p u v hu hv => ?_
  dsimp only at hv
  split at hv
  · cases hv
  · split at hv
    · cases hv
    · cases hv
      exact ((hu.setGrp _).setPath _).setGrp _

theorem nop (h : s.Keeps t) : s.KeepsOut (execNop t) := Keeps.setGrp (h.setPath _) _

theorem takeEntry (h : s.Keeps t) (k p : Nat) : s.KeepsOut (execTakeEntry k p t) := by
  unfold execTakeEntry
  dsimp only
  split
  · exact h
  · refine ite h ?_
    split
    · exact h
    · exact Keeps.pmGroup (h.setGroup _ _) _ _ _
    · exact Keeps.ite ((h.setGroup _ _).pmGroup _ _ _) (h.setGroup _ _)

theorem runStart (h : s.Keeps t) (k p : Nat) : s.KeepsOut (execRunStart k p t) := by
  unfold execRunStart
  dsimp only
  split
  · exact h
  · exact ite h (Keeps.setGroup (h.setCurrent _ _) _ _)

theorem fixedLatencyWrite (h : s.Keeps t) (k p : Nat) : s.KeepsOut (execFixedLatencyWrite k p t) := by
  unfold execFixedLatencyWrite
  dsimp only
  split
  · exact ite (Keeps.setGroup h _ _) h
  · exact Keeps.setGroup h _ _

theorem quadEnd (h : s.Keeps t) (k q : Nat) : s.KeepsOut (execQuadEnd k q t) := by
  unfold execQuadEnd
  dsimp only
  split
  · exact h
  · refine ite h ?_
    generalize hv : State.carvFlush _ _ _ = v
    have flushed : s.Keeps v := hv ▸ Keeps.carvFlush (Keeps.ite (h.setGroup _ _) ((h.setGroup _ _).pmGroup _ _ _)) _ _
    split
    · exact Keeps.setGroup flushed _ _
    · exact Keeps.raiseRec flushed _ _

theorem groupFinish (h : s.Keeps t) (k : Nat) : s.KeepsOut (execGroupFinish k t) := ite (Keeps.earlyRelease (h.setGroup _ _) _) h

theorem ageCounterAged (h : s.Keeps t) (k : Nat) (c : Bool) : s.KeepsOut (execAgeCounterAged k c t) :=
  ite (ite (Keeps.setGroup h _ _) h) (ite (Keeps.setGroup h _ _) h)

theorem sliceStop (h : s.Keeps t) (k skid : Nat) : s.KeepsOut (execSliceStop k skid t) := by
  unfold execSliceStop
  dsimp only
  split
  · exact h
  · exact ite h (Keeps.setCore (h.setGroup _ _) _ _)

/-! ## The debug block and the host's aperture -/

theorem trcctlWrite (h : s.Keeps t) (core : Nat) (v : DWord) : s.KeepsOut (execTrcctlWrite core v t) :=
  ite (Keeps.setCore h _ _) (ite (Keeps.setCore h _ _) (ite (Keeps.setCore h _ _) (Keeps.setCore h _ _)))

theorem traceLeaseBroken (h : s.Keeps t) (core : Nat) : s.KeepsOut (execTraceLeaseBroken core t) := ite (Keeps.setCore h _ _) h

theorem traceSample (h : s.Keeps t) (core sched : Nat) : s.KeepsOut (execTraceSample core sched t) := by
  unfold execTraceSample
  refine ite h ?_
  split
  · exact h
  · split
    · exact h
    · dsimp only
      split
      · exact Keeps.setCore h _ _
      · exact Keeps.traceWrite (h.setCore _ _) _ _

theorem pmuRotate (h : s.Keeps t) (core : Nat) : s.KeepsOut (execPmuRotate core t) := ite (Keeps.setCore h _ _) h

theorem bkctlHrel (h : s.Keeps t) (core n : Nat) : s.KeepsOut (execBkctlHrel core n t) := ite (Keeps.releaseHold h _ _) h

theorem breakpointMatch (h : s.Keeps t) (k p : Nat) (c : Bool) : s.KeepsOut (execBreakpointMatch k p c t) := by
  unfold execBreakpointMatch
  refine ite ?_ (ite h ?_)
  · split
    · exact h
    · refine ite h ?_
      split
      · exact h
      · exact ite (Keeps.setGroup h _ _) (Keeps.raiseRec h _ _)
  · split
    · exact h
    · exact ite (Keeps.setGroup h _ _) (Keeps.raiseRec h _ _)

theorem dbgstepWrite (h : s.Keeps t) (core : Nat) (v : DWord) : s.KeepsOut (execDbgstepWrite core v t) :=
  ite h (Keeps.same h rfl rfl rfl)

theorem stepStop (h : s.Keeps t) (k : Nat) : s.KeepsOut (execStepStop k t) := by
  unfold execStepStop
  dsimp only
  split
  · exact h
  · exact ite h (ite (Keeps.raiseRec (h.setGroup _ _) _ _) (Keeps.setCore (h.setGroup _ _) _ _))

theorem debugRead (h : s.Keeps t) (k : Nat) (w : DebugTarget) : s.KeepsOut (execDebugRead k w t) := by
  unfold execDebugRead
  refine ite h ?_
  cases w with
  | vreg n => exact ite (Keeps.same h rfl rfl rfl) h
  | accWord off => exact ite (Keeps.same h rfl rfl rfl) h

theorem registerWrite (h : s.Keeps t) (core off : Nat) (v : DWord) : s.KeepsOut (execRegisterWrite core off v t) := by
  have put (c : Core) : s.KeepsOut (.next (t.setCore core c)) := Keeps.setCore h _ _
  unfold execRegisterWrite
  refine ite (put _) (ite (put _) (ite (put _) (ite h (ite ?_ (ite (put _) (ite (put _) (ite (put _) h)))))))
  exact Keeps.ite (Keeps.releaseHold (h.setCore _ _) _ _) (h.setCore _ _)

theorem hostBar2Read (h : s.Keeps t) (a n : Nat) : s.KeepsOut (execHostBar2Read a n t) := ite h (Keeps.same h rfl rfl rfl)

theorem hostBar2Write (h : s.Keeps t) (a : Nat) (bytes : List Byte) : s.KeepsOut (execHostBar2Write a bytes t) := by
  unfold execHostBar2Write
  refine ite h ?_
  split
  · exact h
  · rename_i u hu
    exact h.writeLines hu

/-! ## The distributor -/

theorem gridAdmit (h : s.Keeps t) (gr : Nat) : s.KeepsOut (execGridAdmit gr t) := by
  unfold execGridAdmit
  refine ite h (withOwn h _ _ ?_)
  extract_lets y u
  have counted : s.Keeps u := h.same rfl rfl rfl
  exact ite (Keeps.setGrid counted _ _) (Keeps.earlyRelease (counted.setGrid _ _) _)

theorem teamPlace (h : s.Keeps t) (gr : Nat) : s.KeepsOut (execTeamPlace gr t) := by
  unfold execTeamPlace
  refine ite h ?_
  split
  · exact h
  · exact Keeps.dropHolds (h.foldl (fun _ _ hu => hu.startTeam _ _) _) _

theorem preemptMark (h : s.Keeps t) (gr : Nat) : s.KeepsOut (execPreemptMark gr t) := by
  unfold execPreemptMark
  split
  · exact h
  · split
    · exact h
    · exact Keeps.same h rfl rfl rfl

theorem savedTeamAged (h : s.Keeps t) (n : Nat) : s.KeepsOut (execSavedTeamAged n t) := ite (Keeps.setTeam h _ _) h

theorem resumedResidency10ms (h : s.Keeps t) (n : Nat) : s.KeepsOut (execResumedResidency10ms n t) := ite (Keeps.setTeam h _ _) h

/-! ## Saving, resuming and ending -/

theorem withImage {k : State → Out} (h : s.Keeps t) (n : Nat) (hk : s.KeepsOut (k t)) {o : Out} (ho : t.withImage n k = o) :
    s.KeepsOut o := by
  subst ho
  unfold State.withImage
  extract_lets x
  generalize t.blockAddr n + 0x10000 = a
  exact withOwn h _ _ hk

theorem teamFaultSave (h : s.Keeps t) (n : Nat) : s.KeepsOut (execTeamFaultSave n t) := by
  have saved := ((h.writeRecords n).saveTeam n false .faulted).writeHeader n
  unfold execTeamFaultSave
  extract_lets x gr
  refine ite h (ite ?_ ?_)
  · refine Keeps.earlyRelease ?_ _
    refine Keeps.endTeam ?_ _ _
    refine Keeps.setGrid ?_ _ _
    exact Keeps.ite ((h.writeRecords _).writeHeader _) h
  · generalize ho : t.withImage n _ = o
    refine withImage h n ?_ ho
    refine ite ?_ ?_
    · exact Keeps.failTeam saved _ _
    · exact Keeps.inOrder _ _ _ saved

theorem dispPoll (h : s.Keeps t) (n : Nat) : s.KeepsOut (execDispPoll n t) := by
  unfold execDispPoll
  extract_lets x
  refine ite h ?_
  refine withOwn h _ _ ?_
  split
  · exact Keeps.failTeam h _ _
  · exact Keeps.writeHeader (h.setTeam _ _) _
  · exact Keeps.earlyRelease (h.endGrid _ _) _
  · exact h

theorem teamRetire (h : s.Keeps t) (n : Nat) : s.KeepsOut (execTeamRetire n t) := ite (Keeps.endTeam h _ _) h

theorem gridRetire (h : s.Keeps t) (gr : Nat) : s.KeepsOut (execGridRetire gr t) :=
  ite h (Keeps.dropHolds (((Keeps.inOrder _ _ _ (h.earlyRelease _)).dropSets _).setGrid _ _) _)

theorem teamSaveYield (h : s.Keeps t) (n : Nat) : s.KeepsOut (execTeamSaveYield n t) := by
  unfold execTeamSaveYield
  extract_lets x
  generalize ho : t.withImage n _ = o
  refine ite (withImage h n ?_ ho) h
  exact Keeps.writeHeader (h.saveTeam _ _ _) _

theorem preemptDeadline (h : s.Keeps t) (n : Nat) : s.KeepsOut (execPreemptDeadline n t) := by
  unfold execPreemptDeadline
  extract_lets x
  generalize ho : t.withImage n _ = o
  refine ite h (ite (withImage h n ?_ ho) (Keeps.same h rfl rfl rfl))
  exact Keeps.writeHeader (h.saveTeam _ _ _) _

theorem teamResume (h : s.Keeps t) (n : Nat) : s.KeepsOut (execTeamResume n t) := by
  unfold execTeamResume
  refine ite h ?_
  split
  · generalize ho : t.withImage n _ = o
    refine withImage h n ?_ ho
    exact ite (Keeps.resumeOn h _ _) (Keeps.failTeam h _ _)
  · exact h

end State.KeepsOut

end Sys2Proof.Machine
end


section
/-! PROOFS. What system calls, the Weighhouse, the transform pipe and the window unit keep of memory and its labels. -/

namespace Sys2Proof.Machine

open Sys2Proof

namespace State.Keeps

variable {s t : State}

theorem freeSlot (h : s.Keeps t) (k : Nat) : s.Keeps (t.freeSlot k) := h.deviceWrite _ _ _

/-- A declassification changes the table of its core alone. -/
theorem weigh (h : s.Keeps t) (k : Nat) (l x lx kl : Label) : s.Keeps (t.weigh k l x lx kl).2.2 := h.setCore _ _

theorem issueWindow (h : s.Keeps t) (x : CIn) (n : Nat) (dsts : List Dst) (kind : WinKind) :
    s.Keeps (t.issueWindow x n dsts kind) := (h.setGrp _).setTm _

end State.Keeps

namespace State.KeepsOut

variable {s t : State}

/-! ## System instructions -/

theorem vlblrd (h : s.Keeps t) (f : CFields) : s.KeepsOut (execVlblrd f t) := cIssue h _ _ fun _ _ hu => hu.fxWrite _ _ _ _ _

theorem vlblup (h : s.Keeps t) (f : CFields) : s.KeepsOut (execVlblup f t) := cIssue h _ _ fun _ _ hu => hu.fxWrite _ _ _ _ _

theorem vdcls (h : s.Keeps t) (f : CFields) : s.KeepsOut (execVdcls f t) := by
  unfold execVdcls
  dsimp only
  refine cIssue h _ _ fun x u hu => ?_
  exact Keeps.issueLanes (Keeps.ite hu (hu.askWeigh _ _)) _ _

theorem weighhouseAnswer (h : s.Keeps t) (k op : Nat) : s.KeepsOut (execWeighhouseAnswer k op t) := by
  unfold execWeighhouseAnswer
  extract_lets n c u g
  have taken : s.Keeps u := h.setCore _ _
  split
  · exact h
  · refine ite h ?_
    have answered (r : Bool × Label × State) (x : Group) (hr : s.Keeps r.2.2) : s.Keeps ((r.2.2.setGroup k x).settle k) :=
      (hr.setGroup _ _).settle _
    split
    · exact answered _ _ (taken.weigh _ _ _ _ _)
    · exact answered _ _ (taken.weigh _ _ _ _ _)
    · exact h

theorem vsys (h : s.Keeps t) (f : CFields) : s.KeepsOut (execVsys f t) := by
  unfold execVsys
  dsimp only
  refine cIssue h _ _ fun x u hu => ?_
  refine iteRes trivial (iteRes (hu.issueLanes _ _) (iteRes trivial (iteRes trivial (iteRes (h.askSlot _) (iteRes trivial ?_)))))
  exact (hu.issueLanes _ _).postRequest _ _ _ _

theorem syscallSlotPoll (h : s.Keeps t) (k : Nat) : s.KeepsOut (execSyscallSlotPoll k t) := by
  have freed (g : Group) : s.Keeps (((t.setGroup k g).freeSlot k).settle k) := ((h.setGroup _ _).freeSlot _).settle _
  unfold execSyscallSlotPoll
  extract_lets g
  split
  · exact h
  · rename_i x hx
    refine ite h ?_
    refine withOwn h _ _ ?_
    refine ite h ?_
    generalize t.slotAddr k + 0x300 = a
    refine withOwn h _ _ ?_
    refine ite (freed _) (ite h ?_)
    exact afterIssue (o := .next _) (freed _) _ _ _ _ _

theorem vbrk (h : s.Keeps t) (f : CFields) : s.KeepsOut (execVbrk f t) := cIssue h _ _ fun _ _ hu => iteRes hu trivial

/-! ## The transform pipe -/

theorem xIssue (h : s.Keeps t) (i : Instr) (f : CFields) (size : Option Nat) : s.KeepsOut (Machine.xIssue i f size t) :=
  cIssue h _ _ fun _ _ hu => iteRes trivial (hu.issueLanes _ _)

theorem transformReply (h : s.Keeps t) (k op : Nat) : s.KeepsOut (execTransformReply k op t) := by
  unfold execTransformReply
  dsimp only
  split
  · exact h
  · split
    · refine ite h ?_
      split
      · exact Keeps.settle (h.setGroup _ _) _
      · exact Keeps.settle (h.setGroup _ _) _
    · exact h

/-! ## Windows -/

theorem windowOnce (h : s.Keeps t) (i : Instr) (f : CFields) (kind : CIn → Except Flt WinKind) :
    s.KeepsOut (Machine.windowOnce i f kind t) := by
  refine cIssue h _ _ fun x u hu => iteRes trivial ?_
  split
  · trivial
  · exact hu.issueWindow _ _ _ _

theorem wpush (h : s.Keeps t) (f : CFields) : s.KeepsOut (execWpush f t) := cIssue h _ _ fun _ _ hu => hu.issueWindow _ _ _ _

theorem wqry (h : s.Keeps t) (f : CFields) : s.KeepsOut (execWqry f t) := by
  unfold execWqry
  dsimp only
  refine cIssue h _ _ fun x u hu => ?_
  exact hu.issueWindow _ _ _ _

theorem wstat (h : s.Keeps t) (f : CFields) : s.KeepsOut (execWstat f t) := cIssue h _ _ fun _ _ hu => hu.issueWindow _ _ _ _

theorem windowOpPerform (h : s.Keeps t) (tn : Nat) : s.KeepsOut (execWindowOpPerform tn t) := by
  unfold execWindowOpPerform
  extract_lets x
  split
  · exact h
  · extract_lets g y r
    split
    · exact h
    · split
      · exact h
      · clear_value r
        cases r with
        | bad f => exact Keeps.settle ((h.setTeam _ _).setGroup _ _) _
        | ok z g1 cost => exact Keeps.settle (((h.setTeam _ _).setGroup _ _).pmGroup _ _ _) _

end State.KeepsOut

end Sys2Proof.Machine
end


section
/-! PROOFS. What every instruction of the table keeps of memory and its labels, the reset of the device and the allocation of
frames apart. -/

namespace Sys2Proof.Machine

open Sys2Proof

namespace State.KeepsOut

variable {s t : State}

/-! ## The shapes that vector instructions share -/

theorem vbin (h : s.Keeps t) (i : Instr) (f : CFields) (lat : Nat) (g : Word → Word → Word) : s.KeepsOut (Machine.vbin i f lat g t) :=
  cLanes h _ _ _ _

theorem vbin32 (h : s.Keeps t) (i : Instr) (g : Word → Word → Word) : s.KeepsOut (Machine.vbin32 i g t) := cLanes h _ _ _ _

theorem vun (h : s.Keeps t) (i : Instr) (lat : Nat) (g : Word → Word) : s.KeepsOut (Machine.vun i lat g t) := cLanes h _ _ _ _

theorem sfun (h : s.Keeps t) (i : Instr) (f : CFields) (lat : Nat) (g : SFun) : s.KeepsOut (Machine.sfun i f lat g t) := vun h _ _ _

/-! ## The rows of the opcode table -/

/-- Every word of the address stream. -/
theorem exec_address {i : Instr} (h : s.Keeps t) (ha : i.aForm.isSome = true) : s.KeepsOut (Machine.exec i t) := by
  cases i with
  | add _ _ _ =>
    rw [exec_add, execAdd]
    exact alu2 h _ _ _ _ _
  | sub _ _ _ =>
    rw [exec_sub, execSub]
    exact alu2 h _ _ _ _ _
  | mul _ _ _ =>
    rw [exec_mul, execMul]
    exact alu2 h _ _ _ _ _
  | mulhi _ _ _ =>
    rw [exec_mulhi, execMulhi]
    exact alu2 h _ _ _ _ _
  | divs _ _ _ =>
    rw [exec_divs, execDivs]
    exact alu2 h _ _ _ _ _
  | divz _ _ _ =>
    rw [exec_divz, execDivz]
    exact alu2 h _ _ _ _ _
  | rems _ _ _ =>
    rw [exec_rems, execRems]
    exact alu2 h _ _ _ _ _
  | remz _ _ _ =>
    rw [exec_remz, execRemz]
    exact alu2 h _ _ _ _ _
  | and _ _ _ =>
    rw [exec_and, execAnd]
    exact alu2 h _ _ _ _ _
  | or _ _ _ =>
    rw [exec_or, execOr]
    exact alu2 h _ _ _ _ _
  | xor _ _ _ =>
    rw [exec_xor, execXor]
    exact alu2 h _ _ _ _ _
  | shl _ _ _ =>
    rw [exec_shl, execShl]
    exact alu2 h _ _ _ _ _
  | shr _ _ _ =>
    rw [exec_shr, execShr]
    exact alu2 h _ _ _ _ _
  | sar _ _ _ =>
    rw [exec_sar, execSar]
    exact alu2 h _ _ _ _ _
  | min _ _ _ =>
    rw [exec_min, execMin]
    exact alu2 h _ _ _ _ _
  | max _ _ _ =>
    rw [exec_max, execMax]
    exact alu2 h _ _ _ _ _
  | minz _ _ _ =>
    rw [exec_minz, execMinz]
    exact alu2 h _ _ _ _ _
  | maxz _ _ _ =>
    rw [exec_maxz, execMaxz]
    exact alu2 h _ _ _ _ _
  | slt _ _ _ =>
    rw [exec_slt, execSlt]
    exact alu2 h _ _ _ _ _
  | sltz _ _ _ =>
    rw [exec_sltz, execSltz]
    exact alu2 h _ _ _ _ _
  | seq _ _ _ =>
    rw [exec_seq, execSeq]
    exact alu2 h _ _ _ _ _
  | sel _ _ _ _ =>
    rw [exec_sel, execSel]
    exact whenFree h _ _ (aWrite h _ _ _ _)
  | addi _ _ _ =>
    rw [exec_addi, execAddi]
    exact aluImm h _ _ _ _
  | andi _ _ _ =>
    rw [exec_andi, execAndi]
    exact aluImm h _ _ _ _
  | ori _ _ _ =>
    rw [exec_ori, execOri]
    exact aluImm h _ _ _ _
  | xori _ _ _ =>
    rw [exec_xori, execXori]
    exact aluImm h _ _ _ _
  | shli _ _ _ =>
    rw [exec_shli, execShli]
    exact aluImm h _ _ _ _
  | shri _ _ _ =>
    rw [exec_shri, execShri]
    exact aluImm h _ _ _ _
  | sari _ _ _ =>
    rw [exec_sari, execSari]
    exact aluImm h _ _ _ _
  | lih _ _ =>
    rw [exec_lih, execLih]
    exact whenFree h _ _ (aWrite h _ _ _ _)
  | li32 _ _ =>
    rw [exec_li32, execLi32]
    exact whenFree h _ _ (aWrite h _ _ _ _)
  | addpc _ _ =>
    rw [exec_addpc, execAddpc]
    exact whenFree h _ _ (aWrite h _ _ _ _)
  | ldk _ _ => exact ldk h _ _
  | jmp _ =>
    rw [exec_jmp, execJmp]
    exact Keeps.setGrp h _
  | call _ _ =>
    rw [exec_call, execCall]
    exact whenFree h _ _ (Keeps.setGrp h _)
  | loop _ _ => exact loop h _ _
  | beq _ _ _ =>
    rw [exec_beq, execBeq]
    exact branch h _ _ _ _ _
  | bne _ _ _ =>
    rw [exec_bne, execBne]
    exact branch h _ _ _ _ _
  | blt _ _ _ =>
    rw [exec_blt, execBlt]
    exact branch h _ _ _ _ _
  | bge _ _ _ =>
    rw [exec_bge, execBge]
    exact branch h _ _ _ _ _
  | blo _ _ _ =>
    rw [exec_blo, execBlo]
    exact branch h _ _ _ _ _
  | bhs _ _ _ =>
    rw [exec_bhs, execBhs]
    exact branch h _ _ _ _ _
  | jr _ =>
    rw [exec_jr, execJr]
    exact jumpReg h _ _
  | ret _ => exact ret h _
  | halt =>
    rw [exec_halt, execHalt]
    exact Keeps.setGrp h _
  | trap _ _ _ => exact trap h _ _ _
  | yield _ => exact yield h _
  | lblrd _ _ =>
    rw [exec_lblrd, execLblrd]
    exact whenFree h _ _ (aWrite h _ _ _ _)
  | lblup _ _ _ =>
    rw [exec_lblup, execLblup]
    exact whenFree h _ _ (aWrite h _ _ _ _)
  | glbl _ _ _ => exact glbl h _ _ _
  | dcls _ _ _ => exact dcls h _ _ _
  | markJoin =>
    rw [exec_markJoin, execMarkJoin]
    exact Keeps.setGrp h _
  | markUser _ => exact markUser h _
  | brk _ =>
    rw [exec_brk, execBrk]
    exact Keeps.raiseRec h _ _
  | yieldRec _ => exact yieldRec h _
  | lds _ _ _ => exact lds h _ _ _
  | sts _ _ _ => exact sts h _ _ _
  | amosAdd _ _ _ =>
    rw [exec_amosAdd, execAmosAdd]
    exact amos h _ _ _ _ _ _
  | amosAnd _ _ _ =>
    rw [exec_amosAnd, execAmosAnd]
    exact amos h _ _ _ _ _ _
  | amosOr _ _ _ =>
    rw [exec_amosOr, execAmosOr]
    exact amos h _ _ _ _ _ _
  | amosXor _ _ _ =>
    rw [exec_amosXor, execAmosXor]
    exact amos h _ _ _ _ _ _
  | amosMin _ _ _ =>
    rw [exec_amosMin, execAmosMin]
    exact amos h _ _ _ _ _ _
  | amosMax _ _ _ =>
    rw [exec_amosMax, execAmosMax]
    exact amos h _ _ _ _ _ _
  | amosMinz _ _ _ =>
    rw [exec_amosMinz, execAmosMinz]
    exact amos h _ _ _ _ _ _
  | amosMaxz _ _ _ =>
    rw [exec_amosMaxz, execAmosMaxz]
    exact amos h _ _ _ _ _ _
  | amosSwap _ _ _ =>
    rw [exec_amosSwap, execAmosSwap]
    exact amos h _ _ _ _ _ _
  | amosCas _ _ _ =>
    rw [exec_amosCas, execAmosCas]
    exact amos h _ _ _ _ _ _
  | vld _ _ _ => exact vld h _ _ _
  | vsta _ _ => exact vsta h _ _
  | pref _ _ =>
    rw [exec_pref, execPref]
    exact whenFree h _ _ (aPass h)
  | run _ _ => exact run h _ _
  | slipset _ =>
    rw [exec_slipset, execSlipset]
    exact setSlip h _ _
  | popca _ => exact popca h _
  | port _ => exact port h _
  | coll _ => exact coll h _
  | alloc _ _ => exact alloc h _ _
  | free _ => exact free h _
  | resv _ _ _ => exact resv h _ _ _
  | unresv _ => exact unresv h _
  | detset _ _ => exact detset h _ _
  | waitfc _ _ => exact waitfc h _ _
  | sigadd _ _ =>
    rw [exec_sigadd, execSigadd]
    exact signalUpdate h _ _ _ _
  | sigdec _ _ =>
    rw [exec_sigdec, execSigdec]
    exact signalUpdate h _ _ _ _
  | sigwait _ _ => exact sigwait h _ _
  | launch _ => exact launch h _
  | early => exact early h
  | barinit _ _ => exact barinit h _ _
  | bararv _ _ _ => exact bararv h _ _ _
  | barwait _ _ => exact barwait h _ _
  | fence _ _ => exact fence h _ _
  | getsr _ _ => exact getsr h _ _
  | setsr _ _ => exact setsr h _ _
  | _ => cases ha

/-- Every instruction of the compute stream of three or four parcels. -/
theorem exec_compute {i : Instr} (h : s.Keeps t) (hc : i.cForm.isSome = true) : s.KeepsOut (Machine.exec i t) := by
  cases i with
  | vadd _ =>
    rw [exec_vadd, execVadd]
    exact vbin h _ _ _ _
  | vsub _ =>
    rw [exec_vsub, execVsub]
    exact vbin h _ _ _ _
  | vmul _ =>
    rw [exec_vmul, execVmul]
    exact vbin h _ _ _ _
  | vmulhi _ =>
    rw [exec_vmulhi, execVmulhi]
    exact vbin h _ _ _ _
  | vmad _ =>
    rw [exec_vmad, execVmad]
    exact cLanes h _ _ _ _
  | vadds _ =>
    rw [exec_vadds, execVadds]
    exact vbin h _ _ _ _
  | vsubs _ =>
    rw [exec_vsubs, execVsubs]
    exact vbin h _ _ _ _
  | vand _ =>
    rw [exec_vand, execVand]
    exact vbin32 h _ _
  | vor _ =>
    rw [exec_vor, execVor]
    exact vbin32 h _ _
  | vxor _ =>
    rw [exec_vxor, execVxor]
    exact vbin32 h _ _
  | vnot _ =>
    rw [exec_vnot, execVnot]
    exact vun h _ _ _
  | vshl _ =>
    rw [exec_vshl, execVshl]
    exact vbin h _ _ _ _
  | vshr _ =>
    rw [exec_vshr, execVshr]
    exact vbin h _ _ _ _
  | vsar _ =>
    rw [exec_vsar, execVsar]
    exact vbin h _ _ _ _
  | vmin _ =>
    rw [exec_vmin, execVmin]
    exact vbin h _ _ _ _
  | vmax _ =>
    rw [exec_vmax, execVmax]
    exact vbin h _ _ _ _
  | vabs _ =>
    rw [exec_vabs, execVabs]
    exact vun h _ _ _
  | vneg _ =>
    rw [exec_vneg, execVneg]
    exact vun h _ _ _
  | vcmp _ =>
    rw [exec_vcmp, execVcmp]
    exact vcompare h _ _ _
  | vsel _ => exact vsel h _
  | vpopc _ =>
    rw [exec_vpopc, execVpopc]
    exact vun h _ _ _
  | vclz _ =>
    rw [exec_vclz, execVclz]
    exact vun h _ _ _
  | vbfe _ =>
    rw [exec_vbfe, execVbfe]
    exact cLanes h _ _ _ _
  | vbfi _ =>
    rw [exec_vbfi, execVbfi]
    exact cLanes h _ _ _ _
  | vpack _ =>
    rw [exec_vpack, execVpack]
    exact cLanes h _ _ _ _
  | vunpk _ =>
    rw [exec_vunpk, execVunpk]
    exact vun h _ _ _
  | vfadd _ =>
    rw [exec_vfadd, execVfadd]
    exact vbin h _ _ _ _
  | vfsub _ =>
    rw [exec_vfsub, execVfsub]
    exact vbin h _ _ _ _
  | vfmul _ =>
    rw [exec_vfmul, execVfmul]
    exact vbin h _ _ _ _
  | vfma _ =>
    rw [exec_vfma, execVfma]
    exact cLanes h _ _ _ _
  | vfmin _ =>
    rw [exec_vfmin, execVfmin]
    exact vbin h _ _ _ _
  | vfmax _ =>
    rw [exec_vfmax, execVfmax]
    exact vbin h _ _ _ _
  | vfabs _ =>
    rw [exec_vfabs, execVfabs]
    exact vun h _ _ _
  | vfneg _ =>
    rw [exec_vfneg, execVfneg]
    exact vun h _ _ _
  | vfcmp _ =>
    rw [exec_vfcmp, execVfcmp]
    exact vcompare h _ _ _
  | vfclass _ =>
    rw [exec_vfclass, execVfclass]
    exact vun h _ _ _
  | vcvt _ =>
    rw [exec_vcvt, execVcvt]
    exact vun h _ _ _
  | vqnt _ =>
    rw [exec_vqnt, execVqnt]
    exact cLanes h _ _ _ _
  | vdqnt _ =>
    rw [exec_vdqnt, execVdqnt]
    exact cLanes h _ _ _ _
  | vscalb _ =>
    rw [exec_vscalb, execVscalb]
    exact cLanes h _ _ _ _
  | vexp2 _ =>
    rw [exec_vexp2, execVexp2]
    exact sfun h _ _ _ _
  | vlog2 _ =>
    rw [exec_vlog2, execVlog2]
    exact sfun h _ _ _ _
  | vrcp _ =>
    rw [exec_vrcp, execVrcp]
    exact sfun h _ _ _ _
  | vrsq _ =>
    rw [exec_vrsq, execVrsq]
    exact sfun h _ _ _ _
  | vsqrt _ =>
    rw [exec_vsqrt, execVsqrt]
    exact sfun h _ _ _ _
  | vtanh _ =>
    rw [exec_vtanh, execVtanh]
    exact sfun h _ _ _ _
  | vsin _ =>
    rw [exec_vsin, execVsin]
    exact sfun h _ _ _ _
  | vcos _ =>
    rw [exec_vcos, execVcos]
    exact sfun h _ _ _ _
  | vshuf _ =>
    rw [exec_vshuf, execVshuf]
    exact shuffle h _ _
  | vshfl _ =>
    rw [exec_vshfl, execVshfl]
    exact shuffle h _ _
  | vvote _ => exact vvote h _
  | vred _ => exact vred h _
  | vscan _ => exact vscan h _
  | vbcast _ => exact vbcast h _
  | settw _ => exact settw h _
  | vmov _ =>
    rw [exec_vmov, execVmov]
    exact cLanes h _ _ _ _
  | vrand _ => exact vrand h _
  | vldx _ => exact vldx h _
  | vstx _ =>
    rw [exec_vstx, execVstx]
    exact cIssue h _ _ fun _ _ hu => vstxBody hu _ _ _ _
  | vstxNotify _ =>
    rw [exec_vstxNotify, execVstxNotify]
    exact cIssue h _ _ fun _ _ hu => vstxBody hu _ _ _ _
  | vamo _ =>
    rw [exec_vamo, execVamo]
    exact cIssue h _ _ fun _ _ hu => vamoBody hu _ _ _ _
  | vamoDet _ =>
    rw [exec_vamoDet, execVamoDet]
    exact cIssue h _ _ fun _ _ hu => vamoBody hu _ _ _ _
  | spld _ =>
    rw [exec_spld, execSpld]
    exact cIssue h _ _ fun _ _ hu => spBody hu _ _ _ _ _ _
  | spst _ =>
    rw [exec_spst, execSpst]
    exact cIssue h _ _ fun _ _ hu => spBody hu _ _ _ _ _ _
  | spamo _ =>
    rw [exec_spamo, execSpamo]
    exact cIssue h _ _ fun _ _ hu => spBody hu _ _ _ _ _ _
  | std _ => exact std h _
  | senda _ => exact senda h _
  | acld _ =>
    rw [exec_acld, execAcld]
    exact cIssue h _ _ fun _ _ hu => acBody hu _ _ _ _
  | acst _ =>
    rw [exec_acst, execAcst]
    exact cIssue h _ _ fun _ _ hu => acBody hu _ _ _ _
  | cwait _ => exact cwait h _
  | carv _ => exact carv h _
  | mxloop _ => exact mxloop h _
  | mxgrp _ => exact mxgrp h _
  | mxzero _ => exact mxzero h _
  | accvt _ => exact accvt h _
  | winit _ =>
    rw [exec_winit, execWinit]
    exact windowOnce h _ _ _
  | wpush _ => exact wpush h _
  | wqry _ => exact wqry h _
  | wsetw _ =>
    rw [exec_wsetw, execWsetw]
    exact windowOnce h _ _ _
  | wfree _ =>
    rw [exec_wfree, execWfree]
    exact windowOnce h _ _ _
  | wstat _ => exact wstat h _
  | xunpk _ =>
    rw [exec_xunpk, execXunpk]
    exact xIssue h _ _ _
  | xdec _ =>
    rw [exec_xdec, execXdec]
    exact xIssue h _ _ _
  | xlut _ =>
    rw [exec_xlut, execXlut]
    exact xIssue h _ _ _
  | vdcls _ => exact vdcls h _
  | vlblrd _ => exact vlblrd h _
  | vlblup _ => exact vlblup h _
  | vsys _ => exact vsys h _
  | vbrk _ => exact vbrk h _
  | _ => cases hc

/-- Every trailer, NOP, and step of another agent but the two that clear labels. -/
theorem exec_other {i : Instr} (h : s.Keeps t) (ho : (i.aForm.isSome || i.cForm.isSome) = false)
    (hi : ∀ c b n, i ≠ .frameAllocate c b n) (hr : ∀ r, i ≠ .deviceReset r) : s.KeepsOut (Machine.exec i t) := by
  cases i with
  | trlTake _ => exact trlTake h _
  | trlFall _ => exact trlFall h _
  | trlSkip _ _ _ => exact trlSkip h _ _ _
  | trlRegang _ _ => exact trlRegang h _ _
  | trlEnd _ => exact trlEnd h _
  | nop => exact nop h
  | fixedLatencyWrite _ _ => exact fixedLatencyWrite h _ _
  | runStart _ _ => exact runStart h _ _
  | takeEntry _ _ => exact takeEntry h _ _
  | quadEnd _ _ => exact quadEnd h _ _
  | groupFinish _ => exact groupFinish h _
  | unpairedDeadlock _ => exact unpairedDeadlock h _
  | decoupleDeadlockDetect _ => exact decoupleDeadlockDetect h _
  | popcaDeadlock _ => exact popcaDeadlock h _
  | ageCounterAged _ _ => exact ageCounterAged h _ _
  | vldEntryPresent _ _ => exact vldEntryPresent h _ _
  | vldFail _ _ => exact vldFail h _ _
  | vldPoisonIdle _ => exact vldPoisonIdle h _
  | ldsComplete _ _ =>
    rw [exec_ldsComplete, execLdsComplete]
    exact completeOp h _ _ _ _
  | stsComplete _ _ =>
    rw [exec_stsComplete, execStsComplete]
    exact completeOp h _ _ _ _
  | amosComplete _ _ => exact amosComplete h _ _
  | detsetComplete _ _ =>
    rw [exec_detsetComplete, execDetsetComplete]
    exact completeOp h _ _ _ _
  | queueStore _ => exact queueStore h _ _
  | storeApply _ _ _ => exact storeApply h _ _ _
  | laneAccessComplete _ _ =>
    rw [exec_laneAccessComplete, execLaneAccessComplete]
    exact completeWith h _ _ _ fun _ _ hu => hu.endLanes _ _
  | sliceStop _ _ => exact sliceStop h _ _
  | barwaitSatisfied _ => exact barwaitSatisfied h _
  | cwaitSatisfied _ _ => exact cwaitSatisfied h _ _
  | sigwaitReread _ => exact sigwaitReread h _
  | fenceComplete _ => exact fenceComplete h _
  | waitfcSatisfied _ => exact waitfcSatisfied h _
  | allocGrant _ => exact allocGrant h _
  | allocDeadlockDetect _ => exact allocDeadlockDetect h _
  | bankFree _ => exact bankFree h _
  | resvRelease _ => exact resvRelease h _
  | porterComplete _ _ => exact porterComplete h _ _
  | transformReply _ _ => exact transformReply h _ _
  | weighhouseAnswer _ _ => exact weighhouseAnswer h _ _
  | syscallSlotPoll _ => exact syscallSlotPoll h _
  | pitchEntryStart _ _ => exact pitchEntryStart h _ _
  | matrixStep _ _ => exact matrixStep h _ _
  | pitchEntryComplete _ _ => exact pitchEntryComplete h _ _
  | accvtComplete _ _ => exact accvtComplete h _ _
  | windowOpPerform _ => exact windowOpPerform h _
  | detContribution _ _ _ => exact detContribution h _ _ _
  | collComplete _ _ => exact collComplete h _ _
  | loadRequest _ => exact loadRequest h _
  | loadReply _ => exact loadReply h _
  | storeFrame _ => exact storeFrame h _
  | acknowledgement _ => exact acknowledgement h _
  | atomicFrame _ => exact atomicFrame h _
  | atomicReply _ => exact atomicReply h _
  | notifyArrival _ => exact notifyArrival h _
  | rejection _ => exact rejection h _
  | invalidation _ => exact invalidation h _
  | invalidationAcknowledgement _ => exact invalidationAcknowledgement h _
  | fenceNotice _ => exact fenceNotice h _
  | dupUpdate _ => exact dupUpdate h _
  | dupAcknowledgement _ => exact dupAcknowledgement h _
  | contribution _ =>
    rw [exec_contribution, execContribution]
    exact receiveContribution h _ _ _
  | combinedContribution _ =>
    rw [exec_combinedContribution, execCombinedContribution]
    exact receiveContribution h _ _ _
  | resultChunk _ => exact resultChunk h _
  | shootdownRequest _ _ _ => exact shootdownRequest h _ _ _
  | shootdownTimeout => exact shootdownTimeout h
  | replyTimeout _ => exact replyTimeout h _
  | dupAckTimeout _ => exact dupAckTimeout h _
  | teamFaultSave _ => exact teamFaultSave h _
  | dispPoll _ => exact dispPoll h _
  | teamRetire _ => exact teamRetire h _
  | gridRetire _ => exact gridRetire h _
  | gridAdmit _ => exact gridAdmit h _
  | teamPlace _ => exact teamPlace h _
  | preemptMark _ => exact preemptMark h _
  | teamSaveYield _ => exact teamSaveYield h _
  | preemptDeadline _ => exact preemptDeadline h _
  | teamResume _ => exact teamResume h _
  | deviceReset _ => exact absurd rfl (hr _)
  | ownerRegister _ _ _ => exact ownerRegister h _ _ _
  | endorsementInstall _ => exact endorsementInstall h _
  | evidenceRequest _ _ => exact evidenceRequest h _ _
  | firmwareUpdate _ _ => exact firmwareUpdate h _ _
  | debugUnlock _ => exact debugUnlock h _
  | protectedContextCreate _ _ => exact protectedContextCreate h _ _
  | keyRotate _ => exact keyRotate h _
  | frameAllocate _ _ _ => exact absurd rfl (hi _ _ _)
  | powerRedivide _ => exact powerRedivide h _
  | trcctlWrite _ _ => exact trcctlWrite h _ _
  | traceSample _ _ => exact traceSample h _ _
  | traceLeaseBroken _ => exact traceLeaseBroken h _
  | pmuRotate _ => exact pmuRotate h _
  | bkctlHrel _ _ => exact bkctlHrel h _ _
  | breakpointMatch _ _ _ => exact breakpointMatch h _ _ _
  | dbgstepWrite _ _ => exact dbgstepWrite h _ _
  | stepStop _ => exact stepStop h _
  | debugRead _ _ => exact debugRead h _ _
  | registerWrite _ _ _ => exact registerWrite h _ _ _
  | hostBar2Read _ _ => exact hostBar2Read h _ _
  | hostBar2Write _ _ => exact hostBar2Write h _ _
  | lineRelocation _ => exact lineRelocation h _
  | fenceClear _ => exact fenceClear h _
  | savedTeamAged _ => exact savedTeamAged h _
  | resumedResidency10ms _ => exact resumedResidency10ms h _
  | glbl sp _ _ => cases sp <;> cases ho
  | _ => cases ho

/-- Every row of the opcode table but the two that clear labels. -/
theorem exec {i : Instr} (h : s.Keeps t) (hi : ∀ c b n, i ≠ .frameAllocate c b n) (hr : ∀ r, i ≠ .deviceReset r) :
    s.KeepsOut (Machine.exec i t) := by
  cases ha : i.aForm.isSome with
  | true => exact exec_address h ha
  | false =>
    cases hc : i.cForm.isSome with
    | true => exact exec_compute h hc
    | false => exact exec_other h (by rw [ha, hc]; rfl) hi hr

end State.KeepsOut

end Sys2Proof.Machine
end


section
/-! PROOFS. What a step keeps of memory and its labels: fetching, the turns of the slices, the steps beside the opcode table, and
the two acts that clear labels. -/

namespace Sys2Proof.Machine

open Sys2Proof

/-- A fetch keeps it, whether it has its instruction or waits. -/
def State.KeepsFetched (s : State) : Fetched → Prop
  | .ok t _ => s.Keeps t
  | .bad _ => True
  | .wait t => s.Keeps t

/-- Reading parcels keeps it. -/
def State.KeepsParcels (s : State) : Parcels → Prop
  | .ok t _ => s.Keeps t
  | .bad _ => True
  | .wait t => s.Keeps t

/-- A predicate holds of the next state, if there is one. -/
def Holds (P : State → Prop) : Out → Prop
  | .next t => P t
  | _ => True

/-- The words at which address slices wait, and the trailers that paths have issued, are of some kind. -/
def State.WaitsFor (s : State) (W : Instr → Prop) : Prop :=
  ∀ k i, ((s.group k).await = some i ∨ ∃ p, ((s.group k).paths.get Path.none p).trail = some i) → W i

namespace State.Keeps

variable {s t : State}

/-! ## Fetching -/

theorem codeWord (h : s.Keeps t) (k va : Nat) : s.KeepsRead (t.codeWord k va) := h.readCode _ _ _

theorem fetchA (h : s.Keeps t) (k : Nat) : s.KeepsFetched (t.fetchA k) := by
  unfold State.fetchA
  dsimp only
  split
  · trivial
  · generalize hr : t.codeWord _ _ = r
    have read : s.KeepsRead r := hr ▸ h.codeWord _ _
    cases r with
    | bad f => trivial
    | wait u => exact read
    | ok u bs l =>
      dsimp only
      split
      · trivial
      · split
        · trivial
        · generalize hr : u.codeWord _ _ = r
          have lit : s.KeepsRead r := hr ▸ Keeps.codeWord read _ _
          cases r with
          | bad f => trivial
          | wait v => exact lit
          | ok v bs l => exact lit
      · exact read

theorem parcels (h : s.Keeps t) (k va n : Nat) : s.KeepsParcels (t.parcels k va n) := by
  induction n generalizing t va with
  | zero => exact h
  | succ n ih =>
    unfold State.parcels
    generalize hr : t.codeWord _ _ = r
    have read : s.KeepsRead r := hr ▸ h.codeWord _ _
    cases r with
    | bad f => trivial
    | wait u => exact read
    | ok u bs l =>
      dsimp only
      have more := ih read (va + 4)
      split
      · rename_i v ws hv
        rwa [hv] at more
      · exact more

theorem fetchC (h : s.Keeps t) (k : Nat) (p : Path) : s.KeepsFetched (t.fetchC k p) := by
  unfold State.fetchC
  dsimp only
  split
  · trivial
  · generalize hr : t.parcels _ _ _ = r
    have head : s.KeepsParcels r := hr ▸ h.parcels _ _ _
    cases r with
    | bad f => trivial
    | wait u => exact head
    | ok u hd =>
      dsimp only
      split
      · trivial
      · split
        · trivial
        · generalize hr : u.parcels _ _ _ = r
          have first : s.KeepsParcels r := hr ▸ Keeps.parcels head _ _ _
          cases r with
          | bad f => trivial
          | wait v => exact first
          | ok v ws =>
            dsimp only
            split
            · trivial
            · generalize hr : v.parcels _ _ _ = r
              have rest : s.KeepsParcels r := hr ▸ Keeps.parcels first _ _ _
              cases r with
              | bad f => trivial
              | wait w => exact rest
              | ok w rs =>
                dsimp only
                split
                · trivial
                · split
                  · trivial
                  · exact rest

/-! ## The steps beside the opcode table -/

theorem accessAlone (h : s.Keeps t) (k : Nat) (o : Op) (i : Nat) : s.Keeps (t.accessAlone k o i) := by
  unfold State.accessAlone
  split
  · exact h
  · dsimp only
    split
    · exact h
    · generalize hr : t.performPart _ _ _ _ = r
      have performed : s.KeepsPerformed r := hr ▸ h.performPart _ _ _ _
      cases r with
      | blocked => exact h
      | bad f => exact h
      | ok u l => exact Keeps.putOp performed _ _

theorem pairStore (h : s.Keeps t) (k : Nat) : s.Keeps (t.pairStore k) := by
  have paired := KeepsOut.queueStore h k true
  unfold State.pairStore
  split
  · rename_i u hu
    exact paired.next_of_eq hu
  · exact h

theorem access (h : s.Keeps t) (k id i : Nat) : s.Keeps (t.access k id i) := by
  unfold State.access
  split
  · exact h
  · split
    · exact Keeps.ite h ((h.portStart _ _ _ _).putOp _ _)
    · exact Keeps.ite (h.portTurn _ _ _) (h.accessAlone _ _ _)
    · exact Keeps.ite h ((h.collStart _ _ _).putOp _ _)
    · exact h.accessAlone _ _ _

theorem contextRoot (h : s.Keeps t) (ctx root : Nat) : s.Keeps (t.contextRoot ctx root) := by
  unfold State.contextRoot
  split
  · exact h.same rfl rfl rfl
  · exact h.same rfl rfl rfl

theorem onCtx (h : s.Keeps t) (ctx : Nat) (f : Ctx → Ctx) : s.Keeps (t.onCtx ctx f) := by
  unfold State.onCtx
  split
  · exact h.same rfl rfl rfl
  · exact h

theorem dupEntry (h : s.Keeps t) (home : Nat) (copy : Option Nat) : s.Keeps (t.dupEntry home copy) := by
  unfold State.dupEntry
  split
  · exact h.same rfl rfl rfl
  · exact Keeps.ite h (h.same rfl rfl rfl)

theorem upsetAt (h : s.Keeps t) (u : Upset) : s.Keeps (t.upsetAt u) := by
  cases u with
  | memory n => exact h.same rfl rfl rfl
  | scratch n i => exact h.setTeam _ _
  | acc n i => exact h.setTeam _ _
  | weight n i => exact h.setTeam _ _
  | latch n p i => exact h.setTeam _ _

/-- A byte of the host, inside the window or outside it. -/
theorem hostPut (h : s.Keeps t) (bus : Nat) (b : Byte) : s.Keeps (t.hostPut bus b) := by
  unfold State.hostPut
  dsimp only
  split
  · exact h.wrote (Tab.wf_set _ _ _ _) rfl rfl
  · exact h.trans ⟨id, Tab.wf_set _ _ _ _, fun _ => BitVec.or_self⟩

/-- Every byte of the host keeps its bus address: no byte of the device changes, and no label. -/
theorem rebase (h : s.Keeps t) (base : DWord) : s.Keeps (t.rebase base) := by
  unfold State.rebase
  extract_lets shown u
  have emptied : s.Keeps u := h.trans ⟨Tab.wf_filter _ _ _, fun _ => rfl, fun _ => BitVec.or_self⟩
  exact emptied.foldl (fun _ _ hv => hv.hostPut _ _) _

theorem act (h : s.Keeps t) (a : Act) : s.Keeps (t.act a) := by
  cases a with
  | access k id i => exact h.access _ _ _
  | pair k => exact h.pairStore _
  | apart b => exact h.same rfl rfl rfl
  | ownNext => exact h.ownNext
  | contextRoot ctx root => exact h.contextRoot _ _
  | contextDevices ctx devs => exact h.onCtx _ _
  | endpoint ctx slot e => exact h.onCtx _ _
  | dupEntry home copy => exact h.dupEntry _ _
  | dupHolders home devs => exact h.same rfl rfl rfl
  | aperture base => exact h.same rfl rfl rfl
  | hostBase base => exact h.rebase _
  | shootTimeout c => exact Keeps.ite (h.same rfl rfl rfl) h
  | route dev ports => exact Keeps.ite (h.same rfl rfl rfl) h
  | hostWrite bus bytes => exact h.foldl (fun _ _ hu => hu.hostPut _ _) _
  | mmioRead off => exact h.same rfl rfl rfl
  | upset u => exact h.upsetAt _

/-! ## Time -/

theorem tickTime (s : State) : s.Keeps s.tickTime := (Keeps.refl s).same rfl rfl rfl

theorem nextTurn (h : s.Keeps t) : s.Keeps t.nextTurn.2 := by
  unfold State.nextTurn
  split
  · exact h.same rfl rfl rfl
  · exact h

end State.Keeps

/-! ## What a step makes of a predicate that the operations above carry along -/

section

variable {P : State → Prop} {W : Instr → Prop} {s t : State} {o : Out}

theorem holds_ite {c : Prop} [Decidable c] {o' : Out} (h : Holds P o) (h' : Holds P o') : Holds P (if c then o else o') := by
  split
  · exact h
  · exact h'

theorem holds_afterIssue (closed : ∀ u v, P u → u.Keeps v → P v) (h : Holds P o) (k q code before : Nat) (count : Group → Nat) :
    Holds P (afterIssue k q code before count o) := by
  cases o with
  | next u =>
    have kept := State.KeepsOut.afterIssue (o := .next u) (State.Keeps.refl u) k q code before count
    generalize afterIssue k q code before count (.next u) = r at kept
    cases r with
    | next v => exact closed u v h kept
    | fault f => trivial
    | refused f => trivial
  | fault f => trivial
  | refused f => trivial

theorem holds_keepCurrent (closed : ∀ u v, P u → u.Keeps v → P v) (h : Holds P o) (k p : Nat) : Holds P (s.keepCurrent k p o) := by
  cases o with
  | next u =>
    have kept := State.Keeps.refl u
    exact closed u _ h (State.Keeps.ite kept (State.Keeps.ite (kept.setCurrent _ _) (kept.clearCurrent _)))
  | fault f => trivial
  | refused f => trivial

/-- What the address stream decodes is one of its words. -/
theorem issued_of_fetchA {k : Nat} {i : Instr} (h : s.fetchA k = .ok t i) : i.isIssued = true := by
  have decoded {w lit : Word} {j : Instr} (hd : decodeA w lit = .ok j) : j.isIssued = true := by
    rw [Instr.isIssued, aForm_of_decodeA hd]
    rfl
  unfold State.fetchA at h
  dsimp only at h
  split at h
  · cases h
  · split at h
    · cases h
    · cases h
    · split at h
      · cases h
      · split at h
        · cases h
        · split at h
          · cases h
          · cases h
          · cases h
            rfl
      · rename_i hd
        cases h
        exact decoded hd

/-- What the compute stream decodes is one of its instructions. -/
theorem issued_of_fetchC {k : Nat} {p : Path} {i : Instr} (h : s.fetchC k p = .ok t i) : i.isIssued = true := by
  unfold State.fetchC at h
  dsimp only at h
  split at h
  · cases h
  · split at h
    · cases h
    · cases h
    · split at h
      · cases h
      · split at h
        · cases h
        · split at h
          · cases h
          · cases h
          · split at h
            · cases h
            · split at h
              · cases h
              · cases h
              · split at h
                · cases h
                · rename_i hd
                  split at h
                  · cases h
                  · cases h
                    obtain ⟨-, form, -⟩ := wf_of_decodeC hd
                    rcases form with form | form
                    · rw [Instr.isIssued, form]; simp
                    · rw [Instr.isIssued, form]; simp

theorem holds_runA (closed : ∀ u v, P u → u.Keeps v → P v) (execs : ∀ i u, W i → P u → Holds P (exec i u))
    (issued : ∀ i, i.isIssued = true → W i) (hs : P s) (hw : s.WaitsFor W) (k : Nat) : Holds P (s.runA k) := by
  have moved : P { s with cur := k } := closed s _ hs ((State.Keeps.refl s).same rfl rfl rfl)
  unfold State.runA
  extract_lets u
  refine holds_ite moved ?_
  split
  · rename_i i hi
    exact holds_afterIssue closed (execs i u (hw k i (.inl hi)) moved) _ _ _ _ _
  · have fetched := (State.Keeps.refl u).fetchA k
    split
    · exact closed u _ moved ((State.Keeps.refl u).raiseA _)
    · rename_i v hv
      rw [hv] at fetched
      exact closed u v moved fetched
    · rename_i v i hv
      rw [hv] at fetched
      exact holds_afterIssue closed (execs i v (issued i (issued_of_fetchA hv)) (closed u v moved fetched)) _ _ _ _ _

theorem holds_runC (closed : ∀ u v, P u → u.Keeps v → P v) (execs : ∀ i u, W i → P u → Holds P (exec i u))
    (issued : ∀ i, i.isIssued = true → W i) (hs : P s) (hw : s.WaitsFor W) (k p : Nat) : Holds P (s.runC k p) := by
  have moved : P { s with cur := k, curPath := p } := closed s _ hs ((State.Keeps.refl s).same rfl rfl rfl)
  unfold State.runC
  extract_lets u
  refine holds_ite moved ?_
  split
  · rename_i i hi
    exact execs i u (hw k i (.inr ⟨p, hi⟩)) moved
  · have fetched := (State.Keeps.refl u).fetchC k u.path
    split
    · exact closed u _ moved ((State.Keeps.refl u).raiseC _)
    · rename_i v hv
      rw [hv] at fetched
      exact closed u v moved fetched
    · rename_i v i hv
      rw [hv] at fetched
      exact holds_afterIssue closed (execs i v (issued i (issued_of_fetchC hv)) (closed u v moved fetched)) _ _ _ _ _

theorem holds_take (closed : ∀ u v, P u → u.Keeps v → P v) (execs : ∀ i u, W i → P u → Holds P (exec i u))
    (issued : ∀ i, i.isIssued = true → W i) (hs : P s) (hw : s.WaitsFor W) (x : Turn) (event : ∀ i, x = .event i → W i) :
    Holds P (s.take x) := by
  cases x with
  | aWord k => exact holds_ite (holds_runA closed execs issued hs hw k) hs
  | cIssue k p => exact holds_ite (holds_keepCurrent closed (holds_runC closed execs issued hs hw k p) k p) hs
  | event i =>
    have made : Holds P (exec i s) := execs i s (event i rfl) hs
    unfold State.take
    dsimp only
    split
    · exact holds_ite made hs
    · exact holds_ite hs made
  | outside a => exact closed s _ hs ((State.Keeps.refl s).act a)

theorem holds_step (closed : ∀ u v, P u → u.Keeps v → P v) (execs : ∀ i u, W i → P u → Holds P (exec i u))
    (issued : ∀ i, i.isIssued = true → W i) (hs : P s) (hw : s.tickTime.nextTurn.2.WaitsFor W)
    (event : ∀ i, s.tickTime.nextTurn.1 = .event i → W i) : Holds P (step s) :=
  holds_take closed execs issued (closed s _ hs (State.Keeps.tickTime s).nextTurn) hw _ event

end

/-! ## The two acts that clear labels -/

section

variable {P : State → Prop} {s : State}

/-- Scrubbing takes bytes of memory out and adds none (R435). -/
theorem holds_frameAllocate (closed : ∀ u v, P u → u.Keeps v → P v)
    (emptied : ∀ u v f, P u → v.mem = u.mem.filter f → v.hostMem = u.hostMem → P v) (h : P s) (ctx base n : Nat) :
    Holds P (execFrameAllocate ctx base n s) := by
  refine holds_ite h ?_
  have taken : P (((List.range n).map (base + ·)).foldl (fun a f => a.takeFrame ctx f) s) := by
    refine keeps_foldl (P := P) (fun u f hu => ?_) _ _ h
    unfold State.takeFrame
    split
    · exact hu
    · exact emptied u _ _ hu rfl rfl
  exact closed _ _ taken ((State.Keeps.refl _).same rfl rfl rfl)

/-- What a reset leaves are bytes of the host, and what the firmware writes is written in order (R366). -/
theorem holds_deviceReset (closed : ∀ u v, P u → u.Keeps v → P v)
    (emptied : ∀ u v f, P u → v.mem = u.mem.filter f → v.hostMem = u.hostMem → P v) (h : P s) (r : ResetInfo) :
    Holds P (execDeviceReset r s) := by
  have shown : P (s.rebase 0#64) := closed _ _ h ((State.Keeps.refl s).rebase _)
  unfold execDeviceReset
  extract_lets u fresh v w
  have cleared : P v := emptied _ _ _ shown rfl rfl
  have loaded : P w := closed _ _ cleared ((State.Keeps.refl v).foldl (fun _ _ hu => hu.writeMem _ _) _)
  refine holds_ite h ?_
  split
  · exact loaded
  · refine holds_ite ?_ loaded
    refine closed w _ loaded ?_
    refine State.Keeps.newGrid ?_ _ _ _
    exact (State.Keeps.refl w).same rfl rfl rfl

/-- Every row of the opcode table. -/
theorem holds_exec (closed : ∀ u v, P u → u.Keeps v → P v)
    (emptied : ∀ u v f, P u → v.mem = u.mem.filter f → v.hostMem = u.hostMem → P v) (i : Instr) (h : P s) : Holds P (exec i s) := by
  by_cases hi : ∃ c b n, i = .frameAllocate c b n
  · obtain ⟨c, b, n, rfl⟩ := hi
    exact holds_frameAllocate closed emptied h c b n
  · by_cases hr : ∃ r, i = .deviceReset r
    · obtain ⟨r, rfl⟩ := hr
      exact holds_deviceReset closed emptied h r
    · have kept := State.KeepsOut.exec (State.Keeps.refl s) (fun c b n e => hi ⟨c, b, n, e⟩) (fun r e => hr ⟨r, e⟩)
      generalize exec i s = o at kept
      cases o with
      | next t => exact closed s t h kept
      | fault f => trivial
      | refused f => trivial

end

theorem holds_next {P : State → Prop} {o : Out} {t : State} (h : Holds P o) (ho : o = .next t) : P t := by
  rw [ho] at h
  exact h

/-- Settles O59: every operation that a step is made of keeps each table of bytes in canonical form, the two acts that clear labels
among them, which only take bytes out before they write. -/
theorem stepKeepsMemoryCanonical : Obligations.StepKeepsMemoryCanonical := by
  unfold Obligations.StepKeepsMemoryCanonical
  have kept {P : State → Prop} {s t : State} (closed : ∀ u v, P u → u.Keeps v → P v)
      (emptied : ∀ u v f, P u → v.mem = u.mem.filter f → v.hostMem = u.hostMem → P v) (ht : step s = .next t) (hs : P s) : P t :=
    holds_next (holds_step (W := fun _ => True) closed (fun i u _ hu => holds_exec closed emptied i hu) (fun _ _ => trivial) hs
      (fun _ _ _ => trivial) (fun _ _ => trivial)) ht
  intro s t ht
  refine ⟨kept (P := State.memOk) (fun u v hu k => k.1 hu) (fun u v f hu mem _ => ?_) ht,
    kept (P := fun u => Memory.wf u.hostMem = true) (fun u v hu k => k.2.1 hu) (fun u v f hu _ host => ?_) ht⟩
  · rw [State.memOk, mem]
    exact Tab.wf_filter _ _ _ hu
  · rw [host]
    exact hu

/-! ## Labels of granules -/

/-- No step lowers the label of a granule, when the words that wait and the trailers that paths have issued are no acts of the firmware
and the turn is not one of the two acts that clear labels (R132, R435). -/
theorem labels_grow {s t : State} (ht : step s = .next t)
    (hw : s.tickTime.nextTurn.2.WaitsFor fun i => (∀ c b n, i ≠ .frameAllocate c b n) ∧ ∀ r, i ≠ .deviceReset r)
    (event : ∀ i, s.tickTime.nextTurn.1 = .event i → (∀ c b n, i ≠ .frameAllocate c b n) ∧ ∀ r, i ≠ .deviceReset r) (n : Nat) :
    LabelIn (s.glbl.get 0#16 n) (t.glbl.get 0#16 n) := by
  have kept : s.Keeps t := by
    refine holds_next (holds_step (fun u v hu k => hu.trans k) (fun i u hi hu => ?_) (fun i hi => ?_) (State.Keeps.refl s) hw event) ht
    · obtain ⟨alloc, reset⟩ := hi
      have made := State.KeepsOut.exec hu alloc reset
      generalize exec i u = o at made
      cases o with
      | next v => exact made
      | fault f => trivial
      | refused f => trivial
    · refine ⟨fun c b n e => ?_, fun r e => ?_⟩
      · subst e; cases hi
      · subst e; cases hi
  obtain ⟨-, -, labels⟩ := kept
  exact labels n

/-- A device whose one group waits at its word for an allocation of frame 0, whose first granule has a label. No step leaves such a
word there. -/
noncomputable def allocatingState : State :=
  { (State.reset.setTeam 0 { State.reset.team 0 with state := .resident }).setGroup 0
      { State.reset.group 0 with halted := false, astopped := false, await := some (.frameAllocate 1 0 1) } with
    agenda := [.aWord 0], glbl := [(0, 1#16)] }

/-- Refutes O60: the statement leaves out the turns that are an allocation or a reset, but it holds of every state, and in
`allocatingState` the turn of a slice carries out the allocation that waits at its word. -/
theorem not_granuleLabelsNeverFall : ¬ Obligations.GranuleLabelsNeverFall := by
  intro h
  have labels : (nextOf (step allocatingState)).map (fun t => t.glbl.get 0#16 0) = some 0#16 := by rfl
  cases hs : step allocatingState with
  | next t =>
    rw [hs] at labels
    have grown := h allocatingState t hs (fun c b n e => by cases e) (fun r e => by cases e) 0
    have cleared : t.glbl.get 0#16 0 = 0#16 := Option.some.inj labels
    rw [cleared] at grown
    exact absurd grown (by decide)
  | fault f => rw [hs] at labels; cases labels
  | refused f => rw [hs] at labels; cases labels

end Sys2Proof.Machine
end


section
/-! PROOFS. Duplicated pages, shoot-downs and fences: what a frame that is accepted does, what sending and failing touch, and which
devices a tree asks. -/

namespace Sys2Proof.Machine

open Sys2Proof

variable {s t u : State} {f : Frame}

/-! ## Frames that are accepted (R409) -/

theorem receive_accepted (dst : f.dst = s.devn) {ty : FrameType} (typ : f.typ = ty) (acc : s.accepts f = true) (k : State → Out) :
    s.receive ty f k = k s := by
  have here : ¬ (f.dst ≠ s.devn ∨ (f.typ != ty && f.typ != .unlisted) = true) := by simp [dst, typ]
  rw [State.receive, if_neg (by simpa using here), if_pos acc]

/-! ## Writes within a line -/

theorem lineCuts_of_fits {la : Nat} {bs : List Byte} (fits : la % 128 + bs.length ≤ 128) : lineCuts la bs = [bs] := by
  have none_left : (bs.length - (128 - la % 128) + 127) / 128 = 0 := by omega
  rw [lineCuts, none_left, List.take_of_length_le (by omega)]
  rfl

theorem writeLine_plain (s : State) (la : Nat) (bs : List Byte) : s.writeLine la bs false = some (s.writeMem la bs) := rfl

/-- Bytes within one line that is not compressed are written as they are (R355, R356). -/
theorem writeBytes_plain {la : Nat} {bs : List Byte} (fits : la % 128 + bs.length ≤ 128) (line : s.lines.find (la / 128) = none) :
    s.writeBytes false la (lineCuts la bs) = some (s.writeMem la bs) := by
  rw [lineCuts_of_fits fits, State.writeBytes, line]
  rfl

/-- A line lies in one granule. -/
theorem granules_of_line {la n : Nat} (some_ : 0 < n) (fits : la % 128 + n ≤ 128) :
    (List.range ((la + n - 1) / 256 - la / 256 + 1)).map (fun i => (la / 256 + i) * 256) = [la / 256 * 256] := by
  have one : (la + n - 1) / 256 - la / 256 + 1 = 1 := by omega
  rw [one]
  rfl

theorem raiseLabel_granule (s : State) (la : Nat) (l : Label) : s.raiseLabel (la / 256 * 256) l = s.raiseLabel la l := by
  simp only [State.raiseLabel, Nat.mul_div_cancel _ (by decide : 0 < 256)]

theorem retryDie_of_none (h : s.dieQ = []) : s.retryDie = s := by
  obtain ⟨⟩ := s
  simp only at h
  subst h
  rfl

/-! ## What sending and failing touch -/

/-- Nothing differs but frames sent, the device's log, and operations whose requests have been settled. -/
def State.Settled (s t : State) : Prop :=
  ∃ groups tags out stalled ctxs log,
    t = { s with groups := groups, tags := tags, out := out, stalled := stalled, ctxs := ctxs, log := log } ∧ ∀ e ∈ tags, e ∈ s.tags

namespace State.Settled

theorem refl (s : State) : s.Settled s := ⟨_, _, _, _, _, _, rfl, fun _ he => he⟩

theorem trans (h : s.Settled t) (h' : t.Settled u) : s.Settled u := by
  obtain ⟨_, tags, _, _, _, _, rfl, sub⟩ := h
  obtain ⟨_, tags', _, _, _, _, rfl, sub'⟩ := h'
  exact ⟨_, _, _, _, _, _, rfl, fun e he => sub e (sub' e he)⟩

theorem send (h : s.Settled t) (f : Frame) : s.Settled (t.send f) := by
  refine h.trans ?_
  unfold State.send
  split
  · exact ⟨_, _, _, _, _, _, rfl, fun _ he => he⟩
  · dsimp only
    split
    · exact ⟨_, _, _, _, _, _, rfl, fun _ he => he⟩
    · exact ⟨_, _, _, _, _, _, rfl, fun _ he => he⟩

theorem answered (h : s.Settled t) (tag : Nat) (r : TagRef) (fail : Option Flt) (upd : Acc → Acc) :
    s.Settled (t.answered tag r fail upd) := by
  have fewer (e : Nat × TagRef) (he : e ∈ t.tags.del tag) : e ∈ t.tags := List.mem_of_mem_filter he
  refine h.trans ?_
  unfold State.answered
  dsimp only
  split
  · exact ⟨_, _, _, _, _, _, rfl, fewer⟩
  · exact ⟨_, _, _, _, _, _, rfl, fewer⟩

theorem foldl {β : Type} {g : State → β → State} (h : s.Settled t) (step : ∀ u b, s.Settled u → s.Settled (g u b)) (l : List β) :
    s.Settled (l.foldl g t) :=
  keeps_foldl (P := s.Settled) step l t h

theorem mem (h : s.Settled t) : t.mem = s.mem := by
  obtain ⟨_, _, _, _, _, _, rfl, -⟩ := h
  rfl

theorem tlb (h : s.Settled t) : t.tlb = s.tlb := by
  obtain ⟨_, _, _, _, _, _, rfl, -⟩ := h
  rfl

theorem fenced (h : s.Settled t) : t.fenced = s.fenced := by
  obtain ⟨_, _, _, _, _, _, rfl, -⟩ := h
  rfl

theorem dupWaits (h : s.Settled t) : t.dupWaits = s.dupWaits := by
  obtain ⟨_, _, _, _, _, _, rfl, -⟩ := h
  rfl

theorem shoots (h : s.Settled t) : t.shoots = s.shoots := by
  obtain ⟨_, _, _, _, _, _, rfl, -⟩ := h
  rfl

theorem dieQ (h : s.Settled t) : t.dieQ = s.dieQ := by
  obtain ⟨_, _, _, _, _, _, rfl, -⟩ := h
  rfl

theorem devn (h : s.Settled t) : t.devn = s.devn := by
  obtain ⟨_, _, _, _, _, _, rfl, -⟩ := h
  rfl

theorem tags (h : s.Settled t) {e : Nat × TagRef} (he : e ∈ t.tags) : e ∈ s.tags := by
  obtain ⟨_, _, _, _, _, _, rfl, sub⟩ := h
  exact sub e he

end State.Settled

/-! ## Frames that are sent (R407, R408) -/

/-- A frame leaves the device, or stays behind until its lane may send again. -/
def State.Sent (s : State) (p : Frame → Prop) : Prop := ∃ y ∈ s.out ++ s.stalled, p y

theorem sent_send {p : Frame → Prop} (hp : p f) (stamp : ∀ a b, p { f with kgen := a, nonce := b }) (s : State) : (s.send f).Sent p := by
  unfold State.send
  split
  · exact ⟨f, by simp, hp⟩
  · dsimp only
    split
    · exact ⟨f, by simp, hp⟩
    · exact ⟨_, List.mem_append_left _ (List.mem_append_right _ (List.mem_singleton.2 rfl)), stamp _ _⟩

theorem sent_send_of_sent {p : Frame → Prop} (h : s.Sent p) (f : Frame) : (s.send f).Sent p := by
  obtain ⟨y, hy, hp⟩ := h
  refine ⟨y, ?_, hp⟩
  unfold State.send
  split
  · simp only [List.mem_append] at hy ⊢
    tauto
  · dsimp only
    split
    · simp only [List.mem_append] at hy ⊢
      tauto
    · simp only [List.mem_append] at hy ⊢
      tauto

/-! ## Fencing (R405) -/

/-- Failing the requests outstanding to a device frees their tags. -/
theorem failTags_spec (s : State) (dev : Nat) : s.Settled (s.failTags dev) ∧ ∀ e ∈ (s.failTags dev).tags, e.2.dev ≠ dev := by
  have settled (l : List (Nat × TagRef)) (t : State) (ht : s.Settled t) : s.Settled (l.foldl (fun a e =>
      a.answered e.1 e.2 (some { code := 0x16, faddr := a.tagAddr e.2 }) (fun x => { x with done := true, lease := true })) t) :=
    ht.foldl (fun _ _ hu => hu.answered _ _ _ _) l
  have freed (l : List (Nat × TagRef)) (t : State) : ∀ e ∈ (l.foldl (fun a e =>
      a.answered e.1 e.2 (some { code := 0x16, faddr := a.tagAddr e.2 }) (fun x => { x with done := true, lease := true })) t).tags,
      e ∈ t.tags ∧ e.1 ∉ l.map (·.1) := by
    induction l generalizing t with
    | nil => exact fun e he => ⟨he, by simp⟩
    | cons x xs ih =>
      intro e he
      obtain ⟨mem, out⟩ := ih _ e he
      have del : (t.answered x.1 x.2 (some { code := 0x16, faddr := t.tagAddr x.2 }) (fun a => { a with done := true, lease := true })).tags
          = t.tags.del x.1 := by
        unfold State.answered
        dsimp only
        split <;> rfl
      rw [del] at mem
      obtain ⟨mem, ne⟩ := List.mem_filter.1 mem
      refine ⟨mem, ?_⟩
      rw [List.map_cons, List.mem_cons, not_or]
      exact ⟨by simpa using ne, out⟩
  refine ⟨settled _ s (.refl s), fun e he dev_eq => ?_⟩
  obtain ⟨mem, out⟩ := freed _ s e he
  exact out (List.mem_map_of_mem (List.mem_filter.2 ⟨mem, by simp [dev_eq]⟩))

/-- The groups after a fence: operations that wait for the device have failed. -/
def State.failedOps (s : State) (dev self : Nat) : State :=
  { s with groups := s.groups.mapVals (fun _ g => { g with ops := g.ops.map (fun o => g.failUnsent dev self (failColl dev o)) }) }

theorem failedOps_settled (s : State) (dev self : Nat) : s.Settled (s.failedOps dev self) := ⟨_, _, _, _, _, _, rfl, fun _ he => he⟩

/-- The state in which a device has been fenced, before what waited for it goes on. -/
def State.fencing (s : State) (dev : Nat) : State := (State.failTags { s with fenced := s.fenced ++ [dev] } dev).failedOps dev s.devn

theorem fencing_settled (s : State) (dev : Nat) : State.Settled { s with fenced := s.fenced ++ [dev] } (s.fencing dev) := by
  obtain ⟨settled, -⟩ := failTags_spec { s with fenced := s.fenced ++ [dev] } dev
  exact settled.trans (failedOps_settled _ _ _)

/-- What the fencing of a device leaves. -/
def State.Fenced (s : State) (d : Nat) (u : State) : Prop :=
  d ∈ u.fenced ∧ (∀ y ∈ s.fenced, y ∈ u.fenced) ∧ (∀ e ∈ u.tags, e.2.dev ≠ d) ∧ u.mem = s.mem

theorem fencing_fenced (s : State) (dev : Nat) : s.Fenced dev (s.fencing dev) := by
  have settled := fencing_settled s dev
  obtain ⟨-, freed⟩ := failTags_spec { s with fenced := s.fenced ++ [dev] } dev
  refine ⟨by rw [settled.fenced]; simp, fun y hy => by rw [settled.fenced]; simp [hy], freed, by rw [settled.mem]⟩

theorem State.Fenced.settled {d : Nat} (h : s.Fenced d t) (k : t.Settled u) : s.Fenced d u := by
  obtain ⟨now, old, freed, mem⟩ := h
  exact ⟨by rwa [k.fenced], fun y hy => by rw [k.fenced]; exact old y hy, fun e he => freed e (k.tags he), by rw [k.mem, mem]⟩

theorem State.Fenced.of_settled {d : Nat} (k : s.Settled t) (h : t.Fenced d u) : s.Fenced d u := by
  obtain ⟨now, old, freed, mem⟩ := h
  exact ⟨now, fun y hy => old y (by rwa [k.fenced]), freed, by rw [mem, k.mem]⟩

theorem fenceLocal_eq {dev : Nat} (new : dev ∉ s.fenced) (other : dev ≠ s.devn) :
    s.fenceLocal dev =
      let u := ((s.fencing dev).dupWaits.filter (fun w => w.waiting.contains dev)).foldl (fun a w => a.dupHeard w dev) (s.fencing dev)
      (List.range u.shoots.length).reverse.foldl (fun a i => a.shootFenced i dev) u := by
  have goes : ¬ (s.fenced.contains dev = true ∨ dev = s.devn) := by simp [new, other]
  rw [State.fenceLocal, if_neg (by simpa using goes)]
  rfl

/-- With nothing that waits for the device, a fence is the record and the failed requests. -/
theorem fenceLocal_idle {dev : Nat} (new : dev ∉ s.fenced) (other : dev ≠ s.devn) (dups : s.dupWaits = []) (shoots : s.shoots = []) :
    s.fenceLocal dev = s.fencing dev := by
  have settled := fencing_settled s dev
  have noDups : (s.fencing dev).dupWaits = [] := settled.dupWaits.trans dups
  have noShoots : (s.fencing dev).shoots = [] := settled.shoots.trans shoots
  rw [fenceLocal_eq new other, noDups]
  change (List.range (s.fencing dev).shoots.length).reverse.foldl _ (s.fencing dev) = _
  rw [noShoots]
  rfl

/-- Every device of a context is told of a fence. -/
def State.noticed (s : State) (ctx dev : Nat) : State :=
  ((s.ctx ctx).devices.filter (fun d => d != s.devn && d != dev)).foldl (fun a d => a.send (a.frame .fenceNotice 4 d ctx 0#16 0 dev 0)) s

theorem noticed_settled (s : State) (ctx dev : Nat) : s.Settled (s.noticed ctx dev) :=
  (State.Settled.refl s).foldl (fun _ _ hu => hu.send _) _

theorem fenceDev_eq (s : State) (ctx dev : Nat) : s.fenceDev ctx dev = (s.noticed ctx dev).fenceLocal dev := rfl

/-! ## The tree of a shoot-down (R403, R405) -/

/-- A fenced device is passed over for the devices below it. -/
theorem not_mem_treeAsks {devs fenced : List Nat} {root d : Nat} (h : d ∈ fenced) (n self : Nat) : d ∉ treeAsks devs fenced root n self := by
  induction n generalizing self with
  | zero => simp [treeAsks]
  | succ n ih =>
    rw [treeAsks, List.mem_flatMap]
    rintro ⟨c, -, hd⟩
    split at hd
    · exact ih c hd
    · rename_i out
      rw [List.mem_singleton] at hd
      subst hd
      simp [h] at out

theorem shootDone_settled (s : State) (x : Shoot) : s.Settled (s.shootDone x) := by
  unfold State.shootDone
  split
  · exact (State.Settled.refl s).send _
  · exact ⟨_, _, _, _, _, _, rfl, fun _ he => he⟩

theorem shootAsk_settled (s : State) (x : Shoot) (devs : List Nat) : s.Settled (s.shootAsk x devs) :=
  (State.Settled.refl s).foldl (fun _ _ hu => hu.send _) _

/-- Every device asked is sent a frame. -/
theorem shootAsk_sent (s : State) (x : Shoot) {devs : List Nat} {d : Nat} (hd : d ∈ devs) :
    (s.shootAsk x devs).Sent (fun y => y.typ = .invalidation ∧ y.dst = d ∧ y.ctx = x.ctx) := by
  have kept (l : List Nat) (t : State) {p : Frame → Prop} (ht : t.Sent p) : (t.shootAsk x l).Sent p :=
    keeps_foldl (P := fun a : State => a.Sent p) (fun _ _ ha => sent_send_of_sent ha _) l t ht
  induction devs generalizing s with
  | nil => cases hd
  | cons c cs ih =>
    rcases List.mem_cons.1 hd with rfl | hd
    · exact kept cs _ (sent_send ⟨rfl, rfl, rfl⟩ (fun _ _ => ⟨rfl, rfl, rfl⟩) s)
    · exact ih _ hd

end Sys2Proof.Machine
end


section
/-! PROOFS. Duplicated pages, shoot-downs and fences: the obligation. -/

namespace Sys2Proof.Machine

open Sys2Proof

variable {s t u : State} {f : Frame}

/-! ## Read duplication -/

theorem exec_dupUpdate_unbound (dst : f.dst = s.devn) (typ : f.typ = .dupUpdate) (acc : s.accepts f = true)
    (unbound : s.dupMap.find (f.src * 2 ^ 26 + f.la / 65536) = none) :
    exec (.dupUpdate f) s = .next (s.send { s.frame .dupAck 2 f.src f.ctx 0#16 f.tag 0 0 with payload := [] }) := by
  rw [exec_dupUpdate, execDupUpdate, receive_accepted dst typ acc]
  dsimp only
  rw [unbound]

theorem exec_dupUpdate_bound {fr : Nat} (dst : f.dst = s.devn) (typ : f.typ = .dupUpdate) (acc : s.accepts f = true)
    (bound : s.dupMap.find (f.src * 2 ^ 26 + f.la / 65536) = some fr) (some_ : f.payload.take (f.aux.toNat % 512) ≠ [])
    (fits : (fr * 65536 + f.la % 65536) % 128 + (f.payload.take (f.aux.toNat % 512)).length ≤ 128) (plain : f.aux.toNat / 512 % 2 = 0)
    (line : s.lines.find ((fr * 65536 + f.la % 65536) / 128) = none) :
    exec (.dupUpdate f) s = .next (((s.writeMem (fr * 65536 + f.la % 65536) (f.payload.take (f.aux.toNat % 512))).raiseLabel
      (fr * 65536 + f.la % 65536) f.lbl).send { s.frame .dupAck 2 f.src f.ctx 0#16 f.tag 0 0 with payload := [] }) := by
  have no_cmp : f.line = false := by
    rw [Frame.line, typ]
    simp [bitOf, plain]
  rw [exec_dupUpdate, execDupUpdate, receive_accepted dst typ acc]
  dsimp only
  rw [bound]
  dsimp only
  rw [no_cmp, writeBytes_plain fits line, granules_of_line (List.length_pos_iff.2 some_) fits]
  dsimp only
  rw [List.foldl_cons, List.foldl_nil, raiseLabel_granule]

theorem exec_dupAcknowledgement_of {w : DupWait} (dst : f.dst = s.devn) (typ : f.typ = .dupAck) (acc : s.accepts f = true)
    (one : s.dupWaits = [w]) (tag : w.tag = f.tag) (waits : f.src ∈ w.waiting) :
    exec (.dupAcknowledgement f) s = .next (s.dupHeard w f.src) := by
  rw [exec_dupAcknowledgement, execDupAcknowledgement, receive_accepted dst typ acc, one]
  have found : [w].find? (fun w => w.tag == f.tag && w.waiting.contains f.src) = some w := by
    rw [List.find?_cons_of_pos]
    simp [tag, waits]
  rw [found]

theorem dupHeard_more {w : DupWait} {dev : Nat} (one : s.dupWaits = [w]) (more : ∃ d ∈ w.waiting, d ≠ dev) :
    s.dupHeard w dev = { s with dupWaits := [{ w with waiting := w.waiting.filter (· != dev) }] } := by
  obtain ⟨d, hd, ne⟩ := more
  have left : ¬ (w.waiting.filter (· != dev)).isEmpty = true := by
    rw [List.isEmpty_iff]
    exact List.ne_nil_of_mem (List.mem_filter.2 ⟨hd, by simpa using ne⟩)
  rw [State.dupHeard, if_neg left, one]
  simp

/-- The last holder has answered a write whose reply is owed to another device (R360). -/
theorem dupHeard_last {w : DupWait} {dev : Nat} {y : Frame} (one : s.dupWaits = [w]) (last : w.waiting = [dev]) (reply : w.reply = some y)
    (die : s.dieQ = []) : s.dupHeard w dev = State.send { s with dupWaits := [], tags := s.tags.del w.tag } y := by
  have left : (w.waiting.filter (· != dev)).isEmpty = true := by simp [last]
  have done : (s.dupWaits.filter (fun x => x.tag != w.tag)) = [] := by simp [one]
  rw [State.dupHeard, if_pos left, State.dupDone, done, reply]
  dsimp only
  rw [retryDie_of_none]
  · rfl
  · exact (State.Settled.send (.refl _) y).dieQ.trans die

/-! ## Shoot-downs -/

theorem exec_invalidationAcknowledgement_of {x : Shoot} (dst : f.dst = s.devn) (typ : f.typ = .invalidationAck) (acc : s.accepts f = true)
    (one : s.shoots = [x]) (ctx : x.ctx = f.ctx) (base : x.base = f.addr.toNat) (npg : x.npg = fieldAt f.payload 0 8)
    (waits : x.waiting = [f.src]) :
    exec (.invalidationAcknowledgement f) s = .next (s.shootPut 0 { x with waiting := [], count := x.count + f.aux.toNat }) := by
  have found : [x].findIdx? (fun x => x.ctx == f.ctx && x.base == f.addr.toNat && x.npg == fieldAt f.payload 0 8 && x.waiting.contains f.src)
      = some 0 := by
    simp [List.findIdx?_cons, ctx, base, npg, waits]
  rw [exec_invalidationAcknowledgement, execInvalidationAcknowledgement, receive_accepted dst typ acc, one, found]
  dsimp only
  rw [State.shootHeard, one]
  simp [waits]

theorem shootPut_over {x y : Shoot} (one : s.shoots = [x]) (over_ : s.shootOver y = true) :
    s.shootPut 0 y = State.shootDone { s with shoots := [] } y := by
  rw [State.shootPut, if_pos over_, one]
  rfl

theorem shootPut_cases {x : Shoot} (one : s.shoots = [x]) (y : Shoot) :
    s.shootPut 0 y = State.shootDone { s with shoots := [] } y ∨ s.shootPut 0 y = { s with shoots := [y] } := by
  cases over_ : s.shootOver y with
  | true => exact .inl (shootPut_over one over_)
  | false =>
    rw [State.shootPut, if_neg (by rw [over_]; decide), one]
    exact .inr rfl

/-- The entries that an invalidation leaves are those that serve no page of its range (R396, R399, R402). -/
theorem mem_invalidate (s : State) (c b m : Nat) (e : Tlb) : e ∈ (s.invalidate c b m).tlb ↔ e ∈ s.tlb ∧
    (e.ctx ≠ c ∨ e.page / e.pages * e.pages + e.pages ≤ b ∨ b + m ≤ e.page / e.pages * e.pages) := by
  rw [State.invalidate, List.mem_filter]
  simp [or_assoc]

theorem shootAsk_groups (s : State) (x : Shoot) (devs : List Nat) : (s.shootAsk x devs).groups = s.groups :=
  (State.SentTo.foldl (.refl s) (fun _ _ hu => hu.send _) devs).groups

theorem shootDone_groups (s : State) (x : Shoot) : (s.shootDone x).groups = s.groups := by
  unfold State.shootDone
  split
  · exact (State.SentTo.send (.refl s) _).groups
  · rfl

/-- What a shoot-down leaves at this device (R403). -/
def State.Shot (s : State) (ctx base npg root : Nat) (u : State) : Prop :=
  u.tlb = (s.invalidate ctx base npg).tlb ∧ u.mem = s.mem ∧ u.groups = s.groups ∧
    ∀ d ∈ treeAsks (s.ctx ctx).devices s.fenced root (s.ctx ctx).devices.length s.devn,
      u.Sent (fun y => y.typ = .invalidation ∧ y.dst = d ∧ y.ctx = ctx)

theorem shoot_shot (s : State) (ctx base npg root : Nat) (parent : Option Nat) :
    s.Shot ctx base npg root (s.shoot ctx base npg root parent) := by
  unfold State.shoot
  extract_lets devs x asked
  have told : (s.invalidate ctx base npg).Settled asked := shootAsk_settled _ _ _
  have same : asked.groups = s.groups := shootAsk_groups _ _ _
  have sent (d : Nat) (hd : d ∈ x.waiting) : asked.Sent (fun y => y.typ = .invalidation ∧ y.dst = d ∧ y.ctx = ctx) := shootAsk_sent _ x hd
  split
  · have done := told.trans (shootDone_settled asked x)
    refine ⟨done.tlb, done.mem, (shootDone_groups _ _).trans same, fun d hd => ?_⟩
    unfold State.shootDone
    split
    · exact sent_send_of_sent (sent d hd) _
    · exact sent d hd
  · exact ⟨told.tlb, told.mem, same, sent⟩

/-- With no other device in its context a shoot-down is over at once. -/
theorem shoot_alone {ctx base npg : Nat} (alone : (s.ctx ctx).devices = [] ∨ (s.ctx ctx).devices = [s.devn]) :
    s.shoot ctx base npg s.devn none =
      { s with tlb := (s.invalidate ctx base npg).tlb, log := s.log ++ [(0x403, ctx)] } := by
  have asks : treeAsks (s.ctx ctx).devices s.fenced s.devn (s.ctx ctx).devices.length s.devn = [] := by
    rcases alone with h | h
    · rw [h]; rfl
    · rw [h]
      simp [treeAsks, treeChildren]
  have few : ((s.ctx ctx).devices.filter (fun d => !s.fenced.contains d)).length ≤ 1 := by
    rcases alone with h | h
    · simp [h]
    · rw [h]
      exact List.length_filter_le _ _
  unfold State.shoot
  dsimp only
  rw [asks]
  refine (if_pos ?_).trans rfl
  rw [State.shootOver]
  exact Bool.and_eq_true_iff.2 ⟨rfl, Bool.or_eq_true_iff.2 (.inr (decide_eq_true few))⟩

/-! ## Timeouts -/

theorem mem_holders (s : State) (d pa : Nat) : d ∈ s.holders pa ↔ d ∈ s.dupHolders.get [] (pa / 65536) ∧ d ∉ s.fenced := by
  simp [State.holders, List.mem_filter]

/-- A fence that only a shoot-down waits on: what it waits for next is not fenced. -/
theorem fenceDev_shoot {x : Shoot} {ctx dev : Nat} (new : dev ∉ s.fenced) (other : dev ≠ s.devn) (dups : s.dupWaits = [])
    (one : s.shoots = [x]) : s.Fenced dev (s.fenceDev ctx dev) ∧ ∀ y ∈ (s.fenceDev ctx dev).shoots, dev ∉ y.waiting := by
  have told := noticed_settled s ctx dev
  rw [fenceDev_eq]
  generalize s.noticed ctx dev = v at told
  have settled := fencing_settled v dev
  have fenced := (fencing_fenced v dev).of_settled told
  rw [fenceLocal_eq (by rwa [told.fenced]) (by rwa [told.devn])]
  have noDups : (v.fencing dev).dupWaits = [] := settled.dupWaits.trans (told.dupWaits.trans dups)
  have oneShoot : (v.fencing dev).shoots = [x] := settled.shoots.trans (told.shoots.trans one)
  generalize v.fencing dev = w at fenced noDups oneShoot
  rw [noDups]
  change s.Fenced dev ((List.range w.shoots.length).reverse.foldl _ w) ∧ ∀ y ∈ ((List.range w.shoots.length).reverse.foldl _ w).shoots, _
  rw [oneShoot]
  change s.Fenced dev (w.shootFenced 0 dev) ∧ ∀ y ∈ (w.shootFenced 0 dev).shoots, _
  have here : dev ∈ w.fenced := fenced.1
  rw [State.shootFenced, oneShoot]
  dsimp only [List.getElem?_cons_zero]
  generalize hm : (if x.waiting.contains dev = true then treeAsks _ _ _ _ _ else []) = more
  have passed : dev ∉ more := by
    rw [← hm]
    split
    · exact not_mem_treeAsks here _ _
    · exact List.not_mem_nil
  have asked := shootAsk_settled w x more
  generalize w.shootAsk x more = a at asked
  have oneA : a.shoots = [x] := asked.shoots.trans oneShoot
  generalize (if more.isEmpty = true then x.sentAt else w.cycle) = at_
  have failed := fenced.settled asked
  rcases shootPut_cases oneA { x with waiting := x.waiting.filter (· != dev) ++ more, sentAt := at_ } with done | waits
  · rw [done]
    have ended := shootDone_settled { a with shoots := [] } { x with waiting := x.waiting.filter (· != dev) ++ more, sentAt := at_ }
    have emptied : s.Fenced dev { a with shoots := [] } := failed
    refine ⟨emptied.settled ended, fun y hy => ?_⟩
    rw [ended.shoots] at hy
    cases hy
  · rw [waits]
    refine ⟨failed, fun y hy => ?_⟩
    rw [List.mem_singleton] at hy
    subst hy
    simp [passed]

/-- A fence that only one duplicated write waits on. -/
theorem fenceDev_dup {w : DupWait} {ctx dev : Nat} {y : Frame} (new : dev ∉ s.fenced) (other : dev ≠ s.devn) (one : s.dupWaits = [w])
    (last : w.waiting = [dev]) (reply : w.reply = some y) (shoots : s.shoots = []) (die : s.dieQ = []) :
    dev ∈ (s.fenceDev ctx dev).fenced ∧ (s.fenceDev ctx dev).dupWaits = [] := by
  have told := noticed_settled s ctx dev
  rw [fenceDev_eq]
  generalize s.noticed ctx dev = v at told
  have settled := fencing_settled v dev
  have here : dev ∈ (v.fencing dev).fenced := (fencing_fenced v dev).1
  rw [fenceLocal_eq (by rwa [told.fenced]) (by rwa [told.devn])]
  have oneW : (v.fencing dev).dupWaits = [w] := settled.dupWaits.trans (told.dupWaits.trans one)
  have noShoots : (v.fencing dev).shoots = [] := settled.shoots.trans (told.shoots.trans shoots)
  have noDie : (v.fencing dev).dieQ = [] := settled.dieQ.trans (told.dieQ.trans die)
  generalize v.fencing dev = a at here oneW noShoots noDie
  rw [oneW]
  have waits : [w].filter (fun w => w.waiting.contains dev) = [w] := by simp [last]
  rw [waits, List.foldl_cons, List.foldl_nil, dupHeard_last oneW last reply noDie]
  have sent := State.Settled.send (.refl { a with dupWaits := [], tags := a.tags.del w.tag }) y
  generalize State.send { a with dupWaits := [], tags := a.tags.del w.tag } y = b at sent
  dsimp only
  rw [sent.shoots]
  change dev ∈ ((List.range a.shoots.length).reverse.foldl _ b).fenced ∧ ((List.range a.shoots.length).reverse.foldl _ b).dupWaits = []
  rw [noShoots]
  exact ⟨by rw [List.length_nil, List.range_zero]; exact sent.fenced ▸ here, sent.dupWaits⟩

/-! ## Translation -/

/-- A cache that holds no entry has none to serve an access from. -/
theorem translateBy_of_no_entry {m cx va : Nat} {st : Bool} (none_ : ∀ e ∈ s.tlb, e.cache ≠ m) :
    s.translateBy (some m) cx va st = { s with tlb := [] }.translateBy (some m) cx va st := by
  have seen (level page : Nat) : s.seen (some m) cx level page = { s with tlb := [] }.seen (some m) cx level page := by
    have out : s.tlb.filter (fun e => (some m).all (· == e.cache) && e.ctx == cx && e.level == level && e.covers page) = [] := by
      rw [List.filter_eq_nil_iff]
      intro e he
      have ne : ¬ m = e.cache := fun h => none_ e he h.symm
      simp [ne]
    rw [State.seen, out]
    rfl
  have below (level page at_ : Nat) : s.below (some m) cx level page at_ = { s with tlb := [] }.below (some m) cx level page at_ := by
    rw [State.below, seen]
    rfl
  have walk (root : Nat) : s.walk (some m) cx root va = { s with tlb := [] }.walk (some m) cx root va := by
    rw [State.walk]
    simp only [below]
    rfl
  have leaf : s.leafFor (some m) cx va = { s with tlb := [] }.leafFor (some m) cx va := by
    rw [State.leafFor]
    rw [walk, seen]
    rfl
  rw [State.translateBy, leaf]
  rfl

/-- Settles O50: each frame, timeout and act has a law of its own; a fence frees the tags of its device and touches no memory, and a tree
asks no device that is fenced. -/
theorem duplicatesShootdownsAndFences : Obligations.DuplicatesShootdownsAndFences := by
  intro s f w r x ctx base npg tag dev n fr l la copy bs ack kept fences
  have kept_iff (c b m : Nat) (e : Tlb) : e ∈ (s.invalidate c b m).tlb ↔ e ∈ s.tlb ∧ kept c b m e := mem_invalidate s c b m e
  refine ⟨fun dst acc => ⟨?_, ?_, ?_, ?_, ?_, ?_, ?_⟩, ?_, ?_, ?_, ?_, ?_, ?_, ?_, ?_⟩
  · exact fun typ unbound => exec_dupUpdate_unbound dst typ acc unbound
  · exact fun typ bound some_ fits plain line => exec_dupUpdate_bound dst typ acc bound some_ fits plain line
  · intro typ one tag waits more
    rw [exec_dupAcknowledgement_of dst typ acc one tag waits, dupHeard_more one more]
  · intro y typ one tag last reply die
    rw [exec_dupAcknowledgement_of dst typ acc one tag (by simp [last]), dupHeard_last one last reply die, tag]
  · intro typ drained
    rw [exec_invalidation, execInvalidation, receive_accepted dst typ acc]
    rw [if_pos drained]
    obtain ⟨tlb, mem, groups, sent⟩ := shoot_shot s f.ctx f.addr.toNat f.aux.toNat (fieldAt f.payload 0 2) (some f.src)
    refine ⟨_, rfl, fun e => ?_, mem, groups, sent⟩
    rw [tlb]
    exact kept_iff _ _ _ e
  · intro typ one hctx hbase hnpg waits
    have made := exec_invalidationAcknowledgement_of dst typ acc one hctx hbase hnpg waits
    refine ⟨fun root few => ?_, fun d parent => ?_⟩
    · rw [made, shootPut_over one, State.shootDone, root]
      rw [State.shootOver]
      exact Bool.and_eq_true_iff.2 ⟨rfl, Bool.or_eq_true_iff.2 (.inr (decide_eq_true few))⟩
    · rw [made, shootPut_over one, State.shootDone, parent]
      · rfl
      · rw [State.shootOver, parent]
        rfl
  · intro typ other new dups shoots
    refine ⟨s.fenceLocal f.addr.toNat, ?_, ?_⟩
    · rw [exec_fenceNotice, execFenceNotice, receive_accepted dst typ acc]
    · rw [fenceLocal_idle new other dups shoots]
      exact fencing_fenced s _
  · intro drained alone
    refine ⟨s.shoot ctx base npg s.devn none, ?_, ?_⟩
    · rw [exec_shootdownRequest, execShootdownRequest, if_pos drained]
    · rw [shoot_alone alone]
      exact ⟨rfl, kept_iff ctx base npg⟩
  · intro one waits late other new dups
    have found : s.shoots.find? (fun x => !x.waiting.isEmpty && decide (x.sentAt + s.shootTimeout ≤ s.cycle)) = some x := by
      rw [one, List.find?_cons_of_pos]
      simp [waits, late]
    refine ⟨s.fenceDev x.ctx dev, ?_, fenceDev_shoot new other dups one⟩
    rw [exec_shootdownTimeout, execShootdownTimeout, found]
    dsimp only
    rw [waits]
    rfl
  · intro found other late new dups shoots
    have told := noticed_settled s (s.tagCtx r) r.dev
    refine ⟨s.fenceDev (s.tagCtx r) r.dev, ?_, ?_⟩
    · rw [exec_replyTimeout, execReplyTimeout, found]
      have early : ¬ s.cycle < r.sentAt + twoMs := Nat.not_lt.2 late
      exact if_neg (by simp [other, early])
    · rw [fenceDev_eq, fenceLocal_idle (by rwa [told.fenced]) (by rwa [told.devn]) (told.dupWaits.trans dups) (told.shoots.trans shoots)]
      exact (fencing_fenced _ _).of_settled told
  · intro one htag last found late other new reply shoots die
    obtain ⟨y, hy⟩ := Option.isSome_iff_exists.1 reply
    have first : s.dupWaits.find? (fun w => w.tag == tag) = some w := by
      rw [one, List.find?_cons_of_pos]
      simp [htag]
    refine ⟨s.fenceDev y.ctx dev, ?_, fenceDev_dup new other one last hy shoots die⟩
    rw [exec_dupAckTimeout, execDupAckTimeout, first, found]
    have early : ¬ s.cycle < r.sentAt + twoMs := Nat.not_lt.2 late
    dsimp only
    rw [if_neg early, hy, last]
    rfl
  · exact fun d pa => mem_holders s d pa
  · exact fun m cx va st none_ => translateBy_of_no_entry none_
  · rfl
  · intro line overflow die
    rw [exec_lineRelocation, execLineRelocation, line]
    dsimp only
    rw [if_pos overflow]
    exact congrArg Host.Outcome.next (retryDie_of_none die)

end Sys2Proof.Machine
end


section
/-! PROOFS. Loads, stores, atomics and notifies that arrive from a peer. -/

namespace Sys2Proof.Machine

open Sys2Proof

variable {s : State} {f : Frame}

/-! ## Ranges within a page and a granule -/

/-- The frame that a range within a page lies in decides (R406). -/
theorem owned_iff (s : State) (ctx : Nat) {la n : Nat} (some_ : 0 < n) (fits : la % 2 ^ 16 + n ≤ 2 ^ 16) :
    s.owned ctx la n = true ↔ s.owners.find (la / 65536) = some ctx := by
  have one : (la + n - 1) / 65536 - la / 65536 + 1 = 1 := by omega
  rw [State.owned, one]
  simp

theorem isHost_granule (la : Nat) : isHost (la / 256 * 256) = isHost la := by
  have low : (0x3D000000000 ≤ la / 256 * 256) = (0x3D000000000 ≤ la) := by rw [eq_iff_iff]; omega
  have high : (la / 256 * 256 < 0x3F000000000) = (la < 0x3F000000000) := by rw [eq_iff_iff]; omega
  simp only [isHost, low, high]

theorem labelAt_granule (s : State) (la : Nat) : s.labelAt (la / 256 * 256) = s.labelAt la := by
  simp only [State.labelAt, isHost_granule, Nat.mul_div_cancel _ (by decide : 0 < 256)]

theorem labelOf_within (s : State) {la n : Nat} (some_ : 0 < n) (fits : la % 256 + n ≤ 256) : s.labelOf la n = s.labelAt la := by
  have one : (la + n - 1) / 256 - la / 256 + 1 = 1 := by omega
  rw [State.labelOf, one]
  change Label.joinAll [s.labelAt (la / 256 * 256)] = _
  rw [labelAt_granule]
  exact BitVec.zero_or

/-- The label of the one granule that a write touches decides (R127). -/
theorem denies_within (s : State) (w : Label) {la n : Nat} (some_ : 0 < n) (fits : la % 256 + n ≤ 256) :
    s.denies w la n = if w.within (s.labelAt la) then none else some (s.labelAt la) := by
  have one : (la + n - 1) / 256 - la / 256 + 1 = 1 := by omega
  rw [State.denies, one]
  change [s.labelAt (la / 256 * 256)].find? _ = _
  rw [labelAt_granule]
  cases h : w.within (s.labelAt la) with
  | true => rw [List.find?_cons_of_neg (by simp [h])]; rfl
  | false => rw [List.find?_cons_of_pos (by simp [h])]; rfl

theorem within_eq_false {a b : Label} (h : ¬ LabelIn a b) : a.within b = false :=
  Bool.eq_false_iff.2 fun e => h ((within_iff_labelIn _ _).1 e)

/-- A page without holders holds no write back (R361). -/
theorem not_dupBusy {pa : Nat} (h : s.holders pa = []) (n : Nat) : s.dupBusy pa n = false := by
  rw [State.dupBusy, h]
  rfl

theorem holders_page {pa qa : Nat} (same : pa / 65536 = qa / 65536) : s.holders pa = s.holders qa := by
  rw [State.holders, State.holders, same]

theorem homeWrite_plain {la : Nat} (h : s.holders (s.devn * 2 ^ 42 + la) = []) (f : Frame) (n : Nat) (reply : Frame) :
    s.homeWrite f la n reply = s.send reply := by
  rw [State.homeWrite, h]
  rfl

/-! ## Store frames (R127, R140) -/

theorem exec_storeFrame_bytes (dst : f.dst = s.devn) (acc : s.accepts f = true) (typ : f.typ = .store)
    (some_ : 0 < (f.payload.take (f.aux.toNat % 512)).length) :
    exec (.storeFrame f) s =
      if (!s.owned f.ctx f.la (f.payload.take (f.aux.toNat % 512)).length) = true then .next (s.refuse f 2 0#16)
      else
        match s.denies f.lbl f.la (f.payload.take (f.aux.toNat % 512)).length with
        | some l => .next (s.refuse f 1 l)
        | none =>
          if s.dupBusy (s.devn * 2 ^ 42 + f.la) (f.payload.take (f.aux.toNat % 512)).length then s.idle
          else
            match s.writeBytes f.line f.la (lineCuts f.la (f.payload.take (f.aux.toNat % 512))) with
            | none => s.idle
            | some s1 => .next (s1.homeWrite f f.la (f.payload.take (f.aux.toNat % 512)).length (s.answer f .ack 0#16 0 [])) := by
  rw [exec_storeFrame, execStoreFrame, receive_accepted dst typ acc]
  dsimp only
  rw [max_eq_left some_] <;> rfl

/-- AUX bit 9 says that a store writes a compressed line (log 20). -/
theorem line_store (typ : f.typ = .store) (plain : f.aux.toNat / 512 % 2 = 0) : f.line = false := by
  rw [Frame.line, typ]
  refine beq_false_of_ne ?_
  change f.aux.toNat / 512 % 2 ≠ 1
  rw [plain]
  decide

/-! ## Atomic frames (R129, R167; log 20) -/

/-- What the frame of an atomic on 32-bit integers asks for. -/
theorem atomic_frame {fn : Nat} (opn : f.opn = BitVec.ofNat 8 fn) (le : fn ≤ 9) :
    f.kind = .atomic fn .s32 ∧ f.size = 4 ∧ f.dropSets = false ∧ bitOf f.opn.toNat 7 = false := by
  have small : f.opn.toNat = fn := by rw [opn]; exact Nat.mod_eq_of_lt (by omega)
  have kind : f.kind = .atomic fn .s32 := by
    unfold Frame.kind
    rw [small]
    interval_cases fn <;> rfl
  refine ⟨kind, ?_, ?_, ?_⟩
  · unfold Frame.size
    rw [kind, small]
    interval_cases fn <;> rfl
  · unfold Frame.dropSets
    rw [small]
    interval_cases fn <;> rfl
  · rw [small]
    interval_cases fn <;> rfl

theorem localOf_here (s : State) (f : Frame) : localOf (s.devn * 2 ^ 42 + f.la) = f.la := by
  rw [localOf, Frame.la, localOf, Nat.mul_add_mod_self_right, Nat.mod_mod]

/-- An atomic frame whose word lies in one page is refused by its label check, or applied (R129, R140, R406). -/
theorem exec_atomicFrame_word {fn : Nat} (dst : f.dst = s.devn) (acc : s.accepts f = true) (typ : f.typ = .atomic)
    (opn : f.opn = BitVec.ofNat 8 fn) (le : fn ≤ 9) (page : f.la % 2 ^ 16 + 4 ≤ 2 ^ 16) (granule : f.la % 256 + 4 ≤ 256)
    (own : s.owners.find (f.la / 65536) = some f.ctx) :
    exec (.atomicFrame f) s =
      match labelCheck (.atomic fn .s32) (BitVec.ofNat 16 (fieldAt f.payload 0 2)) f.lbl (s.labelAt f.la) 0 f.la with
      | some _ => .next (s.refuse f 1 (s.labelAt f.la))
      | none =>
        if s.dupBusy (s.devn * 2 ^ 42 + f.la / 32 * 32) 32 then s.idle
        else
          match s.applyGlobal (BitVec.ofNat 16 (fieldAt f.payload 0 2)) f.lbl (f.src, fieldAt f.payload 8 8) {
            va := f.la, pa := s.devn * 2 ^ 42 + f.la, size := 4, kind := .atomic fn .s32, val := f.aux.toNat % 2 ^ 32,
            cmp := fieldAt f.payload 8 8, line := (s.lines.find (f.la / 128)).isSome } with
          | .blocked => s.idle
          | .bad x => .next (s.send (s.answer f .atomicReply (s.labelAt f.la) x.code []))
          | .ok s1 b => .next (s1.homeWrite f f.la 4 (s.atomicAnswer f (s.labelAt f.la) b.got)) := by
  obtain ⟨kind, size, sets, top⟩ := atomic_frame opn le
  have line : f.line = false := by
    rw [Frame.line, typ]
    exact top
  have owned : s.owned f.ctx f.la 4 = true := (owned_iff s f.ctx (by omega) page).2 own
  rw [exec_atomicFrame, execAtomicFrame, receive_accepted dst typ acc]
  have contrib : (AccKind.atomic fn .s32 == AccKind.contrib) = false := rfl
  have raise : (AccKind.atomic fn .s32 == AccKind.raise) = false := rfl
  have detset : (AccKind.atomic fn .s32 == AccKind.detset) = false := rfl
  simp only [kind, size, sets, line, owned, contrib, raise, detset, labelOf_within s (by omega : 0 < 4) granule, State.atomicSpan,
    Bool.false_eq_true, if_false, Bool.not_true, Bool.false_and, Bool.false_or, if_true, if_neg (by decide : ¬ 4 = 0)] <;> rfl

theorem page_of_sector (d la : Nat) : (d * 2 ^ 42 + la / 32 * 32) / 65536 = (d * 2 ^ 42 + la) / 65536 := by
  have pages : ∃ q, d * 2 ^ 42 = q * 65536 := ⟨d * 2 ^ 26, by rw [Nat.mul_assoc, ← Nat.pow_add 2 26 16]⟩
  obtain ⟨q, pages⟩ := pages
  rw [pages]
  omega

theorem labelCheck_atomic {fn : Nat} {ty : Ty} {clr w gl : Label} (owners : LabelIn gl clr) (within : LabelIn w gl) (n a : Nat) :
    labelCheck (.atomic fn ty) clr w gl n a = none := by
  rw [labelCheck, (within_iff_labelIn _ _).2 owners, (within_iff_labelIn _ _).2 within]
  rfl

theorem labelCheck_atomic_fails {fn : Nat} {ty : Ty} {clr w gl : Label} (bad : ¬ (LabelIn gl clr ∧ LabelIn w gl)) (n a : Nat) :
    ∃ x, labelCheck (.atomic fn ty) clr w gl n a = some x := by
  by_cases owners : LabelIn gl clr
  · have leak : w.within gl = false := within_eq_false fun h => bad ⟨owners, h⟩
    exact ⟨_, by rw [labelCheck, (within_iff_labelIn _ _).2 owners, leak]; rfl⟩
  · exact ⟨_, by rw [labelCheck, within_eq_false owners]; rfl⟩

/-- An atomic frame that its label check lets pass is applied and answered (R129, R167). -/
theorem exec_atomicFrame_applied {fn : Nat} (dst : f.dst = s.devn) (acc : s.accepts f = true) (typ : f.typ = .atomic)
    (opn : f.opn = BitVec.ofNat 8 fn) (le : fn ≤ 9) (page : f.la % 2 ^ 16 + 4 ≤ 2 ^ 16) (granule : f.la % 256 + 4 ≤ 256)
    (own : s.owners.find (f.la / 65536) = some f.ctx) (host : isHost f.la = false)
    (owners : LabelIn (s.labelAt f.la) (BitVec.ofNat 16 (fieldAt f.payload 0 2))) (within : LabelIn f.lbl (s.labelAt f.la))
    (free : s.lines.find (f.la / 128) = none) (sound : s.poisoned f.la 4 = false) (alone : s.holders (s.devn * 2 ^ 42 + f.la) = []) :
    exec (.atomicFrame f) s =
      .next ((s.writeMem f.la (bytesOf (atomicNew fn .s32 (s.readNat f.la 4) (f.aux.toNat % 2 ^ 32) (fieldAt f.payload 8 8)) 4)).send
        (s.answer f .atomicReply (s.labelAt f.la) 0 (bytesOf (s.readNat f.la 4) 8))) := by
  have quiet : s.dupBusy (s.devn * 2 ^ 42 + f.la / 32 * 32) 32 = false :=
    not_dupBusy ((holders_page (page_of_sector s.devn f.la)).trans alone) 32
  have here : localOf (s.devn * 2 ^ 42 + f.la) = f.la := localOf_here s f
  have gran : s.labelOf f.la 4 = s.labelAt f.la := labelOf_within s (by decide) granule
  have applied := applyGlobal_atomic (s := s) (c := BitVec.ofNat 16 (fieldAt f.payload 0 2)) (w := f.lbl) (p := (f.src, fieldAt f.payload 8 8))
    (a := { va := f.la, pa := s.devn * 2 ^ 42 + f.la, size := 4, kind := .atomic fn .s32
            val := f.aux.toNat % 2 ^ 32, cmp := fieldAt f.payload 8 8, line := (s.lines.find (f.la / 128)).isSome }) rfl
    (by rw [free]; rfl) (by rw [here]; exact host) rfl (by rw [here]; exact sound) (by rw [here, gran]; exact owners)
    (by rw [here, gran]; exact within)
  dsimp only at applied
  rw [here, gran] at applied
  rw [exec_atomicFrame_word dst acc typ opn le page granule own, labelCheck_atomic owners within, quiet, applied]
  exact congrArg Host.Outcome.next (homeWrite_plain
    (s := s.writeMem f.la (bytesOf (atomicNew fn .s32 (s.readNat f.la 4) (f.aux.toNat % 2 ^ 32) (fieldAt f.payload 8 8)) 4)) alone f 4 _)

theorem exec_atomicFrame_refused {fn : Nat} (dst : f.dst = s.devn) (acc : s.accepts f = true) (typ : f.typ = .atomic)
    (opn : f.opn = BitVec.ofNat 8 fn) (le : fn ≤ 9) (page : f.la % 2 ^ 16 + 4 ≤ 2 ^ 16) (granule : f.la % 256 + 4 ≤ 256)
    (own : s.owners.find (f.la / 65536) = some f.ctx)
    (bad : ¬ (LabelIn (s.labelAt f.la) (BitVec.ofNat 16 (fieldAt f.payload 0 2)) ∧ LabelIn f.lbl (s.labelAt f.la))) :
    exec (.atomicFrame f) s = .next (s.refuse f 1 (s.labelAt f.la)) := by
  obtain ⟨x, fails⟩ := labelCheck_atomic_fails (fn := fn) (ty := .s32) bad 0 f.la
  rw [exec_atomicFrame_word dst acc typ opn le page granule own, fails]

/-! ## Notify frames (R411) -/

theorem exec_notifyArrival_none (dst : f.dst = s.devn) (acc : s.accepts f = true) (typ : f.typ = .notify)
    (none_ : ∀ e ∈ s.grids, ¬ (e.2.admitted = true ∧ e.2.retired = false ∧ e.2.ctx = f.ctx ∧ e.2.hash = BitVec.ofNat 512 (fieldAt f.payload 8 64))) :
    exec (.notifyArrival f) s = .next (s.refuse f 3 0#16) := by
  have cands : s.grids.filter (fun e => e.2.admitted && !e.2.retired && e.2.ctx == f.ctx
      && e.2.hash == BitVec.ofNat 512 (fieldAt f.payload 8 64)) = [] := by
    rw [List.filter_eq_nil_iff]
    intro e he good
    exact none_ e he (by simpa [and_assoc] using good)
  rw [exec_notifyArrival, execNotifyArrival, receive_accepted dst typ acc]
  simp only [cands]
  rfl

theorem refOff_eq (r : DWord) : refOff r = r.toNat % 2 ^ 20 := by
  rw [refOff, bitsOf, Nat.pow_zero, Nat.div_one]

/-- The arrival that a notify frame names. -/
def State.notified (s : State) (f : Frame) (gr : Nat) : Held :=
  { grid := gr, teamix := refTeam f.aux, off := refOff f.aux, count := fieldAt f.payload 0 4, lbl := f.lbl,
    err := fieldAt f.payload 4 4 != 0, reply := some (s.answer f .ack 0#16 0 []) }

theorem exec_notifyArrival_one {gr : Nat} {x : Grid} (dst : f.dst = s.devn) (acc : s.accepts f = true) (typ : f.typ = .notify)
    (one : s.grids = [(gr, x)]) (adm : x.admitted = true) (ret : x.retired = false) (ctx : x.ctx = f.ctx)
    (hash : x.hash = BitVec.ofNat 512 (fieldAt f.payload 8 64)) (zero : f.aux.toNat / 2 ^ 52 % 4 = 0) :
    exec (.notifyArrival f) s =
      match s.arriveAt (s.notified f gr) with
      | .wait => s.idle
      | .rejected => .next (s.refuse f 3 0#16)
      | .badLabel l => .next (s.refuse f 1 l)
      | .ok s1 => .next s1 := by
  have bits : bitsOf f.aux.toNat 52 2 = 0 := zero
  rw [exec_notifyArrival, execNotifyArrival, receive_accepted dst typ acc, one]
  have cands : [(gr, x)].filter (fun e => e.2.admitted && !e.2.retired && e.2.ctx == f.ctx
      && e.2.hash == BitVec.ofNat 512 (fieldAt f.payload 8 64)) = [(gr, x)] := by
    rw [List.filter_cons_of_pos (by simp [adm, ret, ctx, hash])]
    rfl
  simp only [cands, List.foldl_cons, List.foldl_nil, bits]
  rfl

/-- The outcome of an arrival at the marked cell of a resident team (R186). -/
theorem arriveAt_resident {h : Held} {t : Nat} {x : Grid} {y : Team} (grid : s.grid h.grid = x) (teams : s.teams = [(t, y)])
    (mine : h.isFor y = true) (index : h.teamix < x.rec_.n) (ok : barOk x.rec_ h.off = true) (state : y.state = .resident)
    (marked : y.marked? h.off = true) : s.arriveAt h =
      match y.arrive h.off h.count h.lbl h.err with
      | some z => .ok ((s.setTeam t z).heldDone h none)
      | none => .badLabel (y.barrier h.off).lbl := by
  have bounds : ¬ (x.rec_.n ≤ h.teamix ∨ (!barOk x.rec_ h.off) = true) := by simp [ok, index]
  have found : s.teams.find? (fun e => h.isFor e.2) = some (t, y) := by
    rw [teams, List.find?_cons_of_pos]
    exact mine
  rw [State.arriveAt, grid, if_neg (by simpa using bounds), found]
  dsimp only
  rw [state]
  dsimp only
  rw [if_pos marked] <;> rfl

/-- A notify for a marked barrier of the one resident team that it names arrives, or its label is refused (R186, R411). -/
theorem exec_notifyArrival_resident {gr t : Nat} {x : Grid} (dst : f.dst = s.devn) (acc : s.accepts f = true) (typ : f.typ = .notify)
    (one : s.grids = [(gr, x)]) (adm : x.admitted = true) (ret : x.retired = false) (ctx : x.ctx = f.ctx)
    (hash : x.hash = BitVec.ofNat 512 (fieldAt f.payload 8 64)) (zero : f.aux.toNat / 2 ^ 52 % 4 = 0) (teams : s.teams = [(t, s.team t)])
    (grid : (s.team t).grid = gr) (index : (s.team t).teamix = refTeam f.aux) (bound : (s.team t).teamix < x.rec_.n)
    (state : (s.team t).state = .resident) (ok : barOk x.rec_ (refOff f.aux) = true) (marked : (s.team t).marked? (refOff f.aux) = true) :
    exec (.notifyArrival f) s =
      if f.lbl.within ((s.team t).barrier (refOff f.aux)).lbl then
        .next ((s.setTeam t ((s.team t).setBarrier (refOff f.aux)
          (((s.team t).barrier (refOff f.aux)).arrive (fieldAt f.payload 0 4) (fieldAt f.payload 4 4 != 0)))).send (s.answer f .ack 0#16 0 []))
      else .next (s.refuse f 1 ((s.team t).barrier (refOff f.aux)).lbl) := by
  have whole : s.grid (s.notified f gr).grid = x := by
    rw [State.notified, State.grid, one, Tab.get, if_pos rfl]
  have mine : (s.notified f gr).isFor (s.team t) = true := by
    simp [State.notified, Held.isFor, grid, index]
  have arrives := arriveAt_resident whole teams mine (lt_of_eq_of_lt index.symm bound) ok state marked
  rw [exec_notifyArrival_one dst acc typ one adm ret ctx hash zero, arrives]
  change (match (match (s.team t).arrive (refOff f.aux) (fieldAt f.payload 0 4) f.lbl (fieldAt f.payload 4 4 != 0) with
      | some z => Arrival.ok ((s.setTeam t z).heldDone (s.notified f gr) none)
      | none => Arrival.badLabel ((s.team t).barrier (refOff f.aux)).lbl) with
    | .wait => s.idle
    | .rejected => .next (s.refuse f 3 0#16)
    | .badLabel l => .next (s.refuse f 1 l)
    | .ok s1 => .next s1) = _
  rw [Team.arrive]
  cases f.lbl.within ((s.team t).barrier (refOff f.aux)).lbl <;> rfl

/-- Settles O48: a request within one page and granule is decided by the owner of the frame and the granule's label, and what it asks
for is then done; a notify by the grid that it names and the label of the barrier. -/
theorem requestsAtTheTarget : Obligations.RequestsAtTheTarget := by
  intro s f fn gr x t la n bs gl reply refuse one dst acc
  have la_eq : f.la = la := rfl
  refine ⟨fun typ => ⟨fun own sound => ?_, fun other => ?_⟩, fun typ fits some_ => ?_, fun typ host opn le fits own => ?_, fun typ => ?_⟩
  · have owned : s.owned f.ctx f.la 1 = true := (owned_iff s f.ctx (by omega) (by omega)).2 own
    rw [exec_loadRequest, execLoadRequest, receive_accepted dst typ acc]
    simp only [owned, Bool.not_true, Bool.false_eq_true, if_false]
    rw [la_eq, if_neg (Bool.eq_false_iff.1 sound)]
    rfl
  · have owned : s.owned f.ctx f.la 1 = false := Bool.eq_false_iff.2 fun h => other ((owned_iff s f.ctx (by omega) (by omega)).1 h)
    rw [exec_loadRequest, execLoadRequest, receive_accepted dst typ acc]
    simp only [owned, Bool.not_false, if_true]
    rfl
  · obtain ⟨page, granule, line⟩ := fits
    have pos : 0 < bs.length := List.length_pos_iff.2 some_
    have run := exec_storeFrame_bytes dst acc typ pos
    refine ⟨fun other => ?_, fun own leak => ?_, fun own within plain free alone => ?_⟩
    · have owned : s.owned f.ctx la bs.length = false := Bool.eq_false_iff.2 fun h => other ((owned_iff s f.ctx pos page).1 h)
      rw [run, la_eq, owned]
      rfl
    · have owned : s.owned f.ctx la bs.length = true := (owned_iff s f.ctx pos page).2 own
      rw [run, la_eq, owned, denies_within s f.lbl pos granule, within_eq_false leak]
      rfl
    · have owned : s.owned f.ctx la bs.length = true := (owned_iff s f.ctx pos page).2 own
      have unpacked : f.line = false := line_store typ plain
      rw [run, la_eq, owned, denies_within s f.lbl pos granule, (within_iff_labelIn _ _).2 within, not_dupBusy alone, unpacked]
      simp only [Bool.not_true, Bool.false_eq_true, if_false, if_true]
      rw [writeBytes_plain line free]
      exact congrArg Host.Outcome.next (homeWrite_plain (s := s.writeMem la bs) alone f bs.length _)
  · obtain ⟨page, granule, -⟩ := fits
    exact ⟨fun owners within free sound alone =>
        exec_atomicFrame_applied dst acc typ opn le page granule own host owners within free sound alone,
      fun bad => exec_atomicFrame_refused dst acc typ opn le page granule own bad⟩
  · intro hash off y b
    refine ⟨fun none_ => exec_notifyArrival_none dst acc typ none_, ?_⟩
    intro one_ adm ret ctx hash_ teams grid index bound state zero aligned room marked
    have off_eq : refOff f.aux = off := refOff_eq f.aux
    have fits : barOk x.rec_ off = true := barOk_of_fits ⟨aligned, room⟩
    have run := exec_notifyArrival_resident dst acc typ one_ adm ret ctx hash_ zero teams grid index bound state
      (by rw [off_eq]; exact fits) (by rw [off_eq]; exact marked)
    rw [off_eq] at run
    refine ⟨fun within => ?_, fun leak => ?_⟩
    · rw [run]
      exact if_pos ((within_iff_labelIn _ _).2 within)
    · rw [run]
      exact if_neg (Bool.eq_false_iff.1 (within_eq_false leak))

end Sys2Proof.Machine
end


section
/-! PROOFS. Replies settle the access that they name; a frame that is not in order is discarded. -/

namespace Sys2Proof.Machine

open Sys2Proof

variable {s : State} {f : Frame} {r : TagRef} {o : Op} {a : Acc}

/-! ## The request that a reply answers -/

theorem request_none (h : s.tags.find f.tag = none) : s.request f = none := by rw [State.request, h]

theorem request_some (h : s.tags.find f.tag = some r) (dev : r.dev = f.src) : s.request f = some r := by
  rw [State.request, h]
  exact if_pos dev

/-- A reply frees its tag and settles the access that the tag names. -/
theorem answered_access (op : (s.group r.g).op r.op = some o) (acc : o.accs[r.k]? = some a) (tag : Nat) (fail : Option Flt) (upd : Acc → Acc) :
    s.answered tag r fail upd = State.setGroup { s with tags := s.tags.del tag } r.g
      ((s.group r.g).setOp { o with accs := o.accs.set r.k (upd a), fail := o.fail.or fail }) := by
  rw [State.answered, op]
  dsimp only
  rw [acc]
  rfl

theorem tagAddr_access (op : (s.group r.g).op r.op = some o) (acc : o.accs[r.k]? = some a) : s.tagAddr r = a.va := by
  rw [State.tagAddr, op]
  dsimp only
  rw [acc]

theorem tagLabel_access (op : (s.group r.g).op r.op = some o) (acc : o.accs[r.k]? = some a) : s.tagLabel r = o.lbl ||| a.lbl := by
  rw [State.tagLabel, op]
  dsimp only
  rw [acc]
  rfl

theorem tagAtomic_access (op : (s.group r.g).op r.op = some o) (acc : o.accs[r.k]? = some a) :
    s.tagAtomic r = (a.kind.isLoad && a.kind.isStore) := by
  rw [State.tagAtomic, op]
  dsimp only
  rw [acc]

/-- LABEL_MSG of a rejected message (R129, R140, R145). -/
theorem fltRejected_access (op : (s.group r.g).op r.op = some o) (acc : o.accs[r.k]? = some a) (l : Label) :
    s.fltRejected r l =
      if a.kind.isLoad = true ∧ a.kind.isStore = true ∧ l ||| s.clr r.g ≠ s.clr r.g then fltMsg 1 l (s.clr r.g) a.va
      else fltMsg 1 (o.lbl ||| a.lbl) l a.va := by
  have cond : (s.tagAtomic r && !l.within (s.clr r.g)) = true ↔
      a.kind.isLoad = true ∧ a.kind.isStore = true ∧ l ||| s.clr r.g ≠ s.clr r.g := by
    simp [tagAtomic_access op acc, Label.within, and_assoc]
  simp only [State.fltRejected, cond, tagAddr_access op acc, tagLabel_access op acc]

/-- The fault of a rejected access (R140, R406, R411). -/
theorem rejected_eq (op : (s.group r.g).op r.op = some o) (acc : o.accs[r.k]? = some a) (l : Label) (why : Nat) :
    (if why = 1 then s.fltRejected r l else if why = 2 then fltLease (s.tagAddr r) else fltIllegalAt (s.tagAddr r)) =
      if why = 1 ∧ a.kind.isLoad = true ∧ a.kind.isStore = true ∧ l ||| s.clr r.g ≠ s.clr r.g then
        ({ code := 0x08, sub := 1, flbl := l, clbl := s.clr r.g, faddr := a.va } : Flt)
      else if why = 1 then { code := 0x08, sub := 1, flbl := o.lbl ||| a.lbl, clbl := l, faddr := a.va }
      else { code := if why = 2 then 0x04 else 0x01, faddr := a.va } := by
  rw [fltRejected_access op acc, tagAddr_access op acc]
  by_cases one : why = 1
  · simp only [one, if_true, true_and]
    rfl
  · by_cases two : why = 2
    · simp only [two, if_true]
      rfl
    · simp only [one, two, if_false, false_and]
      rfl

theorem atomicCause_eq (aux : DWord) :
    atomicCause aux = if aux.toNat % 256 = 0x01 ∨ aux.toNat % 256 = 0x14 then aux.toNat % 256 else 0x0E := by
  simp only [atomicCause, Bool.or_eq_true, decide_eq_true_eq]

/-! ## Frames that are not in order (R409, R429) -/

theorem receive_discards {ty : FrameType} (dst : f.dst = s.devn) (typ : f.typ = ty ∨ f.typ = .unlisted) (bad : s.accepts f = false)
    (k : State → Out) : s.receive ty f k = .next { s with discards := s.discards + 1 } := by
  have here : ¬ (f.dst ≠ s.devn ∨ (f.typ != ty && f.typ != .unlisted) = true) := by
    rcases typ with h | h <;> simp [dst, h]
  rw [State.receive, if_neg (by simpa using here), if_neg (Bool.eq_false_iff.1 bad)]
  rfl

/-- What it takes for a frame to be accepted. -/
theorem accepts_iff (s : State) (f : Frame) : s.accepts f = true ↔
    f.typ ≠ .unlisted ∧ f.vl ≤ 5 ∧ f.payload.length ≤ 256 ∧ f.clean = true ∧ f.authentic = true ∧
      ∃ c, s.ctxs.find f.ctx = some c ∧ c.accepts f.kgen = true := by
  have flits : f.npf ≤ 8 ↔ f.payload.length ≤ 256 := by rw [Frame.npf]; omega
  simp [State.accepts, flits, Option.any_eq_true, and_assoc]

theorem ctx_accepts_iff (c : Ctx) (g : BitVec 2) :
    c.accepts g = true ↔ g = BitVec.ofNat 2 c.cur ∨ ∃ p, c.prev = some p ∧ g = BitVec.ofNat 2 p := by
  simp [Ctx.accepts, Option.any_eq_true]

/-- The events of arriving frames that are receptions of a type, whatever is done with the frame then. -/
theorem exec_receives (s : State) (f : Frame) : ∀ e ∈
    [(Instr.loadRequest f, FrameType.loadRequest), (.loadReply f, .loadReply), (.storeFrame f, .store), (.acknowledgement f, .ack),
     (.atomicFrame f, .atomic), (.atomicReply f, .atomicReply), (.notifyArrival f, .notify), (.rejection f, .rejection),
     (.invalidation f, .invalidation), (.invalidationAcknowledgement f, .invalidationAck), (.fenceNotice f, .fenceNotice),
     (.dupUpdate f, .dupUpdate), (.dupAcknowledgement f, .dupAck), (.resultChunk f, .resultChunk)],
    ∃ k, exec e.1 s = s.receive e.2 f k := by
  simp only [List.forall_mem_cons, List.not_mem_nil, false_implies, implies_true, and_true]
  exact ⟨⟨_, exec_loadRequest f s⟩, ⟨_, exec_loadReply f s⟩, ⟨_, exec_storeFrame f s⟩, ⟨_, exec_acknowledgement f s⟩, ⟨_, exec_atomicFrame f s⟩, ⟨_, exec_atomicReply f s⟩, ⟨_, exec_notifyArrival f s⟩, ⟨_, exec_rejection f s⟩, ⟨_, exec_invalidation f s⟩, ⟨_, exec_invalidationAcknowledgement f s⟩, ⟨_, exec_fenceNotice f s⟩, ⟨_, exec_dupUpdate f s⟩, ⟨_, exec_dupAcknowledgement f s⟩, ⟨_, exec_resultChunk f s⟩⟩

/-! ## Replies (R126, R129, R140, R407) -/

theorem exec_reply_unasked (dst : f.dst = s.devn) (acc : s.accepts f = true) (none_ : s.tags.find f.tag = none) : ∀ e ∈
    [(Instr.loadReply f, FrameType.loadReply), (.acknowledgement f, .ack), (.atomicReply f, .atomicReply), (.rejection f, .rejection)],
    f.typ = e.2 → exec e.1 s = .next s := by
  have req := request_none none_
  simp only [List.forall_mem_cons, List.not_mem_nil, false_implies, implies_true, and_true]
  refine ⟨fun t => ?_, fun t => ?_, fun t => ?_, fun t => ?_⟩
  · rw [exec_loadReply, execLoadReply, receive_accepted dst t acc, req]
    rfl
  · rw [exec_acknowledgement, execAcknowledgement, receive_accepted dst t acc, req]
    rfl
  · rw [exec_atomicReply, execAtomicReply, receive_accepted dst t acc, req]
    rfl
  · rw [exec_rejection, execRejection, receive_accepted dst t acc, req]
    rfl

section
variable (dst : f.dst = s.devn) (acc : s.accepts f = true) (req : s.request f = some r)
include dst acc req

theorem exec_loadReply_own (own : r.g = noGroup) (typ : f.typ = .loadReply) (some_ : f.payload ≠ []) : exec (.loadReply f) s =
    .next { s with tags := s.tags.del f.tag, ownReads := s.ownReads.put (ownKey r.ctx r.k) (f.payload, f.lbl) } := by
  rw [exec_loadReply, execLoadReply, receive_accepted dst typ acc, req]
  dsimp only
  rw [if_pos own, State.ownReply, if_neg (by simpa using some_)]

theorem exec_acknowledgement_asked (typ : f.typ = .ack) :
    exec (.acknowledgement f) s = .next (s.answered f.tag r none (fun a => { a with done := true })) := by
  rw [exec_acknowledgement, execAcknowledgement, receive_accepted dst typ acc, req]

theorem exec_loadReply_data (other : r.g ≠ noGroup) (typ : f.typ = .loadReply) (some_ : f.payload ≠ []) :
    exec (.loadReply f) s = .next
      (s.answered f.tag r none (fun a => { a with done := true, glbl := f.lbl, got := fieldAt f.payload (a.pa % 32) a.size })) := by
  rw [exec_loadReply, execLoadReply, receive_accepted dst typ acc, req]
  dsimp only
  rw [if_neg other, if_neg (by simpa using some_)]

theorem exec_loadReply_empty (other : r.g ≠ noGroup) (typ : f.typ = .loadReply) (empty : f.payload = []) :
    exec (.loadReply f) s = .next
      (s.answered f.tag r (some { code := 0x0E, faddr := s.tagAddr r }) (fun a => { a with done := true, glbl := f.lbl })) := by
  rw [exec_loadReply, execLoadReply, receive_accepted dst typ acc, req]
  dsimp only
  rw [if_neg other, if_pos (by simpa using empty)]

theorem exec_atomicReply_data (typ : f.typ = .atomicReply) (some_ : f.payload ≠ []) :
    exec (.atomicReply f) s = .next
      (s.answered f.tag r none (fun a => { a with done := true, glbl := f.lbl, got := fieldAt f.payload 0 a.size })) := by
  rw [exec_atomicReply, execAtomicReply, receive_accepted dst typ acc, req]
  dsimp only
  rw [if_neg (by simpa using some_)]

theorem exec_atomicReply_empty (typ : f.typ = .atomicReply) (empty : f.payload = []) :
    exec (.atomicReply f) s = .next
      (s.answered f.tag r (some { code := atomicCause f.aux, faddr := s.tagAddr r })
        (fun a => { a with done := true, glbl := f.lbl, got := fieldAt f.payload 0 a.size })) := by
  rw [exec_atomicReply, execAtomicReply, receive_accepted dst typ acc, req]
  dsimp only
  rw [if_pos (by simpa using empty)]

/-- The fault that a rejection stands for (R140, R406, R411). -/
theorem exec_rejection_asked (other : r.g ≠ noGroup) (typ : f.typ = .rejection) :
    exec (.rejection f) s = .next (s.answered f.tag r
      (some (if f.aux.toNat % 256 = 1 then s.fltRejected r f.lbl
        else if f.aux.toNat % 256 = 2 then fltLease (s.tagAddr r) else fltIllegalAt (s.tagAddr r)))
      (fun x => { x with done := true, lease := true })) := by
  rw [exec_rejection, execRejection, receive_accepted dst typ acc, req]
  dsimp only
  rw [if_neg (by simp [other])]
  split
  case h_1 why => rw [if_pos why]
  case h_2 why => rw [if_neg (by omega), if_pos why]
  case h_3 one two => rw [if_neg one, if_neg two]

end

/-- Settles O49: a reply finds the request of its tag, whose access it settles; and a frame that is not accepted is counted alone. -/
theorem repliesAtTheSender : Obligations.RepliesAtTheSender := by
  refine ⟨?_, ?_⟩
  · intro s f r o a g settled dst acc
    refine ⟨fun none_ => exec_reply_unasked dst acc none_, fun tag dev own typ some_ => ?_,
      fun tag dev other op at_ => ⟨fun typ some_ => ?_, fun typ empty => ?_, fun typ => ?_, fun typ some_ => ?_, fun typ empty => ?_,
        fun typ => ?_⟩⟩
    · exact exec_loadReply_own dst acc (request_some tag dev) own typ some_
    · rw [exec_loadReply_data dst acc (request_some tag dev) other typ some_, answered_access op at_]
    · rw [exec_loadReply_empty dst acc (request_some tag dev) other typ empty, answered_access op at_, tagAddr_access op at_]
    · rw [exec_acknowledgement_asked dst acc (request_some tag dev) typ, answered_access op at_]
    · have cons : f.payload ≠ [] := fun h => by simp [h] at some_
      rw [exec_atomicReply_data dst acc (request_some tag dev) typ cons, answered_access op at_]
    · have zero : fieldAt f.payload 0 a.size = 0 := by simp [empty, fieldAt, ofBytes]
      rw [exec_atomicReply_empty dst acc (request_some tag dev) typ empty, answered_access op at_, tagAddr_access op at_, zero,
        atomicCause_eq]
    · intro clr why flt
      rw [exec_rejection_asked dst acc (request_some tag dev) other typ, answered_access op at_, rejected_eq op at_]
  · intro s f dst held good events e he typ bad
    obtain ⟨k, receives⟩ := exec_receives s f e he
    rw [receives]
    refine receive_discards dst typ (Bool.eq_false_iff.2 fun acc => bad ?_) k
    obtain ⟨listed, lane, len, clean, auth, c, found, gen⟩ := (accepts_iff s f).1 acc
    refine ⟨listed, lane, len, clean, auth, ?_⟩
    dsimp only [held]
    rw [found]
    exact (ctx_accepts_iff c f.kgen).1 gen

end Sys2Proof.Machine
end


section
/-! PROOFS. Contributions and result chunks of collectives. -/

namespace Sys2Proof.Machine

open Sys2Proof

variable {s : State} {f : Frame} {c : Ctx} {r : Reducer}

/-! ## A frame comes in (R409, R417, R430) -/

theorem npf_le {f : Frame} (len : f.payload.length ≤ 256) : f.npf ≤ 8 := by
  rw [Frame.npf]
  omega

theorem receiveContribution_in {ty : FrameType} (dst : f.dst = s.devn) (vl : f.vl ≤ 5) (len : f.payload.length ≤ 256) (clean : f.clean = true)
    (ctx : s.ctxs.find f.ctx = some c) (typ : f.typ = ty) (listed : ty ≠ .unlisted) (folded : Bool) :
    s.receiveContribution ty f folded =
      if !c.accepts f.kgen then (match s.contribBad f folded with | some s1 => .next s1 | none => s.idle)
      else if !f.authentic then .next s.discard
      else (match s.contribIn f folded with | some s1 => .next s1 | none => s.idle) := by
  have here : ¬ ((decide (f.dst ≠ s.devn) || (f.typ != ty && f.typ != .unlisted)) = true) := by simp [dst, typ]
  have ordered : ¬ ((f.typ == .unlisted || decide (5 < f.vl) || decide (8 < f.npf) || !f.clean) = true) := by
    have flits := npf_le len
    simp [typ, listed, clean]
    omega
  rw [State.receiveContribution, if_neg here, ctx]
  dsimp only
  rw [if_neg ordered] <;> rfl

theorem contribIn_eq (room : s.reducer f.ctx (f.addr.toNat % 2 ^ 32) = some r) (folded : Bool) : s.contribIn f folded =
    some (s.reduce (if firstFrame f folded then { r with firsts := r.firsts ++ [(f.src, readParams f.payload)] }
      else
        { r with got := r.got ++ [contribOf f folded],
                 briefs := if folded || r.briefs.any (fun x => x.1 == f.src) then r.briefs else r.briefs ++ [(f.src, readBrief f)] })) := by
  rw [State.contribIn, room]
  rfl

theorem contribBad_eq (room : s.reducer f.ctx (f.addr.toNat % 2 ^ 32) = some r) (folded : Bool) : s.contribBad f folded =
    some (s.reduce (if firstFrame f folded then { r with late := r.late ++ [f.src] }
      else { r with bad := r.bad ++ [{ contribOf f folded with words := [] }] })) := by
  rw [State.contribBad, room]
  rfl

theorem reducer_of_none (none_ : s.reducers = []) (ctx cid : Nat) : s.reducer ctx cid = some { ctx := ctx, cid := cid } := by
  rw [State.reducer, none_]
  rfl

theorem reducer_of_one {ctx cid : Nat} (one : s.reducers = [r]) (hctx : r.ctx = ctx) (hcid : r.cid = cid) : s.reducer ctx cid = some r := by
  rw [State.reducer, one, List.find?_cons_of_pos (by simp [hctx, hcid])]

/-! ## The reducer with nothing to send -/

theorem reduce_quiet (faulty : r.faulty = false) (rej : r.rejected = false) (ready : r.ready = []) (done : r.over_ = false)
    (others : s.reducers.filter (fun x => !(x.ctx == r.ctx && x.cid == r.cid)) = []) : s.reduce r = { s with reducers := [r] } := by
  have same : { r with rejected := r.rejected || r.faulty } = r := by rw [faulty, rej]; cases r; cases rej; rfl
  have sent : { r with sent := r.sent ++ [], rejected := r.rejected || r.faulty } = r := by rw [List.append_nil, same]
  simp only [State.reduce, same, ready, List.map_nil, List.flatMap_nil, List.filter_nil, List.foldl_nil, others, List.nil_append, sent, done,
    Bool.false_eq_true, if_false]

theorem faulty_of_unknown (none_ : r.known = []) : r.faulty = false := by rw [Reducer.faulty, none_]

theorem over_of_unknown (none_ : r.known = []) : r.over_ = false := by rw [Reducer.over_, none_]; rfl

theorem ready_of_no_devs (none_ : r.devs = []) : r.ready = [] := by rw [Reducer.ready, none_]; rfl

theorem agree_self (p : CollParams) : p.agree p = true := by simp [CollParams.agree]

/-- One known device of several, whose parts do not repeat, makes no fault. -/
theorem faulty_of_one {d : Nat} {p : CollParams} (one : r.known = [(d, p)]) (firsts : (r.firsts.map (·.1)).eraseDups.length = r.firsts.length)
    (several : 2 ≤ p.npeer) (twice : r.twice = false) (plain : ∀ x ∈ r.got, x.folded = false) (counts : ∀ x ∈ r.got, r.counts x.chunk x.part ≤ p.npeer) :
    r.faulty = false := by
  have notAll : (1 == p.npeer) = false := beq_false_of_ne (by omega)
  have noFold : r.got.any (fun x => x.folded && p.mode != 3) = false := by
    rw [List.any_eq_false]
    intro x hx
    simp [plain x hx]
  have fits : r.got.any (fun x => decide (p.npeer < r.counts x.chunk x.part)) = false := by
    rw [List.any_eq_false]
    intro x hx
    simpa using counts x hx
  rw [Reducer.faulty, one]
  dsimp only
  rw [firsts, twice, noFold, fits]
  have rank : [p.rank].eraseDups.length = 1 := rfl
  simp [agree_self, notAll, rank]

theorem over_of_one {d : Nat} {p : CollParams} (one : r.known = [(d, p)]) (peers : r.peers.length = 1) (several : 2 ≤ p.npeer) : r.over_ = false := by
  have more : decide ((r.known.map (·.2.npeer)).foldl max 1 ≤ r.peers.length) = false := by
    rw [one, peers]
    simp
    omega
  rw [Reducer.over_, more, Bool.and_false, Bool.false_and]

/-- A reducer that has heard of one device of several sends it no chunk but those that name it. -/
theorem ready_of_one {d : Nat} {p : CollParams} (one : r.known = [(d, p)]) (peers : r.peers.length = 1) (several : 2 ≤ p.npeer)
    (devs : r.devs = [d]) (rej : r.rejected = false) (errs : ∀ e ∈ r.errs, e = (0, d)) (sent : r.errs ≠ [] → r.sent.contains (0, d) = true) :
    r.ready = [] := by
  have few : ∀ q, r.complete p q = false := fun q => by
    have : (r.peers.length == p.npeer) = false := beq_false_of_ne (by omega)
    rw [Reducer.complete, this, Bool.false_and]
  rw [Reducer.ready, devs, one, List.flatMap_cons, List.flatMap_nil, List.append_nil, List.filterMap_eq_nil_iff]
  intro c _
  by_cases first : r.sent.contains (c, d) = true
  · rw [if_pos first]
  · have other : ∀ e ∈ r.errs, e.1 ≠ c := fun e he same => by
      have zero := errs e he
      have some_ : r.errs ≠ [] := List.ne_nil_of_mem he
      rw [zero] at same
      exact first (same ▸ sent some_)
    have notErr : r.errs.contains (c, d) = false := by
      rw [Bool.eq_false_iff, Ne, List.contains_iff_mem]
      exact fun h => other _ h rfl
    have noErr : r.errs.any (fun b => b.1 == c) = false := by
      rw [List.any_eq_false]
      exact fun e he => by simpa using other e he
    rw [if_neg first, notErr, rej, noErr, List.headD_cons, few]
    rfl

/-- A reducer that knows no parameters and has one refused contribution answers its device (R430). -/
theorem reduce_refused {d ch : Nat} (known : r.known = []) (firsts : r.firsts = []) (errs : r.errs = [(ch, d)]) (rej : r.rejected = false)
    (sent : r.sent = []) (none_ : s.reducers = []) (away : d ≠ s.devn) : s.reduce r =
      State.send { s with reducers := [{ r with sent := [(ch, d)] }] }
        (s.collFrame .resultChunk d r.ctx r.cid ch (readParams []).rop (readParams []).ety (r.chunkLbl ch) 0 (partBytes 0 2 (bytesOf 0 20) [])) := by
  have same : { r with rejected := r.rejected || r.faulty } = r := by rw [faulty_of_unknown known, rej]; cases r; cases rej; rfl
  have ready : r.ready = [(d, ch, [partBytes 0 2 (bytesOf 0 20) []])] := by
    have devs : r.devs = [d] := by rw [Reducer.devs, firsts, errs]; rfl
    have chunks : (r.errs.map (·.1)).eraseDups = [ch] := by rw [errs]; rfl
    rw [Reducer.ready, devs, known, List.flatMap_cons, List.flatMap_nil, List.append_nil, List.isEmpty_nil, if_pos rfl, chunks, sent, errs]
    simp
  have more : ∀ x : Reducer, x.firsts = r.firsts → x.briefs = r.briefs → x.late = r.late → x.over_ = false := fun x h1 h2 h3 => by
    refine over_of_unknown ?_
    rw [← known, Reducer.known, Reducer.known, h1, h2, h3]
  unfold State.reduce
  extract_lets r' p rs frames r1 rest s1
  have keep : r' = r := same
  clear_value r'
  subst keep
  have pE : p = readParams [] := by
    dsimp only [p]
    rw [known]
    rfl
  have rsE : rs = [(d, ch, [partBytes 0 2 (bytesOf 0 20) []])] := ready
  have framesE : frames = [s.collFrame .resultChunk d r'.ctx r'.cid ch (readParams []).rop (readParams []).ety (r'.chunkLbl ch) 0
      (partBytes 0 2 (bytesOf 0 20) [])] := by
    dsimp only [frames]
    rw [rsE, pE]
    rfl
  have r1E : r1 = { r' with sent := [(ch, d)] } := by
    dsimp only [r1]
    rw [rsE, sent]
    rfl
  have restE : rest = [] := by
    dsimp only [rest]
    rw [none_]
    rfl
  have aim : ∀ g ∈ frames, g.dst = d := by
    rw [framesE, List.forall_mem_singleton]
    rfl
  have toPeer : frames.filter (fun f => f.dst != s.devn) = frames :=
    List.filter_eq_self.2 fun g hg => bne_iff_ne.2 (aim g hg ▸ away)
  have notHere : frames.filter (fun f => f.dst == s.devn) = [] :=
    List.filter_eq_nil_iff.2 fun g hg here => away ((aim g hg).symm.trans (beq_iff_eq.1 here))
  have going : r1.over_ = false := by
    rw [r1E]
    exact more _ rfl rfl rfl
  dsimp only [s1]
  rw [notHere, toPeer, restE, going, framesE, r1E]
  rfl

/-! ## The frames of an arriving contribution -/

/-- The reducer after the first frame of one device of several (R417). -/
theorem reduce_first {ctx cid d : Nat} {p : CollParams} (several : 2 ≤ p.npeer) (none_ : s.reducers = []) :
    s.reduce { ctx := ctx, cid := cid, firsts := [(d, p)] } = { s with reducers := [{ ctx := ctx, cid := cid, firsts := [(d, p)] }] } := by
  have one : ({ ctx := ctx, cid := cid, firsts := [(d, p)] } : Reducer).known = [(d, p)] := rfl
  refine reduce_quiet (faulty_of_one one rfl several rfl (by simp) (by simp)) rfl ?_ (over_of_one one rfl several) (by rw [none_]; rfl)
  exact ready_of_one one rfl several rfl rfl (by simp [Reducer.errs]) (fun h => absurd rfl h)

/-- The reducer after a part of a contribution, no parameters being known (R420). -/
theorem reduce_part {ctx cid : Nat} {x : Contrib} {bs : List (Nat × CollParams)} (none_ : s.reducers = []) :
    s.reduce { ctx := ctx, cid := cid, got := [x], briefs := bs } = { s with reducers := [{ ctx := ctx, cid := cid, got := [x], briefs := bs }] } := by
  have unknown : ({ ctx := ctx, cid := cid, got := [x], briefs := bs } : Reducer).known = [] := by simp [Reducer.known]
  exact reduce_quiet (faulty_of_unknown unknown) rfl (ready_of_no_devs rfl) (over_of_unknown unknown) (by rw [none_]; rfl)

/-- The reducer after a part of a device whose first frame was refused and answered (R430). -/
theorem reduce_late {ctx cid d : Nat} {x : Contrib} {p : CollParams} (several : 2 ≤ p.npeer) (plain : x.folded = false) (count : x.count = 1)
    (others : s.reducers.filter (fun y => !(y.ctx == ctx && y.cid == cid)) = []) :
    s.reduce { ctx := ctx, cid := cid, late := [d], sent := [(0, d)], briefs := [(d, p)], got := [x] } =
      { s with reducers := [{ ctx := ctx, cid := cid, late := [d], sent := [(0, d)], briefs := [(d, p)], got := [x] }] } := by
  have one : ({ ctx := ctx, cid := cid, late := [d], sent := [(0, d)], briefs := [(d, p)], got := [x] } : Reducer).known = [(d, p)] := by
    simp [Reducer.known]
  have once : ({ ctx := ctx, cid := cid, late := [d], sent := [(0, d)], briefs := [(d, p)], got := [x] } : Reducer).twice = false := by
    simp [Reducer.twice]
  have fits : ({ ctx := ctx, cid := cid, late := [d], sent := [(0, d)], briefs := [(d, p)], got := [x] } : Reducer).counts x.chunk x.part ≤ p.npeer := by
    simp [Reducer.counts, count]
    omega
  refine reduce_quiet (faulty_of_one one rfl several once (by simpa using plain) (by simpa using fits)) rfl ?_ (over_of_one one rfl several) others
  exact ready_of_one one rfl several rfl rfl (by simp [Reducer.errs]) (fun _ => by simp)

section
variable (dst : f.dst = s.devn) (vl : f.vl ≤ 5) (len : f.payload.length ≤ 256) (clean : f.clean = true) (ctx : s.ctxs.find f.ctx = some c)
include dst vl len clean ctx

theorem exec_contribution_first (auth : f.authentic = true) (gen : c.accepts f.kgen = true) (none_ : s.reducers = []) (typ : f.typ = .contribution)
    (zero : f.aux.toNat % 65536 = 0) (several : 2 ≤ (readParams f.payload).npeer) : exec (.contribution f) s =
      .next { s with reducers := [{ ctx := f.ctx, cid := f.addr.toNat % 2 ^ 32, firsts := [(f.src, readParams f.payload)] }] } := by
  have first : firstFrame f false = true := by simp [firstFrame, zero]
  rw [exec_contribution, execContribution, receiveContribution_in dst vl len clean ctx typ (by decide), gen, auth,
    contribIn_eq (reducer_of_none none_ _ _), if_pos first]
  exact congrArg Host.Outcome.next (reduce_first several none_)

theorem exec_contribution_part (auth : f.authentic = true) (gen : c.accepts f.kgen = true) (none_ : s.reducers = []) (typ : f.typ = .contribution)
    (some_ : f.aux.toNat % 65536 ≠ 0) : exec (.contribution f) s =
      .next { s with reducers := [{ ctx := f.ctx, cid := f.addr.toNat % 2 ^ 32, got := [contribOf f false], briefs := [(f.src, readBrief f)] }] } := by
  have part : ¬ firstFrame f false = true := by simp [firstFrame, some_]
  rw [exec_contribution, execContribution, receiveContribution_in dst vl len clean ctx typ (by decide), gen, auth,
    contribIn_eq (reducer_of_none none_ _ _), if_neg part]
  exact congrArg Host.Outcome.next (reduce_part none_)

theorem exec_combinedContribution_part (auth : f.authentic = true) (gen : c.accepts f.kgen = true) (none_ : s.reducers = []) (typ : f.typ = .combined) :
    exec (.combinedContribution f) s =
      .next { s with reducers := [{ ctx := f.ctx, cid := f.addr.toNat % 2 ^ 32, got := [contribOf f true] }] } := by
  have part : ¬ firstFrame f true = true := by simp [firstFrame]
  rw [exec_combinedContribution, execCombinedContribution, receiveContribution_in dst vl len clean ctx typ (by decide), gen, auth,
    contribIn_eq (reducer_of_none none_ _ _), if_neg part]
  exact congrArg Host.Outcome.next (reduce_part none_)

/-- A part of a device whose first frame was refused, and answered, is kept with the parameters that it carries (R430). -/
theorem exec_contribution_late (auth : f.authentic = true) (gen : c.accepts f.kgen = true) (typ : f.typ = .contribution)
    (one : f.aux.toNat % 65536 = 1) (several : 2 ≤ (readBrief f).npeer)
    (late : s.reducers = [{ ctx := f.ctx, cid := f.addr.toNat % 2 ^ 32, late := [f.src], sent := [(0, f.src)] }]) : exec (.contribution f) s =
      .next { s with reducers := [{ ctx := f.ctx, cid := f.addr.toNat % 2 ^ 32, late := [f.src], sent := [(0, f.src)],
                                    briefs := [(f.src, readBrief f)], got := [contribOf f false] }] } := by
  have part : ¬ firstFrame f false = true := by simp [firstFrame, one]
  rw [exec_contribution, execContribution, receiveContribution_in dst vl len clean ctx typ (by decide), gen, auth,
    contribIn_eq (reducer_of_one late rfl rfl), if_neg part]
  exact congrArg Host.Outcome.next (reduce_late several rfl one (by rw [late, List.filter_cons_of_neg (by simp)]; rfl))

theorem exec_contribution_forged (auth : f.authentic = false) (gen : c.accepts f.kgen = true) (typ : f.typ = .contribution) :
    exec (.contribution f) s = .next { s with discards := s.discards + 1 } := by
  rw [exec_contribution, execContribution, receiveContribution_in dst vl len clean ctx typ (by decide), gen, auth]
  rfl

/-- A first frame under a generation that is not accepted has chunk 0 sent back (R430). -/
theorem exec_contribution_first_refused (gen : c.accepts f.kgen = false) (none_ : s.reducers = []) (typ : f.typ = .contribution) (away : f.src ≠ s.devn)
    (zero : f.aux.toNat % 65536 = 0) : exec (.contribution f) s =
      .next (State.send { s with reducers := [{ ctx := f.ctx, cid := f.addr.toNat % 2 ^ 32, sent := [(0, f.src)], late := [f.src] }] }
        (s.collFrame .resultChunk f.src f.ctx (f.addr.toNat % 2 ^ 32) 0 (readParams []).rop (readParams []).ety 0#16 0 (partBytes 0 2 (bytesOf 0 20) []))) := by
  have first : firstFrame f false = true := by simp [firstFrame, zero]
  rw [exec_contribution, execContribution, receiveContribution_in dst vl len clean ctx typ (by decide), gen,
    contribBad_eq (reducer_of_none none_ _ _), if_pos first]
  exact congrArg Host.Outcome.next (reduce_refused (r := { ctx := f.ctx, cid := f.addr.toNat % 2 ^ 32, late := [f.src] }) rfl rfl rfl rfl rfl none_ away)

/-- A part under a generation that is not accepted has its chunk sent back (R430). -/
theorem exec_contribution_part_refused (gen : c.accepts f.kgen = false) (none_ : s.reducers = []) (typ : f.typ = .contribution) (away : f.src ≠ s.devn)
    (some_ : f.aux.toNat % 65536 ≠ 0) : exec (.contribution f) s =
      .next (State.send { s with reducers := [{ ctx := f.ctx, cid := f.addr.toNat % 2 ^ 32, sent := [(f.addr.toNat / 2 ^ 32, f.src)],
                                                bad := [{ contribOf f false with words := [] }] }] }
        (s.collFrame .resultChunk f.src f.ctx (f.addr.toNat % 2 ^ 32) (f.addr.toNat / 2 ^ 32) (readParams []).rop (readParams []).ety 0#16 0
          (partBytes 0 2 (bytesOf 0 20) []))) := by
  have part : ¬ firstFrame f false = true := by simp [firstFrame, some_]
  rw [exec_contribution, execContribution, receiveContribution_in dst vl len clean ctx typ (by decide), gen,
    contribBad_eq (reducer_of_none none_ _ _), if_neg part]
  exact congrArg Host.Outcome.next
    (reduce_refused (r := { ctx := f.ctx, cid := f.addr.toNat % 2 ^ 32, bad := [{ contribOf f false with words := [] }] }) rfl rfl rfl rfl rfl none_ away)

end

/-- ADDR of a frame of a collective holds the identifier and the chunk (R408). -/
theorem addr_collFrame (t : FrameType) (d cx rop ety : Nat) {cid ch : Nat} (l : Label) (aux : Nat) (pay : List Byte) (hcid : cid < 2 ^ 32)
    (hch : ch < 2 ^ 32) : (s.collFrame t d cx cid ch rop ety l aux pay).addr.toNat = cid + 2 ^ 32 * ch := by
  change (BitVec.ofNat 64 (cid + 2 ^ 32 * ch)).toNat = _
  rw [BitVec.toNat_ofNat, Nat.mod_eq_of_lt (by omega)]

theorem mark_refused : fieldAt (partBytes 0 2 (bytesOf 0 20) []) 8 4 = 2 := by decide

/-! ## The sum of one contribution of each peer (R415, R416) -/

theorem comb_add {p : CollParams} (rop : p.rop = 0) (ety : p.ety ∈ [Ty.s32.code, Ty.z32.code]) : p.comb = fun a b => a + b := by
  funext a b
  simp only [List.mem_cons, List.not_mem_nil, or_false] at ety
  rcases ety with ety | ety
  · rw [CollParams.comb, rop, ety]
    rfl
  · rw [CollParams.comb, rop, ety]
    rfl

theorem identity_add {p : CollParams} (rop : p.rop = 0) (ety : p.ety ∈ [Ty.s32.code, Ty.z32.code]) : redIdentity (collTy p.ety) p.rop = 0#32 := by
  simp only [List.mem_cons, List.not_mem_nil, or_false] at ety
  rcases ety with ety | ety
  · rw [rop, ety]
    rfl
  · rw [rop, ety]
    rfl

theorem foldWords_add (xs : List Word) : foldWords (fun a b => a + b) xs = xs.foldl (fun a b => a + b) 0#32 := by
  cases xs with
  | nil => rfl
  | cons x xs => rw [foldWords, List.foldl_cons, BitVec.zero_add]

theorem le_two_pow_ceilLog2 (n : Nat) : n ≤ 2 ^ ceilLog2 n := by
  unfold ceilLog2
  split
  · omega
  · have := Nat.lt_log2_self (n := n - 1)
    omega

/-- The leaf of a rank in the tree of R416. -/
def Reducer.leaf (r : Reducer) (p : CollParams) (c e i : Nat) : Word :=
  match (r.at_ c e).find? (fun x => r.rankOf x.src == i) with
  | some x => x.word e
  | none => redIdentity (collTy p.ety) p.rop

theorem leaf_rank {p : CollParams} {i j : Nat} (ranks : ((r.at_ i j).map (fun x => r.rankOf x.src)).Nodup) {x : Contrib} (hx : x ∈ r.at_ i j) :
    r.leaf p i j (r.rankOf x.src) = x.word j := by
  unfold Reducer.leaf
  cases found : (r.at_ i j).find? (fun y => r.rankOf y.src == r.rankOf x.src) with
  | none => exact absurd (List.find?_eq_none.1 found x hx) (by simp)
  | some y =>
    have same : y = x := List.inj_on_of_nodup_map ranks (List.mem_of_find?_eq_some found) hx (by simpa using List.find?_some found)
    rw [same]

theorem leaf_beyond {p : CollParams} {i j k : Nat} (ranks : ∀ x ∈ r.at_ i j, r.rankOf x.src ≠ k) :
    r.leaf p i j k = redIdentity (collTy p.ety) p.rop := by
  have none_ : (r.at_ i j).find? (fun x => r.rankOf x.src == k) = none := by
    rw [List.find?_eq_none]
    exact fun x hx => by simpa using ranks x hx
  rw [Reducer.leaf, none_]

theorem foldl_add_zeros (zs : List Word) (a : Word) (zero : ∀ z ∈ zs, z = 0#32) : zs.foldl (fun a b => a + b) a = a := by
  induction zs generalizing a with
  | nil => rfl
  | cons z zs ih =>
    rw [List.forall_mem_cons] at zero
    rw [List.foldl_cons, zero.1, BitVec.add_zero, ih a zero.2]

theorem foldl_add_perm {xs ys : List Word} (perm : xs.Perm ys) : xs.foldl (fun a b => a + b) 0#32 = ys.foldl (fun a b => a + b) 0#32 :=
  haveI : RightCommutative (fun a b : Word => a + b) := ⟨fun a b c => by rw [BitVec.add_assoc, BitVec.add_comm b c, ← BitVec.add_assoc]⟩
  perm.foldl_eq 0#32

/-- The leaves of the tree sum to the contributions, each rank having made one. -/
theorem foldl_leaves {p : CollParams} {i j : Nat} (zero : redIdentity (collTy p.ety) p.rop = 0#32)
    (perm : ((r.at_ i j).map (fun x => r.rankOf x.src)).Perm (List.range p.npeer)) :
    ((List.range (2 ^ ceilLog2 p.npeer)).map (r.leaf p i j)).foldl (fun a b => a + b) 0#32 =
      ((r.at_ i j).map (fun x => x.word j)).foldl (fun a b => a + b) 0#32 := by
  have nodup : ((r.at_ i j).map (fun x => r.rankOf x.src)).Nodup := perm.nodup_iff.2 List.nodup_range
  have below : ∀ x ∈ r.at_ i j, r.rankOf x.src < p.npeer := fun x hx =>
    List.mem_range.1 (perm.mem_iff.1 (List.mem_map_of_mem hx))
  obtain ⟨m, hm⟩ := Nat.exists_eq_add_of_le (le_two_pow_ceilLog2 p.npeer)
  have words : ((r.at_ i j).map (fun x => r.rankOf x.src)).map (r.leaf p i j) = (r.at_ i j).map (fun x => x.word j) := by
    rw [List.map_map]
    exact List.map_congr_left fun x hx => leaf_rank nodup hx
  rw [hm, List.range_add, List.map_append, List.foldl_append, foldl_add_zeros, ← words]
  · exact foldl_add_perm (perm.map _).symm
  · intro z hz
    simp only [List.map_map, List.mem_map, Function.comp_apply] at hz
    obtain ⟨k, -, rfl⟩ := hz
    rw [leaf_beyond fun x hx => by have := below x hx; omega, zero]

theorem result_reduce {p : CollParams} (op : p.op = 0) (i j : Nat) : r.result p i j =
    if p.fast then foldWords p.comb ((r.at_ i j).map (fun x => x.word j))
    else treeNode p.comb (ceilLog2 p.npeer) ((List.range (2 ^ ceilLog2 p.npeer)).map (r.leaf p i j)) := by
  unfold Reducer.result
  rw [op]
  rfl

/-- The sum of one contribution of each peer does not depend on the order, in FAST and DET mode alike. -/
theorem result_sum {p : CollParams} {i j : Nat} (op : p.op = 0) (rop : p.rop = 0) (ety : p.ety ∈ [Ty.s32.code, Ty.z32.code])
    (perm : ((r.at_ i j).map (fun x => r.rankOf x.src)).Perm (List.range p.npeer)) :
    r.result p i j = ((r.at_ i j).map (fun x => x.word j)).foldl (fun a b => a + b) 0#32 := by
  rw [result_reduce op, comb_add rop ety]
  split
  · exact foldWords_add _
  · have tree := treeNode_eq_foldl (f := fun a b : Word => a + b) (e := 0#32) BitVec.add_assoc (fun a => BitVec.zero_add a)
      (fun a => BitVec.add_zero a) (ceilLog2 p.npeer) ((List.range (2 ^ ceilLog2 p.npeer)).map (r.leaf p i j)) (by simp)
    rw [foldl_leaves (identity_add rop ety) perm] at tree
    exact tree

/-! ## Result chunks (R417 to R419) -/

/-- An operation that the frames of a collective are for: it goes on, and has contributed. -/
def collKind (cid : Nat) (o : Op) : Bool := !o.doneq && (match o.data with | .coll c 2 _ _ => c.cid == cid | _ => false)

/-- The first such operation of a group. -/
def collFind (ops : List Op) (cid : Nat) : Option Op := ops.find? (collKind cid)

/-- What the group of an entry has for the frames of a collective. -/
def State.collAt (s : State) (cx cid : Nat) (e : Nat × Group) : Option (Nat × Op) :=
  if s.ctxOf e.1 = cx then (collFind e.2.ops cid).map (fun o => (e.1, o)) else none

theorem collOp_eq (s : State) (cx cid : Nat) : s.collOp cx cid = s.groups.findSome? (s.collAt cx cid) := rfl

theorem collAt_iff {cx cid : Nat} {e : Nat × Group} {x : Nat × Op} :
    s.collAt cx cid e = some x ↔ s.ctxOf e.1 = cx ∧ x.1 = e.1 ∧ collFind e.2.ops cid = some x.2 := by
  obtain ⟨k, o⟩ := x
  unfold State.collAt
  split
  · rename_i run
    simp [run, Prod.ext_iff, eq_comm, and_comm]
  · rename_i other
    simp [other]

/-- In a table that finds a value of some entry, that of the entry at its key: the first entry of a key hides the others. -/
theorem Tab.get_findSome {α β : Type} {d : α} {m : Tab α} {F : Nat × α → Option (Nat × β)} (own : ∀ e x, F e = some x → x.1 = e.1) {k : Nat} {b : β}
    (found : m.findSome? F = some (k, b)) (here : F (k, m.get d k) ≠ none) : F (k, m.get d k) = some (k, b) := by
  induction m with
  | nil => exact absurd found (by simp)
  | cons e m ih =>
    obtain ⟨j, v⟩ := e
    rw [Tab.get_cons] at here ⊢
    dsimp only at here ⊢
    cases first : F (j, v) with
    | some x =>
      rw [List.findSome?_cons, first] at found
      have key : x.1 = j := own _ _ first
      obtain rfl : x = (k, b) := Option.some.inj found
      obtain rfl : k = j := key
      rw [if_pos rfl, first]
    | none =>
      rw [List.findSome?_cons, first] at found
      by_cases same : j = k
      · rw [if_pos same, ← same, first] at here
        exact absurd rfl here
      · rw [if_neg same] at here ⊢
        exact ih found here

theorem Tab.findSome_put {α β : Type} {m : Tab α} {F : Nat × α → Option (Nat × β)} (own : ∀ e x, F e = some x → x.1 = e.1) {k : Nat} {v : α} {b b' : β}
    (found : m.findSome? F = some (k, b)) (new : F (k, v) = some (k, b')) : (m.put k v).findSome? F = some (k, b') := by
  induction m with
  | nil => exact absurd found (by simp)
  | cons e m ih =>
    obtain ⟨j, w⟩ := e
    rw [Tab.put]
    split
    · rw [List.findSome?_cons, new]
    · split
      · rw [List.findSome?_cons, new]
      · rename_i other
        cases first : F (j, w) with
        | some x =>
          rw [List.findSome?_cons, first] at found
          have key : x.1 = j := own _ _ first
          obtain rfl : x = (k, b) := Option.some.inj found
          exact absurd key other
        | none =>
          rw [List.findSome?_cons, first] at found
          rw [List.findSome?_cons, first]
          exact ih found

/-- An operation that is the first of its number and the first of its kind stays so when it is replaced by one of its kind. -/
theorem find?_replaced {ops : List Op} {o o' : Op} {q : Op → Bool} (found : ops.find? q = some o) (first : ops.find? (fun x => x.id == o.id) = some o)
    (id : o'.id = o.id) (new : q o' = true) : (ops.map (fun x => if x.id == o'.id then o' else x)).find? q = some o' := by
  induction ops with
  | nil => exact absurd found (by simp)
  | cons x xs ih =>
    by_cases same : x.id = o.id
    · rw [List.map_cons, if_pos (by simp [same, id]), List.find?_cons_of_pos new]
    · rw [List.find?_cons_of_neg (by simpa using same)] at first
      have other : ¬ q x = true := fun h => by
        rw [List.find?_cons_of_pos h] at found
        exact same (by rw [Option.some.inj found])
      rw [List.find?_cons_of_neg other] at found
      rw [List.map_cons, if_neg (by simpa [id] using same), List.find?_cons_of_neg other]
      exact ih found first

theorem op_setOp_self {g : Group} {o o' : Op} (here : g.op o.id = some o) (id : o'.id = o.id) : (g.setOp o').op o.id = some o' :=
  find?_replaced (q := fun x => x.id == o.id) here here id (by simp [id])

section
variable {k cid cx : Nat} {o o' : Op} {e e' : CollCmd} {ps ps' : List Piece}

theorem collKind_of_data (data : o'.data = .coll e' 2 ps' []) (going : o'.doneq = false) (named : e'.cid = cid) :
    collKind cid o' = true := by
  rw [collKind, going, data]
  simpa using named

/-- The operation that the frames of a collective reach: its group runs in the context, and it is the first of its kind there. -/
theorem collOp_spec (found : s.collOp cx cid = some (k, o)) (here : (s.group k).op o.id = some o) :
    s.ctxOf k = cx ∧ collFind (s.group k).ops cid = some o := by
  rw [collOp_eq] at found
  obtain ⟨x, -, hx⟩ := List.exists_of_findSome?_eq_some found
  obtain ⟨run, key, hy⟩ := collAt_iff.1 hx
  dsimp only at key hy
  obtain ⟨y, hy'⟩ : ∃ y, collFind (s.group k).ops cid = some y := by
    refine Option.ne_none_iff_exists'.1 fun none_ => ?_
    exact List.find?_eq_none.1 none_ o (List.mem_of_find?_eq_some here) (List.find?_some (p := collKind cid) hy)
  have first := Tab.get_findSome (d := Group.empty) (fun e x hx => (collAt_iff.1 hx).2.1) found
    (Option.ne_none_iff_exists'.2 ⟨(k, y), collAt_iff.2 ⟨key ▸ run, rfl, hy'⟩⟩)
  obtain ⟨run', -, find⟩ := collAt_iff.1 first
  exact ⟨run', find⟩

/-- It stays so when it takes pieces. -/
theorem collOp_putOp (found : s.collOp cx cid = some (k, o)) (here : (s.group k).op o.id = some o) (id : o'.id = o.id)
    (data : o'.data = .coll e' 2 ps' []) (going : o'.doneq = false) (named : e'.cid = cid) :
    (s.putOp k o').collOp cx cid = some (k, o') := by
  obtain ⟨run, first⟩ := collOp_spec found here
  rw [collOp_eq] at found ⊢
  refine Tab.findSome_put (F := (s.putOp k o').collAt cx cid) (fun e x hx => (collAt_iff.1 hx).2.1) (b := o) found ?_
  exact collAt_iff.2 ⟨run, rfl, find?_replaced first here id (collKind_of_data data going named)⟩

theorem collFind_going (first : collFind (s.group k).ops cid = some o) (data : o.data = .coll e 2 ps []) : o.doneq = false ∧ e.cid = cid := by
  have kind := List.find?_some (p := collKind cid) first
  rw [collKind, data] at kind
  simpa using kind

/-- A piece of a chunk that it does not make whole is kept (R418). -/
theorem resultIn_piece (found : s.collOp f.ctx (f.addr.toNat % 2 ^ 32) = some (k, o)) (data : o.data = .coll e 2 ps [])
    (within : f.addr.toNat / 2 ^ 32 < e.params.chunks) (mark : fieldAt f.payload 8 4 = 0) {piece : Piece}
    (hp : piece = { chunk := f.addr.toNat / 2 ^ 32, start := fieldAt f.payload 0 4, words := partWords f.payload, lbl := f.lbl })
    (part : chunkWhole (ps ++ [piece]) (f.addr.toNat / 2 ^ 32) (e.params.range (f.addr.toNat / 2 ^ 32)).2 = false) :
    s.resultIn f = s.putOp k { o with data := .coll e 2 (ps ++ [piece]) [] } := by
  subst hp
  rw [State.resultIn, found]
  dsimp only
  rw [data]
  dsimp only
  rw [if_neg (by simpa using within), if_neg (by simp [mark]), if_neg (Bool.eq_false_iff.1 part)]

/-- A collective none of whose chunks has ended makes no arrival. -/
theorem chunkArrivals_none {id : Nat} (here : (s.group k).op id = some o) (data : o.data = .coll e 2 ps []) : s.chunkArrivals k id = s := by
  obtain ⟨⟩ := o
  dsimp only at data
  subst data
  rw [State.chunkArrivals, here]
  rfl

end

theorem exec_resultChunk_dropped (dst : f.dst = s.devn) (acc : s.accepts f = true) (typ : f.typ = .resultChunk)
    (none_ : s.collOp f.ctx (f.addr.toNat % 2 ^ 32) = none) : exec (.resultChunk f) s = .next s := by
  have same : s.resultIn f = s := by rw [State.resultIn, none_]
  rw [exec_resultChunk, execResultChunk, receive_accepted dst typ acc, same]
  dsimp only
  rw [none_]

/-- Settles O51: a contribution enters its reducer, which has nothing to send yet or the mark of SEAL alone; a piece enters its
operation; and a tree of sums is their sum. -/
theorem collectiveFrames : Obligations.CollectiveFrames := by
  intro s f c k o e ps r p i j cid chunk n ok piece got
  refine ⟨?_, ?_, ?_, ?_, ?_, ?_⟩
  · intro hok auth gen none_ part
    obtain ⟨dst, vl, len, clean, ctx⟩ := hok
    exact ⟨fun typ zero several => exec_contribution_first dst vl len clean ctx auth gen none_ typ zero several,
      fun typ some_ => exec_contribution_part dst vl len clean ctx auth gen none_ typ some_,
      fun typ => exec_combinedContribution_part dst vl len clean ctx auth gen none_ typ⟩
  · intro hok gen typ none_ away ch lost bad
    obtain ⟨dst, vl, len, clean, ctx⟩ := hok
    have small : cid < 2 ^ 32 := Nat.mod_lt _ (by decide)
    by_cases zero : n = 0
    · have chE : ch = 0 := if_pos zero
      have badE : bad = { ctx := f.ctx, cid := cid, sent := [(0, f.src)], late := [f.src] } := by
        dsimp only [bad]
        rw [chE, if_pos zero, if_pos zero]
      refine ⟨s.collFrame .resultChunk f.src f.ctx cid 0 (readParams []).rop (readParams []).ety 0#16 0 (partBytes 0 2 (bytesOf 0 20) []),
        rfl, rfl, rfl, ?_, mark_refused, (exec_contribution_first_refused dst vl len clean ctx gen none_ typ away zero).trans (by rw [badE])⟩
      rw [chE]
      exact addr_collFrame _ _ _ _ _ _ _ _ small (by decide)
    · have chE : ch = chunk := if_neg zero
      have badE : bad = { ctx := f.ctx, cid := cid, sent := [(chunk, f.src)], bad := [lost] } := by
        dsimp only [bad]
        rw [chE, if_neg zero, if_neg zero]
      refine ⟨s.collFrame .resultChunk f.src f.ctx cid chunk (readParams []).rop (readParams []).ety 0#16 0 (partBytes 0 2 (bytesOf 0 20) []),
        rfl, rfl, rfl, ?_, mark_refused, (exec_contribution_part_refused dst vl len clean ctx gen none_ typ away zero).trans (by rw [badE]; rfl)⟩
      rw [chE]
      exact addr_collFrame _ _ _ _ _ _ _ _ small (Nat.div_lt_of_lt_mul f.addr.isLt)
  · intro new hok auth gen typ one other several late
    obtain ⟨dst, vl, len, clean, ctx⟩ := hok
    have run := exec_contribution_late dst vl len clean ctx auth gen typ one several late
    rw [contribOf, show f.aux.toNat % 65536 = 1 from one] at run
    exact run
  · intro hok auth gen typ
    obtain ⟨dst, vl, len, clean, ctx⟩ := hok
    exact exec_contribution_forged dst vl len clean ctx auth gen typ
  · intro dst acc typ
    refine ⟨fun none_ => exec_resultChunk_dropped dst acc typ none_, fun found here data within mark part => ?_⟩
    have taken : s.resultIn f = s.putOp k { o with data := .coll e 2 (ps ++ [piece]) [] } := resultIn_piece found data within mark rfl part
    obtain ⟨-, first⟩ := collOp_spec found here
    obtain ⟨going, named⟩ := collFind_going first data
    have still : (s.putOp k { o with data := .coll e 2 (ps ++ [piece]) [] }).collOp f.ctx cid = some (k, { o with data := .coll e 2 (ps ++ [piece]) [] }) :=
      collOp_putOp found here rfl rfl going named
    have now : ((s.putOp k { o with data := .coll e 2 (ps ++ [piece]) [] }).group k).op o.id = some { o with data := .coll e 2 (ps ++ [piece]) [] } := by
      rw [State.putOp, State.group, State.setGroup, Tab.get_put_self]
      exact op_setOp_self here rfl
    refine ⟨_, ?_, rfl, now⟩
    rw [exec_resultChunk, execResultChunk, receive_accepted dst typ acc, taken]
    dsimp only
    rw [still]
    exact congrArg Host.Outcome.next (chunkArrivals_none now rfl)
  · exact fun op rop ety perm => result_sum op rop ety perm

end Sys2Proof.Machine
end


section
/-! PROOFS. Completion of lane accesses, and contributions to deterministic sets. -/

namespace Sys2Proof.Machine

open Sys2Proof

variable {s s1 : State} {k n : Nat} {o : Op} {accs : List Acc} {a : Acc}

/-! ## The result of a lane access (R233, R236) -/

theorem signedOf_mod (w n : Nat) (pos : 0 < w) : signedOf w (n % 2 ^ w) = signedOf w n := by
  have top : bitOf (n % 2 ^ w) (w - 1) = bitOf n (w - 1) := by
    simp only [bitOf_eq_testBit, Nat.testBit_mod_two_pow, Nat.sub_lt pos Nat.one_pos, decide_true, Bool.true_and]
  rw [signedOf, signedOf, top, Nat.mod_mod]

/-- An element as a lane word is its value. -/
theorem extendTy_eq (t : Ty) (v : Nat) : extendTy t v =
    if t.isSigned then BitVec.ofInt 32 (valueOf t (v % 2 ^ t.width)) else BitVec.ofNat 32 (v % 2 ^ t.width) := by
  unfold extendTy
  split
  · rename_i signed
    have pos : 0 < t.width := by cases t <;> decide
    rw [← intVal_eq (Nat.mod_lt _ (by positivity)), intVal, if_pos signed, signedOf_mod _ _ pos]
  · rfl

/-- The word that a lane of a load's destination takes. -/
def laneResult (o : Op) (accs : List Acc) (l : Nat) : Word :=
  match accs.find? (fun a => a.lane == l) with
  | some a => extendTy o.ety a.got
  | none => 0#32

theorem laneResult_eq (o : Op) (accs : List Acc) (l : Nat) : laneResult o accs l =
    match accs.find? (fun x => x.lane == l) with
    | some x => if o.ety.isSigned then BitVec.ofInt 32 (valueOf o.ety (x.got % 2 ^ o.ety.width)) else BitVec.ofNat 32 (x.got % 2 ^ o.ety.width)
    | none => 0#32 := by
  unfold laneResult
  cases accs.find? (fun x => x.lane == l) with
  | none => rfl
  | some x => exact extendTy_eq o.ety x.got

/-- The label that a lane access gives its destination (R129, R233). -/
def laneLabel (o : Op) (accs : List Acc) : Label :=
  if accs.any (·.kind.isStore) then Label.joinAll (accs.map (·.glbl)) else (Label.joinAll (accs.map (·.glbl))).join o.lbl

theorem writeLanes_reg {g : Group} {d : Nat} (dsts : o.dsts = [.reg d]) (low : d < 768) :
    g.writeLanes o = g.writeVreg d o.mask (lanesOf (laneResult o o.accs)) o.full (laneLabel o o.accs) := by
  unfold Group.writeLanes
  rw [dsts]
  dsimp only
  rw [land_reg low rfl]
  rfl

theorem writeLanes_none {g : Group} (dsts : o.dsts = []) : g.writeLanes o = g := by
  unfold Group.writeLanes
  rw [dsts]

/-- Every lane of a register after a write of some lanes. -/
theorem writeVreg_lane (g : Group) (d : Nat) (mask : Word) (v : Nat → Word) (full : Bool) (lbl : Label) {l : Nat} (hl : l < 32) :
    laneAt ((g.writeVreg d mask (lanesOf v) full lbl).vregs.get {} d).lanes l =
      if mask.getLsbD l then v l else laneAt (g.vregs.get {} d).lanes l := by
  rw [Group.writeVreg, Tab.get_set_self]
  simp [mergeLanes, laneAt, lanesOf, hl]

/-- A PENDING ticket of a quad of the operation is DONE. -/
theorem ticket_doneTickets (g : Group) {qmask tk q : Nat} (some_ : tk ≠ 0) (mine : bitOf qmask q = true) (there : q < g.quads.length)
    (pending : (g.quad q).ticket tk = 1) : ((g.doneTickets qmask tk).quad q).ticket tk = 2 := by
  rw [Group.doneTickets, if_neg some_, Group.quad_mapQuads, if_pos ⟨there, mine⟩, if_pos pending, Quad.ticket, Quad.setTicket, Tab.get_set_self]

/-- The state in which a lane operation has ended. -/
theorem ended_lanes {g : Group} (mine : o.fail = none) (quiet : ∀ p ∈ g.ops, p.fail = none) : ∃ ops fcs,
    (s.setGroup k (g.setOp o)).settle k = s.setGroup k { g with ops := ops, fcs := fcs } := by
  obtain ⟨ops, fcs, eq⟩ := settle_quiet (s := s.setGroup k (g.setOp o)) (k := k) (by
    rw [State.group_setGroup]
    intro p hp
    obtain ⟨x, hx, rfl⟩ := List.mem_map.1 hp
    split
    · exact mine
    · exact quiet x hx)
  refine ⟨ops, fcs, ?_⟩
  rw [eq, State.group_setGroup, State.setGroup_setGroup]
  rfl

theorem endLanes_mem (data : o.data = .mem) : s.endLanes k o = s.finishLanes k o := by
  rw [State.endLanes, data]

theorem ops_writeLanes (g : Group) (o : Op) : (g.writeLanes o).ops = g.ops := by
  unfold Group.writeLanes
  split
  · dsimp only
    obtain ⟨vregs, temps, preds, tilew, eq⟩ := land_eq g _
    rw [eq]
  · rfl

theorem vregs_doneTickets (g : Group) (qmask tk : Nat) : (g.doneTickets qmask tk).vregs = g.vregs := by
  obtain ⟨quads, eq⟩ := doneTickets_eq g qmask tk
  rw [eq]

theorem preds_doneTickets (g : Group) (qmask tk : Nat) : (g.doneTickets qmask tk).preds = g.preds := by
  obtain ⟨quads, eq⟩ := doneTickets_eq g qmask tk
  rw [eq]

theorem ops_doneTickets (g : Group) (qmask tk : Nat) : (g.doneTickets qmask tk).ops = g.ops := by
  obtain ⟨quads, eq⟩ := doneTickets_eq g qmask tk
  rw [eq]

/-- The end of a lane operation that is performed whole, no operation of its group having failed. -/
theorem laneAccessComplete_performed (h : Performs s k n o s1 accs) (slice : o.cslice = true) (data : o.data = .mem)
    (quiet : ∀ p ∈ (s1.group k).ops, p.fail = none) : ∃ ops fcs,
    exec (.laneAccessComplete k n) s = .next (s1.setGroup k
      { ((s1.group k).writeLanes { o with accs := accs }).doneTickets o.quads o.tk with ops := ops, fcs := fcs }) := by
  obtain ⟨found, going, performed, all, noFail⟩ := h
  have wanted : (!Op.lanes? o || o.doneq) = false := by simp [Op.lanes?, slice, data, going]
  obtain ⟨ops, fcs, eq⟩ := ended_lanes (s := s1) (k := k) (o := { o with accs := accs, fail := none, doneq := true })
    (g := ((s1.group k).writeLanes { o with accs := accs }).doneTickets o.quads o.tk) rfl (by rwa [ops_doneTickets, ops_writeLanes])
  refine ⟨ops, fcs, ?_⟩
  rw [exec_laneAccessComplete, execLaneAccessComplete, State.completeWith, found]
  dsimp only
  rw [wanted, performed]
  simp only [Bool.false_eq_true, if_false, all, if_true]
  rw [endLanes_mem (o := { o with accs := accs }) data, State.finishLanes, noFail, ← eq]
  rfl

/-- A failing check of any lane leaves every access unperformed, and is reported (R128, R133). -/
theorem laneAccessComplete_failed {f : Flt} (found : (s.group k).op n = some o) (going : o.doneq = false) (slice : o.cslice = true)
    (data : o.data = .mem) (fresh : o.fail = none) (here : ∀ x ∈ o.accs, x.sent = false) (bad : s.perform k o (fun _ => true) = .bad f) :
    exec (.laneAccessComplete k n) s = .next ((s.setGroup k (((s.group k).doneTickets o.quads o.tk).setOp
      { o with fail := some f, accs := o.accs.map (fun x => { x with done := true }), doneq := true })).settle k) := by
  have wanted : (!Op.lanes? o || o.doneq) = false := by simp [Op.lanes?, slice, data, going]
  have left : o.accs.map (fun a => if a.sent then a else { a with done := true }) = o.accs.map (fun x => { x with done := true }) :=
    List.map_congr_left fun x hx => by rw [here x hx]; rfl
  have all : (o.accs.map (fun x => { x with done := true })).all (·.done) = true := by simp
  rw [exec_laneAccessComplete, execLaneAccessComplete, State.completeWith, found]
  dsimp only
  rw [wanted, bad]
  simp only [Bool.false_eq_true, if_false, left, all, if_true, fresh, Option.none_or]
  rw [endLanes_mem (o := { o with fail := some f, accs := o.accs.map (fun x => { x with done := true }) }) data]
  rfl

/-! ## Contributions to deterministic sets (R238, R349) -/

/-- The state in which a contribution has been settled: its operation, every lane of which has been checked. -/
def State.contributedAs (s : State) (k i : Nat) (o : Op) (a : Acc) (f : Option Flt) (y : State) : State :=
  y.setGroup k ((y.group k).setOp { o with
    fail := o.fail.or f,
    accs := (o.accs.map (fun x => if s.isLocal x then { x with chk := true } else x)).set i { a with chk := true, done := true } })

/-- The contribution of a lane may be made now. -/
theorem contribution_due (kind : a.kind = .contrib) (undone : a.done = false) (unheld : a.held = false) (unsent : a.sent = false)
    (here : s.isLocal a = true) (may : (s.group k).mayPerform o a = true) (alone : a.dup = true → s.holders (a.pa / 32 * 32) = []) :
    (a.kind != .contrib || a.done || a.held || a.sent || !s.isLocal a || !(s.group k).mayPerform o a
      || (a.dup && s.dupBusy (a.pa / 32 * 32) 32)) = false := by
  have quiet : (a.dup && s.dupBusy (a.pa / 32 * 32) 32) = false := by
    cases dup : a.dup with
    | false => rfl
    | true => exact not_dupBusy (alone dup) 32
  simp [kind, undone, unheld, unsent, here, may, quiet]

section
variable {i : Nat} (found : (s.group k).op n = some o) (at_ : o.accs[i]? = some a) (kind : a.kind = .contrib) (undone : a.done = false)
  (unheld : a.held = false) (unsent : a.sent = false) (here : s.isLocal a = true) (may : (s.group k).mayPerform o a = true)
  (alone : a.dup = true → s.holders (a.pa / 32 * 32) = [])
include found at_ kind undone unheld unsent here may alone

theorem exec_detContribution_failed {f : Flt} (bad : s.contribChecks k o = some f) : exec (.detContribution k n i) s =
    .next (s.setGroup k ((s.group k).setOp
      { o with fail := o.fail.or (some f), accs := o.accs.map (fun y => if y.sent then y else { y with done := true }) })) := by
  rw [exec_detContribution, execDetContribution, found]
  dsimp only
  rw [at_]
  dsimp only
  rw [contribution_due kind undone unheld unsent here may alone, if_neg Bool.false_ne_true, bad]

theorem exec_detContribution_bad {f : Flt} (pass : s.contribChecks k o = none)
    (bad : s.contribute ((s.team (teamOf k)).teamix, (s.group k).gidx * 32 + a.lane) (localOf a.pa) (BitVec.ofNat 32 a.val) a.line a.va = .bad f) :
    exec (.detContribution k n i) s = .next (s.contributedAs k i o a (some f) s) := by
  rw [exec_detContribution, execDetContribution, found]
  dsimp only
  rw [at_]
  dsimp only
  rw [contribution_due kind undone unheld unsent here may alone, if_neg Bool.false_ne_true, pass]
  dsimp only
  rw [bad]
  rfl

theorem exec_detContribution_ok {b : Acc} (pass : s.contribChecks k o = none)
    (ok : s.contribute ((s.team (teamOf k)).teamix, (s.group k).gidx * 32 + a.lane) (localOf a.pa) (BitVec.ofNat 32 a.val) a.line a.va = .ok s1 b) :
    exec (.detContribution k n i) s = .next (s.contributedAs k i o a none s1) := by
  have noHolder : (a.dup && !(s.holders (a.pa / 32 * 32)).isEmpty && (s1.detsets.find (localOf a.pa / 32)).isNone) = false := by
    cases dup : a.dup with
    | false => rfl
    | true => rw [alone dup]; rfl
  rw [exec_detContribution, execDetContribution, found]
  dsimp only
  rw [at_]
  dsimp only
  rw [contribution_due kind undone unheld unsent here may alone, if_neg Bool.false_ne_true, pass]
  dsimp only
  rw [ok]
  dsimp only
  rw [State.contributed]
  dsimp only
  rw [noHolder, State.contributedAs, Option.or_none]
  rfl

end

/-! ## The checks of a contribution's lanes (R128, R129) -/

theorem contribCheck_none_iff (clr w : Label) (x : Acc) : s.contribCheck clr w x = none ↔
    LabelIn (s.labelOf (localOf x.pa) x.size) clr ∧ LabelIn w (s.labelOf (localOf x.pa) x.size) := by
  rw [State.contribCheck]
  constructor
  · intro pass
    by_contra bad
    obtain ⟨f, fails⟩ := labelCheck_atomic_fails (fn := 0) (ty := .f32) bad 0 x.va
    exact absurd (pass.symm.trans fails) (by simp)
  · exact fun h => labelCheck_atomic h.1 h.2 0 x.va

theorem contribChecks_none_iff (s : State) (k : Nat) (o : Op) : s.contribChecks k o = none ↔
    ∀ x ∈ o.accs, (x.done = false ∧ x.held = false ∧ x.sent = false ∧ x.chk = false ∧ s.isLocal x = true) →
      LabelIn (s.labelOf (localOf x.pa) x.size) (s.clr k) ∧ LabelIn o.lbl (s.labelOf (localOf x.pa) x.size) := by
  simp [State.contribChecks, List.findSome?_eq_none_iff, contribCheck_none_iff, and_assoc]

/-! ## The set of a sector (R238, R349, R350) -/

section
variable {key : Nat × Nat} {la va : Nat} {v : Word} {line : Bool} {e : DetSet}

theorem contribute_closed (none_ : s.detsets.find (la / 32) = none) : s.contribute key la v line va = .bad (fltSector va) := by
  rw [State.contribute, none_]

theorem contribute_twice (open_ : s.detsets.find (la / 32) = some e) (there : ∃ c ∈ e.got, c.1 = key.1 ∧ c.2.1 = key.2) :
    s.contribute key la v line va = .bad (fltSector va) := by
  rw [State.contribute, open_]
  exact if_pos (by simpa using there)

variable (open_ : s.detsets.find (la / 32) = some e) (fresh : ∀ c ∈ e.got, c.1 ≠ key.1 ∨ c.2.1 ≠ key.2) (room : s.queued la < 2 ^ 20)
include open_ fresh room

theorem contribute_more (more : e.got.length + 1 < e.n) : s.contribute key la v line va =
    .ok { s with detsets := s.detsets.put (la / 32) { e with got := e.got ++ [(key.1, key.2, la, v)] } } {} := by
  have other : ¬ (e.got.any (fun c => c.1 == key.1 && c.2.1 == key.2)) = true := by
    simp only [List.any_eq_true, Bool.and_eq_true, beq_iff_eq, not_exists, not_and]
    exact fun c hc h1 h2 => (fresh c hc).elim (· h1) (· h2)
  rw [State.contribute, open_]
  dsimp only
  rw [if_neg other, if_neg (by omega), if_pos (by simpa using more)]

theorem contribute_last (last : e.n ≤ e.got.length + 1) (sound : s.poisoned (la / 32 * 32) 32 = false) (plain : line = false) :
    s.contribute key la v line va =
      .ok { s.writeMem (la / 32 * 32) (applySet (s.readMem (la / 32 * 32) 32) (la / 32) (e.got ++ [(key.1, key.2, la, v)])) with
            detsets := s.detsets.del (la / 32) } {} := by
  have other : ¬ (e.got.any (fun c => c.1 == key.1 && c.2.1 == key.2)) = true := by
    simp only [List.any_eq_true, Bool.and_eq_true, beq_iff_eq, not_exists, not_and]
    exact fun c hc h1 h2 => (fresh c hc).elim (· h1) (· h2)
  rw [State.contribute, open_]
  dsimp only
  rw [if_neg other, if_neg (by omega), if_neg (by simpa using last), if_neg (Bool.eq_false_iff.1 sound), plain, writeLine_plain]
  rfl

end

/-! ## Applying a set (R350) -/

/-- Contributions in key order. -/
def KeyOrder (a b : Nat × Nat × Nat × Word) : Prop := keyLe a b = true

theorem keyOrder_iff (a b : Nat × Nat × Nat × Word) : KeyOrder a b ↔ a.1 < b.1 ∨ (a.1 = b.1 ∧ a.2.1 ≤ b.2.1) := by
  simp [KeyOrder, keyLe]

theorem perm_insertKey (c : Nat × Nat × Nat × Word) (l : List (Nat × Nat × Nat × Word)) : (insertKey c l).Perm (c :: l) := by
  induction l with
  | nil => exact .refl _
  | cons d l ih =>
    rw [insertKey]
    split
    · exact .refl _
    · exact (ih.cons d).trans (.swap c d l)

theorem perm_sorted (l : List (Nat × Nat × Nat × Word)) : (l.foldr insertKey []).Perm l := by
  induction l with
  | nil => exact .refl _
  | cons c l ih => exact (perm_insertKey c _).trans (ih.cons c)

theorem pairwise_insertKey {c : Nat × Nat × Nat × Word} {l : List (Nat × Nat × Nat × Word)} (h : l.Pairwise KeyOrder) :
    (insertKey c l).Pairwise KeyOrder := by
  induction l with
  | nil => exact List.pairwise_singleton ..
  | cons d l ih =>
    obtain ⟨first, rest⟩ := List.pairwise_cons.1 h
    rw [insertKey]
    split
    · rename_i le
      refine List.pairwise_cons.2 ⟨fun x hx => ?_, h⟩
      rcases List.mem_cons.1 hx with rfl | hx
      · exact le
      · have le' := (keyOrder_iff c d).1 le
        have := (keyOrder_iff d x).1 (first x hx)
        exact (keyOrder_iff c x).2 (by omega)
    · rename_i gt
      have gt' : ¬ KeyOrder c d := gt
      refine List.pairwise_cons.2 ⟨fun x hx => ?_, ih rest⟩
      rcases List.mem_cons.1 ((perm_insertKey c l).mem_iff.1 hx) with rfl | hx
      · rw [keyOrder_iff] at gt' ⊢
        omega
      · exact first x hx

theorem pairwise_sorted (l : List (Nat × Nat × Nat × Word)) : (l.foldr insertKey []).Pairwise KeyOrder := by
  induction l with
  | nil => exact .nil
  | cons c l ih => exact pairwise_insertKey ih

/-- Contributions of different keys come into one order. -/
theorem sorted_eq {got other : List (Nat × Nat × Nat × Word)} (keys : ∀ a b, a ∈ got → b ∈ got → a.1 = b.1 → a.2.1 = b.2.1 → a = b)
    (perm : got.Perm other) : got.foldr insertKey [] = other.foldr insertKey [] := by
  refine List.Perm.eq_of_pairwise (le := KeyOrder) (fun a b ha hb ab ba => ?_) (pairwise_sorted got) (pairwise_sorted other)
    ((perm_sorted got).trans (perm.trans (perm_sorted other).symm))
  rw [keyOrder_iff] at ab ba
  exact keys a b ((perm_sorted got).mem_iff.1 ha) (perm.mem_iff.2 ((perm_sorted other).mem_iff.1 hb)) (by omega) (by omega)

theorem length_applySet (old : List Byte) (sector : Nat) (got : List (Nat × Nat × Nat × Word)) : (applySet old sector got).length = 32 := by
  simp [applySet, List.length_flatMap, length_bytesOf]

/-- The first word of a sector takes two contributions in key order. -/
theorem applySet_two {old : List Byte} {sector : Nat} {x y : Nat × Nat × Nat × Word} (lt : x.1 < y.1 ∨ (x.1 = y.1 ∧ x.2.1 < y.2.1))
    (hx : x.2.2.1 = sector * 32) (hy : y.2.2.1 = sector * 32) : ofBytes ((applySet old sector [y, x]).take 4) =
      fAdd .f32 .rne (fAdd .f32 .rne (ofBytes (old.take 4)) x.2.2.2.toNat) y.2.2.2.toNat % 2 ^ 32 := by
  have later : keyLe y x = false := by
    simp [keyLe]
    omega
  have order : [y, x].foldr insertKey [] = [x, y] := by
    simp [insertKey, later]
  have words : List.range 8 = 0 :: [1, 2, 3, 4, 5, 6, 7] := rfl
  have first : [x, y].filter (fun c => c.2.2.1 == sector * 32 + 4 * 0) = [x, y] := List.filter_eq_self.2 (by simp [hx, hy])
  rw [applySet, order, words, List.flatMap_cons, List.take_left' (length_bytesOf ..), ofBytes_bytesOf, first]
  rfl

/-- What LANE_ACCESS_COMPLETE writes (R230, R233, R236). -/
theorem laneAccessComplete_reg {d : Nat} (h : Performs s k n o s1 accs) (slice : o.cslice = true) (data : o.data = .mem) (dsts : o.dsts = [.reg d])
    (low : d < 768) (quiet : ∀ p ∈ (s1.group k).ops, p.fail = none) :
    Completes (exec (.laneAccessComplete k n) s) (fun t => t.mem = s1.mem ∧ t.glbl = s1.glbl ∧ t.teams = s1.teams ∧
      (∀ j, j ≠ d → (t.group k).vregs.get {} j = (s1.group k).vregs.get {} j) ∧ (t.group k).preds = (s1.group k).preds ∧
      (∀ l, l < 32 → laneAt ((t.group k).vregs.get {} d).lanes l =
        if o.mask.getLsbD l then laneResult o accs l else laneAt ((s1.group k).vregs.get {} d).lanes l) ∧
      ((t.group k).vregs.get {} d).lbl = writtenLabel o.full ((s1.group k).vregs.get {} d).lbl (laneLabel o accs) ∧
      (∀ q, q < (s1.group k).quads.length → bitOf o.quads q = true → o.tk ≠ 0 → ((s1.group k).quad q).ticket o.tk = 1 →
        ((t.group k).quad q).ticket o.tk = 2)) := by
  obtain ⟨ops, fcs, eq⟩ := laneAccessComplete_performed h slice data quiet
  rw [writeLanes_reg (o := { o with accs := accs }) dsts low] at eq
  refine ⟨_, eq, rfl, rfl, rfl, ?_⟩
  rw [State.group_setGroup]
  dsimp only
  rw [vregs_doneTickets, preds_doneTickets]
  refine ⟨fun j hj => Tab.get_set_ne _ _ _ hj, rfl, fun l hl => writeVreg_lane _ _ _ _ _ _ hl, ?_, fun q there mine some_ pending => ?_⟩
  · exact congrArg VReg.lbl (Tab.get_set_self ..)
  · exact ticket_doneTickets ((s1.group k).writeVreg d o.mask (lanesOf (laneResult o accs)) o.full (laneLabel o accs)) some_ mine there pending

theorem laneAccessComplete_plain (h : Performs s k n o s1 accs) (slice : o.cslice = true) (data : o.data = .mem) (dsts : o.dsts = [])
    (quiet : ∀ p ∈ (s1.group k).ops, p.fail = none) :
    Completes (exec (.laneAccessComplete k n) s) (fun t => t.mem = s1.mem ∧ t.glbl = s1.glbl ∧ t.teams = s1.teams ∧
      (t.group k).vregs = (s1.group k).vregs ∧ (t.group k).preds = (s1.group k).preds) := by
  obtain ⟨ops, fcs, eq⟩ := laneAccessComplete_performed h slice data quiet
  rw [writeLanes_none (o := { o with accs := accs }) dsts] at eq
  refine ⟨_, eq, rfl, rfl, rfl, ?_⟩
  rw [State.group_setGroup]
  exact ⟨vregs_doneTickets .., preds_doneTickets ..⟩

theorem laneLabel_eq (o : Op) (accs : List Acc) :
    laneLabel o accs = Label.joinAll (accs.map (·.glbl)) ||| (if accs.any (·.kind.isStore) then 0#16 else o.lbl) := by
  unfold laneLabel
  split
  · exact BitVec.or_zero.symm
  · rfl

theorem id_of_found {g : Group} (found : g.op n = some o) : o.id = n := by simpa using List.find?_some found

/-- A contribution some lane of which fails its check has no effect but its failure (R128). -/
theorem detContribution_discarded {i : Nat} {f : Flt} (found : (s.group k).op n = some o)
    (run : exec (.detContribution k n i) s = .next (s.setGroup k ((s.group k).setOp
      { o with fail := o.fail.or (some f), accs := o.accs.map (fun y => if y.sent then y else { y with done := true }) }))) :
    Completes (exec (.detContribution k n i) s) (fun t => t.detsets = s.detsets ∧ t.mem = s.mem ∧ t.glbl = s.glbl ∧
      ∃ q, (t.group k).op n = some q ∧ q.fail.isSome = true ∧ ∀ y ∈ q.accs, y.sent = true ∨ y.done = true) := by
  have id := id_of_found found
  subst id
  refine ⟨_, run, rfl, rfl, rfl, _, (congrArg (Group.op · o.id) (State.group_setGroup ..)).trans (op_setOp_self found rfl), ?_, ?_⟩
  · cases o.fail <;> rfl
  · intro y hy
    obtain ⟨x, -, rfl⟩ := List.mem_map.1 hy
    cases sent : x.sent with
    | true => exact .inl (by simp [sent])
    | false => exact .inr (by simp)

/-- Settles O46: an operation that is performed ends with one write of its destination; a contribution enters its set under its key; and
a set of different keys is applied in key order. -/
theorem laneCompletion : Obligations.LaneCompletion := by
  refine ⟨?_, fun old sector got other keys _ perm => ⟨?_, length_applySet .., rfl, fun x y lt hx hy => applySet_two lt hx hy⟩⟩
  · intro s s1 k n i d o accs a e f g lane lb key rank la new due fits put
    refine ⟨fun h slice data dsts low quiet => ?_, fun h slice data dsts quiet => laneAccessComplete_plain h slice data dsts quiet,
      fun found going slice data fresh here bad => laneAccessComplete_failed found going slice data fresh here bad,
      fun found at_ kind undone unheld unsent here may alone => ⟨fun some_ => ?_, fun all => ⟨fun none_ => ?_, fun open_ there => ?_, fun open_ fresh room =>
        ⟨fun more => ?_, fun last sound plain => ?_⟩⟩⟩⟩
    · obtain ⟨t, run, mem, glbl, teams, others, preds, lanes, lbl, tickets⟩ := laneAccessComplete_reg h slice data dsts low quiet
      refine ⟨t, run, mem, glbl, teams, others, preds, fun l hl => ?_, ?_, fun q _ => tickets q⟩
      · have word : laneResult o accs l = lane l := laneResult_eq o accs l
        rw [lanes l hl, word]
      · rw [lbl, laneLabel_eq]
        rfl
    · obtain ⟨f', bad⟩ : ∃ f', s.contribChecks k o = some f' := by
        refine Option.ne_none_iff_exists'.1 fun pass => ?_
        obtain ⟨x, hx, now, leak⟩ := some_
        exact leak ((contribChecks_none_iff s k o).1 pass x hx now)
      exact detContribution_discarded found (exec_detContribution_failed found at_ kind undone unheld unsent here may alone bad)
    · have pass := (contribChecks_none_iff s k o).2 all
      exact exec_detContribution_bad found at_ kind undone unheld unsent here may alone pass (contribute_closed none_)
    · have pass := (contribChecks_none_iff s k o).2 all
      exact exec_detContribution_bad found at_ kind undone unheld unsent here may alone pass (contribute_twice open_ there)
    · have pass := (contribChecks_none_iff s k o).2 all
      exact exec_detContribution_ok found at_ kind undone unheld unsent here may alone pass (contribute_more open_ fresh room more)
    · have pass := (contribChecks_none_iff s k o).2 all
      exact exec_detContribution_ok found at_ kind undone unheld unsent here may alone pass (contribute_last open_ fresh room last sound plain)
  · rw [applySet, applySet, sorted_eq keys perm]

end Sys2Proof.Machine
end


section
/-! PROOFS. The trailers TAKE, FALL and END, and the steps that all trailers share. -/

namespace Sys2Proof.Machine

open Sys2Proof

variable {s : State} {k : Nat} {g : Group}

/-! ## Operations that stay in flight (R26) -/

/-- An operation leaves or stays whatever comes after it. -/
theorem retireOps_cons (blocked : List Nat) (first : Bool) (fcs : Tab Nat) (o : Op) :
    (∃ b, ∀ os, retireOps blocked first fcs (o :: os) =
      (o :: (retireOps b false fcs os).1, (retireOps b false fcs os).2.1, (retireOps b false fcs os).2.2)) ∨
    (∃ f, ∀ os, (retireOps blocked first fcs (o :: os)).1 = (retireOps blocked first f os).1) := by
  have eq := fun os => retireOps.eq_2 blocked first fcs o os
  simp only [eq]
  split
  · split
    · exact .inr ⟨_, fun _ => rfl⟩
    · exact .inl ⟨_, fun _ => rfl⟩
  · exact .inl ⟨_, fun _ => rfl⟩
  · exact .inl ⟨_, fun _ => rfl⟩
  · split
    · split
      · exact .inr ⟨_, fun _ => rfl⟩
      · exact .inl ⟨_, fun _ => rfl⟩
    · split
      · exact .inr ⟨_, fun _ => rfl⟩
      · exact .inl ⟨_, fun _ => rfl⟩

theorem length_retireOps_le (blocked : List Nat) (first : Bool) (fcs : Tab Nat) (os : List Op) :
    (retireOps blocked first fcs os).1.length ≤ os.length := by
  induction os generalizing blocked first fcs with
  | nil => exact le_refl _
  | cons o os ih =>
    rcases retireOps_cons blocked first fcs o with ⟨b, keep⟩ | ⟨f, leave⟩
    · rw [keep]
      exact Nat.succ_le_succ (ih ..)
    · rw [leave]
      exact (ih ..).trans (Nat.le_succ _)

/-- Where every operation stays, none takes a counter down or reports, and whatever comes after them finds something older. -/
theorem retireOps_append (blocked : List Nat) (first : Bool) (fcs : Tab Nat) {os : List Op} (stay : (retireOps blocked first fcs os).1 = os)
    (more : List Op) : ∃ b, retireOps blocked first fcs (os ++ more) =
      (os ++ (retireOps b (first && os.isEmpty) fcs more).1, (retireOps b (first && os.isEmpty) fcs more).2.1,
        (retireOps b (first && os.isEmpty) fcs more).2.2) := by
  induction os generalizing blocked first with
  | nil => exact ⟨blocked, by simp⟩
  | cons o os ih =>
    rcases retireOps_cons blocked first fcs o with ⟨b, keep⟩ | ⟨f, leave⟩
    · rw [keep os] at stay
      obtain ⟨b', rest⟩ := ih b false (List.cons.inj stay).2
      refine ⟨b', ?_⟩
      rw [List.cons_append, keep, rest]
      simp
    · rw [leave] at stay
      have := length_retireOps_le blocked first f os
      rw [stay] at this
      exact absurd this (by simp)

/-- A fence after nothing leaves, and one after something stays. -/
theorem retireOps_fence (blocked : List Nat) (first : Bool) (fcs : Tab Nat) {o : Op} {order : FenceKind} {a b : Bool} (data : o.data = .fence order a b)
    (fresh : o.fail = none) : retireOps blocked first fcs [o] = (if first then [] else [o], fcs, []) := by
  unfold retireOps
  rw [data]
  cases first <;> simp [fresh, retireOps]

/-! ## Reports leave the operations in flight alone (R155, R377) -/

theorem groups_setTeam (s : State) (n : Nat) (x : Team) : (s.setTeam n x).groups = s.groups := rfl

theorem groups_dropHeld (s : State) (n : Nat) : (s.dropHeld n).groups = s.groups := by
  refine keeps_foldl (P := fun u => u.groups = s.groups) (fun u h hu => ?_) _ s rfl
  unfold State.heldDone
  split
  · exact ((State.OwnTo.refl u).send _).groups.trans hu
  · exact ((State.OwnTo.refl u).send _).groups.trans hu
  · exact hu
  · rename_i none_
    exact absurd none_ (by simp)

theorem groups_leaveCore (s : State) (n : Nat) : (s.leaveCore n).groups = s.groups := by
  have left : (s.leaveQueues n).groups = s.groups := by
    unfold State.leaveQueues
    dsimp only
    split <;> rfl
  unfold State.leaveCore
  dsimp only
  split
  · exact left
  · exact left

theorem groups_endTeam (s : State) (n : Nat) (st : TState) : (s.endTeam n st).groups = s.groups := by
  have left : ((s.leaveCore n).blockWrite n 0 (bytesOf st.code 1)).groups = s.groups :=
    ((State.OwnTo.refl _).blockWrite n 0 (bytesOf st.code 1)).groups.trans (groups_leaveCore s n)
  have dropped := (groups_dropHeld ((s.leaveCore n).blockWrite n 0 (bytesOf st.code 1)) n).trans left
  unfold State.endTeam
  exact dropped

theorem groups_dropHolds (s : State) (n : Nat) : (s.dropHolds n).groups = s.groups := rfl

theorem groups_endGrid (s : State) (gr code : Nat) : (s.endGrid gr code).groups = s.groups := by
  unfold State.endGrid
  refine (groups_dropHolds ..).trans
    (keeps_foldl (P := fun u => u.groups = s.groups) (fun u n hu => (groups_endTeam u _ _).trans hu) _ _ ?_)
  rfl

theorem ops_raiseRec (s : State) (k : Nat) (r : FaultRec) : ((s.raiseRec k r).group k).ops = (s.group k).ops := by
  have same {u v : State} (h : u.groups = v.groups) : u.group k = v.group k := congrArg (Tab.get Group.empty · k) h
  unfold State.raiseRec
  dsimp only
  split
  · split
    · rw [same (groups_endGrid ..), State.group_setGroup]
    · rw [State.group_setGroup]
  · split
    · rw [same (groups_endGrid ..), same (groups_setTeam ..), State.group_setGroup]
    · rw [same (groups_setTeam ..), State.group_setGroup]

theorem ops_raiseOp (s : State) (k : Nat) (o : Op) (f : Flt) : ((s.raiseOp k o f).group k).ops = (s.group k).ops := by
  unfold State.raiseOp
  dsimp only
  rw [ops_raiseRec]
  split
  · rw [State.group_setGroup]
  · rfl

theorem ops_settle (s : State) (k : Nat) : ((s.settle k).group k).ops = (retireOps [] true (s.group k).fcs (s.group k).ops).1 := by
  unfold State.settle
  dsimp only
  refine keeps_foldl (P := fun u : State => (u.group k).ops = (retireOps [] true (s.group k).fcs (s.group k).ops).1) (fun u o hu => ?_) _ _ ?_
  · split
    · exact (ops_raiseOp ..).trans hu
    · exact hu
  · rw [State.group_setGroup]

/-- No operation of a group that has settled could leave. -/
theorem stay_of_settled (h : s.settle k = s) : (retireOps [] true (s.group k).fcs (s.group k).ops).1 = (s.group k).ops := by
  rw [← ops_settle, h]

/-- A settled group settles so whatever else of it changes, and a fence issued last stays behind what stands before it. -/
theorem settle_fence {fs : List Op} (h : s.settle k = s) (fence : ∀ o ∈ fs, ∃ order a b, o.data = .fence order a b ∧ o.fail = none)
    (one : fs.length ≤ 1) (fcs : g.fcs = (s.group k).fcs) (ops : g.ops = (s.group k).ops ++ fs) :
    (s.setGroup k g).settle k = s.setGroup k { g with ops := (s.group k).ops ++ if (s.group k).ops.isEmpty then [] else fs } := by
  obtain ⟨b, rest⟩ := retireOps_append [] true (s.group k).fcs (stay_of_settled h) fs
  have retired : retireOps [] true g.fcs g.ops = ((s.group k).ops ++ (if (s.group k).ops.isEmpty then [] else fs), g.fcs, []) := by
    rw [fcs, ops, rest]
    cases fs with
    | nil => simp [retireOps]
    | cons o fs =>
      obtain rfl : fs = [] := List.length_eq_zero_iff.1 (by simpa using one)
      obtain ⟨order, x, y, data, fresh⟩ := fence o (List.mem_cons_self ..)
      rw [retireOps_fence _ _ _ data fresh]
      rfl
  unfold State.settle
  rw [State.group_setGroup]
  dsimp only
  rw [retired]
  exact State.setGroup_setGroup ..

/-! ## Tickets that a trailer frees (R77, R250) -/

/-- A quad whose tickets of a list have been freed. -/
def Quad.freed (q : Quad) (ks : List Nat) : Quad :=
  { ks.foldl (fun y k => y.setTicket k 0) q with acq := q.acq.filter (fun k => !ks.contains k) }

/-- What a quad has of CWAITs among the tickets that a trailer of its path awaits. -/
def Group.acquires (g : Group) (qmask : Nat) (ks : List Nat) (q : Nat) : Bool := bitOf qmask q && (g.quad q).acq.any ks.contains

theorem setTickets_only (ks : List Nat) (q : Quad) : ∃ tickets, ks.foldl (fun y k => y.setTicket k 0) q = { q with tickets := tickets } := by
  induction ks generalizing q with
  | nil => exact ⟨q.tickets, rfl⟩
  | cons k ks ih =>
    obtain ⟨tickets, eq⟩ := ih (q.setTicket k 0)
    exact ⟨tickets, eq⟩

theorem length_mapQuads (g : Group) (m : Nat) (f : Nat → Quad → Quad) : (g.mapQuads m f).quads.length = g.quads.length := by
  simp [Group.mapQuads]

theorem maskOf_eq_zero_iff (n : Nat) (p : Nat → Bool) : maskOf n p = 0 ↔ ∀ i, i < n → p i = false := by
  constructor
  · intro zero i hi
    have bit := testBit_maskOf n p i
    rw [zero, Nat.zero_testBit] at bit
    simpa [hi] using bit.symm
  · intro none_
    refine Nat.eq_of_testBit_eq fun i => ?_
    rw [testBit_maskOf, Nat.zero_testBit]
    by_cases hi : i < n
    · rw [none_ i hi, Bool.and_false]
    · rw [decide_eq_false hi, Bool.false_and]

theorem freeTickets_eq (g : Group) (qmask : Nat) (ks : List Nat) : ∃ quads, g.freeTickets qmask ks = { g with quads := quads } := ⟨_, rfl⟩

theorem quad_freeTickets (g : Group) (qmask : Nat) (ks : List Nat) (q : Nat) : (g.freeTickets qmask ks).quad q =
    if q < g.quads.length ∧ bitOf qmask q = true then ks.foldl (fun y k => y.setTicket k 0) (g.quad q) else g.quad q :=
  Group.quad_mapQuads ..

theorem acq_freeTickets (g : Group) (qmask : Nat) (ks : List Nat) (q : Nat) : ((g.freeTickets qmask ks).quad q).acq = (g.quad q).acq := by
  rw [quad_freeTickets]
  split
  · obtain ⟨tickets, eq⟩ := setTickets_only ks (g.quad q)
    rw [eq]
  · rfl

theorem acquires_freeTickets (g : Group) (qmask : Nat) (ks : List Nat) : (g.freeTickets qmask ks).acquires qmask ks = g.acquires qmask ks := by
  funext q
  rw [Group.acquires, acq_freeTickets, Group.acquires]

/-- Without a ticket of a CWAIT among those that are freed, freeing them is all (R250). -/
theorem freed_of_no_acquire {q : Quad} {ks : List Nat} (none_ : q.acq.any ks.contains = false) :
    ks.foldl (fun y k => y.setTicket k 0) q = q.freed ks := by
  have keep : q.acq.filter (fun k => !ks.contains k) = q.acq := by
    rw [List.filter_eq_self]
    intro k hk
    have := List.any_eq_false.1 none_ k hk
    simpa using this
  obtain ⟨tickets, eq⟩ := setTickets_only ks q
  rw [Quad.freed, eq, keep]

theorem freed_acquired (q : Quad) (ks : List Nat) :
    { ks.foldl (fun y k => y.setTicket k 0) q with acq := (ks.foldl (fun y k => y.setTicket k 0) q).acq.filter (fun k => !ks.contains k) } = q.freed ks := by
  obtain ⟨tickets, eq⟩ := setTickets_only ks q
  rw [Quad.freed, eq]

theorem acquire_none {g : Group} {qmask : Nat} {ks : List Nat} (none_ : maskOf 8 (g.acquires qmask ks) = 0) (pos : Nat) (sole : Bool) :
    g.acquire qmask ks pos sole = g := if_pos none_

/-- The quads of a group that have a CWAIT's ticket freed. -/
def Group.acquired (g : Group) (qmask : Nat) (ks : List Nat) : Group :=
  g.mapQuads (maskOf 8 (g.acquires qmask ks)) (fun _ q => { q with acq := q.acq.filter (fun k => !ks.contains k) })

/-- The fence that a trailer leaves behind such a ticket. -/
def acquireFence (g : Group) (qs pos : Nat) (sole : Bool) : Op :=
  { id := 0, fc := none, cslice := true, quads := qs, pc := pos, run := g.runOf qs, data := .fence .acq false sole }

theorem acquire_some {g : Group} {qmask : Nat} {ks : List Nat} (some_ : maskOf 8 (g.acquires qmask ks) ≠ 0) (pos : Nat) (sole : Bool) :
    g.acquire qmask ks pos sole = (g.acquired qmask ks).issueOp (acquireFence g (maskOf 8 (g.acquires qmask ks)) pos sole) := if_neg some_

theorem issueOp_uncounted {g : Group} {o : Op} (fc : o.fc = none) :
    g.issueOp o = { g with ops := g.ops ++ [{ o with id := g.nextOp }], nextOp := g.nextOp + 1 } := by
  rw [Group.issueOp, fc]

theorem bitOf_maskOf {n : Nat} {p : Nat → Bool} {i : Nat} (small : i < n) : bitOf (maskOf n p) i = p i := by
  rw [bitOf_eq_testBit, testBit_maskOf, decide_eq_true small, Bool.true_and]

/-- What freeing its tickets, and the fence after a CWAIT's, leave of a group. -/
theorem freed_spec (g : Group) (qmask : Nat) (ks : List Nat) (pos : Nat) (sole : Bool) : ∃ quads fs next,
    (g.freeTickets qmask ks).acquire qmask ks pos sole = { g with quads := quads, ops := g.ops ++ fs, nextOp := next } ∧
      quads.length = g.quads.length ∧
      (∀ q, q < 8 → q < g.quads.length → ({ g with quads := quads } : Group).quad q = if bitOf qmask q then (g.quad q).freed ks else g.quad q) ∧
      (∀ q, bitOf qmask q = false → ({ g with quads := quads } : Group).quad q = g.quad q) ∧
      ((∀ q, q < 8 → g.acquires qmask ks q = false) → fs = []) ∧
      ((∃ q, q < 8 ∧ g.acquires qmask ks q = true) → ∃ f, fs = [f] ∧ f.cslice = true ∧ f.data = .fence .acq false sole ∧ f.fail = none ∧
        ∀ q, q < 8 → bitOf f.quads q = g.acquires qmask ks q) := by
  have same := acquires_freeTickets g qmask ks
  by_cases none_ : maskOf 8 (g.acquires qmask ks) = 0
  · have off := (maskOf_eq_zero_iff 8 _).1 none_
    refine ⟨(g.freeTickets qmask ks).quads, [], g.nextOp, ?_, length_mapQuads .., fun q small there => ?_, fun q other => ?_, fun _ => rfl,
      fun ⟨q, small, on⟩ => ?_⟩
    · rw [acquire_none (by rw [same]; exact none_), List.append_nil]
      rfl
    · refine (quad_freeTickets g qmask ks q).trans ?_
      by_cases mine : bitOf qmask q = true
      · have quiet : (g.quad q).acq.any ks.contains = false := by simpa [Group.acquires, mine] using off q small
        rw [if_pos ⟨there, mine⟩, if_pos mine, freed_of_no_acquire quiet]
      · rw [if_neg fun h => mine h.2, if_neg mine]
    · exact (quad_freeTickets g qmask ks q).trans (if_neg fun h => Bool.eq_false_iff.1 other h.2)
    · rw [off q small] at on
      exact absurd on (by decide)
  · refine ⟨((g.freeTickets qmask ks).acquired qmask ks).quads,
      [{ acquireFence (g.freeTickets qmask ks) (maskOf 8 (g.acquires qmask ks)) pos sole with id := g.nextOp }], g.nextOp + 1, ?_,
      (length_mapQuads ..).trans (length_mapQuads ..), fun q small there => ?_, fun q other => ?_, fun off => absurd ((maskOf_eq_zero_iff 8 _).2 off) none_,
      fun _ => ⟨_, rfl, rfl, rfl, rfl, fun q small => bitOf_maskOf small⟩⟩
    · rw [acquire_some (by rw [same]; exact none_), issueOp_uncounted rfl, same]
      rfl
    · have there' : q < (g.freeTickets qmask ks).quads.length := (length_mapQuads ..).symm ▸ there
      change ((g.freeTickets qmask ks).acquired qmask ks).quad q = _
      rw [Group.acquired, Group.quad_mapQuads, same, bitOf_maskOf small, quad_freeTickets]
      by_cases mine : bitOf qmask q = true
      · rw [if_pos (⟨there, mine⟩ : q < g.quads.length ∧ bitOf qmask q = true), if_pos mine]
        by_cases on : g.acquires qmask ks q = true
        · rw [if_pos ⟨there', on⟩, freed_acquired]
        · have quiet : (g.quad q).acq.any ks.contains = false := by simpa [Group.acquires, mine] using on
          rw [if_neg fun h => on h.2, freed_of_no_acquire quiet]
      · have off : ¬ g.acquires qmask ks q = true := fun h => mine (by rw [Group.acquires, Bool.and_eq_true] at h; exact h.1)
        rw [if_neg fun h => off h.2, if_neg fun h => mine h.2, if_neg mine]
    · change ((g.freeTickets qmask ks).acquired qmask ks).quad q = _
      have off : ¬ bitOf (maskOf 8 (g.acquires qmask ks)) q = true := by
        rw [bitOf_eq_testBit, testBit_maskOf, Group.acquires, other]
        simp
      rw [Group.acquired, Group.quad_mapQuads, same, if_neg fun h => off h.2, quad_freeTickets, if_neg fun h => Bool.eq_false_iff.1 other h.2]

/-! ## The steps that trailers share (R261, R314, R320) -/

/-- The group of a trailer that has issued, its tickets freed and no fault taken: what a cycle and the fence of a CWAIT can change, and the
quads of the path. -/
def Group.TrailerPassed (g : Group) (p : Path) (ks : List Nat) (sole : Bool) (h : Group) : Prop :=
  ∃ vregs temps preds tilew fx quads fs next age,
    h = { g with vregs := vregs, temps := temps, preds := preds, tilew := tilew, fx := fx, quads := quads,
                 ops := g.ops ++ if g.ops.isEmpty then [] else fs, nextOp := next,
                 cret := g.cret + (if p.phase = .awaiting then 0 else 1), ageC := age } ∧
      quads.length = g.quads.length ∧ (g.fx = [] → preds = g.preds) ∧
      (∀ q, q < 8 → q < g.quads.length → ({ g with quads := quads } : Group).quad q = if bitOf p.qmask q then (g.quad q).freed ks else g.quad q) ∧
      (∀ q, bitOf p.qmask q = false → ({ g with quads := quads } : Group).quad q = g.quad q) ∧
      ((∀ q, q < 8 → g.acquires p.qmask ks q = false) → fs = []) ∧
      ((∃ q, q < 8 ∧ g.acquires p.qmask ks q = true) → ∃ f, fs = [f] ∧ f.cslice = true ∧ f.data = .fence .acq false sole ∧ f.fail = none ∧
        ∀ q, q < 8 → bitOf f.quads q = g.acquires p.qmask ks q)

theorem passTrl_eq (g : Group) (qmask : Nat) : ∃ vregs temps preds tilew fx, g.passTrl qmask =
    { g with vregs := vregs, temps := temps, preds := preds, tilew := tilew, fx := fx, cret := g.cret + 1, ageC := 0 } ∧
      (g.fx = [] → preds = g.preds) := by
  obtain ⟨vregs, temps, preds, tilew, fx, eq⟩ := tick_eq g qmask 1
  refine ⟨vregs, temps, preds, tilew, fx, ?_, fun none_ => ?_⟩
  · rw [Group.passTrl, eq]
  · rw [tick_of_none none_] at eq
    rw [eq]

theorem setGrp_eq (s : State) (g : Group) : s.setGrp g = s.setGroup s.cur g := rfl

theorem grp_eq (s : State) : s.grp = s.group s.cur := rfl

theorem Tab.get_of_find {α : Type} {d : α} {m : Tab α} {k : Nat} {v : α} (found : m.find k = some v) : m.get d k = v := by
  induction m with
  | nil => exact absurd found (by simp [Tab.find])
  | cons e m ih =>
    obtain ⟨j, w⟩ := e
    rw [Tab.find] at found
    rw [Tab.get]
    split at found
    · rename_i here
      rw [if_pos here, Option.some.inj found]
    · rename_i other
      rw [if_neg other, ih found]

theorem path_of_find {p : Path} (path : s.grp.paths.find s.curPath = some p) : s.path = p := Tab.get_of_find path

/-- The group of a ready trailer passes. -/
theorem trailer_group {p : Path} (ks : List Nat) (sole : Bool) (settled : s.settle s.cur = s) : ∃ h, s.grp.TrailerPassed p ks sole h ∧
    (s.setGrp (if !(p.phase == .awaiting) then ((s.grp.freeTickets p.qmask ks).acquire p.qmask ks p.pos sole).passTrl p.qmask
      else (s.grp.freeTickets p.qmask ks).acquire p.qmask ks p.pos sole)).settle s.cur = s.setGrp h := by
  obtain ⟨quads, fs, next, eq, len, free, others, off, on⟩ := freed_spec s.grp p.qmask ks p.pos sole
  have few : fs = [] ∨ ∃ f, fs = [f] ∧ f.data = .fence .acq false sole ∧ f.fail = none := by
    by_cases any_ : ∃ q, q < 8 ∧ s.grp.acquires p.qmask ks q = true
    · obtain ⟨f, one, -, data, fresh, -⟩ := on any_
      exact .inr ⟨f, one, data, fresh⟩
    · exact .inl (off fun q small => Bool.eq_false_iff.2 fun h => any_ ⟨q, small, h⟩)
  have fences : ∀ o ∈ fs, ∃ order a b, o.data = .fence order a b ∧ o.fail = none := by
    rcases few with rfl | ⟨f, rfl, data, fresh⟩
    · exact fun o ho => absurd ho (by simp)
    · exact fun o ho => List.mem_singleton.1 ho ▸ ⟨_, _, _, data, fresh⟩
  have one : fs.length ≤ 1 := by
    rcases few with rfl | ⟨f, rfl, -⟩
    · exact Nat.zero_le _
    · exact le_refl _
  rw [eq]
  by_cases awaits : p.phase = .awaiting
  · refine ⟨_, ⟨s.grp.vregs, s.grp.temps, s.grp.preds, s.grp.tilew, s.grp.fx, quads, fs, next, s.grp.ageC, rfl, len, fun _ => rfl, free, others, off, on⟩, ?_⟩
    have issued : (!(p.phase == .awaiting)) = false := by rw [awaits]; rfl
    rw [issued, if_neg Bool.false_ne_true, if_pos awaits]
    exact settle_fence settled fences one rfl rfl
  · have issued : (!(p.phase == .awaiting)) = true := by simpa using awaits
    obtain ⟨vregs, temps, preds, tilew, fx, pass, quiet⟩ :=
      passTrl_eq ({ s.grp with quads := quads, ops := s.grp.ops ++ fs, nextOp := next } : Group) p.qmask
    refine ⟨_, ⟨vregs, temps, preds, tilew, fx, quads, fs, next, 0, rfl, len, quiet, free, others, off, on⟩, ?_⟩
    rw [if_pos issued, if_neg awaits, pass]
    exact settle_fence settled fences one rfl rfl

/-- A trailer whose predicate writes have landed and whose tickets are complete is carried out at one point (R261, R314). -/
theorem trailer_ready {i : Instr} {aw : BitVec 15} {act : Path → State → Except Flt State} {p : Path} (path : s.grp.paths.find s.curPath = some p)
    (settled : s.settle s.cur = s) (landed : p.phase = .awaiting ∨ s.grp.predPending p.qmask = false)
    (done : s.grp.ticketPending p.qmask (awaited aw) = false) : ∃ h, s.grp.TrailerPassed p (awaited aw) (s.soleIn .team s.cur) h ∧
      trailer i aw act s = match act { p with waitc := 0, pass := false, nodrain := s.grp.active p == 0#32, trail := none } (s.setGrp h) with
        | .error f => s.faultC f
        | .ok s1 => .next s1 := by
  obtain ⟨h, passed, settles⟩ := trailer_group (p := p) (awaited aw) (s.soleIn .team s.cur) settled
  refine ⟨h, passed, ?_⟩
  have mine : s.path = p := path_of_find path
  have noWait : (!(p.phase == .awaiting) && s.grp.predPending p.qmask) = false := by
    rcases landed with awaits | none_
    · rw [awaits]
      rfl
    · rw [none_, Bool.and_false]
  rw [trailer, mine]
  dsimp only
  rw [noWait, done, Bool.and_false, settles] <;> rfl

theorem ticketPending_iff (g : Group) (qmask : Nat) (ks : List Nat) :
    g.ticketPending qmask ks = false ↔ ∀ q ∈ quadSet qmask, ∀ k ∈ ks, (g.quad q).ticket k ≠ 1 := by
  simp [Group.ticketPending]

/-- A trailer waits at issue for the predicate writes of its run (R314). -/
theorem trailer_waits {i : Instr} {aw : BitVec 15} {act : Path → State → Except Flt State} {p : Path} (path : s.grp.paths.find s.curPath = some p)
    (issues : p.phase ≠ .awaiting) (pending : s.grp.predPending p.qmask = true) :
    trailer i aw act s = .next (s.setPath { p with waitc := 0x108 }) := by
  have issued : (!(p.phase == .awaiting)) = true := by simpa using issues
  rw [trailer, path_of_find path]
  dsimp only
  rw [pending, issued, State.cWait, path_of_find path]
  rfl

/-- Off the scheduler, a path goes on awaiting its tickets (R261). -/
theorem trailer_idles {i : Instr} {aw : BitVec 15} {act : Path → State → Except Flt State} {p : Path} (path : s.grp.paths.find s.curPath = some p)
    (awaits : p.phase = .awaiting) (pending : s.grp.ticketPending p.qmask (awaited aw) = true) : trailer i aw act s = .next s := by
  rw [trailer, path_of_find path]
  dsimp only
  rw [pending, awaits]
  rfl

/-- A trailer with a PENDING ticket issues, and its path awaits the tickets (R261). -/
theorem trailer_awaits {i : Instr} {aw : BitVec 15} {act : Path → State → Except Flt State} {p : Path} (path : s.grp.paths.find s.curPath = some p)
    (issues : p.phase ≠ .awaiting) (landed : s.grp.predPending p.qmask = false) (pending : s.grp.ticketPending p.qmask (awaited aw) = true) :
    trailer i aw act s = .next (s.setGrp (({ s.grp with paths := s.grp.paths.put s.curPath { p with
      waitc := 0, pass := false, nodrain := s.grp.active p == 0#32, phase := .awaiting, trail := some i } } : Group).passTrl p.qmask)) := by
  have issued : (!(p.phase == .awaiting)) = true := by simpa using issues
  rw [trailer, path_of_find path]
  dsimp only
  rw [pending, landed, issued]
  simp only [Bool.and_false, Bool.false_eq_true, if_false, Bool.and_self, if_true]
  rw [State.setPath, State.grp_setGrp, State.setGrp_setGrp]

/-! ## Where a path goes on (R264 to R266) -/

section
variable {p x : Path} {ks : List Nat} {sole : Bool} {h : Group} {quads : List Quad} (passed : s.grp.TrailerPassed p ks sole h)
include passed

/-- What a trailer that is carried out changes but for its path entry and the quads of the path. -/
theorem passed_frame : ∀ t, t = s.setGrp { h with quads := quads, paths := h.paths.put s.curPath x } →
    OnlyGroup s.cur s t ∧ t.grp.paths = s.grp.paths.put s.curPath x ∧ t.grp.cret = s.grp.cret + (if p.phase = .awaiting then 0 else 1) ∧
      t.grp.rq = s.grp.rq ∧ t.grp.apc = s.grp.apc ∧ t.grp.sregs = s.grp.sregs ∧
      ((∀ q, q < 8 → s.grp.acquires p.qmask ks q = false) ∨ s.grp.ops = [] → t.grp.ops = s.grp.ops) ∧
      ((∃ q, q < 8 ∧ s.grp.acquires p.qmask ks q = true) → s.grp.ops ≠ [] → ∃ f, t.grp.ops = s.grp.ops ++ [f] ∧ f.cslice = true ∧
        f.data = .fence .acq false sole ∧ ∀ q, q < 8 → bitOf f.quads q = s.grp.acquires p.qmask ks q) := by
  obtain ⟨vregs, temps, preds, tilew, fx, qs, fs, next, age, rfl, -, -, -, -, off, on⟩ := passed
  rintro t rfl
  refine ⟨setGrp_onlyGroup s _, ?_⟩
  rw [State.grp_setGrp]
  refine ⟨rfl, rfl, rfl, rfl, rfl, fun none_ => ?_, fun some_ older => ?_⟩
  · rcases none_ with none_ | none_
    · simp [off none_]
    · simp [none_]
  · obtain ⟨f, rfl, slice, data, -, mask⟩ := on some_
    exact ⟨f, by simp [older], slice, data, mask⟩

/-- The quads after a trailer that changes those of its path by `f` besides. -/
theorem passed_quads {f : Quad → Quad} (mapped : ∀ q, ({ h with quads := quads } : Group).quad q = if q < h.quads.length ∧ bitOf p.qmask q = true then f (h.quad q) else h.quad q)
    {q : Nat} (small : q < 8) (there : q < s.grp.quads.length) :
    ({ h with quads := quads } : Group).quad q = if bitOf p.qmask q then f ((s.grp.quad q).freed ks) else s.grp.quad q := by
  obtain ⟨vregs, temps, preds, tilew, fx, qs, fs, next, age, rfl, len, -, free, -⟩ := passed
  have quad : ({ s.grp with quads := qs } : Group).quad q = if bitOf p.qmask q then (s.grp.quad q).freed ks else s.grp.quad q := free q small there
  refine (mapped q).trans ?_
  change (if q < qs.length ∧ bitOf p.qmask q = true then f (({ s.grp with quads := qs } : Group).quad q) else ({ s.grp with quads := qs } : Group).quad q) = _
  rw [quad, len]
  by_cases mine : bitOf p.qmask q = true
  · rw [if_pos ⟨there, mine⟩, if_pos mine, if_pos mine]
  · rw [if_neg fun h => mine h.2, if_neg mine, if_neg mine]

end

theorem freed_passed (q : Quad) (ks : List Nat) (m : Nat) (l : Label) : { q.freed ks with passed := m, rl := l } =
    { ks.foldl (fun y k => y.setTicket k 0) q with passed := m, acq := q.acq.filter (fun k => !ks.contains k), rl := l } := rfl

theorem passed_freed (q : Quad) (ks : List Nat) : (q.freed ks).passed = q.passed := by
  obtain ⟨tickets, eq⟩ := setTickets_only ks q
  rw [Quad.freed, eq]

theorem rl_freed (q : Quad) (ks : List Nat) : (q.freed ks).rl = q.rl := by
  obtain ⟨tickets, eq⟩ := setTickets_only ks q
  rw [Quad.freed, eq]

end Sys2Proof.Machine
end


section
/-! PROOFS. TAKE, FALL, END and SKIP. -/

namespace Sys2Proof.Machine

open Sys2Proof

variable {s : State} {p : Path} {aw : BitVec 15}

/-- The state after a trailer that sends its path on as `x`: `passed` when its quads have passed their run, `clr` when they hold its label
no longer. -/
def AfterTrailer (s : State) (p : Path) (ks : List Nat) (passed clr : Bool) (x : Path) (t : State) : Prop :=
  OnlyGroup s.cur s t ∧ t.grp.paths = s.grp.paths.put s.curPath x ∧ t.grp.cret = s.grp.cret + (if p.phase = .awaiting then 0 else 1) ∧
    t.grp.rq = s.grp.rq ∧ t.grp.apc = s.grp.apc ∧ t.grp.sregs = s.grp.sregs ∧
    ((∀ q, q < 8 → s.grp.acquires p.qmask ks q = false) ∨ s.grp.ops = [] → t.grp.ops = s.grp.ops) ∧
    ((∃ q, q < 8 ∧ s.grp.acquires p.qmask ks q = true) → s.grp.ops ≠ [] → ∃ f, t.grp.ops = s.grp.ops ++ [f] ∧ f.cslice = true ∧
      f.data = .fence .acq false (s.soleIn .team s.cur) ∧ ∀ q, q < 8 → bitOf f.quads q = s.grp.acquires p.qmask ks q) ∧
    ∀ q, q < 8 → q < s.grp.quads.length → t.grp.quad q =
      (if bitOf p.qmask q then { ks.foldl (fun y k => y.setTicket k 0) (s.grp.quad q) with
          passed := (s.grp.quad q).passed + (if passed then 1 else 0), acq := (s.grp.quad q).acq.filter (fun k => !ks.contains k),
          rl := if clr then 0#16 else (s.grp.quad q).rl }
       else s.grp.quad q)

/-- A trailer that changes its quads by `f`, and what it makes of their run. -/
theorem afterTrailer_of_passed {ks : List Nat} {h : Group} {quads : List Quad} {x : Path} {f : Quad → Quad} {passed clr : Bool}
    (pass : s.grp.TrailerPassed p ks (s.soleIn .team s.cur) h)
    (mapped : ∀ q, ({ h with quads := quads } : Group).quad q = if q < h.quads.length ∧ bitOf p.qmask q = true then f (h.quad q) else h.quad q)
    (change : ∀ q : Quad, f q = { q with passed := q.passed + (if passed then 1 else 0), rl := if clr then 0#16 else q.rl }) :
    AfterTrailer s p ks passed clr x (s.setGrp { h with quads := quads, paths := h.paths.put s.curPath x }) := by
  obtain ⟨only, paths, cret, rq, apc, sregs, quiet, fence⟩ := passed_frame pass (x := x) (quads := quads) _ rfl
  refine ⟨only, paths, cret, rq, apc, sregs, quiet, fence, fun q small there => ?_⟩
  have quad := passed_quads pass mapped small there
  rw [State.grp_setGrp]
  refine (show _ = ({ h with quads := quads } : Group).quad q from rfl).trans (quad.trans ?_)
  rw [change, passed_freed, rl_freed]
  rfl

section
variable (path : s.grp.paths.find s.curPath = some p) (settled : s.settle s.cur = s) (landed : p.phase = .awaiting ∨ s.grp.predPending p.qmask = false)
  (done : s.grp.ticketPending p.qmask (awaited aw) = false)
include path settled landed done

theorem trlTake_completes : Completes (exec (.trlTake aw) s) (AfterTrailer s p (awaited aw) true true
    { ({ p with waitc := 0, pass := false, nodrain := s.grp.active p == 0#32, trail := none } : Path).passRun with phase := .take }) := by
  obtain ⟨h, pass, run⟩ := trailer_ready (i := .trlTake aw) (act := fun p s1 => .ok ((s1.setGrp (s1.grp.passTrailer p.qmask)).setPath
    { p.passRun with phase := .take })) path settled landed done
  refine ⟨_, run, ?_⟩
  rw [State.setPath, State.grp_setGrp, State.grp_setGrp, State.setGrp_setGrp, State.setGrp_setGrp]
  exact afterTrailer_of_passed (h := h) (quads := (h.passTrailer p.qmask).quads)
    (f := fun y => { y with passed := y.passed + 1, rl := 0#16 }) pass
    (Group.quad_mapQuads h p.qmask (fun _ y => { y with passed := y.passed + 1, rl := 0#16 })) (fun q => rfl)

theorem trlFall_completes : Completes (exec (.trlFall aw) s) (AfterTrailer s p (awaited aw) false false
    { p with waitc := 0, pass := false, nodrain := s.grp.active p == 0#32, trail := none, pos := nextPos p.pos 1, phase := .fall }) := by
  obtain ⟨h, pass, run⟩ := trailer_ready (i := .trlFall aw) (act := fun p s1 => .ok (s1.setPath { p with pos := nextPos p.pos 1, phase := .fall }))
    path settled landed done
  refine ⟨_, run, ?_⟩
  rw [State.setPath, State.grp_setGrp, State.setGrp_setGrp]
  exact afterTrailer_of_passed (h := h) (quads := h.quads) (f := id) pass (fun q => (ite_self _).symm) (fun q => rfl)

theorem trlEnd_completes : Completes (exec (.trlEnd aw) s) (AfterTrailer s p (awaited aw) false true
    { p with waitc := 0, pass := false, nodrain := s.grp.active p == 0#32, trail := none, phase := .ending }) := by
  obtain ⟨h, pass, run⟩ := trailer_ready (i := .trlEnd aw) (act := fun p s1 =>
    .ok ((s1.setGrp (s1.grp.mapQuads p.qmask (fun _ q => { q with rl := 0#16 }))).setPath { p with phase := .ending })) path settled landed done
  refine ⟨_, run, ?_⟩
  rw [State.setPath, State.grp_setGrp, State.grp_setGrp, State.setGrp_setGrp, State.setGrp_setGrp]
  exact afterTrailer_of_passed (h := h) (quads := (h.mapQuads p.qmask (fun _ q => { q with rl := 0#16 })).quads)
    (f := fun y => { y with rl := 0#16 }) pass (Group.quad_mapQuads h p.qmask (fun _ y => { y with rl := 0#16 })) (fun q => rfl)

end

/-- A path that has issued a trailer and awaits its tickets (R261). -/
theorem awaiting_spec {x : Path} : ∀ t, t = s.setGrp (({ s.grp with paths := s.grp.paths.put s.curPath x } : Group).passTrl p.qmask) →
    OnlyGroup s.cur s t ∧ t.grp.paths = s.grp.paths.put s.curPath x ∧ t.grp.cret = s.grp.cret + 1 ∧ t.grp.rq = s.grp.rq ∧
      t.grp.apc = s.grp.apc ∧ t.grp.sregs = s.grp.sregs ∧ t.grp.ops = s.grp.ops ∧ t.grp.quads = s.grp.quads := by
  rintro t rfl
  refine ⟨setGrp_onlyGroup s _, ?_⟩
  obtain ⟨vregs, temps, preds, tilew, fx, eq, -⟩ := passTrl_eq ({ s.grp with paths := s.grp.paths.put s.curPath x } : Group) p.qmask
  rw [State.grp_setGrp, eq]
  exact ⟨rfl, rfl, rfl, rfl, rfl, rfl, rfl⟩

/-! ## SKIP (R121, R122, R262) -/

theorem pushLabel_eight_of_room {c l : Label} {stack : List PathLbl} {at_ : Nat} (within : LabelIn l c)
    (room : stack.length < 8 ∨ (stack.head?.bind (·.pusher)) = some at_) : pushLabel 8 c stack l at_ = .ok (pushedStack stack l at_) := by
  have hw : l.within c = true := (within_iff_labelIn l c).2 within
  cases stack with
  | nil => simp [pushLabel, pushedStack, hw]
  | cons top rest =>
    by_cases same : top.pusher = some at_
    · simp [pushLabel, pushedStack, hw, same, Label.join]
    · have short : (top :: rest).length < 8 := room.resolve_right (by simpa using same)
      simp only [pushLabel, pushedStack, hw, same, if_neg short.not_ge]
      simp

theorem pushLabel_eight_of_full {c l : Label} {stack : List PathLbl} {at_ : Nat} (within : LabelIn l c)
    (full : ¬ (stack.length < 8 ∨ (stack.head?.bind (·.pusher)) = some at_)) : pushLabel 8 c stack l at_ = .error (fltBranch 1 l c) := by
  have hw : l.within c = true := (within_iff_labelIn l c).2 within
  cases stack with
  | nil => simp at full
  | cons top rest =>
    obtain ⟨long, other⟩ := not_or.1 full
    have other' : top.pusher ≠ some at_ := by simpa using other
    simp only [pushLabel, hw, other', not_lt.1 long]
    simp

/-- The lanes that go on: those of the path that the predicate sets. -/
def skipLanes (g : Group) (p : Path) (k : Nat) : Word := p.lmask &&& g.launched &&& (g.pred k).mask

/-- The quads of a path that go on with a lane, and the others. -/
def skipOn (g : Group) (p : Path) (k : Nat) : Nat := maskOf 8 (fun q => bitOf p.qmask q && skipLanes g p k &&& quadLanes (2 ^ q) != 0#32)

def skipOff (g : Group) (p : Path) (k : Nat) : Nat := maskOf 8 (fun q => bitOf p.qmask q && !bitOf (skipOn g p k) q)

/-- The two parts of a path that has been split, in one entry each. -/
def SplitPaths (on off : Path) (ps : Tab Path) : Prop :=
  (∀ x ∈ ps, x.2 = on ∨ x.2 = off) ∧ (on.qmask ≠ 0 → ∃ x ∈ ps, x.2 = on) ∧ (off.qmask ≠ 0 → ∃ x ∈ ps, x.2 = off)

theorem freePath_ne {g : Group} {n : Nat} (one : g.paths = [(n, p)]) (low : n < 8) : g.freePath ≠ n := by
  unfold Group.freePath
  cases found : (List.range 8).find? (fun m => (g.paths.find m).isNone) with
  | none => exact low.ne'
  | some m =>
    have free := List.find?_some found
    rintro rfl
    rw [one] at free
    simp [Tab.find] at free

theorem put_one {n : Nat} (x : Path) : Tab.put [(n, p)] n x = [(n, x)] := by simp [Tab.put]

theorem splitPaths_put {on off : Path} {n m : Nat} (other : m ≠ n) : SplitPaths on off (Tab.put [(n, on)] m off) := by
  unfold SplitPaths
  by_cases lt : m < n
  · simp [Tab.put, lt]
  · simp [Tab.put, lt, other]

/-- The entry of the quads that go on with the lanes that the predicate sets, and that of the others. -/
def skipOnPath (g : Group) (y : Path) (k n : Nat) (st : List PathLbl) : Path :=
  { y with phase := .take, skipmask := y.lmask, skipn := n, pls := st, qmask := skipOn g y k, lmask := y.lmask &&& (g.pred k).mask }

def skipOffPath (g : Group) (y : Path) (k n : Nat) (st : List PathLbl) : Path :=
  { y with phase := .take, skipmask := y.lmask, skipn := n, pls := st, qmask := skipOff g y k, lmask := 0#32 }

/-- The paths of a group after SKIP. -/
def skipPaths (g : Group) (key : Nat) (on off : Path) : Tab Path :=
  if on.qmask = 0 then g.paths.put key off
  else if off.qmask = 0 then g.paths.put key on
  else (g.paths.put key on).put g.freePath off

theorem skipPaths_split {g : Group} {key : Nat} {on off : Path} (one : g.paths = [(key, p)]) (low : key < 8) :
    SplitPaths on off (skipPaths g key on off) := by
  unfold skipPaths
  split
  · rename_i none_
    rw [one, put_one]
    exact ⟨fun x hx => .inr (by rw [List.mem_singleton.1 hx]), fun some_ => absurd none_ some_, fun _ => ⟨_, List.mem_singleton_self _, rfl⟩⟩
  · split
    · rename_i all
      rw [one, put_one]
      exact ⟨fun x hx => .inl (by rw [List.mem_singleton.1 hx]), fun _ => ⟨_, List.mem_singleton_self _, rfl⟩, fun some_ => absurd all some_⟩
    · have other := freePath_ne one low
      rw [one, put_one]
      exact splitPaths_put other

/-- The split of SKIP on the state of a group with one path. -/
theorem skipSplit_eq {k : BitVec 3} {n : BitVec 7} {y : Path} {st : List PathLbl} (skipn : y.skipn = 0)
    (push : pushLabel 8 (s.ceil s.cur) y.pls ((topLabel y.pls).join ((s.grp.pred k.toNat).lbl.join (s.grp.runLabel y.qmask))) y.pos = .ok st) :
    skipSplit k n y s = .ok (s.setGrp { s.grp.passTrailer y.qmask with
      paths := skipPaths s.grp s.curPath (skipOnPath s.grp y k.toNat n.toNat st) (skipOffPath s.grp y k.toNat n.toNat st) }) := by
  have run : y.passRun = y := if_pos skipn
  unfold skipSplit skipPaths
  rw [run]
  dsimp only
  rw [if_neg (not_not.2 skipn), push]
  by_cases none_ : skipOn s.grp y k.toNat = 0
  · refine (if_pos none_).trans ?_
    rw [if_pos (show (skipOnPath s.grp y k.toNat n.toNat st).qmask = 0 from none_), State.setPath, State.grp_setGrp, State.setGrp_setGrp]
    rfl
  · rw [if_neg (show ¬ (skipOnPath s.grp y k.toNat n.toNat st).qmask = 0 from none_)]
    refine (if_neg none_).trans ?_
    by_cases all : skipOff s.grp y k.toNat = 0
    · refine (if_pos all).trans ?_
      rw [if_pos (show (skipOffPath s.grp y k.toNat n.toNat st).qmask = 0 from all), State.setPath, State.grp_setGrp, State.setGrp_setGrp]
      rfl
    · refine (if_neg all).trans ?_
      rw [if_neg (show ¬ (skipOffPath s.grp y k.toNat n.toNat st).qmask = 0 from all), State.setPath, State.grp_setGrp, State.setGrp_setGrp,
        State.grp_setGrp, State.setGrp_setGrp]
      rfl

theorem skipSplit_fails {k : BitVec 3} {n : BitVec 7} {y : Path} {f : Flt} (skipn : y.skipn = 0)
    (push : pushLabel 8 (s.ceil s.cur) y.pls ((topLabel y.pls).join ((s.grp.pred k.toNat).lbl.join (s.grp.runLabel y.qmask))) y.pos = .error f) :
    skipSplit k n y s = .error f := by
  have run : y.passRun = y := if_pos skipn
  unfold skipSplit
  rw [run]
  dsimp only
  rw [if_neg (not_not.2 skipn), push]

/-! ## What SKIP leaves -/

theorem launched_getLsbD (g : Group) (i : Nat) : g.launched.getLsbD i = true ↔ i < 32 ∧ i < g.lanes := by
  rw [Group.launched, BitVec.getLsbD_ofNat, Nat.testBit_two_pow_sub_one]
  simp

theorem quadLanes_getLsbD (q i : Nat) : (quadLanes (2 ^ q)).getLsbD i = true ↔ i < 32 ∧ i / 4 = q := by
  rw [quadLanes, BitVec.getLsbD_ofNat, testBit_maskOf, bitOf_eq_testBit, Nat.testBit_two_pow]
  simp only [Bool.and_eq_true, decide_eq_true_iff]
  omega

theorem ne_zero_iff_getLsbD (x : Word) : x ≠ 0#32 ↔ ∃ i, x.getLsbD i = true := by
  constructor
  · intro some_
    by_contra none_
    refine some_ (BitVec.eq_of_getLsbD_eq fun i _ => ?_)
    rw [BitVec.getLsbD_zero]
    exact Bool.eq_false_iff.2 fun h => none_ ⟨i, h⟩
  · rintro ⟨i, h⟩ rfl
    simp at h

/-- A quad of the path goes on with a lane when one of its active lanes is set. -/
theorem skipOn_iff {g : Group} {k q : Nat} (small : q < 8) (mine : bitOf p.qmask q = true) : bitOf (skipOn g p k) q = true ↔
    ∃ i, i / 4 = q ∧ p.lmask.getLsbD i = true ∧ i < g.lanes ∧ i < 32 ∧ (g.pred k).mask.getLsbD i = true := by
  rw [skipOn, bitOf_maskOf small, mine, Bool.true_and, bne_iff_ne, ne_zero_iff_getLsbD]
  refine exists_congr fun i => ?_
  simp only [skipLanes, BitVec.getLsbD_and, Bool.and_eq_true, launched_getLsbD, quadLanes_getLsbD]
  tauto

theorem skipOff_iff {g : Group} {k q : Nat} (small : q < 8) (mine : bitOf p.qmask q = true) :
    bitOf (skipOff g p k) q = true ↔ ¬ bitOf (skipOn g p k) q = true := by
  rw [skipOff, bitOf_maskOf small, mine]
  simp

theorem maskOf_sub {n q : Nat} {m : Nat} {f : Nat → Bool} (other : bitOf m q = false) : bitOf (maskOf n (fun q => bitOf m q && f q)) q = false := by
  rw [bitOf_eq_testBit, testBit_maskOf, other, Bool.false_and, Bool.and_false]

theorem ne_zero_of_bitOf {m q : Nat} (h : bitOf m q = true) : m ≠ 0 := by
  rintro rfl
  simp [bitOf] at h

theorem small_of_bitOf {m q : Nat} (le : m < 256) (h : bitOf m q = true) : q < 8 := by
  by_contra big
  rw [bitOf_eq_testBit, Nat.testBit_lt_two_pow (lt_of_lt_of_le le (Nat.pow_le_pow_right (n := 2) (by decide) (not_lt.1 big)))] at h
  exact absurd h (by decide)

theorem freed_nil (q : Quad) : q.freed [] = q := by
  have keep : q.acq.filter (fun k => !([] : List Nat).contains k) = q.acq := List.filter_eq_self.2 fun _ _ => rfl
  exact congrArg (fun acq => { q with acq := acq }) keep

section
variable {h : Group} {sole : Bool} (pass : s.grp.TrailerPassed p [] sole h)
include pass

theorem lanes_passed : h.lanes = s.grp.lanes := by
  obtain ⟨_, _, _, _, _, _, _, _, _, rfl, -⟩ := pass
  rfl

theorem paths_passed : h.paths = s.grp.paths := by
  obtain ⟨_, _, _, _, _, _, _, _, _, rfl, -⟩ := pass
  rfl

theorem pred_passed (quiet : s.grp.fx = []) (k : Nat) : h.pred k = s.grp.pred k := by
  obtain ⟨_, _, preds, _, _, _, _, _, _, rfl, -, same, -⟩ := pass
  exact congrArg (fun m : Tab PReg => if k = 0 then ({ mask := BitVec.allOnes 32 } : PReg) else m.get {} k) (same quiet)

theorem length_passed : h.quads.length = s.grp.quads.length := by
  obtain ⟨_, _, _, _, _, _, _, _, _, rfl, len, -⟩ := pass
  exact len

/-- A trailer that awaits no ticket leaves the quads alone so far. -/
theorem quad_passed (le : p.qmask < 256) (q : Nat) : h.quad q = s.grp.quad q := by
  have len := length_passed pass
  obtain ⟨_, _, _, _, _, quads, _, _, _, rfl, -, -, free, others, -⟩ := pass
  change ({ s.grp with quads := quads } : Group).quad q = _
  by_cases mine : bitOf p.qmask q = true
  · by_cases there : q < s.grp.quads.length
    · rw [free q (small_of_bitOf le mine) there, if_pos mine, freed_nil]
    · rw [Group.quad, Group.quad, List.getD_eq_default _ _ (le_of_eq_of_le len (not_lt.1 there)), List.getD_eq_default _ _ (not_lt.1 there)]
  · exact others q (Bool.eq_false_iff.2 mine)

theorem runLabel_passed (le : p.qmask < 256) (m : Nat) : h.runLabel m = s.grp.runLabel m := by
  rw [Group.runLabel, Group.runLabel]
  exact congrArg Label.joinAll (List.map_congr_left fun q _ => by rw [quad_passed pass le])

theorem skipLanes_passed (quiet : s.grp.fx = []) (y : Path) (k : Nat) : skipLanes h y k = skipLanes s.grp y k := by
  rw [skipLanes, skipLanes, Group.launched, Group.launched, lanes_passed pass, pred_passed pass quiet]

theorem skipOn_passed (quiet : s.grp.fx = []) (y : Path) (k : Nat) : skipOn h y k = skipOn s.grp y k := by
  rw [skipOn, skipOn, skipLanes_passed pass quiet]

theorem skipOnPath_passed (quiet : s.grp.fx = []) (y : Path) (k n : Nat) (st : List PathLbl) :
    skipOnPath h y k n st = skipOnPath s.grp y k n st := by
  rw [skipOnPath, skipOnPath, skipOn_passed pass quiet, pred_passed pass quiet]

theorem skipOffPath_passed (quiet : s.grp.fx = []) (y : Path) (k n : Nat) (st : List PathLbl) :
    skipOffPath h y k n st = skipOffPath s.grp y k n st := by
  rw [skipOffPath, skipOffPath, skipOff, skipOff, skipOn_passed pass quiet]

theorem cret_passed : h.cret = s.grp.cret + (if p.phase = .awaiting then 0 else 1) := by
  obtain ⟨_, _, _, _, _, _, _, _, _, rfl, -⟩ := pass
  rfl

theorem passTrailer_passed (le : p.qmask < 256) {q : Nat} (there : q < s.grp.quads.length) :
    ((h.passTrailer p.qmask).quad q).passed = (s.grp.quad q).passed + if bitOf p.qmask q then 1 else 0 := by
  rw [Group.passTrailer, Group.quad_mapQuads, length_passed pass, quad_passed pass le]
  by_cases mine : bitOf p.qmask q = true
  · rw [if_pos ⟨there, mine⟩, if_pos mine]
  · rw [if_neg fun h => mine h.2, if_neg mine, Nat.add_zero]

end

section
variable {k : BitVec 3} {n : BitVec 7} (one : s.grp.paths = [(s.curPath, p)]) (skipn : p.skipn = 0) (settled : s.settle s.cur = s)
  (none_ : awaited aw = []) (le : p.qmask < 256) (quiet : s.grp.fx = [])
  (goes : p.phase = .awaiting ∨ (s.grp.held p.qmask [.pred k.toNat] = false ∧ s.grp.predPending p.qmask = false))
include one settled none_ goes

/-- SKIP that waits for nothing is carried out (R226, R262). -/
theorem trlSkip_ready : ∃ h, s.grp.TrailerPassed p [] (s.soleIn .team s.cur) h ∧
    exec (.trlSkip aw k n) s =
      match skipSplit k n { p with waitc := 0, pass := false, nodrain := s.grp.active p == 0#32, trail := none } (s.setGrp h) with
      | .error f => s.faultC f
      | .ok s1 => .next s1 := by
  have path : s.grp.paths.find s.curPath = some p := by rw [one]; simp [Tab.find]
  have done : s.grp.ticketPending p.qmask (awaited aw) = false := by simp [none_, Group.ticketPending]
  have landed : p.phase = .awaiting ∨ s.grp.predPending p.qmask = false := goes.imp id And.right
  obtain ⟨h, pass, run⟩ := trailer_ready (i := .trlSkip aw k n) (act := skipSplit k n) path settled landed done
  rw [none_] at pass
  refine ⟨h, pass, ?_⟩
  have all : s.grp.ops.filter (fun o => !(awaited aw).contains o.tk) = s.grp.ops := List.filter_eq_self.2 fun _ _ => by rw [none_]; rfl
  have free : ¬ ((!(s.path.phase == .awaiting) && ({ s.grp with ops := s.grp.ops.filter (fun o => !(awaited aw).contains o.tk) } : Group).held
      s.path.qmask [.pred k.toNat]) = true) := by
    rw [path_of_find path, all]
    rcases goes with awaits | ⟨free, -⟩
    · simp [awaits]
    · rw [show ({ s.grp with ops := s.grp.ops } : Group) = s.grp from rfl, free, Bool.and_false]
      decide
  rw [exec_trlSkip, execTrlSkip]
  rw [if_neg free]
  exact run

include skipn le quiet

theorem trlSkip_fails {f : Flt} (push : pushLabel 8 (s.ceil s.cur) p.pls (topLabel p.pls ||| ((s.grp.pred k.toNat).lbl ||| s.grp.runLabel p.qmask)) p.pos = .error f) :
    exec (.trlSkip aw k n) s = .next (s.raiseC f) := by
  obtain ⟨h, pass, run⟩ := trlSkip_ready (n := n) one settled none_ goes
  have fails := skipSplit_fails (s := s.setGrp h) (k := k) (n := n)
    (y := { p with waitc := 0, pass := false, nodrain := s.grp.active p == 0#32, trail := none }) skipn
    (f := f) (by
      rw [State.grp_setGrp]
      dsimp only
      rw [pred_passed pass quiet, runLabel_passed pass le]
      exact push)
  rw [run, fails]
  rfl

theorem trlSkip_splits (low : s.curPath < 8) {st : List PathLbl}
    (push : pushLabel 8 (s.ceil s.cur) p.pls (topLabel p.pls ||| ((s.grp.pred k.toNat).lbl ||| s.grp.runLabel p.qmask)) p.pos = .ok st) :
    Completes (exec (.trlSkip aw k n) s) (fun t => OnlyGroup s.cur s t ∧ t.grp.cret = s.grp.cret + (if p.phase = .awaiting then 0 else 1) ∧
      (∀ q, q < s.grp.quads.length → (t.grp.quad q).passed = (s.grp.quad q).passed + if bitOf p.qmask q then 1 else 0) ∧
      SplitPaths
        (skipOnPath s.grp { p with waitc := 0, pass := false, nodrain := s.grp.active p == 0#32, trail := none } k.toNat n.toNat st)
        (skipOffPath s.grp { p with waitc := 0, pass := false, nodrain := s.grp.active p == 0#32, trail := none } k.toNat n.toNat st) t.grp.paths) := by
  obtain ⟨h, pass, run⟩ := trlSkip_ready (n := n) one settled none_ goes
  have splits := skipSplit_eq (s := s.setGrp h) (k := k) (n := n)
    (y := { p with waitc := 0, pass := false, nodrain := s.grp.active p == 0#32, trail := none }) (st := st) skipn
    (by
      rw [State.grp_setGrp]
      dsimp only
      rw [pred_passed pass quiet, runLabel_passed pass le]
      exact push)
  rw [State.grp_setGrp, State.setGrp_setGrp] at splits
  rw [run, splits]
  refine ⟨_, rfl, setGrp_onlyGroup s _, ?_⟩
  rw [State.grp_setGrp]
  refine ⟨(show _ = h.cret from rfl).trans (cret_passed pass), fun q there => (show _ = ((h.passTrailer p.qmask).quad q).passed from rfl).trans
    (passTrailer_passed pass le there), ?_⟩
  rw [skipOnPath_passed pass quiet, skipOffPath_passed pass quiet]
  exact skipPaths_split ((paths_passed pass).trans one) low

end

/-! ## The obligation -/

/-- The waits that TAKE, FALL and END share. -/
theorem plain_waits {i : Instr} (plain : ∃ act, exec i s = trailer i aw act s) (path : s.grp.paths.find s.curPath = some p) :
    (p.phase ≠ .awaiting → s.grp.predPending p.qmask = true → exec i s = .next (s.setPath { p with waitc := 0x108 })) ∧
    (p.phase = .awaiting → s.grp.ticketPending p.qmask (awaited aw) = true → exec i s = .next s) ∧
    (p.phase ≠ .awaiting → s.grp.predPending p.qmask = false → s.grp.ticketPending p.qmask (awaited aw) = true →
      Completes (exec i s) (fun t => OnlyGroup s.cur s t ∧ t.grp.paths = s.grp.paths.put s.curPath
          { p with waitc := 0, pass := false, nodrain := s.grp.active p == 0#32, phase := .awaiting, trail := some i } ∧
        t.grp.cret = s.grp.cret + 1 ∧ t.grp.rq = s.grp.rq ∧ t.grp.apc = s.grp.apc ∧ t.grp.sregs = s.grp.sregs ∧ t.grp.ops = s.grp.ops ∧
        t.grp.quads = s.grp.quads)) := by
  obtain ⟨act, run⟩ := plain
  rw [run]
  refine ⟨fun issues pending => trailer_waits path issues pending, fun awaits pending => trailer_idles path awaits pending,
    fun issues landed pending => ?_⟩
  rw [trailer_awaits path issues landed pending]
  exact ⟨_, rfl, awaiting_spec _ rfl⟩

theorem plain_mem {i : Instr} (h : i ∈ [Instr.trlTake aw, .trlFall aw, .trlEnd aw]) : ∃ act, exec i s = trailer i aw act s := by
  simp only [List.mem_cons, List.not_mem_nil, or_false] at h
  rcases h with rfl | rfl | rfl
  · rw [exec_trlTake, execTrlTake]
    exact ⟨_, rfl⟩
  · rw [exec_trlFall, execTrlFall]
    exact ⟨_, rfl⟩
  · rw [exec_trlEnd, execTrlEnd]
    exact ⟨_, rfl⟩

/-- Settles O42: a trailer that waits for nothing is carried out at one point, its tickets freed; SKIP pushes its label there and puts the
quads of the path in one entry or two. -/
theorem plainTrailers : Obligations.PlainTrailers := by
  unfold Obligations.PlainTrailers
  refine ⟨fun s aw p path settled => ⟨?_, fun i hi => ?_⟩, fun s aw k n p one low skipn => ?_⟩
  · rintro ⟨landed, done⟩
    have free := (ticketPending_iff s.grp p.qmask (awaited aw)).2 done
    exact ⟨trlTake_completes path settled landed free, trlFall_completes path settled landed free,
      trlEnd_completes (p := p) path settled landed free⟩
  · have pending (undone : ¬ ∀ q ∈ quadSet p.qmask, ∀ k ∈ awaited aw, (s.grp.quad q).ticket k ≠ 1) :
        s.grp.ticketPending p.qmask (awaited aw) = true := by
      rw [← Bool.not_eq_false]
      exact fun free => undone ((ticketPending_iff ..).1 free)
    obtain ⟨waits, idles, awaits⟩ := plain_waits (plain_mem hi) path
    exact ⟨waits, fun a undone => idles a (pending undone), fun a landed undone => awaits a landed (pending undone)⟩
  · intro g settled none_ le goes pk l on e room quiet _
    have fails {f : Flt} := trlSkip_fails (n := n) (f := f) one skipn settled none_ le quiet goes
    refine ⟨fun outside => ?_, fun within full => ?_, fun within free => ?_⟩
    · exact fails (pushLabel_of_not_within outside ..)
    · exact fails (pushLabel_eight_of_full within full)
    · obtain ⟨t, run, only, cret, passed, all, on_, off_⟩ :=
        trlSkip_splits (n := n) one skipn settled none_ le quiet goes low (pushLabel_eight_of_room within free)
      refine ⟨t, run, only, cret, passed, fun x hx => ?_, fun q mine => ⟨fun goesOn => ?_, fun stays => ?_⟩, fun q other x hx => ?_⟩
      · rcases all x hx with eq | eq
        · exact ⟨_, .inl eq⟩
        · exact ⟨_, .inr eq⟩
      · have bit := (skipOn_iff (small_of_bitOf le mine) mine).2 goesOn
        obtain ⟨x, hx, eq⟩ := on_ (ne_zero_of_bitOf bit)
        exact ⟨x, hx, by rw [eq]; exact ⟨bit, rfl⟩⟩
      · have bit := (skipOff_iff (k := k.toNat) (small_of_bitOf le mine) mine).2 fun h => stays ((skipOn_iff (small_of_bitOf le mine) mine).1 h)
        obtain ⟨x, hx, eq⟩ := off_ (ne_zero_of_bitOf bit)
        exact ⟨x, hx, by rw [eq]; exact ⟨bit, rfl⟩⟩
      · rcases all x hx with eq | eq
        · rw [eq]
          exact maskOf_sub other
        · rw [eq]
          exact maskOf_sub other

end Sys2Proof.Machine
end


section
/-! PROOFS. What the distributor's own accesses leave alone, and what the end of a team changes (R373, R379, R411). -/

namespace Sys2Proof.Machine

open Sys2Proof

variable {s t u : State} {k : Nat}

/-! ## Tables changed value by value -/

theorem Tab.find_mapVals {α β : Type} (f : Nat → α → β) (m : Tab α) (k : Nat) : (m.mapVals f).find k = (m.find k).map (f k) := by
  induction m with
  | nil => rfl
  | cons e m ih =>
    obtain ⟨j, v⟩ := e
    change (if j = k then some (f j v) else Tab.find (Tab.mapVals f m) k) = (if j = k then some v else Tab.find m k).map (f k)
    by_cases here : j = k
    · rw [if_pos here, if_pos here, here]
      rfl
    · rw [if_neg here, if_neg here, ih]

theorem Tab.get_eq_find {α : Type} (d : α) (m : Tab α) (k : Nat) : m.get d k = (m.find k).getD d := by
  induction m with
  | nil => rfl
  | cons e m ih =>
    obtain ⟨j, v⟩ := e
    change (if j = k then v else Tab.get d m k) = (if j = k then some v else Tab.find m k).getD d
    by_cases here : j = k
    · rw [if_pos here, if_pos here]
      rfl
    · rw [if_neg here, if_neg here, ih]

/-- A listed value is changed, and an unlisted one reads as before. -/
theorem Tab.get_mapVals {α β : Type} (f : Nat → α → β) (d : α) (e : β) (m : Tab α) (k : Nat) :
    (m.mapVals f).get e k = if (m.find k).isSome then f k (m.get d k) else e := by
  rw [Tab.get_eq_find, Tab.find_mapVals, Tab.get_eq_find]
  cases m.find k <;> rfl

theorem Tab.isSome_find_of_mem {α : Type} {m : Tab α} {e : Nat × α} (h : e ∈ m) : (m.find e.1).isSome := by
  induction m with
  | nil => cases h
  | cons x m ih =>
    obtain ⟨j, v⟩ := x
    change (if j = e.1 then some v else Tab.find m e.1).isSome
    split
    · rfl
    · rename_i other
      rcases List.mem_cons.1 h with rfl | h
      · exact absurd rfl other
      · exact ih h

/-! ## The device's own accesses (log 17) -/

namespace State.OwnTo

theorem teams (h : s.OwnTo t) : t.teams = s.teams := by
  obtain ⟨_, _, _, _, _, _, _, _, _, _, _, _, _, rfl⟩ := h
  rfl

theorem grids (h : s.OwnTo t) : t.grids = s.grids := by
  obtain ⟨_, _, _, _, _, _, _, _, _, _, _, _, _, rfl⟩ := h
  rfl

theorem held (h : s.OwnTo t) : t.held = s.held := by
  obtain ⟨_, _, _, _, _, _, _, _, _, _, _, _, _, rfl⟩ := h
  rfl

theorem detsets (h : s.OwnTo t) : t.detsets = s.detsets := by
  obtain ⟨_, _, _, _, _, _, _, _, _, _, _, _, _, rfl⟩ := h
  rfl

theorem admissions (h : s.OwnTo t) : t.admissions = s.admissions := by
  obtain ⟨_, _, _, _, _, _, _, _, _, _, _, _, _, rfl⟩ := h
  rfl

theorem cycle (h : s.OwnTo t) : t.cycle = s.cycle := by
  obtain ⟨_, _, _, _, _, _, _, _, _, _, _, _, _, rfl⟩ := h
  rfl

theorem team (h : s.OwnTo t) (j : Nat) : t.team j = s.team j := congrArg (Tab.get Team.empty · j) h.teams

theorem grid (h : s.OwnTo t) (j : Nat) : t.grid j = s.grid j := congrArg (Tab.get Grid.empty · j) h.grids

theorem group (h : s.OwnTo t) (j : Nat) : t.group j = s.group j := congrArg (Tab.get Group.empty · j) h.groups

theorem deviceSignal (h : s.OwnTo t) (ctx va : Nat) : s.OwnTo (t.deviceSignal ctx va) := by
  unfold State.deviceSignal
  refine OwnTo.ite h ?_
  split
  · exact OwnTo.ite (h.deviceApply _) (h.deviceSend _ _ _ _)
  · exact h

theorem ownAct (h : s.OwnTo t) (ctx : Nat) (a : OwnAct) : s.OwnTo (t.ownAct ctx a) := by
  cases a with
  | write va bs => exact h.deviceWrite ctx va bs
  | signal va => exact h.deviceSignal ctx va

theorem inOrder (ctx : Nat) (as : List OwnAct) (s0 : State) (h : s.OwnTo t) : s.OwnTo (State.inOrder ctx as s0 t) := by
  induction as generalizing s0 t with
  | nil => exact h
  | cons a as ih =>
    unfold State.inOrder
    split
    · exact ih _ (h.ownAct ctx a)
    · exact h.trans ⟨_, _, _, _, _, _, _, _, _, _, _, _, _, rfl⟩

theorem forget (h : s.OwnTo t) (ctx : Nat) (away : List (Nat × Nat)) : s.OwnTo (t.forget ctx away) := by
  unfold State.forget
  exact OwnTo.ite h (h.trans ⟨_, _, _, _, _, _, _, _, _, _, _, _, _, rfl⟩)

end State.OwnTo

/-- Once what other devices hold has been read, the step is made, and what has been read is forgotten. -/
theorem withOwn_of_read {ctx : Nat} {spans : List (Nat × Nat)} {run : State → Out} (read : s.missing ctx spans = []) (next : run s = .next u) :
    s.withOwn ctx spans run = .next (u.forget ctx (s.spansAway ctx spans)) := by
  rw [State.withOwn, read, next]
  rfl

/-- Until then it is asked for. -/
theorem withOwn_of_missing {ctx : Nat} {spans : List (Nat × Nat)} {run : State → Out} (missing : s.missing ctx spans ≠ []) :
    s.withOwn ctx spans run = .next (s.askSpans ctx spans) := by
  rw [State.withOwn, if_neg (by simpa using missing)]

/-- The release of a grid changes its mark, and what a signal of the device's own touches. -/
theorem earlyRelease_eq (s : State) (gr : Nat) : ∃ b, (s.setGrid gr { s.grid gr with earlyDone := b }).OwnTo (s.earlyRelease gr) ∨ s.earlyRelease gr = s := by
  unfold State.earlyRelease
  dsimp only
  split
  · exact ⟨true, .inl ((State.OwnTo.refl _).deviceSignal _ _)⟩
  · exact ⟨true, .inr rfl⟩

theorem grid_setGrid_all (s : State) (n : Nat) (x : Grid) (j : Nat) : (s.setGrid n x).grid j = if j = n then x else s.grid j :=
  Tab.get_put Grid.empty s.grids n j x

theorem team_setTeam_all (s : State) (n : Nat) (x : Team) (j : Nat) : (s.setTeam n x).team j = if j = n then x else s.team j :=
  Tab.get_put Team.empty s.teams n j x

section
variable (s : State) (gr : Nat)

theorem teams_earlyRelease : (s.earlyRelease gr).teams = s.teams := by
  obtain ⟨b, own | same⟩ := earlyRelease_eq s gr
  · exact own.teams
  · rw [same]

theorem groups_earlyRelease : (s.earlyRelease gr).groups = s.groups := by
  obtain ⟨b, own | same⟩ := earlyRelease_eq s gr
  · exact own.groups
  · rw [same]

theorem held_earlyRelease : (s.earlyRelease gr).held = s.held := by
  obtain ⟨b, own | same⟩ := earlyRelease_eq s gr
  · exact own.held
  · rw [same]

theorem detsets_earlyRelease : (s.earlyRelease gr).detsets = s.detsets := by
  obtain ⟨b, own | same⟩ := earlyRelease_eq s gr
  · exact own.detsets
  · rw [same]

theorem admissions_earlyRelease : (s.earlyRelease gr).admissions = s.admissions := by
  obtain ⟨b, own | same⟩ := earlyRelease_eq s gr
  · exact own.admissions
  · rw [same]

theorem team_earlyRelease (j : Nat) : (s.earlyRelease gr).team j = s.team j := congrArg (Tab.get Team.empty · j) (teams_earlyRelease s gr)

theorem group_earlyRelease (j : Nat) : (s.earlyRelease gr).group j = s.group j := congrArg (Tab.get Group.empty · j) (groups_earlyRelease s gr)

/-- Of the grids, only the mark of the one released changes. -/
theorem grid_earlyRelease_self : ∃ b, (s.earlyRelease gr).grid gr = { s.grid gr with earlyDone := b } := by
  obtain ⟨b, own | same⟩ := earlyRelease_eq s gr
  · exact ⟨b, by rw [own.grid, grid_setGrid_all, if_pos rfl]⟩
  · exact ⟨(s.grid gr).earlyDone, by rw [same]⟩

theorem grid_earlyRelease_ne {j : Nat} (other : j ≠ gr) : (s.earlyRelease gr).grid j = s.grid j := by
  obtain ⟨b, own | same⟩ := earlyRelease_eq s gr
  · rw [own.grid, grid_setGrid_all, if_neg other]
  · rw [same]

end

/-! ## The end of a team (R373, R379, R411) -/

/-- Two teams differ in whom room is held for alone. -/
def Team.SameBut (x y : Team) : Prop := y = { x with holdFor := y.holdFor }

theorem Team.SameBut.refl (x : Team) : x.SameBut x := rfl

theorem Team.SameBut.of_eq {x y : Team} (h : y = x) : x.SameBut y := h ▸ rfl

theorem Team.SameBut.of_holdFor {x : Team} (w : Option Nat) : x.SameBut { x with holdFor := w } := rfl

theorem Team.SameBut.trans {x y z : Team} (h : x.SameBut y) (h' : y.SameBut z) : x.SameBut z := by
  unfold Team.SameBut at *
  rw [h', h]

/-- Room held that lapses. -/
theorem team_dropHolds (s : State) (w j : Nat) : (s.team j).SameBut ((s.dropHolds w).team j) := by
  have mapped : (s.dropHolds w).team j = if (s.teams.find j).isSome then
      (if (s.team j).holdFor = some w then { s.team j with holdFor := none } else s.team j) else Team.empty :=
    Tab.get_mapVals (β := Team) (fun _ (x : Team) => if x.holdFor = some w then { x with holdFor := none } else x) Team.empty Team.empty s.teams j
  rw [mapped]
  split
  · split
    · exact .of_holdFor _
    · exact .refl _
  · rename_i absent
    exact .of_eq (by rw [State.team, Tab.get_eq_find, Option.not_isSome_iff_eq_none.1 absent]; rfl)

theorem teams_leaveQueues (s : State) (n : Nat) : (s.leaveQueues n).teams = s.teams := by
  unfold State.leaveQueues
  dsimp only
  split <;> rfl

theorem teams_leaveCore (s : State) (n : Nat) : (s.leaveCore n).teams = s.teams ∨ (s.leaveCore n).teams = s.teams.put n { s.team n with holdFor := none } := by
  unfold State.leaveCore
  dsimp only
  split
  · refine .inr ?_
    change (s.leaveQueues n).teams.put n _ = _
    rw [teams_leaveQueues]
  · exact .inl (teams_leaveQueues s n)

theorem team_leaveCore_ne (s : State) {n j : Nat} (other : j ≠ n) : (s.leaveCore n).team j = s.team j := by
  rcases teams_leaveCore s n with same | put
  · rw [State.team, same]
    rfl
  · rw [State.team, put, Tab.get_put_ne _ _ _ other]
    rfl

theorem team_leaveCore (s : State) (n j : Nat) : (s.team j).SameBut ((s.leaveCore n).team j) := by
  rcases teams_leaveCore s n with same | put
  · exact .of_eq (congrArg (Tab.get Team.empty · j) same)
  · refine .trans ?_ (.of_eq (congrArg (Tab.get Team.empty · j) put))
    rw [Tab.get_put]
    split
    · rename_i here
      rw [here]
      exact .of_holdFor _
    · exact .refl _

theorem grids_leaveCore (s : State) (n : Nat) : (s.leaveCore n).grids = s.grids := by
  have left : (s.leaveQueues n).grids = s.grids := by
    unfold State.leaveQueues
    dsimp only
    split <;> rfl
  unfold State.leaveCore
  dsimp only
  split
  · exact left
  · exact left

theorem held_leaveCore (s : State) (n : Nat) : (s.leaveCore n).held = s.held := by
  have left : (s.leaveQueues n).held = s.held := by
    unfold State.leaveQueues
    dsimp only
    split <;> rfl
  unfold State.leaveCore
  dsimp only
  split
  · exact left
  · exact left

/-- Arrivals held for a team are answered and dropped. -/
theorem dropHeld_eq (s : State) (n : Nat) : ∃ u, s.OwnTo u ∧ s.dropHeld n = { u with held := s.held.filter (fun h => !h.isFor (s.team n)) } := by
  refine ⟨_, (State.OwnTo.refl s).foldl (fun u h hu => ?_) _, rfl⟩
  unfold State.heldDone
  split
  · exact hu.send _
  · exact hu.send _
  · exact hu
  · rename_i none_
    exact absurd none_ (by simp)

/-- A team as it is after its end, but for whom room is held. -/
def Team.over (x : Team) (st : TState) : Team :=
  { x with state := st, block := none, whand := [], wq := [], banks := 0#64, resv := [], pitches := [], bell := none, pending := false, image := [] }

theorem Team.SameBut.over {x y : Team} (h : x.SameBut y) (st : TState) : (x.over st).SameBut (y.over st) := by
  unfold Team.SameBut at h ⊢
  rw [h]
  rfl

/-- The state before the header of an ended team: it has left its core, says so in memory, and what is held for it is dropped. -/
def State.leaving (s : State) (n : Nat) (st : TState) : State := ((s.leaveCore n).blockWrite n 0 (bytesOf st.code 1)).dropHeld n

section
variable (s : State) (n : Nat) (st : TState)

theorem own_leaving : ∃ u held, (s.leaveCore n).OwnTo u ∧ s.leaving n st = { u with held := held } ∧ held = s.held.filter (fun h => !h.isFor (s.team n)) := by
  have own := (State.OwnTo.refl (s.leaveCore n)).blockWrite n 0 (bytesOf st.code 1)
  obtain ⟨u, sent, eq⟩ := dropHeld_eq ((s.leaveCore n).blockWrite n 0 (bytesOf st.code 1)) n
  refine ⟨u, _, own.trans sent, eq, ?_⟩
  rw [own.held, own.team, held_leaveCore]
  have same := team_leaveCore s n n
  unfold Team.SameBut at same
  rw [same]
  rfl

theorem team_leaving (j : Nat) : (s.leaving n st).team j = (s.leaveCore n).team j := by
  obtain ⟨u, held, own, eq, -⟩ := own_leaving s n st
  rw [eq]
  exact own.team j

theorem grid_leaving (j : Nat) : (s.leaving n st).grid j = s.grid j := by
  obtain ⟨u, held, own, eq, -⟩ := own_leaving s n st
  rw [eq]
  exact (own.grid j).trans (congrArg (Tab.get Grid.empty · j) (grids_leaveCore s n))

theorem held_leaving : (s.leaving n st).held = s.held.filter (fun h => !h.isFor (s.team n)) := by
  obtain ⟨u, held, own, eq, mine⟩ := own_leaving s n st
  rw [eq]
  exact mine

theorem endTeam_eq : s.endTeam n st =
    let s1 := s.leaving n st
    let x := s1.team n
    let s2 := (s1.setGrid x.grid { s1.grid x.grid with blocks := (s1.grid x.grid).blocks.filter (fun b => x.block != some b) }).dropHolds (2 * n)
    s2.setTeam n ((s2.team n).over st) := rfl

theorem team_endTeam_self : ((s.team n).over st).SameBut ((s.endTeam n st).team n) := by
  rw [endTeam_eq]
  dsimp only
  rw [State.team_setTeam]
  refine Team.SameBut.over (.trans ?_ (team_dropHolds _ _ _)) st
  exact (team_leaveCore s n n).trans (.of_eq (team_leaving s n st n))

theorem team_endTeam_ne {j : Nat} (other : j ≠ n) : (s.team j).SameBut ((s.endTeam n st).team j) := by
  rw [endTeam_eq]
  dsimp only
  rw [State.team_setTeam_ne _ _ other]
  refine .trans ?_ (team_dropHolds _ _ _)
  exact .of_eq ((team_leaving s n st j).trans (team_leaveCore_ne s other))

/-- Of the grids, the team's own has the block of the team free again. -/
theorem grid_endTeam (j : Nat) : (s.endTeam n st).grid j =
    if j = (s.team n).grid then { s.grid j with blocks := (s.grid j).blocks.filter (fun b => (s.team n).block != some b) } else s.grid j := by
  have mine : (s.leaving n st).team n = { s.team n with holdFor := ((s.leaving n st).team n).holdFor } :=
    (team_leaveCore s n n).trans (.of_eq (team_leaving s n st n))
  rw [endTeam_eq]
  dsimp only
  refine (show _ = ((s.leaving n st).setGrid _ _).grid j from rfl).trans ?_
  rw [grid_setGrid_all, mine]
  dsimp only
  rw [grid_leaving, grid_leaving]
  split
  · rename_i here
    rw [here]
  · rfl

theorem held_endTeam : (s.endTeam n st).held = s.held.filter (fun h => !h.isFor (s.team n)) := held_leaving s n st

end

end Sys2Proof.Machine
end


section
/-! PROOFS. Admission, placement, and the limits of R367 and R370. -/

namespace Sys2Proof.Machine

open Sys2Proof

variable {s t u : State}

/-! ## Asking for what other devices hold (log 17, log 18) -/

/-- A request of the device's own for a sector is under way. -/
def State.Asked (s : State) : Prop := ∃ e ∈ s.tags, e.2.g = noGroup ∧ e.2.op = 1

theorem tags_send (s : State) (f : Frame) : (s.send f).tags = s.tags := by
  unfold State.send
  split
  · rfl
  · dsimp only
    split <;> rfl

theorem asked_askOwn (s : State) (ctx sec page : Nat) : (s.askOwn ctx sec page).Asked := by
  unfold State.askOwn State.Asked
  split
  · rename_i asked
    obtain ⟨e, he, is⟩ := List.any_eq_true.1 asked
    simp only [Bool.and_eq_true, beq_iff_eq] at is
    exact ⟨e, he, is.1.1.1, is.1.1.2⟩
  · dsimp only
    rw [tags_send]
    exact ⟨_, Tab.mem_of_find (Tab.find_put_self _ _ _), rfl, rfl⟩

theorem own_askOwn {s t : State} (h : s.OwnTo t) (ctx sec page : Nat) : s.OwnTo (t.askOwn ctx sec page) := by
  unfold State.askOwn
  exact State.OwnTo.ite h ((h.newTag _).send _)

theorem mem_askOwn (s : State) (ctx sec page : Nat) : (s.askOwn ctx sec page).mem = s.mem := by
  have sent (u : State) (f : Frame) : (u.send f).mem = u.mem := by
    unfold State.send
    split
    · rfl
    · dsimp only
      split <;> rfl
  unfold State.askOwn
  split
  · rfl
  · exact sent _ _

/-- Asking for something leaves a request under way and nothing else of note. -/
theorem asked_askSpans {ctx : Nat} {spans : List (Nat × Nat)} (missing : s.missing ctx spans ≠ [])
    (quiet : ∀ e ∈ s.tags, e.2.g ≠ noGroup ∨ e.2.op ≠ 0) :
    s.OwnTo (s.askSpans ctx spans) ∧ (s.askSpans ctx spans).mem = s.mem ∧ (s.askSpans ctx spans).Asked := by
  have free : s.tags.any (fun e => e.2.g == noGroup && e.2.op == 0 && (s.missing ctx spans).any (fun x => devOf (32 * x.1) == e.2.dev)) = false := by
    refine List.any_eq_false.2 fun e he => ?_
    rcases quiet e he with other | other <;> simp [other]
  unfold State.askSpans
  dsimp only
  rw [if_neg (by rw [free]; decide)]
  refine ⟨(State.OwnTo.refl s).foldl (fun _ _ h => own_askOwn h _ _ _) _, keeps_foldl (P := fun u : State => u.mem = s.mem) (fun u x h => (mem_askOwn u _ _ _).trans h) _ s rfl, ?_⟩
  obtain ⟨e, es, eq⟩ := List.exists_cons_of_ne_nil missing
  rw [eq, List.foldl_cons]
  exact keeps_foldl (P := State.Asked) (fun u x _ => asked_askOwn u _ _ _) es _ (asked_askOwn s _ _ _)

theorem mem_missing {ctx : Nat} {spans : List (Nat × Nat)} (e : Nat × Nat) : e ∈ s.missing ctx spans ↔
    e ∈ spans.flatMap (fun p => s.sectorsAway ctx p.1 p.2) ∧ s.ownReads.find (e.1 * 2 ^ 16 + ctx) = none := by
  rw [State.missing, List.mem_filter, State.spansAway, List.mem_eraseDups, Option.isNone_iff_eq_none]
  rfl

/-! ## Admission (R144, R147, R365) -/

/-- A grid as it is admitted. -/
def State.admitted (s : State) (gr : Nat) : Grid :=
  { s.grid gr with admitted := true, admittedAt := s.admissions,
                   hash := Config.sha512 (s.deviceRead (s.grid gr).ctx (s.grid gr).rec_.acode (s.grid gr).rec_.asize ++
                     s.deviceRead (s.grid gr).ctx (s.grid gr).rec_.ccode (s.grid gr).rec_.csize) }

/-- The state of an admission. -/
def State.admission (s : State) (gr : Nat) : State :=
  if s.kbankLabel (s.grid gr) = 0#16 then State.setGrid { s with admissions := s.admissions + 1 } gr (s.admitted gr)
  else (State.setGrid { s with admissions := s.admissions + 1 } gr { s.admitted gr with code := 0x05, gend := true }).earlyRelease gr

section
variable {gr : Nat} (fresh : (s.grid gr).admitted = false) (stays : (s.grid gr).retired = false) (runs : (s.grid gr).gend = false)
  (leases : s.leasesIn (s.grid gr) = true)
include fresh stays runs leases

theorem gridAdmit_asks (missing : s.missing (s.grid gr).ctx (s.grid gr).rec_.admitSpans ≠ []) :
    exec (.gridAdmit gr) s = .next (s.askSpans (s.grid gr).ctx (s.grid gr).rec_.admitSpans) := by
  rw [exec_gridAdmit, execGridAdmit]
  dsimp only
  rw [if_neg (by simp [fresh, stays, runs, leases]), withOwn_of_missing missing]

theorem gridAdmit_admits (read : s.missing (s.grid gr).ctx (s.grid gr).rec_.admitSpans = []) :
    exec (.gridAdmit gr) s = .next ((s.admission gr).forget (s.grid gr).ctx (s.spansAway (s.grid gr).ctx (s.grid gr).rec_.admitSpans)) := by
  rw [exec_gridAdmit, execGridAdmit]
  dsimp only
  rw [if_neg (by simp [fresh, stays, runs, leases]), withOwn_of_read read]
  unfold State.admission
  by_cases plain : s.kbankLabel (s.grid gr) = 0#16
  · rw [if_pos plain, if_pos plain]
    rfl
  · rw [if_neg plain, if_neg plain]
    rfl

end

theorem own_forget (s : State) (ctx : Nat) (away : List (Nat × Nat)) : s.OwnTo (s.forget ctx away) := (State.OwnTo.refl s).forget ctx away

theorem mem_forget (s : State) (ctx : Nat) (away : List (Nat × Nat)) : (s.forget ctx away).mem = s.mem := by
  unfold State.forget
  split <;> rfl

/-- With no group left, the release of a grid that has ended is made. -/
theorem earlyDone_earlyRelease {gr : Nat} (ended : (s.grid gr).gend = true) (empty : s.groups = []) : ((s.earlyRelease gr).grid gr).earlyDone = true := by
  unfold State.earlyRelease
  dsimp only
  by_cases done : (s.grid gr).earlyDone = true
  · rw [if_neg (by simp [done])]
    exact done
  · rw [if_pos (by simp [done, ended, empty]), ((State.OwnTo.refl _).deviceSignal _ _).grid gr, grid_setGrid_all, if_pos rfl]

section
variable {gr : Nat}

theorem admission_grid (s : State) (gr : Nat) : ((s.admission gr).grid gr).admitted = true ∧ ((s.admission gr).grid gr).hash = (s.admitted gr).hash ∧
    (s.admission gr).admissions = s.admissions + 1 := by
  unfold State.admission
  split
  · rw [grid_setGrid_all, if_pos rfl]
    exact ⟨rfl, rfl, rfl⟩
  · obtain ⟨b, eq⟩ := grid_earlyRelease_self
      (State.setGrid { s with admissions := s.admissions + 1 } gr { s.admitted gr with code := 0x05, gend := true }) gr
    rw [eq, grid_setGrid_all, if_pos rfl, admissions_earlyRelease]
    exact ⟨rfl, rfl, rfl⟩

theorem admission_plain (plain : s.kbankLabel (s.grid gr) = 0#16) : ((s.admission gr).grid gr).gend = (s.grid gr).gend ∧ (s.admission gr).mem = s.mem := by
  rw [State.admission, if_pos plain, grid_setGrid_all, if_pos rfl]
  exact ⟨rfl, rfl⟩

theorem admission_labelled (labelled : s.kbankLabel (s.grid gr) ≠ 0#16) : ((s.admission gr).grid gr).gend = true ∧ ((s.admission gr).grid gr).code = 5 ∧
    (s.groups = [] → ((s.admission gr).grid gr).earlyDone = true) := by
  rw [State.admission, if_neg labelled]
  refine ⟨?_, ?_, fun empty => earlyDone_earlyRelease ?_ empty⟩
  · obtain ⟨b, eq⟩ := grid_earlyRelease_self
      (State.setGrid { s with admissions := s.admissions + 1 } gr { s.admitted gr with code := 0x05, gend := true }) gr
    rw [eq, grid_setGrid_all, if_pos rfl]
  · obtain ⟨b, eq⟩ := grid_earlyRelease_self
      (State.setGrid { s with admissions := s.admissions + 1 } gr { s.admitted gr with code := 0x05, gend := true }) gr
    rw [eq, grid_setGrid_all, if_pos rfl]
  · rw [grid_setGrid_all, if_pos rfl]

end

/-! ## Placing (R368, R378) -/

/-- Nothing differs but what the device's own accesses touch, and labels of memory. -/
def State.LabelledTo (s t : State) : Prop := ∃ glbl, ({ s with glbl := glbl } : State).OwnTo t

theorem State.LabelledTo.own {s t u : State} (h : s.LabelledTo t) (h' : t.OwnTo u) : s.LabelledTo u := by
  obtain ⟨glbl, own⟩ := h
  exact ⟨glbl, own.trans h'⟩

theorem State.LabelledTo.raiseLabel {s t : State} (h : s.LabelledTo t) (la : Nat) (l : Label) : s.LabelledTo (t.raiseLabel la l) := by
  obtain ⟨glbl, _, _, _, _, _, _, _, _, _, _, _, _, _, rfl⟩ := h
  exact ⟨_, _, _, _, _, _, _, _, _, _, _, _, _, _, rfl⟩

theorem State.LabelledTo.labelBlock (s : State) (ctx base pages : Nat) (clr : Label) : s.LabelledTo (s.labelBlock ctx base pages clr) := by
  have refl : s.LabelledTo s := ⟨s.glbl, .refl s⟩
  unfold State.labelBlock
  split
  · exact refl
  · refine keeps_foldl (P := s.LabelledTo) (fun u i hu => ?_) _ _ refl
    split
    · split
      · exact hu.raiseLabel _ _
      · exact hu.own ((State.OwnTo.refl u).deviceSend _ _ _ _)
    · exact hu

theorem State.LabelledTo.teams {s t : State} (h : s.LabelledTo t) : t.teams = s.teams := h.choose_spec.teams

theorem State.LabelledTo.grids {s t : State} (h : s.LabelledTo t) : t.grids = s.grids := h.choose_spec.grids

theorem State.LabelledTo.groups {s t : State} (h : s.LabelledTo t) : t.groups = s.groups := h.choose_spec.groups

theorem get_foldl_put {α β : Type} (d : α) (b : Nat) (f : Nat → β → α) (l : List β) (n : Nat) (m : Tab α) (k : Nat) :
    ((l.zipIdx n).foldl (fun a x => a.put (b + x.2) (f x.2 x.1)) m).get d k =
      if h : b + n ≤ k ∧ k - b - n < l.length then f (k - b) l[k - b - n] else m.get d k := by
  induction l generalizing n m with
  | nil => simp
  | cons x l ih =>
    rw [List.zipIdx_cons, List.foldl_cons, ih]
    by_cases later : b + (n + 1) ≤ k ∧ k - b - (n + 1) < l.length
    · rw [dif_pos later, dif_pos (by rw [List.length_cons]; omega)]
      have next : k - b - n = k - b - (n + 1) + 1 := by omega
      simp only [next, List.getElem_cons_succ]
    · rw [dif_neg later, Tab.get_put]
      by_cases here : k = b + n
      · have at0 : k - b - n = 0 := by omega
        have num : k - b = n := by omega
        rw [if_pos here, dif_pos (by rw [List.length_cons]; omega)]
        simp only [num, Nat.sub_self, List.getElem_cons_zero]
      · rw [if_neg here, dif_neg (by rw [List.length_cons]; omega)]

/-- The groups that take slots, and the others. -/
theorem placeGroups_group (s : State) (t : Nat) (slots : List (Nat × Nat)) (f : Nat → Nat × Nat → Group) (k : Nat) :
    (s.placeGroups t slots f).group k =
      if h : 32 * t ≤ k ∧ k - 32 * t < slots.length then f (k - 32 * t) slots[k - 32 * t] else s.group k :=
  get_foldl_put Group.empty (32 * t) f slots 0 s.groups k

/-- A list that is built entry by entry. -/
theorem foldl_concat {α : Type} (F : List α → Nat → α) (n : Nat) :
    ((List.range n).foldl (fun a g => a ++ [F a g]) []).length = n ∧
      ∀ i (h : i < ((List.range n).foldl (fun a g => a ++ [F a g]) []).length),
        ((List.range n).foldl (fun a g => a ++ [F a g]) [])[i] = F ((List.range i).foldl (fun a g => a ++ [F a g]) []) i := by
  induction n with
  | zero => exact ⟨rfl, fun i h => absurd h (Nat.not_lt_zero i)⟩
  | succ n ih =>
    obtain ⟨len, entry⟩ := ih
    simp only [List.range_succ, List.foldl_append, List.foldl_cons, List.foldl_nil, List.length_append, List.length_singleton, len,
      true_and]
    intro i h
    by_cases old : i < n
    · rw [List.getElem_append_left (by rw [len]; exact old)]
      exact entry i _
    · have last : i = n := by omega
      subst last
      rw [List.getElem_append_right (by rw [len])]
      simp

/-- Group g goes on scheduler g mod 4 (R368). -/
theorem slotsFor_spec (rs : List Room) (n : Nat) : (slotsFor rs n).length = n ∧ ∀ i (h : i < (slotsFor rs n).length), ((slotsFor rs n)[i]).1 = i % 4 := by
  obtain ⟨len, entry⟩ := foldl_concat (fun a g =>
    (g % 4, lowestFree (slotsTaken rs (g % 4) ++ (a.filter (fun x => x.1 == g % 4)).map (·.2)))) n
  exact ⟨len, fun i h => congrArg Prod.fst (entry i h)⟩

/-- The team that a grid starts on a core. -/
def State.startedTeam (s : State) (gr core : Nat) : Team :=
  let x := s.grid gr
  let room := s.roomFor core (2 * gr + 1) (x.rec_.need 0#64)
  { grid := gr, teamix := x.nextTeam, state := .resident, core := core, admitted := s.admissions,
    block := some (s.choose ((List.range x.rec_.ctxn).filter (fun b => !x.blocks.contains b))), spBase := room.sp.1, wBase := room.wb.1,
    pitch0 := room.pitches.headD 0, pitches := (List.range x.rec_.pitches).map (fun p => (p, {})) }

/-- Starting a team lists it, gives its grid the next one to start, and its groups their slots. -/
theorem startTeam_labelled (s : State) (gr core : Nat) : ∃ blocks, ((State.placeGroups (((State.setTeam { s with admissions := s.admissions + 1 } s.teams.length
      (s.startedTeam gr core)).setGrid gr { s.grid gr with nextTeam := (s.grid gr).nextTeam + 1, blocks := blocks })) s.teams.length
      (s.roomFor core (2 * gr + 1) ((s.grid gr).rec_.need 0#64)).slots (launchGroup (s.grid gr).rec_))).LabelledTo (s.startTeam gr core) :=
  ⟨_, (State.LabelledTo.labelBlock _ _ _ _ _).own ((State.OwnTo.refl _).blockWrite _ _ _)⟩

section
variable (s : State) (gr core : Nat)

theorem startTeam_grid : ((s.startTeam gr core).grid gr).nextTeam = (s.grid gr).nextTeam + 1 := by
  obtain ⟨blocks, started⟩ := startTeam_labelled s gr core
  have same : (s.startTeam gr core).grid gr = _ := congrArg (Tab.get Grid.empty · gr) started.grids
  rw [same]
  exact congrArg Grid.nextTeam (Tab.get_put_self ..)

theorem startTeam_team : (s.startTeam gr core).team s.teams.length = s.startedTeam gr core := by
  obtain ⟨blocks, started⟩ := startTeam_labelled s gr core
  have same : (s.startTeam gr core).team s.teams.length = _ := congrArg (Tab.get Team.empty · s.teams.length) started.teams
  rw [same]
  exact Tab.get_put_self ..

theorem startTeam_group {g : Nat} (small : g < (s.grid gr).rec_.gcount) : ∃ slot : Nat × Nat, slot.1 = g % 4 ∧
    (s.startTeam gr core).group (32 * s.teams.length + g) = launchGroup (s.grid gr).rec_ g slot := by
  obtain ⟨blocks, started⟩ := startTeam_labelled s gr core
  have same : (s.startTeam gr core).group (32 * s.teams.length + g) = _ := congrArg (Tab.get Group.empty · (32 * s.teams.length + g)) started.groups
  obtain ⟨len, sched⟩ := slotsFor_spec (s.roomsTaken core (2 * gr + 1) []) (s.grid gr).rec_.gcount
  have num : 32 * s.teams.length + g - 32 * s.teams.length = g := Nat.add_sub_cancel_left ..
  refine ⟨(slotsFor (s.roomsTaken core (2 * gr + 1) []) (s.grid gr).rec_.gcount)[g]'(len.symm ▸ small), sched _ _, ?_⟩
  refine same.trans ((placeGroups_group _ _ _ _ _).trans ?_)
  rw [dif_pos ⟨Nat.le_add_right .., by rw [num]; exact len.symm ▸ small⟩]
  simp only [num]
  rfl

end

/-- Placing on one core starts one team there. -/
theorem teamPlace_places {gr c : Nat} (waits : s.isWaiting (.next gr) = true) (next : s.isNext (.next gr) = true)
    (place : s.placeFor (.next gr) = some [c]) : exec (.teamPlace gr) s = .next ((s.startTeam gr c).dropHolds (2 * gr + 1)) := by
  rw [exec_teamPlace, execTeamPlace]
  rw [waits, next, place] <;> rfl

/-! ## Pre-emption (R370, R371) -/

theorem preemptMark_marks {gr : Nat} {u : Waiting} {vs : List Nat} (needs : s.needsRoom gr = some u) (cheap : s.cheapest u = some vs) :
    exec (.preemptMark gr) s = .next { s with teams := s.teams.mapVals (fun t x =>
      if vs.contains t then { x with pending := true, marked := s.cycle, holdFor := some u.code } else x) } := by
  rw [exec_preemptMark, execPreemptMark, needs]
  simp only [cheap]

/-! ## The obligation -/

/-- Settles O52: admission asks, then computes; placing on one core starts one team; the limits are read off the steps. -/
theorem admissionAndPlacement : Obligations.AdmissionAndPlacement := by
  unfold Obligations.AdmissionAndPlacement
  intro s gr t c g vs u
  refine ⟨fun fresh stays runs leases some_ quiet => ?_, fun fresh stays runs leases all => ?_, fun waits next place _ => ?_, fun needs cheap => ?_,
    fun saved old => ?_, fun resident resumed old => ?_⟩
  · obtain ⟨e, he, none_⟩ := some_
    have missing : s.missing (s.grid gr).ctx (s.grid gr).rec_.admitSpans ≠ [] := List.ne_nil_of_mem ((mem_missing e).2 ⟨he, none_⟩)
    obtain ⟨own, mem, asked⟩ := asked_askSpans missing quiet
    exact ⟨_, gridAdmit_asks fresh stays runs leases missing, own.grids, own.teams, mem, asked⟩
  · have read : s.missing (s.grid gr).ctx (s.grid gr).rec_.admitSpans = [] :=
      List.eq_nil_iff_forall_not_mem.2 fun e he => all e ((mem_missing e).1 he).1 ((mem_missing e).1 he).2
    have own := own_forget (s.admission gr) (s.grid gr).ctx (s.spansAway (s.grid gr).ctx (s.grid gr).rec_.admitSpans)
    obtain ⟨admitted, hash, count⟩ := admission_grid s gr
    refine ⟨_, gridAdmit_admits fresh stays runs leases read, ?_⟩
    beta_reduce
    rw [own.grid, own.admissions, mem_forget]
    refine ⟨admitted, hash, count, fun plain => ?_, fun labelled => admission_labelled labelled⟩
    obtain ⟨gend, mem⟩ := admission_plain plain
    exact ⟨gend.trans runs, mem⟩
  · refine ⟨_, teamPlace_places waits next place, ?_⟩
    have team : (s.startedTeam gr c).SameBut (((s.startTeam gr c).dropHolds (2 * gr + 1)).team s.teams.length) :=
      (Team.SameBut.of_eq (startTeam_team s gr c)).trans (team_dropHolds _ _ _)
    unfold Team.SameBut at team
    beta_reduce
    dsimp only
    rw [team]
    refine ⟨startTeam_grid s gr c, rfl, rfl, rfl, rfl, rfl, rfl, fun small _ => ?_⟩
    obtain ⟨slot, sched, group⟩ := startTeam_group s gr c small
    have same : ((s.startTeam gr c).dropHolds (2 * gr + 1)).group (32 * s.teams.length + g) = launchGroup (s.grid gr).rec_ g slot := group
    rw [same]
    exact ⟨rfl, rfl, rfl, rfl, rfl, rfl, sched⟩
  · refine ⟨_, preemptMark_marks needs cheap, rfl, fun i listed => ?_⟩
    refine (Tab.get_mapVals (β := Team) (fun t x => if vs.contains t then { x with pending := true, marked := s.cycle, holdFor := some u.code } else x)
      Team.empty Team.empty s.teams i).trans ?_
    rw [if_pos listed]
    simp [State.team]
  · rw [exec_savedTeamAged, execSavedTeamAged]
    exact if_pos (Bool.and_eq_true_iff.2 ⟨by rw [saved]; rfl, decide_eq_true old⟩)
  · rw [exec_resumedResidency10ms, execResumedResidency10ms]
    exact if_pos (Bool.and_eq_true_iff.2 ⟨by rw [resident, resumed]; rfl, decide_eq_true old⟩)

end Sys2Proof.Machine
end


section
/-! PROOFS. The fields of a team header and of a fault record (R379, R380). -/

namespace Sys2Proof.Machine

open Sys2Proof

variable {off n : Nat} {xs ys : List Byte}

theorem fieldAt_append_left (inside : off + n ≤ xs.length) : fieldAt (xs ++ ys) off n = fieldAt xs off n := by
  rw [fieldAt, fieldAt, List.drop_append_of_le_length (by omega), List.take_append_of_le_length (by rw [List.length_drop]; omega)]

theorem fieldAt_append_right (after : xs.length ≤ off) : fieldAt (xs ++ ys) off n = fieldAt ys (off - xs.length) n := by
  rw [fieldAt, fieldAt, List.drop_append, List.drop_eq_nil_of_le after, List.nil_append]

/-- A field of a record's first part. -/
theorem fieldAt_layout_append {fields : List (Nat × Nat)} {i v : Nat} (field : fields[i]? = some (v, n))
    (place : ((fields.take i).map (·.2)).sum = off) : fieldAt (layout fields ++ ys) off n = v % 256 ^ n := by
  have fits : off + n ≤ (layout fields).length := by
    obtain ⟨hi, hv⟩ := List.getElem?_eq_some_iff.1 field
    rw [length_layout, ← place]
    conv_rhs => rw [← List.take_append_drop i fields, List.drop_eq_getElem_cons hi, hv]
    simp only [List.map_append, List.map_cons, List.sum_append, List.sum_cons]
    omega
  rw [fieldAt_append_left fits, fieldAt_layout field place]

/-! ## The team header (R379) -/

/-- The fields of a team header. -/
def Team.headerFields (x : Team) (m : Nat) : List (Nat × Nat) :=
  let f := x.first.getD (0, 0, 0)
  [(x.state.code, 1), (0, 1), (f.2.2, 1), (f.2.1, 1), (x.teamix, 4), (m, 4), (x.core, 2), (min x.nsave 0xFFFF, 2), (x.savedAt, 8)]

theorem header_eq (x : Team) (m : Nat) : x.header m = layout (x.headerFields m) ++ List.replicate 1000 0#8 := by
  simp only [Team.header, Team.headerFields, layout, List.flatMap_cons, List.flatMap_nil, List.append_nil, List.append_assoc]

theorem state_code (x : TState) : x.code % 256 ^ 1 = x.code := by cases x <;> rfl

theorem header_spec (x : Team) (m : Nat) :
    let h := x.header m
    let f := x.first.getD (0, 0, 0)
    h.length = 1024 ∧ fieldAt h 0 1 = x.state.code ∧
    fieldAt h 2 1 = f.2.2 % 256 ∧ fieldAt h 3 1 = f.2.1 % 256 ∧ fieldAt h 4 4 = x.teamix % 2 ^ 32 ∧ fieldAt h 8 4 = m % 2 ^ 32 ∧
    fieldAt h 12 2 = x.core % 65536 ∧ fieldAt h 14 2 = min x.nsave 0xFFFF ∧ fieldAt h 16 8 = x.savedAt % 2 ^ 64 := by
  have field {i v off n : Nat} (f : (x.headerFields m)[i]? = some (v, n)) (place : (((x.headerFields m).take i).map (·.2)).sum = off) :
      fieldAt (x.header m) off n = v % 256 ^ n := by
    rw [header_eq]
    exact fieldAt_layout_append f place
  refine ⟨?_, (field (i := 0) rfl rfl).trans (state_code _), field (i := 2) rfl rfl, field (i := 3) rfl rfl, field (i := 4) rfl rfl,
    field (i := 5) rfl rfl, field (i := 6) rfl rfl, (field (i := 7) rfl rfl).trans ?_, field (i := 8) rfl rfl⟩
  · rw [header_eq, List.length_append, length_layout, List.length_replicate]
    rfl
  · exact Nat.mod_eq_of_lt (by omega)

/-! ## The fault record (R332, R380) -/

theorem length_pathRecord (g : Group) (n : Nat) (p : Path) : (g.pathRecord n p).length = 16 := by
  simp [Group.pathRecord, length_bytesOf]

/-- The path records of a decoupling section, filled up to eight. -/
def Group.pathRecords (g : Group) : List Byte :=
  let paths := (g.paths.take 8).flatMap (fun e => g.pathRecord e.1 e.2)
  paths ++ List.replicate (128 - paths.length) 0#8

theorem length_pathRecords (g : Group) : g.pathRecords.length = 128 := by
  have short : ((g.paths.take 8).flatMap (fun e => g.pathRecord e.1 e.2)).length ≤ 128 := by
    rw [List.length_flatMap, List.map_congr_left (g := fun _ => 16) fun e _ => length_pathRecord g e.1 e.2, List.map_const', List.sum_replicate,
      List.length_take, smul_eq_mul]
    omega
  rw [Group.pathRecords, List.length_append, List.length_replicate]
  omega

/-- The fields of a fault record before the path records. -/
def Group.recordFields (g : Group) (r : FaultRec) (n : Nat) : List (Nat × Nat) :=
  [(r.flt.code, 1), (r.flt.sub, 1), (3 + (if g.lostFault then 4 else 0) + (if r.cslice then 8 else 0), 1), (g.gidx, 1), (n, 4), (g.aret, 8), (g.cret, 8),
   (g.skid, 2), (r.flt.flbl.toNat, 2), (r.flt.clbl.toNat, 2), (r.flt.kcode, 2), (r.flt.faddr, 8), (r.fpos, 8), (r.flt.pinfo, 8), (r.fcycle, 8),
   (flagBit g.ra.isSome 1 + flagBit r.idle 2 + flagBit g.halted 4 + flagBit r.dlk 8 + flagBit r.unpaired 16, 2), (g.aDeadCode, 1), (r.pq, 1),
   (g.paths.length, 1), (g.slip, 1), (g.outstanding, 1), (0, 1), ((g.ra.getD g.apc).toNat, 8), (g.apc.toNat, 8), (g.qocc.toNat, 8)]

theorem record_eq {g : Group} {r : FaultRec} (fault : g.fault = some r) (n : Nat) :
    g.record n = layout (g.recordFields r n) ++ (g.pathRecords ++ (layout [(r.flt.stpc, 8)] ++ List.replicate 280 0#8)) := by
  simp only [Group.record, Group.recordFields, Group.decSection, Group.pathRecords, fault, layout, List.flatMap_cons, List.flatMap_nil, List.append_nil,
    List.append_assoc, Option.getD_some, Option.isSome_some, flagBit, Option.any_some, Option.map_some]
  rfl

/-- The sizes of the fields of a fault record before the path records. -/
def recordSizes : List Nat := [1, 1, 1, 1, 4, 8, 8, 2, 2, 2, 2, 8, 8, 8, 8, 2, 1, 1, 1, 1, 1, 1, 8, 8, 8]

theorem sizes_recordFields (g : Group) (r : FaultRec) (n : Nat) : (g.recordFields r n).map (·.2) = recordSizes := rfl

theorem record_spec {g : Group} {r : FaultRec} (fault : g.fault = some r) (n : Nat) :
    let b := g.record n
    b.length = 512 ∧ fieldAt b 0 1 = r.flt.code % 256 ∧ fieldAt b 1 1 = r.flt.sub % 256 ∧
      fieldAt b 2 1 = 3 + (if g.lostFault then 4 else 0) + (if r.cslice then 8 else 0) ∧ fieldAt b 3 1 = g.gidx % 256 ∧
      fieldAt b 4 4 = n % 2 ^ 32 ∧ fieldAt b 8 8 = g.aret % 2 ^ 64 ∧ fieldAt b 16 8 = g.cret % 2 ^ 64 ∧ fieldAt b 24 2 = g.skid % 65536 ∧
      fieldAt b 26 2 = r.flt.flbl.toNat ∧ fieldAt b 28 2 = r.flt.clbl.toNat ∧ fieldAt b 30 2 = r.flt.kcode % 65536 ∧
      fieldAt b 32 8 = r.flt.faddr % 2 ^ 64 ∧ fieldAt b 40 8 = r.fpos % 2 ^ 64 ∧ fieldAt b 48 8 = r.flt.pinfo % 2 ^ 64 ∧
      fieldAt b 56 8 = r.fcycle % 2 ^ 64 ∧ fieldAt b 72 8 = (g.ra.getD g.apc).toNat ∧ fieldAt b 80 8 = g.apc.toNat ∧
      fieldAt b 0xE0 8 = r.flt.stpc % 2 ^ 64 := by
  have eq := record_eq fault n
  have field {i v off m : Nat} (f : (g.recordFields r n)[i]? = some (v, m)) (place : (recordSizes.take i).sum = off) :
      fieldAt (g.record n) off m = v % 256 ^ m := by
    rw [eq]
    exact fieldAt_layout_append f (by rw [List.map_take, sizes_recordFields, place])
  have whole {w : Nat} (x : BitVec (8 * w)) : x.toNat % 256 ^ w = x.toNat :=
    Nat.mod_eq_of_lt (lt_of_lt_of_eq x.isLt (pow_mul 2 8 w))
  have front : (layout (g.recordFields r n)).length = 96 := by
    rw [length_layout, sizes_recordFields]
    decide
  have stpc : fieldAt (g.record n) 0xE0 8 = r.flt.stpc % 256 ^ 8 := by
    rw [eq, fieldAt_append_right (by rw [front]; decide), fieldAt_append_right (le_of_eq (by rw [front, length_pathRecords])), front, length_pathRecords]
    exact fieldAt_layout_append (i := 0) rfl rfl
  refine ⟨?_, field (i := 0) rfl rfl, field (i := 1) rfl rfl, (field (i := 2) rfl rfl).trans ?_, field (i := 3) rfl rfl, field (i := 4) rfl rfl,
    field (i := 5) rfl rfl, field (i := 6) rfl rfl, field (i := 7) rfl rfl, (field (i := 8) rfl rfl).trans (whole (w := 2) _),
    (field (i := 9) rfl rfl).trans (whole (w := 2) _), field (i := 10) rfl rfl, field (i := 11) rfl rfl, field (i := 12) rfl rfl,
    field (i := 13) rfl rfl, field (i := 14) rfl rfl, (field (i := 22) rfl rfl).trans (whole (w := 8) _),
    (field (i := 23) rfl rfl).trans (whole (w := 8) _), stpc⟩
  · rw [eq, List.length_append, List.length_append, List.length_append, front, length_pathRecords, length_layout, List.length_replicate]
    simp
  · split <;> split <;> rfl

end Sys2Proof.Machine
end


section
/-! PROOFS. What saving a team leaves of it and of the other teams (R386 to R389). -/

namespace Sys2Proof.Machine

open Sys2Proof

variable {s t u : State}

/-! ## Saving (R386, R387) -/

/-- What a save keeps of a team's shared state: all of it, or what the liveness records of its groups name. -/
def Team.keptBy (x : Team) : Option (List (DWord × List (Nat × Nat) × Bool)) → Team
  | some l => x.savedBy l
  | none => x

/-- A team as a save leaves it, but for its image. -/
def Team.put_away (x : Team) (rs : Option (List (DWord × List (Nat × Nat) × Bool))) (st : TState) (cycle : Nat) : Team :=
  { x.keptBy rs with state := st, nsave := x.nsave + 1, savedAt := cycle, pending := false, aged := false, bell := none, restart := false }

/-- The groups as a save leaves them. -/
def State.stripped (s : State) (n : Nat) (hints : Bool) : State :=
  { s.leaveCore n with groups := (s.leaveCore n).groups.mapVals (fun k g => if teamOf k = n then g.saved hints else g) }

/-- A team put away: off its core, its groups stripped, and no image of it in memory yet. -/
def State.putAway (s : State) (n : Nat) (hints : Bool) (st : TState) : State :=
  (s.stripped n hints).setTeam n (((s.leaveCore n).team n).put_away (if hints then s.records n else none) st s.cycle)

/-- The image of a team that has been put away, sealed. -/
def State.imaged (s : State) (n : Nat) (hints : Bool) (rs : Option (List (DWord × List (Nat × Nat) × Bool))) (gr : Nat) : State :=
  let s4 := (s.imageParts n hints rs).foldl (fun a p => a.blockWrite n (0x10000 + p.1) p.2) s
  s4.blockWrite n 0x10FC0 (imageSeal (s4.grid gr).ctx (s4.readImage n))

theorem own_imaged (s : State) (n : Nat) (hints : Bool) (rs : Option (List (DWord × List (Nat × Nat) × Bool))) (gr : Nat) :
    s.OwnTo (s.imaged n hints rs gr) :=
  ((State.OwnTo.refl s).foldl (fun _ _ hu => hu.blockWrite _ _ _) _).blockWrite _ _ _

section
variable (s : State) (n : Nat) (hints : Bool) (st : TState)

/-- A save puts the team away, writes its image, and keeps that. -/
theorem saveTeam_eq : ∃ u, (s.putAway n hints st).OwnTo u ∧ s.saveTeam n hints st = u.setTeam n { u.team n with image := u.readImage n } := by
  refine ⟨(s.putAway n hints st).imaged n hints (if hints then s.records n else none) ((s.leaveCore n).team n).grid, own_imaged _ _ _ _ _, ?_⟩
  unfold State.saveTeam State.imaged State.putAway State.stripped Team.put_away Team.keptBy
  rfl

theorem team_putAway_self : (s.putAway n hints st).team n = ((s.leaveCore n).team n).put_away (if hints then s.records n else none) st s.cycle :=
  State.team_setTeam ..

theorem team_putAway_ne {j : Nat} (other : j ≠ n) : (s.putAway n hints st).team j = s.team j :=
  (State.team_setTeam_ne _ _ other).trans (team_leaveCore_ne s other)

theorem team_saveTeam_self : ∃ image, (s.saveTeam n hints st).team n =
    { ((s.leaveCore n).team n).put_away (if hints then s.records n else none) st s.cycle with image := image } := by
  obtain ⟨u, own, eq⟩ := saveTeam_eq s n hints st
  refine ⟨u.readImage n, ?_⟩
  rw [eq, State.team_setTeam, own.team, team_putAway_self]

theorem team_saveTeam_ne {j : Nat} (other : j ≠ n) : (s.saveTeam n hints st).team j = s.team j := by
  obtain ⟨u, own, eq⟩ := saveTeam_eq s n hints st
  rw [eq, State.team_setTeam_ne _ _ other, own.team, team_putAway_ne s n hints st other]

theorem grid_saveTeam (j : Nat) : (s.saveTeam n hints st).grid j = s.grid j := by
  obtain ⟨u, own, eq⟩ := saveTeam_eq s n hints st
  rw [eq]
  exact (own.grid j).trans (congrArg (Tab.get Grid.empty · j) (grids_leaveCore s n))

theorem held_saveTeam : (s.saveTeam n hints st).held = s.held := by
  obtain ⟨u, own, eq⟩ := saveTeam_eq s n hints st
  rw [eq]
  exact own.held.trans (held_leaveCore s n)

theorem groups_saveTeam : (s.saveTeam n hints st).groups = s.groups.mapVals (fun k g => if teamOf k = n then g.saved hints else g) := by
  obtain ⟨u, own, eq⟩ := saveTeam_eq s n hints st
  rw [eq]
  refine own.groups.trans (Eq.trans ?_ (congrArg (Tab.mapVals fun k g => if teamOf k = n then g.saved hints else g) (groups_leaveCore s n)))
  rfl

theorem group_saveTeam_self {k : Nat} (mine : teamOf k = n) (listed : (s.groups.find k).isSome) :
    (s.saveTeam n hints st).group k = (s.group k).saved hints := by
  rw [State.group, groups_saveTeam, Tab.get_mapVals (d := Group.empty), if_pos listed, if_pos mine]
  rfl

theorem group_saveTeam_ne {k : Nat} (other : teamOf k ≠ n) : (s.saveTeam n hints st).group k = s.group k := by
  rw [State.group, groups_saveTeam, Tab.get_mapVals (d := Group.empty), if_neg other]
  split
  · rfl
  · rename_i absent
    rw [State.group, Tab.get_eq_find, Option.not_isSome_iff_eq_none.1 absent]
    rfl

theorem leaveCore_team_self : (s.leaveCore n).team n = { s.team n with holdFor := ((s.leaveCore n).team n).holdFor } := team_leaveCore s n n

end

/-! ## What a saved group keeps (R158, R311, R386) -/

theorem foldl_land_eq (g : Group) (l : List FxWrite) : ∃ vregs temps preds tilew,
    l.foldl Group.land g = { g with vregs := vregs, temps := temps, preds := preds, tilew := tilew } := by
  induction l generalizing g with
  | nil => exact ⟨_, _, _, _, rfl⟩
  | cons w l ih =>
    obtain ⟨_, _, _, _, first⟩ := land_eq g w
    obtain ⟨vregs, temps, preds, tilew, rest⟩ := ih (g.land w)
    refine ⟨vregs, temps, preds, tilew, ?_⟩
    rw [List.foldl_cons, rest, first]

/-- A save keeps the address slice of a group whatever was under way. -/
theorem saved_keeps (g : Group) (hints : Bool) : (g.saved hints).fault = g.fault ∧ (g.saved hints).apc = g.apc ∧ (g.saved hints).sregs = g.sregs := by
  obtain ⟨vregs, temps, preds, tilew, eq⟩ := foldl_land_eq { g with fx := [] } g.fx
  unfold Group.saved
  rw [eq]
  exact ⟨rfl, rfl, rfl⟩

/-- What a save leaves of a group that no write is on its way to. -/
theorem saved_eq {g : Group} (hints : Bool) (quiet : g.fx = []) : ∃ ops paths, g.saved hints =
    { g with fx := [], await := none, aheld := none, apass := false, ops := ops, paths := paths,
             vregs := g.vregs.mapVals (fun v r => if g.keeps hints v then r else { r with lanes := List.replicate 32 0#32 }) } := by
  unfold Group.saved
  rw [quiet]
  exact ⟨_, _, rfl⟩

theorem Tab.mapVals_id {α : Type} {f : Nat → α → α} (h : ∀ k v, f k v = v) (m : Tab α) : m.mapVals f = m := by
  unfold Tab.mapVals
  exact (List.map_congr_left fun e _ => by rw [h]; rfl).trans (List.map_id m)

/-- A save that no hint narrows keeps every vector register of a group that has not finished. -/
theorem vregs_saved_all {g : Group} (quiet : g.fx = []) (runs : g.finished = false) : (g.saved false).vregs = g.vregs := by
  obtain ⟨ops, paths, eq⟩ := saved_eq false quiet
  have all (v : Nat) : g.keeps false v = true := by simp [Group.keeps, runs]
  have same (v : Nat) (r : VReg) : (if g.keeps false v then r else { r with lanes := List.replicate 32 0#32 }) = r := if_pos (all v)
  rw [eq]
  exact Tab.mapVals_id same g.vregs

theorem laneAt_replicate (n l : Nat) : laneAt (List.replicate n 0#32) l = 0#32 := by
  rw [laneAt, List.getD_eq_getElem?_getD, List.getElem?_replicate]
  split <;> rfl

theorem vreg_saved {g : Group} (hints : Bool) (quiet : g.fx = []) (v : Nat) : ((g.saved hints).vregs.get {} v).lbl = (g.vregs.get {} v).lbl ∧
    (g.keeps hints v = true → (g.saved hints).vregs.get {} v = g.vregs.get {} v) ∧
    (g.keeps hints v = false → ∀ l, laneAt ((g.saved hints).vregs.get {} v).lanes l = 0#32) := by
  have value : (g.saved hints).vregs.get {} v = if (g.vregs.find v).isSome then
      (if g.keeps hints v then g.vregs.get {} v else { g.vregs.get {} v with lanes := List.replicate 32 0#32 }) else {} := by
    obtain ⟨ops, paths, eq⟩ := saved_eq hints quiet
    rw [eq]
    exact Tab.get_mapVals (β := VReg) (fun v r => if g.keeps hints v then r else { r with lanes := List.replicate 32 0#32 }) {} {} g.vregs v
  rw [value]
  by_cases listed : (g.vregs.find v).isSome
  · rw [if_pos listed]
    by_cases kept : g.keeps hints v = true
    · rw [if_pos kept]
      exact ⟨rfl, fun _ => rfl, fun not => absurd kept (by simp [not])⟩
    · rw [if_neg kept]
      exact ⟨rfl, fun yes => absurd yes kept, fun _ l => laneAt_replicate 32 l⟩
  · have absent : g.vregs.get {} v = {} := by rw [Tab.get_eq_find, Option.not_isSome_iff_eq_none.1 listed]; rfl
    rw [if_neg listed, absent]
    exact ⟨rfl, fun _ => rfl, fun _ l => laneAt_replicate 32 l⟩

end Sys2Proof.Machine
end


section
/-! PROOFS. A save leaves a team, and a resumption brings it back (R384 to R390). -/

namespace Sys2Proof.Machine

open Sys2Proof

variable {s t u : State} {n k : Nat}

/-- Of the other teams only whom room is held for differs, and none of their groups. -/
def State.Spares (s : State) (n : Nat) (u : State) : Prop :=
  (∀ j, j ≠ n → (s.team j).SameBut (u.team j)) ∧ ∀ k, teamOf k ≠ n → u.group k = s.group k

namespace State.Spares

theorem of_eq (teams : ∀ j, j ≠ n → t.team j = s.team j) (groups : ∀ k, teamOf k ≠ n → t.group k = s.group k) : s.Spares n t :=
  ⟨fun j hj => .of_eq (teams j hj), groups⟩

theorem trans (h : s.Spares n t) (h' : t.Spares n u) : s.Spares n u :=
  ⟨fun j hj => (h.1 j hj).trans (h'.1 j hj), fun k hk => (h'.2 k hk).trans (h.2 k hk)⟩

theorem own (h : s.Spares n t) (h' : t.OwnTo u) : s.Spares n u := h.trans (of_eq (fun j _ => h'.team j) (fun k _ => h'.group k))

theorem saveTeam (s : State) (n : Nat) (hints : Bool) (st : TState) : s.Spares n (s.saveTeam n hints st) :=
  of_eq (fun _ hj => team_saveTeam_ne s n hints st hj) (fun _ hk => group_saveTeam_ne s n hints st hk)

theorem endTeam (s : State) (n : Nat) (st : TState) : s.Spares n (s.endTeam n st) :=
  ⟨fun _ hj => team_endTeam_ne s n st hj, fun k _ => congrArg (Tab.get Group.empty · k) (groups_endTeam s n st)⟩

theorem setGrid (h : s.Spares n t) (g : Nat) (x : Grid) : s.Spares n (t.setGrid g x) := h

theorem earlyRelease (h : s.Spares n t) (g : Nat) : s.Spares n (t.earlyRelease g) :=
  h.trans (of_eq (fun j _ => team_earlyRelease t g j) (fun k _ => group_earlyRelease t g k))

end State.Spares

/-! ## Saving (R386 to R389) -/

/-- What a save changes of a team and of a group of it, until it is resumed. -/
theorem savedBy_shared (x : Team) (l : List (DWord × List (Nat × Nat) × Bool)) : ∃ sp spBad acc accBad wmem wBad,
    x.savedBy l = { x with sp := sp, spBad := spBad, acc := acc, accBad := accBad, wmem := wmem, wBad := wBad } := ⟨_, _, _, _, _, _, rfl⟩

theorem keptBy_shared (x : Team) (rs : Option (List (DWord × List (Nat × Nat) × Bool))) : ∃ sp spBad acc accBad wmem wBad,
    x.keptBy rs = { x with sp := sp, spBad := spBad, acc := acc, accBad := accBad, wmem := wmem, wBad := wBad } := by
  cases rs with
  | none => exact ⟨_, _, _, _, _, _, rfl⟩
  | some l => exact savedBy_shared x l

/-- A team that is saved whole, or by its hints, as it stands afterwards. -/
structure SavedAs (x v : Team) (st : TState) (cycle : Nat) : Prop where
  state : v.state = st
  nsave : v.nsave = x.nsave + 1
  pending : v.pending = false
  savedAt : v.savedAt = cycle
  bell : v.bell = none
  banks : v.banks = x.banks
  bankLbl : v.bankLbl = x.bankLbl
  resv : v.resv = x.resv
  whand : v.whand = x.whand
  spLbl : v.spLbl = x.spLbl
  spMark : v.spMark = x.spMark
  grid : v.grid = x.grid
  teamix : v.teamix = x.teamix
  first : v.first = x.first
  block : v.block = x.block

section
variable (s : State) (n : Nat) (hints : Bool) (st : TState)

theorem saveTeam_savedAs : SavedAs (s.team n) ((s.saveTeam n hints st).team n) st s.cycle := by
  obtain ⟨image, eq⟩ := team_saveTeam_self s n hints st
  rw [eq, leaveCore_team_self]
  obtain ⟨_, _, _, _, _, _, kept⟩ := keptBy_shared { s.team n with holdFor := ((s.leaveCore n).team n).holdFor } (if hints then s.records n else none)
  unfold Team.put_away
  rw [kept]
  exact ⟨rfl, rfl, rfl, rfl, rfl, rfl, rfl, rfl, rfl, rfl, rfl, rfl, rfl, rfl, rfl⟩

/-- A save that no hint narrows keeps the buffers. -/
theorem saveTeam_whole : let v := (s.saveTeam n false st).team n
    v.sp = (s.team n).sp ∧ v.acc = (s.team n).acc ∧ v.wmem = (s.team n).wmem := by
  obtain ⟨image, eq⟩ := team_saveTeam_self s n false st
  dsimp only
  rw [eq, leaveCore_team_self]
  exact ⟨rfl, rfl, rfl⟩

end

theorem SavedAs.own {x : Team} {st : TState} {cycle : Nat} (h : SavedAs x (t.team n) st cycle) (own : t.OwnTo u) : SavedAs x (u.team n) st cycle := by
  rw [own.team]
  exact h

/-- What follows a save leaves as it is: the header is written, and what has been read of the image is forgotten. -/
theorem own_headed (s : State) (n ctx : Nat) (away : List (Nat × Nat)) : s.OwnTo ((s.writeHeader n).forget ctx away) :=
  ((State.OwnTo.refl s).blockWrite _ _ _).forget _ _

section
variable {ctx : Nat} {away : List (Nat × Nat)}

/-- The registers, stacks and queues of a group of a team that has been saved. -/
theorem group_after_save {hints : Bool} {st : TState} (mine : teamOf k = n ∧ (s.groups.find k).isSome) :
    (((s.saveTeam n hints st).writeHeader n).forget ctx away).group k = (s.group k).saved hints :=
  ((own_headed _ n ctx away).group k).trans (group_saveTeam_self s n hints st mine.1 mine.2)

/-- A vector register of a group is named by the hint of its yield point. -/
theorem keeps_hint {g : Group} (runs : g.finished = false) (v : Nat) : g.keeps true v = true ↔
    (match g.hint with
      | some (.inline bits) => v < 64 ∧ bits.getLsbD v = true
      | some (.record vmask _ _ _) => vmask / 2 ^ v % 2 = 1
      | _ => True) := by
  unfold Group.keeps
  rw [runs]
  cases g.hint with
  | none => simp
  | some h => cases h <;> simp [bitOf]

end

/-! ## The steps (R384, R386, R389) -/

theorem all_groupsOf {p : Nat × Group → Bool} (h : ∀ e ∈ s.groups, teamOf e.1 = n → p e = true) : (s.groupsOf n).all p = true := by
  refine List.all_eq_true.2 fun e he => ?_
  obtain ⟨listed, mine⟩ := List.mem_filter.1 he
  exact h e listed (by simpa using mine)

/-- The image region of a team. -/
def State.imageSpan (s : State) (n : Nat) : List (Nat × Nat) := [(s.blockAddr n + 0x10000, (s.grid (s.team n).grid).rec_.savesz)]

/-- The context of a team's grid. -/
def State.teamCtx (s : State) (n : Nat) : Nat := (s.grid (s.team n).grid).ctx

theorem withImage_of_read {run : State → Out} (read : s.missing (s.teamCtx n) (s.imageSpan n) = []) (next : run s = .next u) :
    s.withImage n run = .next (u.forget (s.teamCtx n) (s.spansAway (s.teamCtx n) (s.imageSpan n))) := withOwn_of_read read next

theorem withImage_of_missing {run : State → Out} (missing : s.missing (s.teamCtx n) (s.imageSpan n) ≠ []) :
    s.withImage n run = .next (s.askSpans (s.teamCtx n) (s.imageSpan n)) := withOwn_of_missing missing

section
variable (resident : (s.team n).state = .resident) (pending : (s.team n).pending = true) (silent : (s.team n).bell = none)
include resident pending silent

theorem teamSaveYield_saves (yields : ∀ e ∈ s.groups, teamOf e.1 = n → e.2.finished = true ∨ e.2.atYield = true) (rests : s.rests n = true)
    (read : s.missing (s.teamCtx n) (s.imageSpan n) = []) : exec (.teamSaveYield n) s =
      .next (((s.saveTeam n true .saved).writeHeader n).forget (s.teamCtx n) (s.spansAway (s.teamCtx n) (s.imageSpan n))) := by
  have all : (s.groupsOf n).all (fun e => e.2.finished || e.2.atYield) = true := all_groupsOf fun e he mine => by simpa using yields e he mine
  rw [exec_teamSaveYield, execTeamSaveYield]
  rw [if_pos (by simp [resident, pending, silent, all, rests])]
  exact withImage_of_read read rfl

theorem preemptDeadline_saves (late : (s.team n).marked + (s.grid (s.team n).grid).rec_.deadlineCycles ≤ s.cycle) (rests : s.rests n = true)
    (read : s.missing (s.teamCtx n) (s.imageSpan n) = []) : exec (.preemptDeadline n) s =
      .next (((s.saveTeam n false .saved).writeHeader n).forget (s.teamCtx n) (s.spansAway (s.teamCtx n) (s.imageSpan n))) := by
  rw [exec_preemptDeadline, execPreemptDeadline]
  rw [if_neg (by simp [resident, pending, silent, late]), if_pos rests]
  exact withImage_of_read read rfl

theorem preemptDeadline_stops (late : (s.team n).marked + (s.grid (s.team n).grid).rec_.deadlineCycles ≤ s.cycle) (busy : s.rests n = false) :
    exec (.preemptDeadline n) s = .next { s with groups := s.groups.mapVals (fun k g =>
      if teamOf k = n then { g with astopped := true, cstopped := true } else g) } := by
  rw [exec_preemptDeadline, execPreemptDeadline]
  rw [if_neg (by simp [resident, pending, silent, late]), if_neg (by simp [busy])]

end

/-! ## Resumption (R387, R389, R390) -/

/-- A saved team as it is put on a core again. -/
def Team.restored (x : Team) (core admitted cycle : Nat) (room : Room) : Team :=
  { x with state := .resident, core := core, admitted := admitted, spBase := room.sp.1, wBase := room.wb.1,
           pitch0 := room.pitches.headD 0, resumed := true, resumedAt := cycle, aged := false, first := none, bell := none, restart := false,
           pitches := x.pitches.mapVals (fun _ p => { p with stopped := false }) }

/-- The state after a team without arrivals held for it has been put on a core, but for the header in memory. -/
def State.restored (s : State) (n core : Nat) : State :=
  let room := s.roomFor core (2 * n) ((s.grid (s.team n).grid).rec_.need (s.team n).banks)
  State.placeGroups (State.setTeam { s with admissions := s.admissions + 1 } n ((s.team n).restored core s.admissions s.cycle room)) n room.slots
    (fun g slot => (s.group (32 * n + g)).resumed (s.team n).restart slot)

theorem team_restored_self (s : State) (n core : Nat) : ∃ room, (s.restored n core).team n = (s.team n).restored core s.admissions s.cycle room :=
  ⟨_, Tab.get_put_self ..⟩

theorem team_restored_ne (s : State) (core : Nat) {j : Nat} (other : j ≠ n) : (s.restored n core).team j = s.team j :=
  Tab.get_put_ne _ _ _ other

theorem held_restored (s : State) (n core : Nat) : (s.restored n core).held = s.held := rfl

/-- Putting a team back that has not faulted and that no arrival waits for. -/
theorem resumeOn_eq {core : Nat} (quiet : ∀ h ∈ s.held, h.isFor (s.team n) = false) (whole : (s.team n).restart = false) :
    s.resumeOn n core = ((s.restored n core).writeHeader n).dropHolds (2 * n) := by
  have own : (s.restored n core).OwnTo ((s.restored n core).writeHeader n) := (State.OwnTo.refl _).blockWrite _ _ _
  have none_ : ∀ h ∈ ((s.restored n core).writeHeader n).held, h.isFor (((s.restored n core).writeHeader n).team n) = false := by
    intro h hh
    obtain ⟨room, eq⟩ := team_restored_self s n core
    rw [own.team, eq]
    rw [own.held] at hh
    exact quiet h hh
  have applied := applyHeld_of_none (fun _ => true) none_
  rw [← applied]
  unfold State.resumeOn
  dsimp only
  rw [whole, if_neg Bool.false_ne_true]
  unfold State.restored
  rw [whole]
  rfl

/-- The slots that a team's groups take. -/
theorem group_restored (s : State) (core : Nat) {g : Nat} (small : g < (s.grid (s.team n).grid).rec_.gcount) : ∃ slot,
    (s.restored n core).group (32 * n + g) = (s.group (32 * n + g)).resumed (s.team n).restart slot := by
  obtain ⟨len, -⟩ := slotsFor_spec (s.roomsTaken core (2 * n) []) (s.grid (s.team n).grid).rec_.gcount
  have num : 32 * n + g - 32 * n = g := Nat.add_sub_cancel_left ..
  refine ⟨(slotsFor (s.roomsTaken core (2 * n) []) (s.grid (s.team n).grid).rec_.gcount)[g]'(len.symm ▸ small), ?_⟩
  refine (placeGroups_group _ _ _ _ _).trans ?_
  rw [dif_pos ⟨Nat.le_add_right .., by rw [num]; exact len.symm ▸ small⟩]
  simp only [num]
  rfl

theorem group_restored_ne (s : State) (core : Nat) (few : (s.grid (s.team n).grid).rec_.gcount ≤ 32) {k : Nat} (other : teamOf k ≠ n) :
    (s.restored n core).group k = s.group k := by
  obtain ⟨len, -⟩ := slotsFor_spec (s.roomsTaken core (2 * n) []) (s.grid (s.team n).grid).rec_.gcount
  refine (placeGroups_group _ _ _ _ _).trans (dif_neg ?_)
  rintro ⟨low, high⟩
  have bound : k - 32 * n < (s.grid (s.team n).grid).rec_.gcount := lt_of_lt_of_eq high len
  unfold teamOf at other
  omega

section
variable {c : Nat} {cs : List Nat} (waits : s.isWaiting (.saved n) = true) (next : s.isNext (.saved n) = true)
  (place : s.placeFor (.saved n) = some (c :: cs))
include waits next place

theorem execTeamResume_eq : exec (.teamResume n) s =
    s.withImage n (fun s => if s.readImage n == (s.team n).image then .next (s.resumeOn n c) else .next (s.failTeam n 0x17)) := by
  rw [exec_teamResume, execTeamResume]
  simp only [waits, next, place]
  exact if_neg (by decide)

theorem teamResume_asks (missing : s.missing (s.teamCtx n) (s.imageSpan n) ≠ []) :
    exec (.teamResume n) s = .next (s.askSpans (s.teamCtx n) (s.imageSpan n)) := by
  rw [execTeamResume_eq waits next place]
  exact withImage_of_missing missing

theorem teamResume_resumes (read : s.missing (s.teamCtx n) (s.imageSpan n) = []) (sealed : s.readImage n = (s.team n).image) :
    exec (.teamResume n) s = .next ((s.resumeOn n c).forget (s.teamCtx n) (s.spansAway (s.teamCtx n) (s.imageSpan n))) := by
  rw [execTeamResume_eq waits next place]
  exact withImage_of_read read (if_pos (beq_iff_eq.2 sealed))

theorem teamResume_fails (read : s.missing (s.teamCtx n) (s.imageSpan n) = []) (changed : s.readImage n ≠ (s.team n).image) :
    exec (.teamResume n) s = .next ((s.failTeam n 0x17).forget (s.teamCtx n) (s.spansAway (s.teamCtx n) (s.imageSpan n))) := by
  rw [execTeamResume_eq waits next place]
  exact withImage_of_read read (if_neg fun same => changed (beq_iff_eq.1 same))

end

/-- A group that issues again without a fault keeps what it had. -/
theorem resumed_eq (g : Group) (slot : Nat × Nat) : ∃ paths, g.resumed false slot =
    { g with astopped := false, cstopped := false, sched := slot.1, slot := slot.2, atYield := false, paths := paths } := ⟨_, rfl⟩

section
variable {core : Nat} (quiet : ∀ h ∈ s.held, h.isFor (s.team n) = false) (whole : (s.team n).restart = false)
include quiet whole

/-- A resumed team. -/
theorem resumeOn_team : ∃ room, ((s.team n).restored core s.admissions s.cycle room).SameBut ((s.resumeOn n core).team n) := by
  obtain ⟨room, eq⟩ := team_restored_self s n core
  refine ⟨room, ?_⟩
  rw [resumeOn_eq quiet whole]
  refine .trans (.of_eq ?_) (team_dropHolds _ _ _)
  exact (((State.OwnTo.refl _).blockWrite _ _ _).team n).trans eq

theorem resumeOn_spares (few : (s.grid (s.team n).grid).rec_.gcount ≤ 32) : s.Spares n (s.resumeOn n core) := by
  have put : s.Spares n (s.restored n core) :=
    .of_eq (fun _ hj => team_restored_ne s core hj) (fun _ hk => group_restored_ne s core few hk)
  have headed := put.own ((State.OwnTo.refl (s.restored n core)).blockWrite n 0 (((s.restored n core).team n).header ((s.restored n core).faultMask n)))
  rw [resumeOn_eq quiet whole]
  exact ⟨fun j hj => (headed.1 j hj).trans (team_dropHolds _ _ _), headed.2⟩

theorem resumeOn_group {g : Nat} (small : g < (s.grid (s.team n).grid).rec_.gcount) : ∃ slot,
    (s.resumeOn n core).group (32 * n + g) = (s.group (32 * n + g)).resumed false slot := by
  obtain ⟨slot, eq⟩ := group_restored s core small
  rw [whole] at eq
  refine ⟨slot, ?_⟩
  rw [resumeOn_eq quiet whole]
  exact (((State.OwnTo.refl _).blockWrite _ _ _).group _).trans eq

end

/-! ## A team that fails (R374) -/

/-- A team that is ended, with a number and a code that its grid notes before, and what the release of the grid does after. -/
def State.endNoting (s : State) (n : Nat) (y : Grid) : State := ((s.setGrid (s.team n).grid y).endTeam n .ended).earlyRelease (s.team n).grid

theorem endNoting_spec (s : State) (n : Nat) (y : Grid) : s.Spares n (s.endNoting n y) ∧
    ((s.team n).over .ended).SameBut ((s.endNoting n y).team n) ∧
    (∃ b, (s.endNoting n y).grid (s.team n).grid = { y with blocks := y.blocks.filter (fun b => (s.team n).block != some b), earlyDone := b }) ∧
    (∀ j, j ≠ (s.team n).grid → (s.endNoting n y).grid j = s.grid j) ∧
    (s.endNoting n y).held = s.held.filter (fun h => !h.isFor (s.team n)) := by
  have ends := grid_endTeam (s.setGrid (s.team n).grid y) n .ended
  refine ⟨((State.Spares.endTeam (s.setGrid (s.team n).grid y) n .ended)).earlyRelease _, ?_, ?_, fun j other => ?_, ?_⟩
  · exact (team_endTeam_self (s.setGrid (s.team n).grid y) n .ended).trans (.of_eq (team_earlyRelease _ _ n))
  · obtain ⟨b, eq⟩ := grid_earlyRelease_self ((s.setGrid (s.team n).grid y).endTeam n .ended) (s.team n).grid
    refine ⟨b, eq.trans ?_⟩
    rw [ends, grid_setGrid_all, if_pos rfl]
    exact congrArg (fun z : Grid => { z with earlyDone := b }) (if_pos rfl)
  · refine (grid_earlyRelease_ne _ _ other).trans ((ends j).trans ?_)
    rw [grid_setGrid_all, if_neg other]
    exact if_neg other
  · exact (held_earlyRelease _ _).trans (held_endTeam (s.setGrid (s.team n).grid y) n .ended)

theorem failTeam_eq (s : State) (n code : Nat) : s.failTeam n code = s.endNoting n { s.grid (s.team n).grid with
    nfail := (s.grid (s.team n).grid).nfail + 1,
    code := if (s.grid (s.team n).grid).code = 0 then code else (s.grid (s.team n).grid).code } := rfl

end Sys2Proof.Machine
end


section
/-! PROOFS. What a saved, and a resumed, team keeps (R386, R387, R390). -/

namespace Sys2Proof.Machine

open Sys2Proof

variable {s u : State} {n k ctx : Nat} {away : List (Nat × Nat)}

/-- Two groups have the same address slice, predicates, stacks, queues and quads. -/
def Group.SameSlices (g h : Group) : Prop := h.sregs = g.sregs ∧ h.preds = g.preds ∧ h.apc = g.apc ∧ h.apath = g.apath ∧ h.rq = g.rq ∧
  h.ca = g.ca ∧ h.fcs = g.fcs ∧ h.tilew = g.tilew ∧ h.slip = g.slip ∧ h.quads = g.quads ∧ h.fault = g.fault

/-- Two teams have the same banks, reservations, windows and labels. -/
def Team.Shares (x v : Team) : Prop := v.banks = x.banks ∧ v.bankLbl = x.bankLbl ∧ v.resv = x.resv ∧ v.whand = x.whand ∧ v.spLbl = x.spLbl ∧
  v.spMark = x.spMark ∧ v.grid = x.grid ∧ v.teamix = x.teamix

theorem saved_sameSlices {g : Group} {hints : Bool} (quiet : g.fx = []) : g.SameSlices (g.saved hints) ∧ (g.saved hints).await = none := by
  obtain ⟨ops, paths, eq⟩ := saved_eq hints quiet
  rw [eq]
  exact ⟨⟨rfl, rfl, rfl, rfl, rfl, rfl, rfl, rfl, rfl, rfl, rfl⟩, rfl⟩

theorem resumed_sameSlices (g : Group) (slot : Nat × Nat) : g.SameSlices (g.resumed false slot) ∧ (g.resumed false slot).vregs = g.vregs ∧
    (g.resumed false slot).ops = g.ops ∧ (g.resumed false slot).astopped = false ∧ (g.resumed false slot).cstopped = false ∧
    (g.resumed false slot).atYield = false := by
  obtain ⟨paths, eq⟩ := resumed_eq g slot
  rw [eq]
  exact ⟨⟨rfl, rfl, rfl, rfl, rfl, rfl, rfl, rfl, rfl, rfl, rfl⟩, rfl, rfl, rfl, rfl, rfl⟩

theorem SavedAs.shares {x v : Team} {st : TState} {cycle : Nat} (h : SavedAs x v st cycle) : x.Shares v :=
  ⟨h.banks, h.bankLbl, h.resv, h.whand, h.spLbl, h.spMark, h.grid, h.teamix⟩

/-- What a save leaves, and what follows it. -/
theorem after_save (s : State) (n k : Nat) (hints : Bool) (ctx : Nat) (away : List (Nat × Nat)) :
    let u := ((s.saveTeam n hints .saved).writeHeader n).forget ctx away
    (u.team n).state = .saved ∧ (u.team n).nsave = (s.team n).nsave + 1 ∧ (u.team n).pending = false ∧ (u.team n).savedAt = s.cycle ∧
      (s.team n).Shares (u.team n) ∧ s.Spares n u ∧
      (teamOf k = n ∧ (s.groups.find k).isSome → (s.group k).fx = [] → (s.group k).finished = false →
        (s.group k).SameSlices (u.group k) ∧ (u.group k).await = none) := by
  have own := own_headed (s.saveTeam n hints .saved) n ctx away
  have saved := (saveTeam_savedAs s n hints .saved).own own
  refine ⟨saved.state, saved.nsave, saved.pending, saved.savedAt, saved.shares, (State.Spares.saveTeam s n hints .saved).own own,
    fun mine quiet _ => ?_⟩
  rw [group_after_save mine]
  exact saved_sameSlices quiet

theorem after_forced_save (s : State) (n k : Nat) (ctx : Nat) (away : List (Nat × Nat)) :
    let u := ((s.saveTeam n false .saved).writeHeader n).forget ctx away
    ((u.team n).sp = (s.team n).sp ∧ (u.team n).acc = (s.team n).acc ∧ (u.team n).wmem = (s.team n).wmem) ∧
      (teamOf k = n ∧ (s.groups.find k).isSome → (s.group k).fx = [] → (s.group k).finished = false → (u.group k).vregs = (s.group k).vregs) := by
  dsimp only
  rw [(own_headed (s.saveTeam n false .saved) n ctx away).team]
  refine ⟨saveTeam_whole s n .saved, fun mine quiet runs => ?_⟩
  rw [group_after_save mine]
  exact vregs_saved_all quiet runs

/-- A resumed team whose image was unchanged. -/
theorem after_resume {core : Nat} (ctx : Nat) (away : List (Nat × Nat)) (quiet : ∀ h ∈ s.held, h.isFor (s.team n) = false)
    (whole : (s.team n).restart = false) (few : (s.grid (s.team n).grid).rec_.gcount ≤ 32) :
    let u := (s.resumeOn n core).forget ctx away
    s.Spares n u ∧ ((s.team n).Shares (u.team n) ∧ (u.team n).sp = (s.team n).sp ∧ (u.team n).acc = (s.team n).acc ∧ (u.team n).wmem = (s.team n).wmem) ∧
      (u.team n).state = .resident ∧ (u.team n).core = core ∧ (u.team n).resumed = true ∧ (u.team n).resumedAt = s.cycle ∧
      (teamOf k = n ∧ (s.groups.find k).isSome → k % 32 < (s.grid (s.team n).grid).rec_.gcount →
        (s.group k).SameSlices (u.group k) ∧ (u.group k).vregs = (s.group k).vregs ∧ (u.group k).ops = (s.group k).ops ∧
        (u.group k).astopped = false ∧ (u.group k).cstopped = false ∧ (u.group k).atYield = false) := by
  have own := own_forget (s.resumeOn n core) ctx away
  obtain ⟨room, same⟩ := resumeOn_team (core := core) quiet whole
  unfold Team.SameBut at same
  dsimp only
  rw [own.team, own.group, same]
  refine ⟨(resumeOn_spares quiet whole few).own own, ⟨⟨rfl, rfl, rfl, rfl, rfl, rfl, rfl, rfl⟩, rfl, rfl, rfl⟩, rfl, rfl, rfl, rfl,
    fun mine small => ?_⟩
  have num : 32 * n + k % 32 = k := by
    have := mine.1
    unfold teamOf at this
    omega
  obtain ⟨slot, eq⟩ := resumeOn_group (core := core) quiet whole small
  rw [num] at eq
  rw [eq]
  exact resumed_sameSlices _ slot

theorem after_failing (s : State) (n : Nat) (ctx : Nat) (away : List (Nat × Nat)) (code : Nat) :
    let u := (s.failTeam n code).forget ctx away
    (u.team n).state = .ended ∧ (u.grid (s.team n).grid).nfail = (s.grid (s.team n).grid).nfail + 1 := by
  have own := own_forget (s.failTeam n code) ctx away
  dsimp only
  rw [own.team, own.grid, failTeam_eq]
  obtain ⟨-, over_, ⟨b, grid⟩, -⟩ := endNoting_spec s n { s.grid (s.team n).grid with
    nfail := (s.grid (s.team n).grid).nfail + 1,
    code := if (s.grid (s.team n).grid).code = 0 then code else (s.grid (s.team n).grid).code }
  unfold Team.SameBut at over_
  rw [over_, grid]
  exact ⟨rfl, rfl⟩

theorem group_stopped (s : State) (n : Nat) {j : Nat} (listed : (s.groups.find j).isSome) :
    State.group { s with groups := s.groups.mapVals (fun k g => if teamOf k = n then { g with astopped := true, cstopped := true } else g) } j =
      if teamOf j = n then { s.group j with astopped := true, cstopped := true } else s.group j := by
  refine (Tab.get_mapVals (β := Group) (fun k g => if teamOf k = n then { g with astopped := true, cstopped := true } else g) Group.empty Group.empty
    s.groups j).trans ?_
  rw [if_pos listed]
  rfl

/-! ## A team at its end (R373, R381) -/

/-- No other team, group of another team, or other grid differs, but for whom room is held. -/
def State.SparesAll (s : State) (n : Nat) (u : State) : Prop :=
  (∀ j, j ≠ n → (s.team j).SameBut (u.team j)) ∧ (∀ k, teamOf k ≠ n → u.group k = s.group k) ∧ ∀ j, j ≠ (s.team n).grid → u.grid j = s.grid j

/-- A team is at its end: nothing is bound or held, its block is free, and no arrival waits for it. -/
def State.Over (s : State) (n : Nat) (u : State) (st : TState) : Prop :=
  let v := u.team n
  v.state = st ∧ v.banks = 0#64 ∧ v.block = none ∧ v.resv = [] ∧ v.whand = [] ∧ v.pitches = [] ∧ v.bell = none ∧ s.SparesAll n u ∧
    (∀ b, (s.team n).block = some b → b ∉ (u.grid (s.team n).grid).blocks) ∧
    ∀ h ∈ u.held, h.grid ≠ (s.team n).grid ∨ h.teamix ≠ (s.team n).teamix

theorem not_isFor {l : List Held} {x : Team} {h : Held} (mem : h ∈ l.filter (fun h => !h.isFor x)) : h.grid ≠ x.grid ∨ h.teamix ≠ x.teamix := by
  have other := (List.mem_filter.1 mem).2
  by_contra same
  rw [not_or, not_not, not_not] at same
  rw [Held.isFor, same.1, same.2] at other
  simp at other

theorem not_mem_freed {l : List Nat} {b : Nat} {block : Option Nat} (mine : block = some b) : b ∉ l.filter (fun c => block != some c) := by
  intro mem
  have other := (List.mem_filter.1 mem).2
  rw [mine] at other
  simp at other

/-- What ends a team leaves it at its end. -/
theorem over_of {s u : State} {n : Nat} {x : Team} {st : TState} {blocks : List Nat} {held : List Held} (spares : s.Spares n u)
    (over_ : (x.over st).SameBut (u.team n)) (grid : (u.grid (s.team n).grid).blocks = blocks.filter (fun b => (s.team n).block != some b))
    (grids : ∀ j, j ≠ (s.team n).grid → u.grid j = s.grid j) (kept : u.held = held.filter (fun h => !h.isFor (s.team n))) : s.Over n u st := by
  unfold Team.SameBut at over_
  unfold State.Over
  dsimp only
  rw [over_, grid, kept]
  exact ⟨rfl, rfl, rfl, rfl, rfl, rfl, rfl, ⟨spares.1, spares.2, grids⟩, fun b mine => not_mem_freed mine, fun h mem => not_isFor mem⟩

theorem State.Over.own {s t u : State} {n : Nat} {st : TState} (h : s.Over n t st) (own : t.OwnTo u) : s.Over n u st := by
  obtain ⟨_, _, _, _, _, _, _, _, _, _, _, _, _, rfl⟩ := own
  exact h

/-- A state whose teams, groups and grids are those of another but for the groups and buffers of one team. -/
structure State.Near (s : State) (n : Nat) (w : State) : Prop where
  spares : s.Spares n w
  grids : ∀ j, w.grid j = s.grid j
  held : w.held = s.held
  grid : (w.team n).grid = (s.team n).grid
  teamix : (w.team n).teamix = (s.team n).teamix
  block : (w.team n).block = (s.team n).block

theorem State.Near.of_own {s w : State} (h : s.OwnTo w) (n : Nat) : s.Near n w where
  spares := .of_eq (fun j _ => h.team j) (fun k _ => h.group k)
  grids := h.grid
  held := h.held
  grid := congrArg Team.grid (h.team n)
  teamix := congrArg Team.teamix (h.team n)
  block := congrArg Team.block (h.team n)

theorem State.Near.own {s w u : State} {n : Nat} (h : s.Near n w) (own : w.OwnTo u) : s.Near n u where
  spares := h.spares.own own
  grids j := (own.grid j).trans (h.grids j)
  held := own.held.trans h.held
  grid := (congrArg Team.grid (own.team n)).trans h.grid
  teamix := (congrArg Team.teamix (own.team n)).trans h.teamix
  block := (congrArg Team.block (own.team n)).trans h.block

theorem near_saveTeam (s : State) (n : Nat) (hints : Bool) (st : TState) : s.Near n (s.saveTeam n hints st) where
  spares := .saveTeam s n hints st
  grids := grid_saveTeam s n hints st
  held := held_saveTeam s n hints st
  grid := (saveTeam_savedAs s n hints st).grid
  teamix := (saveTeam_savedAs s n hints st).teamix
  block := (saveTeam_savedAs s n hints st).block

theorem isFor_near {s w : State} (near : s.Near n w) (h : Held) : h.isFor (w.team n) = h.isFor (s.team n) := by
  rw [Held.isFor, Held.isFor, near.grid, near.teamix]

/-- A team that is ended from a state near one, and what its grid then notes. -/
theorem over_endNoting {s w : State} {y : Grid} (near : s.Near n w) : s.Over n (w.endNoting n y) .ended ∧
    ((w.endNoting n y).grid (s.team n).grid).nfail = y.nfail ∧ ((w.endNoting n y).grid (s.team n).grid).code = y.code := by
  obtain ⟨spares, over_, ⟨b, grid⟩, grids, held⟩ := endNoting_spec w n y
  rw [near.grid, near.block] at grid
  have others (j : Nat) (other : j ≠ (s.team n).grid) : (w.endNoting n y).grid j = s.grid j := by
    rw [← near.grid] at other
    exact (grids j other).trans (near.grids j)
  refine ⟨over_of (held := s.held) (near.spares.trans spares) over_ (congrArg Grid.blocks grid) others ?_, by rw [grid], by rw [grid]⟩
  rw [held, near.held]
  exact congrArg (fun p => s.held.filter p) (funext fun h => by rw [isFor_near near])

/-- A team that is ended by its own fault, from a state near one. -/
theorem over_failTeam {s w : State} {code : Nat} (near : s.Near n w) : s.Over n (w.failTeam n code) .ended ∧
    ((w.failTeam n code).grid (s.team n).grid).nfail = (s.grid (s.team n).grid).nfail + 1 ∧
    ((w.failTeam n code).grid (s.team n).grid).code = if (s.grid (s.team n).grid).code = 0 then code else (s.grid (s.team n).grid).code := by
  rw [failTeam_eq]
  obtain ⟨ended, nfail, code_⟩ := over_endNoting (y := { w.grid (w.team n).grid with
    nfail := (w.grid (w.team n).grid).nfail + 1,
    code := if (w.grid (w.team n).grid).code = 0 then code else (w.grid (w.team n).grid).code }) near
  refine ⟨ended, nfail.trans ?_, code_.trans ?_⟩
  · dsimp only
    rw [near.grid, near.grids]
  · dsimp only
    rw [near.grid, near.grids]

/-- A team that retires. -/
theorem over_retires (s : State) (n : Nat) : s.Over n (s.endTeam n .retired) .retired ∧
    ((s.endTeam n .retired).grid (s.team n).grid).nfail = (s.grid (s.team n).grid).nfail ∧
    ((s.endTeam n .retired).grid (s.team n).grid).code = (s.grid (s.team n).grid).code := by
  have grid := grid_endTeam s n .retired (s.team n).grid
  rw [if_pos rfl] at grid
  refine ⟨over_of (.endTeam s n .retired) (team_endTeam_self s n .retired) (congrArg Grid.blocks grid) (fun j other => ?_) (held_endTeam s n .retired), ?_, ?_⟩
  · rw [grid_endTeam, if_neg other]
  · rw [grid]
  · rw [grid]

/-! ## The end of a grid (R371, R374, R381, R382) -/

theorem foldl_of_mem {α β : Type} {P : α → Prop} {f : α → β → α} {l : List β} {e : β} (mem : e ∈ l) (makes : ∀ u, P (f u e)) (keeps : ∀ u x, P u → P (f u x))
    (a : α) : P (l.foldl f a) := by
  induction l generalizing a with
  | nil => cases mem
  | cons x l ih =>
    rcases List.mem_cons.1 mem with rfl | later
    · exact keeps_foldl (P := P) keeps l _ (makes a)
    · exact ih later _

theorem foldl_keeps_mem {α β : Type} {P : α → Prop} {f : α → β → α} {l : List β} (keeps : ∀ x ∈ l, ∀ u, P u → P (f u x)) {a : α} (h : P a) : P (l.foldl f a) := by
  induction l generalizing a with
  | nil => exact h
  | cons x l ih => exact ih (fun y hy => keeps y (List.mem_cons_of_mem _ hy)) (keeps x List.mem_cons_self a h)

/-- With each key once, what is listed is what is found. -/
theorem find_of_mem {α : Type} {m : Tab α} (once : (m.map (·.1)).Nodup) {e : Nat × α} (mem : e ∈ m) : m.find e.1 = some e.2 := by
  induction m with
  | nil => cases mem
  | cons x m ih =>
    obtain ⟨j, v⟩ := x
    rw [List.map_cons, List.nodup_cons] at once
    change (if j = e.1 then some v else Tab.find m e.1) = some e.2
    rcases List.mem_cons.1 mem with rfl | later
    · exact if_pos rfl
    · have other : j ≠ e.1 := fun here => once.1 (List.mem_map.2 ⟨e, later, here.symm⟩)
      rw [if_neg other]
      exact ih once.2 later

/-- The teams that the end of a grid ends at once. -/
def State.endedWith (s : State) (gr : Nat) : List (Nat × Team) :=
  (s.teams.filter (fun e => e.2.grid == gr)).filter (fun e => e.2.state == .saved || e.2.state == .faulted)

/-- The state in which a grid has ended and the bells of its resident teams have rung. -/
def State.rung (s : State) (gr code : Nat) : State :=
  let x := s.grid gr
  let s1 := s.setGrid gr { x with gend := true, code := if x.code = 0 then code else x.code,
                                  nfail := x.nfail + (s.teams.filter (fun e => e.2.grid == gr)).countP (fun e => e.2.state == .faulted) }
  { s1 with teams := s1.teams.mapVals (fun _ t => if t.grid = gr && t.state == .resident then t.ring s.cycle else t) }

theorem endGrid_eq (s : State) (gr code : Nat) : s.endGrid gr code =
    ((s.endedWith gr).foldl (fun a e => a.endTeam e.1 .ended) (s.rung gr code)).dropHolds (2 * gr + 1) := rfl

theorem grid_endGrid (s : State) (gr code : Nat) : ((s.endGrid gr code).grid gr).gend = true ∧
    ((s.endGrid gr code).grid gr).code = if (s.grid gr).code = 0 then code else (s.grid gr).code := by
  rw [endGrid_eq]
  refine keeps_foldl (P := fun u : State => (u.grid gr).gend = true ∧ (u.grid gr).code = if (s.grid gr).code = 0 then code else (s.grid gr).code)
    (fun u e hu => ?_) (s.endedWith gr) (s.rung gr code) ?_
  · rw [grid_endTeam]
    split
    · exact hu
    · exact hu
  · have ended : (s.rung gr code).grid gr = _ := Tab.get_put_self ..
    rw [ended]
    exact ⟨rfl, rfl⟩

/-- A faulted team of a grid that ends is ended. -/
theorem state_endGrid {s : State} {gr code : Nat} (faulted : (s.team n).state = .faulted) (mine : (s.team n).grid = gr) :
    ((s.endGrid gr code).team n).state = .ended := by
  have listed : (n, s.team n) ∈ s.endedWith gr := by
    have found : s.teams.find n = some (s.team n) := by
      rw [State.team, Tab.get_eq_find] at faulted ⊢
      cases h : s.teams.find n with
      | none => rw [h] at faulted; exact absurd faulted (by decide)
      | some x => rfl
    exact List.mem_filter.2 ⟨List.mem_filter.2 ⟨Tab.mem_of_find found, by simp [mine]⟩, by simp [faulted]⟩
  have ends (u : State) : ((u.endTeam n .ended).team n).state = .ended := by
    have over_ := team_endTeam_self u n .ended
    unfold Team.SameBut at over_
    rw [over_]
    rfl
  have kept : (((s.endedWith gr).foldl (fun a e => a.endTeam e.1 .ended) (s.rung gr code)).team n).state = .ended := by
    refine foldl_of_mem (P := fun u : State => (u.team n).state = .ended) listed (fun u => ends u) (fun u e hu => ?_) _
    by_cases here : n = e.1
    · rw [← here]
      exact ends u
    · have same := team_endTeam_ne u e.1 .ended here
      unfold Team.SameBut at same
      rw [same]
      exact hu
  have same := team_dropHolds ((s.endedWith gr).foldl (fun a e => a.endTeam e.1 .ended) (s.rung gr code)) (2 * gr + 1) n
  unfold Team.SameBut at same
  rw [endGrid_eq, same]
  exact kept

/-- The bell of a resident team of a grid that ends rings. -/
theorem bell_endGrid {s : State} {gr code j : Nat} (once : (s.teams.map (·.1)).Nodup) (mine : (s.team j).grid = gr) (listed : (s.teams.find j).isSome)
    (resident : (s.team j).state = .resident) : ((s.endGrid gr code).team j).bell.isSome := by
  have rung : ((s.rung gr code).team j).bell.isSome := by
    have value : (s.rung gr code).team j = _ :=
      Tab.get_mapVals (β := Team) (fun _ (t : Team) => if t.grid = gr && t.state == .resident then t.ring s.cycle else t) Team.empty Team.empty s.teams j
    have is : (decide ((s.team j).grid = gr) && (s.team j).state == .resident) = true := by simp [mine, resident]
    rw [value, if_pos listed]
    change (if (decide ((s.team j).grid = gr) && (s.team j).state == .resident) = true then (s.team j).ring s.cycle else s.team j).bell.isSome = true
    rw [if_pos is]
    rfl
  have kept : (((s.endedWith gr).foldl (fun a e => a.endTeam e.1 .ended) (s.rung gr code)).team j).bell.isSome := by
    refine foldl_keeps_mem (P := fun u : State => (u.team j).bell.isSome) (fun e he u hu => ?_) rung
    have other : j ≠ e.1 := by
      rintro rfl
      obtain ⟨⟨there, -⟩, out⟩ := (List.mem_filter.1 he).imp_left List.mem_filter.1
      have is : s.team e.1 = e.2 := by rw [State.team, Tab.get_eq_find, find_of_mem once there]; rfl
      rw [is] at resident
      simp [resident] at out
    have same := team_endTeam_ne u e.1 .ended other
    unfold Team.SameBut at same
    rw [same]
    exact hu
  have same := team_dropHolds ((s.endedWith gr).foldl (fun a e => a.endTeam e.1 .ended) (s.rung gr code)) (2 * gr + 1) j
  unfold Team.SameBut at same
  rw [endGrid_eq, same]
  exact kept

end Sys2Proof.Machine
end


section
/-! PROOFS. Faulted teams, teams and grids that retire, and the settling of R354, R373 to R393. -/

namespace Sys2Proof.Machine

open Sys2Proof

variable {s u : State} {n : Nat}

/-! ## TEAM_FAULT_SAVE (R376, R381, R382) -/

/-- A team whose records are written and which is saved whole as faulted, with its header. -/
def State.faultSaved (s : State) (n : Nat) : State := ((s.writeRecords n).saveTeam n false .faulted).writeHeader n

theorem own_writeRecords (s : State) (n : Nat) : s.OwnTo (s.writeRecords n) :=
  (State.OwnTo.refl s).foldl (fun _ _ hu => hu.blockWrite _ _ _) _

theorem own_writeHeader (s : State) (n : Nat) : s.OwnTo (s.writeHeader n) := (State.OwnTo.refl s).blockWrite _ _ _

theorem State.Near.trans {s t u : State} (h : s.Near n t) (h' : t.Near n u) : s.Near n u where
  spares := h.spares.trans h'.spares
  grids j := (h'.grids j).trans (h.grids j)
  held := h'.held.trans h.held
  grid := h'.grid.trans h.grid
  teamix := h'.teamix.trans h.teamix
  block := h'.block.trans h.block

theorem near_faultSaved (s : State) (n : Nat) : s.Near n (s.faultSaved n) :=
  ((State.Near.of_own (own_writeRecords s n) n).trans (near_saveTeam (s.writeRecords n) n false .faulted)).own (own_writeHeader _ n)

theorem faultSaved_savedAs (s : State) (n : Nat) : SavedAs (s.team n) ((s.faultSaved n).team n) .faulted s.cycle := by
  have records := own_writeRecords s n
  have saved := (saveTeam_savedAs (s.writeRecords n) n false .faulted).own (own_writeHeader _ n)
  rw [records.team, records.cycle] at saved
  exact saved

theorem faultSaved_whole (s : State) (n : Nat) :
    ((s.faultSaved n).team n).sp = (s.team n).sp ∧ ((s.faultSaved n).team n).acc = (s.team n).acc := by
  have whole := saveTeam_whole (s.writeRecords n) n .faulted
  rw [(own_writeRecords s n).team] at whole
  unfold State.faultSaved
  rw [(own_writeHeader _ n).team]
  exact ⟨whole.1, whole.2.1⟩

theorem faultSaved_group (s : State) {n k : Nat} (mine : teamOf k = n) (listed : (s.groups.find k).isSome) :
    (s.faultSaved n).group k = (s.group k).saved false := by
  have records := own_writeRecords s n
  unfold State.faultSaved
  rw [(own_writeHeader _ n).group, group_saveTeam_self _ n false .faulted mine (by rw [records.groups]; exact listed), records.group]

/-- A faulted team of a grid that has ended: the records of its own fault, if it has one. -/
def State.lateRecords (s : State) (n : Nat) : State := if (s.team n).first.isSome then (s.writeRecords n).writeHeader n else s

theorem own_lateRecords (s : State) (n : Nat) : s.OwnTo (s.lateRecords n) :=
  State.OwnTo.ite ((own_writeRecords s n).trans (own_writeHeader _ n)) (.refl s)

section
variable (resident : (s.team n).state = .resident) (rings : (s.team n).bell.isSome) (stopped : s.stopped n = true) (rests : s.rests n = true)
include resident rings stopped rests

theorem teamFaultSave_guard : ¬ ((!((s.team n).state == .resident) || (s.team n).bell.isNone || !s.stopped n || !s.rests n) = true) := by
  have some_ : (s.team n).bell.isNone = false := by
    rw [← Option.not_isSome, rings]
    rfl
  rw [resident, some_, stopped, rests]
  decide

section
variable (runs : (s.grid (s.team n).grid).gend = false)
include runs

theorem teamFaultSave_asks (missing : s.missing (s.teamCtx n) (s.imageSpan n) ≠ []) :
    exec (.teamFaultSave n) s = .next (s.askSpans (s.teamCtx n) (s.imageSpan n)) := by
  rw [exec_teamFaultSave, execTeamFaultSave]
  dsimp only
  rw [if_neg (teamFaultSave_guard resident rings stopped rests), if_neg (by rw [runs]; decide)]
  exact withImage_of_missing missing

variable (read : s.missing (s.teamCtx n) (s.imageSpan n) = [])
include read

theorem teamFaultSave_saves (signals : (s.grid (s.team n).grid).rec_.fltsig ≠ 0) : exec (.teamFaultSave n) s =
    .next ((State.inOrder (s.teamCtx n) [.signal (s.grid (s.team n).grid).rec_.fltsig] s (s.faultSaved n)).forget (s.teamCtx n)
      (s.spansAway (s.teamCtx n) (s.imageSpan n))) := by
  rw [exec_teamFaultSave, execTeamFaultSave]
  dsimp only
  rw [if_neg (teamFaultSave_guard resident rings stopped rests), if_neg (by rw [runs]; decide)]
  exact withImage_of_read read (if_neg signals)

theorem teamFaultSave_ends (silent : (s.grid (s.team n).grid).rec_.fltsig = 0) : exec (.teamFaultSave n) s =
    .next (((s.faultSaved n).failTeam n (s.team n).faultCode).forget (s.teamCtx n) (s.spansAway (s.teamCtx n) (s.imageSpan n))) := by
  rw [exec_teamFaultSave, execTeamFaultSave]
  dsimp only
  rw [if_neg (teamFaultSave_guard resident rings stopped rests), if_neg (by rw [runs]; decide)]
  exact withImage_of_read read (if_pos silent)

end

theorem teamFaultSave_late (ended : (s.grid (s.team n).grid).gend = true) : exec (.teamFaultSave n) s =
    .next ((s.lateRecords n).endNoting n { s.grid (s.team n).grid with
      nfail := (s.grid (s.team n).grid).nfail + (if (s.team n).first.isSome then 1 else 0) }) := by
  rw [exec_teamFaultSave, execTeamFaultSave]
  dsimp only
  rw [if_neg (teamFaultSave_guard resident rings stopped rests), if_pos ended, State.endNoting, (own_lateRecords s n).team]
  rfl

end

/-! ## DISP_POLL (R381) -/

/-- DISP of a team's header. -/
def State.disp (s : State) (n : Nat) : Nat := ofBytes (s.deviceRead (s.teamCtx n) (s.blockAddr n + 1) 1)

/-- What DISP asks for. -/
def State.dispose (s : State) (n : Nat) : Out :=
  match s.disp n with
  | 1 => .next (s.failTeam n (s.team n).faultCode)
  | 2 => .next ((s.setTeam n { s.team n with state := .saved, restart := true }).writeHeader n)
  | 3 => .next ((s.endGrid (s.team n).grid (s.team n).faultCode).earlyRelease (s.team n).grid)
  | _ => .next s

section
variable (faulted : (s.team n).state = .faulted)
include faulted

theorem dispPoll_asks (missing : s.missing (s.teamCtx n) [(s.blockAddr n + 1, 1)] ≠ []) :
    exec (.dispPoll n) s = .next (s.askSpans (s.teamCtx n) [(s.blockAddr n + 1, 1)]) := by
  rw [exec_dispPoll, execDispPoll]
  rw [if_neg (by rw [faulted]; decide)]
  exact withOwn_of_missing missing

/-- Once DISP has been read, it is acted on. -/
theorem dispPoll_acts (read : s.missing (s.teamCtx n) [(s.blockAddr n + 1, 1)] = []) (next : s.dispose n = .next u) : exec (.dispPoll n) s =
    .next (u.forget (s.teamCtx n) (s.spansAway (s.teamCtx n) [(s.blockAddr n + 1, 1)])) := by
  rw [exec_dispPoll, execDispPoll]
  rw [if_neg (by rw [faulted]; decide)]
  exact withOwn_of_read read next

end

theorem dispose_ends (disp : s.disp n = 1) : s.dispose n = .next (s.failTeam n (s.team n).faultCode) := by
  simp only [State.dispose, disp]

theorem dispose_resumes (disp : s.disp n = 2) :
    s.dispose n = .next ((s.setTeam n { s.team n with state := .saved, restart := true }).writeHeader n) := by
  simp only [State.dispose, disp]

theorem dispose_endsGrid (disp : s.disp n = 3) :
    s.dispose n = .next ((s.endGrid (s.team n).grid (s.team n).faultCode).earlyRelease (s.team n).grid) := by
  simp only [State.dispose, disp]

theorem dispose_waits (disp : s.disp n = 0 ∨ 3 < s.disp n) : s.dispose n = .next s := by
  unfold State.dispose
  split
  · omega
  · omega
  · omega
  · rfl

/-! ## TEAM_RETIRE and GRID_RETIRE (R354, R373, R374) -/

theorem teamRetire_retires (resident : (s.team n).state = .resident) (silent : (s.team n).bell = none) (drained : (s.team n).drained = true)
    (idle : ∀ p ∈ (s.team n).pitches, p.2.queue = [])
    (done : ∀ e ∈ s.groups, teamOf e.1 = n → e.2.finished = true ∧ ∀ o ∈ e.2.ops, o.doneq = true ∨ ∃ a b c, o.data = .fence a b c) :
    exec (.teamRetire n) s = .next (s.endTeam n .retired) := by
  have empty : (s.team n).pitches.all (fun p => p.2.queue.isEmpty) = true := List.all_eq_true.2 fun p hp => by rw [idle p hp]; rfl
  rw [exec_teamRetire, execTeamRetire]
  refine if_pos ?_
  rw [resident, silent, drained, empty]
  refine all_groupsOf fun e he mine => ?_
  obtain ⟨finished, ops⟩ := done e he mine
  rw [Bool.and_eq_true]
  refine ⟨finished, List.all_eq_true.2 fun o ho => ?_⟩
  rcases ops o ho with is | ⟨a, b, c, data⟩
  · rw [is, Bool.true_or]
  · rw [data, Bool.or_true]

theorem mem_send (s : State) (f : Frame) : (s.send f).mem = s.mem := by
  unfold State.send
  split
  · rfl
  · dsimp only
    split <;> rfl

theorem mem_deviceSend (s : State) (dev ctx page : Nat) (f : Nat → Frame) : (s.deviceSend dev ctx page f).mem = s.mem := by
  unfold State.deviceSend
  split
  · rfl
  · exact mem_send _ _

/-- Discarding the sets of a grid. -/
theorem dropSets_spec (s : State) (gr : Nat) :
    ({ s with detsets := s.detsets.filter (fun e => !(e.2.dev == s.devn && e.2.grid == gr)) } : State).OwnTo (s.dropSets gr) ∧
      (s.dropSets gr).mem = s.mem := by
  unfold State.dropSets
  exact ⟨(State.OwnTo.refl _).foldl (fun _ _ hu => hu.deviceSend _ _ _ _) _,
    keeps_foldl (P := fun u : State => u.mem = s.mem) (fun u d hu => (mem_deviceSend u d _ _ _).trans hu) _ _ rfl⟩

/-- What a grid writes as it retires. -/
def State.gridWords (s : State) (gr : Nat) : List OwnAct :=
  [.write (s.grid gr).rec_.status (bytesOf (s.grid gr).status 8), .signal (s.grid gr).rec_.donesig]

/-- The state after a grid that retires has written them. -/
def State.gridWritten (s : State) (gr : Nat) : State :=
  State.inOrder (s.grid gr).ctx (s.gridWords gr) (s.earlyRelease gr) (s.earlyRelease gr)

/-- A grid that retires. -/
def State.retiring (s : State) (gr : Nat) : State :=
  (((s.gridWritten gr).dropSets gr).setGrid gr { (s.earlyRelease gr).grid gr with retired := true }).dropHolds (2 * gr + 1)

theorem gridRetire_retires {gr : Nat} (listed : (s.grids.find gr).isSome) (runs : (s.grid gr).retired = false)
    (out : ∀ e ∈ s.teams, e.2.grid = gr → e.2.state = .retired ∨ e.2.state = .ended)
    (over_ : (s.grid gr).gend = true ∨ ((s.grid gr).admitted = true ∧ (s.grid gr).nextTeam = (s.grid gr).rec_.n)) :
    exec (.gridRetire gr) s = .next (s.retiring gr) := by
  have there : (s.grids.find gr).isNone = false := by
    rw [← Option.not_isSome, listed]
    rfl
  have all : (s.teams.filter (fun e => e.2.grid == gr)).all (fun e => e.2.state == .retired || e.2.state == .ended) = true := by
    refine List.all_eq_true.2 fun e he => ?_
    obtain ⟨mem, mine⟩ := List.mem_filter.1 he
    simpa using out e mem (by simpa using mine)
  have ends : ((s.grid gr).gend || ((s.grid gr).admitted && (s.grid gr).nextTeam == (s.grid gr).rec_.n)) = true := by simpa using over_
  rw [exec_gridRetire, execGridRetire]
  dsimp only
  refine if_neg ?_
  rw [there, runs, all, ends]
  decide

theorem grid_dropHolds (s : State) (w j : Nat) : (s.dropHolds w).grid j = s.grid j := rfl

theorem detsets_setGrid_dropHolds (s : State) (n w : Nat) (x : Grid) : ((s.setGrid n x).dropHolds w).detsets = s.detsets := rfl

theorem groups_setGrid_dropHolds (s : State) (n w : Nat) (x : Grid) : ((s.setGrid n x).dropHolds w).groups = s.groups := rfl

theorem mem_setGrid_dropHolds (s : State) (n w : Nat) (x : Grid) : ((s.setGrid n x).dropHolds w).mem = s.mem := rfl

theorem State.OwnTo.devn {s t : State} (h : s.OwnTo t) : t.devn = s.devn := by
  obtain ⟨_, _, _, _, _, _, _, _, _, _, _, _, _, rfl⟩ := h
  rfl

theorem devn_earlyRelease (s : State) (gr : Nat) : (s.earlyRelease gr).devn = s.devn := by
  obtain ⟨b, own | same⟩ := earlyRelease_eq s gr
  · exact own.devn
  · rw [same]

theorem own_gridWritten (s : State) (gr : Nat) : (s.earlyRelease gr).OwnTo (s.gridWritten gr) := State.OwnTo.inOrder _ _ _ (.refl _)

section
variable (s : State) (gr : Nat)

theorem retiring_grid : ∃ b, (s.retiring gr).grid gr = { s.grid gr with retired := true, earlyDone := b } := by
  obtain ⟨b, eq⟩ := grid_earlyRelease_self s gr
  refine ⟨b, ?_⟩
  rw [State.retiring, grid_dropHolds, grid_setGrid_all, if_pos rfl, eq]

theorem retiring_detsets (e : Nat × DetSet) : e ∈ (s.retiring gr).detsets ↔ e ∈ s.detsets ∧ ¬ (e.2.dev = s.devn ∧ e.2.grid = gr) := by
  rw [State.retiring, detsets_setGrid_dropHolds, (dropSets_spec (s.gridWritten gr) gr).1.detsets]
  dsimp only
  rw [List.mem_filter, (own_gridWritten s gr).detsets, detsets_earlyRelease, (own_gridWritten s gr).devn, devn_earlyRelease]
  simp only [Bool.not_eq_true', ← Bool.not_eq_true, Bool.and_eq_true, beq_iff_eq]

theorem retiring_groups : (s.retiring gr).groups = s.groups := by
  rw [State.retiring, groups_setGrid_dropHolds, (dropSets_spec (s.gridWritten gr) gr).1.groups]
  exact (own_gridWritten s gr).groups.trans (groups_earlyRelease s gr)

theorem retiring_mem : (s.retiring gr).mem = (s.gridWritten gr).mem := by
  rw [State.retiring, mem_setGrid_dropHolds, (dropSets_spec (s.gridWritten gr) gr).2]

end

/-! ## What is written of a grid (R374) and what a signal of the device's own does (R182) -/

theorem tagsSince_self (s : State) : s.tagsSince s = [] := by
  have none_ : s.tags.filter (fun e => e.2.g == noGroup && (s.tags.find e.1).isNone) = [] := List.filter_eq_nil_iff.2 fun e he => by
    have listed := Tab.isSome_find_of_mem he
    rw [← Option.not_isSome, listed]
    simp
  rw [State.tagsSince, none_]
  rfl

/-- STATUS of a grid that does not signal, in plain memory of this device. -/
theorem gridWritten_plain {gr : Nat} {a : Xlat} (goes : s.translate (s.grid gr).ctx (s.grid gr).rec_.status true = some a) (here : devOf a.pa = s.devn)
    (line : a.line = false) (dup : a.dup = false) (free : s.dieQ = []) (released : (s.grid gr).earlyDone = true)
    (one : (s.grid gr).rec_.status % 65536 + 8 ≤ 65536) (silent : (s.grid gr).rec_.donesig = 0) :
    (s.gridWritten gr).mem = (s.writeMem (localOf a.pa) (bytesOf (s.grid gr).status 8)).mem := by
  have same : s.earlyRelease gr = s := by
    unfold State.earlyRelease
    exact if_neg (by simp [released])
  have written := deviceWrite_of_plain (bs := bytesOf (s.grid gr).status 8) goes here line dup free (by rw [length_bytesOf]; exact one)
  have ready : ((s.tagsSince s).isEmpty && (s.dieQ.isEmpty || s.actsHere (s.grid gr).ctx (.write (s.grid gr).rec_.status (bytesOf (s.grid gr).status 8)))) = true := by
    rw [tagsSince_self, free]
    rfl
  have rest (t : State) : (State.inOrder (s.grid gr).ctx [.signal (s.grid gr).rec_.donesig] s t).mem = t.mem := by
    unfold State.inOrder
    split
    · rw [State.inOrder, State.ownAct, silent, State.deviceSignal, if_pos rfl]
    · rfl
  rw [State.gridWritten, same, State.gridWords, State.inOrder, if_pos ready, rest, State.ownAct, written]

theorem status_byte (w i : Nat) (small : i < 8) : (bytesOf w 8).getD i 0#8 = BitVec.ofNat 8 (w / 2 ^ (8 * i)) := by
  have inside : i < (bytesOf w 8).length := by rw [length_bytesOf]; exact small
  rw [List.getD_eq_getElem _ _ inside, getElem_bytesOf]

theorem readMem_writeMem_self (s : State) (la : Nat) (bs : List Byte) : (s.writeMem la bs).readMem la bs.length = bs := by
  refine List.ext_getElem (by simp [State.readMem, Tab.getFrom]) fun i h _ => ?_
  simp only [State.readMem, Tab.getFrom, List.getElem_map, List.getElem_range]
  exact Tab.get_setFrom_in ..

/-- A signal update in a line that is not compressed. -/
theorem signal_plain (s : State) (la : Nat) (d : DWord) : ∃ t,
    t.mem = (s.writeMem la (bytesOf (BitVec.ofNat 64 (s.readNat la 8) + d).toNat 8)).mem ∧ s.signal la d false = some t := by
  unfold State.signal State.writeLine
  dsimp only
  refine ⟨_, ?_, rfl⟩
  split <;> rfl

theorem dieWrite_signal {w : DieWrite} {d : DWord} (dup : w.dup = false) (delta : w.delta = some d) :
    s.dieWrite w = s.signal (localOf w.pa) d w.line := by
  unfold State.dieWrite
  simp only [dup, delta, Bool.false_and, Bool.false_eq_true, if_false]
  exact congrFun Option.map_id _

theorem toNat_decrement (n : Nat) : (BitVec.ofNat 64 n + BitVec.ofInt 64 (-1)).toNat = (n + 2 ^ 64 - 1) % 2 ^ 64 := by
  have least : (BitVec.ofInt 64 (-1)).toNat = 2 ^ 64 - 1 := rfl
  rw [BitVec.toNat_add, BitVec.toNat_ofNat, least]
  omega

theorem deviceSignal_value {ctx va : Nat} {a : Xlat} (some_ : va ≠ 0) (goes : s.translate ctx va true = some a) (here : devOf a.pa = s.devn)
    (line : a.line = false) (dup : a.dup = false) (free : s.dieQ = []) :
    (s.deviceSignal ctx va).readNat (localOf a.pa) 8 = (s.readNat (localOf a.pa) 8 + 2 ^ 64 - 1) % 2 ^ 64 := by
  obtain ⟨t, mem, signal⟩ := signal_plain s (localOf a.pa) (BitVec.ofInt 64 (-1))
  have made : s.dieWrite { ctx := ctx, pa := a.pa, bytes := [], delta := some (BitVec.ofInt 64 (-1)), line := a.line, dup := a.dup, page := va / 65536 } =
      some t := by
    rw [dieWrite_signal dup rfl]
    dsimp only
    rw [line, signal]
  have written : s.deviceSignal ctx va = t := by
    rw [State.deviceSignal, if_neg some_, goes]
    dsimp only
    rw [if_pos here, State.deviceApply, free]
    simp only [List.isEmpty_nil, if_true, made]
  have read := readMem_writeMem_self s (localOf a.pa) (bytesOf (BitVec.ofNat 64 (s.readNat (localOf a.pa) 8) + BitVec.ofInt 64 (-1)).toNat 8)
  rw [length_bytesOf] at read
  have value : t.readNat (localOf a.pa) 8 = ofBytes (bytesOf (BitVec.ofNat 64 (s.readNat (localOf a.pa) 8) + BitVec.ofInt 64 (-1)).toNat 8) := by
    rw [State.readNat, State.readMem, mem]
    exact congrArg ofBytes read
  rw [written, value, ofBytes_bytesOf, toNat_decrement]
  exact Nat.mod_mod _ _

end Sys2Proof.Machine
end


section
/-! PROOFS. The settling of R354 and R373 to R393. -/

namespace Sys2Proof.Machine

open Sys2Proof

variable {s : State} {n : Nat}

/-- A faulted team that is saved, with what is left of it. -/
theorem after_fault_save (s : State) (n ctx : Nat) (as : List OwnAct) (away : List (Nat × Nat)) :
    let u := (State.inOrder ctx as s (s.faultSaved n)).forget ctx away
    s.SparesAll n u ∧ (u.team n).state = .faulted ∧ (u.team n).nsave = (s.team n).nsave + 1 ∧ (u.team n).savedAt = s.cycle ∧
      (u.team n).bell = none ∧ (u.team n).sp = (s.team n).sp ∧ (u.team n).acc = (s.team n).acc ∧ (u.team n).banks = (s.team n).banks ∧
      (u.team n).resv = (s.team n).resv ∧ (u.team n).first = (s.team n).first ∧
      ∀ k, teamOf k = n → (s.groups.find k).isSome → (u.group k).fault = (s.group k).fault ∧ (u.group k).apc = (s.group k).apc ∧
        (u.group k).sregs = (s.group k).sregs := by
  have own : (s.faultSaved n).OwnTo ((State.inOrder ctx as s (s.faultSaved n)).forget ctx away) :=
    (State.OwnTo.inOrder ctx as s (.refl _)).forget ctx away
  have near := (near_faultSaved s n).own own
  have saved := (faultSaved_savedAs s n).own own
  obtain ⟨sp, acc⟩ := faultSaved_whole s n
  rw [← own.team] at sp acc
  refine ⟨⟨near.spares.1, near.spares.2, fun j _ => near.grids j⟩, saved.state, saved.nsave, saved.savedAt, saved.bell, sp, acc, saved.banks, saved.resv,
    saved.first, fun k mine listed => ?_⟩
  rw [own.group, faultSaved_group s mine listed]
  exact saved_keeps _ _

/-- A faulted team that may resume. -/
theorem after_disp_resume (s : State) (n ctx : Nat) (away : List (Nat × Nat)) :
    let x : Team := { s.team n with state := .saved, restart := true }
    let u := ((s.setTeam n x).writeHeader n).forget ctx away
    s.SparesAll n u ∧ u.team n = x := by
  have own := own_headed (s.setTeam n { s.team n with state := .saved, restart := true }) n ctx away
  refine ⟨⟨fun j other => .of_eq ?_, fun k _ => own.group k, fun j _ => own.grid j⟩, ?_⟩
  · rw [own.team, State.team_setTeam_ne _ _ other]
  · dsimp only
    rw [own.team, State.team_setTeam]

/-- A grid that is ended by the disposition of a faulted team. -/
theorem after_disp_end {s : State} {n : Nat} (ctx : Nat) (away : List (Nat × Nat)) (faulted : (s.team n).state = .faulted) (once : (s.teams.map (·.1)).Nodup) :
    let gr := (s.team n).grid
    let u := ((s.endGrid gr (s.team n).faultCode).earlyRelease gr).forget ctx away
    (u.grid gr).gend = true ∧ (u.team n).state = .ended ∧
      (u.grid gr).code = (if (s.grid gr).code = 0 then (s.team n).faultCode else (s.grid gr).code) ∧
      ∀ j, (s.team j).grid = gr → (s.teams.find j).isSome → (s.team j).state = .resident → (u.team j).bell.isSome := by
  have own := own_forget ((s.endGrid (s.team n).grid (s.team n).faultCode).earlyRelease (s.team n).grid) ctx away
  obtain ⟨gend, code⟩ := grid_endGrid s (s.team n).grid (s.team n).faultCode
  obtain ⟨b, grid⟩ := grid_earlyRelease_self (s.endGrid (s.team n).grid (s.team n).faultCode) (s.team n).grid
  dsimp only
  rw [own.grid, grid, own.team, team_earlyRelease]
  refine ⟨gend, state_endGrid faulted rfl, code, fun j mine listed resident => ?_⟩
  rw [own.team, team_earlyRelease]
  exact bell_endGrid once mine listed resident

/-- A team of a grid that has ended. -/
theorem after_late_fault (s : State) (n : Nat) :
    let u := (s.lateRecords n).endNoting n { s.grid (s.team n).grid with
      nfail := (s.grid (s.team n).grid).nfail + (if (s.team n).first.isSome then 1 else 0) }
    s.Over n u .ended ∧ (u.grid (s.team n).grid).nfail = (s.grid (s.team n).grid).nfail + (if (s.team n).first.isSome then 1 else 0) ∧
      (u.grid (s.team n).grid).code = (s.grid (s.team n).grid).code :=
  over_endNoting (State.Near.of_own (own_lateRecords s n) n)

/-- A team that fails, and what is forgotten then. -/
theorem after_own_fault {s w : State} (near : s.Near n w) (ctx : Nat) (away : List (Nat × Nat)) (code : Nat) :
    let u := (w.failTeam n code).forget ctx away
    s.Over n u .ended ∧ (u.grid (s.team n).grid).nfail = (s.grid (s.team n).grid).nfail + 1 ∧
      (u.grid (s.team n).grid).code = if (s.grid (s.team n).grid).code = 0 then code else (s.grid (s.team n).grid).code := by
  have own := own_forget (w.failTeam n code) ctx away
  obtain ⟨ended, nfail, noted⟩ := over_failTeam (code := code) near
  dsimp only
  rw [own.grid]
  exact ⟨ended.own own, nfail, noted⟩

/-- The word that a grid in plain memory of this device leaves at STATUS. -/
theorem retiring_status {gr : Nat} {a : Xlat} (goes : s.translate (s.grid gr).ctx (s.grid gr).rec_.status true = some a) (here : devOf a.pa = s.devn)
    (line : a.line = false) (dup : a.dup = false) (free : s.dieQ = []) (released : (s.grid gr).earlyDone = true)
    (one : (s.grid gr).rec_.status % 65536 + 8 ≤ 65536) (silent : (s.grid gr).rec_.donesig = 0) (i : Nat) :
    (s.retiring gr).byteAt i = if localOf a.pa ≤ i ∧ i < localOf a.pa + 8 then
      BitVec.ofNat 8 ((s.grid gr).status / 2 ^ (8 * (i - localOf a.pa))) else s.byteAt i := by
  have mem := (retiring_mem s gr).trans (gridWritten_plain goes here line dup free released one silent)
  refine (congrArg (Tab.get Memory.blank · i) mem).trans ((byteAt_writeMem_all s _ _ i).trans ?_)
  rw [length_bytesOf]
  by_cases inside : localOf a.pa ≤ i ∧ i < localOf a.pa + 8
  · rw [if_pos inside, if_pos inside, status_byte _ _ (by omega)]
  · rw [if_neg inside, if_neg inside]

/-- Settles O53: saving, ending, retiring and resuming, each from what the steps leave alone; the records are laid out field by field. -/
theorem faultedAndFinishedTeams : Obligations.FaultedAndFinishedTeams := by
  unfold Obligations.FaultedAndFinishedTeams
  refine ⟨fun s t gr => ⟨fun resident rings stopped rests => ⟨fun runs missing => ?_, fun runs read signals => ?_, fun runs read silent => ?_, fun ended => ?_⟩,
    fun faulted missing => ?_, fun faulted read => ⟨fun disp => ?_, fun disp => ?_, fun disp once => ?_, fun disp => ?_⟩,
    fun resident silent drained idle done => ?_, fun listed runs out over_ => ?_, fun ctx va a some_ goes here line dup free => ?_⟩,
    fun s t c k cs => ⟨fun resident pending silent yields rests read => ?_, fun resident pending silent late => ⟨fun rests read => ?_, fun busy => ?_⟩,
      fun waits next place => ⟨fun missing => ?_, fun read same => ?_, fun read changed => ?_⟩⟩, fun x g r m n => ?_⟩
  · exact teamFaultSave_asks resident rings stopped rests runs missing
  · exact ⟨_, teamFaultSave_saves resident rings stopped rests runs read signals, rfl, after_fault_save s t _ _ _⟩
  · exact ⟨_, teamFaultSave_ends resident rings stopped rests runs read silent, rfl, after_own_fault (near_faultSaved s t) _ _ _⟩
  · exact ⟨_, teamFaultSave_late resident rings stopped rests ended, after_late_fault s t⟩
  · exact dispPoll_asks faulted missing
  · exact ⟨_, dispPoll_acts faulted read (dispose_ends disp), after_own_fault (State.Near.of_own (.refl s) t) _ _ _⟩
  · exact ⟨_, dispPoll_acts faulted read (dispose_resumes disp), rfl, after_disp_resume s t _ _⟩
  · exact ⟨_, dispPoll_acts faulted read (dispose_endsGrid disp), after_disp_end _ _ faulted once⟩
  · exact dispPoll_acts faulted read (dispose_waits disp)
  · exact ⟨_, teamRetire_retires resident silent drained idle done, rfl, over_retires s t⟩
  · obtain ⟨b, grid⟩ := retiring_grid s gr
    refine ⟨_, gridRetire_retires listed runs out over_, ?_, retiring_detsets s gr, retiring_groups s gr, retiring_mem s gr,
      fun a goes here line dup free released one silent i => retiring_status goes here line dup free released one silent i⟩
    rw [grid]
  · exact deviceSignal_value some_ goes here line dup free
  · obtain ⟨state, nsave, pend, savedAt, shares, spares, slices⟩ := after_save s t k true (s.teamCtx t) (s.spansAway (s.teamCtx t) (s.imageSpan t))
    refine ⟨_, teamSaveYield_saves resident pending silent yields rests read, rfl, ⟨state, nsave, pend, savedAt, shares, spares, slices⟩,
      fun mine quiet runs v => ?_⟩
    rw [group_after_save mine]
    obtain ⟨lbl, kept, cleared⟩ := vreg_saved true quiet v
    exact ⟨lbl, fun named => kept ((keeps_hint runs v).2 named),
      fun other l _ => cleared (Bool.eq_false_iff.2 fun keeps => other ((keeps_hint runs v).1 keeps)) l⟩
  · obtain ⟨state, nsave, pend, savedAt, shares, spares, slices⟩ := after_save s t k false (s.teamCtx t) (s.spansAway (s.teamCtx t) (s.imageSpan t))
    obtain ⟨buffers, vregs⟩ := after_forced_save s t k (s.teamCtx t) (s.spansAway (s.teamCtx t) (s.imageSpan t))
    exact ⟨_, preemptDeadline_saves resident pending silent late rests read, rfl, ⟨state, nsave, pend, savedAt, shares, spares, slices⟩,
      ⟨shares, buffers⟩, vregs⟩
  · exact ⟨_, preemptDeadline_stops resident pending silent late busy, rfl, fun j listed => group_stopped s t listed⟩
  · exact teamResume_asks waits next place missing
  · exact ⟨_, teamResume_resumes waits next place read same, rfl, fun quiet whole few => after_resume _ _ quiet whole few⟩
  · exact ⟨_, teamResume_fails waits next place read changed, rfl, after_failing s t _ _ _⟩
  · obtain ⟨len, state, code, gidx, teamix, mask, core, nsave, savedAt⟩ := header_spec x m
    refine ⟨len, state.trans ?_, code, gidx, teamix, mask, core, nsave, savedAt, fun fault => record_spec fault n⟩
    cases x.state <;> rfl

end Sys2Proof.Machine
end


section
/-! PROOFS. What the firmware writes: reset, owners, endorsements, evidence, keys and frames (R113, R151 to R153, R366, R427 to R438). -/

namespace Sys2Proof.Machine

open Sys2Proof

variable {s u : State}

/-! ## Reset (R366, R448) -/

theorem extents_foldl (l : List Nat) (n : Nat) (t : Tab Nat) (i : Nat) : ((l.zipIdx n).foldl (fun t c => t.set 0 c.2 (extentOf c.1)) t).get 0 i =
    if h : n ≤ i ∧ i - n < l.length then extentOf l[i - n] else t.get 0 i := by
  induction l generalizing n t with
  | nil => simp
  | cons x l ih =>
    rw [List.zipIdx_cons, List.foldl_cons, ih]
    by_cases later : n + 1 ≤ i ∧ i - (n + 1) < l.length
    · rw [dif_pos later, dif_pos (by rw [List.length_cons]; omega)]
      have next : i - n = i - (n + 1) + 1 := by omega
      simp only [next, List.getElem_cons_succ]
    · rw [dif_neg later, Tab.get_set]
      by_cases here : i = n
      · rw [if_pos here, dif_pos (by rw [List.length_cons]; omega)]
        simp only [here, Nat.sub_self, List.getElem_cons_zero]
      · rw [if_neg here, dif_neg (by rw [List.length_cons]; omega)]

/-- The state that a reset makes before the firmware's image and the steward. -/
def State.clean (s : State) (r : ResetInfo) : State :=
  { State.reset with
    mem := (s.rebase 0#64).mem.filter (fun e => isHost e.1), hostMem := (s.rebase 0#64).hostMem, agenda := s.agenda, freeCtr := s.freeCtr, out := s.out,
    msix := s.msix, hostData := s.hostData, log := s.log, reports := s.reports, tfw := s.tfw, ufw := s.ufw, devn := r.devn,
    routes := r.routes, extents := (r.caps.take 6).zipIdx.foldl (fun t c => t.set 0 c.2 (extentOf c.1)) [],
    ctxs := [(r.ctx, { root := r.root })] }

/-- After a reset, memory, and the grid of the steward, may differ from that state. -/
theorem deviceReset_spec {r : ResetInfo} (small : r.devn < 1024) : ∃ mem grids launches steward, exec (.deviceReset r) s =
    .next { s.clean r with mem := mem, grids := grids, launches := launches, steward := steward } := by
  have loaded : ∃ mem, (s.clean r).load r.image = { s.clean r with mem := mem } :=
    keeps_foldl (P := fun u : State => ∃ mem, u = { s.clean r with mem := mem })
      (fun u p ⟨mem, eq⟩ => ⟨_, congrArg (fun u : State => u.writeMem p.1 p.2) eq⟩) r.image _ ⟨_, rfl⟩
  obtain ⟨mem, loaded⟩ := loaded
  have run : exec (.deviceReset r) s = match ((s.clean r).load r.image).translate r.ctx r.record false with
      | none => .next ((s.clean r).load r.image)
      | some x =>
        let bs := ((s.clean r).load r.image).readMem (localOf x.pa) 256
        if launchOk bs && (readLaunch bs).n == 1 && devOf x.pa == r.devn then
          .next (State.newGrid { (s.clean r).load r.image with steward := some ((s.clean r).load r.image).launches } (readLaunch bs) r.record r.ctx)
        else .next ((s.clean r).load r.image) := by
    rw [exec_deviceReset]
    exact if_neg (not_le.2 small)
  rw [run, loaded]
  split
  · exact ⟨_, _, _, _, rfl⟩
  · dsimp only
    split
    · exact ⟨_, _, _, _, rfl⟩
    · exact ⟨_, _, _, _, rfl⟩

theorem deviceReset_resets {r : ResetInfo} (small : r.devn < 1024) : Completes (exec (.deviceReset r) s) (fun u =>
    u.devn = r.devn ∧ u.routes = r.routes ∧ u.dbgu = false ∧ u.groups = [] ∧ u.teams = [] ∧ u.cycle = 0 ∧ u.out = s.out ∧
      ∀ i v, i < 6 → r.caps[i]? = some v → u.extents.get 0 i = extentOf v) := by
  obtain ⟨mem, grids, launches, steward, run⟩ := deviceReset_spec (s := s) small
  refine ⟨_, run, rfl, rfl, rfl, rfl, rfl, rfl, rfl, fun i v low cap => ?_⟩
  obtain ⟨there, value⟩ := List.getElem?_eq_some_iff.1 cap
  refine (extents_foldl (r.caps.take 6) 0 [] i).trans ?_
  rw [dif_pos (by rw [List.length_take]; omega)]
  simp only [Nat.sub_zero, List.getElem_take, value]

/-! ## Owners and endorsements (R113, R151 to R153) -/

section
variable {e : EndorseRec}

theorem form_iff (e : EndorseRec) : e.form = true ↔ e.bytes.length = 768 ∧ fieldAt e.bytes 0 4 = 0x52444E45 ∧ fieldAt e.bytes 4 2 = 1 ∧
    fieldAt e.bytes 6 2 = 0 ∧ fieldAt e.bytes 0x11 1 = 0 ∧ fieldAt e.bytes 0xA0 96 = 0 := by
  simp only [EndorseRec.form, Bool.and_eq_true, beq_iff_eq, and_assoc]

theorem recordFails_form (bad : e.form = false) : s.recordFails e = some 1 := by
  unfold State.recordFails
  dsimp only
  rw [bad]
  rfl

theorem endorsementInstall_fails {i : Nat} (fails : s.recordFails e = some i) :
    exec (.endorsementInstall e) s = .next { s with log := s.log ++ [(0x500 + i, e.serial)] } := by
  rw [exec_endorsementInstall]
  unfold execEndorsementInstall
  simp only [fails]

end

section
variable {e : EndorseRec} {c : Ctx} {w : Owner} (form : e.form = true) (found : s.ctxs.find e.ctx = some c) (owned : c.owners.find e.owner = some w)
  (hash : w.okh = e.okh)
include form found owned hash

/-- The checks of a record whose first three pass (R152). -/
theorem recordFails_eq : s.recordFails e =
    if Config.verify w.key w.exponent e.covered e.sig = false then some 4
    else if (c.serials.find e.owner).any (fun x => decide (e.serial ≤ x)) then some 5
    else if e.budget == 0 && !c.endorsed.contains (e.owner, e.codeh) then some 6
    else if e.budget != 0 && s.cores.any (fun y => decide (64 ≤ (s.endorseLeft y.1 e).length)) then some 7
    else none := by
  have ctx : s.ctx e.ctx = c := Tab.get_of_find found
  unfold State.recordFails
  dsimp only
  rw [form, found, ctx, owned]
  simp [hash]

theorem recordFails_four : s.recordFails e = some 4 ↔ Config.verify w.key w.exponent e.covered e.sig = false := by
  rw [recordFails_eq form found owned hash]
  constructor
  · intro fails
    by_contra verified
    rw [if_neg verified] at fails
    split at fails
    · simp at fails
    · split at fails
      · simp at fails
      · split at fails <;> simp at fails
  · exact fun bad => if_pos bad

theorem recordFails_none (verified : Config.verify w.key w.exponent e.covered e.sig = true) (fresh : ∀ n, c.serials.find e.owner = some n → n < e.serial)
    (known : e.budget = 0 → (e.owner, e.codeh) ∈ c.endorsed) (room : e.budget ≠ 0 → ∀ y ∈ s.cores, (s.endorseLeft y.1 e).length < 64) :
    s.recordFails e = none := by
  have newer : ¬ ((c.serials.find e.owner).any (fun x => decide (e.serial ≤ x)) = true) := by
    cases last : c.serials.find e.owner with
    | none => simp
    | some n => simpa using fresh n last
  have old : ¬ ((e.budget == 0 && !c.endorsed.contains (e.owner, e.codeh)) = true) := by
    simpa using known
  have free : ¬ ((e.budget != 0 && s.cores.any (fun y => decide (64 ≤ (s.endorseLeft y.1 e).length))) = true) := by
    simp only [Bool.and_eq_true, bne_iff_ne, List.any_eq_true, decide_eq_true_iff, not_and, not_exists]
    exact fun some_ y listed => not_le.2 (room some_ y listed)
  rw [recordFails_eq form found owned hash, if_neg (by rw [verified]; decide), if_neg newer, if_neg old, if_neg free]

end

/-- How a record's budget is shared among the cores (R152, R153). -/
def State.sharesOf (s : State) (e : EndorseRec) : List (Nat × Nat) :=
  if e.budget = 2 ^ 32 - 1 then (List.range Config.cores).map (fun x => (x, 2 ^ 32 - 1))
  else shareBudget s.freeCtr e.budget (s.coresOf e.ctx) ((List.range Config.cores).filter (fun x => !(s.coresOf e.ctx).contains x))

/-- The entry of a record with a budget. -/
def endorseEntry (e : EndorseRec) (budget : Nat) : Endorse :=
  { owner := e.owner, codeh := e.codeh, rlbl := e.rlbl, budget := budget, serial := e.serial }

/-- A core's table takes a record's entry. -/
def State.endorseAt (a : State) (e : EndorseRec) (x : Nat × Nat) : State :=
  let k := a.core x.1
  a.setCore x.1 { k with endorse := k.endorse.put e.ctx (if x.2 = 0 then a.endorseLeft x.1 e else a.endorseLeft x.1 e ++ [endorseEntry e x.2]) }

/-- The state after a record has been installed. -/
def State.installed (s : State) (e : EndorseRec) : State :=
  let s1 := (s.sharesOf e).foldl (fun a x => a.endorseAt e x) s
  { s1 with ctxs := s1.ctxs.put e.ctx { s.ctx e.ctx with
              serials := (s.ctx e.ctx).serials.put e.owner e.serial, endorsed := (e.owner, e.codeh) :: (s.ctx e.ctx).endorsed },
            log := s1.log ++ [(0x500, e.serial)] }

section
variable {e : EndorseRec}

theorem endorsementInstall_installs (passes : s.recordFails e = none) : exec (.endorsementInstall e) s = .next (s.installed e) := by
  rw [exec_endorsementInstall]
  unfold execEndorsementInstall
  simp only [passes]
  rfl

theorem endorseAt_cores (s : State) (e : EndorseRec) (l : List (Nat × Nat)) : ∃ cores, l.foldl (fun a x => a.endorseAt e x) s = { s with cores := cores } :=
  keeps_foldl (P := fun u : State => ∃ cores, u = { s with cores := cores })
    (by rintro u x ⟨cores, rfl⟩; exact ⟨_, rfl⟩) l s ⟨_, rfl⟩

theorem core_setCore_ne (s : State) {n j : Nat} (c : Core) (other : j ≠ n) : (s.setCore n c).core j = s.core j := Tab.get_put_ne _ _ _ other

/-- Each core whose share is not zero then has the entry. -/
theorem mem_endorseAt {l : List (Nat × Nat)} {k n : Nat} (some_ : n ≠ 0) (once : ∀ x ∈ l, x.1 = k → x.2 = n) (mem : (k, n) ∈ l) :
    endorseEntry e n ∈ ((l.foldl (fun a x => a.endorseAt e x) s).core k).endorse.get [] e.ctx := by
  have makes (u : State) : endorseEntry e n ∈ ((u.endorseAt e (k, n)).core k).endorse.get [] e.ctx := by
    rw [State.endorseAt]
    dsimp only
    rw [core_setCore]
    dsimp only
    rw [Tab.get_put_self, if_neg some_]
    exact List.mem_append_right _ (List.mem_singleton_self _)
  induction l generalizing s with
  | nil => cases mem
  | cons x l ih =>
    rw [List.foldl_cons]
    by_cases later : (k, n) ∈ l
    · exact ih (fun y hy => once y (List.mem_cons_of_mem _ hy)) later
    · have here : x = (k, n) := ((List.mem_cons.1 mem).resolve_right later).symm
      subst here
      refine foldl_keeps_mem (P := fun u : State => endorseEntry e n ∈ (u.core k).endorse.get [] e.ctx) (fun y hy u hu => ?_) (makes s)
      by_cases same : y.1 = k
      · exact absurd (show (k, n) ∈ l by rw [← same, ← once y (List.mem_cons_of_mem _ hy) same]; exact hy) later
      · rw [State.endorseAt, core_setCore_ne _ _ (Ne.symm same)]
        exact hu

theorem installed_spec (s : State) (e : EndorseRec) :
    ((s.installed e).ctx e.ctx).serials.find e.owner = some e.serial ∧ (s.installed e).log = s.log ++ [(0x500, e.serial)] ∧ (s.installed e).mem = s.mem ∧
      (e.budget = 2 ^ 32 - 1 → ∀ k, k < 144 →
        { owner := e.owner, codeh := e.codeh, rlbl := e.rlbl, budget := 2 ^ 32 - 1, serial := e.serial } ∈ ((s.installed e).core k).endorse.get [] e.ctx) := by
  obtain ⟨cores, eq⟩ := endorseAt_cores s e (s.sharesOf e)
  refine ⟨?_, ?_, ?_, fun all k small => ?_⟩
  · have ctx : (s.installed e).ctx e.ctx = _ := Tab.get_put_self ..
    rw [ctx]
    exact Tab.find_put_self ..
  · rw [State.installed, eq]
  · rw [State.installed, eq]
  · have shares : s.sharesOf e = (List.range Config.cores).map (fun x => (x, 2 ^ 32 - 1)) := if_pos all
    refine mem_endorseAt (s := s) (l := s.sharesOf e) (by decide) (fun x hx same => ?_) ?_
    · rw [shares] at hx
      obtain ⟨j, -, rfl⟩ := List.mem_map.1 hx
      rfl
    · rw [shares]
      exact List.mem_map.2 ⟨k, List.mem_range.2 small, rfl⟩

end

theorem ownerRegister_registers {ctx slot : Nat} {key : BitVec 4096} {c : Ctx} (found : s.ctxs.find ctx = some c) (low : slot < 16)
    (free : c.owners.find slot = none) : exec (.ownerRegister ctx slot key) s =
      .next { s with ctxs := s.ctxs.put ctx { c with owners := c.owners.put slot (ownerOf key) } } := by
  rw [exec_ownerRegister, execOwnerRegister]
  simp only [found]
  exact if_neg (by simp [free, low])

theorem ownerRegister_idles {ctx slot : Nat} {key : BitVec 4096} {c : Ctx} (found : s.ctxs.find ctx = some c) (taken : c.owners.find slot ≠ none) :
    exec (.ownerRegister ctx slot key) s = .next s := by
  rw [exec_ownerRegister, execOwnerRegister]
  simp only [found]
  exact if_pos (by simp [Option.isSome_iff_ne_none.2 taken])

end Sys2Proof.Machine
end


section
/-! PROOFS. Evidence, keys, frames and power; the firmware's acts together (R427 to R438). -/

namespace Sys2Proof.Machine

open Sys2Proof

variable {s u : State}

/-! ## Evidence (R432 to R434) -/

/-- The fields of an evidence record that its signature covers. -/
def State.evidenceFields (s : State) (nonce : BitVec 512) (ctx : Nat) : List (Nat × Nat) :=
  [(0x44564E45, 4), (1, 2), ((if s.dbgu then 1 else 0) + (if (s.ctx ctx).prot then 2 else 0), 2), (Config.serial, 8), (s.devn, 2),
   (Config.stepping.toNat, 1), (0, 5), (ctx, 8), (nonce.toNat, 64), ((Config.sha512 s.tfw).toNat, 64), ((Config.sha512 s.ufw).toNat, 64),
   (s.stewardHash.toNat, 64), ((Config.configHash s.configuration).toNat, 64), ((s.ownersHash ctx).toNat, 64), (s.cycle, 8), (0, 88)]

/-- The evidence record. -/
def State.evidence (s : State) (nonce : BitVec 512) (ctx : Nat) : List Byte := signed (layout (s.evidenceFields nonce ctx))

theorem evidence_eq (s : State) (nonce : BitVec 512) (ctx : Nat) :
    s.evidence nonce ctx = layout (s.evidenceFields nonce ctx) ++ bytesOf (Config.sign (layout (s.evidenceFields nonce ctx))).toNat 512 := rfl

theorem evidence_length (s : State) (nonce : BitVec 512) (ctx : Nat) : (s.evidence nonce ctx).length = 1024 := by
  rw [evidence_eq, List.length_append, length_bytesOf, length_layout]
  simp [State.evidenceFields]

theorem evidence_magic (s : State) (nonce : BitVec 512) (ctx : Nat) : fieldAt (s.evidence nonce ctx) 0 4 = 0x44564E45 := by
  rw [evidence_eq]
  exact (fieldAt_layout_append (i := 0) rfl rfl).trans (by norm_num)

theorem toNat_mod_bytes {w : Nat} (x : BitVec (8 * w)) : x.toNat % 256 ^ w = x.toNat := Nat.mod_eq_of_lt (lt_of_lt_of_eq x.isLt (pow_mul 2 8 w))

theorem evidence_nonce (s : State) (nonce : BitVec 512) (ctx : Nat) : fieldAt (s.evidence nonce ctx) 0x20 64 = nonce.toNat := by
  rw [evidence_eq]
  exact (fieldAt_layout_append (i := 8) rfl rfl).trans (toNat_mod_bytes (w := 64) nonce)

theorem evidence_body (s : State) (nonce : BitVec 512) (ctx : Nat) :
    bytesOf 0x44564E45 4 ++ bytesOf 1 2 ++ bytesOf ((if s.dbgu then 1 else 0) + (if (s.ctx ctx).prot then 2 else 0)) 2 ++ bytesOf Config.serial 8 ++
      bytesOf s.devn 2 ++ [Config.stepping] ++ bytesOf 0 5 ++ bytesOf ctx 8 ++ bytesOf nonce.toNat 64 ++ bytesOf (Config.sha512 s.tfw).toNat 64 ++
      bytesOf (Config.sha512 s.ufw).toNat 64 ++ bytesOf s.stewardHash.toNat 64 ++ bytesOf (Config.configHash s.configuration).toNat 64 ++
      bytesOf (s.ownersHash ctx).toNat 64 ++ bytesOf s.cycle 8 ++ bytesOf 0 88 = layout (s.evidenceFields nonce ctx) := by
  have stepping : [Config.stepping] = bytesOf Config.stepping.toNat 1 := by simp [bytesOf]
  rw [stepping]
  simp only [State.evidenceFields, layout, List.flatMap_cons, List.flatMap_nil, List.append_nil, List.append_assoc]

theorem evidenceRequest_reports {nonce : BitVec 512} {ctx : Nat} (read : s.missing s.stewardSpans.1 s.stewardSpans.2 = []) :
    exec (.evidenceRequest nonce ctx) s = .next (({ s with reports := s.reports ++ [s.evidence nonce ctx] } : State).forget s.stewardSpans.1
      (s.spansAway s.stewardSpans.1 s.stewardSpans.2)) := by
  rw [exec_evidenceRequest, execEvidenceRequest]
  exact withOwn_of_read read (congrArg (fun b => Host.Outcome.next { s with reports := s.reports ++ [signed b] }) (evidence_body s nonce ctx))

theorem forget_eq (s : State) (ctx : Nat) (away : List (Nat × Nat)) : ∃ reads, s.forget ctx away = { s with ownReads := reads } := by
  unfold State.forget
  split
  · exact ⟨_, rfl⟩
  · exact ⟨_, rfl⟩

/-! ## Keys (R427, R429) -/

section
variable {ctx : Nat} {c : Ctx} (found : s.ctxs.find ctx = some c)
include found

theorem keyRotate_installs (first : c.prev = none) :
    exec (.keyRotate ctx) s = .next { s with ctxs := s.ctxs.put ctx { c with cur := c.cur + 1, prev := some c.cur } } := by
  rw [exec_keyRotate, execKeyRotate]
  simp only [found]
  exact if_pos (by rw [first]; rfl)

theorem keyRotate_switches (second : c.prev ≠ none) (behind : c.sendGen ≠ c.cur) (free : s.stalled = []) :
    exec (.keyRotate ctx) s = .next { s with ctxs := s.ctxs.put ctx { c with sendGen := c.cur, nonces := [] } } := by
  rw [exec_keyRotate, execKeyRotate]
  simp only [found]
  rw [if_neg (by simpa using second), if_pos behind]
  simp only [free, List.filter_nil, List.foldl_nil]

theorem keyRotate_discards (second : c.prev ≠ none) (switched : c.sendGen = c.cur) :
    exec (.keyRotate ctx) s = .next { s with ctxs := s.ctxs.put ctx { c with prev := none } } := by
  rw [exec_keyRotate, execKeyRotate]
  simp only [found]
  rw [if_neg (by simpa using second), if_neg (not_not.2 switched)]

end

theorem protectedContextCreate_barred {ctx root : Nat} (unlocked : s.dbgu = true) : exec (.protectedContextCreate ctx root) s = .next s := by
  rw [exec_protectedContextCreate, execProtectedContextCreate]
  exact if_pos (by rw [unlocked]; rfl)

theorem protectedContextCreate_creates {ctx root : Nat} (locked : s.dbgu = false) (fresh : s.ctxs.find ctx = none) :
    exec (.protectedContextCreate ctx root) s = .next { s with ctxs := s.ctxs.put ctx { root := root, prot := true } } := by
  rw [exec_protectedContextCreate, execProtectedContextCreate]
  exact if_neg (by rw [locked, fresh]; decide)

/-! ## Frames (R435, R436) -/

/-- What the taking of frames has left of memory and of the record of owners. -/
structure Taken (s u : State) (ctx base n : Nat) : Prop where
  owners : ∀ f, u.owners.find f = if base ≤ f ∧ f < base + n then some ctx else s.owners.find f
  mem : ∀ a, u.byteAt a = if base ≤ a / 65536 ∧ a / 65536 < base + n ∧ s.owners.find (a / 65536) ≠ some ctx then 0#8 else s.byteAt a
  glbl : ∀ g, u.glbl.get 0#16 g = if base ≤ g / 256 ∧ g / 256 < base + n ∧ s.owners.find (g / 256) ≠ some ctx then 0#16 else s.glbl.get 0#16 g

theorem byteAt_scrub (s : State) (fr a : Nat) : (s.scrub fr).byteAt a = if a / 65536 = fr then 0#8 else s.byteAt a := by
  refine (Tab.get_filter_key Memory.blank (fun n => n / 65536 != fr) s.mem a).trans ?_
  by_cases here : a / 65536 = fr
  · rw [if_pos here, if_neg (by simp [here])]
    rfl
  · rw [if_neg here, if_pos (by simp [here])]
    rfl

theorem glbl_scrub (s : State) (fr g : Nat) : (s.scrub fr).glbl.get 0#16 g = if g / 256 = fr then 0#16 else s.glbl.get 0#16 g := by
  refine (Tab.get_filter_key 0#16 (fun n => n / 256 != fr) s.glbl g).trans ?_
  by_cases here : g / 256 = fr
  · rw [if_pos here, if_neg (by simp [here])]
  · rw [if_neg here, if_pos (by simp [here])]

theorem find_put {α : Type} (m : Tab α) (k j : Nat) (v : α) : (m.put k v).find j = if j = k then some v else m.find j := by
  split
  · rename_i here
    rw [here, Tab.find_put_self]
  · rename_i other
    exact Tab.find_put_ne _ _ other

theorem takeFrame_taken {ctx base n : Nat} (h : Taken s u ctx base n) : Taken s (u.takeFrame ctx (base + n)) ctx base (n + 1) := by
  have own := h.owners (base + n)
  rw [if_neg (by omega)] at own
  by_cases mine : s.owners.find (base + n) = some ctx
  · have same : u.takeFrame ctx (base + n) = u := if_pos (own.trans mine)
    rw [same]
    refine ⟨fun f => ?_, fun a => ?_, fun g => ?_⟩
    · rw [h.owners]
      by_cases here : f = base + n
      · rw [here, if_neg (by omega), if_pos (by omega), mine]
      · exact if_congr (by omega) rfl rfl
    · rw [h.mem]
      by_cases here : a / 65536 = base + n
      · rw [if_neg (by omega), if_neg (by rw [here]; exact fun h => h.2.2 mine)]
      · exact if_congr (by constructor <;> (rintro ⟨a, b, c⟩; exact ⟨a, by omega, c⟩)) rfl rfl
    · rw [h.glbl]
      by_cases here : g / 256 = base + n
      · rw [if_neg (by omega), if_neg (by rw [here]; exact fun h => h.2.2 mine)]
      · exact if_congr (by constructor <;> (rintro ⟨a, b, c⟩; exact ⟨a, by omega, c⟩)) rfl rfl
  · have scrubbed : u.takeFrame ctx (base + n) = { u.scrub (base + n) with owners := u.owners.put (base + n) ctx } :=
      if_neg fun same => mine (own.symm.trans same)
    rw [scrubbed]
    refine ⟨fun f => ?_, fun a => ?_, fun g => ?_⟩
    · refine (find_put _ _ _ _).trans ?_
      rw [h.owners]
      by_cases here : f = base + n
      · rw [if_pos here, if_pos (by omega)]
      · rw [if_neg here]
        exact if_congr (by omega) rfl rfl
    · refine (byteAt_scrub u (base + n) a).trans ?_
      rw [h.mem]
      by_cases here : a / 65536 = base + n
      · rw [if_pos here, if_pos ⟨by omega, by omega, by rw [here]; exact mine⟩]
      · rw [if_neg here]
        exact if_congr (by constructor <;> (rintro ⟨a, b, c⟩; exact ⟨a, by omega, c⟩)) rfl rfl
    · refine (glbl_scrub u (base + n) g).trans ?_
      rw [h.glbl]
      by_cases here : g / 256 = base + n
      · rw [if_pos here, if_pos ⟨by omega, by omega, by rw [here]; exact mine⟩]
      · rw [if_neg here]
        exact if_congr (by constructor <;> (rintro ⟨a, b, c⟩; exact ⟨a, by omega, c⟩)) rfl rfl

/-- The frames of a range have been taken (R435). -/
theorem takeFrames_taken (s : State) (ctx base n : Nat) : Taken s (((List.range n).map (base + ·)).foldl (fun a f => a.takeFrame ctx f) s) ctx base n := by
  induction n with
  | zero => exact ⟨fun f => (if_neg (by omega)).symm, fun a => (if_neg (by omega)).symm, fun g => (if_neg (by omega)).symm⟩
  | succ n ih =>
    rw [List.range_succ, List.map_append, List.foldl_append]
    exact takeFrame_taken ih

/-- An allocation takes its frames, and makes its report. -/
theorem frameAllocate_takes {ctx base n : Nat} (some_ : n ≠ 0) (there : ∀ i, i < n → s.frameExists (base + i) = true) : ∃ report, exec (.frameAllocate ctx base n) s =
    .next { ((List.range n).map (base + ·)).foldl (fun a f => a.takeFrame ctx f) s with
      reports := (((List.range n).map (base + ·)).foldl (fun a f => a.takeFrame ctx f) s).reports ++ [report] } := by
  have all : ((List.range n).map (base + ·)).all s.frameExists = true := by
    refine List.all_eq_true.2 fun f hf => ?_
    obtain ⟨i, hi, rfl⟩ := List.mem_map.1 hf
    exact there i (List.mem_range.1 hi)
  rw [exec_frameAllocate, execFrameAllocate]
  exact ⟨_, if_neg (by simp [some_, all])⟩

end Sys2Proof.Machine
end


section
/-! PROOFS. The debug block: the trace unit, the reasons of a sample, counters, breakpoints and steps (R439 to R446). -/

namespace Sys2Proof.Machine

open Sys2Proof

variable {s u : State}

/-! ## The trace unit (R440, R441) -/

theorem bitOf_zero_eq_false (v : Nat) : bitOf v 0 = false ↔ v % 2 = 0 := by
  simp only [bitOf, pow_zero, Nat.div_one, beq_eq_false_iff_ne]
  omega

theorem trcctlWrite_off {core : Nat} {v : DWord} (off : (trcctlBits v).toNat % 2 = 0) :
    exec (.trcctlWrite core v) s =
      .next (s.setCore core (((s.core core).setReg 0 (trcctlBits v).toNat).setReg 8 ((s.core core).reg 8 / 2 * 2))) := by
  rw [exec_trcctlWrite, execTrcctlWrite]
  exact if_pos (by rw [(bitOf_zero_eq_false _).2 off]; rfl)

theorem trcctlWrite_starts {core : Nat} {v : DWord} (on : (trcctlBits v).toNat % 2 = 1) (was : (s.core core).reg 0 % 2 = 0)
    (leased : s.ringLeased ((trcctlBits v).toNat / 2 ^ 48) ((s.core core).reg 0x10) ((s.core core).reg 0x18) = true) :
    exec (.trcctlWrite core v) s = .next (s.setCore core (((s.core core).setReg 0 (trcctlBits v).toNat).setReg 8 1)) := by
  rw [exec_trcctlWrite, execTrcctlWrite]
  rw [if_neg (by rw [(bitOf_zero_iff _).2 on]; decide), if_neg (by rw [(bitOf_zero_eq_false _).2 was]; simp), if_pos leased]

theorem traceLeaseBroken_stops {core : Nat} (runs : (s.core core).reg 8 % 2 = 1) :
    exec (.traceLeaseBroken core) s = .next (s.setCore core ((s.core core).setReg 8 ((s.core core).reg 8 - 1 ||| 2))) := by
  rw [exec_traceLeaseBroken, execTraceLeaseBroken]
  exact if_pos ((bitOf_zero_iff _).2 runs)

theorem traceSample_idles {core n : Nat} (off : (s.core core).reg 0 % 2 = 0) : exec (.traceSample core n) s = .next s := by
  rw [exec_traceSample, execTraceSample]
  exact if_pos (by rw [(bitOf_zero_eq_false _).2 off]; rfl)

theorem nextAfter_singleton (last n : Nat) : nextAfter last [n] = some n := by
  unfold nextAfter
  by_cases later : last < n
  · simp [later]
  · simp [later]

/-- Whether the record of a sample is masked (R437, R441). -/
abbrev State.sampleMasked (s : State) (k : Nat) (x : Path) : Prop :=
  x.pls ≠ [] ∨ (s.group k).apath ≠ [] ∨ (s.ctx (s.ctxOf k)).prot = true

theorem sampleMasked_bool {k : Nat} {x : Path} {g : Group} (group : s.group k = g) {ctx : Nat} (same : s.ctxOf k = ctx) :
    (!x.pls.isEmpty || !g.apath.isEmpty || (s.ctx ctx).prot) = decide (s.sampleMasked k x) := by
  subst group same
  rw [Bool.eq_iff_iff]
  simp [State.sampleMasked, or_assoc]

/-- The core once a sample of its scheduler `n` has been taken. -/
def Core.sampled (c : Core) (n slot p cycle : Nat) : Core :=
  { c with sampleAt := ((c.sampleAt.put n (slot + 1)).put (40 + n) cycle).put (4 + 8 * n + slot) (p + 1) }

/-- The record of a sample. -/
def State.sampleBytes (s : State) (core n k p : Nat) (x : Path) : List Byte :=
  let g := s.group k
  let masked := s.sampleMasked k x
  let z (i : Nat) : Nat := if masked then 0 else i
  traceBytes 1 core (n + 4 * g.gidx) p (s.pathReason k x + (if masked then 64 else 0)) (s.team (teamOf k)).teamix (z (g.active x).toNat) (z x.pos)
    (z g.apc.toNat) s.cycle 0

theorem traceSample_records {core n k p : Nat} {x : Path} (only : s.groups = [(k, s.group k)]) (paths : (s.group k).paths = [(p, x)])
    (here : (s.team (teamOf k)).core = core) (resident : (s.team (teamOf k)).state = .resident) (sched : (s.group k).sched = n) (small : n < 4)
    (traced : s.ctxOf k = (s.core core).reg 0 / 2 ^ 48) (on : (s.core core).reg 0 % 2 = 1) (low : 8 ≤ (s.core core).reg 0 / 2 ^ 11 % 32)
    (high : (s.core core).reg 0 / 2 ^ 11 % 32 ≤ 20)
    (due : (s.core core).sampleAt.get 0 (40 + n) + 2 ^ ((s.core core).reg 0 / 2 ^ 11 % 32) ≤ s.cycle) :
    exec (.traceSample core n) s = .next ((s.setCore core ((s.core core).sampled n (s.group k).slot p s.cycle)).traceWrite core
      (s.sampleBytes core n k p x)) := by
  have chosen : s.groups.filter (fun e => (s.team (teamOf e.1)).core == core && (s.team (teamOf e.1)).state == .resident
      && e.2.sched == n && s.ctxOf e.1 == (s.core core).reg 0 / 2 ^ 48) = [(k, s.group k)] := by
    rw [only, List.filter_cons_of_pos (by simp [here, resident, sched, traced]), List.filter_nil]
  have sper : bitsOf ((s.core core).reg 0) 11 5 = (s.core core).reg 0 / 2 ^ 11 % 32 := rfl
  rw [exec_traceSample]
  unfold execTraceSample
  dsimp only
  rw [chosen, sper, if_neg (by
    rw [(bitOf_zero_iff _).2 on]
    simp only [Bool.not_true, Bool.false_or, Bool.or_eq_true, decide_eq_true_iff]
    omega)]
  simp only [List.map_cons, List.map_nil, nextAfter_singleton, List.find?_cons, beq_self_eq_true, paths, Nat.add_sub_cancel]
  rw [sampleMasked_bool rfl traced]
  simp only [Tab.get, if_true, decide_eq_true_eq]
  rfl

/-! ## The reason of a path (R441) -/

section
variable {k : Nat} {x : Path}

theorem pathReason_held (held : x.held.isSome) : s.pathReason k x = 0x1A := if_pos held

theorem pathReason_stopped (free : x.held = none) (stopped : (s.group k).cstopped = true ∨ (s.team (teamOf k)).bell.isSome) :
    s.pathReason k x = 0x1C := by
  unfold State.pathReason
  dsimp only
  rw [if_neg (by rw [free]; decide), if_pos (by simpa using stopped)]

/-- The reason of a path that is ready. -/
def State.readyReason (s : State) (k : Nat) (x : Path) : Nat :=
  ((s.group k).readyReasons x).getD (Config.freeChoice s.freeCtr % ((s.group k).readyReasons x).length) 32

/-- The reason of a path that nothing stops. -/
def State.phaseReason (s : State) (k : Nat) (x : Path) : Nat :=
  let g := s.group k
  match x.phase with
  | .parked => 0x0A
  | .marker => 0x0B
  | .awaiting => 0x07
  | .ending => if g.ticketPending x.qmask (List.range 16) then 0x07 else 0x08
  | .fall => if g.drained x then 0x11 else 0x08
  | .take => if g.starved x then s.sliceReason k else if g.drained x then s.readyReason k x else 0x08
  | .issuing =>
    if x.waitc = 0 then s.readyReason k x
    else if x.waitc = 1 then 0x01
    else if x.waitc = 2 then 0x03
    else if x.waitc = 3 then 0x04
    else if x.waitc = 4 then 0x05
    else x.waitc % 256

theorem pathReason_eq (free : x.held = none) (runs : (s.group k).cstopped = false) (bell : (s.team (teamOf k)).bell = none) :
    s.pathReason k x = s.phaseReason k x :=
  (if_neg (by rw [free]; decide)).trans (if_neg (by rw [runs, bell]; decide))

/-- A path that is ready issues, or waits for one of four reasons; in a group that a step has stopped it does not issue. -/
theorem readyReasons_mem (g : Group) (x : Path) {n : Nat} (mem : n ∈ g.readyReasons x) :
    n ∈ [0x20, 0x11, 0x0E, 0x0F, 0x10] ∧ ((g.stepStopped = true ∨ g.stepDrain = true) → n ≠ 0x20) := by
  unfold Group.readyReasons at mem
  simp only [List.append_assoc, List.mem_append, List.mem_ite_nil_left, List.mem_ite_nil_right, List.mem_singleton, Bool.or_eq_true, not_or] at mem
  obtain ⟨runs, rfl⟩ | rfl | ⟨-, rfl⟩ | ⟨-, rfl⟩ | ⟨-, rfl⟩ := mem
  · exact ⟨by decide, fun stopped => absurd stopped (not_or.2 runs)⟩
  · exact ⟨by decide, fun _ => by decide⟩
  · exact ⟨by decide, fun _ => by decide⟩
  · exact ⟨by decide, fun _ => by decide⟩
  · exact ⟨by decide, fun _ => by decide⟩

theorem readyReasons_ne_nil (g : Group) (x : Path) : g.readyReasons x ≠ [] := by
  unfold Group.readyReasons
  simp

theorem readyReason_mem (s : State) (k : Nat) (x : Path) : s.readyReason k x ∈ (s.group k).readyReasons x := by
  have small := Nat.mod_lt (Config.freeChoice s.freeCtr) (List.length_pos_of_ne_nil (readyReasons_ne_nil (s.group k) x))
  rw [State.readyReason, List.getD_eq_getElem?_getD, List.getElem?_eq_getElem small]
  exact List.getElem_mem small

theorem phaseReason_ready (ready : (s.group k).starved x = false)
    (phase : x.phase = .take ∧ (s.group k).drained x = true ∨ x.phase = .issuing ∧ x.waitc = 0) : s.phaseReason k x = s.readyReason k x := by
  unfold State.phaseReason
  obtain ⟨take, drained⟩ | ⟨issuing, waits⟩ := phase
  · simp [take, drained, ready]
  · simp [issuing, waits]

theorem phaseReason_fixed : ∀ e ∈ [(Phase.parked, 0x0A), (.marker, 0x0B), (.awaiting, 0x07), (.fall, if (s.group k).drained x then 0x11 else 0x08)],
    x.phase = e.1 → s.phaseReason k x = e.2 := by
  simp only [List.forall_mem_cons, List.not_mem_nil, false_implies, implies_true, and_true]
  refine ⟨fun h => ?_, fun h => ?_, fun h => ?_, fun h => ?_⟩ <;> simp only [State.phaseReason, h]

theorem phaseReason_undrained (take : x.phase = .take) (fed : (s.group k).starved x = false) (undrained : (s.group k).drained x = false) :
    s.phaseReason k x = 0x08 := by
  simp [State.phaseReason, take, fed, undrained]

theorem phaseReason_ending (ending : x.phase = .ending) : s.phaseReason k x = 0x07 ∨ s.phaseReason k x = 0x08 := by
  simp only [State.phaseReason, ending]
  split
  · exact .inl rfl
  · exact .inr rfl

theorem phaseReason_issuing (issuing : x.phase = .issuing) :
    (∀ e ∈ [(1, 0x01), (2, 0x03), (3, 0x04), (4, 0x05)], x.waitc = e.1 → s.phaseReason k x = e.2) ∧ (5 ≤ x.waitc → s.phaseReason k x = x.waitc % 256) := by
  simp only [List.forall_mem_cons, List.not_mem_nil, false_implies, implies_true, and_true, State.phaseReason, issuing]
  refine ⟨⟨fun h => ?_, fun h => ?_, fun h => ?_, fun h => ?_⟩, fun h => ?_⟩
  · simp [h]
  · simp [h]
  · simp [h]
  · simp [h]
  · rw [if_neg (by omega), if_neg (by omega), if_neg (by omega), if_neg (by omega), if_neg (by omega)]

theorem phaseReason_starved (take : x.phase = .take) (starved : (s.group k).starved x = true) : s.phaseReason k x = s.sliceReason k := by
  simp [State.phaseReason, take, starved]

theorem sliceReason_stopped (bell : (s.team (teamOf k)).bell = none)
    (stopped : (s.group k).aheld.isSome ∨ (s.group k).astopped = true ∨ (s.group k).halted = true) :
    s.sliceReason k = if (s.group k).aheld.isSome then 0x1A else if (s.group k).astopped then 0x1C else 0x1B := by
  unfold State.sliceReason
  dsimp only
  rw [bell, Option.isSome_none, Bool.or_false]
  by_cases held : (s.group k).aheld.isSome
  · rw [if_pos held, if_pos held]
  · rw [if_neg held, if_neg held]
    by_cases astopped : (s.group k).astopped = true
    · rw [if_pos astopped, if_pos astopped]
    · rw [if_neg astopped, if_neg astopped]
      exact if_pos ((stopped.resolve_left held).resolve_left astopped)

theorem sliceReason_waits (bell : (s.team (teamOf k)).bell = none) (free : (s.group k).aheld = none) (runs : (s.group k).astopped = false)
    (live : (s.group k).halted = false) : s.sliceReason k = awaitReason (s.group k).sHeld (s.group k).await := by
  simp [State.sliceReason, bell, free, runs, live]

/-- The reason of a word that waits for something other than a register. -/
def waitReason : Option Instr → Nat
  | none => 0x01
  | some (.popca _) => 0x12
  | some (.vld ..) => 0x13
  | some (.vsta ..) => 0x14
  | some (.run ..) | some (.yield _) | some (.yieldRec _) => 0x15
  | some (.barwait ..) | some (.bararv ..) | some (.sigwait ..) | some (.sigadd ..) | some (.sigdec ..)
  | some (.waitfc ..) | some (.fence ..) | some (.launch _) | some .early => 0x17
  | some (.alloc ..) | some (.resv ..) | some (.unresv _) | some (.free _) => 0x18
  | some (.trap ..) => 0x19
  | some _ => 0x16

theorem awaitReason_eq {held : SRegNo → Bool} {w : Option Instr} (free : w.any (fun i => (waitNames i).any held) = false) :
    awaitReason held w = waitReason w := (if_neg (by rw [free]; decide)).trans rfl

theorem forall_mem_codes {α : Type} {f : α → Nat} {l : List (α × Nat)} (codes : l.map (fun e => f e.1) = l.map (·.2)) : ∀ e ∈ l, f e.1 = e.2 :=
  List.map_inj_left.1 codes

theorem waitReason_codes (r1 r2 r3 : SRegNo) (lq : BitVec 2) (i1 : BitVec 14) (i2 : BitVec 20) (i3 : BitVec 12) (fc : FC) :
    ∀ e ∈ ([(none, 0x01), (some (.popca r1), 0x12), (some (.vld lq r1 i1), 0x13), (some (.vsta r1 i1), 0x14),
        (some (.run r1 i2), 0x15), (some (.yield r1), 0x15), (some (.lds r1 r2 i1), 0x16), (some (.barwait r1 r2), 0x17), (some (.sigwait r1 r2), 0x17),
        (some (.waitfc fc i3), 0x17), (some (.alloc r1 r2), 0x18), (some (.resv r1 r2 r3), 0x18), (some (.unresv r1), 0x18),
        (some (.trap r1 r2 r3), 0x19)] : List (Option Instr × Nat)), waitReason e.1 = e.2 := forall_mem_codes rfl

end

end Sys2Proof.Machine
end


section
/-! PROOFS. Counters, breakpoints, steps, debug reads, plain registers and the host's aperture (R422, R423, R442 to R446). -/

namespace Sys2Proof.Machine

open Sys2Proof

variable {s u : State}

theorem pmuRotate_rotates {core : Nat} (on : (s.core core).reg 0x100 % 2 = 1)
    (due : (s.core core).sampleAt.get 0 44 + 2 ^ ((s.core core).reg 0x100 / 2 ^ 8 % 32) * 2700 ≤ s.cycle) : exec (.pmuRotate core) s =
      .next (s.setCore core { s.core core with pmset := ((s.core core).pmset + 1) % ((s.core core).reg 0x100 / 2 % 4 + 1),
                                               sampleAt := (s.core core).sampleAt.put 44 s.cycle }) := by
  rw [exec_pmuRotate, execPmuRotate]
  refine if_pos ?_
  rw [Bool.and_eq_true, decide_eq_true_iff]
  exact ⟨(bitOf_zero_iff _).2 on, due⟩

/-! ## Breakpoints (R443) -/

section
variable {k p n act : Nat} {x : Path} (found : (s.group k).paths.find p = some x) (phase : x.phase = .issuing) (new : x.pass = false)
  (free : x.held = none) (runs : (s.group k).cstopped = false) (may : s.mayIssue k (x.waitc != 0) = true)
  (reached : s.breakAt k (4 * x.pos) true x.qmask = some (n, act))
include found phase new free runs may reached

theorem breakpointMatch_path : exec (.breakpointMatch k p true) s =
    if act = 2 then .next (s.setGroup k { s.group k with paths := (s.group k).paths.put p { x with held := some n, waitc := 0x11A } })
    else .next (s.raiseRec k { flt := { code := 0x11, kcode := 0x100 + n }, cslice := true, fpos := x.pos, fcycle := s.cycle, fpath := some p }) := by
  rw [exec_breakpointMatch]
  unfold execBreakpointMatch
  simp only [found, phase, new, free, runs, may, reached]
  rfl

end

theorem bkctlHrel_releases {core n : Nat} (unlocked : s.dbgu = true) : exec (.bkctlHrel core n) s = .next (s.releaseHold core n) := by
  rw [exec_bkctlHrel]
  exact if_pos unlocked

/-- What a release makes of a group of the core. -/
def Group.unheld (g : Group) (n : Nat) : Group :=
  { g with aheld := if g.aheld == some n then none else g.aheld, apass := g.apass || g.aheld == some n,
           paths := g.paths.mapVals (fun _ p => if p.held = some n then { p with held := none, pass := true, waitc := 0 } else p) }

theorem group_releaseHold (s : State) (core n k : Nat) : (s.releaseHold core n).group k =
    if (s.groups.find k).isSome then if (s.team (teamOf k)).core = core then (s.group k).unheld n else s.group k else Group.empty :=
  Tab.get_mapVals (β := Group) (fun (k : Nat) (g : Group) => if (s.team (teamOf k)).core = core then g.unheld n else g) Group.empty Group.empty s.groups k

theorem group_of_missing {k : Nat} (missing : ¬ (s.groups.find k).isSome) : s.group k = Group.empty := by
  rw [State.group, Tab.get_eq_find, Option.not_isSome_iff_eq_none.1 missing]
  rfl

theorem releaseHold_here {core n k : Nat} (here : (s.team (teamOf k)).core = core) (listed : (s.groups.find k).isSome)
    (held : (s.group k).aheld = some n) : ((s.releaseHold core n).group k).aheld = none ∧ ((s.releaseHold core n).group k).apass = true := by
  rw [group_releaseHold, if_pos listed, if_pos here, Group.unheld, held]
  simp

theorem releaseHold_elsewhere {core n k : Nat} (away : (s.team (teamOf k)).core ≠ core) : (s.releaseHold core n).group k = s.group k := by
  rw [group_releaseHold, if_neg away]
  split
  · rfl
  · rename_i missing
    exact (group_of_missing missing).symm

/-! ## Steps (R445) -/

/-- Whether a step word names a group on a core. -/
def State.stepNames (s : State) (core : Nat) (v : DWord) (k : Nat) (g : Group) : Bool :=
  (s.team (teamOf k)).core == core && (s.team (teamOf k)).state == .resident && (s.team (teamOf k)).teamix == v.toNat / 2 ^ 32
    && g.gidx == bitsOf v.toNat 27 5 && s.debugOn k

/-- What a step word makes of a group. -/
def State.stepArm (s : State) (core : Nat) (v : DWord) (k : Nat) (g : Group) : Group :=
  if s.stepNames core v k g then { g with stepArmed := some v, stepStopped := false } else g

theorem dbgstepWrite_arms {core : Nat} {v : DWord} (unlocked : s.dbgu = true) : ∃ cores, exec (.dbgstepWrite core v) s =
    .next { s with cores := cores, groups := s.groups.mapVals (s.stepArm core v) } := by
  rw [exec_dbgstepWrite, execDbgstepWrite]
  exact ⟨_, if_neg (by rw [unlocked]; decide)⟩

theorem stepArm_named {core k : Nat} {v : DWord} {g : Group} (names : s.stepNames core v k g = true) :
    (s.stepArm core v k g).stepArmed = some v ∧ (s.stepArm core v k g).stepStopped = false := by
  rw [State.stepArm, if_pos names]
  exact ⟨rfl, rfl⟩

theorem getLsbD_bitOf {w : Nat} (v : BitVec w) (i : Nat) : bitOf v.toNat i = v.getLsbD i := bitOf_eq_testBit v.toNat i

theorem stepStop_stops {k : Nat} {v : DWord} (armed : (s.group k).stepArmed = some v) (made : (s.group k).stepDrain = true)
    (plain : v.getLsbD 0 = false) (stop : v.getLsbD 1 = false) : exec (.stepStop k) s =
      .next ((s.setGroup k { s.group k with stepArmed := none, stepDrain := false, stepStopped := true }).setCore (s.team (teamOf k)).core
        ((s.core (s.team (teamOf k)).core).setReg 0x308 1)) := by
  rw [exec_stepStop]
  unfold execStepStop
  simp only [armed, made, getLsbD_bitOf, plain, stop]
  rfl

/-! ## Debug reads and plain registers (R439 to R446) -/

theorem debugRead_vreg {k n : Nat} (on : s.debugOn k = true) (resident : (s.team (teamOf k)).state = .resident) (small : n < (s.group k).nvregs) :
    exec (.debugRead k (.vreg n)) s = .next { s with debugReply := some (((s.group k).vregs.get {} n).lanes, (s.group k).regInFlight n) } := by
  rw [exec_debugRead, execDebugRead]
  simp only [on, resident]
  exact if_pos small

theorem registerWrite_plain {core off : Nat} {v : DWord} (plain : off ∈ [0x10, 0x18, 0x28, 0x108, 0x110, 0x118, 0x120]) :
    exec (.registerWrite core off v) s = .next (s.setCore core { s.core core with regs := (s.core core).regs.set 0#64 off v }) := by
  rw [exec_registerWrite, execRegisterWrite]
  simp only [List.mem_cons, List.not_mem_nil, or_false] at plain
  rcases plain with rfl | rfl | rfl | rfl | rfl | rfl | rfl <;> rfl

theorem registerWrite_locked {core off : Nat} {v : DWord} (locked : s.dbgu = false)
    (guarded : off ∈ [0x200, 0x208, 0x210, 0x218, 0x220, 0x228, 0x230, 0x238, 0x280, 0x288, 0x290, 0x298]) :
    exec (.registerWrite core off v) s = .next s := by
  have plain : ¬ ((decide (off = 0x10) || decide (off = 0x18) || decide (off = 0x28)) = true) ∧ ¬ (off = 0x100) ∧ ¬ ([0x108, 0x110, 0x118, 0x120].contains off = true) := by
    simp only [List.mem_cons, List.not_mem_nil, or_false] at guarded
    rcases guarded with rfl | rfl | rfl | rfl | rfl | rfl | rfl | rfl | rfl | rfl | rfl | rfl <;> decide
  obtain ⟨ring, counters, events⟩ := plain
  rw [exec_registerWrite, execRegisterWrite]
  dsimp only
  rw [if_neg ring, if_neg counters, if_neg events, if_pos (by rw [locked]; rfl)]
  rfl

/-! ## The host's aperture (R422, R423) -/

/-- What the host reads of a byte through the aperture. -/
def State.barByte (s : State) (la : Nat) : Byte := if s.labelAt la = 0#16 then s.byteAt la else 0xFF#8

theorem hostBar2Read_reads {a n : Nat} (ok : s.bar2Ok a n = true) : ∃ log, exec (.hostBar2Read a n) s =
    .next { s with hostData := (List.range n).map (fun i => s.barByte (s.bar2 + a + i)), log := log } := by
  rw [exec_hostBar2Read, execHostBar2Read]
  exact ⟨_, if_neg (by rw [ok]; decide)⟩

theorem writeLines_of_fits {la : Nat} {bs : List Byte} (some_ : 0 < bs.length) (fits : la % 128 + bs.length ≤ 128) (line : s.lines.find (la / 128) = none) :
    s.writeLines la bs = some (s.writeMem la bs) := by
  have one : (la + bs.length - 1) / 128 - la / 128 + 1 = 1 := by omega
  have low : max la (la / 128 * 128) = la := by omega
  have high : min (la + bs.length) ((la / 128 + 1) * 128) = la + bs.length := by omega
  rw [State.writeLines, one]
  simp only [List.range_one, List.foldl_cons, List.foldl_nil, Nat.add_zero, low, high, Nat.sub_self, List.drop_zero, Nat.add_sub_cancel_left,
    List.take_length, Option.bind_some, line, Option.isSome_none, writeLine_plain]

theorem hostBar2Write_writes {a : Nat} {bs : List Byte} (ok : s.bar2Ok a bs.length = true) (fits : (s.bar2 + a) % 128 + bs.length ≤ 128)
    (line : s.lines.find ((s.bar2 + a) / 128) = none) : exec (.hostBar2Write a bs) s = .next (s.writeMem (s.bar2 + a) bs) := by
  have some_ : 0 < bs.length := by
    simp only [State.bar2Ok, Bool.and_eq_true, decide_eq_true_iff] at ok
    exact ok.1.1
  rw [exec_hostBar2Write, execHostBar2Write, if_neg (by rw [ok]; decide), writeLines_of_fits some_ fits line]

end Sys2Proof.Machine
end


section
/-! PROOFS. What the driver and the host write and read beside the opcode table (R136, R343, R396, R405, R421 to R424). -/

namespace Sys2Proof.Machine

open Sys2Proof

variable {s u : State}

/-! ## The host's memory (R400, R423) -/

/-- The host's byte at a bus address: the one that the window shows, or one outside it. -/
def State.hostAt (s : State) (b : Nat) : Byte :=
  if s.hostOff b < 2 ^ 37 then Tab.get Memory.blank s.mem (hostWindow + s.hostOff b) else Tab.get Memory.blank s.hostMem b

theorem hostOff_inj {a b : Nat} (ha : a < 2 ^ 64) (hb : b < 2 ^ 64) : s.hostOff a = s.hostOff b ↔ a = b := by
  have base := s.hwbase.isLt
  unfold State.hostOff
  omega

/-- Of an address in the window, the bus address it shows. -/
theorem hostOff_shown {o b : Nat} (small : o < 2 ^ 37) (hb : b < 2 ^ 64) : (s.hwbase.toNat + o) % 2 ^ 64 = b ↔ o = s.hostOff b := by
  have base := s.hwbase.isLt
  unfold State.hostOff
  omega

theorem hwbase_hostPut (s : State) (bus : Nat) (v : Byte) : (s.hostPut bus v).hwbase = s.hwbase := by
  unfold State.hostPut
  dsimp only
  split
  · rfl
  · rfl

theorem hostOff_hostPut (s : State) (bus b : Nat) (v : Byte) : (s.hostPut bus v).hostOff b = s.hostOff b := by
  rw [State.hostOff, hwbase_hostPut]
  rfl

theorem hostPut_inside {bus : Nat} {v : Byte} (inside : s.hostOff bus < 2 ^ 37) :
    s.hostPut bus v = { s with mem := Tab.set Memory.blank s.mem (hostWindow + s.hostOff bus) v } := if_pos inside

theorem hostPut_outside {bus : Nat} {v : Byte} (outside : ¬ s.hostOff bus < 2 ^ 37) :
    s.hostPut bus v = { s with hostMem := Tab.set Memory.blank s.hostMem (bus % 2 ^ 64) v } := if_neg outside

theorem hostAt_hostPut {b bus : Nat} {v : Byte} (hb : b < 2 ^ 64) (hbus : bus < 2 ^ 64) :
    (s.hostPut bus v).hostAt b = if b = bus then v else s.hostAt b := by
  have same := hostOff_inj (s := s) hb hbus
  rw [State.hostAt, hostOff_hostPut]
  by_cases inside : s.hostOff bus < 2 ^ 37
  · rw [hostPut_inside inside]
    dsimp only
    by_cases shown : s.hostOff b < 2 ^ 37
    · rw [if_pos shown, Tab.get_set, State.hostAt, if_pos shown]
      exact if_congr (by rw [Nat.add_left_cancel_iff, same]) rfl rfl
    · rw [if_neg shown, if_neg (by rintro rfl; exact shown inside), State.hostAt, if_neg shown]
  · rw [hostPut_outside inside]
    dsimp only
    by_cases shown : s.hostOff b < 2 ^ 37
    · rw [if_pos shown, if_neg (by rintro rfl; exact inside shown), State.hostAt, if_pos shown]
    · rw [if_neg shown, Tab.get_set, Nat.mod_eq_of_lt hbus, State.hostAt, if_neg shown]

/-- A local address outside the window. -/
abbrev OutsideWindow (x : Nat) : Prop := x < hostWindow ∨ hostWindow + 2 ^ 37 ≤ x

theorem byteAt_hostPut {x bus : Nat} {v : Byte} (outside : OutsideWindow x) : (s.hostPut bus v).byteAt x = s.byteAt x := by
  by_cases inside : s.hostOff bus < 2 ^ 37
  · rw [hostPut_inside inside]
    exact Tab.get_set_ne _ _ _ (by unfold OutsideWindow at outside; omega)
  · rw [hostPut_outside inside]
    rfl

theorem hostWrite_spec (bs : List Byte) (bus : Nat) (s : State) (fits : bus + bs.length ≤ 2 ^ 64) :
    ((bs.zipIdx bus).foldl (fun a e => a.hostPut e.2 e.1) s).hwbase = s.hwbase ∧
      (∀ x, OutsideWindow x → ((bs.zipIdx bus).foldl (fun a e => a.hostPut e.2 e.1) s).byteAt x = s.byteAt x) ∧
      ∀ b, b < 2 ^ 64 → ((bs.zipIdx bus).foldl (fun a e => a.hostPut e.2 e.1) s).hostAt b =
        if bus ≤ b ∧ b < bus + bs.length then bs.getD (b - bus) 0#8 else s.hostAt b := by
  induction bs generalizing bus s with
  | nil => exact ⟨rfl, fun _ _ => rfl, fun b _ => (if_neg (by rw [List.length_nil]; omega)).symm⟩
  | cons v bs ih =>
    rw [List.length_cons] at fits
    obtain ⟨base, device, host⟩ := ih (bus + 1) (s.hostPut bus v) (by omega)
    rw [List.zipIdx_cons, List.foldl_cons]
    refine ⟨base.trans (hwbase_hostPut ..), fun x outside => (device x outside).trans (byteAt_hostPut outside), fun b hb => ?_⟩
    rw [host b hb, hostAt_hostPut hb (by omega), List.length_cons]
    by_cases later : bus + 1 ≤ b ∧ b < bus + 1 + bs.length
    · have next : b - bus = b - (bus + 1) + 1 := by omega
      rw [if_pos later, if_pos (by omega), next, List.getD_cons_succ]
    · rw [if_neg later]
      by_cases here : b = bus
      · rw [if_pos here, if_pos (by omega), here, Nat.sub_self, List.getD_cons_zero]
      · rw [if_neg here, if_neg (by omega)]

/-! ## Moving the window (R423) -/

theorem Tab.find_append {α : Type} (m t : Tab α) (k : Nat) : Tab.find (m ++ t) k = (m.find k).or (t.find k) := by
  induction m with
  | nil => rfl
  | cons e m ih =>
    obtain ⟨j, v⟩ := e
    change (if j = k then some v else Tab.find (m ++ t) k) = (if j = k then some v else Tab.find m k).or (t.find k)
    by_cases here : j = k
    · rw [if_pos here, if_pos here, Option.some_or]
    · rw [if_neg here, if_neg here, ih]

theorem Tab.find_none_of_keys {α : Type} {m : Tab α} {k : Nat} (none_ : ∀ e ∈ m, e.1 ≠ k) : m.find k = none := by
  cases found : m.find k with
  | none => rfl
  | some v => exact absurd rfl (none_ _ (Tab.mem_of_find found))

/-- What is found of a part of a table under new keys. -/
theorem Tab.find_rekeyed {α : Type} {p : Nat → Bool} {f : Nat → Nat} {a k : Nat} (old : p a = true) (only : ∀ j, p j = true → (f j = k ↔ j = a))
    (m : Tab α) : Tab.find ((m.filter (fun e => p e.1)).map (fun e => (f e.1, e.2))) k = m.find a := by
  induction m with
  | nil => rfl
  | cons e m ih =>
    obtain ⟨j, v⟩ := e
    change _ = if j = a then some v else Tab.find m a
    by_cases kept : p j = true
    · rw [List.filter_cons_of_pos (p := fun e : Nat × α => p e.1) kept, List.map_cons]
      change (if f j = k then some v else Tab.find _ k) = _
      rw [ih]
      exact if_congr (only j kept) rfl rfl
    · rw [List.filter_cons_of_neg (p := fun e : Nat × α => p e.1) kept, ih, if_neg (by rintro rfl; exact kept old)]

theorem Tab.nodup_keys {α : Type} [DecidableEq α] {d : α} {m : Tab α} (wf : Tab.wf d m = true) : (m.map (·.1)).Nodup := by
  induction m with
  | nil => exact List.nodup_nil
  | cons e m ih =>
    obtain ⟨k, v⟩ := e
    rw [Tab.wf_cons] at wf
    obtain ⟨-, rising, wf⟩ := wf
    rw [List.map_cons, List.nodup_cons]
    refine ⟨fun again => ?_, ih wf⟩
    obtain ⟨e, he, same⟩ := List.mem_map.1 again
    exact absurd same (Nat.ne_of_gt (rising e he))

theorem hostPuts_spec (l : List Host.Cell) (s : State) (keys : ∀ e ∈ l, e.1 < 2 ^ 64) (once : (l.map (·.1)).Nodup) :
    (l.foldl (fun a e => a.hostPut e.1 e.2) s).hwbase = s.hwbase ∧
      (∀ x, OutsideWindow x → (l.foldl (fun a e => a.hostPut e.1 e.2) s).byteAt x = s.byteAt x) ∧
      ∀ b, b < 2 ^ 64 → (l.foldl (fun a e => a.hostPut e.1 e.2) s).hostAt b = (Tab.find l b).getD (s.hostAt b) := by
  induction l generalizing s with
  | nil => exact ⟨rfl, fun _ _ => rfl, fun _ _ => rfl⟩
  | cons e l ih =>
    obtain ⟨k, v⟩ := e
    rw [List.map_cons, List.nodup_cons] at once
    obtain ⟨new, once⟩ := once
    obtain ⟨base, device, host⟩ := ih (s.hostPut k v) (fun e he => keys e (List.mem_cons_of_mem _ he)) once
    rw [List.foldl_cons]
    refine ⟨base.trans (hwbase_hostPut ..), fun x outside => (device x outside).trans (byteAt_hostPut outside), fun b hb => ?_⟩
    rw [host b hb, hostAt_hostPut hb (keys (k, v) (List.mem_cons_self ..))]
    change _ = (if k = b then some v else Tab.find l b).getD (s.hostAt b)
    by_cases here : k = b
    · subst here
      rw [if_pos rfl, if_pos rfl, Tab.find_none_of_keys (fun e he same => new (List.mem_map.2 ⟨e, he, same⟩))]
      rfl
    · rw [if_neg here, if_neg (Ne.symm here)]

theorem isHost_iff (la : Nat) : isHost la = true ↔ hostWindow ≤ la ∧ la - hostWindow < 2 ^ 37 := by
  simp only [isHost, Bool.and_eq_true, decide_eq_true_iff, hostWindow]
  omega

/-- The cells that the window shows, at their bus addresses. -/
def State.shown (s : State) : List Host.Cell :=
  (s.mem.filter (fun e => isHost e.1)).map (fun e => ((s.hwbase.toNat + (e.1 - hostWindow)) % 2 ^ 64, e.2))

/-- The state with no byte of the host, under a new base. -/
def State.unhosted (s : State) (base : DWord) : State :=
  { s with hwbase := base, mem := s.mem.filter (fun e => !isHost e.1), hostMem := [] }

theorem rebase_eq (s : State) (base : DWord) :
    s.rebase base = (s.hostMem ++ s.shown).foldl (fun a e => a.hostPut e.1 e.2) (s.unhosted base) := rfl

theorem byteAt_unhosted {base : DWord} {x : Nat} : (s.unhosted base).byteAt x = if isHost x then 0#8 else s.byteAt x := by
  refine (Tab.get_filter_key Memory.blank (fun la => !isHost la) s.mem x).trans ?_
  cases isHost x <;> rfl

theorem hostAt_unhosted {base : DWord} {b : Nat} : (s.unhosted base).hostAt b = 0#8 := by
  unfold State.hostAt
  split
  · rename_i inside
    refine byteAt_unhosted.trans (if_pos ((isHost_iff _).2 ⟨Nat.le_add_right .., ?_⟩))
    rwa [Nat.add_sub_cancel_left]
  · rfl

theorem find_shown {b : Nat} (hb : b < 2 ^ 64) (inside : s.hostOff b < 2 ^ 37) : Tab.find s.shown b = Tab.find s.mem (hostWindow + s.hostOff b) := by
  refine Tab.find_rekeyed (f := fun la => (s.hwbase.toNat + (la - hostWindow)) % 2 ^ 64) ((isHost_iff _).2 ⟨Nat.le_add_right .., ?_⟩) (fun la hla => ?_) s.mem
  · rwa [Nat.add_sub_cancel_left]
  · obtain ⟨low, high⟩ := (isHost_iff la).1 hla
    refine (hostOff_shown high hb).trans ?_
    omega

/-- A cell that the window shows has its bus address in the window. -/
theorem shown_inside {e : Host.Cell} (he : e ∈ s.shown) : e.1 < 2 ^ 64 ∧ s.hostOff e.1 < 2 ^ 37 := by
  obtain ⟨x, hx, rfl⟩ := List.mem_map.1 he
  obtain ⟨-, high⟩ := (isHost_iff x.1).1 (List.mem_filter.1 hx).2
  have small : (s.hwbase.toNat + (x.1 - hostWindow)) % 2 ^ 64 < 2 ^ 64 := Nat.mod_lt _ (by norm_num)
  exact ⟨small, lt_of_eq_of_lt ((hostOff_shown high small).1 rfl).symm high⟩

theorem nodup_shown (ok : Memory.wf s.mem = true) : (s.shown.map (·.1)).Nodup := by
  have keys : s.shown.map (·.1) =
      ((s.mem.filter (fun e => isHost e.1)).map (·.1)).map (fun la => (s.hwbase.toNat + (la - hostWindow)) % 2 ^ 64) := by
    rw [State.shown, List.map_map, List.map_map]
    rfl
  rw [keys]
  refine List.Nodup.map_on (fun x hx y hy same => ?_) (Tab.nodup_keys (Tab.wf_filter _ _ _ ok))
  obtain ⟨e, he, rfl⟩ := List.mem_map.1 hx
  obtain ⟨f, hf, rfl⟩ := List.mem_map.1 hy
  obtain ⟨lowx, highx⟩ := (isHost_iff e.1).1 (List.mem_filter.1 he).2
  obtain ⟨lowy, highy⟩ := (isHost_iff f.1).1 (List.mem_filter.1 hf).2
  have small : (s.hwbase.toNat + (f.1 - hostWindow)) % 2 ^ 64 < 2 ^ 64 := Nat.mod_lt _ (by norm_num)
  have offs := ((hostOff_shown highx small).1 same).trans ((hostOff_shown highy small).1 rfl).symm
  omega

theorem rebase_spec {base : DWord} (ok : Memory.wf s.mem = true) (host : Memory.wf s.hostMem = true)
    (away : ∀ y ∈ s.hostMem, y.1 < 2 ^ 64 ∧ 2 ^ 37 ≤ s.hostOff y.1) :
    (s.rebase base).hwbase = base ∧ (∀ x, OutsideWindow x → (s.rebase base).byteAt x = s.byteAt x) ∧
      ∀ b, b < 2 ^ 64 → (s.rebase base).hostAt b = s.hostAt b := by
  have keys : ∀ e ∈ s.hostMem ++ s.shown, e.1 < 2 ^ 64 := fun e he =>
    (List.mem_append.1 he).elim (fun h => (away e h).1) (fun h => (shown_inside h).1)
  have once : ((s.hostMem ++ s.shown).map (·.1)).Nodup := by
    rw [List.map_append, List.nodup_append]
    refine ⟨Tab.nodup_keys host, nodup_shown ok, fun x hx y hy same => ?_⟩
    obtain ⟨e, he, rfl⟩ := List.mem_map.1 hx
    obtain ⟨f, hf, rfl⟩ := List.mem_map.1 hy
    have outside := (away e he).2
    rw [same] at outside
    exact absurd (shown_inside hf).2 (not_lt.2 outside)
  obtain ⟨hwbase, device, puts⟩ := hostPuts_spec _ (s.unhosted base) keys once
  rw [rebase_eq]
  refine ⟨hwbase, fun x outside => (device x outside).trans (byteAt_unhosted.trans (if_neg fun inside => ?_)), fun b hb => ?_⟩
  · obtain ⟨low, high⟩ := (isHost_iff x).1 inside
    unfold OutsideWindow at outside
    omega
  · rw [puts b hb, hostAt_unhosted, Tab.find_append, State.hostAt]
    by_cases inside : s.hostOff b < 2 ^ 37
    · rw [if_pos inside, Tab.find_none_of_keys (m := s.hostMem) (k := b) (fun e he same => absurd inside (not_lt.2 (same ▸ (away e he).2))), Option.none_or,
        find_shown hb inside, Tab.get_eq_find]
      rfl
    · rw [if_neg inside, Tab.find_none_of_keys (m := s.shown) (k := b) (fun e he same => inside (same ▸ (shown_inside he).2)), Option.or_none, Tab.get_eq_find]
      rfl

end Sys2Proof.Machine
end


section
/-! PROOFS. The acts beside the opcode table, and the firmware's acts together (R423, R427 to R448). -/

namespace Sys2Proof.Machine

open Sys2Proof

variable {s u : State}

/-! ## Tables and the MMIO window (R136, R396, R421, R439, R448) -/

section
variable {ctx root slot : Nat} {devs : List Nat} {c : Ctx}

theorem act_context_found (found : s.ctxs.find ctx = some c) (e : Endpoint × Label) :
    s.act (.contextRoot ctx root) = { s with ctxs := s.ctxs.put ctx { c with root := root } } ∧
      s.act (.contextDevices ctx devs) = { s with ctxs := s.ctxs.put ctx { c with devices := devs } } ∧
      (slot < 32 → s.act (.endpoint ctx slot (some e)) = { s with ctxs := s.ctxs.put ctx { c with epl := c.epl.put slot e } } ∧
        s.act (.endpoint ctx slot none) = { s with ctxs := s.ctxs.put ctx { c with epl := c.epl.del slot } }) := by
  simp only [State.act, State.contextRoot, State.onCtx, found]
  refine ⟨trivial, trivial, fun small => ⟨?_, ?_⟩⟩ <;> simp [Ctx.setEndpoint, not_le.2 small]

theorem act_context_new (new : s.ctxs.find ctx = none) :
    s.act (.contextRoot ctx root) = { s with ctxs := s.ctxs.put ctx { root := root } } ∧ s.act (.contextDevices ctx devs) = s ∧
      ∀ y, s.act (.endpoint ctx slot y) = s := by
  simp only [State.act, State.contextRoot, State.onCtx, new]
  exact ⟨trivial, trivial, fun _ => trivial⟩

end

theorem act_dupEntry_put {home fr : Nat} (room : (s.dupMap.find home).isSome ∨ s.dupMap.length < 65536) :
    s.act (.dupEntry home (some fr)) = { s with dupMap := s.dupMap.put home fr } := by
  refine if_neg ?_
  rw [Bool.and_eq_true, decide_eq_true_iff, Option.isNone_iff_eq_none, ← Option.not_isSome_iff_eq_none]
  rintro ⟨missing, full⟩
  exact room.elim missing (not_lt.2 full)

theorem act_dupEntry_full {home fr : Nat} (missing : s.dupMap.find home = none) (full : 65536 ≤ s.dupMap.length) :
    s.act (.dupEntry home (some fr)) = s := by
  refine if_pos ?_
  rw [missing, decide_eq_true full]
  rfl

theorem act_dupHolders {home : Nat} {devs : List Nat} (pa : Nat) : (s.act (.dupHolders home devs)).holders pa =
    if pa / 65536 = home then devs.filter (fun d => !s.fenced.contains d) else s.holders pa := by
  have held : (s.act (.dupHolders home devs)).holders pa = (Tab.get [] (s.dupHolders.set [] home devs) (pa / 65536)).filter (fun d => !s.fenced.contains d) := rfl
  rw [held, Tab.get_set]
  split
  · rfl
  · rfl

theorem fieldAt_bytesOf_word (v : Nat) : fieldAt (bytesOf v 8) 0 8 = v % 2 ^ 64 := by
  rw [fieldAt, List.drop_zero, List.take_of_length_le (by rw [length_bytesOf]), ofBytes_bytesOf]
  norm_num

theorem mmio_core {n m : Nat} (core : n < Config.cores) (small : m < 0x1000) : s.mmio (0x1000000 + 0x1000 * n + m) = (s.core n).reg m := by
  have inside : 0x1000000 ≤ 0x1000000 + 0x1000 * n + m ∧ 0x1000000 + 0x1000 * n + m < 0x1000000 + 0x1000 * Config.cores := by omega
  have index : (0x1000000 + 0x1000 * n + m - 0x1000000) / 0x1000 = n := by omega
  have offset : (0x1000000 + 0x1000 * n + m) % 0x1000 = m := by omega
  rw [State.mmio, if_pos inside, index, offset]

theorem mmio_extent {n : Nat} (small : n < 6) : s.mmio (0x2000000 + 8 * n) = s.extents.get 0 n := by
  have cores : Config.cores = 144 := rfl
  have outside : ¬ (0x1000000 ≤ 0x2000000 + 8 * n ∧ 0x2000000 + 8 * n < 0x1000000 + 0x1000 * Config.cores) := by omega
  have inside : 0x2000000 ≤ 0x2000000 + 8 * n ∧ 0x2000000 + 8 * n < 0x2000030 ∧ (0x2000000 + 8 * n) % 8 = 0 := by omega
  have index : (0x2000000 + 8 * n - 0x2000000) / 8 = n := by omega
  rw [State.mmio, if_neg outside, if_pos inside, index]

theorem act_mmioRead_core {n m : Nat} (core : n < Config.cores) (small : m < 0x1000) :
    fieldAt (s.act (.mmioRead (0x1000000 + 0x1000 * n + m))).hostData 0 8 = (s.core n).reg m := by
  refine (fieldAt_bytesOf_word _).trans ?_
  rw [mmio_core core small]
  exact Nat.mod_eq_of_lt (Core.reg_lt ..)

theorem act_mmioRead_extent {n : Nat} (small : n < 6) :
    fieldAt (s.act (.mmioRead (0x2000000 + 8 * n))).hostData 0 8 = s.extents.get 0 n % 2 ^ 64 := by
  refine (fieldAt_bytesOf_word _).trans ?_
  rw [mmio_extent small]

theorem upset_poisons (n : Nat) : (s.act (.upset (.memory n))).poisoned (32 * n) 32 = true := by
  have one : (32 * n + 32 - 1) / 32 - 32 * n / 32 + 1 = 1 := by omega
  have sector : 32 * n / 32 + 0 = n := by omega
  have bad : (s.act (.upset (.memory n))).bad.get false n = true := (Tab.get_set false s.bad n n true).trans (if_pos rfl)
  rw [State.poisoned, one, List.range_one, List.any_cons, sector, bad]
  rfl

/-! ## O54 -/

theorem frameAllocate_spec {ctx base n : Nat} (some_ : n ≠ 0) (there : ∀ i, i < n → s.frameExists (base + i) = true) :
    Completes (exec (.frameAllocate ctx base n) s) (fun u =>
      (∀ i, i < n → u.owners.find (base + i) = some ctx) ∧
      (∀ i, i < n → s.owners.find (base + i) ≠ some ctx → ∀ a, a / 65536 = base + i → u.byteAt a = 0#8 ∧ u.glbl.get 0#16 (a / 256) = 0#16) ∧
      (∀ a, a / 65536 < base ∨ base + n ≤ a / 65536 → u.byteAt a = s.byteAt a)) := by
  obtain ⟨report, run⟩ := frameAllocate_takes (s := s) (ctx := ctx) some_ there
  have taken := takeFrames_taken s ctx base n
  refine ⟨_, run, fun i small => ?_, fun i small other a frame => ⟨?_, ?_⟩, fun a away => ?_⟩
  · exact (taken.owners _).trans (if_pos (by omega))
  · exact (taken.mem a).trans (if_pos (by rw [frame]; exact ⟨by omega, by omega, other⟩))
  · have granule : a / 256 / 256 = base + i := by omega
    exact (taken.glbl _).trans (if_pos (by rw [granule]; exact ⟨by omega, by omega, other⟩))
  · exact (taken.mem a).trans (if_neg (by omega))

theorem evidenceRequest_spec {nonce : BitVec 512} {ctx : Nat} (read : s.missing s.stewardSpans.1 s.stewardSpans.2 = []) :
    Completes (exec (.evidenceRequest nonce ctx) s) (fun u => u = { s with reports := u.reports, ownReads := u.ownReads } ∧
      ∃ b, u.reports = s.reports ++ [b] ∧ b.length = 1024 ∧ fieldAt b 0 4 = 0x44564E45 ∧ fieldAt b 0x20 64 = nonce.toNat) := by
  obtain ⟨reads, eq⟩ := forget_eq { s with reports := s.reports ++ [s.evidence nonce ctx] } s.stewardSpans.1 (s.spansAway s.stewardSpans.1 s.stewardSpans.2)
  have run := evidenceRequest_reports (nonce := nonce) (ctx := ctx) read
  rw [eq] at run
  exact ⟨_, run, rfl, _, rfl, evidence_length s nonce ctx, evidence_magic s nonce ctx, evidence_nonce s nonce ctx⟩

theorem bkctlHrel_spec {core n k : Nat} (unlocked : s.dbgu = true) : Completes (exec (.bkctlHrel core n) s) (fun u => u = { s with groups := u.groups } ∧
    ((s.team (teamOf k)).core = core → (s.groups.find k).isSome → (s.group k).aheld = some n → (u.group k).aheld = none ∧ (u.group k).apass = true) ∧
    ((s.team (teamOf k)).core ≠ core → u.group k = s.group k)) :=
  ⟨_, bkctlHrel_releases unlocked, rfl, releaseHold_here, releaseHold_elsewhere⟩

theorem dbgstepWrite_spec {core k : Nat} {w : DWord} (unlocked : s.dbgu = true) (names : s.stepNames core w k (s.group k) = true)
    (listed : (s.groups.find k).isSome) :
    Completes (exec (.dbgstepWrite core w) s) (fun u => (u.group k).stepArmed = some w ∧ (u.group k).stepStopped = false) := by
  obtain ⟨cores, run⟩ := dbgstepWrite_arms (s := s) (core := core) (v := w) unlocked
  have armed : ({ s with cores := cores, groups := s.groups.mapVals (s.stepArm core w) } : State).group k = s.stepArm core w k (s.group k) :=
    (Tab.get_mapVals (β := Group) (s.stepArm core w) Group.empty Group.empty s.groups k).trans (if_pos listed)
  obtain ⟨step, goes⟩ := stepArm_named names
  exact ⟨_, run, (congrArg Group.stepArmed armed).trans step, (congrArg Group.stepStopped armed).trans goes⟩

theorem stepStop_spec {k : Nat} {v : DWord} (armed : (s.group k).stepArmed = some v) (made : (s.group k).stepDrain = true) (plain : v.getLsbD 0 = false)
    (stop : v.getLsbD 1 = false) : Completes (exec (.stepStop k) s) (fun u =>
      (u.group k).stepStopped = true ∧ (u.group k).stepArmed = none ∧ (u.core (s.team (teamOf k)).core).reg 0x308 = 1 ∧ u.mem = s.mem) := by
  refine ⟨_, stepStop_stops armed made plain stop, ?_, ?_, ?_, rfl⟩
  · exact congrArg Group.stepStopped (State.group_setGroup s k _)
  · exact congrArg Group.stepArmed (State.group_setGroup s k _)
  · rw [core_setCore, Core.reg_setReg]
    rfl

theorem hostBar2Read_spec {a n : Nat} (ok : s.bar2Ok a n = true) : Completes (exec (.hostBar2Read a n) s) (fun u =>
    u = { s with hostData := u.hostData, log := u.log } ∧ u.hostData.length = n ∧ ∀ i, i < n → u.hostData[i]? = some (s.barByte (s.bar2 + a + i))) := by
  obtain ⟨log, run⟩ := hostBar2Read_reads (s := s) ok
  refine ⟨_, run, rfl, ?_, fun i small => ?_⟩
  · exact (List.length_map ..).trans List.length_range
  · simp [small]

/-- Settles O54: each act by the rule of its own section, those of the firmware first, then those of the debug block and the aperture, then the
acts beside the opcode table; the host's bytes by what a byte put at a bus address is read as. -/
theorem firmwareActs : Obligations.FirmwareActs := by
  unfold Obligations.FirmwareActs
  refine ⟨?_, ?_, ?_⟩
  · intro s r ctx slot root base n key nonce e c img gs cap
    refine ⟨fun large => ?_, fun small => deviceReset_resets small, fun found low free => ownerRegister_registers found low free,
      fun found taken => ownerRegister_idles found taken, fun i fails => endorsementInstall_fails fails, ?_,
      fun w form found owned hash => recordFails_four form found owned hash, form_iff e, fun bad => recordFails_form bad,
      fun read => evidenceRequest_spec read, rfl, rfl, rfl, rfl, fun unlocked => protectedContextCreate_barred unlocked,
      fun locked fresh => protectedContextCreate_creates locked fresh,
      fun found => ⟨fun first => keyRotate_installs found first, fun second behind free => keyRotate_switches found second behind free,
        fun second switched => keyRotate_discards found second switched⟩,
      fun some_ there => frameAllocate_spec some_ there, fun fits => ?_, fun exceeds => ?_⟩
    · rw [exec_deviceReset]
      exact if_pos large
    · intro w form found owned hash fresh known room
      split
      · rename_i verified
        exact ⟨_, endorsementInstall_installs (recordFails_none form found owned hash verified fresh known room), installed_spec s e⟩
      · rename_i bad
        exact endorsementInstall_fails ((recordFails_four form found owned hash).2 (Bool.eq_false_of_not_eq_true bad))
    · rw [exec_powerRedivide]
      exact if_pos fits
    · rw [exec_powerRedivide]
      exact if_neg (not_le.2 exceeds)
  · intro s core k p n a off v w x act bs r1 r2 r3 lq i1 i2 i3 fc c g t m put la
    refine ⟨fun off => trcctlWrite_off off, fun on was leased => trcctlWrite_starts on was leased, fun runs => traceLeaseBroken_stops runs,
      fun only paths here resident sched small traced on low high due => traceSample_records only paths here resident sched small traced on low high due,
      fun held => pathReason_held held, fun free stopped => pathReason_stopped free stopped, ?_, fun off => traceSample_idles off,
      fun on due => pmuRotate_rotates on due, ?_, fun unlocked => bkctlHrel_spec unlocked, ?_,
      fun armed made plain stop => stepStop_spec armed made plain stop, fun on resident small => debugRead_vreg on resident small,
      fun plain => registerWrite_plain plain, fun locked guarded => registerWrite_locked locked guarded, fun ok => hostBar2Read_spec ok,
      fun ok fits line => hostBar2Write_writes ok fits line⟩
    · intro free runs bell code waits
      have phase : code = s.phaseReason k x := pathReason_eq free runs bell
      rw [phase]
      refine ⟨phaseReason_fixed, fun take fed undrained => phaseReason_undrained take fed undrained, fun ending => phaseReason_ending ending,
        fun issuing => phaseReason_issuing issuing, fun fed ready => ?_, fun take starved => ?_⟩
      · rw [phaseReason_ready fed ready]
        exact readyReasons_mem g x (readyReason_mem s k x)
      · rw [phaseReason_starved take starved]
        refine ⟨fun stopped => sliceReason_stopped bell stopped, fun unheld runs live free e mem waiting => ?_⟩
        rw [sliceReason_waits bell unheld runs live, awaitReason_eq free]
        exact (congrArg waitReason waiting).trans (waitReason_codes r1 r2 r3 lq i1 i2 i3 fc e mem)
    · intro found phase new free runs may reached
      have run := breakpointMatch_path found phase new free runs may reached
      exact ⟨fun hold => run.trans (if_pos hold), fun fault => run.trans (if_neg fault)⟩
    · intro unlocked here resident team group on listed
      refine dbgstepWrite_spec unlocked ?_ listed
      simp only [State.stepNames, Bool.and_eq_true, beq_iff_eq]
      exact ⟨⟨⟨⟨here, resident⟩, team⟩, group⟩, on⟩
  · intro s ctx root slot home fr a n m dev bus t devs ports c e w bs ctxIs host device x
    refine ⟨fun found => act_context_found found e, fun new => act_context_new new, rfl, fun room => act_dupEntry_put room,
      fun missing full => act_dupEntry_full missing full, fun pa => act_dupHolders pa, rfl, rfl, rfl, fun off => ⟨rfl, length_bytesOf ..⟩,
      fun core small => act_mmioRead_core core small, fun small => act_mmioRead_extent small,
      fun ok hostOk away => ⟨rebase_spec ok hostOk away, fun fits => hostWrite_spec bs bus s fits⟩, rfl, upset_poisons n, rfl, rfl, rfl⟩

end Sys2Proof.Machine
end
